-- ==== Sys2Proof/Word.lean ====
section
/-! DEFINITION. The words of the MQ-9600 model: bytes, 32-bit register words, 64-bit words (spec/00_scope.md R8). -/
namespace Sys2Proof

/-- One byte of a ring entry, a buffer, a store or a register (R8). -/
abbrev Byte := BitVec 8

/-- A 32-bit word: a Jorern register, an FP32 code, a 32-bit set-up register (R131, R534). -/
abbrev Word := BitVec 32

/-- A 64-bit word: a 64-bit set-up register, a tick count, a sector address (R318, R534). -/
abbrev Word64 := BitVec 64

/-- A list of bytes in address order, lowest address first (R8: multi-byte fields are little-endian). -/
abbrev Bytes := List Byte

end Sys2Proof
end

