-- ==== Sys2Proof/Syntax.lean ====
section
/-! DEFINITION. The commands of the MQ-9600: one constructor of Instr for each row of spec/opcode_table.json.
The operands of a row are what comes to the block from outside in that step (the bytes host memory answers, a
register value and the port it comes through, a sensor reading, a die's status) and the name of the part that takes
the step (a ring, an active-command slot, a job's thread, an engine, a port, a die). -/
namespace Sys2Proof

/-- A hardware thread of a job: the job's number, the job-relative cluster and the thread (R131, R165). -/
structure Thr where
  job : Nat
  cluster : Nat
  thread : Nat
  deriving DecidableEq, Repr

/-- An outer-product engine of a job: the job's number, the job-relative cluster and the engine 0 to 3 (R106). -/
structure Eng where
  job : Nat
  cluster : Nat
  engine : Nat
  deriving DecidableEq, Repr

/-- The fields of an R-format instruction below MAJOR and FN (Table 5-2). -/
structure RForm where
  rd : BitVec 6
  rs1 : BitVec 6
  rs2 : BitVec 6
  gp : BitVec 3
  gn : BitVec 1
  deriving DecidableEq, Repr

/-- The fields of an S-format instruction below MAJOR and FN (Table 5-2). -/
structure SForm where
  ra : BitVec 6
  rb : BitVec 6
  rc : BitVec 6
  gp : BitVec 3
  gn : BitVec 1
  deriving DecidableEq, Repr

/-- The fields of an I-format instruction below MAJOR (Table 5-2). -/
structure IForm where
  rd : BitVec 6
  rs1 : BitVec 6
  imm : BitVec 14
  deriving DecidableEq, Repr

/-- The fields of a U-format instruction below MAJOR (Table 5-2). -/
structure UForm where
  rd : BitVec 6
  imm : BitVec 20
  deriving DecidableEq, Repr

/-- The fields of a B-format instruction below MAJOR (Table 5-2). -/
structure BForm where
  p : BitVec 3
  n : BitVec 1
  off : BitVec 22
  deriving DecidableEq, Repr

/-- A physical die: its channel and its number on the channel (R11). -/
structure Die where
  channel : Nat
  die : Nat
  deriving DecidableEq, Repr

/-- A line held outside flash that failed its check, named by where it lies (Table 17-1). -/
inductive LineKind where
  /-- a clean DRAM copy of a 64 KiB unit of an object version -/
  | cleanObject (obj ver unit : Nat)
  /-- a dirty page of an object version -/
  | dirtyObject (obj ver page : Nat)
  /-- a clean DRAM copy of a logical unit of the block range -/
  | cleanBlock (unit : Nat)
  /-- a block write or atomic write held dirty in DRAM: a logical unit of the block range -/
  | dirtyBlock (unit : Nat)
  /-- a dirty FTL map page -/
  | dirtyMap (page : Nat)
  /-- a clean FTL map page -/
  | cleanMap (page : Nat)
  /-- the FTL directory or a per-die unit table -/
  | directory
  /-- a line of a job's scratch or save area -/
  | jobArea (job : Nat)
  /-- a hot or prefetched row copy -/
  | hotRow (table ver comp row : Nat)
  /-- staging or working data of a gather, search or attend command, by its active-command slot -/
  | working (slot : Nat)
  /-- the kept gradient a of a reduction chunk -/
  | keptGradient (domain chunk : Nat)
  /-- the INT64 accumulation words of a reduction chunk -/
  | accumulator (domain chunk : Nat)
  /-- a cluster-store line that is a copy of an object, code, CONST or parameters -/
  | storeCopy (job cluster : Nat)
  /-- a cluster-store line written by the job since its last pause point -/
  | storeWritten (job cluster : Nat)
  /-- a cluster-store line in the STORE_LIVE range of the current pause point -/
  | storeLive (job cluster : Nat)
  /-- an instruction line of a job -/
  | code (job cluster : Nat)
  /-- the check line of a DRAM group of a package: the group's 31 data lines are suspect with it, and each is recovered as the line it
  is (R18, R448) -/
  | check (package group : Nat)
  deriving DecidableEq, Repr

/-- A DMA channel that can halt (R453), by the line it met and the owner of the move. -/
inductive DmaOwner where
  | slot (id : Nat)
  | job (id : Nat)
  | drive
  deriving DecidableEq, Repr

/-- A path that carries word parity (R446): a die-to-die interface lane group, or the path into a service unit. -/
inductive Path where
  /-- interface 0 to 6 in the order D2DC0, D2DC1, D2DC2, D2DC3, D2DM0, D2DM1, D2DI; lane group 0 or 1 -/
  | d2d (iface group : Nat)
  /-- a path whose receiving end is the service unit of that kind code and physical number -/
  | unit (kind phys : Nat)
  deriving DecidableEq, Repr

/-- What a receiver of the BEACON source supplies (R410). -/
structure BeaconFlit where
  tick : Nat
  bseq : Nat
  refLocked : Bool
  crcOk : Bool
  deriving DecidableEq, Repr

/-- A reduction packet: header of Table 11-5 and its entries (R306). -/
structure RedPacket where
  tag : Nat
  kind : Nat
  overflow : Bool
  pass2 : Bool
  sender : Nat
  pktIndex : Nat
  pktCount : Nat
  round : Nat
  chunk : Nat
  exp : Int
  margin : Nat
  k : Nat
  chunkCount : Nat
  entries : List (Nat × Int)
  deriving DecidableEq, Repr

/-- What a port learns at parameter exchange (Table 15-2, R404, R406). -/
structure LinkParams where
  width : Nat
  lanes : Nat
  node : Nat
  hostNode : Nat
  credits : List Nat
  delay : Nat
  deriving DecidableEq, Repr

/-- One identity-row copy as read from a die at start-up: whether its CRC holds, and its 4,096 bytes (R337). -/
structure IdentityCopy where
  crcOk : Bool
  row : List Byte
  deriving DecidableEq, Repr

/-- What the dies' one-time-programmable pages give at start-up: the copies of the identity row and the factory bad-unit maps, as the
units they list (R317, R337). -/
structure DieRows where
  copies : List IdentityCopy
  bad : List (Die × Nat)
  deriving DecidableEq, Repr

/-- The start of a job: its ARITH cycle, and how many of the copies of its sections did not have the hash kept for them (R510). -/
structure HashedStart where
  cycle : Nat
  mismatches : Nat
  deriving DecidableEq, Repr

/-- How many codewords of a unit needed stage 2 and stage 3, and how many failed (R319, R354). -/
structure StageCounts where
  stage2 : Nat
  stage3 : Nat
  failed : Nat
  deriving DecidableEq, Repr

/-- The fuse map (R455, R489, R500). -/
structure FuseMap where
  badClusters : List Nat
  spareClusters : List Nat
  badDocents : List Nat
  spareDocents : List Nat
  builtClusters : Nat
  keyDigests : List (List Byte)
  keyRevoke : List Nat
  rollbackBits : List Nat
  attestCrcOk : Bool
  deriving DecidableEq, Repr

/-- One instruction of the table: what happens in one whole step of the drive. -/
inductive Instr where
  -- administration (chapter 17), security (chapter 20): the active-command slot the step executes
  | unitClose (slot : Nat)
  | unitReturn (slot : Nat)
  | unitQuery (slot : Nat)
  | faultRead (slot : Nat)
  | identityRead (slot : Nat)
  | attest (slot : Nat)
  | fwStage (slot : Nat)
  | fwActivate (slot : Nat)
  | fwWriteEnd (good : Bool)
  | rollbackAdvance (slot : Nat) (stuck : List Nat)
  | measureRead (slot : Nat)
  -- block storage (chapter 14)
  | blockRead (slot : Nat)
  | blockWrite (slot : Nat)
  | blockAtomic (slot : Nat)
  | blockFlush (slot : Nat)
  | blockTrim (slot : Nat)
  | selfTest (slot : Nat)
  | selfTestStep (idle : Bool) (found : Option (Nat × Nat)) (relocate : Option (Die × Nat))
  -- objects (chapter 7)
  | objectCreate (slot : Nat)
  | objectWrite (slot : Nat)
  | objectRead (slot : Nat)
  | objectMove (slot : Nat)
  | objectRetire (slot : Nat)
  | objectQuery (slot : Nat)
  | objectDurability (slot : Nat)
  | objectFlush (slot : Nat)
  -- programs (chapter 5)
  | programLoad (slot : Nat)
  | jobRun (slot : Nat)
  -- vector search (chapter 8)
  | indexCreate (slot : Nat)
  | accession (slot : Nat)
  | searchD (slot : Nat)
  | searchX (slot : Nat)
  | accessionMerge (slot : Nat)
  | mergeCommit (slot : Nat)
  | kernelLoad (slot : Nat)
  | indexQuery (slot : Nat)
  -- gather (chapter 10)
  | tableCreate (slot : Nat)
  | gather (slot : Nat)
  | gatherStepEnd (slot : Nat)
  | gatherPrefetch (slot : Nat)
  | tableQuery (slot : Nat)
  | hotDecay
  | prefetchProtectExpiry
  -- folios (chapter 9)
  | folioCreate (slot : Nat)
  | folioAppend (slot : Nat)
  | folioAttend (slot : Nat)
  | folioReload (slot : Nat)
  | folioTruncate (slot : Nat)
  -- gradient reduction (chapter 11)
  | domainSet (slot : Nat)
  | domainClear (slot : Nat)
  | residualCreate (slot : Nat)
  | reduce (slot : Nat)
  | roundStart (slot : Nat)
  | startTick (domain : Nat)
  | reductionPacket (vc : Nat) (p : RedPacket)
  | reductionStall (domain : Nat)
  | domainQuery (slot : Nat)
  -- Jorern integer instructions (Table 5-3)
  | add (h : Thr) (f : RForm)
  | sub (h : Thr) (f : RForm)
  | and (h : Thr) (f : RForm)
  | or (h : Thr) (f : RForm)
  | xor (h : Thr) (f : RForm)
  | sll (h : Thr) (f : RForm)
  | srl (h : Thr) (f : RForm)
  | sra (h : Thr) (f : RForm)
  | slt (h : Thr) (f : RForm)
  | sltu (h : Thr) (f : RForm)
  | min (h : Thr) (f : RForm)
  | max (h : Thr) (f : RForm)
  | minu (h : Thr) (f : RForm)
  | maxu (h : Thr) (f : RForm)
  | mul (h : Thr) (f : RForm)
  | mulhu (h : Thr) (f : RForm)
  | addi (h : Thr) (f : IForm)
  | andi (h : Thr) (f : IForm)
  | ori (h : Thr) (f : IForm)
  | xori (h : Thr) (f : IForm)
  | shi (h : Thr) (f : IForm)
  | lui (h : Thr) (f : UForm)
  -- Jorern FP32 and packed BF16 instructions
  | fadd (h : Thr) (f : RForm)
  | fsub (h : Thr) (f : RForm)
  | fmul (h : Thr) (f : RForm)
  | fma (h : Thr) (f : RForm)
  | fmin (h : Thr) (f : RForm)
  | fmax (h : Thr) (f : RForm)
  | fabs (h : Thr) (f : RForm)
  | fneg (h : Thr) (f : RForm)
  | fcvtSW (h : Thr) (f : RForm)
  | fcvtWS (h : Thr) (f : RForm)
  | fexp2 (h : Thr) (f : RForm)
  | flog2 (h : Thr) (f : RForm)
  | frcp (h : Thr) (f : RForm)
  | frsq (h : Thr) (f : RForm)
  | badd2 (h : Thr) (f : RForm)
  | bmul2 (h : Thr) (f : RForm)
  | bfma2 (h : Thr) (f : RForm)
  | bmax2 (h : Thr) (f : RForm)
  | bpack (h : Thr) (f : RForm)
  | blo (h : Thr) (f : RForm)
  | bhi (h : Thr) (f : RForm)
  -- Jorern compares and predicates
  | eq (h : Thr) (f : RForm)
  | ne (h : Thr) (f : RForm)
  | lt (h : Thr) (f : RForm)
  | ltu (h : Thr) (f : RForm)
  | ge (h : Thr) (f : RForm)
  | geu (h : Thr) (f : RForm)
  | feq (h : Thr) (f : RForm)
  | flt (h : Thr) (f : RForm)
  | fle (h : Thr) (f : RForm)
  | pand (h : Thr) (f : RForm)
  | por (h : Thr) (f : RForm)
  | pxor (h : Thr) (f : RForm)
  | pnot (h : Thr) (f : RForm)
  | ptos (h : Thr) (f : RForm)
  | stop (h : Thr) (f : RForm)
  -- Jorern loads and stores
  | ldb (h : Thr) (f : IForm)
  | ldh (h : Thr) (f : IForm)
  | ldw (h : Thr) (f : IForm)
  | ldq (h : Thr) (f : IForm)
  | stb (h : Thr) (f : IForm)
  | sth (h : Thr) (f : IForm)
  | stw (h : Thr) (f : IForm)
  | stq (h : Thr) (f : IForm)
  -- Jorern control
  | br (h : Thr) (f : BForm)
  | jal (h : Thr) (f : UForm)
  | jr (h : Thr) (f : RForm)
  | exit (h : Thr) (f : RForm)
  -- Jorern stream, engine, sync, pause and system instructions
  | xfer (h : Thr) (f : SForm)
  | ldin (h : Thr) (f : SForm)
  | wstr (h : Thr) (f : SForm)
  | pass (h : Thr) (f : SForm)
  | drain (h : Thr) (f : SForm)
  | accld (h : Thr) (f : SForm)
  | discard (h : Thr) (f : SForm)
  | signal (h : Thr) (f : SForm)
  | wait (h : Thr) (f : SForm)
  | set (h : Thr) (f : SForm)
  | read (h : Thr) (f : SForm)
  | pause (h : Thr) (index : BitVec 16)
  | tid (h : Thr) (f : RForm)
  | cid (h : Thr) (f : RForm)
  | ncl (h : Thr) (f : RForm)
  | flags (h : Thr) (f : RForm)
  | trap (h : Thr) (f : RForm)
  | btime (h : Thr) (f : RForm)
  | wide (h : Thr) (f : RForm)
  -- events of jobs and engines (chapters 4, 5, 6)
  | machineTrap (h : Thr) (fetchCrc : Bool)
  | groupStaged (e : Eng)
  | passEnd (e : Eng)
  | drainEnd (e : Eng) (tile : Nat)
  | accldEnd (e : Eng) (tile : Nat)
  | loadEnd (e : Eng)
  | xferEnd (job id : Nat)
  | streamEnd (job handle : Nat)
  | pausePointTaken (job cycle : Nat)
  | placementMoveEnd (owner : DmaOwner)
  | jobStart (start : HashedStart)
  | jobEnd (job cycle : Nat)
  | postCharge (n : Nat)
  | sliceEnd (job : Nat)
  | sliceWatchdog (job cycle : Nat)
  | clusterWaitTimeout (job : Nat)
  | jobDeadline (job : Nat)
  -- rings and set-up writes (chapters 2, 6, 7, 14 to 16, 20 to 22)
  | fetch (sq : Nat) (reads : List (Nat × List Byte)) (sglRefused : Bool)
  | completionPost (cq : Nat)
  | notifyTimeout (cq : Nat)
  | lockWaitDeadline (slot : Nat)
  | sqEnable (port n : Nat) (value : Word)
  | sqDisable (port n : Nat) (value : Word)
  | cqEnable (port n : Nat) (value : Word)
  | cqDisable (port n : Nat) (value : Word)
  | atrSqDb (port n : Nat) (value : Word)
  | atrCqDb (port n : Nat) (value : Word)
  | clientEnable (port n : Nat) (value : Word64)
  | clientDisable (port n : Nat) (value : Word64)
  | tirCfg (port : Nat) (value : Word)
  | bcnCfg (port : Nat) (value : Word)
  | pwrCap (port : Nat) (value : Word)
  | pwrShutdownGo (port : Nat)
  | quiesce (port : Nat)
  | updateLock (port : Nat)
  | pop (port : Nat)
  | tstPulseCfg (port : Nat) (value : Word)
  | tstCtrClear (port : Nat) (value : Word)
  | gatHotBytes (port : Nat) (value : Word)
  | mediaRead (port : Nat)
  | mediaLend (port : Nat)
  | mediaProgram (port : Nat)
  | mediaErase (port : Nat)
  | mediaReturn (port : Nat)
  | registerWrite (port offset size : Nat) (value : Word64)
  -- the link and the beacon (chapter 15)
  | partnerDetected (port : Nat)
  | trainingEnd (port : Nat) (p : LinkParams)
  | trainingTimeout (port : Nat)
  | portRetry
  | flitReceive (port : Nat) (flit : List Byte) (good : Bool)
  | flitLockLoss (port : Nat)
  | ackTimeout (port : Nat)
  | retrainEnd (port : Nat) (good : Bool)
  | creditStarvation (port : Nat)
  | cpl (port tag cstatus offset : Nat) (last : Bool) (data : List Byte)
  | beacon (port : Nat) (flit : BeaconFlit)
  | echo
  | echoReturn (port arrival turn : Nat)
  | auxTimeFrame (tick : Nat) (clean : Bool)
  | beaconHoldover
  | beaconDegraded
  | beaconSourceCheck (ppm : Int)
  | testPulse
  -- start-up, power and thermal events (chapters 16, 19)
  | powerGood (residualMj millivolt : Nat)
  | fuseLoadEnd (copyA copyB : Option FuseMap)
  | configLoadEnd (config firmware : Option (List Byte)) (certificate : List Byte)
  | sramFillEnd (repaired closedClusters closedDocents : List Nat) (memoryFail : Bool)
  | dramFillEnd (failed : List Nat) (identity : DieRows)
  | mountEnd (journalA journalB checkpoint : Bool) (badDusk : List (Nat × Nat)) (damaged : List (Nat × Nat × Nat))
  | holdupMeasure
  | holdupMeasureEnd (chargedOk : Bool) (microfarad esrTenthMilliohm : Nat)
  | powerFailure (millivolt : Nat)
  | inputToleranceExpiry (millivolt : Nat)
  | inputSwitchClose (millivolt : Nat)
  | matedN (high : Bool)
  | resetN
  | shdnReqN
  | aonLoss
  | duskFlush
  | duskFlushEnd (bankFailed : Bool)
  | thermalSample (compute flash dram : Int)
  | governorWindow (milliwatt1ms milliwatt100ms milliamp1ms milliamp100ms millivolt : Nat)
  -- tiers and the flash array (chapters 7, 12, 13)
  | writebackAge
  | writebackEnd (count : Nat)
  | promoteWaitExpiry (owner : DmaOwner)
  | dieReadEnd (d : Die) (stages : List Nat)
  | dieProgramEnd (d : Die) (good : Bool)
  | dieEraseEnd (d : Die) (good : Bool)
  | journalDoneDurable
  | mapPageJournal
  | verifyAfterClose (d : Die) (unit : Nat) (stages : StageCounts)
  | backgroundWindow
  -- errors and takeover (chapter 17)
  | transportParityError (p : Path)
  | channelHalt (owner : DmaOwner) (line : LineKind)
  | lineRecoveryEnd (line : LineKind) (phys location : Nat) (good : List Bool)
  | docentWatchdog (core : Nat)
  | drainComplete (kind phys : Nat)
  | returnSelfTestEnd (kind phys : Nat) (good : Bool)
  -- test access and management bus (chapters 21, 16)
  | tapReset
  | extest (cells : List Bool)
  | idcode
  | samplePreload (pins cells : List Bool)
  | clamp
  | highz
  | extestPulse (cells : List Bool)
  | extestTrain (cells : List Bool)
  | bootStatus
  | bypass
  | smbPowerState
  | smbBootStatus
  | smbInputVoltage
  | smbInputCurrent
  | smbInputPower
  | smbHoldupEnergy
  | smbComputeTemp
  | smbFlashTemp
  | smbDramTemp
  | smbDuskBudget
  | smbDirtyDurable
  | smbUnreadFaults
  | smbSerial
  | docentCoreFault (core : Nat)
  | engineParityError (e : Eng)
  | dieSuspendEnd (d : Die)
  | signatureEnd
  deriving DecidableEq, Repr

end Sys2Proof
end

