-- ==== Sys2Proof/Decode.lean ====
section
/-! DEFINITION. The words of the table. No row of spec/opcode_table.json gives bits: the drive takes ring entries,
register writes and events, and the one instruction encoding of the source (Table 5-3) is read by the drive itself when a
thread fetches from its code section (Sys2Proof/Machine/Thread.lean). -/
namespace Sys2Proof

/-- The command a word spells by the table's bits: none, since no row gives bits. -/
def decodeTableWord (_nbits _w : Nat) : Option Instr := none

end Sys2Proof
end

