-- ==== Sys2Proof/Config.lean ====
section
/-! DEFINITION. What an implementation fixes and the values the spec leaves open: constants without a body, so that no
proof can see what they are. Each is applied to the operands it depends on, or to State.free, a counter in the state. -/
namespace Sys2Proof

/-- The stripe group that takes the next unit of a stream, or the die that takes a page of the dusk flush, taken modulo their number: the
spec does not say how either is chosen (R350, R360; assumption log 21: DESIGN CHOICE, unsafe). -/
opaque Config.storeDie : Nat → Nat

/-- Sectors of 4 KiB a lossless block codec needs for a unit of 64 KiB, what it stores in them, and what it gives back on a read (R193
names no codec; assumption log 23: DESIGN CHOICE, safe). -/
opaque Config.compressedSectors : Bytes → Nat
opaque Config.compress : Bytes → Bytes
opaque Config.expand : Bytes → Bytes

/-- The LDPC parity of a codeword's 4,112 data and metadata bytes: R319 gives its length and no code (assumption log 172: DESIGN CHOICE,
safe). -/
opaque Config.ldpcParity : Bytes → Bytes

/-- CRC-32 of some bytes: the spec names no polynomial (R329, R360; assumption log 182: DESIGN CHOICE, safe). -/
opaque Config.crc32 : Bytes → Word

/-- Data of a page that has not been programmed, as a raw read returns it (R527, assumption log 25: DESIGN CHOICE, safe). -/
opaque Config.erasedByte : Nat → Byte

/-- Whether LPDDR5X post-package repair of a withdrawn unit succeeds (R456, assumption log 12: PRESUMED, safe). -/
opaque Config.rowRepairs : Nat → Bool

/-- The code `TST_MEDIA_STATUS` reports for a raw program or erase that the die ends in a fail status: R527 names none.
Taken modulo the number of status codes. -/
opaque Config.rawFailCode : Nat → Nat

/-- The package, taken modulo the packages fitted, that DRAM data of a key is homed in while it is IN_SERVICE: the spec names a home
package (R191) and no rule that chooses it (assumption log 103: DESIGN CHOICE, safe). -/
opaque Config.homePackage : Nat → Nat

/-- CRC-64-ECMA of a flit (R398): the spec names it and gives neither its bit order nor its start value (assumption log 179: DESIGN
CHOICE, safe). -/
opaque Config.crc64 : Bytes → BitVec 64

/-- The CRC of a 64-byte line of DRAM, whose polynomial the spec does not give (R18; assumption log 178: DESIGN CHOICE, safe). -/
opaque Config.lineCrc : Bytes → BitVec 16

/-- SHAKE256, its first 64 bytes (R501, FIPS 202). -/
opaque Config.shake256 : Bytes → Bytes

/-- Verification of an SLH-DSA-SHAKE-256s signature: public key, message, signature (R501, FIPS 205). -/
opaque Config.slhVerify : Bytes → Bytes → Bytes → Bool

/-- The SLH-DSA-SHAKE-192f signature of a message under the attestation key (R501, R518, FIPS 205). -/
opaque Config.slhSign : Bytes → Bytes

/-- Units in the last place by which FEXP2, FLOG2, FRCP and FRSQ (FN 10 to 13) differ from the rounded value, by the
source: R135 bounds it by 2 and leaves it open otherwise (assumption log 33: DEDUCED, safe). -/
opaque Config.ulpOffset : Nat → Nat → Int

/-- The ARITH cycle, taken modulo 600, inside the current BT at which an event occurs whose step carries no cycle (R160, assumption log
36: DESIGN CHOICE, safe). -/
opaque Config.eventCycle : Nat → Nat

/-- `PWR_FLASH_BUDGET` of the S and E grades, by grade code, and the watts `PWR_ALLOC` reports for them (total, compute die,
flash): R7 and R36 leave their values to the drive (assumption log 60: DESIGN CHOICE, safe). -/
opaque Config.flashTokens : Nat → Nat
opaque Config.allocWatts : Nat → Nat → Nat

/-- Bytes IDENTITY_READ and ATTEST give for the identity row while the recovery loader runs, which has not read it: R520 names no
value (assumption log 63: DESIGN CHOICE, safe). -/
opaque Config.recoveryRow : Nat → Byte

/-- The boot ROM's fixed digest, set at tape-out (Table 20-5). -/
opaque Config.romDigest : Bytes

end Sys2Proof
end

