-- ==== Sys2Proof/Machine/Bits.lean ====
section
/-! DEFINITION. Bytes, little-endian fields and bit fields (R8). -/
namespace Sys2Proof.Machine

/-- The number a byte list holds, lowest byte first (R8). -/
def leNat : Bytes → Nat
  | [] => 0
  | b :: bs => b.toNat + 256 * leNat bs

/-- The low `n` bytes of a number, lowest byte first (R8). -/
def leBytes : Nat → Nat → Bytes
  | 0, _ => []
  | n + 1, v => BitVec.ofNat 8 v :: leBytes n (v / 256)

/-- `n` bytes from offset `off`; fewer where the list ends. -/
def slice (bs : Bytes) (off n : Nat) : Bytes := (bs.drop off).take n

/-- The little-endian field of `n` bytes at offset `off`; bytes beyond the list count as zero. -/
def field (bs : Bytes) (off n : Nat) : Nat := leNat (slice bs off n)

/-- `n` bits of a number from bit `lo`. -/
def bitsAt (v lo n : Nat) : Nat := v / 2 ^ lo % 2 ^ n

/-- Bit `i` of a number. -/
def bitAt (v i : Nat) : Bool := v / 2 ^ i % 2 == 1

/-- 1 or 0. -/
def bit01 (b : Bool) : Nat := if b then 1 else 0

/-- `n` zero bytes. -/
def zeroBytes (n : Nat) : Bytes := List.replicate n 0

/-- The list cut or padded with zeros to `n` bytes. -/
def fitBytes (n : Nat) (bs : Bytes) : Bytes := bs.take n ++ zeroBytes (n - bs.length)

/-- Every byte is zero. -/
def allZero (bs : Bytes) : Bool := bs.all (· == 0)

/-- The bytes of the ranges `(offset, length)` are all zero: the reserved fields of a structure (R9). -/
def reservedZero (bs : Bytes) (ranges : List (Nat × Nat)) : Bool :=
  ranges.all fun r => allZero (slice bs r.1 r.2)

/-- The first offset of the given ranges whose bytes are not all zero. -/
def firstNonZero (bs : Bytes) : List (Nat × Nat) → Option Nat
  | [] => none
  | r :: rs => if allZero (slice bs r.1 r.2) then firstNonZero bs rs else some r.1

/-- Split a list into pieces of `n` elements, at most `fuel` of them. -/
def chunksOf {α : Type} (n : Nat) : Nat → List α → List (List α)
  | 0, _ => []
  | _ + 1, [] => []
  | k + 1, x :: xs => (x :: xs).take n :: chunksOf n k ((x :: xs).drop n)

/-- Quotient rounded up. -/
def ceilDiv (a b : Nat) : Nat := (a + b - 1) / b

/-- The two's-complement pattern of `n` bits of an integer. -/
def intTo (n : Nat) (i : Int) : Nat := (BitVec.ofInt n i).toNat

/-- The integer a two's-complement pattern of `n` bits stands for. -/
def toInt (n v : Nat) : Int := (BitVec.ofNat n v).toInt

/-- Replace every element that satisfies `p`. -/
def updWhere {α : Type} (p : α → Bool) (f : α → α) (l : List α) : List α :=
  l.map fun x => if p x then f x else x

/-- Apply `f` to element `i` of a list; nothing happens beyond its end. -/
def updAt {α : Type} (i : Nat) (f : α → α) (l : List α) : List α := l.modify i f

/-- Add `d` to element `i` of a list of counters. -/
def bump (l : List Nat) (i d : Nat) : List Nat := updAt i (· + d) l

end Sys2Proof.Machine
end

