-- ==== Sys2Proof/Machine/Num.lean ====
section
/-! DEFINITION. Exact values and the element formats: decoding, and the one rounding of each operation (R75 to R81, R86,
R87, R89, R92). -/
namespace Sys2Proof.Machine

/-- An exact value, `num / den` with a positive denominator. It is not kept in lowest terms. -/
structure Frac where
  num : Int
  den : Nat := 1
  deriving DecidableEq, Repr

/-- An integer as a value. -/
def Frac.ofInt (i : Int) : Frac := { num := i }

/-- Zero. -/
def Frac.zero : Frac := { num := 0 }

/-- 2 to an integer power. -/
def Frac.pow2 (e : Int) : Frac := if 0 ≤ e then { num := 2 ^ e.toNat } else { num := 1, den := 2 ^ (-e).toNat }

/-- Negation. -/
def Frac.neg (a : Frac) : Frac := { a with num := -a.num }

/-- Sum; denominators that divide one another, as powers of two do, are not multiplied. -/
def Frac.add (a b : Frac) : Frac :=
  if b.den % a.den = 0 then { num := a.num * (b.den / a.den : Nat) + b.num, den := b.den }
  else if a.den % b.den = 0 then { num := a.num + b.num * (a.den / b.den : Nat), den := a.den }
  else { num := a.num * b.den + b.num * a.den, den := a.den * b.den }

/-- Difference. -/
def Frac.sub (a b : Frac) : Frac := a.add b.neg

/-- Product. -/
def Frac.mul (a b : Frac) : Frac := { num := a.num * b.num, den := a.den * b.den }

/-- Quotient; zero where the divisor is zero. -/
def Frac.div (a b : Frac) : Frac :=
  if b.num = 0 then Frac.zero
  else if 0 < b.num then { num := a.num * b.den, den := a.den * b.num.toNat }
  else { num := -(a.num * b.den), den := a.den * (-b.num).toNat }

/-- Magnitude. -/
def Frac.abs (a : Frac) : Frac := { a with num := a.num.natAbs }

/-- Less than. -/
def Frac.lt (a b : Frac) : Bool := a.num * b.den < b.num * a.den

/-- At most. -/
def Frac.le (a b : Frac) : Bool := a.num * b.den ≤ b.num * a.den

/-- The value is zero. -/
def Frac.isZero (a : Frac) : Bool := a.num = 0

/-- Sum of a list. -/
def Frac.sum (l : List Frac) : Frac := l.foldl Frac.add Frac.zero

/-- Largest integer not above the value. -/
def Frac.floor (a : Frac) : Int := a.num / (a.den : Int)

/-- Nearest integer, ties to even. -/
def Frac.roundEven (a : Frac) : Int :=
  let f := a.floor
  let r := a.num - f * a.den
  if 2 * r < a.den then f else if (a.den : Int) < 2 * r then f + 1 else if f % 2 = 0 then f else f + 1

/-- Integer towards zero. -/
def Frac.trunc (a : Frac) : Int := if 0 ≤ a.num then a.num / (a.den : Int) else -((-a.num) / (a.den : Int))

/-- floor(log₂) of a positive value. -/
def Frac.log2 (a : Frac) : Int :=
  let n := a.num.toNat
  let e : Int := (Nat.log2 n : Int) - (Nat.log2 a.den : Int)
  if (Frac.pow2 e).le a then e else e - 1

/-- ceil(log₂) of a positive value. -/
def Frac.ceilLog2 (a : Frac) : Int := if (Frac.pow2 a.log2).lt a then a.log2 + 1 else a.log2

/-! ### Floating-point codes (R76 to R78) -/

/-- Value of a floating-point code of `mant` mantissa and `ex` exponent bits (R76); negative zero reads as zero (R78). -/
def floatValue (ex mant bias code : Nat) : Frac :=
  let m := code % 2 ^ mant
  let e := code / 2 ^ mant % 2 ^ ex
  let s := code / 2 ^ (mant + ex) % 2
  let v := if e = 0 then (Frac.ofInt m).mul (Frac.pow2 (1 - (bias : Int) - mant))
    else (Frac.ofInt (2 ^ mant + m : Nat)).mul (Frac.pow2 ((e : Int) - bias - mant))
  if s = 1 then v.neg else v

/-- How a value lies on the grid of a format: the code of the grid point at or below its magnitude, and the fraction of
the way to the next (R86). -/
def gridOf (mant bias : Nat) (a : Frac) : Nat × Frac :=
  if a.isZero then (0, Frac.zero)
  else
    let emin : Int := 1 - (bias : Int)
    let e := if a.log2 < emin then emin else a.log2
    let q := a.mul (Frac.pow2 ((mant : Int) - e))
    let k := q.floor
    (((e - emin) * 2 ^ mant + k).toNat, q.sub (Frac.ofInt k))

/-- Magnitude code nearest to a value, ties to the even code (R86). -/
def nearestCode (mant bias : Nat) (a : Frac) : Nat :=
  let g := gridOf mant bias a
  let half : Frac := { num := 1, den := 2 }
  if g.2.lt half then g.1 else if half.lt g.2 then g.1 + 1 else if g.1 % 2 = 0 then g.1 else g.1 + 1

/-- Sign bit of a code of `w` bits put on a magnitude code; a zero is written as all zeros (R78). -/
def withSign (w : Nat) (neg : Bool) (code : Nat) : Nat := if neg && code ≠ 0 then code + 2 ^ (w - 1) else code

/-- Round a value to FP32 to nearest, ties to even; beyond the largest finite value it becomes that value, and the flag
is set (R92). -/
def roundF32 (a : Frac) : Nat × Bool :=
  let c := nearestCode 23 127 a.abs
  (withSign 32 (a.num < 0) (Nat.min c 0x7F7FFFFF), 0x7F7FFFFF < c)

/-- Round a value to BF16, as roundF32 (R86, R87). -/
def roundBf16 (a : Frac) : Nat × Bool :=
  let c := nearestCode 7 127 a.abs
  (withSign 16 (a.num < 0) (Nat.min c 0x7F7F), 0x7F7F < c)

/-- An FP32 code is NaN: its exponent field is all ones (R77). -/
def isNanF32 (c : Nat) : Bool := c / 2 ^ 23 % 256 = 255

/-- A BF16 code is NaN (R77). -/
def isNanBf16 (c : Nat) : Bool := c / 2 ^ 7 % 256 = 255

/-- Value of an FP32 code; none for NaN. -/
def valF32 (c : Nat) : Option Frac := if isNanF32 c then none else some (floatValue 8 23 127 c)

/-- Value of a BF16 code; none for NaN. -/
def valBf16 (c : Nat) : Option Frac := if isNanBf16 c then none else some (floatValue 8 7 127 c)

/-- An FP32 code with NaN read as zero (R88). -/
def f32 (c : Nat) : Frac := (valF32 c).getD Frac.zero

/-- A BF16 code with NaN read as zero (R88). -/
def bf16 (c : Nat) : Frac := (valBf16 c).getD Frac.zero

/-! ### Element formats (Table 3-1) and scales (Table 3-3) -/

/-- Bits of an element of a format. -/
def elemBits (fmt : Nat) : Nat :=
  match fmt with
  | 0 | 1 => 4
  | 2 | 3 => 2
  | 4 | 5 => 6
  | 6 | 7 | 8 => 8
  | 9 => 16
  | _ => 32

/-- Value of an element code; none for NaN and for the invalid ternary code (R76 to R78). -/
def elemValue (fmt code : Nat) : Option Frac :=
  match fmt with
  | 0 => some (floatValue 2 1 1 code)
  | 1 => some (Frac.ofInt (toInt 4 code))
  | 2 => some (Frac.ofInt (toInt 2 code))
  | 3 => if code % 4 = 2 then none else some (Frac.ofInt (toInt 2 code))
  | 4 => some (floatValue 3 2 3 code)
  | 5 => some (floatValue 2 3 1 code)
  | 6 => if code % 128 = 127 then none else some (floatValue 4 3 7 code)
  | 7 => if code / 4 % 32 = 31 then none else some (floatValue 5 2 15 code)
  | 8 => some (Frac.ofInt (toInt 8 code))
  | 9 => valBf16 code
  | _ => valF32 code

/-- The value of a scale code; none for NaN (Table 3-3). -/
def scaleValue (enc code : Nat) : Option Frac :=
  if enc = 0 then (if code = 255 then none else some (Frac.pow2 ((code : Int) - 127)))
  else if 127 ≤ code then none else some (floatValue 4 3 7 code)

/-- The smallest positive scale code (Table 3-3). -/
def smallestScale (enc : Nat) : Nat := if enc = 0 then 0 else 1

/-- Group size of a GROUP code (Table 3-7). -/
def groupSize (g : Nat) : Nat := if g = 0 then 32 else if g = 1 then 64 else 128

/-- The largest finite value of a target format, as R84 takes it. -/
def fMax (fmt : Nat) : Frac :=
  match fmt with
  | 0 => Frac.ofInt 6
  | 1 => Frac.ofInt 7
  | 4 => Frac.ofInt 28
  | 5 => { num := 15, den := 2 }
  | 6 => Frac.ofInt 448
  | 7 => Frac.ofInt 57344
  | 8 => Frac.ofInt 127
  | 9 => floatValue 8 7 127 0x7F7F
  | _ => floatValue 8 23 127 0x7F7FFFFF

/-- Mantissa bits and bias of a floating-point target format. -/
def fmtFloat (fmt : Nat) : Nat × Nat :=
  match fmt with
  | 0 => (1, 1)
  | 4 => (2, 3)
  | 5 => (3, 1)
  | 6 => (3, 7)
  | 7 => (2, 15)
  | 9 => (7, 127)
  | _ => (23, 127)

/-- Magnitude code of the largest finite value of a target format. -/
def fmtMaxCode (fmt : Nat) : Nat :=
  match fmt with
  | 0 => 0x7
  | 1 => 7
  | 4 => 0x1F
  | 5 => 0x1F
  | 6 => 0x7E
  | 7 => 0x7B
  | 8 => 127
  | 9 => 0x7F7F
  | _ => 0x7F7FFFFF

/-- The target is INT4 or INT8. -/
def fmtIsInt (fmt : Nat) : Bool := fmt = 1 || fmt = 8

/-- The 16 random bits of an element (R89). -/
def srBits (seed index : Nat) : Nat :=
  let m := 2 ^ 32
  let x := (seed ^^^ (index * 0x9E3779B9 % m)) % m
  let x := x ^^^ (x / 2 ^ 16)
  let x := x * 0x85EBCA6B % m
  let x := x ^^^ (x / 2 ^ 13)
  let x := x * 0xC2B2AE35 % m
  let x := x ^^^ (x / 2 ^ 16)
  x / 2 ^ 16

/-- Grid point and fraction of a magnitude in a target format. -/
def fmtGrid (fmt : Nat) (a : Frac) : Nat × Frac :=
  if fmtIsInt fmt then (a.floor.toNat, a.sub (Frac.ofInt a.floor)) else gridOf (fmtFloat fmt).1 (fmtFloat fmt).2 a

/-- The code of a signed grid point. -/
def fmtCode (fmt : Nat) (neg : Bool) (mag : Nat) : Nat :=
  if fmtIsInt fmt then intTo (elemBits fmt) (if neg then -(mag : Int) else mag) else withSign (elemBits fmt) neg mag

/-- Round a quotient to a target format: to nearest, ties to the even code; or under stochastic rounding with the random
bits given. Beyond the largest finite value it saturates, which is reported (R86, R87, R89). Under stochastic rounding any quotient
above that value saturates and is counted, though to nearest it might round down to it (assumption log 155: DESIGN CHOICE, unsafe). -/
def roundElem (fmt : Nat) (sr : Option Nat) (q : Frac) : Nat × Bool :=
  let a := q.abs
  let neg : Bool := q.num < 0
  let g := fmtGrid fmt a
  let half : Frac := { num := 1, den := 2 }
  let mx := fmtMaxCode fmt
  match sr with
  | none =>
    let k := if g.2.lt half then g.1 else if half.lt g.2 then g.1 + 1
      else if g.1 % 2 = 0 then g.1 else g.1 + 1
    (fmtCode fmt neg (Nat.min k mx), mx < k)
  | some bits =>
    if mx < g.1 || (g.1 = mx && !g.2.isZero) then (fmtCode fmt neg mx, true)
    else if g.2.isZero then (fmtCode fmt neg g.1, false)
    else
      let up := if neg then (Frac.ofInt 1).sub g.2 else g.2
      let toHi : Bool := (bits : Int) < (up.mul (Frac.ofInt 65536)).floor
      (fmtCode fmt neg (if toHi != neg then g.1 + 1 else g.1), false)

/-! ### Packing (R79) -/

/-- Bytes a run of elements takes. -/
def packedBytes (fmt n : Nat) : Nat := (n * elemBits fmt + 7) / 8

/-- Read `n` elements packed from the least significant bit up (R79). -/
def unpackElems (fmt : Nat) (bs : Bytes) (n : Nat) : List Nat :=
  let v := leNat (bs.take (packedBytes fmt n))
  (List.range n).map fun i => bitsAt v (i * elemBits fmt) (elemBits fmt)

/-- The number that elements packed from the least significant bit up make. -/
def packNat (b : Nat) : List Nat → Nat
  | [] => 0
  | c :: cs => c % 2 ^ b + 2 ^ b * packNat b cs

/-- Pack elements (R79). -/
def packElems (fmt : Nat) (cs : List Nat) : Bytes :=
  leBytes (packedBytes fmt cs.length) (packNat (elemBits fmt) cs)

end Sys2Proof.Machine
end

