-- ==== Sys2Proof/Machine/Types/Basic.lean ====
section
/-! DEFINITION. Plain data shared by every part of the drive: grades, service units, the clock, fault records and the
recovery lists (spec/00_scope.md, spec/01_architecture.md, spec/17_errors_and_fault_tolerance.md). Every default field
value is the value after reset. -/
namespace Sys2Proof.Machine

/-- Where data lies in DRAM: the package it is homed in, and that of its second copy (R188, R191, R450). -/
structure Place where
  home : Nat := 0
  mirror : Option Nat := none
  deriving DecidableEq, Repr

/-- Sparse byte memory in canonical form: addresses strictly rising, no entry equal to 0, which is what an unlisted
address reads as (assumption log 3: DESIGN CHOICE, unsafe). -/
abbrev Mem := List (Nat × Byte)

/-- The status codes of Table 2-11, in code order. -/
inductive Status where
  | ok | shortResult | duplicate | reReduced | widerRerun
  | invalidOpcode | invalidField | invalidLength | unitAbsent | versionRetired | objectNotFound | sequenceError
  | hostAccessFault | outOfRange
  | notErased | mediaUncorrectable | writeProtected
  | objectImpaired | streamAlignment | jobFault | preemptLimit
  | unitClosed | budgetExceeded | capacityExhausted | deadlineExpired
  | authFailed | rollbackRefused | accessDenied | measurementMismatch
  deriving DecidableEq, Repr

/-- The build grades of Table 0-1. -/
inductive Grade where
  | f | s | e
  deriving DecidableEq, Repr

/-- A key as a distance kernel gives it (R222): an INT64 value, or the code of an FP32 value. -/
inductive Key where
  | int (v : Int)
  | fp (code : Word)
  deriving DecidableEq, Repr

/-- The service-unit kinds with the codes 0 to 5 of Table 17-3, in code order. -/
inductive UnitKind where
  | cluster | docent | engine | dram | port | reduction
  deriving DecidableEq, Repr

/-- The service states of Table 1-10. -/
inductive SvcState where
  | inService | draining | closed | returning
  deriving DecidableEq, Repr

/-- One built service unit (R24, R25, R29, R464, R465). -/
structure SvcUnit where
  kind : UnitKind
  phys : Nat
  state : SvcState := .inService
  /-- the logical number held, for clusters and docent cores (R11, R29) -/
  logical : Option Nat := none
  spare : Bool := false
  /-- closure number while DRAINING, CLOSED or RETURNING; 0 when none (R464) -/
  closure : Nat := 0
  /-- the vacated logical number this cluster takes at its next pause point (R29) -/
  takes : Option Nat := none
  /-- the fuse map lists the unit as bad (R489) -/
  bad : Bool := false
  deriving DecidableEq, Repr

/-- Elapsed time since power good: ARITH cycles of 1/600 µs; 600 of them make one BT (Table 0-2, Table 1-12). -/
structure Clock where
  cycle : Nat := 0
  deriving DecidableEq, Repr

/-- One fault record of Table 17-2, with the read mark of R462. -/
structure FaultRec where
  seq : Nat
  cls : Nat
  response : Nat
  unitKind : Nat := 0xFF
  dataLost : Bool := false
  budget : Bool := false
  unit : Nat := 0
  closure : Nat := 0
  objectId : Nat := 0
  version : Nat := 0
  count : Nat := 1
  detail : Nat := 0
  location : Nat := 0
  tick : Nat := 0
  /-- elapsed BT of the first detection and of the latest merged one (R461) -/
  firstBt : Nat := 0
  lastBt : Nat := 0
  isRead : Bool := false
  deriving DecidableEq, Repr

/-- One entry of the repair list (R456). -/
inductive Repair where
  /-- a cluster-store row mapped to a soft spare row: physical cluster, bank, row -/
  | storeRow (phys bank row : Nat)
  /-- a withdrawn 64 KiB DRAM unit of a controller -/
  | dramUnit (phys unit : Nat)
  /-- a unit that is not IN_SERVICE: kind code and physical number -/
  | notInService (kind phys : Nat)
  deriving DecidableEq, Repr

/-- CRC failures of one line, for the count of three within 1,000,000 BT (R456). -/
structure LineFails where
  unitKind : Nat
  phys : Nat
  location : Nat
  times : List Nat
  deriving DecidableEq, Repr

/-- Consecutive parity errors on one path (R446). -/
structure PathErrors where
  path : Path
  first : Nat
  count : Nat
  deriving DecidableEq, Repr

/-- The ERR block: fault log, resend counters, path faults and repairs (R446, R447, R456, R461, R462). -/
structure ErrState where
  /-- the fault log, oldest record first, at most 4,096 (R462) -/
  log : List FaultRec := []
  nextSeq : Nat := 1
  lost : Nat := 0
  /-- `ERR_RESEND_CNT` of the compute, memory-side and I/O dies (Table 22-8) -/
  resends : List Nat := [0, 0, 0]
  paths : List PathErrors := []
  /-- faulted lane groups: interface number, lane group (R16, R447) -/
  laneGroups : List (Nat × Nat) := []
  /-- an interface both of whose lane groups are faulted has stopped the drive (R447) -/
  stopped : Bool := false
  /-- DMA channels that have halted, by their owner and the line they met (R453) -/
  halts : List (DmaOwner × LineKind) := []
  lineFails : List LineFails := []
  repairs : List Repair := []
  /-- repair-list writes made under STREAM 5 (R456) -/
  repairWrites : Nat := 0
  /-- `CLU_REPAIR_CNT` by physical cluster: CRC failures, soft spare rows used, replays (Table 22-8) -/
  cluCnt : List (Nat × Nat × Nat) := List.replicate 68 (0, 0, 0)
  /-- `DRC_CRC_CNT` by controller: line failures, patrol failures, units withdrawn, repairs (Table 22-8) -/
  drcCnt : List (Nat × Nat × Nat × Nat) := List.replicate 12 (0, 0, 0, 0)
  /-- next value of the closure counter (R464) -/
  nextClosure : Nat := 1
  /-- the DRAM patrol's period began at this BT (R449) -/
  patrolSince : Nat := 0
  /-- background windows whose share of the patrol has been read in this period -/
  patrolLines : Nat := 0
  deriving DecidableEq, Repr

/-- Docent-core services (R459, R460): the logical core that runs each service, in service-number order. -/
structure DocentState where
  services : List Nat := [0, 1, 2]
  /-- BT at which each built core's watchdog was last restarted (R459) -/
  restarted : List Nat := List.replicate 14 0
  deriving DecidableEq, Repr

end Sys2Proof.Machine
end

