-- ==== Sys2Proof/Machine/Mem.lean ====
section
/-! DEFINITION. Sparse byte memories: host memory as the drive reaches it, cluster stores, object versions, job scratch,
the block range. An unlisted address reads as zero (assumption log 3: DESIGN CHOICE, unsafe). -/
namespace Sys2Proof.Machine

/-- What an unlisted address reads as (assumption log 3: DESIGN CHOICE, unsafe). -/
def memDefault : Byte := 0

/-- The byte at an address. -/
def memGet : Mem → Nat → Byte
  | [], _ => memDefault
  | c :: m, a => if c.1 = a then c.2 else memGet m a

/-- Put a byte at an address, keeping the canonical form. -/
def memSet : Mem → Nat → Byte → Mem
  | [], a, b => if b = memDefault then [] else [(a, b)]
  | c :: m, a, b =>
    if a < c.1 then (if b = memDefault then c :: m else (a, b) :: c :: m)
    else if a = c.1 then (if b = memDefault then m else (a, b) :: m)
    else c :: memSet m a b

/-- `n` bytes from an address. -/
def memRead (m : Mem) (a : Nat) : Nat → Bytes
  | 0 => []
  | n + 1 => memGet m a :: memRead m (a + 1) n

/-- Write bytes from an address up. -/
def memWrite (m : Mem) (a : Nat) : Bytes → Mem
  | [] => m
  | b :: bs => memWrite (memSet m a b) (a + 1) bs

/-- Make `n` bytes from an address read as zero. -/
def memErase (m : Mem) (a n : Nat) : Mem := m.filter fun c => c.1 < a || a + n ≤ c.1

/-- The listed bytes of a range, at addresses moved to start at `b`. -/
def memCut (m : Mem) (a n b : Nat) : Mem :=
  (m.filter fun c => a ≤ c.1 && c.1 < a + n).map fun c => (c.1 - a + b, c.2)

/-- Replace the range of `n` bytes at `b` by the range at `a` of another memory. -/
def memCopy (dst : Mem) (b : Nat) (src : Mem) (a n : Nat) : Mem :=
  (dst.filter fun c => c.1 < b) ++ memCut src a n b ++ (dst.filter fun c => b + n ≤ c.1)

/-- The canonical form: addresses strictly rising, no entry equal to what an unlisted address reads as. -/
def memWf : Mem → Bool
  | [] => true
  | [c] => c.2 != memDefault
  | c :: d :: m => c.2 != memDefault && decide (c.1 < d.1) && memWf (d :: m)

end Sys2Proof.Machine
end

