-- ==== Sys2Proof/Machine/Types/Power.lean ====
section
/-! DEFINITION. Power, start-up, security, test access (spec/16, spec/19, spec/20, spec/21). -/
namespace Sys2Proof.Machine

/-- Power states in the code order of Table 16-7. -/
inductive PowerState where
  | off | starting | active | capped | quiescent | shuttingDown | shutdown | dusk
  deriving DecidableEq, Repr

/-- Start-up phases in the code order of Table 19-2. -/
inductive Phase where
  | fuse | config | sram | dram | core | mount | service | recovery | held | halted
  deriving DecidableEq, Repr

/-- Start-up failures in the code order of Table 19-3. -/
inductive StartFailure where
  | none | fuseMap | configRead | configAuth | memory | identity | grade | iface | mount | thermal
  deriving DecidableEq, Repr

/-- Where a dusk flush leads when it ends (R433, R441, R444). -/
inductive AfterFlush where
  | off | restart | shutdown
  deriving DecidableEq, Repr

/-- Where a dusk flush stands: triggered, or its sequence of Table 16-5 begun. -/
inductive FlushState where
  | none | triggered | running
  deriving DecidableEq, Repr

/-- The PWR block and the power management controller (chapter 16). -/
structure Power where
  state : PowerState := .starting
  phase : Phase := .fuse
  failure : StartFailure := .none
  err : Bool := false
  trip : Bool := false
  cut : Bool := false
  bleed : Bool := false
  cap : Nat := 720
  /-- `PWR_HOLDUP_ENERGY` and `PWR_HOLDUP_MEAS` (R430) -/
  valid : Bool := false
  energy : Nat := 0
  capUf : Nat := 0
  esr : Nat := 0
  vchg : Nat := 0
  count : Nat := 0
  measuring : Bool := false
  /-- a first measurement has ended since power good -/
  measured : Bool := false
  lastMeasure : Nat := 0
  /-- tokens allowed after cuts (`PWR_FLASH_BUDGET.LIMIT`) -/
  flashLimit : Nat := 2400
  /-- `PWR_TEMP` in 0.1 °C: compute junction, flash case, DRAM case -/
  tempCompute : Int := 0
  tempFlash : Int := 0
  tempDram : Int := 0
  /-- thermal actions in force (Table 16-9) and the BT since which each is 3 °C below its threshold -/
  hotCompute : Bool := false
  coolCompute : Option Nat := none
  hotFlash : Bool := false
  coolFlash : Option Nat := none
  hotDram : Bool := false
  coolDram : Option Nat := none
  /-- BT since which the flash case has been at or above 85 °C -/
  flash85 : Option Nat := none
  /-- sixteenths of the ARITH issue rate cut by temperature and by the governor (R118) -/
  thermalCut : Nat := 0
  governorCut : Nat := 0
  /-- cuts of R38 in force: background flash work, tokens taken from foreground operations, from reads -/
  cutBackground : Bool := false
  cutForeground : Nat := 0
  cutReads : Nat := 0
  /-- 1 ms windows in a row above 720 W, and above 20.0 A (R37, Table 16-3) -/
  overPower : Nat := 0
  overCurrent : Nat := 0
  /-- `PWR_INPUT`: voltage in 10 mV, current in 10 mA, power in 0.1 W -/
  inVolt : Nat := 0
  inAmp : Nat := 0
  inWatt : Nat := 0
  /-- BT since which the input has been in a tolerated band without a break (R425) -/
  tolerated : Option Nat := none
  /-- the input switch (R428); open and waiting after an overvoltage (R425) -/
  switchOpen : Bool := false
  overvoltage : Bool := false
  mated : Bool := true
  shdnDone : Bool := false
  /-- a clean shutdown asked for before SERVICE (Table 19-4) -/
  shutdownHeld : Bool := false
  /-- the clean shutdown ends in a restart at FUSE (R515) -/
  restartAfter : Bool := false
  /-- RESET_N arrived in SHUTTING_DOWN (R441) -/
  resetHeld : Bool := false
  flush : FlushState := .none
  after : AfterFlush := .off
  /-- the input powers the flush (R441, R444) -/
  onInput : Bool := false
  /-- pages a flush has saved: durable dirty bytes at the freeze (R212) -/
  frozen : Nat := 0
  flushSeq : Nat := 0
  /-- the last stop was a clean shutdown with its final checkpoint (R494) -/
  clean : Bool := false
  deriving DecidableEq, Repr

/-- One measurement log entry (R509). -/
structure LogEntry where
  seq : Nat
  reg : Nat
  version : Nat
  typ : Nat
  obj : Nat
  digest : Bytes
  deriving DecidableEq, Repr

/-- Security states in the code order of Table 20-7. -/
inductive SecState where
  | normal | staging | writing | pending | recovery
  deriving DecidableEq, Repr

/-- The security block, the configuration serial flash and the identity row (chapter 20). -/
structure Security where
  state : SecState := .normal
  lock : Bool := false
  /-- FW_KEY_DIGEST by slot, KEY_REVOKE slots, ROLLBACK bits blown, and bits that do not blow (R500, R506) -/
  keyDigests : List Bytes := []
  revoked : List Nat := []
  rollback : List Nat := []
  attestOk : Bool := true
  /-- the chosen identity row, and the certificate at 0x0004_0000 of the serial flash (R337, R503) -/
  identity : Bytes := []
  certificate : Bytes := []
  certBad : Bool := false
  m : List Bytes := List.replicate 8 (List.replicate 64 0)
  log : List LogEntry := []
  logFull : Bool := false
  /-- the staging buffer (R513): its bytes and the target of the staged bytes -/
  staged : Mem := []
  target : Nat := 0
  /-- SEC_VERSION of the running firmware and configuration, and the REVOKE of the running firmware -/
  fwVersion : Nat := 0
  cfgVersion : Nat := 0
  fwRevoke : List Nat := []
  /-- container being written: target, bytes, attempts made, RESTART (R514) -/
  writing : Option (Nat × Bytes × Nat × Bool) := none
  /-- containers FW_ACTIVATE has written since manufacture: firmware, configuration -/
  firmware : Option Bytes := none
  config : Option Bytes := none
  /-- a region whose write was cut off or failed three times is invalid (R514, R521) -/
  fwInvalid : Bool := false
  cfgInvalid : Bool := false
  /-- the signing engine: the slot whose report it signs, and verifications it finishes first (R518) -/
  signing : Option Nat := none
  deriving DecidableEq, Repr

/-- Raw media operations (`TST_MEDIA_CMD.OP`). -/
inductive RawOp where
  | read | lend | program | erase | return
  deriving DecidableEq, Repr

/-- The TST block and the boundary-scan controller (chapter 21). -/
structure TestBlock where
  addr : Nat := 0
  busy : Option RawOp := none
  status : Status := .ok
  /-- codes of the sixteen codewords of the last raw read -/
  stages : List Nat := List.replicate 16 0
  window : Mem := []
  pulse : Bool := false
  period : Nat := 0
  err : Bool := false
  /-- ticks at which the test pulse was driven -/
  pulses : Nat := 0
  /-- the TAP's instruction register, and what the 32-bit or 1-bit data register it selects has captured -/
  ir : Nat := 1
  dr : Nat := 0x196006B7
  /-- boundary register: the cells updated last, and the pins sampled last -/
  boundary : List Bool := List.replicate 3191 false
  sampled : List Bool := List.replicate 3191 false
  /-- the boundary register holds the pins; outputs are in high impedance -/
  holdsPins : Bool := false
  highZ : Bool := false
  /-- the answer to the last management bus read, low byte first -/
  smb : Bytes := []
  deriving DecidableEq, Repr

end Sys2Proof.Machine
end

