-- ==== Sys2Proof/Machine/Grades.lean ====
section
/-! DEFINITION. The figures that depend on the grade, and the code numbers of states and statuses. -/
namespace Sys2Proof.Machine

/-- Grade codes of Table 0-1. -/
def Grade.code : Grade → Nat
  | .f => 1 | .s => 2 | .e => 3

/-- The grade of a code, if it is ever issued (R4). -/
def gradeOf : Nat → Option Grade
  | 1 => some .f | 2 => some .s | 3 => some .e | _ => none

/-- Clusters built (Table 0-1). -/
def Grade.clustersBuilt : Grade → Nat
  | .f => 68 | .s => 52 | .e => 36

/-- Clusters in service (Table 0-1). -/
def Grade.clustersInService : Grade → Nat
  | .f => 64 | .s => 48 | .e => 32

/-- DRAM packages fitted, and so DRAM controllers present (R13). -/
def Grade.packages : Grade → Nat
  | .f => 12 | .s => 8 | .e => 4

/-- Flash dies on each channel (R14). -/
def Grade.dies : Grade → Nat
  | .f => 16 | .s => 8 | .e => 4

/-- The reduction engine is present (Table 0-1). -/
def Grade.hasReduction : Grade → Bool
  | .f => true | _ => false

/-- The channel engines have distance units (Table 0-1, Table 1-4). -/
def Grade.hasDistance : Grade → Bool
  | .e => false | _ => true

/-- Lower-tier compression is available (R193). -/
def Grade.hasCompression : Grade → Bool
  | .f => false | _ => true

/-- Logical units U (Table 13-1). -/
def Grade.units : Grade → Nat
  | .f => 3509521484 | .s => 1754760742 | .e => 877380371

/-- Fixed energy and energy per GiB of the flush, in mJ (Table 7-6). -/
def Grade.flushEnergy : Grade → Nat × Nat
  | .f => (6000, 2500) | .s => (6000, 2800) | .e => (6000, 3200)

/-- Mirror pool of each package in MiB (R191). -/
def Grade.mirrorPool : Grade → Nat
  | .f => 512 | .s => 768 | .e => 1536

/-- Addressable DRAM in GB: 31/32 of raw DRAM (R18, Table 1-4). -/
def Grade.dramGb : Grade → Nat
  | .f => 372 | .s => 248 | .e => 124

/-- The FTL map carve-out in MiB: about 14, 7 and 3.5 GiB (Table 1-4, assumption log 24: DESIGN CHOICE, unsafe). -/
def Grade.carveMib : Grade → Nat
  | .f => 14336 | .s => 7168 | .e => 3584

/-- Addressable DRAM in bytes less the map carve-out. -/
def Grade.dramBytes (g : Grade) : Nat := g.dramGb * 1000000000 - g.carveMib * 1048576

/-- Flash power tokens of the grade (R338; assumption log 60: DESIGN CHOICE, safe). -/
def Grade.flashTokens : Grade → Nat
  | .f => 2400
  | g => Config.flashTokens g.code

/-- Watts allocated to the drive, the compute die and the flash array (Table 1-13; assumption log 60: DESIGN CHOICE, safe). -/
def Grade.watts : Grade → Nat × Nat × Nat
  | .f => (720, 400, 120)
  | g => (Config.allocWatts g.code 0, Config.allocWatts g.code 1, Config.allocWatts g.code 2)

/-- The allocations of Table 1-13 in watts: compute die, memory-side die, I/O die, DRAM, flash, conversion losses, auxiliaries (R36). The
lower grades carry less for compute, DRAM and flash (R38; assumption log 60: DESIGN CHOICE, safe). -/
def Grade.partWatts : Grade → List Nat
  | .f => [400, 45, 30, 55, 120, 60, 10]
  | g => [Config.allocWatts g.code 1, 45, 30, Config.allocWatts g.code 3, Config.allocWatts g.code 2, 60, 10]

/-- Built units of the grade (R465). -/
def Grade.builtUnits : Grade → Nat
  | .f => 161 | .s => 140 | .e => 120

/-- Codes of Table 2-11. -/
def Status.code : Status → Nat
  | .ok => 0x00 | .shortResult => 0x01 | .duplicate => 0x02 | .reReduced => 0x03 | .widerRerun => 0x04
  | .invalidOpcode => 0x10 | .invalidField => 0x11 | .invalidLength => 0x12 | .unitAbsent => 0x13
  | .versionRetired => 0x14 | .objectNotFound => 0x15 | .sequenceError => 0x16 | .hostAccessFault => 0x17
  | .outOfRange => 0x18 | .notErased => 0x20 | .mediaUncorrectable => 0x21 | .writeProtected => 0x22
  | .objectImpaired => 0x30 | .streamAlignment => 0x31 | .jobFault => 0x32 | .preemptLimit => 0x33
  | .unitClosed => 0x40 | .budgetExceeded => 0x41 | .capacityExhausted => 0x42 | .deadlineExpired => 0x43
  | .authFailed => 0x50 | .rollbackRefused => 0x51 | .accessDenied => 0x52 | .measurementMismatch => 0x53

/-- KIND codes of Table 17-3. -/
def UnitKind.code : UnitKind → Nat
  | .cluster => 0 | .docent => 1 | .engine => 2 | .dram => 3 | .port => 4 | .reduction => 5

/-- The unit kind of a KIND code (Table 17-3). -/
def kindOf : Nat → Option UnitKind
  | 0 => some .cluster | 1 => some .docent | 2 => some .engine | 3 => some .dram | 4 => some .port
  | 5 => some .reduction | _ => none

/-- STATE codes of Table 1-10. -/
def SvcState.code : SvcState → Nat
  | .inService => 0 | .draining => 1 | .closed => 2 | .returning => 3

/-- STATE codes of Table 16-7. -/
def PowerState.code : PowerState → Nat
  | .off => 0 | .starting => 1 | .active => 2 | .capped => 3 | .quiescent => 4 | .shuttingDown => 5 | .shutdown => 6 | .dusk => 7

/-- Phase codes of Table 19-2. -/
def Phase.code : Phase → Nat
  | .fuse => 0 | .config => 1 | .sram => 2 | .dram => 3 | .core => 4 | .mount => 5 | .service => 6 | .recovery => 7
  | .held => 8 | .halted => 9

/-- Failure codes of Table 19-3. -/
def StartFailure.code : StartFailure → Nat
  | .none => 0 | .fuseMap => 1 | .configRead => 2 | .configAuth => 3 | .memory => 4 | .identity => 5 | .grade => 6
  | .iface => 7 | .mount => 8 | .thermal => 9

end Sys2Proof.Machine
end

