-- ==== Sys2Proof/Machine/Types/Flash.lean ====
section
/-! DEFINITION. The flash array, the translation layer and the block range (spec/12, spec/13, spec/14). -/
namespace Sys2Proof.Machine

/-- Erase-unit states of Table 12-4. -/
inductive UnitState where
  | erasing | free | opened | closed | verified | bad
  deriving DecidableEq, Repr

/-- What an erase unit is set aside for: the free reserve in QLC mode, the SLC region's write buffer while it holds nothing (R356), one
of the three data streams of R350, the parity stream, the checkpoint stream, the dusk region (R359), a journal pool (R330), or lent for
raw media commands (R527). -/
inductive UnitRole where
  | reserve | buffer | host | relocate | map | parity | checkpoint | dusk | journalA | journalB | lent
  deriving DecidableEq, Repr

/-- One erase unit of the block state table (R322), with what Flash translation keeps of it (R350, R355, R364, R366, R368). A
unit that is not listed is FREE with n = 0 and no wear, in the role its number gives it (assumption log 20: PRESUMED, unsafe). -/
structure EraseUnit where
  die : Die
  unit : Nat
  state : UnitState := .free
  slc : Bool := false
  n : Nat := 0
  role : UnitRole := .reserve
  wear : Nat := 0
  reads : Nat := 0
  verifyFails : Nat := 0
  blankFails : Nat := 0
  /-- the blank check of R333 has passed since the last erase -/
  blankOk : Bool := false
  closedBt : Nat := 0
  maxWseq : Nat := 0
  /-- generation of the open units it was or is one of (R352) -/
  gen : Nat := 0
  /-- retention scan: BT of the last visit (R367) -/
  visited : Nat := 0
  /-- chosen for reclamation; its erase waits for the map pages listed (R349) -/
  waitMaps : Option (List Nat) := none
  /-- codewords that needed stage 2 in the read-disturb scan under way (R366) -/
  scan2 : Nat := 0
  /-- closed by a program failure, BAD once its valid data has moved (R325); or its erase failed, BAD once DONE is durable
  (R334) -/
  failing : Bool := false
  deriving DecidableEq, Repr

/-- The metadata of one codeword, a 4 KiB sector (Table 13-2). A sector that holds nothing has SECTORS 0. -/
structure SectorMeta where
  lun : Nat := 0
  sector : Nat := 0
  sectors : Nat := 0
  stream : Nat := 0
  compressed : Bool := false
  wseq : Nat := 0
  deriving DecidableEq, Repr

/-- What a program writes to a multi-plane page: 64 KiB of data and the metadata of its 16 codewords (R316, R319, R344). -/
structure PageImage where
  data : Bytes
  metas : List SectorMeta := []
  deriving DecidableEq, Repr

/-- Kinds of die operation (Table 12-3). -/
inductive DieOpKind where
  | read | program | erase
  deriving DecidableEq, Repr

/-- The grant order of R339, first to last. -/
inductive DiePrio where
  | dusk | urgent | read | foreground | background
  deriving DecidableEq, Repr

/-- Where a die operation stands (R335). `held` waits for its INTENT record (R331). -/
inductive DieOpState where
  | held | queued | running | suspending | suspended
  deriving DecidableEq, Repr

/-- What a die operation is for. -/
inductive DieOpOwner where
  /-- a read for the command in the slot, of a logical unit of the block range -/
  | command (slot lun : Nat)
  /-- a raw media operation (R527) -/
  | raw
  /-- the blank check of R333 -/
  | blank
  /-- a read of a read-disturb scan (R366) -/
  | scan
  /-- a sample read of the retention scan (R367) -/
  | retention
  /-- a read for the command in the slot, of a logical unit that is an object's home (R198, R269, R281) -/
  | object (slot lun : Nat)
  /-- a page that holds stored units, by their numbers in Ftl.stores (R350, R353) -/
  | store (ids : List Nat)
  /-- the parity page of a row (R351): its generation and n -/
  | parity (gen n : Nat)
  /-- padding that completes a wordline of a unit that is to be closed (R326) -/
  | pad
  /-- a page of a checkpoint (R348) -/
  | checkpoint
  /-- a page of the repair list written on its own (R456) -/
  | repair
  /-- a page of the dusk flush (R360) -/
  | dusk
  /-- a record of the erase journal, by its SEQ (R329) -/
  | journal (seq : Nat)
  /-- reclamation or retirement of the unit -/
  | reclaim
  deriving DecidableEq, Repr

/-- A die operation queued or in progress. -/
structure DieOp where
  die : Die
  kind : DieOpKind
  unit : Nat
  page : Nat
  prio : DiePrio
  st : DieOpState := .queued
  owner : DieOpOwner
  /-- of a program, what it writes -/
  fill : Option PageImage := none
  /-- the channel engine whose sequencer holds it (R24, R27) -/
  engine : Nat := 0
  deriving DecidableEq, Repr

/-- TYPE of an erase journal record (Table 12-5). -/
inductive JournalType where
  | intent | done | poolBad
  deriving DecidableEq, Repr

/-- An erase journal record and the copies that hold it (R329, R330). -/
structure JournalRec where
  typ : JournalType
  slc : Bool
  die : Die
  unit : Nat
  seq : Nat
  durableA : Bool := false
  durableB : Bool := false
  deriving DecidableEq, Repr

/-- The diagnostic counters of a channel (Table 21-3): codewords that needed each stage, uncorrectable codewords, blank
checks failed, suspends of programs and of erases, urgent erases. -/
structure ChannelCnt where
  stage1 : Nat := 0
  stage2 : Nat := 0
  stage3 : Nat := 0
  uncorrectable : Nat := 0
  blankFails : Nat := 0
  suspends : Nat := 0
  urgent : Nat := 0
  deriving DecidableEq, Repr

/-- One entry of a dusk index: a data LUN with the atomic write it belongs to, or a map page (R360). -/
inductive DuskEntry where
  | unit (lun : Nat) (atomic : Option Nat)
  | map (page : Nat)
  deriving DecidableEq, Repr

/-- A page of a die's dusk unit (R360). Of an atomic write the trailer's table gives its identifier, its units and the dies that hold
them. -/
inductive DuskPage where
  | index (entries : List DuskEntry)
  | data (lun : Nat) (atomic : Option Nat) (bytes : Bytes)
  /-- map pages, with the entries they hold -/
  | maps (pages : List Nat) (entries : List (Nat × Nat))
  | trailer (seq count : Nat) (crc : Word) (atomics : List (Nat × Nat × Nat)) (repairs : List Repair)
  deriving DecidableEq, Repr

/-- What a flush has laid into the dusk unit of a die, from slot 0 (R360). -/
structure DuskDie where
  die : Die
  unit : Nat
  pages : List DuskPage
  deriving DecidableEq, Repr

/-- The parity page of row `slot` of the dusk units of a stripe group is programmed (R351, Table 16-5). -/
structure DuskParity where
  group : Nat
  slot : Nat
  die : Nat
  unit : Nat
  page : Nat
  deriving DecidableEq, Repr

/-- The flash array (chapter 12). -/
structure Flash where
  units : List EraseUnit := []
  ops : List DieOp := []
  journal : List JournalRec := []
  nextSeq : Nat := 1
  channels : List ChannelCnt := List.replicate 64 {}
  /-- programmed multi-plane pages: page key (R342: die index, unit, page) and what was programmed, keys rising -/
  pages : List (Nat × PageImage) := []
  /-- the dusk region: what the last flush has laid there (R359, R360), and the parity pages of its rows -/
  dusk : List DuskDie := []
  duskParity : List DuskParity := []
  deriving DecidableEq, Repr

/-- A row of a stream whose parity is kept (R350 to R355): the generation of its open units, their stripe group and stream code of Table
13-2, n, the member dies programmed with their units, the highest WSEQ among them, and where its parity page is. -/
structure Row where
  gen : Nat
  group : Nat
  stream : Nat
  n : Nat
  members : List Nat
  units : List Nat
  wseq : Nat := 0
  /-- the parity page is queued; it is programmed -/
  asked : Bool := false
  parity : Bool := false
  parityDie : Nat := 0
  parityUnit : Nat := 0
  parityPage : Nat := 0
  deriving DecidableEq, Repr

/-- A page under assembly: compressed units packed into the sectors of the next slot of one unit (R343). -/
structure PartPage where
  die : Nat
  unit : Nat
  metas : List SectorMeta := []
  data : Bytes := []
  ids : List Nat := []
  deriving DecidableEq, Repr

/-- The open units of a stream in a stripe group, one per member die (R350): each member's die and unit. -/
structure OpenSet where
  gen : Nat
  group : Nat
  stream : Nat
  slc : Bool
  units : List (Nat × Nat)
  part : Option PartPage := none
  /-- full, or to be closed as soon as its programs have ended -/
  closing : Bool := false
  deriving DecidableEq, Repr

/-- A slot that a program fills or has filled: die, erase unit, multi-plane page, and the generation of the unit's set. -/
structure StoreSlot where
  die : Nat
  unit : Nat
  page : Nat
  gen : Nat
  deriving DecidableEq, Repr

/-- What a stored unit is: a unit of an object version or of the block range written back, a logical unit that moves from a location, or
map pages with the entries they hold, and the atomic writes whose changes they install (R346, R347, R364, R387). -/
inductive StoreItem where
  | object (id ver unit : Nat)
  | block (unit : Nat)
  | move (src : Nat)
  | maps (pages : List Nat) (entries : List (Nat × Nat)) (atomics : List Nat)
  deriving DecidableEq, Repr

/-- A unit on its way to flash: its number, logical unit (of map pages the first), data, the slots it takes, its WSEQ, and whether it
counts as written under R353. -/
structure StoreRec where
  id : Nat
  item : StoreItem
  lun : Nat
  /-- its stripe group -/
  group : Nat := 0
  data : Bytes := []
  slots : List StoreSlot := []
  wseq : Nat := 0
  written : Bool := false
  deriving DecidableEq, Repr

/-- What a checkpoint holds (R348): its WSEQ, the directory, the unit tables, each listed unit's valid count, wear count and read
counter, the units of the SLC region and of the dusk region, and the repair list. -/
structure Checkpoint where
  wseq : Nat
  directory : List (Nat × Nat)
  tables : List (Nat × Nat × Nat)
  counts : List (Die × Nat × Nat × Nat × Nat)
  slcUnits : List (Die × Nat)
  duskUnits : List (Die × Nat)
  repairs : List Repair
  deriving DecidableEq, Repr

/-- A binding of a location unit of a die to an erase unit (R342). -/
structure UnitBinding where
  dieIndex : Nat
  lunit : Nat
  unit : Nat
  deriving DecidableEq, Repr

/-- A dirty map page (R347). -/
structure DirtyMap where
  page : Nat
  since : Nat
  /-- queued for journalling before its age (R192) -/
  writing : Bool := false
  place : Place := {}
  /-- the store that carries it as it stands now -/
  store : Option Nat := none
  deriving DecidableEq, Repr

/-- Flash translation (chapter 13). -/
structure Ftl where
  /-- the map: logical unit and its non-zero entry, 1 for LOST (R342), units rising -/
  map : List (Nat × Nat) := []
  dirtyMaps : List DirtyMap := []
  /-- the map as the MAP stream holds it: what a mount without a dusk flush finds (R347, R372) -/
  flashMap : List (Nat × Nat) := []
  /-- the directory: map page and its latest copy in the MAP stream, as location times 16 and sector (R348), pages rising -/
  directory : List (Nat × Nat) := []
  wseq : Nat := 1
  bindings : List UnitBinding := []
  rows : List Row := []
  /-- open units by stripe group and stream, and the next generation (R350, R352) -/
  opens : List OpenSet := []
  nextGen : Nat := 1
  /-- units on their way to flash, and the number of the next -/
  stores : List StoreRec := []
  nextStore : Nat := 1
  /-- SLC units per die now (R356) -/
  slcUnits : Nat := 64
  /-- bytes written to the MAP stream since the last checkpoint, and checkpoints written (R348) -/
  mapBytes : Nat := 0
  checkpoints : Nat := 0
  /-- WSEQ of the last checkpoint, and its beacon tick (R367, R372) -/
  checkpointWseq : Nat := 0
  checkpointTick : Nat := 0
  /-- the last checkpoint that stands on flash in both copies, the one being written, and the final one of a clean shutdown has been
  asked for (R348, R439) -/
  lastCheckpoint : Option Checkpoint := none
  nextCheckpoint : Option Checkpoint := none
  finalAsked : Bool := false
  /-- a die whose dusk unit is replaced once the checkpoint is on flash (R368) -/
  swap : Option Die := none
  /-- logical units whose newest data was in DRAM alone when power was lost: the dusk region gives them back, or nothing does (R361) -/
  unsaved : List Nat := []
  /-- background reclamation has started and runs until 64 units are free (Table 13-4), by die index -/
  reclaiming : List Nat := []
  /-- units relocated and not yet set against admitted units, by stripe group (Table 13-4) -/
  relocated : List Nat := List.replicate 64 0
  admitted : List Nat := List.replicate 64 0
  /-- BT at which the next background window opens, and at which the open one closes (R365) -/
  nextWindow : Nat := 10000
  windowEnd : Nat := 0
  /-- a full retention pass spread over 86,400,000,000 BT began at this BT (R367) -/
  fullPass : Option Nat := none
  /-- the comparison of the epoch with the last checkpoint's waits for the first lock (R367, R415) -/
  compareDue : Bool := false
  /-- R370 holds, and its fault record was raised -/
  writeProtected : Bool := false
  deriving DecidableEq, Repr

/-- A dirty block of the block range (R383). -/
structure DirtyBlock where
  block : Nat
  since : Nat
  /-- admission order of the earliest command whose change of it is not on flash yet (R385) -/
  order : Nat := 0
  /-- the admission order of the atomic write it belongs to (R386) -/
  atomic : Option Nat := none
  /-- queued for write-back at its age (R210) -/
  writing : Bool := false
  place : Place := {}
  /-- the store that carries it as it stands now -/
  store : Option Nat := none
  deriving DecidableEq, Repr

/-- An atomic write whose MAP slot is not on flash yet (R387): the admission order of its command and its blocks. -/
structure AtomicWrite where
  id : Nat
  first : Nat
  count : Nat
  /-- its map changes are installed and their MAP slot is on its way (R387) -/
  installing : Bool := false
  deriving DecidableEq, Repr

/-- The self-test log of Table 14-6 and the pace of the running test (R389 to R391). -/
structure SelfTestLog where
  /-- 0 NONE, 1 RUNNING, 2 PASSED, 3 FAILED, 4 ABORTED -/
  state : Nat := 0
  kind : Nat := 0
  stepsDone : Nat := 0
  stepsTotal : Nat := 0
  failures : Nat := 0
  firstFail : Nat := 0
  failKind : Nat := 0
  yields : Nat := 0
  startBt : Nat := 0
  elapsed : Nat := 0
  relocated : Nat := 0
  /-- the command that started the test, BT at which the previous step ended, an ABORT awaits the next yield point -/
  slot : Nat := 0
  lastStep : Nat := 0
  aborting : Bool := false
  deriving DecidableEq, Repr

/-- The block range (chapter 14). -/
structure BlockRange where
  /-- contents by byte address, block b at byte 4,096 b -/
  data : Mem := []
  dirty : List DirtyBlock := []
  atomics : List AtomicWrite := []
  test : SelfTestLog := {}
  deriving DecidableEq, Repr

end Sys2Proof.Machine
end

