-- ==== Sys2Proof/Machine/Types/Link.lean ====
section
/-! DEFINITION. The link ports and the beacon time base (spec/15). -/
namespace Sys2Proof.Machine

/-- Link states of R396. -/
inductive LinkState where
  | down | training | up | retraining
  deriving DecidableEq, Repr

/-- A packet the drive sends: class code and virtual channel (Table 15-5), destination, tag, address and length
(Table 15-4), the completion ring whose home port it takes (R407), and the contents of a RED packet. -/
structure TxPkt where
  cls : Nat
  vc : Nat
  dst : Nat
  tag : Nat := 0
  addr : Nat := 0
  len : Nat := 0
  /-- 32-byte slots, header included (R404) -/
  slots : Nat
  ring : Option Nat := none
  /-- CSTATUS of a CPL that answers a CFG_RD (R402), and the payload of a write, a notification or a CPL -/
  cstatus : Nat := 0
  data : Bytes := []
  red : Option RedPacket := none
  deriving DecidableEq, Repr

/-- A DATA flit in the replay buffer (R405): each packet begins a flit of its own (assumption log 31: DESIGN CHOICE, unsafe). -/
structure TxFlit where
  fseq : Nat
  pkt : TxPkt
  /-- its place among the packet's flits -/
  part : Nat
  final : Bool
  deriving DecidableEq, Repr

/-- One link port (R394 to R409). -/
structure Port where
  link : LinkState := .down
  partner : Bool := false
  width : Nat := 0
  lanes : Nat := 0
  trainFailed : Bool := false
  /-- failed attempts in a row, and the BT at which the attempt under way began (R396) -/
  attempts : Nat := 0
  trainSince : Nat := 0
  /-- the training under way is the return self-test of R467 -/
  returning : Bool := false
  hostNode : Nat := 0
  nextFseq : Nat := 0
  /-- FSEQ of the last DATA flit received in order, and the last ACK_SEQ received -/
  rxSeq : Nat := 65535
  acked : Nat := 65535
  replay : List TxFlit := []
  wait : List TxPkt := []
  /-- replays of the oldest flit without ACK_SEQ advancing (R397) -/
  sameReplays : Nat := 0
  lastAck : Nat := 0
  nak : Bool := false
  /-- BT of failed retrains (R397) -/
  failedRetrains : List Nat := []
  /-- credit held for each virtual channel 0 to 6 (R404) -/
  credits : List Nat := List.replicate 7 0
  /-- reduction packets sent whose credit has not come back, oldest first: virtual channel, slots (R308) -/
  red : List (Nat × Nat) := []
  /-- reduction packets received and held under R308, with their virtual channel; their credit is withheld -/
  held : List (Nat × RedPacket) := []
  /-- bytes of a packet whose last slot has not arrived -/
  partialPkt : Bytes := []
  /-- BT since which the host has returned no credit on VC0 to VC2 while packets wait (R485) -/
  starvedSince : Option Nat := none
  /-- BSEQ of the last BEACON flit with a good CRC since the port reached UP (R411) -/
  bseq : Option Nat := none
  /-- the port's last BEACON flit was valid, at this BT -/
  beaconAt : Option Nat := none
  delay : Nat := 0
  /-- BCN cycle count at which the ECHO flit in flight left (R411) -/
  echoAt : Option Nat := none
  /-- an ECHO fell due while the port retrained; it is sent when that ends (R418) -/
  echoDue : Bool := false
  errPackets : Nat := 0
  errFlits : Nat := 0
  replays : Nat := 0
  retrains : Nat := 0
  width2 : Nat := 0
  deriving DecidableEq, Repr

/-- The ports and the node address (R406). -/
structure LinkBlock where
  ports : List Port := [{}, {}]
  node : Nat := 0
  /-- home port of each ring while it is held back from moving under R407 -/
  homes : List (Nat × Nat) := []
  /-- reduction packets that wait at the bound of 512 of their domain slot, oldest first (R308) -/
  redWait : List TxPkt := []
  /-- BT of the last retry of DOWN ports (R496) -/
  lastRetry : Nat := 0
  lastEcho : Nat := 0
  deriving DecidableEq, Repr

/-- Time-base states with the codes of `BCN_STATUS` (Table 15-8, Table 22-5). -/
inductive TimeState where
  | acquiring | locked | holdover | degraded
  deriving DecidableEq, Repr

/-- Users of the AON timer's one compare channel: the holdover limit, or the self-test's yield limit (R477). -/
inductive AonUser where
  | holdover | selfTest
  deriving DecidableEq, Repr

/-- The time base (R410 to R416). The epoch at elapsed BT t is `tick + (t - tickBt)`. -/
structure Beacon where
  cfg : Nat := 2
  state : TimeState := .acquiring
  supply : Nat := 3
  err : Bool := false
  tick : Nat := 0
  tickBt : Nat := 0
  lastValid : Nat := 0
  /-- consecutive valid beacons that agree with one another: the tick of the latest and its BT, and how many -/
  agree : Nat := 0
  agreeTick : Nat := 0
  agreeBt : Nat := 0
  /-- the last error-free `AUX_TIME` frame: its TICK and BT (R413) -/
  aux : Option (Nat × Nat) := none
  bad : Nat := 0
  rejected : Nat := 0
  holdovers : Nat := 0
  relocks : Nat := 0
  /-- BT at which the last source check ended (R414) -/
  checked : Nat := 0
  /-- who uses the AON timer's compare channel; both limits are counted from BT, so that each keeps its elapsed ticks over a switch
  (R477) -/
  aon : AonUser := .selfTest
  deriving DecidableEq, Repr

end Sys2Proof.Machine
end

