-- ==== Sys2Proof/Machine/Types/Programs.lean ====
section
/-! DEFINITION. Aqnan images, descriptors and the state of jobs, threads, engines and streams (spec/03 to spec/06). -/
namespace Sys2Proof.Machine

/-- A conversion record (Table 3-7). -/
structure ConvRec where
  layer : Nat
  target : Nat
  wide : Nat
  /-- GROUP code: 0 = 32, 1 = 64, 2 = 128 -/
  group : Nat
  enc : Nat
  static : Bool
  sr : Bool
  monitor : Bool
  staticScale : Nat
  bandLo : Word
  bandHi : Word
  oobLimit : Nat
  srSeed : Word
  deriving DecidableEq, Repr

/-- A pause-point entry (Table 5-9). -/
structure PauseEntry where
  index : Nat
  layerStart : Bool
  layerEnd : Bool
  preempt : Bool
  codeOffset : Nat
  liveRegs : BitVec 64
  livePreds : BitVec 8
  liveAcc : BitVec 8
  liveInput : BitVec 8
  storeBase : Nat
  storeLen : Nat
  layer : Nat
  resume : Nat
  deriving DecidableEq, Repr

/-- A placement-plan entry (Table 5-10). -/
structure PlaceEntry where
  trigger : Nat
  /-- 0 PROMOTE, 1 EVICT, 2 PIN, 3 UNPIN -/
  op : Nat
  tier : Nat
  slot : Nat
  priv : Bool
  wait : Bool
  offset : Nat
  length : Nat
  storeOffset : Nat
  clusters : BitVec 64
  deriving DecidableEq, Repr

/-- An Aqnan image that passed Table 5-11 (R149). -/
structure Image where
  threads : Nat
  minClusters : Nat
  maxClusters : Nat
  syncBlocks : Nat
  slots : Nat
  paramLen : Nat
  paramBase : Nat
  resultBytes : Nat
  scratchBytes : Nat
  entry : Nat
  spanBt : Nat
  code : Bytes
  codeAux : Nat
  const : Bytes
  constAux : Nat
  convs : List ConvRec
  pauses : List PauseEntry
  plan : List PlaceEntry
  /-- SHAKE256 measurement of the image, 64 bytes (R150) -/
  measurement : Bytes
  /-- the digest of the CODE and CONST sections kept with the program version (R510) -/
  sections : Bytes
  saveBytes : Nat
  /-- run for the first time since start-up is still to be measured (Table 20-5) -/
  measured : Bool := true
  deriving DecidableEq, Repr

/-- A stream descriptor (Table 5-4), its fields as numbers. -/
structure StreamDesc where
  kind : Nat
  layout : Nat
  fmt : Nat
  group : Nat
  enc : Nat
  t0 : Nat
  conv : Bool
  sig : Bool
  convrec : Nat
  lanes : Nat
  length : Nat
  srcStride : Nat
  srcSpace : Nat
  srcCluster : Nat
  srcSlot : Nat
  srcOffset : Nat
  scaleOffset : Nat
  dstSpace : Nat
  dstSlot : Nat
  dstEngines : Nat
  half : Nat
  stream : Nat
  sync : Nat
  dstOffset : Nat
  dstClusters : Nat
  deriving DecidableEq, Repr

/-- Accumulator tile states (Table 4-4). -/
inductive TileState where
  | empty | loading | accumulating | full | draining
  deriving DecidableEq, Repr

/-- One 128 × 128 FP32 accumulator tile, row-major; no data while EMPTY (R108, R113). -/
structure Tile where
  state : TileState := .empty
  data : List Word := []
  deriving DecidableEq, Repr

/-- The condition of an input bank half (R543). -/
inductive HalfCond where
  | nothing | alone | joined
  deriving DecidableEq, Repr

/-- A resident operand: element codes by lane, scale codes by lane and group, tags by group (R103, R108). -/
structure Resident where
  fmt : Nat := 0
  /-- group size in elements -/
  group : Nat := 32
  enc : Nat := 0
  k : Nat := 0
  t0 : Nat := 0
  lanes : List (List Nat) := []
  scales : List (List Nat) := []
  tags : List Nat := []
  deriving DecidableEq, Repr

/-- One input bank half; a joined bank's data is held by half 0 (R543). -/
structure Half where
  cond : HalfCond := .nothing
  data : Resident := {}
  deriving DecidableEq, Repr

/-- The kinds of operation an engine holds in issue order: passes, drains, accumulator loads, and input loads into its
halves (R139 to R141, Table 4-9). -/
inductive EngOpKind where
  | pass | drain | accld | load
  deriving DecidableEq, Repr

/-- An engine operation in issue order (Table 5-5). `started` once it has been judged against its tile and halves. -/
structure EngOp where
  /-- tells the operations of one engine apart -/
  seq : Nat := 0
  kind : EngOpKind
  thread : Nat
  pc : Nat
  /-- the tile named; 2 for an input load, which names none -/
  tile : Nat := 2
  sig : Bool := false
  sync : Nat := 0
  half : Nat := 0
  cont : Bool := false
  stream : Nat := 0
  k0 : Nat := 0
  k : Nat := 0
  /-- DRAIN: output under a conversion record -/
  outConv : Bool := false
  /-- DRAIN: ROW layout -/
  row : Bool := false
  t0 : Nat := 0
  offset : Nat := 0
  convrec : Nat := 0
  stride : Nat := 0
  started : Bool := false
  /-- PASS: groups issued and folded, and groups in all once it has started -/
  group : Nat := 0
  groups : Nat := 0
  /-- LDIN: its descriptor -/
  desc : Option StreamDesc := none
  /-- first element index taken at issue by a conversion (R89) -/
  base : Nat := 0
  deriving DecidableEq, Repr

/-- A data block and its scale entry as a stream delivers them (R83): element codes with element t × 128 + i for
slice t and lane i, trailers as tag and format byte, scale codes by lane. -/
structure Block where
  elems : List Nat
  tag : Nat
  meta1 : Nat
  scales : List Nat
  scaleTag : Nat
  scaleMeta1 : Nat
  deriving DecidableEq, Repr

/-- A filled staging slot of an engine: the number of the stream that filled it, the block's index in the stream, and the block
(R108, R111). -/
structure Staged where
  stream : Nat
  idx : Nat
  block : Block
  deriving DecidableEq, Repr

/-- A group whose k-steps have issued and whose exact sums are still to be folded into its tile (R90, R108, R111): the sums row by
row, and the scale values of its resident and stream lanes, none for NaN. -/
structure GroupSums where
  tile : Nat
  sums : List Frac
  rows : List (Option Frac)
  cols : List (Option Frac)
  deriving DecidableEq, Repr

/-- One outer-product engine (Table 4-2): at most two of its staging slots are filled, and `sums` is the group-sum bank that is
still to be folded. -/
structure Engine where
  half0 : Half := {}
  half1 : Half := {}
  tile0 : Tile := {}
  tile1 : Tile := {}
  staging : List Staged := []
  sums : Option GroupSums := none
  ops : List EngOp := []
  deriving DecidableEq, Repr

/-- Why a hardware thread does not issue (R131, R132, R143). -/
inductive ThreadState where
  | idle | ready
  /-- suspended until the counter of the object is at least the value (R142) -/
  | waiting (obj : Nat) (value : Word)
  /-- at the barrier of a pause point; the thread's pc stands at the PAUSE (R143) -/
  | barrier (index : Nat)
  | exited | stopped
  deriving DecidableEq, Repr

/-- One hardware thread (R131): s0 to s63, p0 to p7, and the PC as an offset in the code section. -/
structure Thread where
  regs : List Word := List.replicate 64 0
  preds : BitVec 8 := 0
  /-- its stores that no other thread or unit sees yet: offset and bytes, the oldest first (R134) -/
  stores : List (Nat × Bytes) := []
  pc : Nat := 0
  st : ThreadState := .idle
  deriving DecidableEq, Repr

/-- A glint summary (Table 3-6). -/
structure Glint where
  layer : Nat := 0
  groups : Nat := 0
  flat : Nat := 0
  oobHigh : Nat := 0
  oobLow : Nat := 0
  sat : Nat := 0
  nan : Nat := 0
  peak : Word := 0
  rerun : Bool := false
  rerunOob : Nat := 0
  deriving DecidableEq, Repr

/-- An XFER in flight (R139). -/
structure Xfer where
  id : Nat
  cluster : Nat
  thread : Nat
  pc : Nat
  desc : StreamDesc
  /-- its bytes are written, and it waits for their pages to reach flash (R209) -/
  written : Bool := false
  deriving DecidableEq, Repr

/-- A tree stream of the job (R120, R122, R139). -/
structure Stream where
  /-- tells the streams of one job apart -/
  num : Nat := 0
  handle : Nat
  /-- job-relative cluster that issued the WSTR -/
  cluster : Nat
  desc : StreamDesc
  /-- destination engines: job-relative cluster, engine -/
  dests : List (Nat × Nat)
  /-- blocks read from the source, each put into a staging slot of every destination -/
  delivered : Nat := 0
  /-- false while the set-up waits for one of the 64 streams of the tree (R120) -/
  live : Bool := true
  /-- the last block has been delivered and the stream has left the tree; staged blocks may remain -/
  ended : Bool := false
  thread : Nat := 0
  pc : Nat := 0
  /-- first element index taken at issue by a conversion (R89) -/
  base : Nat := 0
  deriving DecidableEq, Repr

/-- One cluster of a job: its thread processor and engines (R106), and its share of the job's glint state (R89, R95). -/
structure JobCluster where
  phys : Nat
  threads : List Thread := []
  engines : List Engine := [{}, {}, {}, {}]
  /-- running element index of each conversion record (R89) -/
  elemIdx : List Nat := []
  glint : List Glint := []
  deriving DecidableEq, Repr

/-- The pause state of a job (R144): cluster state outside the LIVE masks cleared, sync counters, and STORE_LIVE bytes
where the clusters were released. -/
structure Save where
  index : Nat
  clusters : List JobCluster
  sync : List Word
  store : List Bytes := []
  wide : List Nat := []
  reruns : Nat := 0
  /-- the result region as it stood at the pause point (R104) -/
  result : Mem := []
  /-- the tier 0 placements in force at the pause point (R165) -/
  placed : List PlaceEntry := []
  deriving DecidableEq, Repr

/-- A trap record (Table 5-14, R147). -/
structure TrapRec where
  cause : Nat
  thread : Nat
  cluster : Nat
  phys : Nat
  pc : Nat
  data : Word64
  deriving DecidableEq, Repr

/-- A job's object binding (R154). -/
structure Binding where
  obj : Nat
  ver : Nat
  write : Bool
  deriving DecidableEq, Repr

/-- What the job is run for (R157, R546). -/
inductive JobKind where
  | run | encode | rerank | seal | attend | distance | merge
  deriving DecidableEq, Repr

/-- Where a job stands (R163, R168, R176). -/
inductive JobState where
  | waiting | running | ended
  deriving DecidableEq, Repr

/-- A decision that stops the job at its next pause point (R439, R468). -/
inductive JobStop where
  | impaired | shutdown
  deriving DecidableEq, Repr

/-- A placement move under way (R201): the entry and whether it holds the threads. -/
structure Move where
  entry : PlaceEntry
  since : Nat
  deriving DecidableEq, Repr

/-- One job (chapter 6). -/
structure Job where
  id : Nat
  /-- the command's active-command slot -/
  slot : Nat
  kind : JobKind
  client : Nat
  order : Nat
  prog : Nat := 0
  progVer : Nat := 0
  /-- the image; none for a job of a service that runs no Jorern program -/
  image : Option Image := none
  bindings : List Binding := []
  params : Bytes := []
  need : Nat
  state : JobState := .waiting
  /-- its command has executed; a JOB_RUN's job is admitted before that, and waits (R162, R163) -/
  ready : Bool := true
  started : Bool := false
  clusters : List JobCluster := []
  /-- blocks of the sync table it is granted, and their counters while it holds them (R127) -/
  grant : List Nat := []
  sync : List Word := []
  syncBlocks : Nat := 0
  scratch : Mem := []
  /-- packages of the two copies of its save areas and scratch (R450) -/
  area : Place := {}
  /-- units of the scratch that a placement plan has moved out of tier 1, with their tier (R201, R203) -/
  scratchAt : List (Nat × Nat) := []
  result : Mem := []
  streams : List Stream := []
  nextStream : Nat := 0
  xfers : List Xfer := []
  nextXfer : Nat := 0
  /-- the state saved at the last pause point taken, and at pause point 0 (R144, R458) -/
  save : Option Save := none
  save0 : Option Save := none
  /-- the saves taken at LAYER_START points of layers whose verdict is still due (R100) -/
  layerSaves : List Save := []
  /-- the start of the layer whose wider re-run is under way, as the re-run took it up (R105) -/
  rerun : Option Save := none
  /-- layers re-run wide in the current run, and layers whose re-run is under way (R100) -/
  wide : List Nat := []
  nan : Bool := false
  accSat : Bool := false
  trapped : Bool := false
  trap : Option TrapRec := none
  lastPause : Nat := 0
  preemptions : Nat := 0
  replays : Nat := 0
  reruns : Nat := 0
  alignFaults : Nat := 0
  /-- replays from the current pause point, and the clusters that had an event in this span (R457) -/
  pointReplays : Nat := 0
  spanEvents : List Nat := []
  marked : Bool := false
  stop : Option JobStop := none
  /-- the error status with which the job ends once its operations in flight have ended -/
  ending : Option Status := none
  moves : List Move := []
  /-- tier 0 placements in force (R165, R203) -/
  placed : List PlaceEntry := []
  cycles : Nat := 0
  chargedTo : Nat := 0
  waitSince : Nat := 0
  sliceEnd : Nat := 0
  /-- overrun to be deducted from the next slice (R173) -/
  deduct : Nat := 0
  watchdog16 : Nat := 0
  /-- BT since which too few clusters are IN_SERVICE or RETURNING (R166) -/
  shortSince : Option Nat := none
  deriving DecidableEq, Repr

/-- A client of the SCH block (R158, R161, Table 6-1). -/
structure Client where
  enabled : Bool := false
  weight : Nat := 0
  limit : Nat := 0
  vtime : Nat := 0
  rem : Nat := 0
  cycles : Nat := 0
  jobs : Nat := 0
  waitBt : Nat := 0
  maxWaitBt : Nat := 0
  preempts : Nat := 0
  suspends : Nat := 0
  overrunBt : Nat := 0
  limitStops : Nat := 0
  wdog : Nat := 0
  deriving DecidableEq, Repr

/-- The scheduler (chapter 6) and the cluster stores by physical cluster (R125). -/
structure Sched where
  clients : List Client := List.replicate 256 {}
  jobs : List Job := []
  nextJob : Nat := 0
  sliceBt : Nat := 2000
  err : Bool := false
  stores : List Mem := List.replicate 68 []
  /-- the sync table: 256 blocks of 64 counters. The counters of a block granted to a job stand in the job while it holds the block
  (R127) -/
  syncTable : List (List Word) := List.replicate 256 (List.replicate 64 0)
  deriving DecidableEq, Repr

end Sys2Proof.Machine
end

