-- ==== Sys2Proof/Machine/Types/Objects.lean ====
section
/-! DEFINITION. Objects, versions, tiers, the dusk budget, indexes, tables, folios' services and reduction slots
(spec/07 to spec/11). -/
namespace Sys2Proof.Machine

/-- Version states of Table 7-3; a RETIRED version is not kept. -/
inductive VerState where
  | building | current | superseded | retiring
  deriving DecidableEq, Repr

/-- A 4 KiB page that is newer in DRAM than on flash (R181, R188). -/
structure DirtyPage where
  page : Nat
  /-- BT of its first change (R210) -/
  since : Nat
  /-- a write-back of the page is in progress (Table 7-10) -/
  writing : Bool := false
  place : Place := {}
  /-- the store that carries it as it stands now -/
  store : Option Nat := none
  deriving DecidableEq, Repr

/-- An accession entry (Table 8-9): its SEQ, operation, vector ID, attributes and vector bytes. -/
structure AccEntry where
  seq : Nat
  insert : Bool
  id : Nat
  attrs : Bytes
  vector : Bytes
  deriving DecidableEq, Repr

/-- The search state a version carries: its accession list and committed sequence (R227). -/
structure IndexMeta where
  entries : List AccEntry := []
  committed : Nat := 0
  deriving DecidableEq, Repr

/-- One version of an object (R195 to R197). -/
structure Version where
  num : Nat
  state : VerState
  /-- first logical unit of its flash home (R341, assumption log 22: DESIGN CHOICE, unsafe) -/
  lun : Nat := 0
  pins : Nat := 0
  size : Nat
  data : Mem := []
  dirty : List DirtyPage := []
  /-- pages of a BUILDING version that a write has reached (R197) -/
  written : List Nat := []
  /-- pages that can not be recovered (R468, R469) -/
  lost : List Nat := []
  impaired : Bool := false
  image : Option Image := none
  index : IndexMeta := {}
  deriving DecidableEq, Repr

/-- A DRAM copy of a 64 KiB unit of a version (R182, R185). -/
structure DramUnit where
  ver : Nat
  unit : Nat
  lastAccess : Nat
  /-- the package that holds it -/
  pkg : Nat := 0
  deriving DecidableEq, Repr

/-- A first access of a unit that may bring a copy on the second (R185). -/
structure Access where
  ver : Nat
  unit : Nat
  at_ : Nat
  deriving DecidableEq, Repr

/-- Who refers to a unit: a host pin, a job, or the round of a domain (R200, R203, R299). -/
inductive Holder where
  | host
  | job (id : Nat)
  | round (domain : Nat)
  deriving DecidableEq, Repr

/-- A reference on a unit in a tier, and who holds it (R200, R203). -/
structure Ref where
  who : Holder
  ver : Nat
  unit : Nat
  tier : Nat
  deriving DecidableEq, Repr

/-- An eviction deferred until the unit's references fall (R204). -/
structure DeferredEvict where
  ver : Nat
  unit : Nat
  tier : Nat
  deriving DecidableEq, Repr

/-- An object (R23, R184, R195). -/
structure Obj where
  id : Nat
  /-- 1 weight set, 2 program image, 3 vector index, 4 embedding table, 5 folio, 6 residual store, 7 plain data -/
  kind : Nat
  durable : Bool
  /-- tier that holds the object's home: 1 in vitrine or allocation flags, 2 or 3 (R183) -/
  tier : Nat
  base : Nat := 0
  size : Nat
  versions : List Version := []
  /-- the whole object was retired while versions were pinned (R199) -/
  gone : Bool := false
  copies : List DramUnit := []
  accesses : List Access := []
  refs : List Ref := []
  deferred : List DeferredEvict := []
  /-- units (version, unit) whose home a host or plan has moved to the other flash tier than the created one: into tier 2,
  or out of it for an object created in tier 2 (R200, R203) -/
  slc : List (Nat × Nat) := []
  /-- of an object homed in tier 1, units (version, unit) that an eviction or a drain has taken out of DRAM (R27, R200) -/
  outDram : List (Nat × Nat) := []
  /-- the ACCESSION executing, and the merge running (R229, R248) -/
  accessing : Option Nat := none
  merging : Bool := false
  /-- of a folio: an append is in its job when the drive restarts (R270) -/
  appending : Bool := false
  /-- of a volatile object: DRAM alone held data of it when power was lost (R189) -/
  unsaved : Bool := false
  /-- the check that refused the last commit of an index or table, and its node or component; 0 where it passed (R219,
  R280) -/
  lastCheck : Nat := 0
  lastNode : Nat := 0
  deriving DecidableEq, Repr

/-- The tier manager and the TIR block (chapter 7, Table 22-6). -/
structure Tiers where
  /-- `TIR_CFG`: false unified range, true allocation flags -/
  flagsView : Bool := false
  vitrine : Bool := false
  compress : Bool := true
  err : Bool := false
  writeThrough : Bool := true
  /-- the record of entering write-through has been raised since it last was left (R209) -/
  throughRaised : Bool := false
  giveUps : Nat := 0
  budget : Nat := 0
  promoteWait : Nat := 1000
  objects : List Obj := []
  /-- logical-unit numbers given to object homes so far (assumption log 22: DESIGN CHOICE, unsafe) -/
  nextLun : Nat := 0
  /-- lost-object list, oldest first, at most 4,096 (R189) -/
  lostList : List Nat := []
  lostCount : Nat := 0
  /-- throttle of Table 7-8: D reached B and has not fallen below 0.9 B -/
  stalled : Bool := false
  /-- bytes written back that the 0.9 B band may still admit (two for one) -/
  credit : Nat := 0
  /-- a periodic holdup measurement holds D at B less 0.25 GiB (R431) -/
  holdBack : Bool := false
  /-- 64 KiB DRAM units withdrawn (R456) -/
  withdrawn : Nat := 0
  deriving DecidableEq, Repr

/-- The search service's kernels: the bytes each of the 64 slots holds (R221). -/
structure Search where
  kernels : List Bytes := []
  deriving DecidableEq, Repr

/-- A hotness tracker entry (R289). -/
structure Track where
  table : Nat
  ver : Nat
  comp : Nat
  row : Nat
  count : Nat
  born : Nat
  deriving DecidableEq, Repr

/-- A hot or prefetched copy in the hot region (R288, R289): its bytes are those of its version. -/
structure HotCopy where
  table : Nat
  ver : Nat
  comp : Nat
  row : Nat
  bytes : Nat
  /-- the packages that hold it (R289) -/
  pkgs : List Nat
  /-- BT at which its protection ends, while it is a protected prefetched copy -/
  guardUntil : Option Nat
  deriving DecidableEq, Repr

/-- The gather engine (chapter 10). -/
structure GatherEngine where
  threshold : Nat := 8
  hotUnits : Nat := 32
  err : Bool := false
  tracker : List Track := []
  /-- copies, the least recently read first -/
  copies : List HotCopy := []
  nextBorn : Nat := 0
  /-- BT of the last decay (R289) -/
  decayed : Nat := 0
  deriving DecidableEq, Repr

/-- The attention service (R269). -/
structure Attention where
  clusters : Nat := 8
  err : Bool := false
  deriving DecidableEq, Repr

/-- Domain slot states (R295, Table 11-7). -/
inductive DomState where
  | empty | ready | reducing | stalled
  deriving DecidableEq, Repr

/-- Which packets of a part have arrived, and how many it has (R307). -/
structure Arrived where
  seen : List Nat := []
  count : Option Nat := none
  deriving DecidableEq, Repr

/-- One pass of a chunk's sum on this rank (R301, R307). -/
structure Pass where
  exp : Int
  words : List (Nat × Int) := []
  own : Arrived := {}
  left : Arrived := {}
  right : Arrived := {}
  overflowed : Bool := false
  margin : Nat := 0
  /-- the node's outgoing entries were formed and sent up, or kept by the root -/
  sent : Bool := false
  deriving DecidableEq, Repr

/-- One chunk of a round (R300 to R303). -/
structure Chunk where
  index : Nat
  exp : Int
  /-- kept a: the non-zero elements as (element, FP32 code) -/
  a : List (Nat × Word) := []
  chosen : List Nat := []
  first : Pass
  second : Option Pass := none
  repass : Arrived := {}
  down : Arrived := {}
  downEntries : List (Nat × Int) := []
  downExp : Int := 0
  rereduced : Bool := false
  complete : Bool := false
  /-- controllers that hold its accumulation words and their mirror (R451) -/
  place : Place := {}
  deriving DecidableEq, Repr

/-- A round on this rank (R299). -/
structure Round where
  num : Nat
  slot : Nat
  residual : Nat
  chunkFirst : Nat
  chunkCount : Nat
  k : Nat
  inBf16 : Bool
  outBf16 : Bool
  startTick : Nat
  sending : Bool := false
  startLow : Nat := 0
  startBt : Nat := 0
  chunks : List Chunk := []
  nan : Bool := false
  outSat : Bool := false
  dupDrops : Nat := 0
  entriesSent : Nat := 0
  entriesSummed : Nat := 0
  lastPacket : Nat := 0
  mismatched : Bool := false
  /-- 0 while chunks are under way; then the part of the store's update that is on its way to flash: 1 STATE APPLYING, 2 residuals and
  exponents, 3 LAST_ROUND, 4 STATE CLEAN (R304) -/
  phase : Nat := 0
  deriving DecidableEq, Repr

/-- A reduction domain slot (Table 11-2, Table 11-7). -/
structure Domain where
  state : DomState := .empty
  tag : Nat := 0
  ranks : Nat := 0
  rank : Nat := 0
  parent : Nat := 0
  left : Nat := 0
  right : Nat := 0
  stallBt : Nat := 0
  nextRound : Nat := 0
  roundsDone : Nat := 0
  rereduced : Nat := 0
  dupDrops : Nat := 0
  mismatchDrops : Nat := 0
  stalls : Nat := 0
  lastDone : Nat := 0
  round : Option Round := none
  deriving DecidableEq, Repr

end Sys2Proof.Machine
end

