-- ==== Sys2Proof/Machine/Types/Rings.lean ====
section
/-! DEFINITION. Rings, completions, active-command slots and the state of a command on its path (spec/02, R472). -/
namespace Sys2Proof.Machine

/-- A completion that is ready to post (Table 2-9), with what its posting releases. SQ_HEAD, PHASE and DEGRADED are
added when it is written (R63, R65, R66). -/
structure Completion where
  tag : Nat
  status : Status
  /-- the INFO bits and DUPLICATE of CFLAGS (Table 2-10) -/
  cflags : Nat
  seq : Word
  sq : Nat
  result : Nat
  /-- send the notification message (HFLAGS.NO_NOTIFY clear) -/
  notify : Bool
  /-- the active-command slot the posting releases -/
  slot : Option Nat
  /-- place of the entry in the drive's fetch sequence (R71) -/
  order : Nat := 0
  /-- the posting is kept with the record of its sequence number (R64) -/
  retain : Bool := true
  deriving DecidableEq, Repr

/-- The retained record of one sequence number (R64). -/
structure Retained where
  seq : Word
  opcode : Nat
  tag : Nat
  /-- the completion once it is posted -/
  posted : Option Completion := none
  deriving DecidableEq, Repr

/-- One submission ring (R39 to R50, Table 22-3). -/
structure Sq where
  base : Nat := 0
  size : Nat := 0
  cq : Nat := 0
  enabled : Bool := false
  /-- a disable was requested and commands are still in flight (R42) -/
  disabling : Bool := false
  halted : Bool := false
  err : Bool := false
  seqBase : Word := 0
  expSeq : Word := 0
  head : Nat := 0
  tail : Nat := 0
  inFlight : Nat := 0
  /-- the duplicate window, newest first, at most 4,096 records (R64) -/
  window : List Retained := []
  deriving DecidableEq, Repr

/-- One completion ring (R39 to R46, R68 to R70, Table 22-3). -/
structure Cq where
  base : Nat := 0
  size : Nat := 0
  msgEn : Bool := false
  enabled : Bool := false
  err : Bool := false
  msgAddr : Nat := 0
  coalesceCount : Nat := 1
  coalesceTime : Nat := 0
  /-- next slot to write, and the index released up to -/
  tail : Nat := 0
  head : Nat := 0
  phase : Bool := false
  /-- completions ready and not yet posted, in the order they became ready (R69) -/
  ready : List Completion := []
  /-- posted completions that ask for a message not yet sent, and the BT of the oldest (R70) -/
  unnotified : Nat := 0
  oldest : Nat := 0
  /-- a record of class 0x11 was raised and no valid head write followed (R46) -/
  badHead : Bool := false
  deriving DecidableEq, Repr

/-- One outstanding read of host memory (R402, R403). -/
structure Mrd where
  port : Nat
  tag : Nat
  addr : Nat
  len : Nat
  deriving DecidableEq, Repr

/-- One segment of a buffer after its list has been read (Table 2-6). -/
structure Seg where
  addr : Nat
  len : Nat
  deriving DecidableEq, Repr

/-- Where an admitted command stands (R19, R71). -/
inductive SlotPhase where
  /-- held by HFLAGS.FENCE until every earlier command of its ring has posted (R71) -/
  | fenced
  /-- handed to its path; it has not begun to execute -/
  | handed
  /-- executing -/
  | running
  /-- its completion is ready -/
  | done
  deriving DecidableEq, Repr

/-- A gather's progress (R284, R285). -/
structure GatherWork where
  indices : List Nat
  /-- positions written, or whose rows are staged -/
  pos : Nat := 0
  steps : Nat := 0
  fetched : Nat := 0
  hot : Nat := 0
  prefetched : Nat := 0
  flash : Nat := 0
  nan : Bool := false
  /-- rows staged by a prefetch -/
  staged : Nat := 0
  /-- stored rows (component, row) that have counted their hit (R289) -/
  counted : List (Nat × Nat) := []
  deriving DecidableEq, Repr

/-- The candidates and counts of one query (R236, R239, R241). -/
structure QueryState where
  /-- eligible candidates in rank order: key, vector ID -/
  found : List (Key × Nat) := []
  flags : Nat := 0
  rounds : Nat := 0
  beam : Nat := 0
  evaluated : Nat := 0
  scanned : Nat := 0
  deriving DecidableEq, Repr

/-- A search's progress: the stage, the snapshot, and its queries (R233 to R246). -/
structure SearchWork where
  /-- 0 encoder job, 1 distances, 2 reranker job, 3 result due -/
  stage : Nat := 0
  snapshot : Nat := 0
  ver : Nat := 0
  queries : List Bytes := []
  results : List QueryState := []
  scores : List Nat := []
  /-- statistics bytes of chained jobs, the encoder's first (R236) -/
  stats : Bytes := []
  /-- a chained job re-ran a layer wide (R246) -/
  rerun : Bool := false
  deriving DecidableEq, Repr

/-- What a command whose effect is in DRAM waits for: the pages (object, version, page) and blocks of the block range listed are on
flash and, where `journal` is set, the map pages they changed are journalled; with the result word and the INFO bits it completes with
(R199, R383, R385). -/
structure FlushWork where
  pages : List (Nat × Nat × Nat) := []
  blocks : List Nat := []
  maps : List Nat := []
  /-- logical units that move between the flash tiers (R199, R200) -/
  moves : List Nat := []
  journal : Bool := false
  result : Nat := 0
  info : Nat := 0
  deriving DecidableEq, Repr

/-- Where an ACCESSION_MERGE stands: its job runs, its version waits to be admitted to D, or the version is written (R210, R247). -/
inductive MergeStage where
  | working | held | built
  deriving DecidableEq, Repr

/-- The part of a command's execution that outlives one step: with the rest of its slot, what the request record of its service holds,
from which a core that takes the service over goes on (R460). -/
inductive Work where
  | none
  /-- UNIT_CLOSE or UNIT_RETURN waits for the unit (R464) -/
  | unit (kind phys : Nat)
  /-- it is done with the unit, and waits until the repair list is on flash (R456) -/
  | listed (st : Status) (result : Nat)
  /-- a write waits until these bytes of durable dirty data are admitted (R210); nothing has happened yet -/
  | held (bytes : Nat)
  /-- waits for flash -/
  | flush (w : FlushWork)
  /-- BLOCK_READ waits for the die reads of logical units of the block range; the blocks that no source gave back (R381, R382) -/
  | blockRead (units failed : List Nat)
  | gather (g : GatherWork)
  | search (w : SearchWork)
  /-- ACCESSION_MERGE: the version being built and its snapshot (R247) -/
  | merge (newVer snapshot : Nat) (stage : MergeStage)
  /-- waits for a job (R546) -/
  | job
  /-- a folio attend's records or append, produced when its job ends -/
  | folio (tokens : Nat)
  /-- a REDUCE with its domain slot; `begun` from its round start (R299) -/
  | reduce (domain : Nat) (begun : Bool)
  /-- OBJECT_MOVE into DRAM that waits for room, since this BT (R205) -/
  | move (since : Nat)
  /-- SELF_TEST under way (R389) -/
  | selfTest
  /-- FW_ACTIVATE writing the serial flash (R514) -/
  | fwWrite
  /-- ATTEST waiting for, or under, the signing engine, with the report once taken (R518) -/
  | attest (report : Bytes)
  deriving DecidableEq, Repr

/-- A logical unit that a command reads from flash: the 64-byte lines it reads of it, and whether its die reads have been issued (R269,
R287). -/
structure FlashRead where
  lun : Nat
  lines : Nat
  issued : Bool := false
  deriving DecidableEq, Repr

/-- One active-command slot (R19, R49). -/
structure Slot where
  id : Nat
  sq : Nat
  /-- the 64 bytes of the entry (Table 2-3) -/
  entry : Bytes
  /-- place in the drive's one admission sequence (R380) -/
  order : Nat
  fetchBt : Nat
  phase : SlotPhase := .handed
  /-- data and result buffers as segments in list order (R57) -/
  data : List Seg := []
  result : List Seg := []
  /-- host reads outstanding for the data buffer, and pieces of it not yet asked for (R403) -/
  reads : List Mrd := []
  toRead : List Seg := []
  /-- pins held: object, version (R197) -/
  pins : List (Nat × Nat) := []
  work : Work := .none
  /-- flash reads it waits for; empty once they have ended -/
  fetch : Option (List FlashRead) := none
  deriving DecidableEq, Repr

/-- The Atrium (chapter 2). -/
structure Atrium where
  sqs : List Sq := List.replicate 256 {}
  cqs : List Cq := List.replicate 256 {}
  slots : List Slot := []
  nextSlot : Nat := 0
  nextOrder : Nat := 0
  /-- the ring served by the last turn and the entries taken in that turn (R48) -/
  lastRing : Nat := 255
  turnTaken : Nat := 8
  /-- `ATR_ERR_CNT` by index (Table 22-3) -/
  errCnt : List Nat := List.replicate 256 0
  /-- clean shutdown or the dusk flush has stopped fetching (R433, R439) -/
  stopped : Bool := false
  /-- results that no port could carry when they were ready, oldest first: ring, address, bytes (R21, R409) -/
  parked : List (Nat × Nat × Bytes) := []
  deriving DecidableEq, Repr

/-- One entry of the range-lock table (R378). -/
structure Lock where
  slot : Nat
  order : Nat
  lo : Nat
  hi : Nat
  exclusive : Bool
  deriving DecidableEq, Repr

end Sys2Proof.Machine
end

