-- ==== Sys2Proof/Machine/State.lean ====
section
/-! DEFINITION. The state of the drive, the ways a step can stop, and the state after reset. -/
namespace Sys2Proof.Machine

/-- Everything the drive holds, host memory as the drive reaches it, and the queue of commands that wait, first in,
first out. The defaults of the nested structures are the values after reset; State.reset is all of them. -/
structure State where
  /-- the grade (R3); from the identity row once it is read (R492) -/
  grade : Grade := .f
  /-- built service units, by kind and then physical number (Table 1-9) -/
  units : List SvcUnit
  /-- built and in-service counts of the fuse map: clusters built, clusters given logical numbers (R489, R492) -/
  clustersBuilt : Nat := 68
  clustersLogical : Nat := 64
  clk : Clock := {}
  atr : Atrium := {}
  locks : List Lock := []
  sched : Sched := {}
  tiers : Tiers := {}
  search : Search := {}
  gather : GatherEngine := {}
  attention : Attention := {}
  domains : List Domain := List.replicate 4 {}
  flash : Flash := {}
  ftl : Ftl := {}
  block : BlockRange := {}
  link : LinkBlock := {}
  beacon : Beacon := {}
  power : Power := {}
  sec : Security := {}
  test : TestBlock := {}
  err : ErrState := {}
  docent : DocentState := {}
  /-- host memory as the drive reads and writes it (assumption log 3: DESIGN CHOICE, unsafe) -/
  hostMem : Mem := []
  /-- counter the free values of Config are applied to; the model's own field (assumption log 2: DESIGN CHOICE, safe) -/
  free : Nat := 0
  /-- commands waiting, first in, first out -/
  pending : List Instr := []
  deriving DecidableEq, Repr

/-- The ways the drive stops with a fault: none. Every command of this block has a next state (assumption log 1: DESIGN CHOICE, unsafe). -/
inductive Fault where
  deriving DecidableEq, Repr

/-- The ways the model refuses a command. -/
inductive Refusal where
  /-- Raised by the dispatcher for a row with no meaning yet, naming its mnemonic; safe, since nothing is claimed of a
  step that does not happen. -/
  | notModelled (mnemonic : String)
  deriving DecidableEq, Repr

/-- The physical clusters the default fuse map names as spares: the last of each column (R107, assumption log 4: DESIGN CHOICE, unsafe). -/
def State.spareClusters : List Nat := [16, 33, 50, 67]

/-- The docent cores the default fuse map names as spares (assumption log 4: DESIGN CHOICE, unsafe). -/
def State.spareDocents : List Nat := [12, 13]

/-- Units `phys` of a kind with `spares` left out of the logical numbering, which runs without gaps (R11). -/
def State.fuseUnits (kind : UnitKind) (spares : List Nat) : List Nat → Nat → List SvcUnit
  | [], _ => []
  | p :: ps, l =>
    if spares.contains p then
      SvcUnit.mk kind p .inService none true 0 none false :: State.fuseUnits kind spares ps l
    else
      SvcUnit.mk kind p .inService
        (if kind = .cluster ∨ kind = .docent then some l else none) false 0 none false ::
        State.fuseUnits kind spares ps (l + 1)

/-- The service units of the F grade under the default fuse map, by kind and then physical number (Table 1-9). -/
def State.fuseUnitsF : List SvcUnit :=
  State.fuseUnits .cluster State.spareClusters (List.range 68) 0
    ++ State.fuseUnits .docent State.spareDocents (List.range 14) 0
    ++ State.fuseUnits .engine [] (List.range 64) 0
    ++ State.fuseUnits .dram [] (List.range 12) 0
    ++ State.fuseUnits .port [] (List.range 2) 0
    ++ State.fuseUnits .reduction [] (List.range 1) 0

/-- The drive right after reset: power good, power state STARTING, phase FUSE (R436, R487, R534), every register at the
value of the Reset columns of spec/22, every list empty, no command waiting. -/
def State.reset : State := { units := State.fuseUnitsF }

end Sys2Proof.Machine
end

