-- ==== Sys2Proof/Machine/Send.lean ====
section
/-! DEFINITION. Sending packets to the host and to other drives: home ports, credit, the replay buffer (R400 to R409). -/
namespace Sys2Proof.Machine

/-- The service unit of a kind and physical number. -/
def State.unit? (s : State) (k : UnitKind) (p : Nat) : Option SvcUnit :=
  s.units.find? fun u => u.kind = k ∧ u.phys = p

/-- The unit is in the service state. -/
def State.unitIs (s : State) (k : UnitKind) (p : Nat) (st : SvcState) : Bool :=
  match s.unit? k p with
  | some u => u.state = st
  | none => false

/-- A port of the list; a port that trains no more where the number names none. -/
def State.port (s : State) (p : Nat) : Port := s.link.ports.getD p {}

/-- Change one port. -/
def State.updPort (p : Nat) (f : Port → Port) (s : State) : State :=
  { s with link := { s.link with ports := updAt p f s.link.ports } }

/-- The port carries traffic: it is IN_SERVICE and UP, or RETRAINING with its DATA flits waiting (R397, R407). -/
def State.portUsable (s : State) (p : Nat) : Bool :=
  s.unitIs .port p .inService && ((s.port p).link = .up || (s.port p).link = .retraining)

/-- The port accepts register accesses: it is UP and IN_SERVICE (R407). -/
def State.portAccepts (s : State) (p : Nat) : Bool :=
  s.unitIs .port p .inService && (s.port p).link = .up

/-- The home port of a completion ring (R407): the port it is held on, else c mod 2 while both ports are usable, else
the usable port. -/
def State.homePort (s : State) (ring : Nat) : Option Nat :=
  if s.portUsable 0 && s.portUsable 1 then
    match s.link.homes.find? (·.1 = ring) with
    | some h => some h.2
    | none => some (ring % 2)
  else if s.portUsable 0 then some 0
  else if s.portUsable 1 then some 1
  else none

/-- DATA flits a packet of so many slots fills (Table 15-3: seven slots a flit). -/
def flitsOf (slots : Nat) : Nat := ceilDiv slots 7

/-- The port can send the packet now: credit for all its slots, VC2 having unlimited credit (R403, R404), and room for its
flits among the 512 of the replay buffer (R405). -/
def Port.canSend (p : Port) (k : TxPkt) : Bool :=
  (p.link = .up || p.link = .retraining) && (k.vc = 2 || k.slots ≤ p.credits.getD k.vc 0)
    && p.replay.length + flitsOf k.slots ≤ 512

/-- The flits of one packet from FSEQ `q` (assumption log 31: DESIGN CHOICE, unsafe). -/
def packetFlits (k : TxPkt) (q : Nat) : Nat → List TxFlit
  | 0 => []
  | n + 1 => { fseq := q % 65536, pkt := k, part := flitsOf k.slots - (n + 1), final := n = 0 } :: packetFlits k (q + 1) n

/-- A reduction packet as its payload slots (Table 11-5). -/
def redBytes (k : RedPacket) : Bytes :=
  leBytes 2 k.tag ++ leBytes 1 k.kind ++ leBytes 1 (bit01 k.overflow + 2 * bit01 k.pass2) ++ leBytes 2 k.sender
    ++ leBytes 2 k.pktIndex ++ leBytes 2 k.pktCount ++ leBytes 2 k.entries.length ++ leBytes 4 k.round ++ leBytes 4 k.chunk
    ++ leBytes 2 (k.exp % 65536).toNat ++ leBytes 1 k.margin ++ zeroBytes 1 ++ leBytes 4 k.k ++ leBytes 4 k.chunkCount
    ++ k.entries.flatMap fun e => leBytes 2 e.1 ++ zeroBytes 2 ++ leBytes 4 (e.2 % 4294967296).toNat

/-- The header of a packet that the node sends (Table 15-4): a CPL is the last for its tag, and OFFSET is zero (R402). -/
def TxPkt.header (k : TxPkt) (node : Nat) : Bytes :=
  leBytes 1 k.cls ++ leBytes 1 (bit01 (k.cls = 5)) ++ leBytes 2 (k.slots - 1) ++ leBytes 4 k.dst ++ leBytes 4 node
    ++ leBytes 2 k.tag ++ leBytes 1 k.cstatus ++ zeroBytes 1 ++ leBytes 8 k.addr ++ leBytes 4 k.len ++ zeroBytes 4

/-- A packet as it travels: its header and its payload slots (R399). -/
def TxPkt.bytes (k : TxPkt) (node : Nat) : Bytes :=
  k.header node ++ fitBytes (32 * (k.slots - 1)) (match k.red with | some r => redBytes r | none => k.data)

/-- Receive credit the drive advertises for each virtual channel; VC2 is unlimited, advertised as 0 (Table 15-6). -/
def rxAdvert : List Nat := [4096, 1024, 0, 2048, 2048, 2048, 2048]

/-- Slots of a reduction packet: its header, and its payload (Table 11-5). -/
def redSlots (k : RedPacket) : Nat := 2 + ceilDiv k.entries.length 4

/-- Credit that the partner has of the drive: slots are credited as soon as their packet is taken, and those of a packet that is held
are withheld (R308, R404). -/
def Port.rxCredit (p : Port) (vc : Nat) : Nat :=
  rxAdvert.getD vc 0 - ((p.held.filter (·.1 = vc)).map (fun h => redSlots h.2)).foldl (· + ·) 0

/-- A DATA flit of the replay buffer as it leaves (Table 15-3). Its credit fields name no channel (assumption log 31: DESIGN CHOICE,
unsafe). -/
def Port.flitBytes (p : Port) (node : Nat) (f : TxFlit) : Bytes :=
  let b := leBytes 2 f.fseq ++ leBytes 2 p.rxSeq ++ zeroBytes 1 ++ leBytes 1 (bit01 p.nak) ++ leBytes 2 7 ++ leBytes 2 7
    ++ zeroBytes 6 ++ fitBytes 224 ((f.pkt.bytes node).drop (224 * f.part)) ++ zeroBytes 8
  b ++ leBytes 8 (Config.crc64 b).toNat

/-- Send a packet: its credit is taken and its flits stay in the replay buffer until acknowledged (R404, R405). -/
def Port.emit (p : Port) (k : TxPkt) : Port :=
  { p with
    credits := updAt k.vc (· - k.slots) p.credits
    red := if k.red.isSome then p.red ++ [(k.vc, k.slots)] else p.red
    replay := p.replay ++ packetFlits k p.nextFseq (flitsOf k.slots)
    nextFseq := (p.nextFseq + flitsOf k.slots) % 65536 }

/-- Send every waiting packet that can go, keeping the order within each virtual channel (R400). -/
def Port.pumpList : List TxPkt → List Nat → Port → List TxPkt → Port
  | [], _, p, kept => { p with wait := kept.reverse }
  | k :: ks, blocked, p, kept =>
    if blocked.contains k.vc = false && p.canSend k then Port.pumpList ks blocked (p.emit k) kept
    else Port.pumpList ks (k.vc :: blocked) p (k :: kept)

/-- Send what the port's credit and replay buffer allow. -/
def Port.pump (p : Port) : Port := Port.pumpList p.wait [] p []

/-- Credit of `n` slots on a virtual channel accepts the oldest packets sent on it (R308). -/
def acceptRed (vc : Nat) : Nat → List (Nat × Nat) → List (Nat × Nat)
  | _, [] => []
  | n, e :: es =>
    if e.1 ≠ vc then e :: acceptRed vc n es
    else if n < e.2 then (vc, e.2 - n) :: es
    else acceptRed vc (n - e.2) es

/-- Reduction packets of a channel that wait on the ports for credit or replay room. -/
def State.redWaiting (s : State) (vc : Nat) : Nat := (s.link.ports.map fun p => (p.wait.filter (·.vc = vc)).length).foldl (· + ·) 0

/-- Reduction packets of a channel that were handed to the ports and are not accepted yet (R308). -/
def State.redOut (s : State) (vc : Nat) : Nat :=
  (s.link.ports.map fun p => (p.red.filter (·.1 = vc)).length).foldl (· + ·) 0 + s.redWaiting vc

/-- Rounds whose waiting packets have left have sent (R310). -/
def State.renewRounds (before s : State) : State :=
  { s with domains := s.domains.mapIdx fun d m =>
      if s.redWaiting (3 + d) < before.redWaiting (3 + d) then
        { m with round := m.round.map fun r => { r with lastPacket := s.clk.cycle / 600 } }
      else m }

/-- Note since when a packet of VC0 to VC2 has waited without credit returning (R485). -/
def Port.noteStarve (now : Nat) (p : Port) : Port :=
  { p with starvedSince :=
      if p.wait.any fun k => k.vc ≤ 2 then (match p.starvedSince with | some t => some t | none => some now) else none }

/-- Hand a packet to a port. -/
def State.send (p : Nat) (k : TxPkt) (s : State) : State :=
  s.updPort p fun q => ({ q with wait := q.wait ++ [k] }.pump).noteStarve (s.clk.cycle / 600)

/-- Hand a reduction packet to the port with more free credit on its channel, the lower number among equals; with no port in service it
waits (R406, R409). A packet that leaves at once is a packet its round has sent (R310). -/
def State.sendRedNow (k : TxPkt) (s : State) : State :=
  let free := fun p => (s.port p).credits.getD k.vc 0
  let p := if !s.portUsable 1 then 0 else if !s.portUsable 0 then 1 else if free 0 < free 1 then 1 else 0
  let t := s.send p k
  if t.redWaiting k.vc ≤ s.redWaiting k.vc then
    { t with domains := updAt (k.vc - 3) (fun m : Domain =>
        { m with round := m.round.map fun r => { r with lastPacket := s.clk.cycle / 600 } }) t.domains }
  else t

/-- Packets that waited at the bound of their domain slot are handed on while it holds fewer than 512, in order (R308). -/
def State.pumpRed (s : State) : State :=
  s.link.redWait.foldl (fun t k =>
    if t.redOut k.vc < 512 && !(t.link.redWait.any (·.vc = k.vc)) then t.sendRedNow k
    else { t with link := { t.link with redWait := t.link.redWait ++ [k] } })
    { s with link := { s.link with redWait := [] } }

/-- The packets of a host write, at most 4,096 payload bytes each (R399). -/
def writePackets (ring dst addr : Nat) : Nat → Bytes → List TxPkt
  | 0, _ => []
  | fuel + 1, bs =>
    if bs.isEmpty then []
    else
      let p := bs.take 4096
      { cls := 0, vc := 0, dst := dst, addr := addr, len := p.length, slots := 1 + ceilDiv p.length 32, ring := some ring
        data := p } :: writePackets ring dst (addr + 4096) fuel (bs.drop 4096)

/-- Hand a list of packets to a port. -/
def State.sendAll (p : Nat) (ks : List TxPkt) (s : State) : State :=
  ks.foldl (fun t k => t.send p k) s

end Sys2Proof.Machine
end

