-- ==== Sys2Proof/Machine/Ops.lean ====
section
/-! DEFINITION. The operations every part of the drive shares: time, fault records, active-command slots, buffers in host
memory, ready completions, and counters. -/
namespace Sys2Proof.Machine

/-- Elapsed beacon ticks since power good: 600 ARITH cycles make one (Table 1-12, Table 0-2). -/
def State.bt (s : State) : Nat := s.clk.cycle / 600

/-- The epoch `BCN_TICK` (R415, R416). -/
def State.epoch (s : State) : Nat := s.beacon.tick + (s.bt - s.beacon.tickBt)

/-- Degraded timing is reported: the time base is ACQUIRING or DEGRADED (Table 15-8). -/
def State.timeDegraded (s : State) : Bool :=
  s.beacon.state = .acquiring || s.beacon.state = .degraded

/-- The counter the free values of Config are applied to, and the state with the counter advanced. -/
def State.takeFree (s : State) : Nat × State := (s.free, { s with free := s.free + 1 })

/-- A 32-bit counter stops at all ones (R534). -/
def sat32 (n : Nat) : Nat := Nat.min n 0xFFFFFFFF

/-- A 16-bit counter stops at all ones (R534). -/
def sat16 (n : Nat) : Nat := Nat.min n 0xFFFF

/-! ### Fault records (R461, R462) -/

/-- The detection is part of the fault the record stands for (R461). -/
def FaultRec.sameFault (r q : FaultRec) : Bool :=
  r.cls = q.cls && r.unitKind = q.unitKind && r.unit = q.unit && r.objectId = q.objectId
    && r.version = q.version && r.location = q.location

/-- One more detection merged into a record (R461). A later detection that closes a unit gives the record its
response and closure number (R470, assumption log 10: DESIGN CHOICE, unsafe). -/
def FaultRec.merge (r q : FaultRec) (now : Nat) : FaultRec :=
  { q with
    count := sat16 (q.count + 1)
    lastBt := now
    response := if r.response = 2 then 2 else q.response
    closure := if r.closure = 0 then q.closure else r.closure
    dataLost := q.dataLost || r.dataLost }

/-- The list without its first read record. -/
def dropOldestRead : List FaultRec → List FaultRec
  | [] => []
  | q :: qs => if q.isRead then qs else q :: dropOldestRead qs

/-- Log a new record, making room in a full log under R462. -/
def ErrState.append (e : ErrState) (r : FaultRec) : ErrState :=
  if e.log.length < 4096 then { e with log := e.log ++ [r], nextSeq := e.nextSeq + 1 }
  else if e.log.any (·.isRead) then { e with log := dropOldestRead e.log ++ [r], nextSeq := e.nextSeq + 1 }
  else { e with log := e.log.drop 1 ++ [r], nextSeq := e.nextSeq + 1, lost := sat32 (e.lost + 1) }

/-- Raise a fault: one record, or one more detection of a record raised within the last 1,000,000 BT (R461). -/
def State.raise (r : FaultRec) (s : State) : State :=
  let old := fun q : FaultRec => r.sameFault q && s.bt ≤ q.firstBt + 1000000
  if s.err.log.any old then
    { s with err := { s.err with log := updWhere old (fun q => r.merge q s.bt) s.err.log } }
  else
    let q : FaultRec :=
      { r with seq := s.err.nextSeq, tick := s.epoch, firstBt := s.bt, lastBt := s.bt, isRead := false }
    { s with err := s.err.append q }

/-- A fault record with the given class (Table 17-4) and response (Table 17-2) and nothing else said. -/
def faultOf (cls response : Nat) : FaultRec := { seq := 0, cls := cls, response := response }

/-- A fault record naming a service unit. -/
def faultUnit (cls response : Nat) (k : UnitKind) (phys closure : Nat) : FaultRec :=
  { seq := 0, cls := cls, response := response, unitKind := k.code, unit := phys, closure := closure }

/-- Unread records; ATTN_N is low while there is one (R462). -/
def State.unread (s : State) : Nat := (s.err.log.filter fun q => !q.isRead).length

/-! ### Active-command slots -/

/-- The active-command slot of a number. -/
def State.slot? (s : State) (id : Nat) : Option Slot := s.atr.slots.find? (·.id = id)

/-- Change one active-command slot. -/
def State.updSlot (id : Nat) (f : Slot → Slot) (s : State) : State :=
  { s with atr := { s.atr with slots := updWhere (fun c => c.id = id) f s.atr.slots } }

/-- OPCODE of an entry (Table 2-3). -/
def Slot.opcode (c : Slot) : Nat := field c.entry 0 1

/-- HFLAGS of an entry. -/
def Slot.hflags (c : Slot) : Nat := field c.entry 1 1

/-- CLIENT of an entry. -/
def Slot.client (c : Slot) : Nat := field c.entry 8 2

/-- An argument field of an entry. -/
def Slot.arg (c : Slot) (off n : Nat) : Nat := field c.entry off n

/-- DATA_LEN. -/
def Slot.dataLen (c : Slot) : Nat := field c.entry 24 4

/-- RESULT_LEN. -/
def Slot.resultLen (c : Slot) : Nat := field c.entry 28 4

/-- The submission ring of a number. -/
def State.sq (s : State) (n : Nat) : Sq := s.atr.sqs.getD n {}

/-- The completion ring of a number. -/
def State.cq (s : State) (n : Nat) : Cq := s.atr.cqs.getD n {}

/-- Change one submission ring. -/
def State.updSq (n : Nat) (f : Sq → Sq) (s : State) : State :=
  { s with atr := { s.atr with sqs := updAt n f s.atr.sqs } }

/-- Change one completion ring. -/
def State.updCq (n : Nat) (f : Cq → Cq) (s : State) : State :=
  { s with atr := { s.atr with cqs := updAt n f s.atr.cqs } }

/-- Count in `ATR_ERR_CNT` at an index (Table 22-3). -/
def State.countErr (i : Nat) (s : State) : State :=
  { s with atr := { s.atr with errCnt := updAt i (fun n => sat32 (n + 1)) s.atr.errCnt } }

/-- The completion ring a submission ring is bound to. -/
def State.ringOf (s : State) (sq : Nat) : Nat := (s.sq sq).cq

/-- Put a completion at the end of its ring's ready list (R69). -/
def State.ready (k : Completion) (s : State) : State :=
  s.updCq (s.ringOf k.sq) fun c => { c with ready := c.ready ++ [k] }

/-- The command in a slot ends: its completion is ready, and the slot stays taken until it is posted (R65, R69). Of an
error status the INFO bits are kept as given (R67). -/
def State.finish (id : Nat) (st : Status) (result info : Nat) (s : State) : State :=
  match s.slot? id with
  | none => s
  | some c =>
    if c.phase = .done then s
    else
      (s.updSlot id fun c => { c with phase := .done, work := .none, reads := [], toRead := [] }).ready
        { tag := field c.entry 2 2, status := st, cflags := info
          seq := BitVec.ofNat 32 (field c.entry 4 4), sq := c.sq, result := result
          notify := !bitAt c.hflags 4, slot := some id, order := c.order }

/-- The status of a command that ended without error (R67): SHORT_RESULT, then RE_REDUCED, then WIDER_RERUN, then OK. -/
def okStatus (short rereduced rerun : Bool) : Status :=
  if short then .shortResult else if rereduced then .reReduced else if rerun then .widerRerun else .ok

/-- The INFO bits of Table 2-10. -/
def infoBits (short rereduced rerun : Bool) : Nat :=
  (if short then 4 else 0) + (if rerun then 8 else 0) + (if rereduced then 16 else 0)

/-! ### Waits of jobs (R163, R178) -/

/-- A 64-bit counter stops at all ones. -/
def sat64 (n : Nat) : Nat := Nat.min n 0xFFFFFFFFFFFFFFFF

/-- A wait of a job is over, and counts for its client (R178). -/
def State.endWait (j : Job) (s : State) : State :=
  let wait := s.bt - j.waitSince
  { s with sched := { s.sched with clients := updAt j.client (fun c =>
      { c with waitBt := sat64 (c.waitBt + wait), maxWaitBt := sat32 (Nat.max c.maxWaitBt wait) }) s.sched.clients } }

/-- A JOB_RUN that completes before it has executed takes its job with it, whose wait is over (R163; assumption log 142). -/
def State.dropUnready (slot : Nat) (s : State) : State :=
  match s.sched.jobs.find? fun j => j.slot = slot && !j.ready with
  | none => s
  | some j =>
    let t := s.endWait j
    { t with sched := { t.sched with jobs := t.sched.jobs.filter (·.id ≠ j.id) } }

/-! ### Host buffers -/

/-- Some port can carry the traffic of the ring (R409). -/
def State.reachable (s : State) (ring : Nat) : Bool := (s.homePort ring).isSome

/-- Write bytes to host memory for a ring: the bytes become visible, and their MWR packets go through the ring's home
port (R401, R407; assumption log 30: DESIGN CHOICE, unsafe). While no port can carry them they wait in the drive (R21, R409). -/
def State.hostWrite (ring addr : Nat) (bs : Bytes) (s : State) : State :=
  match s.homePort ring with
  | none => { s with atr := { s.atr with parked := s.atr.parked ++ [(ring, addr, bs)] } }
  | some p =>
    ({ s with hostMem := memWrite s.hostMem addr bs } : State).sendAll p
      (writePackets ring (s.port p).hostNode addr (bs.length / 4096 + 1) bs)

/-- The results of a ring that waited for a port are written, in order, before its next completion (R21). -/
def State.unpark (ring : Nat) (s : State) : State :=
  (s.atr.parked.filter (·.1 = ring)).foldl (fun t w => t.hostWrite w.1 w.2.1 w.2.2)
    { s with atr := { s.atr with parked := s.atr.parked.filter (·.1 ≠ ring) } }

/-- The pieces of a write at an offset of a buffer given as segments (R57). -/
def segPieces : List Seg → Nat → Bytes → List (Nat × Bytes)
  | [], _, _ => []
  | g :: gs, off, bs =>
    if bs = [] then []
    else if g.len ≤ off then segPieces gs (off - g.len) bs
    else (g.addr + off, bs.take (g.len - off)) :: segPieces gs 0 (bs.drop (g.len - off))

/-- Write bytes at an offset of a command's result buffer, never beyond RESULT_LEN (R58). -/
def State.writeResult (c : Slot) (off : Nat) (bs : Bytes) (s : State) : State :=
  (segPieces c.result off (bs.take (c.resultLen - off))).foldl
    (fun t p => t.hostWrite (t.ringOf c.sq) p.1 p.2) s

/-- The bytes of a command's data buffer. -/
def State.dataBytes (s : State) (c : Slot) : Bytes :=
  c.data.flatMap fun g => memRead s.hostMem g.addr g.len

/-! ### Channel halts -/

/-- A DMA channel of the owner is halted (R453). -/
def State.haltedBy (s : State) (o : DmaOwner) : Bool := s.err.halts.any fun h => h.1 = o

/-- The drive does no work of its own: it is off, the dusk flush has stopped everything else, or both lane groups of an interface
are faulted (R433, R436, R447). -/
def State.still (s : State) : Bool := s.power.state = .off || s.power.flush = .running || s.err.stopped

/-! ### Time since -/

/-- `n` BT have passed since `t`. -/
def State.elapsed (s : State) (t n : Nat) : Bool := t + n ≤ s.bt

/-- Units of a kind that are IN_SERVICE, spares among them. -/
def State.inService (s : State) (k : UnitKind) : List SvcUnit :=
  s.units.filter fun u => u.kind = k ∧ u.state = .inService

end Sys2Proof.Machine
end

