-- ==== Sys2Proof/Machine/Operands.lean ====
section
/-! DEFINITION. Thread registers and predicates, instruction words, and immediates (R131, R136, R137). -/
namespace Sys2Proof.Machine

/-! ### Registers and predicates (R131) -/

/-- A scalar register; s0 reads as 0. -/
def Thread.reg (t : Thread) (i : BitVec 6) : Word := if i = 0 then 0 else t.regs.getD i.toNat 0

/-- Write a scalar register; a write to s0 is discarded. -/
def Thread.setReg (t : Thread) (i : BitVec 6) (v : Word) : Thread :=
  if i = 0 then t else { t with regs := t.regs.set i.toNat v }

/-- A predicate; p0 reads as true. -/
def Thread.pred (t : Thread) (i : BitVec 3) : Bool := i = 0 || t.preds.getLsbD i.toNat

/-- The predicates as bits, p0 true. -/
def Thread.predBits (t : Thread) : BitVec 8 := t.preds ||| 1

/-- Write a predicate; a write to p0 is discarded. -/
def Thread.setPred (t : Thread) (i : BitVec 3) (v : Bool) : Thread :=
  let m : BitVec 8 := 1#8 <<< i.toNat
  if i = 0 then t else { t with preds := if v then t.preds ||| m else t.preds &&& ~~~m }

/-- The predicate a register field names: bits [2:0] (R137). -/
def predOf (f : BitVec 6) : BitVec 3 := f.setWidth 3

/-- p[GP] XOR GN (R136). -/
def Thread.guard (t : Thread) (gp : BitVec 3) (gn : BitVec 1) : Bool := t.pred gp != (gn == 1)

/-! ### Instruction words (Table 5-2, Table 5-3) -/

/-- The word of an R-format instruction. -/
def rWord (major fn : Nat) (f : RForm) : Nat :=
  major * 2 ^ 26 + f.rd.toNat * 2 ^ 20 + f.rs1.toNat * 2 ^ 14 + f.rs2.toNat * 2 ^ 8 + f.gp.toNat * 32 + f.gn.toNat * 16 + fn

/-- The word of an S-format instruction. -/
def sWord (major fn : Nat) (f : SForm) : Nat :=
  major * 2 ^ 26 + f.ra.toNat * 2 ^ 20 + f.rb.toNat * 2 ^ 14 + f.rc.toNat * 2 ^ 8 + f.gp.toNat * 32 + f.gn.toNat * 16 + fn

/-- The word of an I-format instruction. -/
def iWord (major : Nat) (f : IForm) : Nat :=
  major * 2 ^ 26 + f.rd.toNat * 2 ^ 20 + f.rs1.toNat * 2 ^ 14 + f.imm.toNat

/-- The word of a U-format instruction. -/
def uWord (major : Nat) (f : UForm) : Nat := major * 2 ^ 26 + f.rd.toNat * 2 ^ 20 + f.imm.toNat

/-- The word of BR. -/
def bWord (f : BForm) : Nat := 0x20 * 2 ^ 26 + f.p.toNat * 2 ^ 23 + f.n.toNat * 2 ^ 22 + f.off.toNat

/-- The word of PAUSE. -/
def pWord (index : BitVec 16) : Nat := 0x2B * 2 ^ 26 + index.toNat * 2 ^ 10

/-! ### Which words are defined (R136, R137, check 6 of Table 5-11) -/

/-- How an instruction uses a register field: a scalar register, a predicate named by bits [2:0], or not at all. -/
inductive FieldUse where
  | scalar | predicate | reserved
  deriving DecidableEq, Repr

/-- A field meets its use: bits above a predicate's number and unused fields are zero. -/
def FieldUse.ok (u : FieldUse) (v : Nat) : Bool :=
  match u with
  | .scalar => true
  | .predicate => v < 8
  | .reserved => v = 0

/-- The uses of RD or RA, RS1 or RB, and RS2 or RC of a defined R- or S-format instruction (Table 5-3, Table 5-5). -/
def fieldUses (major fn : Nat) : Option (FieldUse × FieldUse × FieldUse) :=
  let s := FieldUse.scalar
  let p := FieldUse.predicate
  let r := FieldUse.reserved
  match major, fn with
  | 0x01, _ => if fn < 16 then some (s, s, s) else none
  | 0x08, _ => if fn < 6 then some (s, s, s) else if fn < 14 then some (s, s, r) else none
  | 0x09, _ => if fn < 5 then some (s, s, s) else if fn < 7 then some (s, s, r) else none
  | 0x0A, _ => if fn < 9 then some (p, s, s) else none
  | 0x0B, 3 => some (p, p, r)
  | 0x0B, 4 => some (s, r, r)
  | 0x0B, 5 => some (r, s, r)
  | 0x0B, _ => if fn < 3 then some (p, p, p) else none
  | 0x22, 0 => some (r, s, r)
  | 0x22, 1 => some (r, r, r)
  | 0x28, _ => if fn < 3 then some (s, r, r) else none
  | 0x29, 0 => some (s, s, r)
  | 0x29, 1 => some (s, s, s)
  | 0x29, 2 => some (s, s, r)
  | 0x29, 3 => some (s, r, r)
  | 0x2A, 3 => some (s, r, s)
  | 0x2A, _ => if fn < 3 then some (s, s, r) else none
  | 0x2C, 4 => some (r, s, r)
  | 0x2C, 6 => some (s, s, r)
  | 0x2C, _ => if fn < 6 then some (s, r, r) else none
  | _, _ => none

/-- The word is a defined encoding with its reserved fields zero, and RD a multiple of 4 for LDQ and STQ. -/
def wordOk (w : Nat) : Bool :=
  let major := bitsAt w 26 6
  let rd := bitsAt w 20 6
  let imm := bitsAt w 0 14
  match major with
  | 0x02 | 0x03 | 0x04 | 0x05 => true
  | 0x06 => bitsAt imm 12 2 ≠ 3 && bitsAt imm 5 7 = 0
  | 0x07 | 0x20 | 0x21 => true
  | 0x10 | 0x11 | 0x12 | 0x14 | 0x15 | 0x16 => true
  | 0x13 | 0x17 => rd % 4 = 0
  | 0x2B => bitsAt w 0 10 = 0
  | _ =>
    match fieldUses major (bitsAt w 0 4) with
    | some u => u.1.ok rd && u.2.1.ok (bitsAt w 14 6) && u.2.2.ok (bitsAt w 8 6)
    | none => false

end Sys2Proof.Machine
end

