-- ==== Sys2Proof/Machine/Flags.lean ====
section
/-! DEFINITION. Thread arithmetic: integer operations, and the FP32 and packed BF16 operations with the sticky flags
NAN_SEEN and ACC_SAT that they set (R135, R137). -/
namespace Sys2Proof.Machine

/-- A result with the sticky flags it sets. -/
structure Flagged where
  val : Word
  nan : Bool := false
  sat : Bool := false
  deriving DecidableEq, Repr

/-! ### Integer operations (MAJOR 0x01, Table 5-3) -/

/-- 1 or 0 as a word. -/
def wordBit (b : Bool) : Word := if b then 1 else 0

/-- The sixteen operations of MAJOR 0x01 by FN. -/
def intOp (fn : Nat) (x y : Word) : Word :=
  match fn with
  | 0 => x + y
  | 1 => x - y
  | 2 => x &&& y
  | 3 => x ||| y
  | 4 => x ^^^ y
  | 5 => x <<< (y.toNat % 32)
  | 6 => x >>> (y.toNat % 32)
  | 7 => x.sshiftRight (y.toNat % 32)
  | 8 => wordBit (x.slt y)
  | 9 => wordBit (x.ult y)
  | 10 => if x.slt y then x else y
  | 11 => if x.slt y then y else x
  | 12 => if x.ult y then x else y
  | 13 => if x.ult y then y else x
  | 14 => x * y
  | _ => BitVec.ofNat 32 (x.toNat * y.toNat / 2 ^ 32)

/-- SHI: IMM14[13:12] selects SLL, SRL or SRA, IMM14[4:0] is the amount. -/
def shiOp (x : Word) (imm : BitVec 14) : Word :=
  let n := imm.toNat % 32
  match imm.toNat / 4096 with
  | 0 => x <<< n
  | 1 => x >>> n
  | _ => x.sshiftRight n

/-! ### FP32 operations (MAJOR 0x08) -/

/-- An FP32 source, and whether it is NaN, which reads as zero (R135). -/
def srcF32 (w : Word) : Frac × Bool := (f32 w.toNat, isNanF32 w.toNat)

/-- Round a value once to FP32 (R92, R135). -/
def outF32 (v : Frac) (nan : Bool) : Flagged :=
  let r := roundF32 v
  { val := BitVec.ofNat 32 r.1, nan := nan, sat := r.2 }

/-- An operation on two sources. -/
def f32Op2 (op : Frac → Frac → Frac) (x y : Word) : Flagged :=
  outF32 (op (srcF32 x).1 (srcF32 y).1) ((srcF32 x).2 || (srcF32 y).2)

/-- An operation on one source. -/
def f32Op1 (op : Frac → Frac) (x : Word) : Flagged := outF32 (op (srcF32 x).1) (srcF32 x).2

/-- The larger of two values. -/
def Frac.max (a b : Frac) : Frac := if a.lt b then b else a

/-- The smaller of two values. -/
def Frac.min (a b : Frac) : Frac := if b.lt a then b else a

/-- FMA: rd + rs1 × rs2 with one rounding. -/
def fmaOp (old x y : Word) : Flagged :=
  outF32 ((srcF32 old).1.add ((srcF32 x).1.mul (srcF32 y).1)) ((srcF32 old).2 || (srcF32 x).2 || (srcF32 y).2)

/-- FCVT.S.W: the signed integer, rounded. -/
def cvtSW (x : Word) : Flagged := outF32 (Frac.ofInt x.toInt) false

/-- FCVT.W.S: nearest, ties to even, saturating to the INT32 range. -/
def cvtWS (x : Word) : Flagged :=
  let i := (srcF32 x).1.roundEven
  let i := if 2147483647 < i then 2147483647 else if i < -2147483648 then -2147483648 else i
  { val := BitVec.ofInt 32 i, nan := (srcF32 x).2 }

/-- The largest finite FP32 value with a sign, saturating (R135). -/
def maxF32 (neg nan : Bool) : Flagged := { val := if neg then 0xFF7FFFFF else 0x7F7FFFFF, nan := nan, sat := true }

/-- A result within two units in the last place of a value: the value rounded, and moved by a free amount of at most two
units, the same on every drive; a value beyond the largest finite one is that value (R135; assumption log 33: DEDUCED, safe). -/
def nearF32 (fn : Nat) (x : Word) (v : Frac) (nan : Bool) : Flagged :=
  let r := roundF32 v
  if r.2 then maxF32 (v.num < 0) nan else
  let m : Int := r.1 % 2 ^ 31
  let o := Config.ulpOffset fn x.toNat
  let o := if o < -2 then -2 else if 2 < o then 2 else o
  let c := m + o
  let c : Nat := if c < 0 then 0 else if 0x7F7FFFFF < c then 0x7F7FFFFF else c.toNat
  { val := BitVec.ofNat 32 (withSign 32 (v.num < 0) c), nan := nan, sat := r.2 }

/-- 2 to the power 2^-i as a fixed-point number with 96 fraction bits, by repeated square roots. -/
def rootsOfTwo : Nat → Nat → List Nat
  | 0, _ => []
  | k + 1, c =>
    let r := Nat.sqrt (c * 2 ^ 96)
    r :: rootsOfTwo k r

/-- The product of the roots whose bit is set in a fraction of 64 bits, the highest bit first. -/
def rootProduct : List Nat → Nat → Nat → Nat
  | [], _, acc => acc
  | c :: cs, f, acc =>
    rootProduct cs (f * 2 % 2 ^ 64) (if 2 ^ 63 ≤ f % 2 ^ 64 then acc * c / 2 ^ 96 else acc)

/-- 2 to a value, to more than 60 bits; a value beyond the range of FP32 counts as its bound. -/
def exp2Near (v : Frac) : Frac :=
  let v := (v.max (Frac.ofInt (-200))).min (Frac.ofInt 200)
  let n := v.floor
  let f := ((v.sub (Frac.ofInt n)).mul (Frac.pow2 64)).floor.toNat
  (Frac.pow2 n).mul { num := rootProduct (rootsOfTwo 64 (2 * 2 ^ 96)) f (2 ^ 96), den := 2 ^ 96 }

/-- Fraction bits of a base-2 logarithm of a fixed-point number from 1 to 2 with 128 fraction bits, by repeated squaring. -/
def logBits : Nat → Nat → Nat → Nat
  | 0, _, acc => acc
  | k + 1, m, acc =>
    let q := m * m / 2 ^ 128
    if 2 * 2 ^ 128 ≤ q then logBits k (q / 2) (2 * acc + 1) else logBits k q (2 * acc)

/-- The base-2 logarithm of a positive value, to 96 fraction bits. -/
def log2Near (v : Frac) : Frac :=
  let e := v.log2
  let m := ((v.mul (Frac.pow2 (-e))).mul (Frac.pow2 128)).floor.toNat
  (Frac.ofInt e).add { num := logBits 96 m 0, den := 2 ^ 96 }

/-- The reciprocal square root of a positive value, to more than 60 bits. -/
def rsqNear (v : Frac) : Frac :=
  let k := v.log2 / 2
  let q := (Frac.ofInt 1).div (v.mul (Frac.pow2 (-(2 * k))))
  (Frac.pow2 (-k)).mul { num := Nat.sqrt ((q.mul (Frac.pow2 192)).floor.toNat), den := 2 ^ 96 }

/-- FEXP2. Of zero it is exactly 1, as the probabilities of R264 and the merge of R265 need (assumption log 33: DEDUCED, safe). -/
def exp2Op (x : Word) : Flagged :=
  if (srcF32 x).1.isZero then { val := 0x3F800000, nan := (srcF32 x).2 }
  else nearF32 10 x (exp2Near (srcF32 x).1) (srcF32 x).2

/-- FLOG2: zero gives the largest finite value of negative sign, a negative input zero with NAN_SEEN (R135). -/
def log2Op (x : Word) : Flagged :=
  let v := (srcF32 x).1
  if v.isZero then maxF32 true (srcF32 x).2
  else if v.num < 0 then { val := 0, nan := true }
  else nearF32 11 x (log2Near v) (srcF32 x).2

/-- FRCP: zero gives the largest finite value (R135). -/
def rcpOp (x : Word) : Flagged :=
  let v := (srcF32 x).1
  if v.isZero then maxF32 false (srcF32 x).2 else nearF32 12 x ((Frac.ofInt 1).div v) (srcF32 x).2

/-- FRSQ: zero gives the largest finite value, a negative input zero with NAN_SEEN (R135). -/
def rsqOp (x : Word) : Flagged :=
  let v := (srcF32 x).1
  if v.isZero then maxF32 false (srcF32 x).2
  else if v.num < 0 then { val := 0, nan := true }
  else nearF32 13 x (rsqNear v) (srcF32 x).2

/-- The operations of MAJOR 0x08 by FN, with the old value of RD. -/
def fpOp (fn : Nat) (old x y : Word) : Flagged :=
  match fn with
  | 0 => f32Op2 Frac.add x y
  | 1 => f32Op2 Frac.sub x y
  | 2 => f32Op2 Frac.mul x y
  | 3 => fmaOp old x y
  | 4 => f32Op2 Frac.min x y
  | 5 => f32Op2 Frac.max x y
  | 6 => f32Op1 Frac.abs x
  | 7 => f32Op1 Frac.neg x
  | 8 => cvtSW x
  | 9 => cvtWS x
  | 10 => exp2Op x
  | 11 => log2Op x
  | 12 => rcpOp x
  | _ => rsqOp x

/-! ### Packed BF16 operations (MAJOR 0x09) -/

/-- A BF16 lane of a register: 0 low, 1 high. -/
def lane (w : Word) (i : Nat) : Nat := w.toNat / 2 ^ (16 * i) % 65536

/-- Round a value to a BF16 lane. -/
def outBf16 (v : Frac) : Nat × Bool := roundBf16 v

/-- Two rounded lanes as a register. -/
def packLanes (lo hi : Frac) (nan : Bool) : Flagged :=
  let a := outBf16 lo
  let b := outBf16 hi
  { val := BitVec.ofNat 32 (a.1 + 65536 * b.1), nan := nan, sat := a.2 || b.2 }

/-- An operation on each lane of rd, rs1 and rs2; `uses` says whether rd is a source. -/
def bfOp3 (uses : Bool) (op : Frac → Frac → Frac → Frac) (old x y : Word) : Flagged :=
  let f := fun i => op (bf16 (lane old i)) (bf16 (lane x i)) (bf16 (lane y i))
  let bad := fun w => isNanBf16 (lane w 0) || isNanBf16 (lane w 1)
  packLanes (f 0) (f 1) (bad x || bad y || (uses && bad old))

/-- Widen a lane to FP32 (BLO, BHI). -/
def widen (x : Word) (i : Nat) : Flagged := outF32 (bf16 (lane x i)) (isNanBf16 (lane x i))

/-- The operations of MAJOR 0x09 by FN, with the old value of RD. -/
def bfOp (fn : Nat) (old x y : Word) : Flagged :=
  match fn with
  | 0 => bfOp3 false (fun _ a b => a.add b) old x y
  | 1 => bfOp3 false (fun _ a b => a.mul b) old x y
  | 2 => bfOp3 true (fun o a b => o.add (a.mul b)) old x y
  | 3 => bfOp3 false (fun _ a b => a.max b) old x y
  | 4 => packLanes (srcF32 x).1 (srcF32 y).1 ((srcF32 x).2 || (srcF32 y).2)
  | 5 => widen x 0
  | _ => widen x 1

/-! ### Compares (MAJOR 0x0A) -/

/-- The comparisons of MAJOR 0x0A by FN, and whether a NaN was met. -/
def cmpOp (fn : Nat) (x y : Word) : Bool × Bool :=
  let nan := (srcF32 x).2 || (srcF32 y).2
  match fn with
  | 0 => (x == y, false)
  | 1 => (x != y, false)
  | 2 => (x.slt y, false)
  | 3 => (x.ult y, false)
  | 4 => (!x.slt y, false)
  | 5 => (!x.ult y, false)
  | 6 => (!(srcF32 x).1.lt (srcF32 y).1 && !(srcF32 y).1.lt (srcF32 x).1, nan)
  | 7 => ((srcF32 x).1.lt (srcF32 y).1, nan)
  | _ => ((srcF32 x).1.le (srcF32 y).1, nan)

/-- The operations on predicates of MAJOR 0x0B, FN 0 to 3. -/
def predOp (fn : Nat) (a b : Bool) : Bool :=
  match fn with
  | 0 => a && b
  | 1 => a || b
  | 2 => a != b
  | _ => !a

end Sys2Proof.Machine
end

