-- ==== Sys2Proof/Machine/Flash.lean ====
section
/-! DEFINITION. The flash array as its sequencers see it: the block state table, the die queues with suspends and power
tokens, and the erase journal (chapter 12). -/
namespace Sys2Proof.Machine

/-- die_index of R342. -/
def Grade.dieIndex (g : Grade) (d : Die) : Nat := d.channel * g.dies + d.die

/-- The die of a die_index. -/
def Grade.dieOf (g : Grade) (i : Nat) : Die := { channel := i / g.dies, die := i % g.dies }

/-- The die is fitted in the grade (R14). -/
def Grade.hasDie (g : Grade) (d : Die) : Bool := d.channel < 64 && d.die < g.dies

/-- Erase units per die (Table 12-1). -/
def unitsPerDie : Nat := 1848

/-- Journal pool units: units 0 to 3 of die 00 of channels 0 to 15 for copy A and 32 to 47 for copy B (R330). -/
def poolRole (d : Die) (u : Nat) : Option UnitRole :=
  if d.die = 0 ∧ u < 4 then
    (if d.channel < 16 then some .journalA
     else if 32 ≤ d.channel ∧ d.channel < 48 then some .journalB else none)
  else none

/-- The record of an erase unit the block state table does not list (assumption log 20: PRESUMED, unsafe). -/
def defaultUnit (d : Die) (u : Nat) : EraseUnit :=
  match poolRole d u with
  | some r => { die := d, unit := u, slc := true, role := r, blankOk := true }
  | none =>
    if u = 4 then { die := d, unit := u, slc := true, role := .dusk, blankOk := true }
    else if 4 < u ∧ u < 69 then { die := d, unit := u, slc := true, role := .buffer }
    else if u = 69 then { die := d, unit := u, slc := true, role := .parity }
    else { die := d, unit := u }

/-- An erase unit's record. -/
def State.eunit (s : State) (d : Die) (u : Nat) : EraseUnit :=
  (s.flash.units.find? fun e => e.die = d ∧ e.unit = u).getD (defaultUnit d u)

/-- Change an erase unit's record. -/
def State.updEunit (d : Die) (u : Nat) (f : EraseUnit → EraseUnit) (s : State) : State :=
  let us := s.flash.units
  let us' := if us.any fun e => e.die = d ∧ e.unit = u then
      updWhere (fun e => e.die = d ∧ e.unit = u) f us
    else us ++ [f (defaultUnit d u)]
  { s with flash := { s.flash with units := us' } }

/-- Program pages of a unit: 2,304 in QLC mode, 576 in SLC mode (Table 12-1). -/
def EraseUnit.pages (e : EraseUnit) : Nat := if e.slc then 576 else 2304

/-- The unit counts as FREE reserve: FREE and in none of the SLC region, the dusk region, the journal pools, the PARITY
stream and the lent units (section Reclamation of chapter 13, R527). -/
def EraseUnit.isReserve (e : EraseUnit) : Bool := e.state = .free && e.role = .reserve

/-- The erase unit is listed in the block state table. -/
def State.listed (s : State) (d : Die) (u : Nat) : Bool := s.flash.units.any fun e => e.die = d ∧ e.unit = u

/-- Free count of a die (section Reclamation of chapter 13): all its units but those of the SLC region, the dusk region, the PARITY
stream and the journal pools, less the listed ones that are in use, and with the listed ones that came free. -/
def State.freeCount (s : State) (d : Die) : Nat :=
  let own := s.flash.units.filter fun e => e.die = d
  let pool := if (poolRole d 0).isSome then 4 else 0
  unitsPerDie - 66 - pool - (own.filter fun e => (defaultUnit d e.unit).isReserve && !e.isReserve).length
    + (own.filter fun e => !(defaultUnit d e.unit).isReserve && e.isReserve).length

/-- The less worn of two units, then the lower number (R368). -/
def lessWorn (a b : EraseUnit) : EraseUnit :=
  if b.wear < a.wear ∨ (b.wear = a.wear ∧ b.unit < a.unit) then b else a

/-- The FREE unit the FTL takes next on a die: lowest wear count, then lowest unit number (R368). -/
def State.takeUnit? (s : State) (d : Die) : Option EraseUnit :=
  let fresh := ((List.range unitsPerDie).find? fun u => (defaultUnit d u).isReserve && !s.listed d u).map (defaultUnit d)
  (s.flash.units.filter fun e => e.die = d && e.isReserve).foldl
    (fun best e => some (match best with | some b => lessWorn b e | none => e)) fresh

/-- The unit of the SLC region's write buffer that a die gives next, erased to SLC and holding nothing (R320, R356, R368). -/
def State.takeBuffer? (s : State) (d : Die) : Option EraseUnit :=
  let fresh := ((List.range 64).find? fun i => !s.listed d (i + 5)).map fun i => defaultUnit d (i + 5)
  (s.flash.units.filter fun e => e.die = d && e.role = .buffer && e.state = .free).foldl
    (fun best e => some (match best with | some b => lessWorn b e | none => e)) fresh

/-- Page `n` of a unit has been programmed: the pointer moves, and a full unit closes (Table 12-4). -/
def EraseUnit.programmed (e : EraseUnit) (wseq now : Nat) : EraseUnit :=
  let full := e.n + 1 = e.pages
  { e with
    n := e.n + 1, blankOk := true, maxWseq := Nat.max e.maxWseq wseq
    state := if full then .closed else .opened
    closedBt := if full then now else e.closedBt }

/-- The program can never be issued: its unit takes no more programs, its page lies behind the pointer, or ahead of it with no program
queued that would bring the pointer there (R323). -/
def State.hopeless (s : State) (o : DieOp) : Bool :=
  let e := s.eunit o.die o.unit
  o.kind = .program && o.st = .queued &&
    (!(e.state = .free || e.state = .opened) || o.page < e.n || e.pages ≤ o.page ||
      ((List.range (o.page - e.n)).any fun i => !(s.flash.ops.any fun q =>
        q.kind = .program && q.die = o.die && q.unit = o.unit && q.page = e.n + i)))

/-- A program to multi-plane page `n` of the unit is admitted (R323). -/
def EraseUnit.admits (e : EraseUnit) (n : Nat) : Bool :=
  (e.state = .free && n = 0) || (e.state = .opened && n = e.n && n < e.pages)

/-- The key of a multi-plane page in the store of page data. -/
def pageKey (g : Grade) (d : Die) (u n : Nat) : Nat := (g.dieIndex d * unitsPerDie + u) * 2304 + n

/-- The metadata bytes of a codeword (Table 13-2). -/
def SectorMeta.bytes (m : SectorMeta) : Bytes :=
  leBytes 4 m.lun ++ leBytes 1 m.sector ++ leBytes 1 m.sectors ++ leBytes 1 m.stream ++ leBytes 1 (bit01 m.compressed)
    ++ leBytes 8 m.wseq

/-- Codeword `i` of a multi-plane page as the cells hold it: 4,096 data bytes, 16 of metadata, 536 of LDPC parity (R319). Four of them
fill a plane's page with its 2,208 spare bytes (R316). -/
def PageImage.codeword (p : PageImage) (i : Nat) : Bytes :=
  let b := fitBytes 4096 (slice p.data (4096 * i) 4096) ++ (p.metas.getD i {}).bytes
  b ++ fitBytes 536 (Config.ldpcParity b)

/-- The plane of codeword `i` (assumption log 172: DESIGN CHOICE, safe). -/
def planeOf (i : Nat) : Nat := i / 4 % 4

/-- The physical page address of Table 12-2, PLANE 0. -/
def physAddr (d : Die) (u n : Nat) (slc : Bool) : Nat :=
  d.channel + d.die * 2 ^ 6 + u * 2 ^ 12
    + (if slc then n * 2 ^ 23 else n / 4 * 2 ^ 23 + n % 4 * 2 ^ 33) + bit01 slc * 2 ^ 35

/-- CHANNEL and DIE of a physical page address (Table 12-2). -/
def addrDie (a : Nat) : Die := { channel := bitsAt a 0 6, die := bitsAt a 6 4 }

/-- UNIT of a physical page address. -/
def addrUnit (a : Nat) : Nat := bitsAt a 12 11

/-- The multi-plane page of a physical page address in a unit: 4w + p, or w in SLC mode (R322). -/
def addrPage (a : Nat) (slc : Bool) : Nat :=
  if slc then bitsAt a 23 10 else 4 * bitsAt a 23 10 + bitsAt a 33 2

/-- Data of a multi-plane page: what was programmed, or of a page not programmed since the erase a free value of Config
(assumption log 25: DESIGN CHOICE, safe). -/
def State.pageData (s : State) (d : Die) (u n : Nat) : Bytes :=
  match s.flash.pages.find? (·.1 = pageKey s.grade d u n) with
  | some p => fitBytes 65536 p.2.data
  | none => (List.range 65536).map fun i => Config.erasedByte (pageKey s.grade d u n * 65536 + i)

/-- What a page holds, where it has been programmed. -/
def State.pageImage? (s : State) (d : Die) (u n : Nat) : Option PageImage :=
  (s.flash.pages.find? (·.1 = pageKey s.grade d u n)).map (·.2)

/-- Put a page, keys rising. -/
def putPage (k : Nat) (img : PageImage) : List (Nat × PageImage) → List (Nat × PageImage)
  | [] => [(k, img)]
  | p :: ps => if k < p.1 then (k, img) :: p :: ps else if k = p.1 then (k, img) :: ps else p :: putPage k img ps

/-- A program has written its page. -/
def State.programImage (d : Die) (u n : Nat) (img : PageImage) (s : State) : State :=
  { s with flash := { s.flash with pages := putPage (pageKey s.grade d u n) img s.flash.pages } }

/-- An erase removes the data of every page of the unit. -/
def State.eraseData (d : Die) (u : Nat) (s : State) : State :=
  let lo := pageKey s.grade d u 0
  { s with flash := { s.flash with pages := s.flash.pages.filter fun p => p.1 < lo || lo + 2304 ≤ p.1 } }

/-- Change the counters of a channel. -/
def State.updChannel (c : Nat) (f : ChannelCnt → ChannelCnt) (s : State) : State :=
  { s with flash := { s.flash with channels := updAt c f s.flash.channels } }

/-- Count the codewords of a read by decode stage: 0, 1, 2 for stages 1, 2, 3 of R319, 3 uncorrectable. -/
def ChannelCnt.addStages (k : ChannelCnt) (st : List Nat) : ChannelCnt :=
  { k with
    stage1 := k.stage1 + (st.filter (· = 0)).length
    stage2 := k.stage2 + (st.filter (· = 1)).length
    stage3 := k.stage3 + (st.filter (· = 2)).length
    uncorrectable := sat32 (k.uncorrectable + (st.filter (3 ≤ ·)).length) }

/-! ### Die queues, suspends and tokens (R335 to R339, R475) -/

/-- Tokens an operation holds from its issue to its end (Table 12-7). -/
def DieOpKind.tokens : DieOpKind → Nat
  | .read => 2 | .program => 4 | .erase => 3

/-- The operation holds tokens: it is running, or its suspend has not taken effect (R338). -/
def DieOp.active (o : DieOp) : Bool := o.st = .running || o.st = .suspending

/-- The channel's bus is in use: a read or program of it is in progress. -/
def busActive (ops : List DieOp) (c : Nat) : Bool :=
  ops.any fun o => o.die.channel = c && o.active && o.kind ≠ .erase

/-- Tokens held on the drive (Table 12-7). -/
def tokensHeld (ops : List DieOp) : Nat :=
  (ops.filter (·.active)).foldl (fun n o => n + o.kind.tokens) 0
    + 4 * ((List.range 64).filter (busActive ops)).length

/-- A read of a wordline whose own program is in progress (R335). -/
def ownWordline (ops : List DieOp) (o : DieOp) (slcOf : DieOp → Bool) : Bool :=
  ops.any fun q => q.kind = .program && q.die = o.die && q.unit = o.unit
    && (q.active || q.st = .suspended)
    && (if slcOf q then q.page = o.page else q.page / 4 = o.page / 4)

/-- The die is free for the operation: nothing runs on it, and only reads run beside a suspended operation. -/
def dieFree (ops : List DieOp) (o : DieOp) : Bool :=
  !(ops.any fun q => q.die = o.die && q.active)
    && (o.kind = .read || !(ops.any fun q => q.die = o.die && q.st = .suspended))

/-- The operation can be suspended: a running program or erase, not of the dusk flush and not urgent (R335). -/
def DieOp.suspendable (o : DieOp) : Bool :=
  o.st = .running && o.kind ≠ .read && o.prio ≠ .dusk && o.prio ≠ .urgent

/-- A queued read of the die that does not wait for the die's own program. -/
def readWaits (ops : List DieOp) (slcOf : DieOp → Bool) (d : Die) : Bool :=
  ops.any fun q => q.kind = .read && q.die = d && q.st = .queued && !ownWordline ops q slcOf

/-- Reads queued for a die suspend the program or erase that runs on it (R335). -/
def suspendOps (ops : List DieOp) (slcOf : DieOp → Bool) : List DieOp :=
  updWhere (fun o => o.suspendable && readWaits ops slcOf o.die) (fun o => { o with st := .suspending }) ops

/-- A suspended operation resumes: at once when urgent, else when no read is queued or running for its die (R335,
R336). -/
def resumes (ops : List DieOp) (slcOf : DieOp → Bool) (o : DieOp) : Bool :=
  o.st = .suspended && (o.prio = .urgent ||
    !(readWaits ops slcOf o.die || ops.any fun q => q.kind = .read && q.die = o.die && q.active))

/-- An operation enters its die's queue after those of `seen`: of its 8 entries programs and erases take at most 6. One that waits for its
INTENT record is not there yet; one that has been issued stays (R331, R475). -/
def enters (seen : List DieOp) (o : DieOp) : Bool :=
  let mine := seen.filter fun q => q.die = o.die
  match o.st with
  | .held => false
  | .queued => mine.length < 8 && (o.kind = .read || (mine.filter fun q => q.kind ≠ .read).length < 6)
  | _ => true

/-- Which operations have entered, in list order; the others wait outside (R475). -/
def entered : List DieOp → List DieOp → List Bool
  | _, [] => []
  | seen, o :: os => if enters seen o then true :: entered (seen ++ [o]) os else false :: entered seen os

/-- Resume and issue operation `i` of the list if it may and tokens allow (R339). -/
def issueOne (budget : Nat) (slcOf legal : DieOp → Bool) (i : Nat) (ops : List DieOp) : List DieOp :=
  match ops[i]? with
  | none => ops
  | some o =>
    let go := updAt i (fun q => { q with st := .running }) ops
    let fits := tokensHeld go ≤ budget
    if resumes ops slcOf o then
      (if fits && !(ops.any fun q => q.die = o.die && q.active) then go else ops)
    else if o.st = .queued && (entered [] ops).getD i false && dieFree ops o && fits && legal o
        && !(o.kind = .read && ownWordline ops o slcOf) then go
    else ops

/-- One pass over the queue for one priority of R339. -/
def issuePrio (budget : Nat) (slcOf legal : DieOp → Bool) (p : DiePrio) (ops : List DieOp) : List DieOp :=
  (List.range ops.length).foldl
    (fun l i => match l[i]? with
      | some o => if o.prio = p then issueOne budget slcOf legal i l else l
      | none => l) ops

/-- Tokens operations may hold now: the limit after thermal and governor cuts, which the dusk flush is never held to
(R37, R38, R339, R443). Erases that have become urgent are held to none of these cuts (assumption log 162: DESIGN CHOICE, unsafe). -/
def State.tokenLimit (s : State) (p : DiePrio) : Nat :=
  match p with
  | .dusk | .urgent => s.power.flashLimit
  | .read => s.power.flashLimit - s.power.cutReads
  | .foreground =>
    let b := s.power.flashLimit - s.power.cutForeground
    if s.power.hotFlash then b / 2 else b
  | .background => if s.power.cutBackground then 0 else
    let b := s.power.flashLimit - s.power.cutForeground
    if s.power.hotFlash then b / 2 else b

/-- Suspend, resume and issue die operations in the grant order of R339; the first program into a FREE unit waits for its
blank check (R333). -/
def State.pumpFlash (s : State) : State :=
  let slcOf := fun o : DieOp => (s.eunit o.die o.unit).slc
  let legal := fun o : DieOp => o.kind ≠ .program ||
    (let e := s.eunit o.die o.unit
     e.admits o.page && (e.state ≠ .free || e.blankOk))
  let ops0 := s.flash.ops
  let ops1 := suspendOps ops0 slcOf
  let ops2 := [DiePrio.dusk, .urgent, .read, .foreground, .background].foldl
    (fun l p => issuePrio (s.tokenLimit p) slcOf legal p l) ops1
  let t : State := { s with flash := { s.flash with ops := ops2 } }
  (ops0.filter fun o => o.suspendable && readWaits ops0 slcOf o.die).foldl
    (fun u o => u.updChannel o.die.channel fun k => { k with suspends := k.suspends + 1 }) t

/-- The channel engine that runs a channel's sequencer queue: its own while that is IN_SERVICE, else another of its channel group (R24,
R27; Table 12-8). -/
def State.engineFor (s : State) (c : Nat) : Nat :=
  let live := (s.inService .engine).map (·.phys)
  if live.contains c then c else (live.find? fun p => p / 8 = c / 8).getD c

/-- Queue a die operation. -/
def State.queueOp (o : DieOp) (s : State) : State :=
  { s with flash := { s.flash with ops := s.flash.ops ++ [{ o with engine := s.engineFor o.die.channel }] } }.pumpFlash

/-- A channel engine leaves service: its queued operations go to others of its channel group, and with `all` those in progress too (R24,
R27). -/
def State.handOps (p : Nat) (all : Bool) (s : State) : State :=
  let hit := fun o : DieOp => o.engine = p && (all || o.st = .queued || o.st = .held)
  let move := fun o : DieOp => { o with engine := s.engineFor o.die.channel }
  { s with flash := { s.flash with ops := updWhere hit move s.flash.ops } }

/-- The list without its first element that satisfies `p`. -/
def removeFirst {α : Type} (p : α → Bool) : List α → List α
  | [] => []
  | x :: xs => if p x then xs else x :: removeFirst p xs

/-- The running operation of a kind on a die. -/
def State.runningOp? (s : State) (d : Die) (k : DieOpKind) : Option DieOp :=
  s.flash.ops.find? fun o => o.die = d ∧ o.kind = k ∧ o.st = .running

/-- An operation ends and leaves its die's queue. -/
def State.endOp (o : DieOp) (s : State) : State :=
  { s with flash := { s.flash with ops := removeFirst (· = o) s.flash.ops } }

/-! ### Urgent erases (R336) -/

/-- The free-unit pool of some die is below the low-water mark of 12 units (R336, R363). Dies with no listed unit are
never low. -/
def State.poolLow (s : State) : Bool :=
  (s.flash.units.map (·.die)).eraseDups.any fun d => s.freeCount d < 12

/-- While the pool is low every erase of the FTL is marked urgent (R336). -/
def State.markUrgent (s : State) : State :=
  if s.poolLow then
    let hit := fun o : DieOp => o.kind = .erase && o.prio ≠ .urgent
    let t := (s.flash.ops.filter hit).foldl
      (fun u o => u.updChannel o.die.channel fun k => { k with urgent := sat32 (k.urgent + 1) }) s
    ({ t with flash := { t.flash with ops := updWhere hit (fun o => { o with prio := .urgent }) t.flash.ops } } :
      State).pumpFlash
  else s

/-! ### The erase journal (R329 to R331) -/

/-- The journal unit a copy's next record page goes to: the first FREE or OPEN unit of its pool (R330). -/
def State.journalUnit? (s : State) (r : UnitRole) : Option EraseUnit :=
  let base := if r = .journalA then 0 else 32
  ((List.range 64).map fun i => s.eunit { channel := base + i / 4, die := 0 } (i % 4)).find? fun e =>
    e.role = r && (e.state = .free || e.state = .opened)

/-- TYPE of an erase journal record (Table 12-5). -/
def JournalType.code : JournalType → Nat
  | .intent => 1 | .done => 2 | .poolBad => 3

/-- The 16 bytes of an erase journal record (Table 12-5). -/
def JournalRec.bytes (r : JournalRec) : Bytes :=
  let b := leBytes 1 r.typ.code ++ leBytes 1 (bit01 r.slc) ++ leBytes 2 (r.die.channel * 16 + r.die.die) ++ leBytes 2 r.unit
    ++ zeroBytes 2 ++ leBytes 4 r.seq
  b ++ leBytes 4 (Config.crc32 b).toNat

/-- A page of a journal copy that holds one record: the header's copy letter, page sequence number and record count, then the record
(R330; assumption log 173: DESIGN CHOICE, unsafe). -/
def journalPage (copyA : Bool) (r : JournalRec) : PageImage :=
  { data := fitBytes 64 (leBytes 4 (if copyA then 0x41 else 0x42) ++ leBytes 4 r.seq ++ leBytes 4 1) ++ r.bytes }

/-- Programs queued for a unit. -/
def State.queuedPrograms (s : State) (d : Die) (u : Nat) : Nat :=
  (s.flash.ops.filter fun o => o.kind = .program ∧ o.die = d ∧ o.unit = u).length

/-- A read of the blank check of a unit (R333). -/
def DieOp.checksBlank (d : Die) (u : Nat) (o : DieOp) : Bool := o.owner = .blank && o.die = d && o.unit = u

/-- Pages the blank check reads: page 0 of wordlines 0 and 575 (R322, R333). -/
def EraseUnit.blankPages (e : EraseUnit) : List Nat := [0, if e.slc then 575 else 4 * 575]

/-- Queue the blank check of a FREE unit that has not passed it (R333). -/
def State.queueBlank (prio : DiePrio) (d : Die) (e : EraseUnit) (s : State) : State :=
  if e.state = .free && !e.blankOk && !(s.flash.ops.any (DieOp.checksBlank d e.unit)) then
    e.blankPages.foldl (fun t n =>
      t.queueOp { die := d, kind := .read, unit := e.unit, page := n, prio := prio, owner := .blank }) s
  else s

/-- Drop what is left of a unit's blank check. -/
def State.dropBlank (d : Die) (u : Nat) (s : State) : State :=
  { s with flash := { s.flash with ops := s.flash.ops.filter fun o => !o.checksBlank d u } }

/-- Queue the programs of a journal record into both copies, each after the blank check of its unit (R330, R333). -/
def State.queueJournal (seq : Nat) (s : State) : State :=
  [UnitRole.journalA, .journalB].foldl
    (fun t r => match t.journalUnit? r with
      | none => t
      | some e => (t.queueBlank .foreground e.die e).queueOp
          { die := e.die, kind := .program, unit := e.unit, page := e.n + t.queuedPrograms e.die e.unit, prio := .foreground
            owner := .journal seq
            fill := (t.flash.journal.find? (·.seq = seq)).map (journalPage (r = .journalA)) }) s

/-- Append a record to the journal, to be programmed into both copies (R329, R330). -/
def State.journal (typ : JournalType) (slc : Bool) (d : Die) (u : Nat) (s : State) : State :=
  let r : JournalRec := { typ := typ, slc := slc, die := d, unit := u, seq := s.flash.nextSeq }
  ({ s with flash := { s.flash with journal := s.flash.journal ++ [r], nextSeq := s.flash.nextSeq + 1 } } :
    State).queueJournal s.flash.nextSeq

/-- Start the erase of a unit to a mode for a use: ERASING, the INTENT record, and the erase held until the record is in both
copies (R320, R331). -/
def State.startErase (owner : DieOpOwner) (role : UnitRole) (slc : Bool) (d : Die) (u : Nat) (s : State) : State :=
  let t := s.updEunit d u fun e => { e with state := .erasing, role := role }
  let t := t.queueOp { die := d, kind := .erase, unit := u, page := bit01 slc, prio := .foreground, st := .held
                       owner := owner }
  (t.journal .intent slc d u).markUrgent

/-- A copy of a journal record is programmed. -/
def State.journalCopy (seq : Nat) (copyA : Bool) (s : State) : State :=
  let set := fun r : JournalRec => if copyA then { r with durableA := true } else { r with durableB := true }
  { s with flash := { s.flash with journal := updWhere (fun r => r.seq = seq) set s.flash.journal } }

/-- INTENT records in both copies release the erases that wait for them (R331). -/
def State.releaseErases (s : State) : State :=
  let ready := fun o : DieOp => o.kind = .erase && o.st = .held &&
    match (s.flash.journal.filter fun r => r.typ = .intent && r.die = o.die && r.unit = o.unit).getLast? with
    | some r => r.durableA && r.durableB
    | none => false
  let go := (s.flash.ops.filter ready).map fun o => { o with st := .queued }
  ({ s with flash := { s.flash with ops := (s.flash.ops.filter fun o => !ready o) ++ go } } : State).pumpFlash

end Sys2Proof.Machine
end

