-- ==== Sys2Proof/Machine/Mirror.lean ====
section
/-! DEFINITION. Where data lies in DRAM: home packages, the mirrors of durable dirty pages in their pools, and what moves when a
package leaves service (R27, R191, R192, R450, R451). -/
namespace Sys2Proof.Machine

/-- Go through a list with a running value. -/
def threadMap {α σ : Type} (f : σ → α → σ × α) : σ → List α → σ × List α
  | a, [] => (a, [])
  | a, x :: xs =>
    let r := f a x
    let t := threadMap f r.1 xs
    (t.1, r.2 :: t.2)

/-- Physical numbers of the packages in service. -/
def State.packages (s : State) : List Nat := (s.inService .dram).map (·.phys)

/-- Every place that D counts a page at, and those of volatile dirty pages. -/
def State.places (s : State) : List Place :=
  (s.tiers.objects.flatMap fun o => o.versions.flatMap fun v => v.dirty.map (·.place))
    ++ s.block.dirty.map (·.place) ++ s.ftl.dirtyMaps.map (·.place)

/-- Free pages of the mirror pool of each package in service: package and pages (R191). -/
abbrev Pools := List (Nat × Nat)

/-- Free pages of each pool now. -/
def State.freePools (s : State) : Pools :=
  s.packages.map fun p => (p, s.grade.mirrorPool * 256 - (s.places.filter fun x => x.mirror = some p).length)

/-- The first package in service from `p` on. -/
def nextIn (fitted : Nat) (packs : List Nat) (p : Nat) : Nat :=
  (((List.range fitted).map fun i => (p + i) % fitted).find? fun q => packs.contains q).getD 0

/-- The package a key is homed in. -/
def homeOf (fitted : Nat) (packs : List Nat) (key : Nat) : Nat := nextIn fitted packs (Config.homePackage key)

/-- The partner of a package. -/
def partner (fitted p : Nat) : Nat := (p + fitted / 2) % fitted

/-- A pool has a free page. -/
def roomIn (p : Nat) (a : Pools) : Bool := a.any fun x => x.1 = p && 0 < x.2

/-- The package other than `p` with the most free pool space, the lowest number among equals. -/
def mostFree (p : Nat) (a : Pools) : Option Nat :=
  ((a.filter fun x => x.1 ≠ p && 0 < x.2).foldl
    (fun (best : Option (Nat × Nat)) x => some (match best with | some b => if b.2 < x.2 then x else b | none => x))
      none).map (·.1)

/-- The package that takes the mirror of a page homed in `p`: its partner, or where that is not in service or full the one with the
most free pool space (R191). -/
def pickMirror (fitted p : Nat) (a : Pools) : Option Nat :=
  if partner fitted p ≠ p && roomIn (partner fitted p) a then some (partner fitted p) else mostFree p a

/-- A mirror takes a page of a pool. -/
def takePool (m : Option Nat) (a : Pools) : Pools := a.map fun x => if m = some x.1 then (x.1, x.2 - 1) else x

/-- A mirror gives its page back. -/
def givePool (m : Option Nat) (a : Pools) : Pools := a.map fun x => if m = some x.1 then (x.1, x.2 + 1) else x

/-- The place of a page that becomes dirty: of a durable one with its mirror, where a pool has room (R188, R191). -/
def State.newPlace (key : Nat) (durable : Bool) (s : State) : Place :=
  let h := homeOf s.grade.packages s.packages key
  { home := h, mirror := if durable then pickMirror s.grade.packages h s.freePools else none }

/-- The place of a page that is dirty already; a durable one that lacks its mirror takes one (R188). -/
def State.keepPlace (durable : Bool) (x : Place) (s : State) : Place :=
  if durable && x.mirror.isNone then { x with mirror := pickMirror s.grade.packages x.home s.freePools } else x

/-- Keys of homes: pages of object versions and blocks by their logical unit, map pages, and job areas. -/
def pageHome (lun page : Nat) : Nat := 16 * lun + page
def mapHome (m : Nat) : Nat := 2 ^ 60 + m
def areaHome (job : Nat) : Nat := 2 ^ 61 + job

/-- A change of the places of dirty pages: from the pools, a page's home key, whether it is durable, whether its write-back is asked
for, and its place. -/
abbrev PlaceMap := Pools → Nat → Bool → Bool × Place → Pools × (Bool × Place)

/-- Change the places of a version's dirty pages. -/
def Version.mapPlaces (f : PlaceMap) (durable : Bool) (a : Pools) (v : Version) : Pools × Version :=
  let r := threadMap (fun a (d : DirtyPage) =>
    let x := f a (pageHome v.lun d.page) durable (d.writing, d.place)
    (x.1, { d with writing := x.2.1, place := x.2.2 })) a v.dirty
  (r.1, { v with dirty := r.2 })

/-- Change the places of an object's dirty pages. -/
def Obj.mapPlaces (f : PlaceMap) (a : Pools) (o : Obj) : Pools × Obj :=
  let r := threadMap (fun a v => Version.mapPlaces f o.durable a v) a o.versions
  (r.1, { o with versions := r.2 })

/-- Change the places of every dirty page, of objects, then of blocks, then of map pages. -/
def State.mapPlaces (f : PlaceMap) (s : State) : State :=
  let os := threadMap (fun a o => Obj.mapPlaces f a o) s.freePools s.tiers.objects
  let bs := threadMap (fun a (d : DirtyBlock) =>
    let x := f a (pageHome 0 d.block) true (d.writing, d.place)
    (x.1, { d with writing := x.2.1, place := x.2.2 })) os.1 s.block.dirty
  let ms := threadMap (fun a (d : DirtyMap) =>
    let x := f a (mapHome d.page) true (d.writing, d.place)
    (x.1, { d with writing := x.2.1, place := x.2.2 })) bs.1 s.ftl.dirtyMaps
  { s with
    tiers := { s.tiers with objects := os.2 }, block := { s.block with dirty := bs.2 }
    ftl := { s.ftl with dirtyMaps := ms.2 } }

/-- A page takes a place afresh, as after a mount. -/
def placeAfresh (fitted : Nat) (packs : List Nat) : PlaceMap := fun a key durable x =>
  let h := homeOf fitted packs key
  let m := if durable then pickMirror fitted h a else none
  (takePool m a, (x.1, { home := h, mirror := m }))

/-- A page leaves package `p`, which is draining: its home moves to another package, and its mirror to another pool; where no other
pool has room, or near the budget, it is written back instead, as a volatile page is where no package has room (R27, R30, R192). -/
def leavePlace (fitted : Nat) (packs : List Nat) (back full : Bool) (p : Nat) : PlaceMap := fun a key durable x =>
  let h := if x.2.home = p then homeOf fitted packs key else x.2.home
  if x.2.home ≠ p && x.2.mirror ≠ some p then (a, x)
  else if !durable then (if full then (a, (true, x.2)) else (a, (x.1, { x.2 with home := h })))
  else if back then (a, (true, x.2))
  else if x.2.mirror.isSome && x.2.mirror ≠ some p && x.2.mirror ≠ some h then (a, (x.1, { x.2 with home := h }))
  else
    let a := givePool x.2.mirror a
    match pickMirror fitted h a with
    | some m => (takePool (some m) a, (x.1, { home := h, mirror := some m }))
    | none => (takePool x.2.mirror a, (true, x.2))

/-- A page of package `p`, which a fault has closed, lives on in its other copy, which takes a mirror anew (R191, R450). -/
def losePlace (fitted p : Nat) : PlaceMap := fun a _ durable x =>
  match x.2.mirror with
  | none => (a, x)
  | some m =>
    if x.2.home ≠ p && m ≠ p then (a, x)
    else
      let h := if x.2.home = p then m else x.2.home
      let a := givePool (some m) a
      let n := if durable then pickMirror fitted h a else none
      (takePool n a, (x.1 || n.isNone, { home := h, mirror := n }))

/-- Two packages, from `p` on and its partner, for copies that take no pool: save areas, scratch and accumulation words (R450,
R451). -/
def State.twoPlaces (p : Nat) (s : State) : Place :=
  let h := nextIn s.grade.packages s.packages p
  let q := partner s.grade.packages h
  { home := h, mirror := if q ≠ h && s.packages.contains q then some q else s.packages.find? (· ≠ h) }

/-- Copies that lie in package `p` move to others, and two of them remain (R27). -/
def State.twoMoved (p start : Nat) (x : Place) (s : State) : Place :=
  if x.home = p || x.mirror = some p then s.twoPlaces start else x

/-- Save areas and scratch, accumulation words, and hot copies leave a package: the first two move, a hot copy stays in its other
package alone (R27, R289, R293). -/
def State.leaveAreas (p : Nat) (s : State) : State :=
  let chunk := fun k : Chunk => { k with place := s.twoMoved p k.index k.place }
  let round := fun r : Round => { r with chunks := r.chunks.map chunk }
  let stay := fun c : HotCopy => { c with pkgs := c.pkgs.filter (· ≠ p) }
  { s with
    sched := { s.sched with jobs := s.sched.jobs.map fun j => { j with area := s.twoMoved p (Config.homePackage (areaHome j.id)) j.area } }
    domains := s.domains.map fun d => { d with round := d.round.map round }
    gather := { s.gather with copies := (s.gather.copies.map stay).filter fun c => !c.pkgs.isEmpty } }

end Sys2Proof.Machine
end

