-- ==== Sys2Proof/Machine/Ftl.lean ====
section
/-! DEFINITION. Flash translation: the map, open units, rows and parity, units on their way to flash, the SLC region, reclamation
bands, capacity (chapter 13). -/
namespace Sys2Proof.Machine

/-- Put an entry in a list of pairs with rising keys; value 0 removes it. -/
def putPair (k v : Nat) : List (Nat × Nat) → List (Nat × Nat)
  | [] => if v = 0 then [] else [(k, v)]
  | p :: ps =>
    if k < p.1 then (if v = 0 then p :: ps else (k, v) :: p :: ps)
    else if k = p.1 then (if v = 0 then ps else (k, v) :: ps)
    else p :: putPair k v ps

/-- The value of a key, 0 where it is not listed. -/
def getPair (k : Nat) : List (Nat × Nat) → Nat
  | [] => 0
  | p :: ps => if p.1 = k then p.2 else getPair k ps

/-- The map entry of a logical unit: 0 unmapped, 1 LOST, else a location (R342). -/
def State.mapEntry (s : State) (lun : Nat) : Nat := getPair lun s.ftl.map

/-- A map page is dirty from its first change, at a place with its mirror; one that is dirty already has changed again (R347, R450). -/
def addDirtyMap (m now : Nat) (at_ : Place) (l : List DirtyMap) : List DirtyMap :=
  if l.any (·.page = m) then updWhere (·.page = m) (fun d => { d with store := none }) l
  else l ++ [{ page := m, since := now, place := at_ }]

/-- Set a map entry; its map page becomes dirty (R347). -/
def State.setMap (lun v : Nat) (s : State) : State :=
  { s with ftl := { s.ftl with
      map := putPair lun v s.ftl.map
      dirtyMaps := addDirtyMap (lun / 1024) s.bt (s.newPlace (mapHome (lun / 1024)) true) s.ftl.dirtyMaps } }

/-- The erase unit a location unit of a die is bound to (R342). -/
def State.boundUnit? (s : State) (die lunit : Nat) : Option Nat :=
  (s.ftl.bindings.find? fun b => b.dieIndex = die ∧ b.lunit = lunit).map (·.unit)

/-- The location unit an erase unit is bound to. -/
def State.lunitOf? (s : State) (die unit : Nat) : Option Nat :=
  (s.ftl.bindings.find? fun b => b.dieIndex = die ∧ b.unit = unit).map (·.lunit)

/-- Bind an erase unit to the lowest location unit of its die that is not bound; location unit 0 of die_index 0 is never
bound (R342). -/
def State.bindUnit (die unit : Nat) (s : State) : State :=
  match s.lunitOf? die unit with
  | some _ => s
  | none =>
    match (List.range 1820).find? fun l => !(die = 0 && l = 0) && (s.boundUnit? die l).isNone with
    | none => s
    | some l => { s with ftl := { s.ftl with bindings := s.ftl.bindings ++ [⟨die, l, unit⟩] } }

/-- Free the location unit of an erase unit. -/
def State.unbindUnit (die unit : Nat) (s : State) : State :=
  { s with ftl := { s.ftl with bindings := s.ftl.bindings.filter fun b => !(b.dieIndex = die && b.unit = unit) } }

/-- The location of a slot (R342). -/
def locationOf (die lunit slot : Nat) : Nat := (die * 1820 + lunit) * 2304 + slot

/-- Die, erase unit and slot a location names (R342). -/
def State.locate (s : State) (loc : Nat) : Option (Die × Nat × Nat) :=
  let l := loc / 2304
  match s.boundUnit? (l / 1820) (l % 1820) with
  | some u => some (s.grade.dieOf (l / 1820), u, loc % 2304)
  | none => none

/-- The location of a page of a bound erase unit. -/
def State.locationAt (s : State) (die unit page : Nat) : Nat := locationOf die ((s.lunitOf? die unit).getD 0) page

/-! ### Homes of logical units (R181, R183, R193, R341) -/

/-- Bytes of home a version of an object may come to need: an index version's accession list lies behind it (R227). -/
def homeBytes (kind size : Nat) : Nat :=
  if kind = 3 then ceilDiv size 65536 * 65536 + 16777216 * 8288 else size

/-- Logical units of the home of a version. -/
def Version.homeUnits (v : Version) (kind : Nat) : Nat := ceilDiv (homeBytes kind v.size) 65536

/-- The object, version and unit whose home a logical unit is. -/
def State.ownerOf? (s : State) (lun : Nat) : Option (Obj × Version × Nat) :=
  (s.tiers.objects.flatMap fun o => (o.versions.filter fun v => v.lun ≤ lun && lun < v.lun + v.homeUnits o.kind).map
    fun v => (o, v, lun - v.lun)).head?

/-- The unit's home lies in tier 2 (R183, R200). -/
def Obj.inSlc (o : Obj) (n u : Nat) : Bool := (o.tier = 2) != o.slc.contains (n, u)

/-- The logical unit is homed in tier 2, so that it stays in the SLC region (R357). -/
def State.homedSlc (s : State) (lun : Nat) : Bool :=
  match s.ownerOf? lun with
  | some x => x.1.inSlc x.2.1.num x.2.2
  | none => false

/-- The channel engines compress the unit where they write it to tier 3 (R193). -/
def State.compresses (s : State) (lun : Nat) : Bool :=
  s.grade.hasCompression && s.tiers.compress &&
    match s.ownerOf? lun with
    | some x => (x.1.kind = 1 || x.1.kind = 4 || x.1.kind = 7) && !(x.1.inSlc x.2.1.num x.2.2)
    | none => false

/-- Sectors of a logical unit that stand in a page: with their metadata (R343). -/
def PageImage.sectorsOf (p : PageImage) (lun : Nat) : List (SectorMeta × Bytes) :=
  ((p.metas.mapIdx fun i m => (m, slice p.data (4096 * i) 4096)).filter fun x => x.1.lun = lun && 0 < x.1.sectors)

/-- Sectors of the unit stored at a location, from that slot and, where it continues, from the next (R343). -/
def State.storedSectors (s : State) (d : Die) (u n lun : Nat) : List (SectorMeta × Bytes) :=
  let a := match s.pageImage? d u n with | some p => p.sectorsOf lun | none => []
  let more : Bool := match a with | x :: _ => a.length < x.1.sectors | [] => false
  if more then a ++ (match s.pageImage? d u (n + 1) with | some p => p.sectorsOf lun | none => []) else a

/-- The slots a read of a logical unit takes: the one its entry names and, where a packed unit continues, the next (R343). -/
def State.readSlots (s : State) (lun : Nat) : List (Die × Nat × Nat) :=
  match s.locate (s.mapEntry lun) with
  | none => []
  | some (d, u, n) =>
    match s.pageImage? d u n with
    | none => [(d, u, n)]
    | some p => match p.sectorsOf lun with
      | x :: xs => if (x :: xs).length < x.1.sectors then [(d, u, n), (d, u, n + 1)] else [(d, u, n)]
      | [] => [(d, u, n)]

/-- What a location stores of a logical unit: its bytes, and whether they are compressed. -/
def State.storedUnit (s : State) (d : Die) (u n lun : Nat) : Bytes × Bool :=
  let l := s.storedSectors d u n lun
  (l.flatMap (·.2), l.any (·.1.compressed))

/-- The data of a logical unit as flash holds it: zeros where it is unmapped (R342, R343). -/
def State.flashUnit (s : State) (lun : Nat) : Bytes :=
  match s.locate (s.mapEntry lun) with
  | none => zeroBytes 65536
  | some (d, u, n) =>
    let r := s.storedUnit d u n lun
    fitBytes 65536 (if r.2 then Config.expand r.1 else r.1)

/-- Sectors saved by units that are stored compressed (R193, R194). -/
def State.savedSectors (s : State) : Nat :=
  (s.ftl.map.map fun e => match s.locate e.2 with
    | some (d, u, n) => match s.storedSectors d u n e.1 with
      | x :: _ => 16 - x.1.sectors
      | [] => 0
    | none => 0).foldl (· + ·) 0

/-! ### Stripe groups and open units (R350) -/

/-- Stripe group of a die (R350). -/
def stripeGroup (d : Die) : Nat := 4 * d.die + d.channel / 16

/-- The 16 member dies of a stripe group (R350). -/
def groupDies (g : Nat) : List Die := (List.range 16).map fun i => { channel := 16 * (g % 4) + i, die := g / 4 }

/-- What the units of a stream code of Table 13-2 are set aside for. -/
def streamRole (st : Nat) : UnitRole :=
  if st = 0 then .host else if st = 1 then .relocate else if st = 2 then .map else .checkpoint

/-- The open units of a stream in a stripe group. -/
def State.set? (s : State) (g st : Nat) : Option OpenSet :=
  s.ftl.opens.find? fun o => o.group = g && o.stream = st && !o.closing

/-- Change the set of a generation. -/
def State.updSet (gen : Nat) (f : OpenSet → OpenSet) (s : State) : State :=
  { s with ftl := { s.ftl with opens := updWhere (fun o => o.gen = gen) f s.ftl.opens } }

/-- The FREE unit of a mode that a die gives next (R320, R368). -/
def State.freeUnit? (s : State) (slc : Bool) (d : Die) : Option EraseUnit := if slc then s.takeBuffer? d else s.takeUnit? d

/-- Open units for a stream, one on each member die that has a FREE unit of the mode; for the checkpoint stream one in all (R348,
R350; assumption log 21: DESIGN CHOICE, unsafe). -/
def State.openSet (g st : Nat) (slc : Bool) (s : State) : State :=
  let found := (groupDies g).filterMap (s.freeUnit? slc)
  let found := if st = 5 then found.take 1 else found
  if found.isEmpty then s
  else
    let gen := s.ftl.nextGen
    let t := found.foldl (fun t e =>
      (t.updEunit e.die e.unit fun x => { x with role := streamRole st, gen := gen }).bindUnit (t.grade.dieIndex e.die) e.unit) s
    let o : OpenSet := { gen := gen, group := g, stream := st, slc := slc
                         units := found.map fun e => (s.grade.dieIndex e.die, e.unit) }
    { t with ftl := { t.ftl with nextGen := gen + 1, opens := t.ftl.opens ++ [o] } }

/-- The page of a unit that the next program queued for it takes. -/
def State.tip (s : State) (e : EraseUnit) : Nat := e.n + s.queuedPrograms e.die e.unit

/-- Records of a set's units. -/
def State.setUnits (s : State) (o : OpenSet) : List EraseUnit := o.units.map fun m => s.eunit (s.grade.dieOf m.1) m.2

/-- Units of a set that take another page: not those that have failed, which later rows leave out (R350). -/
def State.usable (s : State) (o : OpenSet) : List EraseUnit :=
  (s.setUnits o).filter fun e => (e.state = .free || e.state = .opened) && !e.failing && s.tip e < e.pages

/-- The unit has a page under assembly. -/
def OpenSet.assembles (o : OpenSet) (die unit : Nat) : Bool :=
  match o.part with | some p => p.die = die && p.unit = unit | none => false

/-- The member that takes the next page: the one least far on, the lowest channel among equals, so that rows fill (R350; assumption log
21: DESIGN CHOICE, unsafe). -/
def State.member? (s : State) (o : OpenSet) : Option EraseUnit :=
  ((s.usable o).filter fun e => !(o.assembles (s.grade.dieIndex e.die) e.unit)).foldl
    (fun best e => some (match best with | some b => if s.tip e < s.tip b then e else b | none => e)) none

/-- Have open units for a stream: a set that is full, or in QLC mode where SLC is asked for, is to be closed, and another opened
(R350, R358). -/
def State.readySet (g st : Nat) (slc : Bool) (s : State) : State :=
  match s.set? g st with
  | none => s.openSet g st slc
  | some o =>
    if (s.usable o).isEmpty || (slc && !o.slc) then (s.updSet o.gen fun o => { o with closing := true }).openSet g st slc
    else s

/-- The HOST stream of a group writes SLC: always in write-through, else while the buffer has room (R358). -/
def State.hostSlc (s : State) (g : Nat) : Bool :=
  s.tiers.writeThrough || ((groupDies g).any fun d => (s.takeBuffer? d).isSome)
    || match s.set? g 0 with | some o => o.slc && !(s.usable o).isEmpty | none => false

/-- Queue the program of the next page of an open unit (R322, R323). -/
def State.queuePage (prio : DiePrio) (owner : DieOpOwner) (img : PageImage) (e : EraseUnit) (s : State) : StoreSlot × State :=
  ({ die := s.grade.dieIndex e.die, unit := e.unit, page := s.tip e, gen := e.gen }
   , (s.queueBlank prio e.die e).queueOp
      { die := e.die, kind := .program, unit := e.unit, page := s.tip e, prio := prio, owner := owner, fill := some img })

/-- What a page under assembly writes: sectors it has left hold nothing. -/
def PartPage.image (p : PartPage) : PageImage := { data := fitBytes 65536 p.data, metas := p.metas }

/-- Queue the page a set has under assembly as it stands. -/
def State.flushPart (prio : DiePrio) (gen : Nat) (s : State) : State :=
  match s.ftl.opens.find? (·.gen = gen) with
  | none => s
  | some o => match o.part with
    | none => s
    | some p => (s.queuePage prio (.store p.ids) p.image (s.eunit (s.grade.dieOf p.die) p.unit)).2.updSet gen
        fun o => { o with part := none }

/-- Queue a whole page in a stream of a stripe group; none where it has no unit to give. -/
def State.placePage (prio : DiePrio) (g st : Nat) (slc : Bool) (owner : DieOpOwner) (img : PageImage) (s : State) :
    List StoreSlot × State :=
  let s := s.readySet g st slc
  match s.set? g st with
  | none => ([], s)
  | some o =>
    let s := if (s.member? o).isNone then s.flushPart prio o.gen else s
    match (s.set? g st).bind s.member? with
    | none => ([], s)
    | some e => let r := s.queuePage prio owner img e; ([r.1], r.2)

/-- Metadata of a unit's sectors (Table 13-2). -/
def unitMetas (lun sectors st : Nat) (compressed : Bool) (wseq : Nat) : List SectorMeta :=
  (List.range sectors).map fun i =>
    { lun := lun, sector := i, sectors := sectors, stream := st, compressed := compressed, wseq := wseq }

/-- Pack the sectors of compressed unit `id` into the set's page under assembly and, where they do not fit, into the next slot of the same
erase unit; a unit that has no next slot takes none of it (R343). -/
def State.pack (prio : DiePrio) (gen id : Nat) (metas : List SectorMeta) (bs : Bytes) : Nat → State → List StoreSlot × State
  | 0, s => ([], s)
  | fuel + 1, s =>
    match s.ftl.opens.find? (·.gen = gen) with
    | none => ([], s)
    | some o =>
      let part := match o.part with
        | some p => some p
        | none => (s.member? o).map fun (e : EraseUnit) => { die := s.grade.dieIndex e.die, unit := e.unit }
      match part with
      | none => ([], s)
      | some p =>
        let e := s.eunit (s.grade.dieOf p.die) p.unit
        let n := s.tip e
        let at_ := fun k : Nat => ({ die := p.die, unit := p.unit, page := n + k, gen := gen } : StoreSlot)
        let room := 16 - p.metas.length
        let fill := fun k : Nat => { p with
          metas := p.metas ++ metas.take k, data := p.data ++ bs.take (4096 * k), ids := p.ids ++ [id] }
        if metas.length ≤ room then
          let t := s.updSet gen fun o => { o with part := some (fill metas.length) }
          ([at_ 0], if metas.length = room then t.flushPart prio gen else t)
        else if n + 1 < e.pages then
          let t := (s.updSet gen fun o => { o with part := some (fill room) }).flushPart prio gen
          let rest : PartPage := { die := p.die, unit := p.unit, metas := metas.drop room, data := bs.drop (4096 * room), ids := [id] }
          ([at_ 0, at_ 1], t.updSet gen fun o => { o with part := some rest })
        else State.pack prio gen id metas bs fuel (s.flushPart prio gen)

/-- Place a unit in a stream of a stripe group: raw in a slot of its own, or in QLC, where the spec has it compressed and it fits in 60 KiB,
packed. `packed` says that the bytes are compressed already (R193, R343, R346). -/
def State.placeUnit (prio : DiePrio) (g st : Nat) (slc : Bool) (id lun wseq : Nat) (bs : Bytes) (packed : Bool) (s : State) :
    List StoreSlot × State :=
  let s := s.readySet g st slc
  match s.set? g st with
  | none => ([], s)
  | some o =>
    let k := if packed then ceilDiv bs.length 4096 else Config.compressedSectors bs
    if !o.slc && (packed || (s.compresses lun && 1 ≤ k && k ≤ 15)) then
      let cs := fitBytes (4096 * k) (if packed then bs else Config.compress bs)
      s.pack prio o.gen id (unitMetas lun k st true wseq) cs 3
    else
      let raw := if packed then Config.expand bs else bs
      s.placePage prio g st slc (.store [id]) { data := fitBytes 65536 raw, metas := unitMetas lun 16 st false wseq }

/-! ### Rows and parity (R350 to R355) -/

/-- Add a programmed page to its row (R350, R351). -/
def addMember (gen g st n die unit wseq : Nat) (rows : List Row) : List Row :=
  if rows.any fun r => r.gen = gen ∧ r.n = n then
    updWhere (fun r => r.gen = gen ∧ r.n = n)
      (fun r => { r with members := r.members ++ [die], units := r.units ++ [unit], wseq := Nat.max r.wseq wseq }) rows
  else rows ++ [{ gen := gen, group := g, stream := st, n := n, members := [die], units := [unit], wseq := wseq }]

/-- Byte-wise XOR of two pages (R351). -/
def xorBytes : Bytes → Bytes → Bytes
  | [], ys => ys
  | xs, [] => xs
  | x :: xs, y :: ys => (x ^^^ y) :: xorBytes xs ys

/-- The XOR of a row's member pages, absent members taken as zero (R351). -/
def State.rowParity (s : State) (r : Row) : Bytes :=
  (r.members.zip r.units).foldl
    (fun acc m => xorBytes acc (s.pageData (s.grade.dieOf m.1) m.2 r.n)) []

/-- The die a row's parity page goes to: die d of channel 16((q + 1) mod 4) + (n mod 16) (R351). -/
def parityDie (group n : Nat) : Die :=
  { channel := 16 * ((group % 4 + 1) % 4) + n % 16, die := group / 4 }

/-- The LUN field of a parity page: q in [31:30], d in [29:26], the stream in [25:24], n in [23:12], the low 12 bits of the generation
(R352). -/
def Row.code (r : Row) : Nat :=
  r.group % 4 * 2 ^ 30 + r.group / 4 % 16 * 2 ^ 26 + r.stream % 4 * 2 ^ 24 + r.n % 4096 * 2 ^ 12 + r.gen % 4096

/-- The row's parity is to be programmed: every member of it that is left is programmed, or the stream's units are closed (R351). -/
def State.rowDue (s : State) (r : Row) : Bool :=
  !r.asked && match s.ftl.opens.find? (·.gen = r.gen) with
    | none => true
    | some o => (s.setUnits o).all fun e => e.failing || r.n < e.n

/-- The PARITY unit of a die with room for another page, the opened one first. -/
def State.parityUnit? (s : State) (d : Die) : Option EraseUnit :=
  let own := s.flash.units.filter fun e => e.die = d && e.role = .parity
  let fresh := if s.listed d 69 then [] else [defaultUnit d 69]
  let fits := fun e : EraseUnit => !e.failing && s.tip e < e.pages
  match own.find? fun e => e.state = .opened && fits e with
  | some e => some e
  | none => (own ++ fresh).find? fun e => e.role = .parity && e.state = .free && fits e

/-- A die whose PARITY units are used up has a unit of the reserve erased to SLC for the stream, one at a time (R320, R350; assumption log
21: DESIGN CHOICE, unsafe). -/
def State.refillParity (d : Die) (s : State) : State :=
  if (s.parityUnit? d).isSome || s.flash.units.any fun e => e.die = d && e.role = .parity && e.state = .erasing then s
  else match s.takeUnit? d with
    | none => s
    | some e => s.startErase .reclaim .parity true d e.unit

/-- Queue the parity page of a row. -/
def State.askParity (r : Row) (s : State) : State :=
  let d := parityDie r.group r.n
  match s.parityUnit? d with
  | none => s.refillParity d
  | some e =>
    let img : PageImage := { data := s.rowParity r, metas := unitMetas r.code 16 3 false r.wseq }
    let q := s.queuePage .foreground (.parity r.gen r.n) img e
    let set := fun x : Row => { x with asked := true, parityDie := q.1.die, parityUnit := e.unit, parityPage := q.1.page }
    let rows := updWhere (fun x => x.gen = r.gen && x.n = r.n) set q.2.ftl.rows
    ({ q.2 with ftl := { q.2.ftl with rows := rows } } : State).refillParity d

/-- Queue every parity page that is due (R351). -/
def State.issueParity (s : State) : State := (s.ftl.rows.filter s.rowDue).foldl (fun t r => t.askParity r) s

/-- A unit of a closed set: one that holds pages takes no more, one that holds none goes back to where it came from. -/
def State.closeUnit (e : EraseUnit) (s : State) : State :=
  if e.state = .opened then s.updEunit e.die e.unit fun x => { x with state := .closed, closedBt := s.bt }
  else if e.state = .free then
    (s.updEunit e.die e.unit fun x => { x with role := if x.slc then .buffer else .reserve, gen := 0 }).unbindUnit
      (s.grade.dieIndex e.die) e.unit
  else s

/-- One step of closing a set: what it has under assembly is programmed, wordlines of QLC units are completed with padding, and then its
units close (R326, R351). -/
def State.closeSet (o : OpenSet) (s : State) : State :=
  let t := s.flushPart .foreground o.gen
  let es := t.setUnits o
  if es.any fun e => 0 < t.queuedPrograms e.die e.unit then t
  else
    let short := es.filter fun e => !e.slc && e.state = .opened && !e.failing && e.n % 4 ≠ 0
    if short.isEmpty then
      let u := es.foldl (fun t e => t.closeUnit e) t
      { u with ftl := { u.ftl with opens := u.ftl.opens.filter (·.gen ≠ o.gen) } }
    else short.foldl (fun t e => (List.range (4 - e.n % 4)).foldl
      (fun t _ => (t.queuePage .foreground .pad { data := [] } e).2) t) t

/-- Go on closing the sets that are to be closed. -/
def State.closeSets (s : State) : State := (s.ftl.opens.filter (·.closing)).foldl (fun t o => t.closeSet o) s

/-- An erase unit takes no more pages of its set: what it has under assembly is given up (R324). -/
def State.leaveSet (d : Die) (u : Nat) (s : State) : State :=
  let di := s.grade.dieIndex d
  let leave := fun o : OpenSet =>
    { o with units := o.units.filter (· ≠ (di, u)), part := if o.assembles di u then none else o.part }
  { s with ftl := { s.ftl with opens := s.ftl.opens.map leave } }

/-- The set an erase unit is in is to be closed. -/
def State.closeSetOf (e : EraseUnit) (s : State) : State := s.updSet e.gen fun o => { o with closing := true }

/-! ### Units on their way to flash (R345, R346, R353) -/

/-- A slot's page is programmed. -/
def State.slotDone (s : State) (x : StoreSlot) : Bool :=
  let e := s.eunit (s.grade.dieOf x.die) x.unit
  e.gen = x.gen && x.page < e.n

/-- What a slot holds is covered: its page is programmed, the parity page of its row is, and in a QLC unit its wordline is complete
(R353). -/
def State.slotWritten (s : State) (x : StoreSlot) : Bool :=
  let e := s.eunit (s.grade.dieOf x.die) x.unit
  s.slotDone x && (e.slc || e.state ≠ .opened || 4 * (x.page / 4) + 3 < e.n)
    && !(s.ftl.rows.any fun r => r.gen = x.gen && r.n = x.page && !r.parity)

/-- The store counts as written (R353). -/
def State.covers (s : State) (r : StoreRec) : Bool := r.written || (!r.slots.isEmpty && r.slots.all s.slotWritten)

/-- Note the stores that have come to count as written. -/
def State.noteWritten (s : State) : State :=
  { s with ftl := { s.ftl with stores := s.ftl.stores.map fun r => { r with written := s.covers r } } }

/-- The location that names a stored unit: the slot of its first sector (R342, R343). -/
def State.storeLocation (s : State) (r : StoreRec) : Nat :=
  match r.slots with
  | x :: _ => s.locationAt x.die x.unit x.page
  | [] => 0

/-- A slot of the MAP stream: 16 map pages, each a sector (R344, R347). -/
def mapImage (pages : List Nat) (bs : Bytes) (wseq : Nat) : PageImage :=
  { data := bs, metas := pages.mapIdx fun i m => { lun := m, sector := i, sectors := 16, stream := 2, wseq := wseq } }

/-- Place a unit for a store and number it; nothing happens where no unit can be given. `packed` is of bytes that are compressed. -/
def State.sendUnit (prio : DiePrio) (item : StoreItem) (g st : Nat) (slc : Bool) (lun : Nat) (bs : Bytes) (packed : Bool) (s : State) :
    Option StoreRec × State :=
  let id := s.ftl.nextStore
  let r := match item with
    | .maps ms _ _ => s.placePage prio g st slc (.store [id]) (mapImage ms bs s.ftl.wseq)
    | _ => s.placeUnit prio g st slc id lun s.ftl.wseq bs packed
  if r.1.isEmpty then (none, r.2)
  else
    let keep := match item with | .move _ => [] | _ => bs
    let rec1 : StoreRec := { id := id, item := item, lun := lun, group := g, data := keep, slots := r.1, wseq := s.ftl.wseq }
    (some rec1, { r.2 with ftl := { r.2.ftl with
      nextStore := id + 1, wseq := r.2.ftl.wseq + 1, stores := r.2.ftl.stores ++ [rec1] } })

/-- Forget stores. -/
def State.dropStores (p : StoreRec → Bool) (s : State) : State :=
  { s with ftl := { s.ftl with stores := s.ftl.stores.filter fun r => !p r } }

/-- The item stores map pages. -/
def StoreItem.isMaps : StoreItem → Bool
  | .maps _ _ _ => true
  | _ => false

/-- A unit of this logical unit is on its way to flash. -/
def State.inFlight (s : State) (lun : Nat) : Bool := s.ftl.stores.any fun r => r.lun = lun && !r.item.isMaps

/-- Queue the move of a logical unit: to the RELOCATE stream of a stripe group, or through its HOST stream in SLC where its home is tier 2
(R357, R358, R364). One that is on its way already is not moved. -/
def State.storeMove (prio : DiePrio) (g lun : Nat) (s : State) : State :=
  if s.inFlight lun then s
  else match s.locate (s.mapEntry lun) with
    | none => s
    | some (d, u, n) =>
      let x := s.storedUnit d u n lun
      if s.homedSlc lun then (s.sendUnit prio (.move (s.mapEntry lun)) g 0 true lun x.1 x.2).2
      else (s.sendUnit prio (.move (s.mapEntry lun)) g 1 false lun x.1 x.2).2

/-- A unit whose home has come to tier 2 and lies in QLC moves to SLC (R200, R357). -/
def State.rehome (lun : Nat) (s : State) : State :=
  match s.locate (s.mapEntry lun) with
  | none => s
  | some (d, u, _) => if s.homedSlc lun && !(s.eunit d u).slc then s.storeMove .foreground (stripeGroup d) lun else s

/-- A store's unit is on flash: the map names it, as the newest copy. One that was trimmed or written again, or whose version is gone, is
invalid on arrival; of an atomic write the change waits (R345, R373, R387). -/
def State.installStore (r : StoreRec) (s : State) : State :=
  match r.item with
  | .maps _ _ _ => s
  | .move src =>
    if s.mapEntry r.lun = src then
      let t := s.setMap r.lun (s.storeLocation r)
      match r.slots with
      | x :: _ => { t with ftl := { t.ftl with relocated := bump t.ftl.relocated (stripeGroup (t.grade.dieOf x.die)) 1 } }
      | [] => t
    else s
  | .block u =>
    if s.block.dirty.any fun d => d.block / 16 = u && d.store = some r.id && d.atomic.isSome then s
    else s.setMap r.lun (s.storeLocation r)
  | .object _ _ _ => if (s.ownerOf? r.lun).isSome then s.setMap r.lun (s.storeLocation r) else s

/-- A page of a stream is programmed: its row gains a member (R350, R351). -/
def State.memberPass (o : DieOp) (s : State) : State :=
  let e := s.eunit o.die o.unit
  let w := match o.fill with | some p => (p.metas.map (·.wseq)).foldl Nat.max 0 | none => 0
  let st := if e.role = .relocate then 1 else if e.role = .map then 2 else 0
  { s with ftl := { s.ftl with
      rows := addMember e.gen (stripeGroup o.die) st o.page (s.grade.dieIndex o.die) o.unit w s.ftl.rows } }

/-- A program of stored units has passed: the stores whose last page it was are installed (R345). -/
def State.storePass (o : DieOp) (s : State) : State :=
  let di := s.grade.dieIndex o.die
  let t := s.memberPass o
  let mine := fun r : StoreRec => r.slots.any (fun x => x.die = di && x.unit = o.unit && x.page = o.page) && r.slots.all t.slotDone
  (t.ftl.stores.filter mine).foldl (fun t r => t.installStore r) t

/-- Place a store anew: what was to be programmed, or was programmed, in a unit that has failed or been refused, or could not be placed
(R324, R325). A move whose unit has changed since is dropped. -/
def State.replace (prio : DiePrio) (r : StoreRec) (s : State) : State :=
  let s := s.dropStores (·.id = r.id)
  let w := s.ftl.wseq
  let put := fun q : List StoreSlot × State =>
    ({ q.2 with ftl := { q.2.ftl with
      wseq := w + 1, stores := q.2.ftl.stores ++ [{ r with slots := q.1, wseq := w, written := false }] } } : State)
  match r.item with
  | .move src =>
    if s.mapEntry r.lun ≠ src then s
    else match s.locate src with
      | none => s
      | some (d, u, n) =>
        let y := s.storedUnit d u n r.lun
        put (s.placeUnit prio r.group (if s.homedSlc r.lun then 0 else 1) (s.homedSlc r.lun) r.id r.lun w y.1 y.2)
  | .maps ms _ _ => put (s.placePage prio r.group 2 true (.store [r.id]) (mapImage ms r.data w))
  | _ => put (s.placeUnit prio r.group 0 (s.hostSlc r.group) r.id r.lun w r.data false)

/-- Stores that have, or were to have, a page in a unit, and do not count as written yet, are placed anew. -/
def State.replaceIn (prio : DiePrio) (d : Die) (u : Nat) (s : State) : State :=
  let di := s.grade.dieIndex d
  (s.ftl.stores.filter fun r => !r.written && r.slots.any fun x => x.die = di && x.unit = u && x.gen = (s.eunit d u).gen).foldl
    (fun t r => t.replace prio r) s

/-- Stores that could not be placed are tried again. -/
def State.retryStores (s : State) : State :=
  (s.ftl.stores.filter (·.slots.isEmpty)).foldl (fun t r => t.replace .foreground r) s

/-! ### Capacity (R356, R369, R370) -/

/-- Bytes of an accession entry in the list: its stride (R228). -/
def AccEntry.bytes (a : AccEntry) : Nat := ceilDiv (16 + a.attrs.length + a.vector.length) 32 * 32

/-- Bytes of a version's accession list (R227). -/
def Version.listBytes (v : Version) : Nat := (v.index.entries.map AccEntry.bytes).foldl (· + ·) 0

/-- Units an object's versions reserve: every version has flash space for its whole size, and an index version for its
accession list (R181, R227). -/
def Obj.reserved (o : Obj) : Nat :=
  (o.versions.map fun v => ceilDiv v.size 65536 + ceilDiv v.listBytes 65536).foldl (· + ·) 0

/-- Units reserved by objects (`TIR_CAP_OBJECT`). -/
def State.reservedUnits (s : State) : Nat := (s.tiers.objects.map Obj.reserved).foldl (· + ·) 0

/-- Units of the block range with dirty blocks and no map entry yet. -/
def State.unmappedDirty (s : State) : List Nat :=
  ((s.block.dirty.map fun b => b.block / 16).eraseDups).filter fun u => s.mapEntry u = 0

/-- Units mapped in the block range, those held dirty in DRAM included. -/
def State.mappedUnits (s : State) : Nat :=
  (s.ftl.map.filter fun e => e.1 < s.grade.units).length + s.unmappedDirty.length

/-- Units of the logical space still free (R369). -/
def State.freeUnits (s : State) : Nat := s.grade.units - (s.mappedUnits + s.reservedUnits)

/-- The band of the fill level: f in units of 1/10,000 against the boundaries of Table 13-3. -/
def slcBand (f : Nat) : Nat :=
  if f < 2500 then 64 else if f < 5000 then 32 else if f < 7500 then 16 else if f < 9000 then 8 else 4

/-- SLC units per die after a change of the fill level: it shrinks at once, and grows only when f is at least 0.02 below
the boundary (R356). -/
def State.fitSlc (s : State) : State :=
  let fill := (s.mappedUnits + s.reservedUnits) * 10000
  let n := if slcBand (fill / s.grade.units) ≤ s.ftl.slcUnits then slcBand (fill / s.grade.units)
    else Nat.max s.ftl.slcUnits (slcBand (ceilDiv fill s.grade.units + 199))
  { s with ftl := { s.ftl with slcUnits := n } }

/-- The unit belongs to the SLC region: the write buffer, the HOST, MAP and checkpoint streams in SLC, and tier 2 (R356, R357). -/
def EraseUnit.inRegion (e : EraseUnit) : Bool :=
  e.slc && (e.role = .buffer || e.role = .host || e.role = .map || e.role = .checkpoint)

/-- SLC units that a die has now: until the block state table lists them, those its numbers give (R356; assumption log 20: PRESUMED,
unsafe). -/
def State.regionUnits (s : State) (d : Die) : Nat :=
  let own := s.flash.units.filter fun e => e.die = d
  64 - (own.filter fun e => (defaultUnit d e.unit).role = .buffer && !e.inRegion).length
    + (own.filter fun e => (defaultUnit d e.unit).role ≠ .buffer && e.inRegion).length

/-- Units of the region that hold data: of a die, those of its streams (R358). -/
def State.bufferUnits (s : State) (d : Die) : Nat :=
  (s.flash.units.filter fun e => e.die = d && e.inRegion && e.role ≠ .buffer && e.state ≠ .free && e.state ≠ .erasing).length

/-- Bring the SLC region of a die one unit nearer to what the fill level gives: an empty unit of the buffer is erased to QLC, or one of the
reserve to SLC. Tier 2 and the dusk region lose none (R320, R356, R358). -/
def State.fitRegion (d : Die) (s : State) : State :=
  let have_ := s.regionUnits d
  if s.flash.units.any fun e => e.die = d && e.state = .erasing then s
  else if s.ftl.slcUnits < have_ then
    match s.takeBuffer? d with
    | some e => s.startErase .reclaim .reserve false d e.unit
    | none => s
  else if have_ < s.ftl.slcUnits && 12 < s.freeCount d then
    match s.takeUnit? d with
    | some e => s.startErase .reclaim .buffer true d e.unit
    | none => s
  else s

/-- The spare pool in MiB (R370). Units the block state table does not list are good. -/
def State.spareMib (s : State) : Nat :=
  let dies := 64 * s.grade.dies
  let bad := (s.flash.units.filter fun e => e.state = .bad || e.role = .lent).length
  let parity := dies + (s.flash.units.filter fun e => e.role = .parity && e.unit ≠ 69).length
  let good := (dies * unitsPerDie - bad) * 144
  let slc := (dies * s.ftl.slcUnits + dies + 128 + parity) * 36 * 4
  good + s.savedSectors / 256 - (s.grade.units / 16 + slc + dies * 48 * 144)

/-- R370 holds: the spare pool is below 1 % of raw capacity. -/
def State.protected (s : State) : Bool := s.spareMib * 100 < 64 * s.grade.dies * 256 * 1024

/-- Raise the one record of R370 when protection begins. -/
def State.noteProtection (s : State) : State :=
  if s.protected && !s.ftl.writeProtected then
    ({ s with ftl := { s.ftl with writeProtected := true } } : State).raise (faultOf 0x17 5)
  else if !s.protected && s.ftl.writeProtected then { s with ftl := { s.ftl with writeProtected := false } }
  else s

/-- Row of Table 13-4 of a free count, 0 at the top. -/
def reclaimBand (free : Nat) : Nat :=
  if 48 ≤ free then 0 else if 24 ≤ free then 1 else if 16 ≤ free then 2 else if 12 ≤ free then 3
  else if 6 ≤ free then 4 else 5

/-- The band of a stripe group: that of its member die with the lowest free count; dies with no listed unit are at the
top (R363). -/
def State.groupBand (s : State) (g : Nat) : Nat :=
  (((s.flash.units.filter fun e => stripeGroup e.die = g).map (·.die)).eraseDups.map
    fun d => reclaimBand (s.freeCount d)).foldl Nat.max 0

/-- One more unit is admitted to the group's HOST stream (Table 13-4). -/
def State.groupAdmits (s : State) (g : Nat) : Bool :=
  let a := s.ftl.admitted.getD g 0
  let r := s.ftl.relocated.getD g 0
  match s.groupBand g with
  | 0 | 1 => true
  | 2 => a + 1 ≤ r
  | 3 => 3 * (a + 1) ≤ r
  | 4 => 8 * (a + 1) ≤ r
  | _ => false

/-- Count a unit admitted to a group; outside the ratio bands the counts start afresh (Table 13-4). -/
def State.admitUnit (g : Nat) (s : State) : State :=
  if s.groupBand g ≤ 1 then
    { s with ftl := { s.ftl with admitted := s.ftl.admitted.set g 0, relocated := s.ftl.relocated.set g 0 } }
  else { s with ftl := { s.ftl with admitted := bump s.ftl.admitted g 1 } }

/-- The stripe group that takes the next unit, a free value of Config (R350; assumption log 21: DESIGN CHOICE, unsafe). -/
def State.someGroup (s : State) : Nat × State :=
  let r := s.takeFree
  (Config.storeDie r.1 % (4 * s.grade.dies), r.2)

/-- Store a unit that was written back through the HOST stream; where the stripe group's band admits none now it waits (R350, R363). -/
def State.storeHost (item : StoreItem) (lun : Nat) (bs : Bytes) (s : State) : Option StoreRec × State :=
  let g := s.someGroup
  if g.2.groupAdmits g.1 then (g.2.admitUnit g.1).sendUnit .foreground item g.1 0 (g.2.hostSlc g.1) lun bs false else (none, g.2)

/-! ### Reclamation (R349, R364) -/

/-- Logical units whose map entry names a location in the erase unit (R364). -/
def State.validLuns (s : State) (d : Die) (u : Nat) : List Nat :=
  match s.lunitOf? (s.grade.dieIndex d) u with
  | none => []
  | some l =>
    let lo := locationOf (s.grade.dieIndex d) l 0
    (s.ftl.map.filter fun e => lo ≤ e.2 && e.2 < lo + 2304).map (·.1)

/-- Map pages whose latest copy the directory names in the erase unit (R348). -/
def State.validMaps (s : State) (d : Die) (u : Nat) : List Nat :=
  match s.lunitOf? (s.grade.dieIndex d) u with
  | none => []
  | some l =>
    let lo := locationOf (s.grade.dieIndex d) l 0
    (s.ftl.directory.filter fun e => lo ≤ e.2 / 16 && e.2 / 16 < lo + 2304).map (·.1)

/-- The better victim: fewer valid units, then the earlier closed by the highest WSEQ it holds (R364). -/
def State.betterVictim (s : State) (a b : EraseUnit) : EraseUnit :=
  let va := (s.validLuns a.die a.unit).length
  let vb := (s.validLuns b.die b.unit).length
  if vb < va ∨ (vb = va ∧ b.maxWseq < a.maxWseq) then b else a

/-- The victim of reclamation on a die (R364). -/
def State.victim? (s : State) (d : Die) : Option EraseUnit :=
  (s.flash.units.filter fun e => e.die = d && !e.slc && e.waitMaps = none
      && (e.state = .closed || e.state = .verified) && (e.role = .relocate || e.role = .host)).foldl
    (fun best e => some (match best with | some b => s.betterVictim b e | none => e)) none

/-- Map pages are to be journalled again, as their slots are reclaimed (R348). -/
def State.rejournal (ms : List Nat) (s : State) : State :=
  ms.foldl (fun t m => { t with ftl := { t.ftl with
    dirtyMaps := updWhere (·.page = m) (fun d => { d with writing := true })
      (addDirtyMap m t.bt (t.newPlace (mapHome m) true) t.ftl.dirtyMaps) } }) s

/-- Move the valid data of a unit out of it; its erase then waits for the map pages (R348, R349, R357, R364). -/
def State.relocateUnit (prio : DiePrio) (e : EraseUnit) (s : State) : State :=
  let luns := s.validLuns e.die e.unit
  let t := luns.foldl (fun t l => t.storeMove prio (stripeGroup e.die) l) s
  (t.rejournal (t.validMaps e.die e.unit)).updEunit e.die e.unit
    fun x => { x with waitMaps := some (luns.map (· / 1024)).eraseDups }

/-- What could not be moved out of units that are being reclaimed is tried again. -/
def State.retryMoves (s : State) : State :=
  (s.flash.units.filter (·.waitMaps.isSome)).foldl (fun t e =>
    (t.validLuns e.die e.unit).foldl (fun t l => t.storeMove .background (stripeGroup e.die) l) t) s

/-- A store moves a unit out of this erase unit. -/
def State.movesFrom (s : State) (e : EraseUnit) : Bool :=
  match s.lunitOf? (s.grade.dieIndex e.die) e.unit with
  | none => false
  | some l =>
    let lo := locationOf (s.grade.dieIndex e.die) l 0
    s.ftl.stores.any fun r => match r.item with | .move src => lo ≤ src && src < lo + 2304 | _ => false

/-- A unit that waits to be reclaimed holds no valid data any more, its map pages are journalled, and what was moved out counts as written
(R349, R353). -/
def State.reclaimable (s : State) (e : EraseUnit) : Bool :=
  match e.waitMaps with
  | none => false
  | some ms =>
    (s.validLuns e.die e.unit).isEmpty && (s.validMaps e.die e.unit).isEmpty && !s.movesFrom e
      && !(s.ftl.dirtyMaps.any fun m => ms.contains m.page)

/-- Erase the units that can be reclaimed now, those of the SLC region for it while it is not too large; a unit closed by a program failure,
or that has failed verification twice, becomes BAD instead (R320, R325, R349, R355, R356). -/
def State.eraseReclaimed (s : State) : State :=
  (s.flash.units.filter s.reclaimable).foldl
    (fun t e =>
      let t := t.unbindUnit (t.grade.dieIndex e.die) e.unit
      if e.failing then t.updEunit e.die e.unit fun x => { x with state := .bad, waitMaps := none }
      else
        let slc := e.inRegion && t.regionUnits e.die ≤ t.ftl.slcUnits
        let t := t.updEunit e.die e.unit fun x => { x with waitMaps := none }
        t.startErase .reclaim (if slc then .buffer else .reserve) slc e.die e.unit) s

/-! ### Checkpoints and the repair list (R348, R456) -/

/-- Queue a page under STREAM 5 in each of two stripe groups, for each of the two copies: A in groups 0 and 1, B in groups 2 and 3. A copy
takes one page in each of its groups (R348, R456; assumption log 174: DESIGN CHOICE, unsafe). -/
def State.twoCopies (owner : DieOpOwner) (s : State) : State :=
  let w := s.ftl.wseq
  let img : PageImage := { data := [], metas := unitMetas 0 16 5 false w }
  let t : State := { s with ftl := { s.ftl with wseq := w + 1 } }
  (List.range 4).foldl (fun t g => (t.placePage .foreground g 5 true owner img).2) t

/-- What a checkpoint holds now (R348). -/
def State.checkpointNow (s : State) : Checkpoint :=
  { wseq := s.ftl.wseq
    directory := s.ftl.directory
    tables := s.ftl.bindings.map fun b => (b.dieIndex, b.lunit, b.unit)
    counts := s.flash.units.map fun e => (e.die, e.unit, (s.validLuns e.die e.unit).length, e.wear, e.reads)
    slcUnits := (s.flash.units.filter EraseUnit.inRegion).map fun e => (e.die, e.unit)
    duskUnits := (s.flash.units.filter (·.role = .dusk)).map fun e => (e.die, e.unit)
    repairs := s.err.repairs }

/-- Write a checkpoint in two copies (R348). -/
def State.checkpoint (s : State) : State :=
  let c := s.checkpointNow
  ({ s with ftl := { s.ftl with
      nextCheckpoint := some c, checkpoints := s.ftl.checkpoints + 1, checkpointWseq := s.ftl.wseq, checkpointTick := s.epoch } } :
    State).twoCopies .checkpoint

/-- Operations with this owner have not ended. -/
def State.ownerBusy (s : State) (o : DieOpOwner) : Bool := s.flash.ops.any fun q => q.owner = o

/-- The unit of a die that is set aside for the dusk flush (R359). -/
def State.duskUnit (s : State) (d : Die) : EraseUnit :=
  (s.flash.units.find? fun e => e.die = d && e.role = .dusk).getD (s.eunit d 4)

/-- The dusk unit that a checkpoint was written for is replaced: a buffer unit takes its place, and it joins the buffer (R368). -/
def State.swapDusk (s : State) : State :=
  match s.ftl.swap with
  | none => s
  | some d =>
    let t : State := { s with ftl := { s.ftl with swap := none } }
    match t.takeBuffer? d with
    | some b =>
      ((t.updEunit d (t.duskUnit d).unit fun x => { x with role := .buffer }).updEunit d b.unit
        fun x => { x with role := .dusk }).queueBlank .background d b
    | none => t

/-- A checkpoint whose pages are all on flash stands (R348, R368). -/
def State.settleCheckpoint (s : State) : State :=
  match s.ftl.nextCheckpoint with
  | none => s
  | some c =>
    if s.ownerBusy .checkpoint then s
    else ({ s with ftl := { s.ftl with lastCheckpoint := some c, nextCheckpoint := none } } : State).swapDusk

/-- After each 64 GiB of MAP stream a checkpoint is written (R348). -/
def State.checkpointDue (s : State) : State :=
  if 68719476736 ≤ s.ftl.mapBytes then
    let t := s.checkpoint
    { t with ftl := { t.ftl with mapBytes := t.ftl.mapBytes - 68719476736 } }
  else s

/-- The repair list has changed: it is written afresh in two copies (R456). -/
def State.writeRepairs (s : State) : State :=
  ({ s with err := { s.err with repairWrites := s.err.repairWrites + 1 } } : State).twoCopies .repair

end Sys2Proof.Machine
end

