-- ==== Sys2Proof/Machine/Units.lean ====
section
/-! DEFINITION. Service units: closure numbers, draining, closing, renumbering and returning (R24 to R30, R456, R459,
R464, R467). -/
namespace Sys2Proof.Machine

/-- Clusters that are IN_SERVICE or RETURNING (R166). -/
def clustersLeft (us : List SvcUnit) : Nat :=
  (us.filter fun u => u.kind = .cluster ∧ (u.state = .inService ∨ u.state = .returning)).length

/-- Note since when fewer clusters than a job needs are IN_SERVICE or RETURNING (R166). -/
def Job.noteShort (now left : Nat) (j : Job) : Job :=
  { j with shortSince :=
      if left < j.need then (match j.shortSince with | some t => some t | none => some now) else none }

/-- Note it for every job. -/
def State.noteShort (s : State) : State :=
  { s with sched := { s.sched with jobs := s.sched.jobs.map (Job.noteShort s.bt (clustersLeft s.units)) } }

/-- The clock of a service unit runs: the domain of a CLOSED DRAM controller or link port is stopped, and a CLOSED cluster, channel
engine or reduction engine is stopped by its own gate (R33). -/
def State.clocked (s : State) (k : UnitKind) (p : Nat) : Bool :=
  match s.unit? k p with
  | some u => u.state ≠ .closed
  | none => false

/-- The clock domains of Table 1-12, by name and number (R31). -/
inductive ClockDomain where
  | arith | cnet | doc | d2dc (n : Nat) | mfab | drc (n : Nat) | fcg (g : Nat) | d2dm (n : Nat) | lnk (n : Nat)
  | iofab | d2di | crypto | aon | bcn | cfg | tck | pmc
  deriving DecidableEq, Repr

/-- Every domain of the drive: 40 (R31). -/
def clockDomains : List ClockDomain :=
  [.arith, .cnet, .doc] ++ (List.range 4).map .d2dc ++ [.mfab] ++ (List.range 12).map .drc ++ (List.range 8).map .fcg
    ++ (List.range 2).map .d2dm ++ (List.range 2).map .lnk ++ [.iofab, .d2di, .crypto, .aon, .bcn, .cfg, .tck, .pmc]

/-- Frequency in MHz; of TCK, which the tester supplies, the most it may be (Table 1-12). -/
def ClockDomain.mhz : ClockDomain → Nat
  | .arith => 600
  | .cnet | .drc _ => 1200
  | .doc => 1500
  | .d2dc n => if n < 2 then 2000 else 1600
  | .d2dm _ => 2000
  | .mfab | .iofab => 1000
  | .fcg _ => 800
  | .lnk _ => 1750
  | .d2di => 1600
  | .crypto => 500
  | .aon => 25
  | .bcn | .cfg => 100
  | .tck | .pmc => 50

/-- The domain's clock runs: DRCn and LNKn stop while their unit is CLOSED, AON needs input power, and every other domain runs on
while the drive is powered (R33, R34). -/
def State.domainRuns (s : State) : ClockDomain → Bool
  | .drc n => s.power.state ≠ .off && s.clocked .dram n
  | .lnk n => s.power.state ≠ .off && s.clocked .port n
  | .tck => true
  | _ => s.power.state ≠ .off

/-- Change one service unit. -/
def State.updUnit (k : UnitKind) (p : Nat) (f : SvcUnit → SvcUnit) (s : State) : State :=
  ({ s with units := updWhere (fun u => u.kind = k ∧ u.phys = p) f s.units } : State).noteShort

/-- The unit that holds a logical number. -/
def State.logical? (s : State) (k : UnitKind) (n : Nat) : Option SvcUnit :=
  s.units.find? fun u => u.kind = k ∧ u.logical = some n

/-- Some running job holds the physical cluster. -/
def State.clusterHeld (s : State) (p : Nat) : Bool :=
  s.sched.jobs.any fun j => j.state = .running && j.clusters.any fun c => c.phys = p

/-- A closure number is held by a unit that is not IN_SERVICE (R464). -/
def State.closureTaken (s : State) (n : Nat) : Bool :=
  s.units.any fun u => u.closure = n && u.state ≠ .inService

/-- The next value of the closure counter, which wraps from 0xFFFF to 1 (R464). -/
def wrapClosure (n : Nat) : Nat := if 0xFFFF ≤ n then 1 else n + 1

/-- The first free closure number from `n` on, looking at no more numbers than there are units (R464). -/
def State.freeClosure (s : State) : Nat → Nat → Nat
  | 0, n => n
  | k + 1, n => if s.closureTaken n then State.freeClosure s k (wrapClosure n) else n

/-- The closure number the next closing unit takes. -/
def State.nextClosure (s : State) : Nat := s.freeClosure (s.units.length + 1) s.err.nextClosure

/-- Take a closure number from the counter. -/
def State.takeClosure (s : State) : State :=
  { s with err := { s.err with nextClosure := wrapClosure s.nextClosure } }

/-- The repair list's entries for units that are not IN_SERVICE (R456). -/
def notInServiceList (us : List SvcUnit) : List Repair :=
  (us.filter fun u => u.state ≠ .inService).map fun u => Repair.notInService u.kind.code u.phys

/-- The entries of the repair list that are repairs. -/
def Repair.isRow : Repair → Bool
  | .notInService _ _ => false
  | _ => true

/-- Write the repair list afresh after a unit left or reached IN_SERVICE (R456). -/
def State.noteUnits (s : State) : State :=
  ({ s with err := { s.err with repairs := s.err.repairs.filter Repair.isRow ++ notInServiceList s.units } } : State).writeRepairs

/-- The spare of a kind with the lowest physical number that can take a number (R29, R459). -/
def State.spare? (s : State) (k : UnitKind) : Option SvcUnit :=
  s.units.find? fun u => u.kind = k ∧ u.spare ∧ u.state = .inService

/-- The unit of a kind with the highest logical number, leaving out those that already wait to take one (assumption log
11). -/
def highest : List SvcUnit → Option SvcUnit
  | [] => none
  | u :: us =>
    match u.logical, highest us with
    | none, r => r
    | some _, none => some u
    | some a, some v => if (v.logical.getD 0) < a then some u else some v

/-- Hand on a vacated logical number (R29): to the lowest spare; else it ceases when it was the highest, as a docent core's
does (R459; assumption log 32: DEDUCED, unsafe); else the cluster that holds the highest number takes it, at once when it holds no job,
otherwise at its next pause point. -/
def State.vacate (k : UnitKind) (n : Nat) (s : State) : State :=
  match s.spare? k with
  | some sp => s.updUnit k sp.phys fun u => { u with logical := some n, spare := false }
  | none =>
    match highest (s.units.filter fun u => u.kind = k ∧ u.takes = none) with
    | none => s
    | some h =>
      if k ≠ .cluster ∨ h.logical.getD 0 < n then s
      else if s.clusterHeld h.phys then s.updUnit k h.phys fun u => { u with takes := some n }
      else s.updUnit k h.phys fun u => { u with logical := some n }

/-- A cluster takes the vacated number it was to take (R29). -/
def State.takeNumber (p : Nat) (s : State) : State :=
  s.updUnit .cluster p fun u =>
    match u.takes with
    | some n => { u with logical := some n, takes := none }
    | none => u

/-- Clusters that hold no job take their vacated numbers at once (R29). -/
def State.settleNumbers (s : State) : State :=
  (s.units.filter fun u => u.kind = .cluster ∧ u.takes ≠ none ∧ !s.clusterHeld u.phys).foldl
    (fun t u => t.takeNumber u.phys) s

/-- The number of services a docent core runs. -/
def DocentState.load (d : DocentState) (p : Nat) : Nat := (d.services.filter (· = p)).length

/-- The core with the fewest services, the lowest number among equals. -/
def fewest (d : DocentState) : List Nat → Option Nat
  | [] => none
  | p :: ps =>
    match fewest d ps with
    | none => some p
    | some q => if d.load q < d.load p then some q else some p

/-- Spread the services of a core over others, the lowest service number first, each to the core with the fewest
(R459). -/
def spreadServices (from_ : Nat) (cores : List Nat) : Nat → DocentState → DocentState
  | 0, d => d
  | k + 1, d =>
    let i := d.services.length - (k + 1)
    let d' :=
      if d.services.getD i 0 = from_ then
        match fewest d cores with
        | some q => { d with services := d.services.set i q }
        | none => d
      else d
    spreadServices from_ cores k d'

/-- A docent core's services go to the spare that took its number, else over the remaining cores (R27, R459). -/
def State.moveServices (p : Nat) (spare : Option Nat) (s : State) : State :=
  let d := s.docent
  let d' :=
    match spare with
    | some q => { d with services := d.services.map fun x => if x = p then q else x }
    | none =>
      spreadServices p
        ((s.units.filter fun u => u.kind = .docent ∧ u.state = .inService ∧ u.logical ≠ none).map (·.phys))
        d.services.length d
  { s with docent := d' }

/-- A unit reaches CLOSED and gives up its logical number, which R29 hands on; a docent core's services move. -/
def State.closeNumber (k : UnitKind) (p : Nat) (s : State) : State :=
  match s.unit? k p with
  | none => s
  | some u =>
    let num := match u.takes with | some v => some v | none => u.logical
    let t := s.updUnit k p fun v => { v with state := .closed, logical := none, takes := none, spare := false }
    let sp := if u.logical = none then none else (t.spare? k).map (·.phys)
    let t := match num with | some n => t.vacate k n | none => t
    if k = .docent then t.moveServices p sp else t

/-- The UNIT_CLOSE and UNIT_RETURN commands that wait for the unit complete, once the repair list is on flash (R456, R464). The two are
told apart by OPCODE. -/
def State.finishUnitCmds (k : UnitKind) (p opcode : Nat) (st : Status) (result : Nat) (s : State) : State :=
  (s.atr.slots.filter fun c => c.work = .unit k.code p ∧ c.opcode = opcode).foldl
    (fun t c => if t.ownerBusy .repair then t.updSlot c.id fun c => { c with work := .listed st result }
      else t.finish c.id st result 0) s

/-- Commands that waited for the repair list complete (R456). -/
def State.finishListed (s : State) : State :=
  if s.ownerBusy .repair then s
  else s.atr.slots.foldl (fun t c => match c.work with
    | .listed st r => if c.phase = .running then t.finish c.id st r 0 else t
    | _ => t) s

/-- Mirror pools in service, in MiB, one entry for each package in service (R191, R206). -/
def State.pools (s : State) : List Nat := (s.inService .dram).map fun _ => s.grade.mirrorPool

/-- `dusk_budget` of R206. -/
def duskBudget (energy fixed perGib : Nat) (pools : List Nat) : Nat :=
  if energy ≤ fixed then 0
  else
    let steps := Nat.min 16 ((energy - fixed) * 4 / perGib)
    let room := (pools.foldl (· + ·) 0 - pools.foldl Nat.max 0) * 1048576
    let b := Nat.min (steps * 268435456) room
    if b < 4 * 268435456 then 0 else b

/-- B from the last valid measurement and the pools in service (R206, R207). -/
def State.budgetNow (s : State) : Nat :=
  if s.power.valid then duskBudget s.power.energy s.grade.flushEnergy.1 s.grade.flushEnergy.2 s.pools else 0

/-- B takes a value; 0 is write-through (R207, R209). -/
def State.setBudget (s : State) : State :=
  { s with tiers := { s.tiers with budget := s.budgetNow, writeThrough := s.budgetNow = 0 } }

/-- Derive B again, and enter or leave write-through: the record of entering it is raised once, in a drive that starts up at its
first measurement or at the mount (R207, R209). -/
def State.deriveBudget (s : State) : State :=
  let t : State := { s.setBudget with tiers := { s.setBudget.tiers with throughRaised := s.budgetNow = 0 } }
  if s.budgetNow = 0 ∧ s.tiers.throughRaised = false then t.raise { faultOf 0x14 5 with budget := true } else t

/-- A unit reaches CLOSED: numbers and services move on, the repair list is written, B is derived again for a DRAM
package, the closures that wait for it complete with its closure number, and a return that waits completes with
`UNIT_CLOSED` (R26, R29, R207, R456, R464, Table 1-11). -/
def State.closed (k : UnitKind) (p : Nat) (s : State) : State :=
  let t := (s.closeNumber k p).noteUnits
  let t := if k = .dram then t.deriveBudget else if k = .engine then t.handOps p true else t
  match t.unit? k p with
  | some u => (t.finishUnitCmds k p 0x00 .ok u.closure).finishUnitCmds k p 0x01 .unitClosed 0
  | none => t

/-- Give a unit that is IN_SERVICE its closure number and the state DRAINING; a DRAM package leaves the budget, and a channel engine's
queued work goes to others (R26, R27, R207, R464). -/
def State.startDrain (k : UnitKind) (p : Nat) (s : State) : State :=
  let n := s.nextClosure
  let t := ((s.takeClosure).updUnit k p fun u => { u with state := .draining, closure := n }).noteUnits
  if k = .dram then t.deriveBudget else if k = .engine then t.handOps p false else t

/-- A unit that a fault leaves unable to drain goes to CLOSED directly, with one record (R26, R461, R464). A unit already
DRAINING or RETURNING keeps its closure number, and one DRAINING goes on draining (Table 1-11). -/
def State.closeFault (cls : Nat) (k : UnitKind) (p : Nat) (s : State) : State :=
  match s.unit? k p with
  | none => s
  | some u =>
    if u.state = .closed then s
    else if u.state = .draining then s.raise (faultUnit cls 2 k p u.closure)
    else
      let t := if u.state = .inService then
        (s.takeClosure).updUnit k p fun v => { v with closure := s.nextClosure } else s
      let n := if u.state = .inService then s.nextClosure else u.closure
      (t.closed k p).raise (faultUnit cls 2 k p n)

/-- A fault after which a unit can still drain takes one IN_SERVICE to DRAINING, with one record (R26, R461, R470). -/
def State.drainFault (cls : Nat) (k : UnitKind) (p : Nat) (s : State) : State :=
  if s.unitIs k p .inService then (s.startDrain k p).raise (faultUnit cls 2 k p s.nextClosure) else s.closeFault cls k p

/-- A channel engine that returns takes back its channel's queue and block state (R467). -/
def State.takeOps (p : Nat) (s : State) : State :=
  let hit := fun o : DieOp => o.die.channel = p && (o.st = .queued || o.st = .held)
  { s with flash := { s.flash with ops := updWhere hit (fun o => { o with engine := p }) s.flash.ops } }

/-- Logical numbers that exist or are promised to a cluster. -/
def State.numbersUsed (s : State) (k : UnitKind) : List Nat :=
  (s.units.filter fun u => u.kind = k).flatMap fun u =>
    u.logical.toList ++ u.takes.toList

/-- Logical numbers of a kind in service by the fuse map. -/
def State.logicalCount (s : State) (k : UnitKind) : Nat :=
  match k with
  | .cluster => s.clustersLogical
  | .docent => 12
  | _ => 0

/-- A unit that passes its self-test rejoins: a cluster or docent core takes the lowest logical number that does not
exist, or becomes a spare; a DRAM package adds its pool (R29, R207, R467). -/
def State.rejoin (k : UnitKind) (p : Nat) (s : State) : State :=
  let numbered := k = .cluster || k = .docent
  let n := (List.range (s.logicalCount k)).find? fun i => !(s.numbersUsed k).contains i
  let t := (s.updUnit k p fun u =>
    { u with state := .inService, closure := 0, takes := none
             logical := if numbered then n else none
             spare := numbered && n.isNone }).noteUnits
  if k = .docent then { t with docent := { t.docent with restarted := t.docent.restarted.set p t.bt } }
  else if k = .dram then t.deriveBudget else if k = .engine then t.takeOps p else t

end Sys2Proof.Machine
end

