-- ==== Sys2Proof/Machine/Check.lean ====
section
/-! DEFINITION. The checks before admission, in the order of Table 2-7 (R9, R10, R55 to R60, R542). Each family says in
an OpSpec what its opcodes ask; the order of the steps is here, once. -/
namespace Sys2Proof.Machine

/-- What an opcode asks of its entry: the buffers it uses, its reserved argument bytes, and its own checks, each with the
offset that RESULT names (Table 2-9). The lists `bits4`, `field5` and `length6` hold (breach, offset) in any order; the
list `objects` is in the order of step 8. -/
structure OpSpec where
  data : Bool := false
  result : Bool := false
  /-- the use of the data buffer depends on a named object: its common checks are made at step 8 (R55) -/
  dataLate : Bool := false
  reserved : List (Nat × Nat) := []
  bits4 : List (Bool × Nat) := []
  absent : Bool := false
  field5 : List (Bool × Nat) := []
  length6 : List (Bool × Nat) := []
  objects : List (Bool × Status × Nat) := []
  closed : Bool := false
  /-- versions the command names, to be pinned at admission (R197) -/
  pins : List (Nat × Nat) := []
  deriving DecidableEq, Repr

/-- The offsets of the breaches in lists of checks. -/
def breachesOf (ls : List (List (Bool × Nat))) : List Nat := (ls.flatten.filter (·.1)).map (·.2)

/-- The lowest offset of a list of offsets. -/
def lowest : List Nat → Option Nat
  | [] => none
  | x :: xs => match lowest xs with | none => some x | some y => some (Nat.min x y)

/-- Reserved argument ranges that hold a non-zero byte, by their first offset (R9, assumption log 13: DESIGN CHOICE, unsafe). -/
def reservedBreaches (e : Bytes) (rs : List (Nat × Nat)) : List Nat :=
  (rs.filter fun r => !allZero (slice e r.1 r.2)).map (·.1)

/-- How a segment list reads: its segments, and whether some segment has a non-zero reserved field, a misaligned
address, or breaks the rules of lengths (R57). -/
structure SegList where
  segs : List Seg := []
  rsvd : Bool := false
  align : Bool := false
  bad : Bool := false
  deriving DecidableEq, Repr

/-- Read segments until the running total reaches the buffer's length, at most `fuel` of them (R57). -/
def readSegs (m : Mem) (a : Nat) (left : Nat) : Nat → SegList
  | 0 => { bad := true }
  | fuel + 1 =>
    let b := memRead m a 16
    let addr := field b 0 8
    let len := field b 8 4
    let g : Seg := { addr := addr, len := len }
    let rsvd := field b 12 4 ≠ 0
    let align := addr % 4 ≠ 0
    if len = 0 ∨ left < len then { segs := [g], rsvd := rsvd, align := align, bad := true }
    else if len = left then { segs := [g], rsvd := rsvd, align := align }
    else
      let r := readSegs m (a + 16) (left - len) fuel
      { segs := g :: r.segs, rsvd := rsvd || r.rsvd, align := align || r.align, bad := r.bad }

/-- A used buffer as its segments: the one range itself, or its segment list (R56, R57). -/
def bufferSegs (m : Mem) (sgl : Bool) (addr len : Nat) : SegList :=
  if sgl then readSegs m addr len 256 else { segs := [{ addr := addr, len := len }] }

/-- The checks of one used buffer: fields of step 5 and of step 6, and of step 4 for its segments (R55 to R57). `off` is
the offset of its address field, `lenOff` that of its length field. -/
structure BufferChecks where
  four : List (Bool × Nat)
  five : List (Bool × Nat)
  six : List (Bool × Nat)
  deriving DecidableEq, Repr

/-- The checks of a used buffer; a segment list the host refuses is not looked into (step 7 answers it), and no segment belongs to
an empty buffer. Reserved bytes of a segment fall under step 4, its alignment under step 5, its lengths under step 6, and RESULT names
the field of the entry that the list serves: the address for the first two, the length for the third (assumption log 153: DESIGN CHOICE,
unsafe). -/
def bufferChecks (m : Mem) (refused sgl : Bool) (addr len off lenOff : Nat) : BufferChecks :=
  let l := bufferSegs m sgl addr len
  let look := sgl && !refused && len ≠ 0
  { four := [(look && l.rsvd, off)]
    five := [((if sgl then addr % 16 else addr % 4) ≠ 0, off), (look && l.align, off)]
    six := [(len = 0, lenOff), (look && l.bad, lenOff)] }

/-- What the data buffer of an entry holds, where its segment list, if it has one, could be read. -/
def State.entryData (s : State) (e : Bytes) (refused : Bool) : Bytes :=
  let sgl := bitAt (field e 1 1) 1
  if refused && sgl then []
  else (bufferSegs s.hostMem sgl (field e 16 8) (field e 24 4)).segs.flatMap fun x => memRead s.hostMem x.addr x.len

/-- The result of the checks of Table 2-7 from step 3 on: none when every check passes, else status and RESULT. Where the host refuses
one of a command's two segment lists, neither is looked into (assumption log 154: DESIGN CHOICE, unsafe). -/
def State.runChecks (s : State) (e : Bytes) (sp : OpSpec) (refused : Bool) : Option (Status × Nat) :=
  let hf := field e 1 1
  let dSgl := bitAt hf 1
  let rSgl := bitAt hf 2
  let d := bufferChecks s.hostMem refused dSgl (field e 16 8) (field e 24 4) 16 24
  let r := bufferChecks s.hostMem refused rSgl (field e 32 8) (field e 28 4) 32 28
  let unusedData : List (Bool × Nat) := [(dSgl, 1), (field e 16 8 ≠ 0, 16), (field e 24 4 ≠ 0, 24)]
  let unusedResult : List (Bool × Nat) := [(rSgl, 1), (field e 28 4 ≠ 0, 28), (field e 32 8 ≠ 0, 32)]
  let client := s.power.phase ≠ .recovery && !(s.sched.clients.getD (field e 8 2) {}).enabled
  let four := breachesOf
    [[(32 ≤ hf, 1), (field e 10 2 ≠ 0, 10), (client, 8)],
     if sp.data then d.four else if sp.dataLate then [] else unusedData,
     if sp.result then r.four else unusedResult, sp.bits4]
  let five := breachesOf
    [[(bitAt hf 3 && field e 12 4 = 0, 12)], if sp.data then d.five else [], if sp.result then r.five else [],
     sp.field5]
  let six := breachesOf [if sp.data then d.six else [], if sp.result then r.six else [], sp.length6]
  if sp.absent then some (.unitAbsent, 0)
  else match lowest (four ++ reservedBreaches e sp.reserved) with
  | some o => some (.invalidField, o)
  | none => match lowest five with
  | some o => some (.invalidField, o)
  | none => match lowest six with
  | some o => some (.invalidLength, o)
  | none =>
    if refused && ((sp.data && dSgl) || (sp.result && rSgl)) then some (.hostAccessFault, 0)
    else
      match sp.objects.find? (·.1) with
      | some o => some o.2
      | none =>
        if sp.closed then some (.unitClosed, 0) else none

/-- The deadline of a command has passed: more than DEADLINE ticks since its fetch, while deadlines apply (R61, R415;
assumption log 14: DEDUCED, unsafe). -/
def State.deadlinePassed (s : State) (e : Bytes) (fetchBt : Nat) : Bool :=
  bitAt (field e 1 1) 3 && !s.timeDegraded && fetchBt + field e 12 4 < s.bt

/-! ### Executing a command -/

/-- An admitted command names an object: it holds a version of it, or is an object command with its ID. -/
def Slot.names (c : Slot) (id : Nat) : Bool :=
  (c.pins.any fun p => p.1 = id) || (0x20 ≤ c.opcode && c.opcode ≤ 0x27 && c.arg 40 4 = id)

/-- The command changes a folio: FOLIO_APPEND or FOLIO_TRUNCATE. -/
def Slot.changesFolio (c : Slot) : Bool := c.opcode = 0x59 || c.opcode = 0x5C

/-- A command admitted earlier keeps this one waiting: both name a folio, and one of them changes it (R259, R261). -/
def State.folioWaits (s : State) (c : Slot) : Bool :=
  s.atr.slots.any fun d => d.order < c.order && d.phase ≠ .done
    && ((c.changesFolio && d.names (c.arg 40 4)) || (d.changesFolio && c.names (d.arg 40 4)))

/-- Take the step of the command in a slot: it has been handed to its path, has the opcode of the row, and the bytes of
its data buffer have arrived, its channel is not halted (R453), no command on a folio that it names is due before it (R261), and where it writes results, a port can carry them (R19, R409). Otherwise the step does not
occur (assumption log 1: DESIGN CHOICE, unsafe). -/
def State.runCmd (s : State) (id opcode : Nat) (writes : Bool) (f : Slot → State) : State :=
  match s.slot? id with
  | none => s
  | some c =>
    if c.phase = .handed && c.opcode = opcode && c.reads.isEmpty && c.toRead.isEmpty
        && !s.still && !s.haltedBy (.slot id) && !s.folioWaits c && (!writes || s.reachable (s.ringOf c.sq)) then f c
    else s

/-- The command in a slot executes on (R19). -/
def State.setWork (id : Nat) (w : Work) (s : State) : State :=
  s.updSlot id fun c => { c with phase := .running, work := w }

/-- Complete with `OK` and a result word. -/
def State.done (id result : Nat) (s : State) : State := s.finish id .ok result 0

/-- Complete with an error status and RESULT, with no side effect of the command. -/
def State.fail (id : Nat) (st : Status) (result : Nat) (s : State) : State := s.finish id st result 0

end Sys2Proof.Machine
end

