-- ==== Sys2Proof/Machine/Tier.lean ====
section
/-! DEFINITION. Objects, versions, pins, DRAM copies, references and the durable dirty total D (chapter 7). -/
namespace Sys2Proof.Machine

/-! ### Objects and versions (R195 to R197) -/

/-- The object of an ID, while its ID is not given up (R199). -/
def State.obj? (s : State) (id : Nat) : Option Obj := s.tiers.objects.find? fun o => o.id = id ∧ !o.gone

/-- Change an object. -/
def State.updObj (id : Nat) (f : Obj → Obj) (s : State) : State :=
  { s with tiers := { s.tiers with objects := updWhere (fun o => o.id = id) f s.tiers.objects } }

/-- The version of a number. -/
def Obj.ver? (o : Obj) (n : Nat) : Option Version := o.versions.find? (·.num = n)

/-- The CURRENT version. -/
def Obj.current? (o : Obj) : Option Version := o.versions.find? (·.state = .current)

/-- The BUILDING version. -/
def Obj.building? (o : Obj) : Option Version := o.versions.find? (·.state = .building)

/-- Change one version of an object. -/
def Obj.updVer (o : Obj) (n : Nat) (f : Version → Version) : Obj :=
  { o with versions := updWhere (fun v => v.num = n) f o.versions }

/-- Change one version of an object. -/
def State.updVer (id n : Nat) (f : Version → Version) (s : State) : State := s.updObj id fun o => o.updVer n f

/-- A version of an object, whatever its state and even where the ID is given up. -/
def State.version? (s : State) (id n : Nat) : Option Version :=
  match s.tiers.objects.find? (·.id = id) with
  | some o => o.ver? n
  | none => none

/-- The version a command names: 0 means the current one; a BUILDING version is named only by its number, and a
superseded or retiring one only while it is pinned (R195, R196). -/
def Obj.named? (o : Obj) (n : Nat) : Option Version :=
  if n = 0 then o.current?
  else match o.ver? n with
    | some v => match v.state with
      | .current | .building => some v
      | .superseded | .retiring => if 0 < v.pins then some v else none
    | none => none

/-- The version is RETIRED: it is SUPERSEDED or RETIRING, and nothing pins it (R196). -/
def Version.retired (v : Version) : Bool := (v.state = .superseded || v.state = .retiring) && v.pins = 0

/-- Versions that become RETIRED are dropped with their copies, references and moves (R196, R203). -/
def Obj.settle (o : Obj) : Obj :=
  let drops := fun n => o.versions.any fun v => v.num = n && v.retired
  { o with
    versions := o.versions.filter fun v => !v.retired
    copies := o.copies.filter fun c => !drops c.ver
    accesses := o.accesses.filter fun a => !drops a.ver
    refs := o.refs.filter fun r => !drops r.ver
    deferred := o.deferred.filter fun d => !drops d.ver
    slc := o.slc.filter fun x => !drops x.1, outDram := o.outDram.filter fun x => !drops x.1 }

/-- Copies and tracker entries of versions that are RETIRED are dropped (R289, R293). -/
def State.purgeHot (s : State) : State :=
  let live := fun id n : Nat => (s.version? id n).isSome
  { s with gather := { s.gather with
      copies := s.gather.copies.filter fun c => live c.table c.ver
      tracker := s.gather.tracker.filter fun t => live t.table t.ver } }

/-- Logical units whose home has gone are mapped no more, and no store of them is left (R196, R342). -/
def State.unmapHome (lun n : Nat) (s : State) : State :=
  let t := s.dropStores fun r => !r.item.isMaps && lun ≤ r.lun && r.lun < lun + n
  ((t.ftl.map.filter fun e => lun ≤ e.1 && e.1 < lun + n).map (·.1)).foldl (fun t u => t.setMap u 0) t

/-- The homes of an object's versions, as first unit and length. -/
def Obj.homes (o : Obj) : List (Nat × Nat) := o.versions.map fun v => (v.lun, v.homeUnits o.kind)

/-- Settle one object; an object given up whose last version went is freed, and so are the homes of the versions that went (R196,
R199). -/
def State.settleObj (id : Nat) (s : State) : State :=
  let homes := fun t : State => (t.tiers.objects.filter (·.id = id)).flatMap Obj.homes
  let t := s.updObj id Obj.settle
  let t := ((homes s).filter fun h => !(homes t).contains h).foldl (fun t h => t.unmapHome h.1 h.2) t
  ({ t with tiers := { t.tiers with
      objects := t.tiers.objects.filter fun o => !(o.id = id && o.gone && o.versions.isEmpty) } } : State).purgeHot

/-- A pin more on a version (R197). -/
def State.pin (p : Nat × Nat) (s : State) : State := s.updVer p.1 p.2 fun v => { v with pins := v.pins + 1 }

/-- A pin less on a version, which may become RETIRED (R196, R197). -/
def State.unpin (p : Nat × Nat) (s : State) : State :=
  (s.updVer p.1 p.2 fun v => { v with pins := v.pins - 1 }).settleObj p.1

/-- Pin every version of a list. -/
def State.pinAll (ps : List (Nat × Nat)) (s : State) : State := ps.foldl (fun t p => t.pin p) s

/-- Unpin every version of a list. -/
def State.unpinAll (ps : List (Nat × Nat)) (s : State) : State := ps.foldl (fun t p => t.unpin p) s

/-- Retire a version: RETIRING while it is pinned, RETIRED otherwise (R196, R199). -/
def State.retire (id n : Nat) (s : State) : State :=
  (s.updVer id n fun v => { v with state := .retiring }).settleObj id

/-- COMMIT: the BUILDING version becomes CURRENT and the current one SUPERSEDED, at once; a version in another state stays as it is
(R196, R197). -/
def State.commit (id n : Nat) (s : State) : State :=
  (s.updObj id fun o =>
    if o.versions.any fun v => v.num = n && v.state = .building then
      { o with versions := o.versions.map fun v =>
          if v.num = n then { v with state := .current, written := [] }
          else if v.state = .current then { v with state := .superseded } else v }
    else o).settleObj id

/-- The command holds a pin on the version it makes (R197). -/
def State.holdVersion (slot id n : Nat) (s : State) : State :=
  (s.pin (id, n)).updSlot slot fun c => { c with pins := c.pins ++ [(id, n)] }

/-- Logical-unit numbers for a home of `size` bytes (R341, assumption log 22: DESIGN CHOICE, unsafe). -/
def State.takeLuns (size : Nat) (s : State) : Nat × State :=
  (s.grade.units + s.tiers.nextLun, { s with tiers := { s.tiers with nextLun := s.tiers.nextLun + ceilDiv size 65536 } })

/-- First byte of an index version's accession list, behind its content. -/
def Version.listBase (v : Version) : Nat := ceilDiv v.size 65536 * 65536

/-- A new BUILDING version, reading as a copy of the current one (R195, R197). -/
def State.newVersion (id n : Nat) (s : State) : State :=
  match s.obj? id with
  | none => s
  | some o =>
    let (l, t) := s.takeLuns (homeBytes o.kind o.size)
    let v := match o.current? with
      | some c => { c with num := n, state := .building, lun := l, pins := 0, dirty := [], written := []
                           impaired := false, image := none, index := {}, data := c.data.filter fun b => b.1 < c.size }
      | none => { num := n, state := .building, lun := l, size := o.size }
    (t.updObj id fun o => { o with versions := o.versions ++ [v] }).fitSlc

/-! ### Units in DRAM and references (R182, R185, R200 to R205) -/

/-- The 64 KiB units a byte range touches. -/
def unitsOf (off n : Nat) : List Nat :=
  if n = 0 then [] else (List.range ((off + n - 1) / 65536 - off / 65536 + 1)).map (· + off / 65536)

/-- The 4 KiB pages a byte range touches. -/
def pagesOf (off n : Nat) : List Nat :=
  if n = 0 then [] else (List.range ((off + n - 1) / 4096 - off / 4096 + 1)).map (· + off / 4096)

/-- Some dirty page of the unit is held in DRAM. -/
def Obj.unitDirty (o : Obj) (n u : Nat) : Bool :=
  o.versions.any fun v => v.num = n && v.dirty.any fun p => p.page / 16 = u

/-- A DRAM copy of the unit exists: a clean copy, or a dirty page of it, or the object is homed in tier 1 and the unit has not left
DRAM. -/
def Obj.inDram (o : Obj) (n u : Nat) : Bool :=
  (o.tier = 1 && !o.outDram.contains (n, u)) || (o.copies.any fun c => c.ver = n && c.unit = u) || o.unitDirty n u

/-- Units of a version that belong to its content. -/
def Version.units (v : Version) : List Nat := List.range (ceilDiv v.size 65536)

/-- 64 KiB units of an object with a DRAM copy, all versions, as (version, unit) (Table 7-5). -/
def Obj.dramList (o : Obj) : List (Nat × Nat) :=
  let home := if o.tier = 1 then o.versions.flatMap fun v => (v.units.map fun u => (v.num, u)).filter fun x =>
    !o.outDram.contains x else []
  let clean := o.copies.map fun c => (c.ver, c.unit)
  let dirty := o.versions.flatMap fun v => v.dirty.map fun p => (v.num, p.page / 16)
  (home ++ clean ++ dirty).eraseDups

/-- How many there are. -/
def Obj.dramUnits (o : Obj) : Nat := o.dramList.length

/-- Bytes of a job's save areas and scratch, whose second copies are taken from DRAM tier capacity (R450). -/
def Job.saveArea (j : Job) : Nat := match j.image with | some g => g.saveBytes * j.need + g.scratchBytes | none => 0

/-- The fixed parts of `TIR_AREA` in MiB: mirror pools in service, gather staging, hot region, reduction work area and accumulate mirror
where the engine is present (R191, R287, R288, R314, R451). -/
def State.areaMib (s : State) : Nat → Nat
  | 1 => s.pools.foldl (· + ·) 0
  | 2 => 2048
  | 3 => 64 * s.gather.hotUnits
  | 4 => if s.grade.hasReduction then 3072 else 0
  | 5 => if s.grade.hasReduction then 2048 else 0
  | _ => 0

/-- Second copies of save areas and scratch of every job (R450). -/
def State.saveAreas (s : State) : Nat := (s.sched.jobs.map Job.saveArea).foldl (· + ·) 0

/-- DRAM left to objects, in 64 KiB units: 31 GB for each package in service, less the map carve-out, the areas of Table 22-6 and
withdrawn units (R18, R27, R456; assumption log 24: DESIGN CHOICE, unsafe). -/
def State.dramUnitsFree (s : State) : Nat :=
  let fixed := ((List.range 6).map s.areaMib).foldl (· + ·) 0
  ((s.inService .dram).length * 31000000000 - s.grade.carveMib * 1048576) / 65536 - fixed * 16 - ceilDiv s.saveAreas 65536
    - s.tiers.withdrawn

/-- DRAM units that objects hold. -/
def State.dramUnitsHeld (s : State) : Nat := (s.tiers.objects.map Obj.dramUnits).foldl (· + ·) 0

/-- Some reference or host pin holds the unit in the tier or in any tier when `t` is none. -/
def Obj.referenced (o : Obj) (n u : Nat) (t : Option Nat) : Bool :=
  o.refs.any fun r => r.ver = n && r.unit = u && (match t with | none => true | some x => r.tier = x)

/-- Another party than `who` refers to the unit. -/
def Obj.refByOther (o : Obj) (n u : Nat) (who : Holder) : Bool :=
  o.refs.any fun r => r.ver = n && r.unit = u && r.who ≠ who

/-! ### The durable dirty total (R208 to R211) -/

/-- Dirty pages of an object, all versions. -/
def Obj.dirtyPages (o : Obj) : Nat := (o.versions.map fun v => v.dirty.length).foldl (· + ·) 0

/-- Dirty pages counted in D (Table 7-7). -/
def State.dirtyCount (s : State) : Nat :=
  ((s.tiers.objects.filter (·.durable)).map Obj.dirtyPages).foldl (· + ·) 0
    + s.block.dirty.length + s.ftl.dirtyMaps.length

/-- D, `TIR_DIRTY_DURABLE` (R208). -/
def State.dirtyBytes (s : State) : Nat := 4096 * s.dirtyCount

/-- The throttle of Table 7-8: set at D ≥ B, kept until D < 0.9 B; the two-for-one credit lasts inside the band. -/
def State.throttle (s : State) : State :=
  let d := s.dirtyBytes
  let b := s.tiers.budget
  let st := b ≤ d || (s.tiers.stalled && 9 * b ≤ 10 * d)
  { s with tiers := { s.tiers with stalled := st, credit := if st || 10 * d < 9 * b then 0 else s.tiers.credit } }

/-- `n` bytes of durable dirty data are admitted now (Table 7-8). In write-through nothing is held back; a write larger than B itself
is admitted while D is below 0.9 B, and completes only on flash (R209, assumption log 26: DEDUCED, unsafe). -/
def State.admitsDirty (s : State) (n : Nat) : Bool :=
  let d := s.dirtyBytes
  let b := s.tiers.budget
  if s.tiers.writeThrough then true
  else if b ≤ d || (s.tiers.stalled && 9 * b ≤ 10 * d) then false
  else if 10 * d < 9 * b then b < n || d + n ≤ b
  else n ≤ s.tiers.credit

/-- Account for admitted bytes inside the two-for-one band. -/
def State.takeCredit (n : Nat) (s : State) : State :=
  ({ s with tiers := { s.tiers with credit := s.tiers.credit - n } } : State).throttle

/-- The object's pages are written through: the drive is write-through, the object's tier in vitrine mode is flash, or it
is a durable residual store, folio or index list larger than B/4 (R186, R209, R211). -/
def State.writesThrough (s : State) (o : Obj) : Bool :=
  (o.durable && s.tiers.writeThrough) || (s.tiers.vitrine && 2 ≤ o.tier)
    || (o.durable && (o.kind = 5 || o.kind = 6) && s.tiers.budget < 4 * o.size)

/-- The size R211 holds against B/4: that of a residual store or folio, and of an index the pages of its longest
accession list. -/
def Obj.rewriteSize (o : Obj) : Nat :=
  if o.kind = 5 || o.kind = 6 then o.size
  else ceilDiv ((o.versions.map Version.listBytes).foldl Nat.max 0) 4096 * 4096

/-- The write waits for its map deltas too, as it does in write-through and for an object of R211 larger than B/4 (R209, R211). -/
def State.journalsFirst (s : State) (o : Obj) : Bool :=
  o.durable && (s.tiers.writeThrough || s.tiers.budget < 4 * o.rewriteSize)

/-- The pages of a range as the write-back list names them. -/
def pageList (id n off len : Nat) : List (Nat × Nat × Nat) := (pagesOf off len).map fun p => (id, n, p)

/-- Mark pages for write-back (R210). -/
def State.startWriteback (ps : List (Nat × Nat × Nat)) (s : State) : State :=
  ps.foldl (fun t p => t.updVer p.1 p.2.1 fun v =>
    { v with dirty := updWhere (fun d => d.page = p.2.2) (fun d => { d with writing := true }) v.dirty }) s

/-! ### Copies, accesses and room in DRAM (R185, R200, R205) -/

/-- BT of the last access of a unit, as far as it is kept. -/
def Obj.lastAt (o : Obj) (n u : Nat) : Nat :=
  Nat.max (((o.copies.filter fun c => c.ver = n && c.unit = u).map (·.lastAccess)).foldl Nat.max 0)
    (((o.accesses.filter fun a => a.ver = n && a.unit = u).map (·.at_)).foldl Nat.max 0)

/-- The least recently accessed unit in DRAM without a reference, as (object, version, unit), but for those kept; a unit of an object
homed in tier 1 stays (R183, R185, R205). -/
def State.dramVictim? (s : State) (keep : List (Nat × Nat × Nat)) : Option (Nat × Nat × Nat) :=
  ((s.tiers.objects.flatMap fun o => (o.dramList.filter fun x => o.tier ≠ 1 && !(o.referenced x.1 x.2 none)
      && !(keep.contains (o.id, x.1, x.2))).map fun x => (o.lastAt x.1 x.2, o.id, x.1, x.2)).foldl
    (fun (best : Option (Nat × Nat × Nat × Nat)) x => some (match best with
      | some b => if x.1 < b.1 then x else b
      | none => x)) none).map (·.2)

/-- The pages of a unit. -/
def unitPages (id n u : Nat) : List (Nat × Nat × Nat) := (List.range 16).map fun i => (id, n, u * 16 + i)

/-- A clean copy of a unit is dropped. -/
def State.dropCopy (x : Nat × Nat × Nat) (s : State) : State :=
  s.updObj x.1 fun o => { o with copies := o.copies.filter fun c => !(c.ver = x.2.1 && c.unit = x.2.2) }

/-- Make room for `k` more units in DRAM, looking at no more than `fuel` victims: clean ones are dropped, dirty ones are written back
before their space is reused. False while the room is not there yet (R185, R205). -/
def State.makeRoom (keep : List (Nat × Nat × Nat)) : Nat → Nat → State → Bool × State
  | 0, k, s => (s.dramUnitsHeld + k ≤ s.dramUnitsFree, s)
  | fuel + 1, k, s =>
    if s.dramUnitsHeld + k ≤ s.dramUnitsFree then (true, s)
    else match s.dramVictim? keep with
      | none => (false, s)
      | some x =>
        let dirty := match s.tiers.objects.find? (·.id = x.1) with | some o => o.unitDirty x.2.1 x.2.2 | none => false
        if dirty then
          (false, (State.makeRoom (x :: keep) fuel (k - 1) (s.startWriteback (unitPages x.1 x.2.1 x.2.2))).2)
        else State.makeRoom keep fuel k (s.dropCopy x)

/-- The units of a list that DRAM does not hold. -/
def State.outside (s : State) (id n : Nat) (us : List Nat) : List Nat :=
  match s.tiers.objects.find? (·.id = id) with
  | some o => us.filter fun u => !o.inDram n u
  | none => []

/-- A unit takes its copy in DRAM, which counts as accessed now. -/
def Obj.putCopy (o : Obj) (n u now pkg : Nat) : Obj :=
  if o.tier = 1 && o.outDram.contains (n, u) then { o with outDram := o.outDram.filter (· ≠ (n, u)) }
  else if o.copies.any fun c => c.ver = n && c.unit = u then o
  else { o with copies := o.copies ++ [{ ver := n, unit := u, lastAccess := now, pkg := pkg }] }

/-- The package a clean copy goes to. -/
def State.copyHome (s : State) (id n u : Nat) : Nat :=
  match s.version? id n with
  | some v => homeOf s.grade.packages s.packages (pageHome (v.lun + u) 0)
  | none => 0

/-- Copy units into DRAM, all of them or none; false while there is no room, for which no unit of the list makes way (R205). -/
def State.copyUnits (id n : Nat) (us : List Nat) (s : State) : Bool × State :=
  let r := s.makeRoom (us.map fun u => (id, n, u)) s.dramUnitsHeld (s.outside id n us).length
  if r.1 then (true, us.foldl (fun t u => t.updObj id fun o => o.putCopy n u s.bt (s.copyHome id n u)) r.2) else r

/-- An access of a unit: its BT moves; the second within 1,000,000 BT copies the unit into DRAM where there is room (R185, Table 7-2;
assumption log 167: DEDUCED, unsafe). -/
def State.touchUnit (id n u : Nat) (s : State) : State :=
  match s.tiers.objects.find? (·.id = id) with
  | none => s
  | some o =>
    let hit := fun c : DramUnit => c.ver = n && c.unit = u
    if o.copies.any hit then
      s.updObj id fun o => { o with copies := updWhere hit (fun c => { c with lastAccess := s.bt }) o.copies }
    else
      let again := o.accesses.any fun a => a.ver = n && a.unit = u && s.bt ≤ a.at_ + 1000000
      let t := s.updObj id fun o => { o with accesses :=
        (o.accesses.filter fun a => !(a.ver = n && a.unit = u)) ++ [⟨n, u, s.bt⟩] }
      if again then (t.copyUnits id n [u]).2 else t

/-- A read or write of a range of a version (R185). -/
def State.touch (id n off len : Nat) (s : State) : State :=
  (unitsOf off len).foldl (fun t u => t.touchUnit id n u) s

/-! ### Writing to a version (R188, R197) -/

/-- A page becomes dirty at a place; one that is dirty already keeps its age, and one whose write-back is in progress is written back
again (R210, Table 7-10). -/
def putDirty (now p : Nat) (at_ : Place) (l : List DirtyPage) : List DirtyPage :=
  if l.any (·.page = p) then updWhere (·.page = p) (fun d => { d with writing := false, store := none, place := at_ }) l
  else l ++ [{ page := p, since := now, place := at_ }]

/-- A page of a version becomes dirty, in a durable object in two packages (R188). -/
def State.dirtyPage (id n p : Nat) (s : State) : State :=
  match s.tiers.objects.find? (·.id = id) with
  | none => s
  | some o => match o.ver? n with
    | none => s
    | some v =>
      let at_ := match v.dirty.find? (·.page = p) with
        | some d => s.keepPlace o.durable d.place
        | none => s.newPlace (pageHome v.lun p) o.durable
      s.updVer id n fun v => { v with dirty := putDirty s.bt p at_ v.dirty }

/-- Write bytes to a version: they are in DRAM, their pages dirty, lost pages written whole are lost no more, and the write is an
access (R185, R188, R197, R469). -/
def State.writeVersion (id n off : Nat) (bs : Bytes) (s : State) : State :=
  let ps := pagesOf off bs.length
  let whole := ps.filter fun p => off ≤ p * 4096 && p * 4096 + 4096 ≤ off + bs.length
  let t := s.updVer id n fun v =>
    { v with
      data := memWrite v.data off bs
      written := (v.written ++ ps).eraseDups
      lost := v.lost.filter fun p => !whole.contains p }
  ((ps.foldl (fun t p => t.dirtyPage id n p) t).touch id n off bs.length).throttle

/-- Map pages of the pages an object transfer has put on flash: the transfer ends when they are journalled, where its object is
written through under R209 (R209, R211). -/
def State.xferMaps (s : State) (j : Job) (x : Xfer) : List Nat :=
  match j.bindings[x.desc.dstSlot]? with
  | none => []
  | some b => match s.tiers.objects.find? (·.id = b.obj), s.version? b.obj b.ver with
    | some o, some v =>
      if s.journalsFirst o then ((pagesOf x.desc.dstOffset x.desc.length).map fun p => (v.lun + p / 16) / 1024).eraseDups else []
    | _, _ => []

/-- An ACCESSION completes: its entries, the last of which has SEQ `last`, become visible together, and the next of the index can
execute (R227, R229). -/
def State.accessionDone (c : Slot) (last : Nat) (s : State) : State :=
  if c.opcode = 0x41 then
    s.updObj (c.arg 40 4) fun o =>
      { o with
        accessing := none
        versions := updWhere (fun v : Version => v.state = .current)
          (fun v => { v with index := { v.index with committed := last } }) o.versions }
  else s

/-- Some BF16 code in the bytes is NaN or infinite (R77, R258). -/
def anyNanBf16 (b : Bytes) : Bool := (unpackElems 9 b (b.length / 2)).any isNanBf16

/-! ### Moves and evictions (R200, R203, R204) -/

/-- Units of an object homed in tier 2 (Table 7-5). -/
def Obj.slcUnits (o : Obj) : Nat :=
  if o.tier = 2 then (o.versions.map fun v => ceilDiv v.size 65536).foldl (· + ·) 0 - o.slc.length else o.slc.length

/-- The list of moved homes with the unit's home in tier 2 or in tier 3. -/
def Obj.setHome (o : Obj) (n u : Nat) (slc : Bool) : List (Nat × Nat) :=
  if o.inSlc n u = slc then o.slc
  else if o.slc.contains (n, u) then o.slc.filter (· ≠ (n, u)) else o.slc ++ [(n, u)]

/-- Move one unit down to a tier without looking at references: a clean DRAM copy is dropped, and a home moves between
the flash tiers (R200, R203). Dirty pages are marked for write-back first. -/
def State.moveDown (id n u tier : Nat) (s : State) : State :=
  let t := s.startWriteback (unitPages id n u)
  t.updObj id fun o =>
    { o with
      copies := if 2 ≤ tier then o.copies.filter fun c => !(c.ver = n && c.unit = u) else o.copies
      outDram := if 2 ≤ tier && o.tier = 1 then (o.outDram ++ [(n, u)]).eraseDups else o.outDram
      slc := if 2 ≤ tier then o.setHome n u (tier = 2) else o.slc }

/-- A unit whose home has come to tier 2 is brought there (R200, R357). -/
def State.bringHome (id n u : Nat) (s : State) : State :=
  match s.version? id n with
  | some v => s.rehome (v.lun + u)
  | none => s

/-- Evict a unit to a tier for a job or the host: deferred while another party refers to it (R204). -/
def State.evictUnit (who : Holder) (id n u tier : Nat) (s : State) : State :=
  match s.tiers.objects.find? (·.id = id) with
  | none => s
  | some o =>
    if o.refByOther n u who then
      s.updObj id fun o => { o with deferred :=
        (o.deferred.filter fun d => !(d.ver = n && d.unit = u)) ++ [⟨n, u, tier⟩] }
    else (s.moveDown id n u tier).bringHome id n u

/-- Drop references and carry out the deferred evictions whose reference count reached zero (R203, R204). -/
def State.dropRefs (p : Obj → Ref → Bool) (s : State) : State :=
  let t : State := { s with tiers := { s.tiers with
    objects := s.tiers.objects.map fun o => { o with refs := o.refs.filter fun r => !p o r } } }
  t.tiers.objects.foldl
    (fun t o =>
      (o.deferred.filter fun d => !(o.referenced d.ver d.unit none)).foldl
        (fun t d => ((t.moveDown o.id d.ver d.unit d.tier).bringHome o.id d.ver d.unit).updObj o.id fun o =>
          { o with deferred := removeFirst (· = d) o.deferred }) t) t

/-- A PROMOTE or PIN of units cancels their deferred evictions (R204). -/
def State.cancelEvicts (id n : Nat) (us : List Nat) (s : State) : State :=
  s.updObj id fun o => { o with deferred := o.deferred.filter fun d => !(d.ver = n && us.contains d.unit) }

/-- Bring units into a tier: DRAM takes copies, and tier 2 or 3 becomes their home. False where DRAM has no room for them yet (R203 to
R205). -/
def State.promoteUnits (id n tier : Nat) (us : List Nat) (s : State) : Bool × State :=
  let t := s.cancelEvicts id n us
  if tier = 1 then t.copyUnits id n us
  else (true, us.foldl (fun t u =>
    (t.updObj id fun o => { o with slc := o.setHome n u (tier = 2) }).bringHome id n u) t)

/-- Units of object homes in tier 2 on the whole drive, and the limit of 2 units of 36 MiB per die (R357). -/
def State.tier2Units (s : State) : Nat := (s.tiers.objects.map Obj.slcUnits).foldl (· + ·) 0

/-- The limit of R357 in 64 KiB units. -/
def State.tier2Limit (s : State) : Nat := 64 * s.grade.dies * 2 * 576

/-! ### Impaired versions (R468) -/

/-- A job holds a version through its program, a binding, or the internal use of its command's object (R468). -/
def State.jobHolds (s : State) (id n : Nat) (j : Job) : Bool :=
  j.state ≠ .ended && ((j.prog = id && j.progVer = n) || (j.bindings.any fun b => b.obj = id && b.ver = n)
    || (match s.slot? j.slot with | some c => c.pins.contains (id, n) | none => false))

/-- A version becomes impaired: one record, and every job that holds it stops at its next pause point (R468). -/
def State.impair (id n : Nat) (s : State) : State :=
  match s.version? id n with
  | none => s
  | some v =>
    let r : FaultRec := { seq := 0, cls := 0x08, response := 3, dataLost := true, objectId := id, version := n }
    if v.impaired then s.raise r
    else
      let t := (s.updVer id n fun v => { v with impaired := true }).raise r
      { t with sched := { t.sched with
          jobs := updWhere (s.jobHolds id n) (fun j => { j with stop := some .impaired }) t.sched.jobs } }

/-- Pages of a version that no source gives back: they are lost and read as zeros from then on, and the version is impaired, with one
record (R452, R453, R468). -/
def State.losePages (id n : Nat) (ps : List Nat) (s : State) : State :=
  if ps.isEmpty then s
  else (s.updVer id n fun v =>
    { v with
      lost := (ps.filter fun p => !v.lost.contains p) ++ v.lost, dirty := v.dirty.filter fun d => !ps.contains d.page
      data := ps.foldl (fun m p => memErase m (4096 * p) 4096) v.data }).impair id n

/-- A page of a version can not be recovered. -/
def State.losePage (id n p : Nat) (s : State) : State := s.losePages id n [p]

end Sys2Proof.Machine
end

