-- ==== Sys2Proof/Machine/Writeback.lean ====
section
/-! DEFINITION. Write-back of dirty pages and journalling of map pages: what is due, its stores on their way to flash, and what leaves D
when they count as written (R188, R199, R208 to R211, R345 to R349, R387). -/
namespace Sys2Proof.Machine

/-! ### What is to be written back (R188, R189, R210, R211, R439) -/

/-- Write-back is held to background windows while a DRAM package is hot (Table 16-9), and waits while its channel is halted
(R453). -/
def State.writebackHeld (s : State) : Bool :=
  (s.power.hotDram && s.ftl.windowEnd ≤ s.bt) || s.haltedBy .drive || s.still

/-- Every durable dirty page is being written back: the forced bands, write-through, a clean shutdown, and before a
holdup measurement until D is 0.25 GiB below B (R209, R210, R431, R439). -/
def State.forcedWriteback (s : State) : Bool :=
  s.tiers.writeThrough || 3 * s.tiers.budget ≤ 4 * s.dirtyBytes || s.power.state = .shuttingDown
    || (s.tiers.holdBack && s.tiers.budget < s.dirtyBytes + 268435456)

/-- A waiting command lists the page. -/
def State.pageWanted (s : State) (p : Nat × Nat × Nat) : Bool :=
  s.atr.slots.any fun c => match c.work with | .flush w => w.pages.contains p | _ => false

/-- A waiting command lists the block. -/
def State.blockWanted (s : State) (b : Nat) : Bool :=
  s.atr.slots.any fun c => match c.work with | .flush w => w.blocks.contains b | _ => false

/-- A waiting command or transfer lists the map page. -/
def State.mapWanted (s : State) (m : Nat) : Bool :=
  (s.atr.slots.any fun c => match c.work with | .flush w => w.journal && w.maps.contains m | _ => false)
    || s.sched.jobs.any fun j => j.xfers.any fun x => x.written && (s.xferMaps j x).contains m

/-- The page is to be written back now: it is marked, a waiting command lists it, or it is durable and write-back is forced, its
object is one that R211 writes through, or no pool has its mirror; at shutdown every page is (R188, R189, R210, R211, R439). -/
def State.dueNow (s : State) (o : Obj) (v : Version) (d : DirtyPage) : Bool :=
  d.writing || s.pageWanted (o.id, v.num, d.page) || s.power.state = .shuttingDown
    || (o.durable && (s.forcedWriteback || s.tiers.budget < 4 * o.rewriteSize || d.place.mirror.isNone))

/-- The block is to be written back now. -/
def State.blockDue (s : State) (b : DirtyBlock) : Bool :=
  b.writing || s.forcedWriteback || b.place.mirror.isNone || s.blockWanted b.block

/-- A unit to be written back: of an object version, or of the block range, with the BT of its first change. -/
inductive DirtyItem where
  | page (since id ver unit : Nat)
  | block (since unit : Nat)
  deriving DecidableEq, Repr

/-- BT of the first change. -/
def DirtyItem.since : DirtyItem → Nat
  | .page t _ _ _ => t
  | .block t _ => t

/-- The same unit. -/
def DirtyItem.same : DirtyItem → DirtyItem → Bool
  | .page _ i n u, .page _ j m w => i = j && n = m && u = w
  | .block _ u, .block _ w => u = w
  | _, _ => false

/-- Insert by age, oldest first, keeping the order of equals. -/
def insertItem (x : DirtyItem) : List DirtyItem → List DirtyItem
  | [] => [x]
  | y :: ys => if x.since < y.since then x :: y :: ys else y :: insertItem x ys

/-- Oldest first, each unit once, by the BT of its first change (R210). -/
def sortItems (l : List DirtyItem) : List DirtyItem :=
  (l.foldl (fun acc x => insertItem x acc) []).foldl (fun acc x => if acc.any (·.same x) then acc else acc ++ [x]) []

/-- Units whose write-back is due and not under way (R210). -/
def State.writebackItems (s : State) : List DirtyItem :=
  let pages := s.tiers.objects.flatMap fun o => o.versions.flatMap fun v =>
    (v.dirty.filter fun d => d.store.isNone && s.dueNow o v d).map fun d => DirtyItem.page d.since o.id v.num (d.page / 16)
  let blocks := (s.block.dirty.filter fun b => b.store.isNone && s.blockDue b).map fun b => DirtyItem.block b.since (b.block / 16)
  sortItems (pages ++ blocks)

/-! ### Stores (R345, R346, R353) -/

/-- Every dirty page of a unit goes with its store: a unit is stored whole (R346). -/
def State.storePages (id n u : Nat) (s : State) : State :=
  match s.version? id n with
  | none => s
  | some v =>
    if s.inFlight (v.lun + u) then s
    else
      let r := s.storeHost (.object id n u) (v.lun + u) (memRead v.data (u * 65536) 65536)
      match r.1 with
      | none => r.2
      | some q => r.2.updVer id n fun v =>
          { v with dirty := updWhere (fun d => d.page / 16 = u) (fun d => { d with store := some q.id }) v.dirty }

/-- Every dirty block of a unit goes with its store. -/
def State.storeBlocks (u : Nat) (s : State) : State :=
  if s.inFlight u then s
  else
    let r := s.storeHost (.block u) u (memRead s.block.data (u * 65536) 65536)
    match r.1 with
    | none => r.2
    | some q =>
      let set := fun d : DirtyBlock => { d with store := some q.id }
      { r.2 with block := { r.2.block with dirty := updWhere (fun d => d.block / 16 = u) set r.2.block.dirty } }

/-- Start the write-back of one unit. -/
def State.storeDirty (x : DirtyItem) (s : State) : State :=
  match x with
  | .page _ id n u => s.storePages id n u
  | .block _ u => s.storeBlocks u

/-! ### The MAP stream (R347, R387) -/

/-- The 4 KiB of a map page: its 1,024 entries (R342, R347). -/
def State.mapBytes (s : State) (m : Nat) : Bytes := (List.range 1024).flatMap fun i => leBytes 4 (s.mapEntry (m * 1024 + i))

/-- Entries of a list that a map page holds. -/
def entriesOf (m : Nat) (l : List (Nat × Nat)) : List (Nat × Nat) := l.filter fun e => e.1 / 1024 = m

/-- Queue a slot of the MAP stream with these pages as they stand (R347); `atomics` are the atomic writes it installs. -/
def State.storeMaps (ms atomics : List Nat) (s : State) : State :=
  let g := s.someGroup
  let entries := ms.flatMap fun m => entriesOf m s.ftl.map
  let r := g.2.sendUnit .foreground (.maps ms entries atomics) g.1 2 true (ms.headD 0) (ms.flatMap s.mapBytes) false
  match r.1 with
  | none => r.2
  | some q =>
    let set := fun d : DirtyMap => { d with store := some q.id }
    { r.2 with ftl := { r.2.ftl with
      dirtyMaps := updWhere (fun d => ms.contains d.page) set r.2.ftl.dirtyMaps, mapBytes := r.2.ftl.mapBytes + 65536 } }

/-- The dirty map pages the next MAP-stream slot takes: at most 16, oldest first, those at 1,000,000 BT, those waited for,
and every one while write-back is forced (R347, R210). -/
def State.mapSlot (s : State) : List Nat :=
  ((s.ftl.dirtyMaps.filter fun m => m.store.isNone &&
      (m.writing || s.elapsed m.since 1000000 || s.forcedWriteback || s.mapWanted m.page)).map (·.page)).take 16

/-! ### Atomic writes (R386 to R388) -/

/-- Dirty blocks of an atomic write. -/
def State.atomicBlocks (s : State) (id : Nat) : List DirtyBlock := s.block.dirty.filter fun b => b.atomic = some id

/-- Every unit of the write counts as written, with its blocks as they stand (R353, R387). -/
def State.atomicStored (s : State) (id : Nat) : Bool :=
  (s.atomicBlocks id).all fun b => match b.store with
    | some q => s.ftl.stores.any fun r => r.id = q && r.written
    | none => false

/-- Atomic writes that share a unit with one of these. -/
def State.atomicsWith (s : State) (ids : List Nat) : List Nat :=
  let us := ids.flatMap fun i => (s.atomicBlocks i).map (·.block / 16)
  (ids ++ (s.block.dirty.filter fun b => us.contains (b.block / 16)).filterMap (·.atomic)).eraseDups

/-- Atomic writes whose map changes are installed together, because their units cannot be told apart in flash. -/
def State.atomicsLinked (s : State) : Nat → List Nat → List Nat
  | 0, ids => ids
  | k + 1, ids => State.atomicsLinked s k (s.atomicsWith ids)

/-- The map changes of an atomic write are installed in one MAP-stream slot, once each of its units is written (R387). -/
def State.installAtomic (id : Nat) (s : State) : State :=
  let ids := s.atomicsLinked s.block.atomics.length [id]
  if (s.block.atomics.any fun a => a.id = id && a.installing) || !(ids.all s.atomicStored) then s
  else
    let us := (ids.flatMap fun i => (s.atomicBlocks i).map (·.block / 16)).eraseDups
    let t := us.foldl (fun t u => match t.ftl.stores.find? fun r => r.item = .block u with
      | some r => t.setMap u (t.storeLocation r)
      | none => t) s
    let set := fun a : AtomicWrite => { a with installing := true }
    if us.isEmpty then { s with block := { s.block with atomics := s.block.atomics.filter fun a => !ids.contains a.id } }
    else
    let t : State := { t with block := { t.block with atomics := updWhere (fun a => ids.contains a.id) set t.block.atomics } }
    t.storeMaps (us.map (· / 1024)).eraseDups ids

/-- Atomic writes that can be installed are. -/
def State.installAtomics (s : State) : State := (s.block.atomics.map (·.id)).foldl (fun t i => t.installAtomic i) s

/-! ### Waiting commands (R199) -/

/-- A page of an object is on flash: it leaves the list, and its map page joins it while that is dirty. -/
def FlushWork.page (p : Nat × Nat × Nat) (m : Option Nat) (w : FlushWork) : FlushWork :=
  if w.pages.contains p then { w with pages := w.pages.filter (· ≠ p), maps := (m.toList ++ w.maps).eraseDups } else w

/-- A block is on flash: it leaves the list, and its map page joins it while that is dirty. -/
def FlushWork.block (b : Nat) (m : Option Nat) (w : FlushWork) : FlushWork :=
  if w.blocks.contains b then { w with blocks := w.blocks.filter (· ≠ b), maps := (m.toList ++ w.maps).eraseDups } else w

/-- A map page is journalled. -/
def FlushWork.map (m : Nat) (w : FlushWork) : FlushWork := { w with maps := w.maps.filter (· ≠ m) }

/-- Nothing is left to wait for. -/
def FlushWork.ended (w : FlushWork) : Bool :=
  w.pages.isEmpty && w.blocks.isEmpty && w.moves.isEmpty && (w.maps.isEmpty || !w.journal)

/-- Change what every waiting command waits for. -/
def State.updFlushes (f : FlushWork → FlushWork) (s : State) : State :=
  { s with atr := { s.atr with slots := s.atr.slots.map fun c => match c.work with
    | .flush w => { c with work := .flush (f w) }
    | _ => c } }

/-- The map page of a logical unit, while it is dirty. -/
def State.dirtyMapOf (s : State) (lun : Nat) : Option Nat :=
  if s.ftl.dirtyMaps.any (·.page = lun / 1024) then some (lun / 1024) else none

/-- `n` pages written back admit half as many in the band of 0.9 B (Table 7-8). -/
def State.earnCredit (n : Nat) (s : State) : State :=
  { s with tiers := { s.tiers with credit := s.tiers.credit + 2048 * n } }

/-! ### What counts as written leaves D (R192, R208, R347, R353) -/

/-- The pages a store carries leave D; they are dirty still where they have been written since. -/
def State.retirePages (r : StoreRec) (id n : Nat) (s : State) : State :=
  match s.version? id n with
  | none => s
  | some v =>
    let gone := (v.dirty.filter fun d => d.store = some r.id).map (·.page)
    let t := s.updVer id n fun v => { v with dirty := v.dirty.filter fun d => d.store ≠ some r.id }
    (gone.foldl (fun t p => t.updFlushes (FlushWork.page (id, n, p) (t.dirtyMapOf r.lun))) t).earnCredit gone.length

/-- Blocks leave D. -/
def State.retireBlocks (p : DirtyBlock → Bool) (s : State) : State :=
  let gone := (s.block.dirty.filter p).map (·.block)
  let t : State := { s with block := { s.block with dirty := s.block.dirty.filter fun d => !p d } }
  (gone.foldl (fun t b => t.updFlushes (FlushWork.block b (t.dirtyMapOf (b / 16)))) t).earnCredit gone.length

/-- The slot of map pages is on flash: the pages that have not changed since leave D, the directory names the slot, and the atomic writes
it installs are complete (R347, R348, R387). -/
def State.retireMaps (r : StoreRec) (ms : List Nat) (entries : List (Nat × Nat)) (atomics : List Nat) (s : State) : State :=
  let loc := s.storeLocation r
  let gone := (s.ftl.dirtyMaps.filter fun d => d.store = some r.id).map (·.page)
  let flash := entries.foldl (fun l e => putPair e.1 e.2 l) (s.ftl.flashMap.filter fun e => !ms.contains (e.1 / 1024))
  let t : State := { s with ftl := { s.ftl with
    dirtyMaps := s.ftl.dirtyMaps.filter fun d => d.store ≠ some r.id
    directory := (ms.mapIdx fun i m => (i, m)).foldl (fun l x => putPair x.2 (loc * 16 + x.1) l) s.ftl.directory
    flashMap := flash } }
  let t := (gone.foldl (fun t m => t.updFlushes (FlushWork.map m)) t).earnCredit gone.length
  let t := t.retireBlocks fun d => d.store.isSome && match d.atomic with | some i => atomics.contains i | none => false
  let t : State := { t with block := { t.block with atomics := t.block.atomics.filter fun a => !atomics.contains a.id } }
  t.dropStores fun q => match q.item with
    | .block _ => q.written && !(t.block.dirty.any fun d => d.store = some q.id)
    | _ => false

/-- The store carries blocks of an atomic write, whose map changes are still to be installed. -/
def State.heldAtomic (s : State) (id u : Nat) : Bool :=
  s.block.dirty.any fun d => d.block / 16 = u && d.store = some id && d.atomic.isSome

/-- A store that counts as written is done with. Of a unit of an atomic write nothing leaves D before the slot of R387. -/
def State.retireStore (r : StoreRec) (s : State) : State :=
  match r.item with
  | .object id n _ => (s.dropStores (·.id = r.id)).retirePages r id n
  | .block u =>
    if s.heldAtomic r.id u then s
    else (s.dropStores (·.id = r.id)).retireBlocks fun d => d.store = some r.id
  | .move _ => s.dropStores (·.id = r.id)
  | .maps ms es as_ => (s.dropStores (·.id = r.id)).retireMaps r ms es as_

/-- A unit of D: of an object or the block range. -/
def StoreItem.isData : StoreItem → Bool
  | .object _ _ _ | .block _ => true
  | _ => false

/-- Moves and map slots that count as written are done with at once; data units with the WRITEBACK_END that ends their write-back
(R347, R353, R364). -/
def State.retireMoves (s : State) : State :=
  let t := s.noteWritten
  (t.ftl.stores.filter fun r => r.written && !r.item.isData).foldl (fun t r => t.retireStore r) t

/-- The write-back of the `count` units stored first that count as written ends (R210). -/
def State.retireData (count : Nat) (s : State) : State :=
  let t := s.noteWritten
  ((t.ftl.stores.filter fun r => r.written && r.item.isData && match r.item with
    | .block u => !(t.heldAtomic r.id u)
    | _ => true).take count).foldl (fun t r => t.retireStore r) t

/-! ### Closing what others wait for (R351, R353) -/

/-- Something waits for the store to count as written: a command or transfer, a forced write-back, a reclamation below 24 free units, or the
shutdown (assumption log 21: DESIGN CHOICE, unsafe). -/
def State.pressed (s : State) (r : StoreRec) : Bool :=
  s.forcedWriteback || match r.item with
    | .object id n u => (List.range 16).any fun i => s.pageWanted (id, n, u * 16 + i)
    | .block u => ((List.range 16).any fun i => s.blockWanted (u * 16 + i)) || s.block.atomics.any fun a =>
        a.first / 16 ≤ u && u ≤ (a.first + a.count - 1) / 16
    | .move src => (match s.locate src with
        | some (d, u, _) => decide (s.freeCount d < 24) || (s.eunit d u).failing
        | none => false) || s.atr.slots.any fun c => match c.work with | .flush w => w.moves.contains r.lun | _ => false
    | .maps ms _ as_ => !as_.isEmpty || (ms.any s.mapWanted) || s.flash.units.any fun e => match e.waitMaps with
        | some ws => ms.any ws.contains
        | none => false

/-- The set holds a store that something waits for, and no program of it is queued. -/
def State.waitsOn (s : State) (o : OpenSet) : Bool :=
  !((s.setUnits o).any fun e => 0 < s.queuedPrograms e.die e.unit) &&
    s.ftl.stores.any fun r => !r.written && (r.slots.any fun x => x.gen = o.gen) && s.pressed r

/-- Open units that such stores wait for are closed, so that their rows get their parity and their wordlines are complete (R351;
assumption log 21: DESIGN CHOICE, unsafe). -/
def State.closeWaiting (s : State) : State :=
  (s.ftl.opens.filter fun o => !o.closing && s.waitsOn o).foldl (fun t o => t.updSet o.gen fun o => { o with closing := true }) s

/-- What Flash translation does after an event of the array: stores that found no unit, sets to be closed, parity, and what counts as
written (R324, R351, R353). -/
def State.serveFlash (s : State) : State :=
  if s.still then s
  else (s.retryStores.closeWaiting.closeSets.issueParity.retireMoves.installAtomics.settleCheckpoint.checkpointDue).eraseReclaimed

/-- Start the write-back of every unit that is due, oldest first (R210). -/
def State.issueStores (s : State) : State :=
  if s.writebackHeld then s
  else (s.writebackItems.foldl (fun t x => t.storeDirty x) s).serveFlash

/-! ### Completing writes (R188, R199, R209, R210) -/

/-- Pages of a list that are dirty now. -/
def State.stillDirty (s : State) (ps : List (Nat × Nat × Nat)) : List (Nat × Nat × Nat) :=
  ps.filter fun p => match s.version? p.1 p.2.1 with
    | some v => v.dirty.any (·.page = p.2.2)
    | none => false

/-- The command waits until the pages and blocks are on flash, and with `journal` the map pages too; with nothing to wait
for it completes (R188, R199, R209, R383). Their write-back starts. -/
def State.awaitFlash (id : Nat) (ps : List (Nat × Nat × Nat)) (bs maps : List Nat) (journal : Bool) (result : Nat)
    (s : State) : State :=
  let ps := s.stillDirty ps
  if ps.isEmpty && bs.isEmpty && (maps.isEmpty || !journal) then s.done id result
  else ((s.startWriteback ps).setWork id
    (.flush { pages := ps, blocks := bs, maps := maps, journal := journal, result := result })).issueStores

/-- The command waits until pages are on flash and logical units have moved; with nothing to wait for it completes (R199, R200). -/
def State.awaitMoves (id : Nat) (ps : List (Nat × Nat × Nat)) (luns : List Nat) (s : State) : State :=
  let ps := s.stillDirty ps
  let ms := luns.filter s.inFlight
  if ps.isEmpty && ms.isEmpty then s.done id 0
  else ((s.startWriteback ps).setWork id (.flush { pages := ps, moves := ms })).issueStores

/-- The page lies in one package only: no pool had room for its mirror. -/
def State.unmirrored (s : State) (p : Nat × Nat × Nat) : Bool :=
  match s.version? p.1 p.2.1 with
  | some v => v.dirty.any fun d => d.page = p.2.2 && d.place.mirror.isNone
  | none => false

/-- Complete a write of pages: at once when they are in DRAM twice, or once on flash with FORCE, when the object is written through, and
where the write is larger than B or a durable page of it has no mirror (R188, R209, R210; assumption log 26: DEDUCED, unsafe). -/
def State.ackWrite (id : Nat) (o : Obj) (force : Bool) (ps : List (Nat × Nat × Nat)) (result : Nat) (s : State) :
    State :=
  if force || s.writesThrough o || (o.durable && (s.tiers.budget < 4096 * ps.length || ps.any s.unmirrored)) then
    s.awaitFlash id ps [] [] (s.journalsFirst o) result
  else (s.done id result).issueStores

/-- The tokens of an append that is written through are on flash, and its header with the new TOKENS is still to be written:
it is written, and the command waits for its page (R259). -/
def State.folioHeader (c : Slot) (tokens : Nat) (journal : Bool) (s : State) : Option State :=
  match c.opcode, c.pins with
  | 0x59, p :: _ => match s.version? p.1 p.2 with
    | none => none
    | some v =>
      if leNat (memRead v.data 20 4) = tokens then none
      else
        let b := leNat (memRead v.data 10 1)
        let b := if anyNanBf16 (s.dataBytes c) && !bitAt b 3 then b + 8 else b
        let t := (s.writeVersion p.1 p.2 20 (leBytes 4 tokens)).writeVersion p.1 p.2 10 (leBytes 1 b)
        some (t.awaitFlash c.id [(p.1, p.2, 0)] [] [] journal tokens)
  | _, _ => none

/-- A durable dirty page that reaches 1,000,000 BT is queued for write-back (R210, Table 7-8). -/
def execWritebackAge (s : State) : Host.Outcome State Fault Refusal :=
  .next (
    let old := fun since => s.elapsed since 1000000
    let age := fun v : Version =>
      { v with dirty := updWhere (fun d : DirtyPage => old d.since) (fun d => { d with writing := true }) v.dirty }
    let objs := updWhere (fun o : Obj => o.durable) (fun o => { o with versions := o.versions.map age }) s.tiers.objects
    let blocks := updWhere (fun b : DirtyBlock => old b.since) (fun b => { b with writing := true }) s.block.dirty
    ({ s with tiers := { s.tiers with objects := objs }, block := { s.block with dirty := blocks } } : State).issueStores)

end Sys2Proof.Machine
end

