-- ==== Sys2Proof/Machine/Job.lean ====
section
/-! DEFINITION. Jobs: clusters, charging, traps, pause state, restore and replay (chapter 5, chapter 6, R457, R458). -/
namespace Sys2Proof.Machine

/-! ### Finding and changing parts of a job -/

/-- The job of a number. -/
def State.job? (s : State) (id : Nat) : Option Job := s.sched.jobs.find? (·.id = id)

/-- Change a job. -/
def State.updJob (id : Nat) (f : Job → Job) (s : State) : State :=
  { s with sched := { s.sched with jobs := updWhere (fun j => j.id = id) f s.sched.jobs } }

/-- Change a client. -/
def State.updClient (n : Nat) (f : Client → Client) (s : State) : State :=
  { s with sched := { s.sched with clients := updAt n f s.sched.clients } }

/-- A cluster store by physical cluster (R125). -/
def State.store (s : State) (phys : Nat) : Mem := s.sched.stores.getD phys []

/-- Change a cluster store. -/
def State.updStore (phys : Nat) (f : Mem → Mem) (s : State) : State :=
  { s with sched := { s.sched with stores := updAt phys f s.sched.stores } }

/-- Change a job-relative cluster of a job. -/
def State.updCluster (id c : Nat) (f : JobCluster → JobCluster) (s : State) : State :=
  s.updJob id fun j => { j with clusters := updAt c f j.clusters }

/-- Change a thread of a job. -/
def State.updThread (h : Thr) (f : Thread → Thread) (s : State) : State :=
  s.updCluster h.job h.cluster fun c => { c with threads := updAt h.thread f c.threads }

/-- A thread of a job, and the physical cluster it runs on. -/
def State.thread? (s : State) (h : Thr) : Option (Nat × Thread) :=
  match s.job? h.job with
  | some j => match j.clusters[h.cluster]? with
    | some c => match c.threads[h.thread]? with
      | some t => some (c.phys, t)
      | none => none
    | none => none
  | none => none

/-- The physical cluster that is a job's cluster `c`. -/
def Job.phys (j : Job) (c : Nat) : Nat := match j.clusters[c]? with | some k => k.phys | none => 0

/-- The size of a cluster store (R125). -/
def storeSize : Nat := 0x600000

/-- Engine `e` of a cluster. -/
def JobCluster.engine (c : JobCluster) (e : Nat) : Engine := c.engines.getD e {}

/-- Change an engine. -/
def State.updEngine (e : Eng) (f : Engine → Engine) (s : State) : State :=
  s.updCluster e.job e.cluster fun c => { c with engines := updAt e.engine f c.engines }

/-- Tile `t` of an engine. -/
def Engine.tile (e : Engine) (t : Nat) : Tile := if t = 0 then e.tile0 else e.tile1

/-- Change a tile. -/
def Engine.setTile (e : Engine) (t : Nat) (v : Tile) : Engine := if t = 0 then { e with tile0 := v } else { e with tile1 := v }

/-- The image's conversion record of an index. -/
def Job.conv? (j : Job) (i : Nat) : Option ConvRec := match j.image with | some g => g.convs[i]? | none => none

/-- A record's conversions go to its WIDE format: it is monitored and its layer is being, or has been, re-run (R100). -/
def Job.isWide (j : Job) (r : ConvRec) : Bool := r.monitor && j.wide.contains r.layer

/-- The pause-point entry of an index. -/
def Job.pause? (j : Job) (n : Nat) : Option PauseEntry := match j.image with | some g => g.pauses[n]? | none => none

/-- The code region of the job's image: its offset and its length (R149). -/
def Job.codeRegion (j : Job) : Nat × Nat := match j.image with | some g => (g.codeAux, g.code.length) | none => (0, 0)

/-- A range of a store meets the code region. -/
def Job.meetsCode (j : Job) (off n : Nat) : Bool := rangesHit off n j.codeRegion.1 j.codeRegion.2
where
  /-- Two ranges, the first not empty, have a byte in common. -/
  rangesHit (a n b m : Nat) : Bool := decide (a < b + m) && decide (b < a + n)

/-- A range of a store meets the STORE_LIVE range of the last pause point (R145). -/
def Job.meetsLive (j : Job) (off n : Nat) : Bool :=
  match j.save with
  | some v => match j.pause? v.index with
    | some e => decide (0 < e.storeLen) && decide (off < e.storeBase + e.storeLen) && decide (e.storeBase < off + n)
    | none => false
  | none => false

/-! ### Charging (R160, R161, R118, R178) -/

/-- Cycles of every 16 in which the engines issue (R118, R478). -/
def State.issueRate (s : State) : Nat := 16 - Nat.min 15 (Nat.max s.power.thermalCut s.power.governorCut)

/-- `post_charge` of R161, with the client's cycle counter. -/
def Client.post (c : Client) (charge : Nat) : Client :=
  let total := charge + c.rem
  { c with vtime := sat64 (c.vtime + total / c.weight), rem := total % c.weight, cycles := sat64 (c.cycles + charge) }

/-- Post a running job's charge up to an ARITH cycle (R160, R161). -/
def State.chargeJob (id cyc : Nat) (s : State) : State :=
  match s.job? id with
  | none => s
  | some j =>
    if j.state ≠ .running then s
    else
      let n := 4 * j.clusters.length * (cyc - j.chargedTo)
      (s.updJob id fun j => { j with cycles := j.cycles + n, chargedTo := Nat.max j.chargedTo cyc }).updClient j.client
        fun c => c.post n

/-- The ARITH cycle inside the current BT that an event carries. -/
def State.cycleAt (s : State) (cycle : Nat) : Nat := s.clk.cycle + cycle % 600

/-- The ARITH cycle inside the current BT of an event whose step carries none: a free value (R160, assumption log 36: DESIGN CHOICE,
safe). -/
def State.eventCycle (s : State) : Nat × State :=
  let (k, t) := s.takeFree
  (s.cycleAt (Config.eventCycle k), t)

/-! ### The multicast tree (R120) -/

/-- Streams of the tree now (R120). -/
def State.treeStreams (s : State) : Nat :=
  (s.sched.jobs.map fun j => (j.streams.filter fun t => t.live && !t.ended).length).foldl (· + ·) 0

/-- The first set-up that waits enters the tree (R120). Jobs are looked at in order of their numbers (assumption log 43: DEDUCED, unsafe). -/
def admitStream : List Job → List Job
  | [] => []
  | j :: js =>
    if j.streams.any fun t => !t.live then { j with streams := wakeFirst j.streams } :: js else j :: admitStream js
where
  /-- Make the first waiting stream live. -/
  wakeFirst : List Stream → List Stream
    | [] => []
    | t :: ts => if t.live then t :: wakeFirst ts else { t with live := true } :: ts

/-- Set-ups that wait enter the tree while it holds fewer than 64 streams, at most `fuel` of them. -/
def State.fillTreeN : Nat → State → State
  | 0, s => s
  | k + 1, s =>
    if s.treeStreams < 64 then State.fillTreeN k { s with sched := { s.sched with jobs := admitStream s.sched.jobs } } else s

/-- Streams have ended: set-ups that wait take their places (R120). -/
def State.fillTree (s : State) : State := s.fillTreeN 64

/-! ### Clusters given up (R26, R27, R29) -/

/-- Clusters that are DRAINING and hold no job reach CLOSED; vacated numbers that wait are taken (R26, R29). -/
def State.closeIdle (s : State) : State :=
  let t := s.settleNumbers
  let idle := t.units.filter fun u => u.kind = .cluster ∧ u.state = .draining ∧ !t.clusterHeld u.phys
  (idle.foldl (fun t u => t.closed .cluster u.phys) t).settleNumbers

/-- A job releases its clusters, its charge posted to the cycle (R160, R161). -/
def State.releaseClusters (id cyc : Nat) (s : State) : State :=
  ((s.chargeJob id cyc).updJob id fun j => { j with clusters := [], streams := [], state := .waiting }).closeIdle.fillTree

/-! ### Stops, traps and signals (R127, R128, R147, R156) -/

/-- An operation of an engine is in flight, so that it runs to its end though its job stops: a pass with a k-step issued, a
drain, accumulator load or input load that has begun (R110, R147). -/
def EngOp.inFlight (o : EngOp) : Bool := if o.kind = .pass then o.started && 0 < o.group else o.started

/-- Stop every thread of a job and drop what has not begun (R147 steps 1 and 2). -/
def Job.halt (j : Job) : Job :=
  { j with
    clusters := j.clusters.map fun c =>
      { c with
        threads := c.threads.map fun t => if t.st = .exited then t else { t with st := .stopped }
        engines := c.engines.map fun e => { e with ops := e.ops.filter EngOp.inFlight } }
    streams := j.streams.filter (·.live)
    marked := false }

/-- The job is to end with an error status once what is in flight has ended. The first reason governs. -/
def Job.endWith (st : Status) (j : Job) : Job :=
  match j.ending with
  | some _ => j
  | none => { j.halt with ending := some st }

/-- The logical number of a physical cluster, 0xFFFF where it has none. -/
def State.logicalOf (s : State) (phys : Nat) : Nat :=
  match s.unit? .cluster phys with
  | some u => u.logical.getD 0xFFFF
  | none => 0xFFFF

/-- A program trap: the job stops, one trap record is kept and one fault record raised, and the job is to complete with
`JOB_FAULT` (R147). The first trap of a job governs (R156; the order of steps stands for the order of cycles). -/
def State.progTrap (h : Thr) (pc cause data : Nat) (s : State) : State :=
  match s.job? h.job with
  | none => s
  | some j =>
    if j.trapped then s
    else
      let p := j.phys h.cluster
      let r : TrapRec := { cause := cause, thread := h.thread, cluster := s.logicalOf p, phys := p, pc := pc
                           data := BitVec.ofNat 64 data }
      (s.updJob h.job fun j =>
        { ({ j with ending := none } : Job).endWith .jobFault with trapped := true, trap := some r }).raise
          { faultUnit 0x0D 4 .cluster p 0 with detail := cause, location := pc }

/-- Threads that wait on a counter whose condition now holds become ready (R128). -/
def Job.wake (j : Job) : Job :=
  let up := fun t : Thread => match t.st with
    | .waiting o v => if v.ule (j.sync.getD o 0) then { t with st := .ready } else t
    | _ => t
  { j with clusters := j.clusters.map fun c => { c with threads := c.threads.map up } }

/-- Set a counter of a job, waking the threads it satisfies. -/
def State.setCounter (id obj : Nat) (v : Word) (s : State) : State :=
  s.updJob id fun j => ({ j with sync := j.sync.set obj v } : Job).wake

/-- Add to a counter; past 0xFFFF_FFFF it stays and the overflow trap is raised against the instruction at `pc` (R127). -/
def State.signal (h : Thr) (pc obj inc : Nat) (s : State) : State :=
  match s.job? h.job with
  | none => s
  | some j =>
    let v := (j.sync.getD obj 0).toNat + inc
    if 0xFFFFFFFF < v then s.progTrap h pc 0x09 obj else s.setCounter h.job obj (BitVec.ofNat 32 v)

/-- Signal on completion, where the operation asked for it (R128). -/
def State.signalEnd (h : Thr) (pc : Nat) (sig : Bool) (obj : Nat) (s : State) : State :=
  if sig then s.signal h pc obj 1 else s

/-! ### Pause state (R144, R146) -/

/-- The code offset at which threads go on from a pause point (R146). -/
def PauseEntry.resumePc (e : PauseEntry) : Nat := if e.resume = 0 then e.codeOffset + 4 else 4 * e.resume

/-- A thread as the pause state keeps it: registers and predicates outside the masks are 0 and false. -/
def PauseEntry.saveThread (e : PauseEntry) (t : Thread) : Thread :=
  if t.st = .exited then t
  else
    { regs := (List.range 64).map fun i => if e.liveRegs.getLsbD i then t.regs.getD i 0 else 0
      preds := t.preds &&& e.livePreds, pc := e.resumePc, st := .ready }

/-- A tile as the pause state keeps it. -/
def PauseEntry.saveTile (e : PauseEntry) (engine t : Nat) (v : Tile) : Tile :=
  if e.liveAcc.getLsbD (2 * engine + t) && v.state = .full then v else {}

/-- The halves of an engine as the pause state keeps them: one loaded alone with its bit set, a joined bank only with
both. -/
def PauseEntry.saveHalves (e : PauseEntry) (engine : Nat) (v : Engine) : Half × Half :=
  let b0 := e.liveInput.getLsbD (2 * engine)
  let b1 := e.liveInput.getLsbD (2 * engine + 1)
  if v.half0.cond = .joined then (if b0 && b1 then (v.half0, v.half1) else ({}, {}))
  else (if b0 then v.half0 else {}, if b1 then v.half1 else {})

/-- An engine as the pause state keeps it. -/
def PauseEntry.saveEngine (e : PauseEntry) (i : Nat) (v : Engine) : Engine :=
  { half0 := (e.saveHalves i v).1, half1 := (e.saveHalves i v).2
    tile0 := e.saveTile i 0 v.tile0, tile1 := e.saveTile i 1 v.tile1, ops := [] }

/-- A cluster as the pause state keeps it. -/
def PauseEntry.saveCluster (e : PauseEntry) (c : JobCluster) : JobCluster :=
  { c with threads := c.threads.map e.saveThread, engines := c.engines.mapIdx e.saveEngine }

/-- The pause state of a job at an entry, with the STORE_LIVE bytes of each cluster. -/
def State.saveJob (s : State) (j : Job) (e : PauseEntry) : Save :=
  { index := e.index, clusters := j.clusters.map e.saveCluster, sync := j.sync
    store := j.clusters.map fun c => memRead (s.store c.phys) e.storeBase e.storeLen
    wide := j.wide, reruns := j.reruns, result := j.result, placed := j.placed }

/-- Copy CODE, CONST and the parameters into a cluster's store (R149). -/
def State.loadImage (j : Job) (phys : Nat) (s : State) : State :=
  match j.image with
  | none => s
  | some g => s.updStore phys fun m =>
    memWrite (memWrite (memWrite m g.codeAux g.code) g.constAux g.const) g.paramBase j.params

/-- The bytes a placement entry copies into a store: of the job's scratch, or of the version bound to its slot; a range
past the end is cut there (R201, assumption log 35: DEDUCED, unsafe). -/
def State.placeBytes (s : State) (j : Job) (p : PlaceEntry) : Bytes :=
  if p.priv then
    let n := match j.image with | some g => g.scratchBytes | none => 0
    memRead j.scratch p.offset (Nat.min p.length (n - p.offset))
  else
    match j.bindings[p.slot]? with
    | some b => match s.version? b.obj b.ver with
      | some v => memRead v.data p.offset (Nat.min p.length (v.size - p.offset))
      | none => []
    | none => []

/-- Write bytes into a store up to its end, leaving the code region as it is (R133). -/
def Job.fillStore (j : Job) (off : Nat) (bs : Bytes) (m : Mem) : Mem :=
  let code := j.codeRegion
  let bs := bs.take (storeSize - off)
  let keep := memRead m code.1 code.2
  memWrite (memWrite m off bs) code.1 keep

/-- Carry out a tier 0 placement on those clusters of a job that the list names (R203, R165). -/
def State.placeTier0 (id : Nat) (on : List Nat) (p : PlaceEntry) (s : State) : State :=
  match s.job? id with
  | none => s
  | some j =>
    let bs := s.placeBytes j p
    (j.clusters.mapIdx fun i c => (i, c.phys)).foldl
      (fun t ip =>
        if p.clusters.getLsbD ip.1 && on.contains ip.2 then t.updStore ip.2 (j.fillStore p.storeOffset bs) else t) s

/-- The physical clusters of a job. -/
def Job.physList (j : Job) : List Nat := j.clusters.map (·.phys)

/-- Put a job's state back to a save: every thread at the point's continuation, engines and counters as saved, streams
ended (R122, R129, R146). The physical clusters of `fresh` are newly taken: code, constants, parameters and the placements in force are
put into their stores. Their STORE_LIVE range is put back too, and with `live` every cluster's; else it stays in place (R144,
R149, R165, R177). -/
def State.restore (id : Nat) (v : Save) (fresh : List Nat) (live : Bool) (s : State) : State :=
  match s.job? id with
  | none => s
  | some j =>
    let phys := j.clusters.map (·.phys)
    let hold := j.moves.any fun m => m.entry.wait
    let wakeUp := fun t : Thread => if t.st = .ready && hold then { t with st := .barrier v.index } else t
    let cs := (v.clusters.zip phys).map fun cp =>
      { cp.1 with phys := cp.2, threads := cp.1.threads.map wakeUp }
    let base := match j.pause? v.index with | some e => e.storeBase | none => 0
    let t := s.updJob id fun j =>
      { j with clusters := cs, sync := v.sync, streams := [], xfers := [], wide := v.wide, reruns := v.reruns
               result := v.result, placed := v.placed, save := some v, lastPause := v.index }
    let t := fresh.foldl (fun t p => t.loadImage j p) t
    let t := v.placed.foldl (fun t p => t.placeTier0 id fresh p) t
    let back := (phys.zip v.store).filter fun ps => live || fresh.contains ps.1
    (back.foldl (fun t ps => t.updStore ps.1 fun m => memWrite m base ps.2) t).fillTree

/-- A cluster of a job as it starts: THREADS threads at the entry point, engines empty, indices and summaries at zero
(R89, R131, R543). Both tiles of an engine are EMPTY then, which R146 says of a resume or replay only (assumption log 159: DESIGN
CHOICE, unsafe). -/
def Image.freshCluster (g : Image) (phys : Nat) : JobCluster :=
  { phys := phys
    threads := List.replicate g.threads { pc := g.entry, st := .ready }
    elemIdx := g.convs.map fun _ => 0
    glint := g.convs.map fun r => { layer := r.layer } }

/-- Start a job afresh on its clusters. -/
def State.startFresh (id : Nat) (s : State) : State :=
  match s.job? id with
  | none => s
  | some j => match j.image with
    | none => s
    | some g =>
      let t := (j.clusters.map (·.phys)).foldl (fun t p => t.loadImage j p) s
      (t.updJob id fun j =>
        { j with clusters := j.clusters.map fun c => g.freshCluster c.phys, streams := [], xfers := [], rerun := none }).fillTree

/-! ### Replay (R104, R148, R457) -/

/-- Replay a job from its last pause point, on the same clusters with STORE_LIVE in place; at the start of a layer under a wider re-run
it is put back, as the job may have gone on from there (R105, R144). What follows at a point treated as taken (R177) is applied by the
caller. -/
def State.replayJob (id : Nat) (s : State) : State :=
  match s.job? id with
  | none => s
  | some j =>
    if j.ending.isSome then s
    else if 8 ≤ j.pointReplays then s.updJob id (Job.endWith .jobFault)
    else
      let t := s.updJob id fun j => { j with replays := sat32 (j.replays + 1), pointReplays := j.pointReplays + 1 }
      match j.save with
      | some v => t.restore id v [] (j.rerun = some v)
      | none => t.startFresh id

/-! ### Decisions at a pause point (R29, R170 to R177) -/

/-- The point counts as one at which pre-emption may be taken: entry 0 and every entry with PREEMPT (R170). -/
def Job.preemptPoint (j : Job) (n : Nat) : Bool :=
  n = 0 || (match j.pause? n with | some e => e.preempt | none => false)

/-- Clusters a job can start on, by logical number: in service, numbered and held by no job (R164, R165). -/
def State.freeClusters (s : State) : List Nat :=
  ((List.range s.clustersLogical).filterMap fun n => s.logical? .cluster n).filterMap fun u =>
    if u.state = .inService && !s.clusterHeld u.phys then some u.phys else none

/-- Job-relative cluster `i` of a job gives up its physical cluster, which closes as `close` says, and goes on at the spare that takes
its number, else at the lowest-numbered free cluster; none where nothing is free (R29, R176). -/
def State.moveOne (id i : Nat) (close : State → State) (s : State) : Option State :=
  match s.job? id with
  | none => none
  | some j =>
    let numbered : Bool := match s.unit? .cluster (j.phys i) with
      | some u => u.state ≠ .closed && (u.logical.isSome || u.takes.isSome)
      | none => false
    let t := close s
    match (if numbered then s.spare? .cluster else none) with
    | some u => some (t.updCluster id i fun c => { c with phys := u.phys })
    | none => match t.freeClusters.head? with
      | some q => some (t.updCluster id i fun c => { c with phys := q })
      | none => none

/-- Job-relative clusters whose unit has left IN_SERVICE. -/
def State.leaving (s : State) (j : Job) : List Nat :=
  (List.range j.clusters.length).filter fun i => !s.unitIs .cluster (j.phys i) .inService

/-- A DRAINING cluster that its job leaves reaches CLOSED (R26). -/
def State.closeLeft (p : Nat) (s : State) : State := if s.unitIs .cluster p .draining then s.closed .cluster p else s

/-- Move every such cluster; none where one finds no place. -/
def State.moveAll (id : Nat) : List Nat → State → Option State
  | [], s => some s
  | i :: is, s =>
    let p := match s.job? id with | some j => j.phys i | none => 0
    match s.moveOne id i (State.closeLeft p) with
    | some t => State.moveAll id is t
    | none => none

/-- Suspend a job: its clusters are released, and it waits with a full slice to come (R176). -/
def State.suspend (id cyc : Nat) (s : State) : State :=
  match s.job? id with
  | none => s
  | some j =>
    ((s.releaseClusters id cyc).updJob id fun j => { j with waitSince := s.bt, deduct := 0, marked := false }).updClient
      j.client fun c => { c with suspends := sat32 (c.suspends + 1) }

/-- The move of R176 at the pause point just taken, restoring the job from its save on its new clusters. -/
def State.moveJob (id cyc : Nat) (s : State) : State :=
  match s.job? id with
  | none => s
  | some j => match s.leaving j with
    | [] => s
    | is => match s.moveAll id is with
      | none => s.suspend id cyc
      | some t =>
        let fresh := match t.job? id with | some k => is.map k.phys | none => []
        let t := match j.save with
          | some v => t.restore id v fresh false
          | none => t.startFresh id
        t.closeIdle

/-- Pre-empt a marked job at its pause point, or stop it at its client's limit (R170, R172, R173). -/
def State.preempt (id cyc : Nat) (s : State) : State :=
  match s.job? id with
  | none => s
  | some j =>
    if (s.sched.clients.getD j.client {}).limit ≤ j.preemptions then
      (s.updJob id (Job.endWith .preemptLimit)).updClient j.client fun c => { c with limitStops := sat32 (c.limitStops + 1) }
    else
      let excess := s.bt - j.sliceEnd
      ((s.releaseClusters id cyc).updJob id fun j =>
        { j with preemptions := sat32 (j.preemptions + 1), marked := false, waitSince := s.bt, deduct := excess }).updClient
        j.client fun c => { c with preempts := sat32 (c.preempts + 1), overrunBt := sat64 (c.overrunBt + excess) }

/-- Clusters of a job take the numbers they wait for (R29). -/
def State.takeNumbers (j : Job) (s : State) : State := j.clusters.foldl (fun t c => t.takeNumber c.phys) s

/-- The decisions that apply at a pause point taken, or treated as taken after a restore: a stop, then pre-emption, then a
move; numbers that wait are taken, and a PREEMPT point restarts the watchdog (R29, R143, R170, R176, R177, R439, R468).
`also` says that the point first taken counts as PREEMPT too, where a wider re-run has put the job back to another. -/
def State.decideAt (also : Bool) (id cyc : Nat) (s : State) : State :=
  match s.job? id with
  | none => s
  | some j =>
    let pp := also || (match j.save with | some v => j.preemptPoint v.index | none => false)
    match j.ending, j.stop with
    | some _, _ => s
    | none, some .impaired => s.updJob id (Job.endWith .objectImpaired)
    | none, some .shutdown => s.updJob id (Job.endWith .unitClosed)
    | none, none =>
      if j.marked && pp then s.preempt id cyc
      else
        let t := s.takeNumbers j
        let t := if pp then t.updJob id fun j => { j with watchdog16 := 0 } else t
        t.moveJob id cyc

/-- The decisions at the point a job has been put back to. -/
def State.decideStop (id cyc : Nat) (s : State) : State := s.decideAt false id cyc

/-- The decisions at the point a job has been put back to by an event whose step carries no cycle. -/
def State.decideNow (id : Nat) (s : State) : State :=
  let (cyc, t) := s.eventCycle
  t.decideStop id cyc

/-- Replay, and what applies at the point returned to (R177). -/
def State.replay (id : Nat) (s : State) : State := (s.replayJob id).decideNow id

/-- A job's streams end and leave the tree (R122, R130). -/
def State.endStreams (id : Nat) (s : State) : State := (s.updJob id fun j => { j with streams := [] }).fillTree

/-- A transfer writes the job's result region. -/
def Xfer.toResult (x : Xfer) : Bool := x.desc.dstSpace = 4

/-- A stream-alignment fault: the first replays the job, during a wider re-run from the start of the layer; the second ends it with
`STREAM_ALIGNMENT`, its streams ended and the results those of the last pause point; one record each (R104, R105, R130). -/
def State.alignFault (id cluster : Nat) (s : State) : State :=
  match s.job? id with
  | none => s
  | some j =>
    if j.ending.isSome then s
    else
      let again := j.alignFaults ≠ 0
      let rec_ := { faultUnit 0x0C (if again then 4 else 1) .cluster (j.phys cluster) 0 with detail := j.client }
      let t := (s.updJob id fun j => { j with alignFaults := j.alignFaults + 1 }).raise rec_
      if again then
        (t.updJob id fun j =>
          { (j.endWith .streamAlignment) with
            result := match j.save with | some v => v.result | none => []
            xfers := j.xfers.filter fun x => !x.toResult }).endStreams id
      else (t.updJob id fun j => { j with save := match j.rerun with | some v => some v | none => j.save }).replay id

end Sys2Proof.Machine
end

