-- ==== Sys2Proof/Machine/Quant.lean ====
section
/-! DEFINITION. Quantising conversions, their scales, and the glint summaries (R84 to R89, R93 to R95, R98). -/
namespace Sys2Proof.Machine

/-- The smallest E4M3 scale code whose value is not less than the one given, between 0x01 and 0x7E (R84). -/
def e4m3Ceil (x : Frac) : Nat :=
  (((List.range 126).map (· + 1)).find? fun c => x.le (floatValue 4 3 7 c)).getD 0x7E

/-- The scale code of a group in dynamic mode, from its max-abs value (R84). -/
def dynamicScale (enc fmt : Nat) (a : Frac) : Nat :=
  let x := a.div (fMax fmt)
  if enc = 0 then
    let e := x.ceilLog2
    ((if e < -127 then -127 else if 127 < e then 127 else e) + 127).toNat
  else e4m3Ceil x

/-- The largest magnitude code of a list of FP32 codes, NaN counting as zero: the max-abs value in FP32 (R84, R93). -/
def maxAbs (xs : List Nat) : Nat :=
  xs.foldl (fun m c => if isNanF32 c then m else Nat.max m (c % 2 ^ 31)) 0

/-- Running totals of a conversion: the record's running element index, its glint summary, and whether a NaN was met. -/
structure ConvState where
  index : Nat
  glint : Glint
  nan : Bool := false
  deriving DecidableEq, Repr

/-- One converted group: its element codes and its scale code. -/
structure ConvGroup where
  elems : List Nat
  scale : Nat
  deriving DecidableEq, Repr

/-- A bound of a band as a max-abs code is compared with it: a negative zero is zero (R78). -/
def bandCode (w : Word) : Nat := if w.toNat = 2 ^ 31 then 0 else w.toNat

/-- The glint summary after one more group, with its max-abs code, and its saturated and NaN elements (R93, R94, R98). -/
def Glint.addGroup (g : Glint) (r : ConvRec) (peak sat nan : Nat) : Glint :=
  let flat := peak = 0
  let high := r.monitor && bandCode r.bandHi < peak
  let low := r.monitor && !flat && peak < bandCode r.bandLo
  { g with
    groups := sat32 g.groups 1, flat := sat32 g.flat (bit01 flat)
    oobHigh := sat32 g.oobHigh (bit01 high), oobLow := sat32 g.oobLow (bit01 low)
    sat := sat32 g.sat sat, nan := sat32 g.nan nan
    peak := if g.peak.toNat < peak then BitVec.ofNat 32 peak else g.peak }
where
  /-- Add to a counter that stops at all ones (R95). -/
  sat32 (n d : Nat) : Nat := Nat.min (n + d) 0xFFFFFFFF

/-- Out-of-band groups of a summary (R98). -/
def Glint.oob (g : Glint) : Nat := g.oobHigh + g.oobLow

/-- The target of a conversion: that of the record, or WIDE in a re-run (R100). -/
def ConvRec.targetOf (r : ConvRec) (wide : Bool) : Nat := if wide then r.wide else r.target

/-- Convert the elements of a group in order, each quotient rounded once; answers codes, saturated and NaN counts. -/
def convElems (fmt : Nat) (scale : Frac) (sr : Option Nat) : List Nat → Nat → List Nat × Nat × Nat
  | [], _ => ([], 0, 0)
  | c :: cs, i =>
    let r := convElems fmt scale sr cs (i + 1)
    match valF32 c with
    | none => (0 :: r.1, r.2.1, r.2.2 + 1)
    | some v =>
      let e := roundElem fmt (sr.map fun seed => srBits seed (i % 2 ^ 32)) (v.div scale)
      (e.1 :: r.1, r.2.1 + bit01 e.2, r.2.2)

/-- Convert one group of FP32 codes under a record (R84 to R89, R94). BF16 takes no scale. -/
def convGroup (r : ConvRec) (wide : Bool) (xs : List Nat) (st : ConvState) : ConvGroup × ConvState :=
  let fmt := r.targetOf wide
  let peak := maxAbs xs
  let nans := (xs.filter isNanF32).length
  let next := fun sat => { st with
    index := st.index + xs.length, glint := st.glint.addGroup r peak sat nans, nan := st.nan || nans ≠ 0 }
  if peak = 0 then
    ({ elems := xs.map fun _ => 0, scale := if fmt = 9 then 0 else smallestScale r.enc }, next 0)
  else
    let code := if fmt = 9 then 0 else if r.static then r.staticScale else dynamicScale r.enc fmt (f32 peak)
    let scale := if fmt = 9 then Frac.ofInt 1 else (scaleValue r.enc code).getD (Frac.ofInt 1)
    let out := convElems fmt scale (if r.sr then some r.srSeed.toNat else none) xs st.index
    ({ elems := out.1, scale := code }, next out.2.1)

/-- Convert groups one after another. -/
def convGroups (r : ConvRec) (wide : Bool) : List (List Nat) → ConvState → List ConvGroup × ConvState
  | [], st => ([], st)
  | g :: gs, st =>
    let a := convGroup r wide g st
    let b := convGroups r wide gs a.2
    (a.1 :: b.1, b.2)

/-- Convert a run of elements, a whole number of groups of the record's size. -/
def convRun (r : ConvRec) (wide : Bool) (xs : List Nat) (st : ConvState) : List ConvGroup × ConvState :=
  convGroups r wide (chunksOf (groupSize r.group) (xs.length + 1) xs) st

/-- A group read back: its elements times its scale, rounded to FP32; NaN elements and groups with a NaN scale read as
zero, which is reported (R76 to R78, R88). -/
def dequantGroup (fmt enc : Nat) (elems : List Nat) (scale : Nat) : List Frac × Bool :=
  match (if fmt = 9 || fmt = 10 then some (Frac.ofInt 1) else scaleValue enc scale) with
  | none => (elems.map fun _ => Frac.zero, true)
  | some s =>
    (elems.map fun c => ((elemValue fmt c).getD Frac.zero).mul s, elems.any fun c => (elemValue fmt c).isNone)

end Sys2Proof.Machine
end

