-- ==== Sys2Proof/Machine/Stream.lean ====
section
/-! DEFINITION. Stream descriptors, their checks, the reading of sources, and XFER, LDIN and WSTR as they issue (R83, R109,
R119 to R124, R138, R139, R145, R544, Table 5-4). -/
namespace Sys2Proof.Machine

/-! ### The descriptor (Table 5-4) -/

/-- The fields of a 64-byte descriptor. -/
def decodeDesc (b : Bytes) : StreamDesc :=
  { kind := bitsAt (field b 0 1) 0 4, layout := bitsAt (field b 0 1) 4 2
    fmt := bitsAt (field b 1 1) 0 4, group := bitsAt (field b 1 1) 4 2, enc := bitsAt (field b 1 1) 6 1
    t0 := field b 2 1, conv := bitAt (field b 3 1) 0, sig := bitAt (field b 3 1) 1
    convrec := field b 4 2, lanes := field b 6 2, length := field b 8 4, srcStride := field b 12 4
    srcSpace := field b 16 1, srcCluster := field b 17 1, srcSlot := field b 18 2
    srcOffset := field b 24 8, scaleOffset := field b 32 8
    dstSpace := field b 40 1, dstSlot := field b 42 2, dstEngines := bitsAt (field b 44 1) 0 4
    half := bitsAt (field b 44 1) 4 2, stream := field b 45 1, sync := field b 46 2
    dstOffset := field b 48 8, dstClusters := field b 56 8 }

/-- The reserved bits of a descriptor are zero. -/
def descReservedOk (b : Bytes) : Bool :=
  bitsAt (field b 0 1) 6 2 = 0 && bitsAt (field b 1 1) 7 1 = 0 && bitsAt (field b 3 1) 2 6 = 0 && field b 20 4 = 0
    && field b 41 1 = 0 && bitsAt (field b 44 1) 6 2 = 0

/-- Fields stated for other kinds, layouts or spaces only are zero (R138). -/
def StreamDesc.unusedOk (d : StreamDesc) : Bool :=
  (d.srcSpace = 1 || d.srcCluster = 0) && (d.srcSpace = 2 || d.srcSlot = 0) && (d.conv || d.convrec = 0)
    && (!(d.kind = 0 || d.layout = 2) || (d.srcStride = 0 && d.scaleOffset = 0))
    && (if d.kind = 0 then
          d.layout = 0 && d.fmt = 0 && d.group = 0 && d.enc = 0 && !d.conv && d.lanes = 0 && d.dstEngines = 0
            && d.half = 0 && d.stream = 0 && d.dstClusters = 0 && (d.dstSpace = 2 || d.dstSlot = 0)
        else
          d.dstSpace = 0 && d.dstSlot = 0 && d.dstOffset = 0
            && (if d.kind = 1 then d.stream = 0 && d.dstClusters = 0 else d.half = 0))

/-- The operand a descriptor loads: its element format, group size, scale encoding, and the conversion record it goes
through (R544). -/
structure OperandSpec where
  fmt : Nat
  group : Nat
  enc : Nat
  conv : Option ConvRec := none
  deriving DecidableEq, Repr

/-- k-steps of one data block: a group, or 32 for BF16 (R83, R111). -/
def OperandSpec.block (o : OperandSpec) : Nat := if o.fmt = 9 then 32 else o.group

/-- The operand of a descriptor; none where the formats, the group or the conversion break the descriptor (R75, R544). -/
def Job.operand? (j : Job) (d : StreamDesc) : Option OperandSpec :=
  if d.conv then
    match j.conv? d.convrec with
    | some r =>
      if (d.fmt = 9 || d.fmt = 10) && d.group = 0 && d.enc = 0 && d.scaleOffset = 0 && d.layout ≠ 2 then
        some { fmt := r.targetOf (j.isWide r), group := groupSize r.group, enc := r.enc, conv := some r }
      else none
    | none => none
  else if d.fmt ≤ 9 && d.group ≠ 3 then some { fmt := d.fmt, group := groupSize d.group, enc := d.enc }
  else none

/-- The largest resident K of a format in one half or in joined halves (Table 4-3). -/
def maxK (fmt : Nat) (joined : Bool) : Nat :=
  match fmt with
  | 0 | 1 => if joined then 4096 else 2048
  | 2 | 3 => if joined then 8192 else 4096
  | 4 | 5 => if joined then 2688 else 1280
  | 9 => if joined then 1024 else 512
  | _ => if joined then 2048 else 1024

/-! ### Sources -/

/-- Bytes of a version with its lost pages read as zeros (R453). -/
def Version.readZero (v : Version) (off n : Nat) : Bytes :=
  (memRead v.data off n).mapIdx fun i b => if v.lost.contains ((off + i) / 4096) then 0 else b

/-- Bytes of the source space of a descriptor, for an operation of job-relative cluster `c`. -/
def State.srcRead (s : State) (j : Job) (c : Nat) (d : StreamDesc) (off n : Nat) : Bytes :=
  match d.srcSpace with
  | 0 => memRead (s.store (j.phys c)) off n
  | 1 => memRead (s.store (j.phys d.srcCluster)) off n
  | 2 => match j.bindings[d.srcSlot]? with
    | some b => match s.version? b.obj b.ver with
      | some v => v.readZero off n
      | none => zeroBytes n
    | none => zeroBytes n
  | _ => memRead j.scratch off n

/-- Ranges of an object that an operation reads are read like any others (R185). -/
def State.touchSource (j : Job) (d : StreamDesc) (rs : List (Nat × Nat)) (s : State) : State :=
  if d.srcSpace = 2 then
    match j.bindings[d.srcSlot]? with
    | some b => rs.foldl (fun t r => t.touch b.obj b.ver r.1 r.2) s
    | none => s
  else s

/-- The end of the source space: of a store, an object, or the job's scratch; none where the slot is unbound. -/
def State.srcEnd (s : State) (j : Job) (d : StreamDesc) : Option Nat :=
  match d.srcSpace with
  | 0 | 1 => some storeSize
  | 2 => match j.bindings[d.srcSlot]? with
    | some b => match s.version? b.obj b.ver with
      | some v => some v.size
      | none => none
    | none => none
  | _ => match j.image with | some g => some g.scratchBytes | none => none

/-- Byte ranges of a source that an operation over `k` elements a lane reads (R123, R124, R83). -/
def StreamDesc.ranges (d : StreamDesc) (o : OperandSpec) (k : Nat) : List (Nat × Nat) :=
  let codes := if o.fmt = 9 || d.conv then [] else [(d.scaleOffset, d.lanes * (k / o.group))]
  match d.layout with
  | 0 => ((List.range d.lanes).map fun i => (d.srcOffset + i * d.srcStride, packedBytes d.fmt k)) ++ codes
  | 1 => ((List.range k).map fun t => (d.srcOffset + t * d.srcStride, packedBytes d.fmt d.lanes)) ++ codes
  | _ =>
    let step := packedBytes o.fmt (o.block * 128) + 16 + (if o.fmt = 9 then 0 else 144)
    [(d.srcOffset, k / o.block * step)]

/-- Element `i` of a packed run that starts at byte `off` (R79). -/
def elemAt (rd : Nat → Nat → Bytes) (fmt off i : Nat) : Nat :=
  let bit := i * elemBits fmt
  bitsAt (leNat (rd (off + bit / 8) 5)) (bit % 8) (elemBits fmt)

/-- Codes of lane `i`, elements k0 to k0 + n - 1, of a plain or transposing source (R123). -/
def laneCodes (rd : Nat → Nat → Bytes) (d : StreamDesc) (i k0 n : Nat) : List Nat :=
  if d.layout = 0 then
    unpackElems d.fmt (rd (d.srcOffset + i * d.srcStride + k0 * elemBits d.fmt / 8) (packedBytes d.fmt n)) n
  else (List.range n).map fun t => elemAt rd d.fmt (d.srcOffset + (k0 + t) * d.srcStride) i

/-- Scale codes of lane `i`, groups g0 to g0 + n - 1 of k / g in all (R124). -/
def laneScales (rd : Nat → Nat → Bytes) (d : StreamDesc) (groups i g0 n : Nat) : List Nat :=
  (rd (d.scaleOffset + i * groups + g0) n).map (·.toNat)

/-- A source code of FP32 or BF16 as an FP32 code (R544). -/
def sourceF32 (fmt code : Nat) : Nat := if fmt = 9 then code * 65536 else code

/-- Convert `n` elements of lane `i` from k0, `k` elements a lane in all, under a record (R89, R544). -/
def convLane (rd : Nat → Nat → Bytes) (d : StreamDesc) (r : ConvRec) (wide : Bool) (k i k0 n base : Nat) (g : Glint) :
    List ConvGroup × ConvState :=
  convRun r wide ((laneCodes rd d i k0 n).map (sourceF32 d.fmt)) { index := base + i * k + k0, glint := g }

/-- Convert the same elements of every lane, the summary running on from lane to lane. -/
def convLanes (rd : Nat → Nat → Bytes) (d : StreamDesc) (r : ConvRec) (wide : Bool) (k k0 n base : Nat) :
    List Nat → Glint → Bool → List (List ConvGroup) × Glint × Bool
  | [], g, nan => ([], g, nan)
  | i :: is, g, nan =>
    let a := convLane rd d r wide k i k0 n base g
    let b := convLanes rd d r wide k k0 n base is a.2.glint (nan || a.2.nan)
    (a.1 :: b.1, b.2)

/-- Lanes 0 to 127 of rows and scales: unused lanes hold the zero code and the smallest positive scale (R83, R109). -/
def padLanes (lanes : List (List Nat × List Nat)) (k groups enc : Nat) : List (List Nat × List Nat) :=
  lanes ++ List.replicate (128 - lanes.length) (List.replicate k 0, List.replicate groups (smallestScale enc))

/-! ### The checks at issue (R138, R139, R124) -/

/-- What a stream instruction meets at issue: a trap cause with its data, or nothing. -/
abbrev IssueTrap := Option (Nat × Nat)

/-- Run a check only where none before it failed. -/
def orElse (a : IssueTrap) (b : IssueTrap) : IssueTrap := match a with | some x => some x | none => b

/-- A trap where a condition does not hold. -/
def needs (ok : Bool) (cause data : Nat) : IssueTrap := if ok then none else some (cause, data)

/-- A signal's object lies in the job's grant (R127, R142). -/
def Job.syncCheck (j : Job) (sig : Bool) (obj : Nat) : IssueTrap := needs (!sig || obj < j.sync.length) 0x08 obj

/-- A source range lies in its space (R139). -/
def State.srcCheck (s : State) (j : Job) (d : StreamDesc) (rs : List (Nat × Nat)) : IssueTrap :=
  match s.srcEnd j d with
  | none => some (0x07, d.srcSlot)
  | some n => match rs.find? fun r => n < r.1 + r.2 with
    | some r => some (0x07, r.1)
    | none => none

/-- What every descriptor must meet: kind, reserved and unused fields, spaces and clusters of the job. -/
def Job.descCommon (j : Job) (kind off : Nat) (b : Bytes) (d : StreamDesc) : IssueTrap :=
  needs (d.kind = kind && descReservedOk b && d.layout ≠ 3 && d.srcSpace ≤ 3 && d.unusedOk && d.length ≠ 0
    && (d.srcSpace ≠ 1 || d.srcCluster < j.clusters.length)) 0x06 off

/-- The end of the space an XFER writes, where it may write there: a slot must be bound for writing (R139). -/
def State.dstEnd (s : State) (j : Job) (d : StreamDesc) : Option Nat :=
  match d.dstSpace with
  | 0 => some storeSize
  | 2 => match j.bindings[d.dstSlot]? with
    | some b => if b.write then (match s.version? b.obj b.ver with | some v => some v.size | none => none) else none
    | none => none
  | 3 => match j.image with | some g => some g.scratchBytes | none => none
  | _ => match j.image with | some g => some g.resultBytes | none => none

/-- A transfer would write the header of a folio, which the drive alone writes (R255; assumption log 170: DEDUCED, unsafe). -/
def State.meetsHeader (s : State) (j : Job) (d : StreamDesc) : Bool :=
  d.dstSpace = 2 && d.length ≠ 0 && d.dstOffset < 4096 && match j.bindings[d.dstSlot]? with
    | some b => (match s.obj? b.obj with | some o => o.kind = 5 | none => false)
    | none => false

/-- The checks of XFER (R139, R145, R133). -/
def State.xferCheck (s : State) (j : Job) (off : Nat) (d : StreamDesc) : IssueTrap :=
  let own := d.dstSpace = 0
  orElse (needs (d.length % 64 = 0 && d.srcOffset % 64 = 0 && d.dstOffset % 64 = 0
      && (d.dstSpace = 0 || d.dstSpace = 2 || d.dstSpace = 3 || d.dstSpace = 4)) 0x06 off) <|
  orElse (j.syncCheck d.sig d.sync) <|
  orElse (s.srcCheck j d [(d.srcOffset, d.length)]) <|
  orElse (match s.dstEnd j d with
    | some n => needs (d.dstOffset + d.length ≤ n) 0x07 d.dstOffset
    | none => some (0x07, d.dstSlot)) <|
  orElse (needs (!(own && j.meetsCode d.dstOffset d.length) && !s.meetsHeader j d) 0x07 d.dstOffset)
    (needs (!(own && j.meetsLive d.dstOffset d.length)) 0x04 d.dstOffset)

/-- The conditions of R124 on a transposing load, and the sources of Table 4-7. -/
def StreamDesc.transposeOk (d : StreamDesc) : Bool :=
  d.layout ≠ 1 || (d.srcSpace ≠ 1 && d.srcOffset % 16 = 0 && d.srcStride % 16 = 0)

/-- The checks of LDIN (R109, R124, R139). -/
def State.ldinCheck (s : State) (j : Job) (off : Nat) (d : StreamDesc) : IssueTrap :=
  match j.operand? d with
  | none => some (0x06, off)
  | some o =>
    orElse (needs (1 ≤ d.lanes && d.lanes ≤ 128 && d.half ≠ 3
        && (d.dstEngines = 1 || d.dstEngines = 2 || d.dstEngines = 4 || d.dstEngines = 8)
        && d.length % o.block = 0 && (!d.conv || d.length % o.group = 0) && d.length ≤ maxK o.fmt (d.half = 2)
        && d.transposeOk) 0x06 off) <|
    orElse (j.syncCheck d.sig d.sync) (s.srcCheck j d (d.ranges o d.length))

/-- The job has a live stream of a handle. -/
def Job.liveStream (j : Job) (h : Nat) : Bool := j.streams.any fun t => t.handle = h && !t.ended

/-- The checks of WSTR (R119, R124, R139, Table 4-9). -/
def State.wstrCheck (s : State) (j : Job) (off : Nat) (d : StreamDesc) : IssueTrap :=
  match j.operand? d with
  | none => some (0x06, off)
  | some o =>
    let k := d.length * o.block
    orElse (needs (1 ≤ d.lanes && d.lanes ≤ 128 && d.dstEngines ≠ 0 && d.dstClusters ≠ 0
        && d.dstClusters < 2 ^ j.clusters.length && d.stream < 64 && !j.liveStream d.stream
        && (d.layout = 2 || d.srcSpace = 2 || d.srcSpace = 3) && (!d.conv || k % o.group = 0)
        && d.transposeOk) 0x06 off) <|
    orElse (j.syncCheck d.sig d.sync) (s.srcCheck j d (d.ranges o k))

/-! ### Blocks as a stream delivers them (R83, R102) -/

/-- A block's elements: element t × 128 + i for slice t and lane i. -/
def interleave (lanes : List (List Nat)) (n : Nat) : List Nat :=
  (List.range n).flatMap fun t => lanes.map fun l => l.getD t 0

/-- A data block and scale entry read from a source in block layout. -/
def readBlock (rd : Nat → Nat → Bytes) (d : StreamDesc) (o : OperandSpec) (idx : Nat) : Block :=
  let n := packedBytes o.fmt (o.block * 128)
  let step := n + 16 + (if o.fmt = 9 then 0 else 144)
  let b := rd (d.srcOffset + idx * step) step
  let e := unpackElems o.fmt b (o.block * 128)
  if o.fmt = 9 then { elems := e, tag := field b n 1, meta1 := field b (n + 1) 1, scales := [], scaleTag := field b n 1
                      scaleMeta1 := field b (n + 1) 1 }
  else
    { elems := e, tag := field b n 1, meta1 := field b (n + 1) 1, scales := (slice b (n + 16) 128).map (·.toNat)
      scaleTag := field b (n + 144) 1, scaleMeta1 := field b (n + 145) 1 }

/-- The code of a group size (Table 3-7). -/
def groupCode (g : Nat) : Nat := if g = 32 then 0 else if g = 64 then 1 else 2

/-- Byte 1 of the trailer of an operand that a conversion or a plain set-up makes (Table 3-4). -/
def OperandSpec.meta1 (o : OperandSpec) : Nat := o.fmt + 16 * groupCode o.group + 64 * o.enc

/-- A block formed from a plain or transposing source by its own set-up: the lanes' codes and scales. -/
def formBlock (d : StreamDesc) (o : OperandSpec) (idx : Nat) (lanes : List (List Nat × List Nat)) : Block :=
  let p := padLanes lanes o.block 1 o.enc
  { elems := interleave (p.map (·.1)) o.block, tag := (d.t0 + idx) % 256, meta1 := o.meta1
    scales := p.map fun l => l.2.getD 0 0, scaleTag := (d.t0 + idx) % 256, scaleMeta1 := o.meta1 }

/-- The elements of one block cut out of the conversion groups that hold it. -/
def cutBlock (gs : List ConvGroup) (skip n : Nat) : List Nat × List Nat :=
  (((gs.flatMap (·.elems)).drop skip).take n, (gs.map (·.scale)).take 1)

/-- Block `idx` of a stream with its source read now, and the issuing cluster's summary after it. Groups longer than a block
(a BF16 target) are counted with their first block. -/
def State.streamBlock (s : State) (j : Job) (t : Stream) (o : OperandSpec) (idx : Nat) (g : Glint) :
    Block × Glint × Bool :=
  let d := t.desc
  let rd := s.srcRead j t.cluster d
  let k := d.length * o.block
  if d.layout = 2 then (readBlock rd d o idx, g, false)
  else match o.conv with
    | none =>
      let ls := (List.range d.lanes).map fun i =>
        (laneCodes rd d i (idx * o.block) o.block, if o.fmt = 9 then [] else laneScales rd d (k / o.group) i idx 1)
      (formBlock d o idx ls, g, false)
    | some r =>
      let k0 := idx * o.block / o.group * o.group
      let c := convLanes rd d r (j.isWide r) k k0 o.group t.base (List.range d.lanes) g false
      let ls := c.1.map fun gs => cutBlock gs (idx * o.block - k0) o.block
      (formBlock d o idx ls, if idx * o.block = k0 then c.2.1 else g, c.2.2)

end Sys2Proof.Machine
end

