-- ==== Sys2Proof/Machine/Engine.lean ====
section
/-! DEFINITION. Outer-product engines: passes and their groups, accumulation, accumulator tiles, drains, accumulator loads
and input loads (R82, R90 to R92, R102 to R104, R109 to R116, R140, R141, R543). -/
namespace Sys2Proof.Machine

/-! ### Operand words (Table 5-5) -/

/-- The operation a PASS's registers name. -/
def passOp (thread pc : Nat) (ra rb : Word) : EngOp :=
  { kind := .pass, thread := thread, pc := pc, tile := bitsAt ra.toNat 2 1, half := bitsAt ra.toNat 3 2
    cont := bitAt ra.toNat 5, sig := bitAt ra.toNat 6, stream := bitsAt ra.toNat 7 8, sync := bitsAt ra.toNat 16 16
    k0 := bitsAt rb.toNat 0 16, k := bitsAt rb.toNat 16 16 }

/-- The operation a DRAIN's registers name. -/
def drainOp (thread pc : Nat) (ra rb rc : Word) : EngOp :=
  { kind := .drain, thread := thread, pc := pc, tile := bitsAt ra.toNat 2 1, outConv := bitAt ra.toNat 3
    row := bitAt ra.toNat 4, sig := bitAt ra.toNat 6, t0 := bitsAt ra.toNat 7 8, sync := bitsAt ra.toNat 16 16
    offset := rb.toNat, convrec := bitsAt rc.toNat 0 16, stride := bitsAt rc.toNat 16 16 }

/-- The operation an ACCLD's registers name. -/
def accldOp (thread pc : Nat) (ra rb : Word) : EngOp :=
  { kind := .accld, thread := thread, pc := pc, tile := bitsAt ra.toNat 2 1, sig := bitAt ra.toNat 6
    sync := bitsAt ra.toNat 16 16, offset := rb.toNat }

/-! ### Input halves (R109, R543) -/

/-- The resident operand of a half, or of both halves joined; none where R543 finds the halves otherwise. -/
def Engine.resident? (e : Engine) (half : Nat) : Option Resident :=
  match half with
  | 0 => if e.half0.cond = .alone then some e.half0.data else none
  | 1 => if e.half1.cond = .alone then some e.half1.data else none
  | 2 => if e.half0.cond = .joined && e.half1.cond = .joined then some e.half0.data else none
  | _ => none

/-- An input load ends: the halves it names take its data; a load into one half of a joined bank leaves the other holding
nothing (R543). -/
def Engine.putHalf (e : Engine) (half : Nat) (r : Resident) : Engine :=
  match half with
  | 0 => { e with half0 := ⟨.alone, r⟩, half1 := if e.half1.cond = .joined then {} else e.half1 }
  | 1 => { e with half1 := ⟨.alone, r⟩, half0 := if e.half0.cond = .joined then {} else e.half0 }
  | _ => { e with half0 := ⟨.joined, r⟩, half1 := ⟨.joined, {}⟩ }

/-- Two names of halves share one. -/
def halvesMeet (a b : Nat) : Bool := a = b || a = 2 || b = 2

/-- k-steps of a group of a resident operand, 32 for BF16 (R109). -/
def Resident.block (r : Resident) : Nat := if r.fmt = 9 then 32 else r.group

/-- K0 and K of a pass fit the resident operand (R109, R110, R543). -/
def Resident.fits (r : Resident) (k0 k : Nat) : Bool :=
  k0 % r.block = 0 && k % r.block = 0 && k0 + k ≤ r.k

/-- A resident operand and a stream can be paired: BF16 only with BF16, else the same group size (R82). -/
def pairOk (r : Resident) (o : OperandSpec) : Bool :=
  if r.fmt = 9 || o.fmt = 9 then r.fmt = 9 && o.fmt = 9 else r.group = o.group

/-! ### Order of operations (R114, R141, Table 4-9) -/

/-- The last k-step of a pass has issued. -/
def EngOp.stepsDone (o : EngOp) : Bool := o.started && o.groups ≤ o.group

/-- An operation must wait for an earlier one of its engine: one on the same tile; for a pass, an earlier pass whose k-steps
have not all issued, or an input load into a half it names; for an input load, a pass that names its half (R112, R114, R543,
Table 4-9). -/
def EngOp.waitsFor (o p : EngOp) : Bool :=
  match o.kind, p.kind with
  | .load, .pass => halvesMeet o.half p.half && !p.stepsDone
  | .load, _ => false
  | .pass, .load => halvesMeet o.half p.half
  | .pass, .pass => o.tile = p.tile || !p.stepsDone
  | _, .load => false
  | _, _ => o.tile = p.tile

/-- The first operation that has not begun and waits for none before it. -/
def nextToStart : List EngOp → List EngOp → Option EngOp
  | _, [] => none
  | before, o :: os =>
    if !o.started && !(before.any fun p => o.waitsFor p) then some o else nextToStart (before ++ [o]) os

/-- The oldest filled staging slot of an engine that a stream filled. -/
def Engine.stagedOf? (g : Engine) (t : Stream) : Option Staged := g.staging.find? (·.stream = t.num)

/-- An engine of a job. -/
def Job.engine? (j : Job) (cluster engine : Nat) : Option Engine :=
  match j.clusters[cluster]? with
  | some c => c.engines[engine]?
  | none => none

/-- The stream of a handle that serves an engine: the oldest that still holds a block for it, else the newest. Blocks that a stream
delivers beyond its pass serve a later pass of the handle, and a pass whose stream ends too early waits (R110; assumption log 158:
DESIGN CHOICE, unsafe). -/
def Job.streamFor? (j : Job) (handle cluster engine : Nat) : Option Stream :=
  let mine := j.streams.filter fun t => t.handle = handle && t.dests.contains (cluster, engine)
  let left := fun t : Stream => t.delivered < t.desc.length || (match j.engine? cluster engine with
    | some g => (g.stagedOf? t).isSome
    | none => false)
  match mine.find? left with
  | some t => some t
  | none => mine.getLast?

/-- A pass breaks R109, R82 or R543 against what its engine holds and its stream, if that is set up (R141). -/
def Job.passBad (j : Job) (cluster engine : Nat) (e : Engine) (o : EngOp) : Bool :=
  match e.resident? o.half with
  | none => true
  | some r => !r.fits o.k0 o.k ||
    (match j.streamFor? o.stream cluster engine with
      | some t => (match j.operand? t.desc with | some p => !pairOk r p | none => false)
      | none => false)

/-- The tile state an operation requires is not the one it finds settled (R114). -/
def EngOp.tileBad (o : EngOp) (e : Engine) : Bool :=
  let st := (e.tile o.tile).state
  match o.kind with
  | .pass => (if o.cont then st ≠ .full else st ≠ .empty)
  | .drain => st ≠ .full
  | .accld => st ≠ .empty
  | .load => false

/-- 16,384 zeros: a tile that a START pass begins with (R114). -/
def zeroTile : List Word := List.replicate 16384 0

/-- An operation begins: its tile changes state (Table 4-4). -/
def EngOp.begin_ (o : EngOp) (e : Engine) : Engine :=
  let groups := match e.resident? o.half with | some r => o.k / r.block | none => 0
  let e := { e with ops := updWhere (· = o) (fun o => { o with started := true, groups := groups }) e.ops }
  let t := e.tile o.tile
  match o.kind with
  | .pass => e.setTile o.tile { state := .accumulating, data := if o.cont then t.data else zeroTile }
  | .drain => e.setTile o.tile { t with state := .draining }
  | .accld => e.setTile o.tile { t with state := .loading }
  | .load => e

/-- The engine of a job. -/
def State.engine? (s : State) (e : Eng) : Option (Job × Engine) :=
  match s.job? e.job with
  | some j => match j.engine? e.cluster e.engine with
    | some g => some (j, g)
    | none => none
  | none => none

/-- The thread that issued an operation of an engine. -/
def EngOp.thr (o : EngOp) (e : Eng) : Thr := { job := e.job, cluster := e.cluster, thread := o.thread }

/-- Begin the operations of an engine that can, each judged as it begins; one that finds the wrong state raises the
engine-state trap of the instruction that issued it (R114, R543). At most `fuel` begin. -/
def State.pumpEngine (e : Eng) : Nat → State → State
  | 0, s => s
  | k + 1, s =>
    match s.engine? e with
    | none => s
    | some (j, g) =>
      if j.trapped || j.ending.isSome then s
      else match nextToStart [] g.ops with
        | none => s
        | some o =>
          if o.tileBad g || (o.kind = .pass && j.passBad e.cluster e.engine g o) then s.progTrap (o.thr e) o.pc 0x05 0
          else State.pumpEngine e k (s.updEngine e fun g => o.begin_ g)

/-- Begin what can begin on an engine. -/
def State.startOps (e : Eng) (s : State) : State :=
  match s.engine? e with
  | some (_, g) => s.pumpEngine e (g.ops.length + 1)
  | none => s

/-- An operation at the end of an engine's list, with a number of its own. -/
def Engine.addOp (g : Engine) (o : EngOp) : Engine :=
  { g with ops := g.ops ++ [{ o with seq := match g.ops.getLast? with | some p => p.seq + 1 | none => 0 }] }

/-- The first pass of an engine that has not begun, names a half that an ended input load named, waits for no other input load
before it, and breaks R109, R82 or R543: the load it waited for has ended, and it is judged (R543). -/
def Job.badWaiter? (j : Job) (e : Eng) (g : Engine) (half : Nat) : Option EngOp :=
  go [] g.ops
where
  /-- Look behind the operations of `before`. -/
  go : List EngOp → List EngOp → Option EngOp
    | _, [] => none
    | before, o :: os =>
      if o.kind = .pass && !o.started && halvesMeet o.half half && !(before.any fun p => p.kind = .load && halvesMeet o.half p.half)
          && j.passBad e.cluster e.engine g o then some o
      else go (before ++ [o]) os

/-- An input load into a half has ended: the passes that waited for it are judged, and then what can begin begins (R543). -/
def State.judgeLoaded (e : Eng) (half : Nat) (s : State) : State :=
  match s.engine? e with
  | some (j, g) =>
    if j.trapped || j.ending.isSome then s
    else match j.badWaiter? e g half with
      | some o => s.progTrap (o.thr e) o.pc 0x05 0
      | none => s.startOps e
  | none => s

/-- Put an operation at the end of an engine's list and begin what can begin. -/
def State.queueEngOp (e : Eng) (o : EngOp) (s : State) : State := (s.updEngine e fun g => g.addOp o).startOps e

/-- Take an operation off an engine's list. -/
def Engine.dropOp (g : Engine) (o : EngOp) : Engine := { g with ops := g.ops.filter (· ≠ o) }

/-! ### Checks at issue (R140, R141) -/

/-- The checks of PASS at issue. The conditions of R109 and R543 are judged now unless an input load into a half it names is
still to end; the tile unless an earlier operation holds it. -/
def Job.passCheck (j : Job) (e : Eng) (g : Engine) (ra : Word) (o : EngOp) : IssueTrap :=
  let waits := g.ops.any fun p => p.kind = .load && halvesMeet o.half p.half
  let held := g.ops.any fun p => p.kind ≠ .load && p.tile = o.tile
  orElse (needs (!bitAt ra.toNat 15 && o.half ≠ 3 && o.k ≠ 0) 0x05 0) <|
  orElse (needs (waits || !j.passBad e.cluster e.engine g o) 0x05 0) <|
  orElse (needs (held || !o.tileBad g) 0x05 0) (j.syncCheck o.sig o.sync)

/-- The output format of a drain: FP32, or the record's (R115, R141). -/
def Job.drainFmt (j : Job) (o : EngOp) : Nat :=
  if o.outConv then (match j.conv? o.convrec with | some r => r.targetOf (j.isWide r) | none => 10) else 10

/-- Group size of a drain's record. -/
def Job.drainGroup (j : Job) (o : EngOp) : Nat := match j.conv? o.convrec with | some r => groupSize r.group | none => 32

/-- Columns of one data block of a BLOCK drain (R116). -/
def Job.drainBlock (j : Job) (o : EngOp) : Nat := if j.drainFmt o = 9 then 32 else j.drainGroup o

/-- Byte ranges a drain writes (R116). -/
def Job.drainRanges (j : Job) (o : EngOp) : List (Nat × Nat) :=
  let fmt := j.drainFmt o
  let narrow := fmt < 9
  if o.row then
    ((List.range 128).map fun r => (o.offset + r * o.stride, packedBytes fmt 128))
      ++ (if narrow then [(o.offset + 128 * o.stride, 128 * (128 / j.drainGroup o))] else [])
  else
    let b := j.drainBlock o
    [(o.offset, 128 / b * (packedBytes fmt (b * 128) + 16 + (if narrow then 144 else 0)))]

/-- The checks of DRAIN at issue (R116, R140, R145). Where an engine or stream instruction breaks several rules, the engine-state
or stream-setup trap comes first, then MISALIGNED, OBJECT_RANGE, SYNC_OPERAND and LIVE_WRITE (assumption log 160: DESIGN CHOICE,
unsafe). -/
def Job.drainCheck (j : Job) (g : Engine) (ra : Word) (o : EngOp) : IssueTrap :=
  let held := g.ops.any fun p => p.kind ≠ .load && p.tile = o.tile
  let rs := j.drainRanges o
  orElse (needs (!bitAt ra.toNat 5 && !bitAt ra.toNat 15 && (o.row || o.stride = 0) && (!o.row || o.t0 = 0)
      && (o.outConv || o.convrec = 0)) 0x05 0) <|
  orElse (needs (!o.outConv || (j.conv? o.convrec).isSome) 0x05 0) <|
  orElse (needs (o.row || j.drainFmt o ≠ 10) 0x05 0) <|
  orElse (needs (!o.row || packedBytes (j.drainFmt o) 128 ≤ o.stride) 0x05 0) <|
  orElse (needs (held || !o.tileBad g) 0x05 0) <|
  orElse (needs (o.offset % 64 = 0) 0x02 o.offset) <|
  orElse (match rs.find? fun r => storeSize < r.1 + r.2 || j.meetsCode r.1 r.2 with
    | some r => some (0x07, r.1) | none => none) <|
  orElse (j.syncCheck o.sig o.sync)
    (match rs.find? fun r => j.meetsLive r.1 r.2 with | some r => some (0x04, r.1) | none => none)

/-- The checks of ACCLD at issue (R114, R140). -/
def Job.accldCheck (j : Job) (g : Engine) (o : EngOp) : IssueTrap :=
  let held := g.ops.any fun p => p.kind ≠ .load && p.tile = o.tile
  orElse (needs (held || !o.tileBad g) 0x05 0) <|
  orElse (needs (o.offset % 64 = 0) 0x02 o.offset) <|
  orElse (needs (o.offset + 65536 ≤ storeSize) 0x07 o.offset) (j.syncCheck o.sig o.sync)

/-- A running and a queued pass are held (R112, R141). -/
def Engine.passesFull (g : Engine) : Bool := 2 ≤ (g.ops.filter fun o => o.kind = .pass).length

/-- Take indices of a conversion record on a cluster at issue (R89). -/
def State.takeIndices (id c rec_ n : Nat) (s : State) : Nat × State :=
  match s.job? id with
  | none => (0, s)
  | some j =>
    let i := match j.clusters[c]? with | some k => k.elemIdx.getD rec_ 0 | none => 0
    (i, s.updCluster id c fun k => { k with elemIdx := bump k.elemIdx rec_ n })

/-! ### Groups of a pass (R83, R90, R91, R103, R111, R120) -/

/-- The pass of an engine whose groups are being issued. -/
def Engine.running? (g : Engine) : Option EngOp :=
  g.ops.find? fun o => o.kind = .pass && o.started && !o.stepsDone

/-- A block of a stream can be delivered: it is in the tree, has blocks left, and no destination lacks a free staging slot (R108,
R120). -/
def Job.canDeliver (j : Job) (t : Stream) : Bool :=
  t.live && t.delivered < t.desc.length && t.dests.all fun d => match j.engine? d.1 d.2 with
    | some g => g.staging.length < 2
    | none => false

/-- A block fills a staging slot of every destination of its stream (R120). -/
def Job.stageBlock (t : Stream) (b : Block) (j : Job) : Job :=
  let put := fun c e (g : Engine) =>
    if t.dests.contains (c, e) then { g with staging := g.staging ++ [⟨t.num, t.delivered, b⟩] } else g
  { j with
    clusters := j.clusters.mapIdx fun c k => { k with engines := k.engines.mapIdx fun e g => put c e g }
    streams := updWhere (·.num = t.num) (fun t => { t with delivered := t.delivered + 1 }) j.streams }

/-- Deliver the next block of a stream to every destination: it is read from its source, and the issuing cluster's summary moves
on. None where it cannot be delivered now. -/
def State.deliver (id : Nat) (t : Stream) (s : State) : Option State :=
  match s.job? id with
  | none => none
  | some j => match j.operand? t.desc with
    | none => none
    | some o =>
      if !j.canDeliver t || s.haltedBy (.job id) then none
      else
        let g := match j.clusters[t.cluster]? with | some c => c.glint.getD t.desc.convrec {} | none => {}
        let b := s.streamBlock j t o t.delivered g
        let s := if t.delivered = 0 then s.touchSource j t.desc (t.desc.ranges o (t.desc.length * o.block)) else s
        let s := if t.desc.conv then
            s.updCluster id t.cluster fun c => { c with glint := c.glint.set t.desc.convrec b.2.1 } else s
        some (s.updJob id fun j => { (j.stageBlock t b.1) with nan := j.nan || b.2.2 })

/-- Streams that have ended stay only while a staging slot holds a block of theirs. -/
def Job.tidyStreams (j : Job) : Job :=
  { j with streams := j.streams.filter fun t => !t.ended || j.clusters.any fun c => c.engines.any fun g =>
      (g.stagedOf? t).isSome }

/-- The checks of R103 for group `g` of a resident operand and block `idx` of a stream. -/
def groupAligned (r : Resident) (t : StreamDesc) (o : OperandSpec) (b : Block) (g idx : Nat) : Bool :=
  r.tags.getD g 256 = (r.t0 + g) % 256 && b.tag = (t.t0 + idx) % 256 && b.meta1 % 128 = o.meta1
    && (o.fmt = 9 || (b.scaleTag = b.tag && b.scaleMeta1 % 128 = o.meta1))

/-- Element values with NaN read as zero, and whether one was NaN (R88). -/
def valuesOf (fmt : Nat) (cs : List Nat) : List Frac × Bool :=
  (cs.map fun c => (elemValue fmt c).getD Frac.zero, cs.any fun c => (elemValue fmt c).isNone)

/-- Scale values; none for NaN, whose group reads as zero (R88). -/
def scalesOf (enc : Nat) (cs : List Nat) : List (Option Frac) := cs.map (scaleValue enc)

/-- The exact sum of products (R90). -/
def dot (a w : List Frac) : Frac := Frac.sum (a.zipWith Frac.mul w)

/-- Add a group sum with its scales to an accumulator element, rounded once (R90); a NaN scale makes the group zero (R88). -/
def foldScaled (acc : Word) (sum : Frac) (sa sw : Option Frac) : Word × Bool :=
  match sa, sw with
  | some x, some y =>
    let r := roundF32 ((f32 acc.toNat).add ((sum.mul x).mul y))
    (BitVec.ofNat 32 r.1, r.2)
  | _, _ => (acc, false)

/-- Add BF16 products in ascending k, each rounded (R91). -/
def foldBf16 (acc : Word) : List (Frac × Frac) → Bool → Word × Bool
  | [], sat => (acc, sat)
  | p :: ps, sat =>
    let r := roundF32 ((f32 acc.toNat).add (p.1.mul p.2))
    foldBf16 (BitVec.ofNat 32 r.1) ps (sat || r.2)

/-- The sums of group `grp` of a resident operand with a block: row r is resident lane r, column c is stream lane c (R90, R111). NaN
elements read as zero and are counted in no summary where no conversion record governs them (R88; assumption log 157: DESIGN
CHOICE, unsafe). -/
def groupSums (tile : Nat) (r : Resident) (o : OperandSpec) (b : Block) (grp : Nat) : GroupSums × Bool :=
  let n := r.block
  let rows := r.lanes.map fun l => valuesOf r.fmt ((l.drop (grp * n)).take n)
  let cols := (List.range 128).map fun c => valuesOf o.fmt ((List.range n).map fun t => b.elems.getD (t * 128 + c) 0)
  let sa := r.scales.map fun l => scaleValue r.enc (l.getD grp 0)
  let sw := scalesOf o.enc b.scales
  ({ tile := tile, sums := rows.flatMap fun x => cols.map fun y => dot x.1 y.1, rows := sa, cols := sw }
   , rows.any (·.2) || cols.any (·.2) || sa.any Option.isNone || sw.any Option.isNone)

/-- Fold the group sums that wait into their tile, and whether an element saturated (R90, R92, R111). -/
def Engine.foldPending (g : Engine) : Engine × Bool :=
  match g.sums with
  | none => (g, false)
  | some p =>
    let tile := g.tile p.tile
    let out := tile.data.mapIdx fun i acc =>
      foldScaled acc (p.sums.getD i Frac.zero) (p.rows.getD (i / 128) none) (p.cols.getD (i % 128) none)
    ({ g.setTile p.tile { tile with data := out.map (·.1) } with sums := none }, out.any (·.2))

/-- A BF16 block added to a tile, each k-step directly; and whether a NaN was met and an element saturated (R91, R111; NaN elements
are counted in no summary, as in a group: assumption log 157: DESIGN CHOICE, unsafe). -/
def foldPlain (data : List Word) (r : Resident) (o : OperandSpec) (b : Block) (grp : Nat) : List Word × Bool × Bool :=
  let n := r.block
  let rows := r.lanes.map fun l => valuesOf r.fmt ((l.drop (grp * n)).take n)
  let cols := (List.range 128).map fun c => valuesOf o.fmt ((List.range n).map fun t => b.elems.getD (t * 128 + c) 0)
  let out := data.mapIdx fun i acc =>
    foldBf16 acc ((rows.getD (i / 128) ([], false)).1.zip (cols.getD (i % 128) ([], false)).1) false
  (out.map (·.1), rows.any (·.2) || cols.any (·.2), out.any (·.2))

/-- The k-steps of one group of a pass issue: its block leaves the staging slot, the bank that waits is folded, and the group's sums
wait in the other bank; a BF16 group adds to the tile at once. With it, whether a NaN was met and an element saturated (R111). -/
def Engine.issueGroup (g : Engine) (o : EngOp) (r : Resident) (spec : OperandSpec) (x : Staged) : Engine × Bool × Bool :=
  let grp := o.k0 / r.block + o.group
  let g := { g with staging := g.staging.filter (· ≠ x)
                    ops := updWhere (· = o) (fun o => { o with group := o.group + 1 }) g.ops }
  let f := g.foldPending
  if r.fmt = 9 then
    let t := f.1.tile o.tile
    let p := foldPlain t.data r spec x.block grp
    (f.1.setTile o.tile { t with data := p.1 }, p.2.1, f.2 || p.2.2)
  else
    let p := groupSums o.tile r spec x.block grp
    ({ f.1 with sums := some p.1 }, p.2, f.2)

/-- The running pass of an engine goes on with a block that its stream has staged: the block is checked, and its group issues; a failed
check is a stream-alignment fault, operands that do not pair the engine-state trap (R82, R103, R111). -/
def State.issueStaged (e : Eng) (o : EngOp) (r : Resident) (t : Stream) (spec : OperandSpec) (s : State) : State :=
  match s.engine? e with
  | none => s
  | some (_, g) => match g.stagedOf? t with
    | none => s
    | some x =>
      if !groupAligned r t.desc spec x.block (o.k0 / r.block + o.group) x.idx then s.alignFault e.job e.cluster
      else if !pairOk r spec then s.progTrap (o.thr e) o.pc 0x05 0
      else
        let f := g.issueGroup o r spec x
        ((s.updEngine e fun _ => f.1).updJob e.job fun j =>
          ({ j with nan := j.nan || f.2.1, accSat := j.accSat || f.2.2 } : Job).tidyStreams).startOps e

/-- A block for an engine with no running pass: the first stream that can deliver to it does, ahead of its pass (R112, R120). -/
def State.stageAhead (e : Eng) (j : Job) (s : State) : State :=
  match j.streams.find? fun t => t.dests.contains (e.cluster, e.engine) && j.canDeliver t with
  | some t => (s.deliver e.job t).getD s
  | none => s

/-- GROUP_STAGED: a block fills a staging slot of an engine. A running pass takes its next block from the slot, or from its stream
as it is delivered, and the group is checked and issued; with no pass running a block is staged ahead (R111, R112, R120). -/
def execGroupStaged (e : Eng) (s : State) : Host.Outcome State Fault Refusal :=
  .next (
    match s.engine? e with
    | none => s
    | some (j, g) => match g.running? with
      | none => s.stageAhead e j
      | some o => match g.resident? o.half, j.streamFor? o.stream e.cluster e.engine with
        | some r, some t => match j.operand? t.desc with
          | none => s
          | some spec =>
            if (g.stagedOf? t).isSome then s.issueStaged e o r t spec
            else match s.deliver e.job t with
              | none => s
              | some s => s.issueStaged e o r t spec
        | _, _ => s)

/-- PASS_END: the last fold of a pass ends, its tile is FULL, and it signals (R110, R112, R128). -/
def execPassEnd (e : Eng) (s : State) : Host.Outcome State Fault Refusal :=
  .next (
    match s.engine? e with
    | none => s
    | some (_, g) => match g.ops.find? fun o => o.kind = .pass && o.stepsDone with
      | none => s
      | some o =>
        let f := g.foldPending
        let t := s.updEngine e fun _ => (f.1.setTile o.tile { f.1.tile o.tile with state := .full }).dropOp o
        let t := t.updJob e.job fun j => { j with accSat := j.accSat || f.2 }
        (t.signalEnd (o.thr e) o.pc o.sig o.sync).startOps e)

/-! ### Drains (R115, R116) -/

/-- A 16-byte trailer (Table 3-4). -/
def trailer (tag meta1 : Nat) : Bytes := leBytes 1 tag ++ leBytes 1 meta1 ++ zeroBytes 14

/-- The codes of a tile's 128 rows and their scale codes by row: FP32 as it is, or converted row by row under a record, and
the summary after it (R89, R115, R116). -/
def Job.drainRows (j : Job) (o : EngOp) (data : List Word) (g : Glint) :
    List (List Nat) × List (List Nat) × ConvState :=
  let codes := data.map (·.toNat)
  match (if o.outConv then j.conv? o.convrec else none) with
  | none => (chunksOf 128 128 codes, [], { index := o.base, glint := g })
  | some r =>
    let c := convRun r (j.isWide r) codes { index := o.base, glint := g }
    let per := 128 / groupSize r.group
    let rows := chunksOf per 128 c.1
    (rows.map fun gs => gs.flatMap (·.elems), rows.map fun gs => gs.map (·.scale), c.2)

/-- One data block of a BLOCK drain with its scale entry (R83, R116). -/
def Job.drainPart (j : Job) (o : EngOp) (rows scales : List (List Nat)) (b : Nat) : Bytes :=
  let fmt := j.drainFmt o
  let n := j.drainBlock o
  let enc := match j.conv? o.convrec with | some r => r.enc | none => 0
  let m := if fmt = 9 then 9 else fmt + 16 * groupCode n + 64 * enc
  let tag := (o.t0 + b) % 256
  packElems fmt (interleave (rows.map fun r => (r.drop (b * n)).take n) n) ++ trailer tag m
    ++ (if fmt = 9 then [] else (scales.map fun s => BitVec.ofNat 8 (s.getD b 0)) ++ trailer tag m)

/-- The store writes of a drain, in order (R116). -/
def Job.drainWrites (j : Job) (o : EngOp) (rows scales : List (List Nat)) : List (Nat × Bytes) :=
  let fmt := j.drainFmt o
  if o.row then
    (rows.mapIdx fun r cs => (o.offset + r * o.stride, packElems fmt cs))
      ++ (if fmt < 9 then [(o.offset + 128 * o.stride, (scales.flatten).map (BitVec.ofNat 8))] else [])
  else [(o.offset, (List.range (128 / j.drainBlock o)).flatMap fun b => j.drainPart o rows scales b)]

/-- DRAIN_END: the tile's rows are written to the cluster's store, converted where a record governs, the tile is EMPTY, and
the drain signals (R115, R116, R128). -/
def execDrainEnd (e : Eng) (tile : Nat) (s : State) : Host.Outcome State Fault Refusal :=
  .next (
    match s.engine? e with
    | none => s
    | some (j, g) => match g.ops.find? fun o => o.kind = .drain && o.started && o.tile = tile with
      | none => s
      | some o =>
        let gl := match j.clusters[e.cluster]? with | some c => c.glint.getD o.convrec {} | none => {}
        let r := j.drainRows o (g.tile o.tile).data gl
        let t := s.updStore (j.phys e.cluster) fun m => (j.drainWrites o r.1 r.2.1).foldl (fun m w => memWrite m w.1 w.2) m
        let t := if o.outConv then
            t.updCluster e.job e.cluster fun c => { c with glint := c.glint.set o.convrec r.2.2.glint } else t
        let t := t.updJob e.job fun j => { j with nan := j.nan || r.2.2.nan }
        let t := t.updEngine e fun g => (g.setTile o.tile {}).dropOp o
        (t.signalEnd (o.thr e) o.pc o.sig o.sync).startOps e)

/-! ### Accumulator loads and input loads (R113, R123, R141, R543) -/

/-- An FP32 word read into a tile: NaN reads as zero (R77, R88). A negative zero keeps its code, and an FP32 drain with no pass
between writes it so (assumption log 156: DESIGN CHOICE, unsafe). -/
def tileWord (w : Nat) : Word := if isNanF32 w then 0 else BitVec.ofNat 32 w

/-- ACCLD_END: the rows are read from the cluster's store, the tile is FULL, and the load signals; it stands still while a line it
loads is being recovered (R113, R130, R141). -/
def execAccldEnd (e : Eng) (tile : Nat) (s : State) : Host.Outcome State Fault Refusal :=
  .next (
    match s.engine? e with
    | none => s
    | some (j, g) => match (if s.haltedBy (.job e.job) then none
        else g.ops.find? fun o => o.kind = .accld && o.started && o.tile = tile) with
      | none => s
      | some o =>
        let ws := (chunksOf 4 16384 (memRead (s.store (j.phys e.cluster)) o.offset 65536)).map leNat
        let t := s.updEngine e fun g => (g.setTile o.tile { state := .full, data := ws.map tileWord }).dropOp o
        let t := t.updJob e.job fun j => { j with nan := j.nan || ws.any isNanF32 }
        (t.signalEnd (o.thr e) o.pc o.sig o.sync).startOps e)

/-- The resident operand of a load in block layout, where every group passes the checks of R103; lanes beyond LANES hold the
zero code and the smallest positive scale (R109). -/
def blockResident (rd : Nat → Nat → Bytes) (d : StreamDesc) (o : OperandSpec) : Option Resident :=
  let bs := (List.range (d.length / o.block)).map fun i => readBlock rd d o i
  let ok := (bs.mapIdx fun i b => (i, b)).all fun ib =>
    ib.2.tag = (d.t0 + ib.1) % 256 && ib.2.meta1 % 128 = o.meta1
      && (o.fmt = 9 || (ib.2.scaleTag = ib.2.tag && ib.2.scaleMeta1 % 128 = o.meta1))
  let lane := fun i => if i < d.lanes then
      (bs.flatMap fun b => (List.range o.block).map fun t => b.elems.getD (t * 128 + i) 0, bs.map fun b => b.scales.getD i 0)
    else (List.replicate d.length 0, bs.map fun _ => smallestScale o.enc)
  let ls := (List.range 128).map lane
  if ok then
    some { fmt := o.fmt, group := o.group, enc := o.enc, k := d.length, t0 := d.t0, lanes := ls.map (·.1)
           scales := ls.map (·.2), tags := bs.map (·.tag) }
  else none

/-- The resident operand of a plain or transposing load, its trailers formed from its own set-up, and the summary and NaN
flag after a conversion (R103, R544). -/
def laneResident (rd : Nat → Nat → Bytes) (d : StreamDesc) (o : OperandSpec) (wide : Bool) (base : Nat) (g : Glint) :
    Resident × Glint × Bool :=
  let make := fun ls : List (List Nat × List Nat) =>
    let p := padLanes ls d.length (d.length / o.group) o.enc
    ({ fmt := o.fmt, group := o.group, enc := o.enc, k := d.length, t0 := d.t0, lanes := p.map (·.1)
       scales := p.map (·.2), tags := (List.range (d.length / o.block)).map fun j => (d.t0 + j) % 256 } : Resident)
  match o.conv with
  | none =>
    let n := d.length / o.group
    (make ((List.range d.lanes).map fun i =>
      (laneCodes rd d i 0 d.length, if o.fmt = 9 then [] else laneScales rd d n i 0 n)), g, false)
  | some r =>
    let c := convLanes rd d r wide d.length 0 d.length base (List.range d.lanes) g false
    (make (c.1.map fun gs => (gs.flatMap (·.elems), gs.map (·.scale))), c.2.1, c.2.2)

/-- The first input load of an engine that has begun. -/
def Engine.load? (g : Engine) : Option EngOp := g.ops.find? fun o => o.kind = .load && o.started

/-- LOAD_END: an input load ends, its halves take their condition and data, and passes that waited for it are judged; a failed
check of R103 is a stream-alignment fault. Loads of one engine end in the order in which they began (R103, R543, assumption log
37). -/
def execLoadEnd (e : Eng) (s : State) : Host.Outcome State Fault Refusal :=
  .next (
    match s.engine? e with
    | none => s
    | some (j, g) => match (if s.haltedBy (.job e.job) then none else g.load?) with
      | none => s
      | some o => match o.desc with
        | none => s
        | some d => match j.operand? d with
          | none => s
          | some spec =>
            let rd := s.srcRead j e.cluster d
            let gl := match j.clusters[e.cluster]? with | some c => c.glint.getD d.convrec {} | none => {}
            let wide := match spec.conv with | some r => j.isWide r | none => false
            let got := if d.layout = 2 then (blockResident rd d spec).map fun r => (r, gl, false)
              else some (laneResident rd d spec wide o.base gl)
            let s := s.touchSource j d (d.ranges spec d.length)
            match got with
            | none => (s.updEngine e fun g => g.dropOp o).alignFault e.job e.cluster
            | some r =>
              let t := s.updEngine e fun g => (g.putHalf o.half r.1).dropOp o
              let t := if d.conv then
                  t.updCluster e.job e.cluster fun c => { c with glint := c.glint.set d.convrec r.2.1 } else t
              let t := t.updJob e.job fun j => { j with nan := j.nan || r.2.2 }
              (t.signalEnd (o.thr e) o.pc o.sig o.sync).judgeLoaded e o.half)

end Sys2Proof.Machine
end

