-- ==== Sys2Proof/Machine/Thread.lean ====
section
/-! DEFINITION. How a thread issues an instruction, and the integer, FP32, packed BF16, compare, predicate, load, store,
control and system instructions (R131 to R137, Table 5-3). -/
namespace Sys2Proof.Machine

/-! ### Issue (R132, R133, R136) -/

/-- The thread of a running job that is ready at an instruction with this word: the word at its PC in its cluster's store
(R133). None where the row's step does not occur (assumption log 1: DESIGN CHOICE, unsafe). -/
def State.fetch? (s : State) (h : Thr) (word : Nat) : Option (Job × Thread) :=
  match s.job? h.job with
  | none => none
  | some j => match j.clusters[h.cluster]? with
    | none => none
    | some c => match c.threads[h.thread]? with
      | none => none
      | some t =>
        if j.state = .running && j.ending.isNone && !s.still && t.st = .ready
            && leNat (memRead (s.store c.phys) (j.codeRegion.1 + t.pc) 4) = word then some (j, t) else none

/-- A PC lies in the code region and is a multiple of 4 (Table 5-6 FETCH_RANGE). -/
def Job.pcOk (j : Job) (pc : Nat) : Bool := pc % 4 = 0 && decide (pc < j.codeRegion.2)

/-- A thread goes on at a PC; one that leaves the code region or is not a multiple of 4 raises the fetch-range trap (R147,
assumption log 38: DEDUCED, unsafe). -/
def State.goTo (h : Thr) (pc : Nat) (s : State) : State :=
  match s.job? h.job with
  | none => s
  | some j =>
    if j.trapped then s
    else
      let t := s.updThread h fun t => { t with pc := pc }
      if j.pcOk pc then t else t.progTrap h pc 0x01 pc

/-- A PC moved by a signed number of words (BR, JAL). -/
def pcPlus (pc : Nat) (words : Int) : Nat := (BitVec.ofInt 32 ((pc : Int) + 4 * words)).toNat

/-- Issue an instruction that has no guard: its effect is `f`. -/
def State.issue (s : State) (h : Thr) (word : Nat) (f : Job → Thread → State) : State :=
  match s.fetch? h word with
  | none => s
  | some jt => f jt.1 jt.2

/-- Issue an R- or S-format instruction: it takes effect when p[GP] XOR GN is 1, and otherwise only occupies its slot
(R136). -/
def State.issueIf (s : State) (h : Thr) (gp : BitVec 3) (gn : BitVec 1) (word : Nat) (f : Job → Thread → State) : State :=
  s.issue h word fun j t => if t.guard gp gn then f j t else s.goTo h (t.pc + 4)

/-- The stores of a thread that no other sees yet reach its cluster's store, in order (R134). They do so at the issue of a SIGNAL, a
stream or engine instruction and a PAUSE, and when the thread ends (assumption log 164: DESIGN CHOICE, unsafe). -/
def State.publish (h : Thr) (s : State) : State :=
  match s.thread? h with
  | none => s
  | some (phys, t) =>
    (s.updStore phys fun m => t.stores.foldl (fun m w => memWrite m w.1 w.2) m).updThread h fun t => { t with stores := [] }

/-- Bytes of a cluster store as a thread's loads see them: its own earlier stores lie over it (R134). -/
def Thread.sees (t : Thread) (m : Mem) (off n : Nat) : Bytes :=
  memRead (t.stores.foldl (fun m w => memWrite m w.1 w.2) m) off n

/-- The thread changes as `g` says and goes on at the next instruction. -/
def State.retire_ (s : State) (h : Thr) (t : Thread) (g : Thread → Thread) : State :=
  (s.updThread h g).goTo h (t.pc + 4)

/-- Set the job's sticky flags (R135). -/
def State.stick (id : Nat) (nan sat : Bool) (s : State) : State :=
  s.updJob id fun j => { j with nan := j.nan || nan, accSat := j.accSat || sat }

/-! ### Shared forms -/

/-- rd = rs1 op rs2 of MAJOR 0x01. -/
def State.intR (fn : Nat) (h : Thr) (f : RForm) (s : State) : State :=
  s.issueIf h f.gp f.gn (rWord 0x01 fn f) fun _ t =>
    s.retire_ h t fun u => u.setReg f.rd (intOp fn (t.reg f.rs1) (t.reg f.rs2))

/-- rd = rs1 op immediate. -/
def State.intI (major : Nat) (op : Word → Word) (h : Thr) (f : IForm) (s : State) : State :=
  s.issue h (iWord major f) fun _ t => s.retire_ h t fun u => u.setReg f.rd (op (t.reg f.rs1))

/-- An operation of MAJOR 0x08 or 0x09, with the flags it sets (R135). -/
def State.flagR (major fn : Nat) (op : Word → Word → Word → Flagged) (h : Thr) (f : RForm) (s : State) : State :=
  s.issueIf h f.gp f.gn (rWord major fn f) fun _ t =>
    let r := op (t.reg f.rd) (t.reg f.rs1) (t.reg f.rs2)
    (s.stick h.job r.nan r.sat).retire_ h t fun u => u.setReg f.rd r.val

/-- A comparison of MAJOR 0x0A into p[RD[2:0]]. -/
def State.cmpR (fn : Nat) (h : Thr) (f : RForm) (s : State) : State :=
  s.issueIf h f.gp f.gn (rWord 0x0A fn f) fun _ t =>
    let r := cmpOp fn (t.reg f.rs1) (t.reg f.rs2)
    (s.stick h.job r.2 false).retire_ h t fun u => u.setPred (predOf f.rd) r.1

/-- A predicate operation of MAJOR 0x0B, FN 0 to 3. -/
def State.predR (fn : Nat) (h : Thr) (f : RForm) (s : State) : State :=
  s.issueIf h f.gp f.gn (rWord 0x0B fn f) fun _ t =>
    s.retire_ h t fun u => u.setPred (predOf f.rd) (predOp fn (t.pred (predOf f.rs1)) (t.pred (predOf f.rs2)))

/-- The cluster-store offset of a load or store: the register plus the sign-extended IMM14 (R137). -/
def Thread.address (t : Thread) (f : IForm) : Nat := (t.reg f.rs1 + f.imm.signExtend 32).toNat

/-- Put consecutive words into registers from `i` on. -/
def Thread.setRegs (t : Thread) (i : Nat) : List Word → Thread
  | [] => t
  | w :: ws => Thread.setRegs (t.setReg (BitVec.ofNat 6 i) w) (i + 1) ws

/-- The little-endian words of a byte list, four bytes to a word and fewer in the last. -/
def wordsOf (bs : Bytes) : List Word := (chunksOf 4 (bs.length / 4 + 1) bs).map fun b => BitVec.ofNat 32 (leNat b)

/-- A load of `n` bytes, zero-extending; 16 bytes fill four registers (R137, Table 5-6). -/
def State.loadI (major n : Nat) (h : Thr) (f : IForm) (s : State) : State :=
  s.issue h (iWord major f) fun j t =>
    let a := t.address f
    if a % n ≠ 0 then s.progTrap h t.pc 0x02 a
    else if storeSize < a + n then s.progTrap h t.pc 0x03 a
    else
      let ws := wordsOf (t.sees (s.store (j.phys h.cluster)) a n)
      s.retire_ h t fun u => u.setRegs f.rd.toNat ws

/-- The bytes that a store of `n` bytes takes from RD, or from four registers from RD on. -/
def Thread.storeBytes (t : Thread) (rd : BitVec 6) (n : Nat) : Bytes :=
  (List.range (ceilDiv n 4)).flatMap fun i => leBytes (Nat.min n 4) (t.reg (rd + BitVec.ofNat 6 i)).toNat

/-- A store of `n` bytes: misaligned, beyond the store or in the code region, and into the range write-protected since the
last pause point, in that order (R133, R137, R145, assumption log 39: DEDUCED, unsafe). The thread alone sees the store until
`State.publish` (R134). -/
def State.storeI (major n : Nat) (h : Thr) (f : IForm) (s : State) : State :=
  s.issue h (iWord major f) fun j t =>
    let a := t.address f
    if a % n ≠ 0 then s.progTrap h t.pc 0x02 a
    else if storeSize < a + n || j.meetsCode a n then s.progTrap h t.pc 0x03 a
    else if j.meetsLive a n then s.progTrap h t.pc 0x04 a
    else (s.updThread h fun u => { u with stores := u.stores ++ [(a, t.storeBytes f.rd n)] }).goTo h (t.pc + 4)

/-- A system instruction that writes rd. -/
def State.sysR (fn : Nat) (op : Job → Thread → Word) (h : Thr) (f : RForm) (s : State) : State :=
  s.issueIf h f.gp f.gn (rWord 0x2C fn f) fun j t => s.retire_ h t fun u => u.setReg f.rd (op j t)

/-! ### Integer instructions -/

/-- ADD: rd = rs1 + rs2 (Table 5-3). -/
def execAdd (h : Thr) (f : RForm) (s : State) : Host.Outcome State Fault Refusal :=
  .next (s.intR 0 h f)

/-- SUB: rd = rs1 − rs2 (Table 5-3). -/
def execSub (h : Thr) (f : RForm) (s : State) : Host.Outcome State Fault Refusal :=
  .next (s.intR 1 h f)

/-- AND: rd = rs1 AND rs2 (Table 5-3). -/
def execAnd (h : Thr) (f : RForm) (s : State) : Host.Outcome State Fault Refusal :=
  .next (s.intR 2 h f)

/-- OR: rd = rs1 OR rs2 (Table 5-3). -/
def execOr (h : Thr) (f : RForm) (s : State) : Host.Outcome State Fault Refusal :=
  .next (s.intR 3 h f)

/-- XOR: rd = rs1 XOR rs2 (Table 5-3). -/
def execXor (h : Thr) (f : RForm) (s : State) : Host.Outcome State Fault Refusal :=
  .next (s.intR 4 h f)

/-- SLL: rd = rs1 shifted left by the low 5 bits of rs2 (Table 5-3). -/
def execSll (h : Thr) (f : RForm) (s : State) : Host.Outcome State Fault Refusal :=
  .next (s.intR 5 h f)

/-- SRL: rd = rs1 shifted right logically (Table 5-3). -/
def execSrl (h : Thr) (f : RForm) (s : State) : Host.Outcome State Fault Refusal :=
  .next (s.intR 6 h f)

/-- SRA: rd = rs1 shifted right arithmetically (Table 5-3). -/
def execSra (h : Thr) (f : RForm) (s : State) : Host.Outcome State Fault Refusal :=
  .next (s.intR 7 h f)

/-- SLT: rd = 1 if rs1 < rs2 signed (Table 5-3). -/
def execSlt (h : Thr) (f : RForm) (s : State) : Host.Outcome State Fault Refusal :=
  .next (s.intR 8 h f)

/-- SLTU: rd = 1 if rs1 < rs2 unsigned (Table 5-3). -/
def execSltu (h : Thr) (f : RForm) (s : State) : Host.Outcome State Fault Refusal :=
  .next (s.intR 9 h f)

/-- MIN: rd = the smaller, signed (Table 5-3). -/
def execMin (h : Thr) (f : RForm) (s : State) : Host.Outcome State Fault Refusal :=
  .next (s.intR 10 h f)

/-- MAX: rd = the larger, signed (Table 5-3). -/
def execMax (h : Thr) (f : RForm) (s : State) : Host.Outcome State Fault Refusal :=
  .next (s.intR 11 h f)

/-- MINU: rd = the smaller, unsigned (Table 5-3). -/
def execMinu (h : Thr) (f : RForm) (s : State) : Host.Outcome State Fault Refusal :=
  .next (s.intR 12 h f)

/-- MAXU: rd = the larger, unsigned (Table 5-3). -/
def execMaxu (h : Thr) (f : RForm) (s : State) : Host.Outcome State Fault Refusal :=
  .next (s.intR 13 h f)

/-- MUL: rd = the low 32 bits of the product (Table 5-3). -/
def execMul (h : Thr) (f : RForm) (s : State) : Host.Outcome State Fault Refusal :=
  .next (s.intR 14 h f)

/-- MULHU: rd = the high 32 bits of the unsigned product (Table 5-3). -/
def execMulhu (h : Thr) (f : RForm) (s : State) : Host.Outcome State Fault Refusal :=
  .next (s.intR 15 h f)

/-- ADDI: rd = rs1 + sign-extended IMM14. -/
def execAddi (h : Thr) (f : IForm) (s : State) : Host.Outcome State Fault Refusal :=
  .next (s.intI 0x02 (fun x => x + f.imm.signExtend 32) h f)

/-- ANDI: the zero-extended IMM14. -/
def execAndi (h : Thr) (f : IForm) (s : State) : Host.Outcome State Fault Refusal :=
  .next (s.intI 0x03 (fun x => x &&& f.imm.setWidth 32) h f)

/-- ORI: the zero-extended IMM14. -/
def execOri (h : Thr) (f : IForm) (s : State) : Host.Outcome State Fault Refusal :=
  .next (s.intI 0x04 (fun x => x ||| f.imm.setWidth 32) h f)

/-- XORI: the zero-extended IMM14. -/
def execXori (h : Thr) (f : IForm) (s : State) : Host.Outcome State Fault Refusal :=
  .next (s.intI 0x05 (fun x => x ^^^ f.imm.setWidth 32) h f)

/-- SHI: IMM14[13:12] selects SLL, SRL or SRA. -/
def execShi (h : Thr) (f : IForm) (s : State) : Host.Outcome State Fault Refusal :=
  .next (s.intI 0x06 (fun x => shiOp x f.imm) h f)

/-- LUI: rd = IMM20 × 4,096. -/
def execLui (h : Thr) (f : UForm) (s : State) : Host.Outcome State Fault Refusal :=
  .next (s.issue h (uWord 0x07 f) fun _ t =>
    s.retire_ h t fun u => u.setReg f.rd (BitVec.ofNat 32 (f.imm.toNat * 4096)))

/-! ### FP32 and packed BF16 instructions (R135) -/

/-- FADD (MAJOR 0x08, FN 0). -/
def execFadd (h : Thr) (f : RForm) (s : State) : Host.Outcome State Fault Refusal :=
  .next (s.flagR 0x08 0 (fpOp 0) h f)

/-- FSUB (MAJOR 0x08, FN 1). -/
def execFsub (h : Thr) (f : RForm) (s : State) : Host.Outcome State Fault Refusal :=
  .next (s.flagR 0x08 1 (fpOp 1) h f)

/-- FMUL (MAJOR 0x08, FN 2). -/
def execFmul (h : Thr) (f : RForm) (s : State) : Host.Outcome State Fault Refusal :=
  .next (s.flagR 0x08 2 (fpOp 2) h f)

/-- FMA (MAJOR 0x08, FN 3). -/
def execFma (h : Thr) (f : RForm) (s : State) : Host.Outcome State Fault Refusal :=
  .next (s.flagR 0x08 3 (fpOp 3) h f)

/-- FMIN (MAJOR 0x08, FN 4). -/
def execFmin (h : Thr) (f : RForm) (s : State) : Host.Outcome State Fault Refusal :=
  .next (s.flagR 0x08 4 (fpOp 4) h f)

/-- FMAX (MAJOR 0x08, FN 5). -/
def execFmax (h : Thr) (f : RForm) (s : State) : Host.Outcome State Fault Refusal :=
  .next (s.flagR 0x08 5 (fpOp 5) h f)

/-- FABS (MAJOR 0x08, FN 6). -/
def execFabs (h : Thr) (f : RForm) (s : State) : Host.Outcome State Fault Refusal :=
  .next (s.flagR 0x08 6 (fpOp 6) h f)

/-- FNEG (MAJOR 0x08, FN 7). -/
def execFneg (h : Thr) (f : RForm) (s : State) : Host.Outcome State Fault Refusal :=
  .next (s.flagR 0x08 7 (fpOp 7) h f)

/-- FCVTSW (MAJOR 0x08, FN 8). -/
def execFcvtSW (h : Thr) (f : RForm) (s : State) : Host.Outcome State Fault Refusal :=
  .next (s.flagR 0x08 8 (fpOp 8) h f)

/-- FCVTWS (MAJOR 0x08, FN 9). -/
def execFcvtWS (h : Thr) (f : RForm) (s : State) : Host.Outcome State Fault Refusal :=
  .next (s.flagR 0x08 9 (fpOp 9) h f)

/-- FEXP2 (MAJOR 0x08, FN 10). -/
def execFexp2 (h : Thr) (f : RForm) (s : State) : Host.Outcome State Fault Refusal :=
  .next (s.flagR 0x08 10 (fpOp 10) h f)

/-- FLOG2 (MAJOR 0x08, FN 11). -/
def execFlog2 (h : Thr) (f : RForm) (s : State) : Host.Outcome State Fault Refusal :=
  .next (s.flagR 0x08 11 (fpOp 11) h f)

/-- FRCP (MAJOR 0x08, FN 12). -/
def execFrcp (h : Thr) (f : RForm) (s : State) : Host.Outcome State Fault Refusal :=
  .next (s.flagR 0x08 12 (fpOp 12) h f)

/-- FRSQ (MAJOR 0x08, FN 13). -/
def execFrsq (h : Thr) (f : RForm) (s : State) : Host.Outcome State Fault Refusal :=
  .next (s.flagR 0x08 13 (fpOp 13) h f)

/-- BADD2 (MAJOR 0x09, FN 0). -/
def execBadd2 (h : Thr) (f : RForm) (s : State) : Host.Outcome State Fault Refusal :=
  .next (s.flagR 0x09 0 (bfOp 0) h f)

/-- BMUL2 (MAJOR 0x09, FN 1). -/
def execBmul2 (h : Thr) (f : RForm) (s : State) : Host.Outcome State Fault Refusal :=
  .next (s.flagR 0x09 1 (bfOp 1) h f)

/-- BFMA2 (MAJOR 0x09, FN 2). -/
def execBfma2 (h : Thr) (f : RForm) (s : State) : Host.Outcome State Fault Refusal :=
  .next (s.flagR 0x09 2 (bfOp 2) h f)

/-- BMAX2 (MAJOR 0x09, FN 3). -/
def execBmax2 (h : Thr) (f : RForm) (s : State) : Host.Outcome State Fault Refusal :=
  .next (s.flagR 0x09 3 (bfOp 3) h f)

/-- BPACK (MAJOR 0x09, FN 4). -/
def execBpack (h : Thr) (f : RForm) (s : State) : Host.Outcome State Fault Refusal :=
  .next (s.flagR 0x09 4 (bfOp 4) h f)

/-- BLO (MAJOR 0x09, FN 5). -/
def execBlo (h : Thr) (f : RForm) (s : State) : Host.Outcome State Fault Refusal :=
  .next (s.flagR 0x09 5 (bfOp 5) h f)

/-- BHI (MAJOR 0x09, FN 6). -/
def execBhi (h : Thr) (f : RForm) (s : State) : Host.Outcome State Fault Refusal :=
  .next (s.flagR 0x09 6 (bfOp 6) h f)

/-! ### Compares and predicates -/

/-- EQ (MAJOR 0x0A, FN 0). -/
def execEq (h : Thr) (f : RForm) (s : State) : Host.Outcome State Fault Refusal :=
  .next (s.cmpR 0 h f)

/-- NE (MAJOR 0x0A, FN 1). -/
def execNe (h : Thr) (f : RForm) (s : State) : Host.Outcome State Fault Refusal :=
  .next (s.cmpR 1 h f)

/-- LT (MAJOR 0x0A, FN 2). -/
def execLt (h : Thr) (f : RForm) (s : State) : Host.Outcome State Fault Refusal :=
  .next (s.cmpR 2 h f)

/-- LTU (MAJOR 0x0A, FN 3). -/
def execLtu (h : Thr) (f : RForm) (s : State) : Host.Outcome State Fault Refusal :=
  .next (s.cmpR 3 h f)

/-- GE (MAJOR 0x0A, FN 4). -/
def execGe (h : Thr) (f : RForm) (s : State) : Host.Outcome State Fault Refusal :=
  .next (s.cmpR 4 h f)

/-- GEU (MAJOR 0x0A, FN 5). -/
def execGeu (h : Thr) (f : RForm) (s : State) : Host.Outcome State Fault Refusal :=
  .next (s.cmpR 5 h f)

/-- FEQ (MAJOR 0x0A, FN 6). -/
def execFeq (h : Thr) (f : RForm) (s : State) : Host.Outcome State Fault Refusal :=
  .next (s.cmpR 6 h f)

/-- FLT (MAJOR 0x0A, FN 7). -/
def execFlt (h : Thr) (f : RForm) (s : State) : Host.Outcome State Fault Refusal :=
  .next (s.cmpR 7 h f)

/-- FLE (MAJOR 0x0A, FN 8). -/
def execFle (h : Thr) (f : RForm) (s : State) : Host.Outcome State Fault Refusal :=
  .next (s.cmpR 8 h f)

/-- PAND (MAJOR 0x0B, FN 0). -/
def execPand (h : Thr) (f : RForm) (s : State) : Host.Outcome State Fault Refusal :=
  .next (s.predR 0 h f)

/-- POR (MAJOR 0x0B, FN 1). -/
def execPor (h : Thr) (f : RForm) (s : State) : Host.Outcome State Fault Refusal :=
  .next (s.predR 1 h f)

/-- PXOR (MAJOR 0x0B, FN 2). -/
def execPxor (h : Thr) (f : RForm) (s : State) : Host.Outcome State Fault Refusal :=
  .next (s.predR 2 h f)

/-- PNOT (MAJOR 0x0B, FN 3). -/
def execPnot (h : Thr) (f : RForm) (s : State) : Host.Outcome State Fault Refusal :=
  .next (s.predR 3 h f)

/-- PTOS: rd = p7…p0 as bits. -/
def execPtos (h : Thr) (f : RForm) (s : State) : Host.Outcome State Fault Refusal :=
  .next (s.issueIf h f.gp f.gn (rWord 0x0B 4 f) fun _ t =>
    s.retire_ h t fun u => u.setReg f.rd (t.predBits.setWidth 32))

/-- STOP: p1 to p7 from bits [7:1] of rs1. -/
def execStop (h : Thr) (f : RForm) (s : State) : Host.Outcome State Fault Refusal :=
  .next (s.issueIf h f.gp f.gn (rWord 0x0B 5 f) fun _ t =>
    s.retire_ h t fun u => { u with preds := (t.reg f.rs1).setWidth 8 &&& 0xFE })

/-! ### Loads and stores -/

/-- LDB: 1 byte. -/
def execLdb (h : Thr) (f : IForm) (s : State) : Host.Outcome State Fault Refusal :=
  .next (s.loadI 0x10 1 h f)

/-- LDH: 2 bytes. -/
def execLdh (h : Thr) (f : IForm) (s : State) : Host.Outcome State Fault Refusal :=
  .next (s.loadI 0x11 2 h f)

/-- LDW: 4 bytes. -/
def execLdw (h : Thr) (f : IForm) (s : State) : Host.Outcome State Fault Refusal :=
  .next (s.loadI 0x12 4 h f)

/-- LDQ: 16 bytes. -/
def execLdq (h : Thr) (f : IForm) (s : State) : Host.Outcome State Fault Refusal :=
  .next (s.loadI 0x13 16 h f)

/-- STB: 1 byte. -/
def execStb (h : Thr) (f : IForm) (s : State) : Host.Outcome State Fault Refusal :=
  .next (s.storeI 0x14 1 h f)

/-- STH: 2 bytes. -/
def execSth (h : Thr) (f : IForm) (s : State) : Host.Outcome State Fault Refusal :=
  .next (s.storeI 0x15 2 h f)

/-- STW: 4 bytes. -/
def execStw (h : Thr) (f : IForm) (s : State) : Host.Outcome State Fault Refusal :=
  .next (s.storeI 0x16 4 h f)

/-- STQ: 16 bytes. -/
def execStq (h : Thr) (f : IForm) (s : State) : Host.Outcome State Fault Refusal :=
  .next (s.storeI 0x17 16 h f)

/-! ### Control -/

/-- BR: if p[P] XOR N, PC += 4 × sign-extended OFF22. -/
def execBr (h : Thr) (f : BForm) (s : State) : Host.Outcome State Fault Refusal :=
  .next (s.issue h (bWord f) fun _ t =>
    s.goTo h (if t.guard f.p f.n then pcPlus t.pc f.off.toInt else t.pc + 4))

/-- JAL: rd = PC + 4; PC += 4 × sign-extended IMM20. The value written counts from the start of the code section, as every PC does
(assumption log 161: DEDUCED, unsafe). -/
def execJal (h : Thr) (f : UForm) (s : State) : Host.Outcome State Fault Refusal :=
  .next (s.issue h (uWord 0x21 f) fun _ t =>
    (s.updThread h fun u => u.setReg f.rd (BitVec.ofNat 32 (t.pc + 4))).goTo h (pcPlus t.pc f.imm.toInt))

/-- JR: PC = rs1, an offset in the code section as every PC is (R131; assumption log 161: DEDUCED, unsafe). -/
def execJr (h : Thr) (f : RForm) (s : State) : Host.Outcome State Fault Refusal :=
  .next (s.issueIf h f.gp f.gn (rWord 0x22 0 f) fun _ t => s.goTo h (t.reg f.rs1).toNat)

/-- EXIT: the thread ends, its stores visible (R131, R134). -/
def execExit (h : Thr) (f : RForm) (s : State) : Host.Outcome State Fault Refusal :=
  .next (s.issueIf h f.gp f.gn (rWord 0x22 1 f) fun _ _ => (s.publish h).updThread h fun t => { t with st := .exited })

/-! ### System instructions -/

/-- TID: the thread number. -/
def execTid (h : Thr) (f : RForm) (s : State) : Host.Outcome State Fault Refusal :=
  .next (s.sysR 0 (fun _ _ => BitVec.ofNat 32 h.thread) h f)

/-- CID: the job-relative cluster index. -/
def execCid (h : Thr) (f : RForm) (s : State) : Host.Outcome State Fault Refusal :=
  .next (s.sysR 1 (fun _ _ => BitVec.ofNat 32 h.cluster) h f)

/-- NCL: the job's cluster count. -/
def execNcl (h : Thr) (f : RForm) (s : State) : Host.Outcome State Fault Refusal :=
  .next (s.sysR 2 (fun j _ => BitVec.ofNat 32 j.clusters.length) h f)

/-- FLAGS: the sticky flags, bit 0 NAN_SEEN and bit 1 ACC_SAT, as STICKY of Table 5-14 places them (assumption log 40: DESIGN CHOICE, unsafe). -/
def execFlags (h : Thr) (f : RForm) (s : State) : Host.Outcome State Fault Refusal :=
  .next (s.sysR 3 (fun j _ => BitVec.ofNat 32 (bit01 j.nan + 2 * bit01 j.accSat)) h f)

/-- TRAP: a software trap recording rs1. -/
def execTrap (h : Thr) (f : RForm) (s : State) : Host.Outcome State Fault Refusal :=
  .next (s.issueIf h f.gp f.gn (rWord 0x2C 4 f) fun _ t => s.progTrap h t.pc 0x0B (t.reg f.rs1).toNat)

/-- BTIME: low 32 bits of the beacon tick count. -/
def execBtime (h : Thr) (f : RForm) (s : State) : Host.Outcome State Fault Refusal :=
  .next (s.sysR 5 (fun _ _ => BitVec.ofNat 32 s.epoch) h f)

/-- WIDE: 1 if layer rs1 has been re-run wide in this run. -/
def execWide (h : Thr) (f : RForm) (s : State) : Host.Outcome State Fault Refusal :=
  .next (s.sysR 6 (fun j t => wordBit (j.wide.contains (t.reg f.rs1).toNat)) h f)

end Sys2Proof.Machine
end

