-- ==== Sys2Proof/Machine/Async.lean ====
section
/-! DEFINITION. Stream, engine, sync and pause instructions as threads issue them, and the ends of transfers and streams
(R119, R120, R127, R128, R138 to R143). -/
namespace Sys2Proof.Machine

/-! ### Stream instructions (R138, R139) -/

/-- A check that failed raises its trap against the instruction; otherwise `f` goes on. -/
def State.trapOr (s : State) (h : Thr) (pc : Nat) (c : IssueTrap) (f : State) : State :=
  match c with
  | some x => s.progTrap h pc x.1 x.2
  | none => f

/-- The descriptor that RA names lies in the store at a multiple of 64 (R138, assumption log 41: DEDUCED, unsafe). -/
def descAt (off : Nat) : IssueTrap := needs (off % 64 = 0 && off + 64 ≤ storeSize) 0x06 off

/-- Issue a stream instruction: it sees the thread's earlier stores, its descriptor is read and checked, and `run` sets the operation
up (R134, R138). -/
def State.streamOp (s : State) (fn : Nat) (h : Thr) (f : SForm) (check : Job → Nat → StreamDesc → IssueTrap)
    (run : Job → Thread → StreamDesc → State → State) : State :=
  s.issueIf h f.gp f.gn (sWord 0x28 fn f) fun j t =>
    let s := s.publish h
    let off := (t.reg f.ra).toNat
    let b := memRead (s.store (j.phys h.cluster)) off 64
    let d := decodeDesc b
    let bad := orElse (descAt off) (orElse (j.descCommon fn off b d) (check j off d))
    s.trapOr h t.pc bad ((run j t d s).goTo h (t.pc + 4))

/-- XFER: a copy begins (R139). -/
def execXfer (h : Thr) (f : SForm) (s : State) : Host.Outcome State Fault Refusal :=
  .next (s.streamOp 0 h f (fun j off d => s.xferCheck j off d) fun _ t d s =>
    s.updJob h.job fun j =>
      { j with
        nextXfer := j.nextXfer + 1
        xfers := j.xfers ++ [{ id := j.nextXfer, cluster := h.cluster, thread := h.thread, pc := t.pc, desc := d }] })

/-- The engine a bitmap of one engine names. -/
def oneEngine (m : Nat) : Nat := if m = 1 then 0 else if m = 2 then 1 else if m = 4 then 2 else 3

/-- LDIN: a load into an input bank half begins once its half is free of passes; a conversion takes its element indices now
(R89, R139). -/
def execLdin (h : Thr) (f : SForm) (s : State) : Host.Outcome State Fault Refusal :=
  .next (s.streamOp 1 h f (fun j off d => s.ldinCheck j off d) fun _ t d s =>
    let e : Eng := { job := h.job, cluster := h.cluster, engine := oneEngine d.dstEngines }
    let x := if d.conv then s.takeIndices h.job h.cluster d.convrec (d.lanes * d.length) else (0, s)
    x.2.queueEngOp e
      { kind := .load, thread := h.thread, pc := t.pc, half := d.half, sig := d.sig, sync := d.sync, desc := some d
        base := x.1 })

/-- The destinations of a stream: every engine named in every cluster named (R139). -/
def StreamDesc.dests (d : StreamDesc) : List (Nat × Nat) :=
  ((List.range 64).filter (bitAt d.dstClusters)).flatMap fun c =>
    ((List.range 4).filter (bitAt d.dstEngines)).map fun e => (c, e)

/-- WSTR: a stream is set up, or its set-up waits while the tree holds 64 (R120, R139). -/
def execWstr (h : Thr) (f : SForm) (s : State) : Host.Outcome State Fault Refusal :=
  .next (s.streamOp 2 h f (fun j off d => s.wstrCheck j off d) fun j t d s =>
    let k := match j.operand? d with | some o => d.length * o.block | none => 0
    let x := if d.conv then s.takeIndices h.job h.cluster d.convrec (d.lanes * k) else (0, s)
    let live := decide (s.treeStreams < 64)
    x.2.updJob h.job fun j =>
      { j with
        nextStream := j.nextStream + 1
        streams := j.streams ++
          [{ num := j.nextStream, handle := d.stream, cluster := h.cluster, desc := d, dests := d.dests, live := live
             thread := h.thread, pc := t.pc, base := x.1 }] })

/-! ### Engine instructions (R140, R141) -/

/-- Issue an engine instruction on the engine that RA[1:0] names; it sees the thread's earlier stores (R134). -/
def State.engineOp (s : State) (fn : Nat) (h : Thr) (f : SForm)
    (run : Job → Thread → Eng → Engine → Word → Word → Word → State → State) : State :=
  s.issueIf h f.gp f.gn (sWord 0x29 fn f) fun j t =>
    let ra := t.reg f.ra
    let e : Eng := { job := h.job, cluster := h.cluster, engine := ra.toNat % 4 }
    match s.engine? e with
    | none => s
    | some (_, g) => run j t e g ra (t.reg f.rb) (t.reg f.rc) (s.publish h)

/-- PASS: a pass is queued; with a running and a queued pass held the thread stalls (R112, R141). -/
def execPass (h : Thr) (f : SForm) (s : State) : Host.Outcome State Fault Refusal :=
  .next (s.engineOp 0 h f fun j t e g ra rb _ s =>
    let o := passOp h.thread t.pc ra rb
    if g.passesFull then s
    else s.trapOr h t.pc (j.passCheck e g ra o) ((s.queueEngOp e o).goTo h (t.pc + 4)))

/-- DRAIN: a tile is to be read out; a conversion takes its element indices now (R89, R115, R141). -/
def execDrain (h : Thr) (f : SForm) (s : State) : Host.Outcome State Fault Refusal :=
  .next (s.engineOp 1 h f fun j t e g ra rb rc s =>
    let o := drainOp h.thread t.pc ra rb rc
    let x := if o.outConv then s.takeIndices h.job h.cluster o.convrec 16384 else (0, s)
    s.trapOr h t.pc (j.drainCheck g ra o) ((x.2.queueEngOp e { o with base := x.1 }).goTo h (t.pc + 4)))

/-- ACCLD: a tile is to be loaded from the store (R113, R141). -/
def execAccld (h : Thr) (f : SForm) (s : State) : Host.Outcome State Fault Refusal :=
  .next (s.engineOp 2 h f fun j t e g ra rb _ s =>
    let o := accldOp h.thread t.pc ra rb
    s.trapOr h t.pc (j.accldCheck g o) ((s.queueEngOp e o).goTo h (t.pc + 4)))

/-- DISCARD: a FULL tile becomes EMPTY and an EMPTY one stays so; in any other state the thread waits (R141). -/
def execDiscard (h : Thr) (f : SForm) (s : State) : Host.Outcome State Fault Refusal :=
  .next (s.engineOp 3 h f fun _ t e g ra _ _ s =>
    let i := bitsAt ra.toNat 2 1
    let st := (g.tile i).state
    if st ≠ .full && st ≠ .empty then s
    else (s.updEngine e fun g => g.setTile i {}).goTo h (t.pc + 4))

/-! ### Sync instructions (R127, R128, R142) -/

/-- Issue a sync instruction: the object of RA must lie in the job's grant. -/
def State.syncOp (s : State) (fn : Nat) (h : Thr) (f : SForm) (run : Job → Thread → Nat → Word → State) : State :=
  s.issueIf h f.gp f.gn (sWord 0x2A fn f) fun j t =>
    let obj := (t.reg f.ra).toNat
    if obj < j.sync.length then run j t obj (t.reg f.rb) else s.progTrap h t.pc 0x08 obj

/-- SIGNAL: the thread's earlier stores become visible, and rb, from 1 to 65,535, is added to the counter (R134, R142). -/
def execSignal (h : Thr) (f : SForm) (s : State) : Host.Outcome State Fault Refusal :=
  .next (s.syncOp 0 h f fun _ t obj v =>
    if v.toNat = 0 ∨ 65535 < v.toNat then s.progTrap h t.pc 0x08 v.toNat
    else ((s.publish h).signal h t.pc obj v.toNat).goTo h (t.pc + 4))

/-- WAIT: hold the thread until the counter, compared unsigned, is at least rb. -/
def execWait (h : Thr) (f : SForm) (s : State) : Host.Outcome State Fault Refusal :=
  .next (s.syncOp 1 h f fun j t obj v =>
    if v.ule (j.sync.getD obj 0) then s.goTo h (t.pc + 4)
    else (s.goTo h (t.pc + 4)).updThread h fun t => if t.st = .stopped then t else { t with st := .waiting obj v })

/-- SET: the counter takes rb. -/
def execSet (h : Thr) (f : SForm) (s : State) : Host.Outcome State Fault Refusal :=
  .next (s.syncOp 2 h f fun _ t obj v => (s.setCounter h.job obj v).goTo h (t.pc + 4))

/-- READ: rc takes the counter. -/
def execRead (h : Thr) (f : SForm) (s : State) : Host.Outcome State Fault Refusal :=
  .next (s.syncOp 3 h f fun j t obj _ => s.retire_ h t fun u => u.setReg f.rc (j.sync.getD obj 0))

/-! ### PAUSE (R143) -/

/-- A thread of the job waits at a barrier other than `n`. -/
def Job.otherBarrier (j : Job) (n : Nat) : Bool :=
  j.clusters.any fun c => c.threads.any fun t => match t.st with
    | .barrier m => m ≠ n
    | _ => false

/-- PAUSE: the thread stops at the barrier, its PC at the PAUSE; an entry that does not name this instruction, or a thread at
another barrier, raises the pause-order trap. -/
def execPause (h : Thr) (index : BitVec 16) (s : State) : Host.Outcome State Fault Refusal :=
  .next (s.issue h (pWord index) fun j t =>
    let n := index.toNat
    let named := match j.pause? n with | some e => e.codeOffset = t.pc | none => false
    if !named || j.otherBarrier n then s.progTrap h t.pc 0x0A t.pc
    else (s.publish h).updThread h fun t => { t with st := .barrier n })

/-! ### Ends of transfers and streams (R120, R128, R139, R209) -/

/-- The pages of an object that a transfer writes. -/
def Job.xferPages (j : Job) (d : StreamDesc) : List (Nat × Nat × Nat) :=
  match j.bindings[d.dstSlot]? with
  | some b => pageList b.obj b.ver d.dstOffset d.length
  | none => []

/-- A transfer leaves the job and signals. -/
def State.finishXfer (id : Nat) (x : Xfer) (s : State) : State :=
  (s.updJob id fun j => { j with xfers := j.xfers.filter fun y => y.id ≠ x.id }).signalEnd
    { job := id, cluster := x.cluster, thread := x.thread } x.pc x.desc.sig x.desc.sync

/-- The copy of a transfer whose destination is an object: it waits while its bytes are not admitted, and where the object is
written through it goes on until they are on flash (R208, R209, Table 7-8). -/
def State.xferToObject (j : Job) (x : Xfer) (bs : Bytes) (s : State) : State :=
  match j.bindings[x.desc.dstSlot]? with
  | none => s
  | some b => match s.tiers.objects.find? (·.id = b.obj) with
    | none => s
    | some o =>
      if o.durable && !s.admitsDirty bs.length then s
      else
        let t := if o.durable then s.takeCredit bs.length else s
        let t := (t.touchSource j x.desc [(x.desc.srcOffset, x.desc.length)]).writeVersion b.obj b.ver x.desc.dstOffset bs
        if t.writesThrough o || (o.durable && (j.xferPages x.desc).any t.unmirrored) then
          (t.startWriteback (j.xferPages x.desc)).updJob j.id fun j =>
            { j with xfers := updWhere (fun y => y.id = x.id) (fun y => { y with written := true }) j.xfers }
        else t.finishXfer j.id x

/-- XFER_END: the bytes of a transfer are at their destination, and it signals. The source is read now (assumption log
42). -/
def execXferEnd (job id : Nat) (s : State) : Host.Outcome State Fault Refusal :=
  .next (
    match s.job? job with
    | none => s
    | some j => match (if s.haltedBy (.job job) then none else j.xfers.find? (·.id = id)) with
      | none => s
      | some x =>
        let d := x.desc
        if x.written then
          let mapped := (s.xferMaps j x).any fun m => s.ftl.dirtyMaps.any (·.page = m)
          if (s.stillDirty (j.xferPages d)).isEmpty && !mapped then s.finishXfer job x else s
        else
          let bs := s.srcRead j x.cluster d d.srcOffset d.length
          let t := s.touchSource j d [(d.srcOffset, d.length)]
          match d.dstSpace with
          | 0 => (t.updStore (j.phys x.cluster) fun m => memWrite m d.dstOffset bs).finishXfer job x
          | 2 => s.xferToObject j x bs
          | 3 => (t.updJob job fun j => { j with scratch := memWrite j.scratch d.dstOffset bs }).finishXfer job x
          | _ => (t.updJob job fun j => { j with result := memWrite j.result d.dstOffset bs }).finishXfer job x)

/-- STREAM_END: every block of a stream has been delivered; it leaves the tree and signals, and a set-up that waits takes its
place (R120, R128). -/
def execStreamEnd (job handle : Nat) (s : State) : Host.Outcome State Fault Refusal :=
  .next (
    match s.job? job with
    | none => s
    | some j => match j.streams.find? fun t =>
        t.handle = handle && t.live && !t.ended && t.delivered = t.desc.length && !s.haltedBy (.job job) with
      | none => s
      | some x =>
        let t := s.updJob job fun j =>
          ({ j with streams := updWhere (·.num = x.num) (fun t => { t with ended := true }) j.streams } : Job).tidyStreams
        (t.signalEnd { job := job, cluster := x.cluster, thread := x.thread } x.pc x.desc.sig x.desc.sync).fillTree)

end Sys2Proof.Machine
end

