-- ==== Sys2Proof/Machine/Media.lean ====
section
/-! DEFINITION. Raw media operations of the TST block (R527, R528) and the service of the flash array they share with the
die events: erases that fail, journal units, released parity, scans, reclamation. -/
namespace Sys2Proof.Machine

/-- Every status of Table 2-11, in code order. -/
def Status.all : List Status :=
  [.ok, .shortResult, .duplicate, .reReduced, .widerRerun, .invalidOpcode, .invalidField, .invalidLength, .unitAbsent,
   .versionRetired, .objectNotFound, .sequenceError, .hostAccessFault, .outOfRange, .notErased, .mediaUncorrectable,
   .writeProtected, .objectImpaired, .streamAlignment, .jobFault, .preemptLimit, .unitClosed, .budgetExceeded,
   .capacityExhausted, .deadlineExpired, .authFailed, .rollbackRefused, .accessDenied, .measurementMismatch]

/-- Change the TST block. -/
def State.updTst (f : TestBlock → TestBlock) (s : State) : State := { s with test := f s.test }

/-- The raw operation under way ends with a status. -/
def State.rawDone (st : Status) (s : State) : State := s.updTst fun t => { t with busy := none, status := st }

/-- The status of a raw operation that its die ends in a fail status (Config.rawFailCode). -/
def State.rawFail (s : State) : State :=
  let (k, s) := s.takeFree
  s.rawDone (Status.all.getD (Config.rawFailCode k % Status.all.length) .ok)

/-- A raw operation of this kind on this unit is under way. -/
def State.rawOn (s : State) (op : RawOp) (d : Die) (u : Nat) : Bool :=
  s.test.busy = some op && addrDie s.test.addr = d && addrUnit s.test.addr = u

/-- `TST_MEDIA_ADDR` names a multi-plane page of a fitted die: DIE below the grade's dies, UNIT and WORDLINE in range, RSVD
zero (Table 12-2). -/
def State.rawAddrOk (s : State) : Bool :=
  let a := s.test.addr
  s.grade.hasDie (addrDie a) && addrUnit a < unitsPerDie && bitsAt a 23 10 < 576 && a < 2 ^ 36
    && (!bitAt a 35 || bitsAt a 33 2 = 0)

/-- A write of OP is accepted: through a port, in phase SERVICE, while no raw operation runs; one written while BUSY sets
ERR (R527, Table 22-11). An address outside Table 12-2 gives `INVALID_FIELD` and reaches no die. -/
def State.rawOp (port : Nat) (s : State) (f : Die → EraseUnit → State) : State :=
  if !s.portAccepts port || s.power.flush = .running || s.power.phase ≠ .service then s
  else if s.test.busy.isSome then s.updTst fun t => { t with err := true }
  else if !s.rawAddrOk then s.rawDone .invalidField
  else f (addrDie s.test.addr) (s.eunit (addrDie s.test.addr) (addrUnit s.test.addr))

/-- READ: one multi-plane page of any unit into the window, at the priority of foreground operations (R527, R528). -/
def execMediaRead (port : Nat) (s : State) : Host.Outcome State Fault Refusal :=
  .next (s.rawOp port fun d e =>
    (s.updTst fun t => { t with busy := some .read }).queueOp
      { die := d, kind := .read, unit := e.unit, page := addrPage s.test.addr e.slc, prio := .foreground, owner := .raw })

/-- Good units of a die that no location unit binds and that are not lent (R527). -/
def State.unboundGood (s : State) (d : Die) : Nat :=
  let di := s.grade.dieIndex d
  unitsPerDie - (s.flash.units.filter fun e => e.die = d
    && (e.state = .bad || e.role = .lent || (s.lunitOf? di e.unit).isSome)).length

/-- LEND: a good unit of the reserve that no location unit binds (R527). -/
def execMediaLend (port : Nat) (s : State) : Host.Outcome State Fault Refusal :=
  .next (s.rawOp port fun d e =>
    if !e.isReserve || (s.lunitOf? (s.grade.dieIndex d) e.unit).isSome then s.rawDone .invalidField
    else if s.unboundGood d < 5 || s.freeCount d < 12 then s.rawDone .capacityExhausted
    else (s.updEunit d e.unit fun x => { x with role := .lent }).noteProtection.rawDone .ok)

/-- A refused program: nothing is written, no pointer moves, one record names the page address (R323). -/
def State.refuseProgram (d : Die) (u n : Nat) (slc : Bool) (s : State) : State :=
  s.raise { faultOf 0x0B 4 with location := physAddr d u n slc }

/-- PROGRAM: the window into a lent unit under R323 (R527). -/
def execMediaProgram (port : Nat) (s : State) : Host.Outcome State Fault Refusal :=
  .next (s.rawOp port fun d e =>
    let n := addrPage s.test.addr e.slc
    if e.role ≠ .lent then s.rawDone .invalidField
    else if !e.admits n then (s.refuseProgram d e.unit n e.slc).rawDone .notErased
    else
      ((s.updTst fun t => { t with busy := some .program }).queueBlank .foreground d e).queueOp
        { die := d, kind := .program, unit := e.unit, page := n, prio := .foreground, owner := .raw
          fill := some { data := memRead s.test.window 0 65536 } })

/-- ERASE: of a lent unit under R331, in the mode of the address's SLC bit (R527). A unit whose erase is under way, or that
is BAD, is not erased. -/
def execMediaErase (port : Nat) (s : State) : Host.Outcome State Fault Refusal :=
  .next (s.rawOp port fun d e =>
    if e.role ≠ .lent || e.state = .bad || e.state = .erasing then s.rawDone .invalidField
    else (s.updTst fun t => { t with busy := some .erase }).startErase .raw .lent (bitAt s.test.addr 35) d e.unit)

/-- RETURN: a lent unit back to the reserve; one that is not FREE is erased before the FTL binds it (R527). -/
def execMediaReturn (port : Nat) (s : State) : Host.Outcome State Fault Refusal :=
  .next (s.rawOp port fun d e =>
    if e.role ≠ .lent then s.rawDone .invalidField
    else
      let t := (s.updEunit d e.unit fun x => { x with role := .reserve }).rawDone .ok
      let t := if e.state = .opened || e.state = .closed || e.state = .verified then
        t.startErase .reclaim .reserve false d e.unit else t
      t.noteProtection)

/-! ### Journal units (R330) -/

/-- The INTENT of an erase whose DONE has not followed in both copies. -/
def State.openIntent (s : State) (r : JournalRec) : Bool :=
  r.typ = .intent && !(s.flash.journal.any fun q =>
    q.typ = .done && q.die = r.die && q.unit = r.unit && r.seq < q.seq && q.durableA && q.durableB)

/-- Erase a journal unit, without a record (R330). -/
def State.eraseJournal (e : EraseUnit) (s : State) : State :=
  (s.updEunit e.die e.unit fun x => { x with state := .erasing }).queueOp
    { die := e.die, kind := .erase, unit := e.unit, page := 1, prio := .foreground, owner := .reclaim }

/-- Closed journal units whose every INTENT has its DONE later in the chain are erased for reuse, without a record
(R330). The highest SEQ a unit holds stands in `maxWseq`. -/
def State.recycleJournal (s : State) : State :=
  (s.flash.units.filter fun e => (e.role = .journalA || e.role = .journalB) && e.state = .closed
      && !(s.flash.journal.any fun r => r.seq ≤ e.maxWseq && s.openIntent r)).foldl
    (fun t e => t.eraseJournal e) s

/-- A journal unit that fails to erase or program leaves its pool with a POOL_BAD record in both copies (R330). -/
def State.poolBad (d : Die) (u : Nat) (s : State) : State :=
  ((s.updEunit d u fun x => { x with state := .bad }).raise
    { faultOf 0x0A 0 with location := physAddr d u 0 true }).journal .poolBad true d u

/-! ### Reclamation, migration and scans (R355, R358, R363 to R368) -/

/-- Dies with a listed unit. -/
def State.listedDies (s : State) : List Die := (s.flash.units.map (·.die)).eraseDups

/-- Relocate a unit's valid data unless that is under way. An OPEN unit is closed first (Table 12-4). -/
def State.relocateOnce (prio : DiePrio) (e : EraseUnit) (s : State) : State :=
  let x := s.eunit e.die e.unit
  if x.waitMaps.isSome then s
  else if x.state = .opened then (s.closeSetOf x).closeSets
  else (s.relocateUnit prio e).eraseReclaimed

/-- A unit of the die is being reclaimed. -/
def State.reclaimingUnit (s : State) (d : Die) : Bool :=
  s.flash.units.any fun e => e.die = d && e.waitMaps.isSome && !e.slc

/-- Reclaim the victim of a die (R364). -/
def State.reclaimDie (prio : DiePrio) (d : Die) (s : State) : State :=
  if s.reclaimingUnit d then s
  else match s.victim? d with
    | some e => s.relocateOnce prio e
    | none => s

/-- Foreground reclamation of the dies in the bands below 24 free units (Table 13-4). -/
def State.reclaimForeground (s : State) : State :=
  (s.listedDies.filter fun d => s.freeCount d < 24).foldl (fun t d => t.reclaimDie .foreground d) s

/-- Background reclamation of a die inside a window: below 48 free units, and once started until 64 are free (Table
13-4). -/
def State.reclaimBackground (d : Die) (s : State) : State :=
  let di := s.grade.dieIndex d
  let f := s.freeCount d
  let on := f < 48 || (s.ftl.reclaiming.contains di && f < 64)
  let rest := s.ftl.reclaiming.filter (· ≠ di)
  let t : State := { s with ftl := { s.ftl with reclaiming := if on then di :: rest else rest } }
  if on then t.reclaimDie .background d else t

/-- A closed unit of the SLC region that can be emptied: of the HOST stream, unless everything valid in it is homed in tier 2, of the MAP
stream, or of checkpoints and repair lists older than those that stand (R348, R357, R358). -/
def State.emptiable (s : State) (e : EraseUnit) : Bool :=
  let luns := s.validLuns e.die e.unit
  e.slc && e.waitMaps = none && (e.state = .closed || e.state = .verified) &&
    ((e.role = .host && (luns.isEmpty || luns.any fun l => !s.homedSlc l)) || e.role = .map
      || (e.role = .checkpoint && match s.ftl.lastCheckpoint with | some c => e.maxWseq < c.wseq | none => false))

/-- The oldest of them on a die, by the highest WSEQ it holds. -/
def State.oldestBuffer? (s : State) (d : Die) : Option EraseUnit :=
  (s.flash.units.filter fun e => e.die = d && s.emptiable e).foldl
    (fun best e => some (match best with | some b => if e.maxWseq < b.maxWseq then e else b | none => e)) none

/-- Migrate one buffer unit of a die to QLC through the RELOCATE stream (R358). -/
def State.migrateDie (prio : DiePrio) (d : Die) (s : State) : State :=
  match s.oldestBuffer? d with
  | some e => s.relocateOnce prio e
  | none => s

/-- Migration while the buffer of a die is more than half full (R358). -/
def State.migrateFull (s : State) : State :=
  (s.listedDies.filter fun d => s.ftl.slcUnits < 2 * s.bufferUnits d).foldl (fun t d => t.migrateDie .background d) s

/-- Read-disturb threshold of a unit (R366). -/
def EraseUnit.disturbLimit (e : EraseUnit) : Nat := if e.slc then 1000000 else 200000

/-- Queue the reads of a read-disturb scan: every page of the unit (R366). -/
def State.scanUnit (e : EraseUnit) (s : State) : State :=
  (List.range e.n).foldl
    (fun t n => t.queueOp { die := e.die, kind := .read, unit := e.unit, page := n, prio := .background, owner := .scan })
    (s.updEunit e.die e.unit fun x => { x with scan2 := 0 })

/-- A scan of the unit is under way. -/
def State.scanning (s : State) (e : EraseUnit) : Bool :=
  s.flash.ops.any fun o => o.die = e.die && o.unit = e.unit && (o.owner = .scan || o.owner = .retention)

/-- The sample reads of a retention visit: first and last page of wordlines 0, 191, 383 and 575 (R367). -/
def EraseUnit.samples (e : EraseUnit) : List Nat :=
  if e.slc then [0, 191, 383, 575]
  else [0, 191, 383, 575].flatMap fun w => [4 * w, 4 * w + 3]

/-- Queue a retention visit of a unit. -/
def State.visitUnit (e : EraseUnit) (s : State) : State :=
  (e.samples.filter (· < e.n)).foldl
    (fun t n => t.queueOp
      { die := e.die, kind := .read, unit := e.unit, page := n, prio := .background, owner := .retention })
    (s.updEunit e.die e.unit fun x => { x with visited := s.bt })

/-- Units the retention scan visits in this window: those last visited, or closed, a whole period ago, and while a full
pass is due those it has not reached, as many a window as spread it over its time (R367). -/
def State.retentionUnits (s : State) : List EraseUnit :=
  let all := s.flash.units.filter fun e => e.state = .closed || e.state = .verified
  let due := all.filter fun e => s.elapsed (Nat.max e.visited e.closedBt) 1209600000000
  let pass := match s.ftl.fullPass with
    | none => []
    | some t0 => (all.filter fun e => e.visited < t0).take (ceilDiv all.length 8640000)
  (due ++ pass).eraseDups.filter fun e => !s.scanning e

/-- The full pass ends when every unit has been reached. -/
def State.endPass (s : State) : State :=
  match s.ftl.fullPass with
  | none => s
  | some t0 =>
    if s.flash.units.any fun e => (e.state = .closed || e.state = .verified) && e.visited < t0 then s
    else { s with ftl := { s.ftl with fullPass := none } }

/-- The wear counts of a die's good units differ by more than 800 (R368). Units that are not listed have no wear. -/
def State.wornApart (s : State) (d : Die) : Bool :=
  let w := (s.flash.units.filter fun e => e.die = d && e.state ≠ .bad).map (·.wear)
  let lo := if w.length = unitsPerDie then w.foldl Nat.min (w.headD 0) else 0
  lo + 800 < w.foldl Nat.max 0

/-- Static wear levelling of one unit in this window: the VERIFIED unit with the lowest count, or the dusk unit where that has the lowest.
A dusk or tier-2 unit is replaced first, under a checkpoint (R368). -/
def State.levelWear (s : State) : State :=
  match s.listedDies.find? s.wornApart with
  | none => s
  | some d =>
    match (s.flash.units.filter fun e => e.die = d && e.state = .verified && e.waitMaps = none).foldl
        (fun best e => some (match best with | some b => lessWorn b e | none => e)) (some (s.duskUnit d)) with
    | none => s
    | some e =>
      if e.role = .dusk then
        (if s.ftl.swap.isSome then s else ({ s with ftl := { s.ftl with swap := some d } } : State).checkpoint)
      else (if e.slc && e.role = .host then s.checkpoint else s).relocateOnce .background e

/-- The DRAM patrol takes its share of the window; a period of 604,800,000,000 BT begins afresh when it ends (R449). -/
def State.patrol (s : State) : State :=
  let e := s.err
  if s.elapsed e.patrolSince 604800000000 then
    { s with err := { e with patrolSince := s.bt, patrolLines := 1 } }
  else { s with err := { e with patrolLines := e.patrolLines + 1 } }

/-- A background window opens 10,000 BT after the last and stays open for 2,500 BT; in it reclamation, migration, scans,
wear levelling and the DRAM patrol issue their work at the lowest priority (R365, R358, R363, R366 to R368, R449). While
R38 cuts background flash work nothing of flash issues. -/
def execBackgroundWindow (s : State) : Host.Outcome State Fault Refusal :=
  .next (
    if s.bt < s.ftl.nextWindow || s.power.phase ≠ .service then s
    else
      let t : State := { s with ftl := { s.ftl with nextWindow := s.bt + 10000, windowEnd := s.bt + 2500 } }
      let t := t.listedDies.foldl (fun t d => ((t.reclaimBackground d).migrateDie .background d).fitRegion d) t.retryMoves
      let t := (t.flash.units.filter fun e => e.disturbLimit ≤ e.reads && !t.scanning e
        && (e.state = .closed || e.state = .verified || e.state = .opened)).foldl (fun t e => t.scanUnit e) t
      let t := t.retentionUnits.foldl (fun t e => t.visitUnit e) t
      t.endPass.levelWear.patrol.issueStores)

/-- Rows whose every member unit is VERIFIED, erased or BAD release their parity page, and a full parity unit that holds no
unreleased page is erased for the PARITY stream again (R355). -/
def State.releaseParity (s : State) : State :=
  let spent := fun (r : Row) (m : Nat × Nat) =>
    let e := s.eunit (s.grade.dieOf m.1) m.2
    e.gen ≠ r.gen || !(e.state = .closed || e.state = .opened)
  let t : State := { s with ftl := { s.ftl with rows := s.ftl.rows.filter fun r => !((r.members.zip r.units).all (spent r)) } }
  (t.flash.units.filter fun e => e.role = .parity && (e.state = .closed || e.state = .verified) && !e.failing
      && !(t.ftl.rows.any fun r => r.asked && r.parityDie = t.grade.dieIndex e.die && r.parityUnit = e.unit)).foldl
    (fun t e => t.startErase .reclaim .parity true e.die e.unit) t

/-- A closed unit is read back: VERIFIED when every codeword decodes at stage 1 or 2; else its valid data is relocated, what
failed rebuilt from parity, and it is erased, or becomes BAD at the second failure of its life (R354, R355). It serves as a
read-disturb scan that is due (R373). The operands count its codewords that needed stage 2 and stage 3 and those that failed; the
others needed stage 1, and each is counted (R319). -/
def execVerifyAfterClose (d : Die) (unit : Nat) (stages : StageCounts) (s : State) : Host.Outcome State Fault Refusal :=
  .next (
    let e := s.eunit d unit
    if e.state ≠ .closed || e.failing || e.waitMaps.isSome || (poolRole d unit).isSome then s
    else
      let rd := fun x : EraseUnit => if x.disturbLimit ≤ x.reads then 0 else x.reads + x.n
      let s := s.updChannel d.channel fun k => { k with
        stage1 := k.stage1 + (16 * e.n - (stages.stage2 + stages.stage3 + stages.failed)), stage2 := k.stage2 + stages.stage2
        stage3 := k.stage3 + stages.stage3, uncorrectable := sat32 (k.uncorrectable + stages.failed) }
      if stages.stage3 + stages.failed = 0 then
        ((s.updEunit d unit fun x => { x with state := .verified, reads := rd x }).releaseParity).serveFlash
      else
        let t := s.updEunit d unit fun x =>
          { x with verifyFails := x.verifyFails + 1, failing := 1 ≤ x.verifyFails, reads := rd x }
        t.relocateOnce .foreground (t.eunit d unit))

end Sys2Proof.Machine
end

