-- ==== Sys2Proof/Machine/Fetch.lean ====
section
/-! DEFINITION. Die reads for block and object commands: what a command reads from flash, in which order its reads enter the die queues,
and what a read that fails takes with it (R181, R199, R269, R281, R287, R319, R335, R343, R452, R468). -/
namespace Sys2Proof.Machine

/-- Queue the die reads of a logical unit for a command, one for each slot that holds of it; they may suspend a program or erase of the
die (R335, R343). -/
def State.queueRead (owner : DieOpOwner) (lun : Nat) (s : State) : State :=
  (s.readSlots lun).foldl (fun t x =>
    t.queueOp { die := x.1, kind := .read, unit := x.2.1, page := x.2.2, prio := .read, owner := owner }) s

/-- Bytes that a range has in a 64 KiB unit. -/
def bytesIn (u : Nat) (r : Nat × Nat) : Nat := Nat.min (r.1 + r.2) (65536 * (u + 1)) - Nat.max r.1 (65536 * u)

/-- Some page of the range that lies in the unit is held by flash alone: no DRAM copy of the unit, and the page is not dirty. -/
def Obj.onFlash (o : Obj) (v : Version) (u : Nat) (r : Nat × Nat) : Bool :=
  !(o.tier = 1 && !o.outDram.contains (v.num, u)) && !(o.copies.any fun c => c.ver = v.num && c.unit = u)
    && (pagesOf r.1 r.2).any fun p => p / 16 = u && !(v.dirty.any (·.page = p))

/-- The logical units that a reader of ranges of a version reads from flash, with the 64-byte lines it reads of each: the DRAM copy serves
where one lies (R181, R269, R281). -/
def State.flashReads (s : State) (id n : Nat) (rs : List (Nat × Nat)) : List FlashRead :=
  match s.tiers.objects.find? (·.id = id), s.version? id n with
  | some o, some v =>
    let us := (rs.flatMap fun r => (unitsOf r.1 r.2).filter fun u => o.onFlash v u r).eraseDups
    (us.filter fun u => (s.locate (s.mapEntry (v.lun + u))).isSome).map fun u =>
      { lun := v.lun + u, lines := ((rs.filter fun r => o.onFlash v u r).map fun r => ceilDiv (bytesIn u r) 64).foldl (· + ·) 0 }
  | _, _ => []

/-- The reads a command still waits for. -/
def Slot.fetching (c : Slot) : List FlashRead := c.fetch.getD []

/-- Line reads of 64 bytes outstanding for commands of an opcode (R287). -/
def State.linesOut (s : State) (op : Nat) : Nat :=
  ((s.atr.slots.filter fun c => c.opcode = op).flatMap fun c => (c.fetching.filter (·.issued)).map (·.lines)).foldl (· + ·) 0

/-- The gather engine may issue the read: it holds at most 65,536 line reads outstanding, 16,384 of them for prefetches, and those of
every GATHER come first (R287). -/
def State.mayFetch (s : State) (op lines : Nat) : Bool :=
  match op with
  | 0x51 => s.linesOut 0x51 + s.linesOut 0x52 + lines ≤ 65536
  | 0x52 => s.linesOut 0x51 + s.linesOut 0x52 + lines ≤ 65536 && s.linesOut 0x52 + lines ≤ 16384
      && !(s.atr.slots.any fun c => c.opcode = 0x51 && c.fetching.any fun r => !r.issued)
  | _ => true

/-- The queues of the dies that hold the unit have room for a read: of their 8 entries programs and erases take at most 6 (R475). -/
def State.roomFor (s : State) (lun : Nat) : Bool :=
  (s.readSlots lun).all fun x =>
    let mine := s.flash.ops.filter fun o => o.die = x.1 && o.st ≠ .held
    let reads := (mine.filter fun o => o.kind = .read).length
    Nat.min 6 (mine.length - reads) + reads < 8

/-- Change the reads a command waits for. -/
def State.updFetch (slot : Nat) (f : List FlashRead → List FlashRead) (s : State) : State :=
  s.updSlot slot fun c => { c with fetch := c.fetch.map f }

/-- Issue a read of a command where it may; one whose unit has left flash is not needed any more. -/
def State.fetchOne (slot op : Nat) (s : State) (r : FlashRead) : State :=
  if r.issued then s
  else if (s.readSlots r.lun).isEmpty then s.updFetch slot fun l => l.filter fun q => q.lun ≠ r.lun
  else if s.mayFetch op r.lines && s.roomFor r.lun then
    (s.updFetch slot fun l => updWhere (fun q => q.lun = r.lun) (fun q => { q with issued := true }) l).queueRead
      (.object slot r.lun) r.lun
  else s

/-- Issue reads that wait in their commands, those of the earliest-admitted command first, and those of prefetches last (R269,
R287). Slots stand in admission order. -/
def State.pumpFetch (s : State) : State :=
  let go := fun (t : State) (c : Slot) => c.fetching.foldl (State.fetchOne c.id c.opcode) t
  ((s.atr.slots.filter fun c => c.opcode ≠ 0x52) ++ s.atr.slots.filter fun c => c.opcode = 0x52).foldl go s

/-- A command waits for its reads. -/
def State.startReads (slot : Nat) (rs : List FlashRead) (s : State) : State :=
  (s.updSlot slot fun c => { c with phase := .running, fetch := some rs }).pumpFetch

/-- Pages of a logical unit that a read did not give back: those whose codeword failed, and all of a unit that lies compressed (R319,
R343). -/
def State.unreadPages (s : State) (o : DieOp) (lun : Nat) (stages : List Nat) : List Nat :=
  match s.pageImage? o.die o.unit o.page with
  | none => List.range 16
  | some p =>
    let bad := ((List.range 16).filter fun i => 3 ≤ stages.getD i 0).map fun i => p.metas.getD i {}
    let mine := bad.filter fun m => m.lun = lun && 0 < m.sectors
    if mine.any (·.compressed) then List.range 16 else mine.map (·.sector)

/-- What a failed die read takes from the version whose home it is: its pages that have no copy in DRAM (Table 17-1). -/
def State.loseHome (o : DieOp) (lun : Nat) (stages : List Nat) (s : State) : State :=
  match s.ownerOf? lun with
  | none => s
  | some (b, v, u) =>
    s.losePages b.id v.num (((s.unreadPages o lun stages).map (· + 16 * u)).filter fun p => b.onFlash v u (4096 * p, 4096))

/-- A die read for an object command ends. -/
def State.objectRead (slot lun : Nat) (o : DieOp) (stages : List Nat) (lost : Bool) (s : State) : State :=
  let t := if lost then s.loseHome o lun stages else s
  if t.ownerBusy o.owner then t else t.updFetch slot fun l => l.filter fun r => r.lun ≠ lun

end Sys2Proof.Machine
end

