-- ==== Sys2Proof/Machine/Object.lean ====
section
/-! DEFINITION. The object commands other than OBJECT_WRITE (R198 to R200, R469, R547). -/
namespace Sys2Proof.Machine

/-- Default durability by kind (Table 1-7): folios and residual stores are volatile. -/
def kindDurable (kind : Nat) : Bool := kind ≠ 5 && kind ≠ 6

/-- The class a creating command gives: 0 default, 1 durable, 2 volatile; in vitrine mode an object homed in tier 1 is
volatile (R23, R186). -/
def State.classOf (s : State) (kind cls tier : Nat) : Bool :=
  if s.tiers.vitrine && tier = 1 then false else if cls = 0 then kindDurable kind else cls = 1

/-- Bytes of the device address range reserved for an object of a kind and size: 64 MiB for a program image (R545). -/
def reserveOf (kind size : Nat) : Nat := if kind = 2 then 67108864 else size

/-- The object whose device address range holds the address (R184, R545). -/
def State.objAt? (s : State) (a : Nat) : Option Obj :=
  s.tiers.objects.find? fun o => !o.gone && o.base ≤ a && a < o.base + reserveOf o.kind o.size

/-- Space an object takes of the device address range: up to a 64 KiB boundary. -/
def Obj.span (o : Obj) : Nat := ceilDiv (reserveOf o.kind o.size) 65536 * 65536

/-- Two ranges overlap. -/
def rangesMeet (a n b m : Nat) : Bool := a < b + m && b < a + n

/-- The lowest 64 KiB aligned base that meets no live object: 0 or the end of one (R184, assumption log 27: DEDUCED, unsafe). -/
def State.freeBase (s : State) (size : Nat) : Option Nat :=
  let ends := 0 :: s.tiers.objects.map fun o => o.base + o.span
  lowest (ends.filter fun b =>
    b + size ≤ 2 ^ 48 && !(s.tiers.objects.any fun o => rangesMeet b size o.base o.span))

/-- CLASS and TIER of a creating command are allowed in the view (Table 7-2, Table 7-4). -/
def State.classTierBad (s : State) (cls tier : Nat) : Bool :=
  cls = 3 || (if s.tiers.flagsView then tier = 0 else tier ≠ 0)

/-- Whether an object can be created: U and tier 2 leave room, the address range does, and a durable folio or residual
store is at most B/4 (R184, R211, R357, R369). -/
def State.createError (s : State) (kind size tier : Nat) (durable : Bool) : Option Status :=
  let n := ceilDiv size 65536
  if s.freeUnits < n then some .capacityExhausted
  else if tier = 2 && s.tier2Limit < s.tier2Units + n then some .capacityExhausted
  else if durable && (kind = 5 || kind = 6) && s.tiers.budget < 4 * size then some .budgetExceeded
  else if !s.tiers.flagsView && (s.freeBase (reserveOf kind size)).isNone then some .capacityExhausted
  else none

/-- Create an object with its first version (R195, R198). -/
def State.createObj (id kind tier size ver : Nat) (durable building : Bool) (s : State) : State :=
  let base := if s.tiers.flagsView then 0 else (s.freeBase (reserveOf kind size)).getD 0
  let (l, s) := s.takeLuns (homeBytes kind size)
  let v : Version := { num := ver, state := if building then .building else .current, size := size, lun := l }
  let o : Obj := { id := id, kind := kind, durable := durable, tier := tier, base := base, size := size
                   versions := [v] }
  ({ s with tiers := { s.tiers with objects := s.tiers.objects ++ [o] } } : State).fitSlc

/-- The ID is held: live, or given up with pinned versions (R199). -/
def State.idHeld (s : State) (id : Nat) : Bool := s.tiers.objects.any (·.id = id)

/-- The check "named objects exist" of step 8. -/
def noObject (s : State) (id : Nat) : Bool × Status × Nat := ((s.obj? id).isNone, .objectNotFound, 0)

/-- What a new version of an object must meet: a number above the current version's that no version holds, no version being
built, fewer than eight versions, and room in flash (R195, R197, R369; assumption log 45: DEDUCED, unsafe). -/
def State.newVersionChecks (s : State) (o : Obj) (n size : Nat) : List (Bool × Status × Nat) :=
  let cur := match o.current? with | some v => v.num | none => 0
  [(n ≤ cur || (o.ver? n).isSome, .invalidField, 44), (o.building?.isSome, .invalidField, 44)
   , (8 ≤ o.versions.length, .capacityExhausted, 0), (s.freeUnits < ceilDiv size 65536, .capacityExhausted, 0)]

/-- The version a reading command names: current, or superseded or retiring and pinned; never BUILDING (R195, R196). -/
def Obj.readable? (o : Obj) (n : Nat) : Option Version :=
  match o.named? n with
  | some v => if v.state = .building then none else some v
  | none => none

/-- The readable version of an object that a command names. -/
def State.readable? (s : State) (id n : Nat) : Option Version :=
  match s.obj? id with
  | some o => o.readable? n
  | none => none

/-- The object a read or write names and the offset in it: by ID, or in ADDR_MODE by device address (R184, R198). -/
def State.target (s : State) (e : Bytes) (addrMode : Bool) : Option Obj × Nat :=
  let off := field e 48 8
  if addrMode then
    match s.objAt? off with
    | some o => (some o, off - o.base)
    | none => (none, off)
  else (s.obj? (field e 40 4), off)

/-- The checks of ADDR_MODE, OFFSET and the length field at `lenOff` that OBJECT_WRITE and OBJECT_READ share (R198). -/
def State.rangeFields (s : State) (e : Bytes) (addrMode : Bool) (len lenOff : Nat) : List (Bool × Nat) :=
  [(addrMode && field e 40 4 ≠ 0, 40), (addrMode && field e 44 2 ≠ 0, 44), (addrMode && s.tiers.flagsView, 46),
   (addrMode && 2 ^ 48 ≤ field e 48 8, 48), (field e 48 8 % 4096 ≠ 0, 48), (len % 4096 ≠ 0, lenOff)]

/-- OBJECT_CREATE, 0x20. -/
def State.specObjectCreate (s : State) (e : Bytes) : OpSpec :=
  let kind := field e 46 1
  let ct := field e 47 1
  let size := field e 48 8
  { result := true, reserved := [(56, 8)], bits4 := [(16 ≤ ct, 47)]
    field5 := [(field e 40 4 = 0, 40), (field e 44 2 = 0, 44), (kind ≠ 1 && kind ≠ 7, 46)
               , (s.classTierBad (ct % 4) (ct / 4 % 4), 47), (size % 4096 ≠ 0, 48)]
    length6 := [(size = 0, 48), (field e 28 4 < 16, 28)]
    objects := [(s.idHeld (field e 40 4), .invalidField, 40)] }

/-- OBJECT_READ, 0x22. -/
def State.specObjectRead (s : State) (e : Bytes) : OpSpec :=
  let fl := field e 46 1
  let am := bitAt fl 3
  let len := field e 28 4
  let t := s.target e am
  let v := match t.1 with | some o => o.readable? (if am then 0 else field e 44 2) | none => none
  { result := true, reserved := [(47, 1), (56, 8)], bits4 := [(16 ≤ fl, 46)]
    field5 := (fl % 8 ≠ 0, 46) :: s.rangeFields e am len 28
    objects := [(t.1.isNone, if am then .outOfRange else .objectNotFound, 0), (v.isNone, .versionRetired, 0)
                , (match v with | some v => v.size < t.2 + len | none => false, .outOfRange, 0)]
    pins := match t.1, v with | some o, some v => [(o.id, v.num)] | _, _ => [] }

/-- OBJECT_MOVE, 0x23. -/
def State.specObjectMove (s : State) (e : Bytes) : OpSpec :=
  let off := field e 48 8
  let len := field e 56 4
  let o := s.obj? (field e 40 4)
  let v := s.readable? (field e 40 4) (field e 44 2)
  { reserved := [(60, 4)]
    field5 := [(3 < field e 46 1, 46), (field e 47 1 = 0 || 3 < field e 47 1, 47), (off % 4096 ≠ 0, 48)
               , (len % 4096 ≠ 0, 56)]
    length6 := [(len = 0, 56)]
    objects := [(o.isNone, .objectNotFound, 0), (v.isNone, .versionRetired, 0)
                , (match v with | some v => v.size < off + len | none => false, .outOfRange, 0)]
    pins := match v with | some v => [(field e 40 4, v.num)] | none => [] }

/-- OBJECT_RETIRE, 0x24. -/
def State.specObjectRetire (s : State) (e : Bytes) : OpSpec :=
  let n := field e 44 2
  let o := s.obj? (field e 40 4)
  { reserved := [(46, 18)]
    objects := [(o.isNone, .objectNotFound, 0)
                , (n ≠ 0 && (match o with | some o => (o.named? n).isNone | none => false), .versionRetired, 0)] }

/-- OBJECT_QUERY, 0x25. -/
def State.specObjectQuery (s : State) (e : Bytes) : OpSpec :=
  let id := field e 40 4
  { result := true, reserved := [(44, 20)]
    length6 := [(id ≠ 0 && field e 28 4 < 64, 28)]
    objects := [(id ≠ 0 && (s.obj? id).isNone, .objectNotFound, 0)] }

/-- OBJECT_DURABILITY, 0x26. -/
def State.specObjectDurability (s : State) (e : Bytes) : OpSpec :=
  let o := s.obj? (field e 40 4)
  { reserved := [(45, 19)]
    field5 := [(field e 44 1 ≠ 1 && field e 44 1 ≠ 2, 44)]
    objects := [(o.isNone, .objectNotFound, 0)
                , (s.tiers.vitrine && field e 44 1 = 1 && (match o with | some o => o.tier = 1 | none => false),
                    .invalidField, 44)] }

/-- OBJECT_FLUSH, 0x27. -/
def State.specObjectFlush (s : State) (e : Bytes) : OpSpec :=
  { reserved := [(44, 20)]
    objects := [(field e 40 4 ≠ 0 && (s.obj? (field e 40 4)).isNone, .objectNotFound, 0)] }

/-- OBJECT_CREATE: the object, its initial version CURRENT and reading as zeros; BASE is the result (R198). -/
def execObjectCreate (slot : Nat) (s : State) : Host.Outcome State Fault Refusal :=
  .next (s.runCmd slot 0x20 true fun c =>
    let id := c.arg 40 4
    let kind := c.arg 46 1
    let tier := c.arg 47 1 / 4 % 4
    let size := c.arg 48 8
    let durable := s.classOf kind (c.arg 47 1 % 4) tier
    if s.idHeld id then s.fail slot .invalidField 40
    else match s.createError kind size tier durable with
      | some st => s.fail slot st 0
      | none =>
        let t := s.createObj id kind tier size (c.arg 44 2) durable false
        let base := match t.obj? id with | some o => o.base | none => 0
        (t.writeResult c 0 (leBytes 8 base ++ zeroBytes 8)).done slot 0)

/-- The first lost page of a range of a version (R469). -/
def Version.firstLost (v : Version) (off len : Nat) : Option Nat :=
  lowest ((pagesOf off len).filter fun p => v.lost.contains p)

/-- Read a range of a version for a command: every page before the first lost one, and its byte offset within the
command where there is one (R199, R469). -/
def State.readVersion (c : Slot) (id n off len : Nat) (s : State) : State :=
  match s.version? id n with
  | none => s.fail c.id .objectNotFound 0
  | some v =>
    let t := s.touch id n off len
    match v.firstLost off len with
    | none => (t.writeResult c 0 (memRead v.data off len)).done c.id 0
    | some p =>
      let m := p * 4096 - off
      (t.writeResult c 0 (memRead v.data off m)).fail c.id .mediaUncorrectable m

/-- The offset an OBJECT_READ names in the object (R184). -/
def State.readOffset (s : State) (c : Slot) (id : Nat) : Nat :=
  match s.tiers.objects.find? (·.id = id) with
  | some o => if bitAt (c.arg 46 1) 3 then c.arg 48 8 - o.base else c.arg 48 8
  | none => c.arg 48 8

/-- An OBJECT_READ whose die reads have ended answers. -/
def State.endObjectRead (c : Slot) (s : State) : State :=
  match c.pins with
  | p :: _ => s.readVersion c p.1 p.2 (s.readOffset c p.1) c.resultLen
  | [] => s.fail c.id .objectNotFound 0

/-- OBJECT_READ: what lies on flash alone is read from its dies first (R181, R199, R469). -/
def execObjectRead (slot : Nat) (s : State) : Host.Outcome State Fault Refusal :=
  .next (s.runCmd slot 0x22 true fun c =>
    match c.pins with
    | p :: _ =>
      let rs := s.flashReads p.1 p.2 [(s.readOffset c p.1, c.resultLen)]
      if rs.isEmpty then s.endObjectRead c else s.startReads slot rs
    | [] => s.fail slot .objectNotFound 0)

/-- Host-pinned DRAM in units, were the given units pinned too (R200). -/
def State.pinnedDram (s : State) (id n : Nat) (us : List Nat) : Nat :=
  let held := s.tiers.objects.flatMap fun o : Obj =>
    (o.refs.filter fun r => r.who = .host && r.tier = 1).map fun r => (o.id, r.ver, r.unit)
  (held ++ us.map fun u => (id, n, u)).eraseDups.length

/-- A host PIN marks each unit once in the tier (R200). -/
def Obj.hostPin (o : Obj) (n u tier : Nat) : Obj :=
  if o.refs.any fun r => r.who = .host && r.ver = n && r.unit = u && r.tier = tier then o
  else { o with refs := o.refs ++ [⟨.host, n, u, tier⟩] }

/-- Pages of an evicted list of units that still have to be written back: those no one else refers to (R200, R203, R204). -/
def State.evictPages (s : State) (who : Holder) (id n : Nat) (us : List Nat) : List (Nat × Nat × Nat) :=
  match s.tiers.objects.find? (·.id = id) with
  | some o => s.stillDirty ((us.filter fun u => !o.refByOther n u who).flatMap (unitPages id n))
  | none => []

/-- Logical units of a version's units. -/
def State.homeLuns (s : State) (id n : Nat) (us : List Nat) : List Nat :=
  match s.version? id n with
  | some v => us.map (v.lun + ·)
  | none => []

/-- A PROMOTE or PIN of the host carried out: into DRAM it waits while there is no room (R200, R205). -/
def State.hostPromote (c : Slot) (since : Nat) (s : State) : Bool × State :=
  match c.pins with
  | [] => (true, s.fail c.id .objectNotFound 0)
  | (id, n) :: _ =>
    let tier := c.arg 47 1
    let us := unitsOf (c.arg 48 8) (c.arg 56 4)
    let r := s.promoteUnits id n tier us
    if r.1 then
      let t := if c.arg 46 1 = 2 then us.foldl (fun t u => t.updObj id fun o => o.hostPin n u tier) r.2 else r.2
      (true, if tier = 1 then t.done c.id 0 else t.awaitMoves c.id [] (t.homeLuns id n us))
    else (false, r.2.setWork c.id (.move since))

/-- OBJECT_MOVE: PROMOTE, EVICT, PIN or UNPIN of a range for the host (R200). An EVICT completes when the dirty pages of its units are
written back, at once where it is deferred; a PROMOTE or PIN into DRAM when there is room, for at most `TIR_PROMOTE_WAIT` (R205). -/
def execObjectMove (slot : Nat) (s : State) : Host.Outcome State Fault Refusal :=
  .next (s.runCmd slot 0x23 false fun c =>
    match c.pins with
    | [] => s.fail slot .objectNotFound 0
    | (id, n) :: _ =>
      let tier := c.arg 47 1
      let us := unitsOf (c.arg 48 8) (c.arg 56 4)
      match c.arg 46 1 with
      | 1 =>
        let t := s.dropRefs fun o r => o.id = id && r.who = .host && r.ver = n && us.contains r.unit
        let t := us.foldl (fun t u => t.evictUnit .host id n u tier) t
        t.awaitMoves slot (t.evictPages .host id n us) (t.homeLuns id n us)
      | 3 => (s.dropRefs fun o r => o.id = id && r.who = .host && r.ver = n && r.tier = tier
          && us.contains r.unit).done slot 0
      | op =>
        let moved := match s.tiers.objects.find? (·.id = id) with
          | some o => (us.filter fun u => !(o.inSlc n u)).length
          | none => 0
        if tier = 2 && s.tier2Limit < s.tier2Units + moved then s.fail slot .capacityExhausted 0
        else if op = 2 && tier = 1 && s.grade.dramBytes / 2 < s.pinnedDram id n us * 65536 then
          s.fail slot .capacityExhausted 0
        else (s.hostPromote c s.bt).2)

/-- OBJECT_RETIRE: of one version, or of every version and the ID (R199). -/
def execObjectRetire (slot : Nat) (s : State) : Host.Outcome State Fault Refusal :=
  .next (s.runCmd slot 0x24 false fun c =>
    let id := c.arg 40 4
    match s.obj? id with
    | none => s.fail slot .objectNotFound 0
    | some o =>
      if c.arg 44 2 ≠ 0 then (s.retire id (c.arg 44 2)).done slot 0
      else
        let t := s.updObj id fun o => { o with
          gone := true, refs := o.refs.filter (·.who ≠ .host)
          versions := o.versions.map fun v => { v with state := .retiring } }
        (t.settleObj o.id).fitSlc.done slot 0)

/-- Bytes of a version in a unit: of its content, and behind it of an index version's accession list (R227). -/
def Version.unitBytes (v : Version) (u : Nat) : Nat :=
  if u * 65536 < v.size then Nat.min 65536 (v.size - u * 65536)
  else Nat.min 65536 (v.listBase + v.listBytes - u * 65536)

/-- Bytes of a list of units (version, unit) of an object. -/
def Obj.bytesOf (o : Obj) (us : List (Nat × Nat)) : Nat :=
  (us.map fun x => match o.ver? x.1 with | some v => v.unitBytes x.2 | none => 0).foldl (· + ·) 0

/-- Every unit of an object's versions. -/
def Obj.allUnits (o : Obj) : List (Nat × Nat) := o.versions.flatMap fun v => v.units.map fun u => (v.num, u)

/-- The object query record of Table 7-5. -/
def State.objectRecord (s : State) (o : Obj) : Bytes :=
  let live := o.versions.length
  let imp := match o.current? with | some v => v.impaired | none => false
  let comp := s.grade.hasCompression && s.tiers.compress && (o.kind = 1 || o.kind = 4 || o.kind = 7)
  let flags := bit01 o.durable + 2 * bit01 imp + 4 * bit01 o.building?.isSome + 8 * bit01 comp
  let num := fun v : Option Version => match v with | some v => v.num | none => 0
  let all := (o.versions.map (·.size)).foldl (· + ·) 0
  let slc := o.bytesOf (o.allUnits.filter fun x => o.inSlc x.1 x.2)
  leBytes 4 o.id ++ leBytes 1 o.kind ++ leBytes 1 flags ++ leBytes 2 (num o.current?) ++ leBytes 8 o.size
    ++ leBytes 8 (if s.tiers.flagsView then 0 else o.base) ++ leBytes 8 (o.bytesOf o.dramList)
    ++ leBytes 8 slc ++ leBytes 8 (all - slc) ++ leBytes 8 (4096 * o.dirtyPages)
    ++ leBytes 2 (num o.building?) ++ leBytes 2 live ++ zeroBytes 4

/-- OBJECT_QUERY: the record, or for ID 0 the lost-object list (R547). -/
def execObjectQuery (slot : Nat) (s : State) : Host.Outcome State Fault Refusal :=
  .next (s.runCmd slot 0x25 true fun c =>
    let id := c.arg 40 4
    if id = 0 then
      let ids := s.tiers.lostList.take (c.resultLen / 4)
      (s.writeResult c 0 (ids.flatMap (leBytes 4))).done slot ids.length
    else match s.obj? id with
      | none => s.fail slot .objectNotFound 0
      | some o => (s.writeResult c 0 (s.objectRecord o)).done slot 0)

/-- Every dirty page of an object. -/
def Obj.dirtyList (o : Obj) : List (Nat × Nat × Nat) :=
  o.versions.flatMap fun v => v.dirty.map fun p => (o.id, v.num, p.page)

/-- The dirty pages of an object take their mirrors (R188, Table 7-10). -/
def State.mirrorPages (ps : List (Nat × Nat × Nat)) (s : State) : State :=
  ps.foldl (fun t p => t.updVer p.1 p.2.1 fun v =>
    { v with dirty := updWhere (fun d => d.page = p.2.2) (fun d => { d with place := t.keepPlace true d.place }) v.dirty }) s

/-- A page's mirror is released (Table 7-10). -/
def DirtyPage.alone (d : DirtyPage) : DirtyPage := { d with place := { d.place with mirror := none } }

/-- Make an object durable, with mirrors of its dirty pages: they enter D under Table 7-8, held back with the command where the band
asks for it; where they are more than B, or in write-through, they are written back first (R187, R209 to R211, Table 7-10). -/
def State.makeDurable (c : Slot) (o : Obj) (s : State) : State :=
  if s.tiers.budget < 4 * o.rewriteSize then s.fail c.id .budgetExceeded 0
  else if !s.admitsDirty (4096 * o.dirtyPages) then s.setWork c.id (.held (4096 * o.dirtyPages))
  else
    let t := (s.updObj o.id fun o => { o with durable := true }).takeCredit (4096 * o.dirtyPages)
    (t.mirrorPages o.dirtyList).ackWrite c.id { o with durable := true } false o.dirtyList 0

/-- OBJECT_DURABILITY carried out. -/
def State.doDurability (c : Slot) (s : State) : State :=
  match s.obj? (c.arg 40 4) with
  | none => s.fail c.id .objectNotFound 0
  | some o =>
    if (match o.current? with | some v => v.impaired | none => false) then s.fail c.id .objectImpaired 0
    else if c.arg 44 1 = 1 && !o.durable then s.makeDurable c o
    else if c.arg 44 1 = 2 && o.durable then
      let alone := fun v : Version => { v with dirty := v.dirty.map DirtyPage.alone }
      ((s.updObj o.id fun o => { o with durable := false, versions := o.versions.map alone }).throttle).done c.id 0
    else s.done c.id 0

/-- OBJECT_DURABILITY (R187, Table 7-10). -/
def execObjectDurability (slot : Nat) (s : State) : Host.Outcome State Fault Refusal :=
  .next (s.runCmd slot 0x26 false fun c => s.doDurability c)

/-- What an OBJECT_FLUSH takes at its admission: every dirty page of the object, or for ID 0 every durable dirty page on the drive
(R199). -/
def State.flushList (s : State) (id : Nat) : FlushWork :=
  { pages := (s.tiers.objects.filter fun o => if id = 0 then o.durable else o.id = id).flatMap Obj.dirtyList
    blocks := if id = 0 then s.block.dirty.map (·.block) else [] }

/-- OBJECT_FLUSH: completes when every page that was dirty at its admission has been written back (R199). -/
def execObjectFlush (slot : Nat) (s : State) : Host.Outcome State Fault Refusal :=
  .next (s.runCmd slot 0x27 false fun c =>
    match c.work with
    | .flush w => s.awaitFlash slot w.pages w.blocks [] false 0
    | _ => s.done slot 0)

end Sys2Proof.Machine
end

