-- ==== Sys2Proof/Machine/Block.lean ====
section
/-! DEFINITION. Block storage: range locks, block commands and self-tests (chapter 14). -/
namespace Sys2Proof.Machine

/-- Opcodes that take a range lock: 0x10 to 0x12 and 0x14 (Table 14-1). -/
def takesLock (op : Nat) : Bool := op = 0x10 || op = 0x11 || op = 0x12 || op = 0x14

/-- LBA and NBLOCKS of a block command (Table 14-2). -/
def Slot.lba (c : Slot) : Nat := c.arg 40 8

/-- NBLOCKS. -/
def Slot.nblocks (c : Slot) : Nat := c.arg 48 4

/-- FORCE of BFLAGS. -/
def Slot.force (c : Slot) : Bool := c.opcode ≠ 0x10 && bitAt (c.arg 52 1) 0

/-- The range-lock entry a block command takes (R378). -/
def Slot.lockEntry (c : Slot) : Lock :=
  { slot := c.id, order := c.order, lo := c.lba / 16, hi := (c.lba + c.nblocks - 1) / 16, exclusive := c.opcode ≠ 0x10 }

/-- Two entries conflict: they share a unit and at least one is exclusive (R378). -/
def Lock.conflicts (a b : Lock) : Bool := a.lo ≤ b.hi && b.lo ≤ a.hi && (a.exclusive || b.exclusive)

/-- The entry is granted: no earlier-admitted entry that conflicts with it remains (R378). -/
def State.granted (s : State) (l : Lock) : Bool :=
  !(s.locks.any fun q => q.order < l.order && q.conflicts l)

/-- The command of a slot holds a granted entry. -/
def State.lockGranted (s : State) (id : Nat) : Bool :=
  match s.locks.find? (·.slot = id) with
  | some l => s.granted l
  | none => false

/-- Block commands that wait for an entry take one while there are fewer than 4,096, in admission order (R379). Slots stand
in admission order. -/
def State.takeLocks (s : State) : State :=
  (s.atr.slots.filter fun c => c.phase = .handed && takesLock c.opcode
      && !(s.locks.any fun l => l.slot = c.id)).foldl
    (fun t c => if t.locks.length < 4096 then { t with locks := t.locks ++ [c.lockEntry] } else t) s

/-- BLOCK_READ, 0x10; BLOCK_WRITE, 0x11; BLOCK_ATOMIC, 0x12; BLOCK_TRIM, 0x14 (R374 to R376). -/
def State.specBlock (s : State) (op : Nat) (e : Bytes) : OpSpec :=
  let n := field e 48 4
  let limit := if op = 0x12 then 256 else if op = 0x14 then 0xFFFFFFFF else 16384
  let data := op = 0x11 || op = 0x12
  { data := data, result := op = 0x10
    reserved := if op = 0x10 then [(52, 12)] else [(53, 11)]
    bits4 := [(op ≠ 0x10 && 2 ≤ field e 52 1, 52)]
    length6 := [(n = 0 || limit < n, 48), (data && field e 24 4 ≠ 4096 * n, 24)
                , (op = 0x10 && field e 28 4 < 4096 * n, 28)]
    objects := [(16 * s.grade.units < field e 40 8 + n, .outOfRange, 0)] }

/-- BLOCK_FLUSH, 0x13. -/
def specBlockFlush : OpSpec := { reserved := [(40, 24)] }

/-- SELF_TEST, 0x15 (R389). -/
def specSelfTest (e : Bytes) : OpSpec :=
  let a := field e 40 1
  { result := a = 4, reserved := [(41, 23)], field5 := [(a = 0 || 4 < a, 40)]
    length6 := [(a = 4 && field e 28 4 < 64, 28)] }

/-- Take the step of a block command whose range lock is granted (R378); otherwise it does not occur. -/
def State.runBlock (s : State) (id op : Nat) (writes : Bool) (f : Slot → State) : State :=
  s.runCmd id op writes fun c => if s.lockGranted id then f c else s

/-! ### Reading -/

/-- The first block of a range that cannot be read: a block of a LOST unit, or one that no source gave back (R362, R382). -/
def State.badBlock? (s : State) (lba n : Nat) (failed : List Nat) : Option Nat :=
  ((List.range n).map (· + lba)).find? fun b => s.mapEntry (b / 16) = 1 || failed.contains b

/-- Write what a read returns: every block, or the blocks before the first that cannot be recovered, whose offset within
the command RESULT then gives (R381, R382). -/
def State.answerRead (c : Slot) (failed : List Nat) (s : State) : State :=
  match s.badBlock? c.lba c.nblocks failed with
  | none => (s.writeResult c 0 (memRead s.block.data (c.lba * 4096) (c.nblocks * 4096))).done c.id 0
  | some b =>
    (s.writeResult c 0 (memRead s.block.data (c.lba * 4096) ((b - c.lba) * 4096))).fail c.id .mediaUncorrectable
      (b - c.lba)

/-- Units of the range whose blocks must be read from flash: mapped, and some block of the range is not dirty in DRAM. -/
def State.flashUnits (s : State) (lba n : Nat) : List Nat :=
  ((List.range ((lba + n - 1) / 16 - lba / 16 + 1)).map (· + lba / 16)).filter fun u =>
    2 ≤ s.mapEntry u && ((List.range 16).any fun i =>
      lba ≤ u * 16 + i && u * 16 + i < lba + n && !(s.block.dirty.any (·.block = u * 16 + i)))

/-- BLOCK_READ: blocks held in DRAM, unmapped and LOST ones are answered in this step; units that lie on flash are read
from their dies first (R381, R382, R335). -/
def execBlockRead (slot : Nat) (s : State) : Host.Outcome State Fault Refusal :=
  .next (s.runBlock slot 0x10 true fun c =>
    let us := (s.flashUnits c.lba c.nblocks).filter fun u => (s.locate (s.mapEntry u)).isSome
    if us.isEmpty then s.answerRead c []
    else us.foldl (fun t u => t.queueRead (.command slot u) u) (s.setWork slot (.blockRead us [])))

/-! ### Writing -/

/-- Units of a range. -/
def rangeUnits (lba n : Nat) : List Nat := (List.range ((lba + n - 1) / 16 - lba / 16 + 1)).map (· + lba / 16)

/-- Units of a range that it covers only in part. -/
def partUnits (lba n : Nat) : List Nat :=
  let a := lba / 16
  let z := (lba + n - 1) / 16
  (if lba % 16 ≠ 0 || (a = z && (lba + n) % 16 ≠ 0) then [a] else [])
    ++ (if z ≠ a && (lba + n) % 16 ≠ 0 then [z] else [])

/-- What refuses a write of a range: R370; a LOST unit written in part (R362); the logical space full (R369). -/
def State.writeError (s : State) (units parts : List Nat) : Option Status :=
  if s.protected then some .writeProtected
  else if parts.any fun u => s.mapEntry u = 1 then some .mediaUncorrectable
  else
    let fresh := units.filter fun u => s.mapEntry u = 0 && !(s.block.dirty.any fun b => b.block / 16 = u)
    if s.freeUnits < fresh.length then some .capacityExhausted else none

/-- A block becomes dirty for a command, in two packages; an earlier change keeps its age, and its place before a BLOCK_FLUSH (R208, R210,
R383, R385). -/
def State.dirtyBlock (order : Nat) (atomic : Option Nat) (s : State) (b : Nat) : State :=
  let l := s.block.dirty
  let again := fun d : DirtyBlock =>
    { d with order := Nat.min d.order order, atomic := atomic, writing := false, store := none, place := s.keepPlace true d.place }
  let l := if l.any (·.block = b) then updWhere (·.block = b) again l
    else l ++ [{ block := b, since := s.bt, order := order, atomic := atomic, place := s.newPlace (pageHome 0 b) true }]
  { s with block := { s.block with dirty := l } }

/-- Put the data of a range in DRAM: its blocks are dirty, LOST units written whole are lost no more (R362, R383). -/
def State.putBlocks (lba : Nat) (bs : Bytes) (n order : Nat) (atomic : Option Nat) (s : State) : State :=
  let whole := (rangeUnits lba n).filter fun u => s.mapEntry u = 1
  let t := whole.foldl (fun t u => t.setMap u 0) s
  let t : State := { t with block := { t.block with data := memWrite t.block.data (lba * 4096) bs } }
  (((List.range n).map (· + lba)).foldl (State.dirtyBlock order atomic) t).fitSlc.throttle

/-- A block write completes when it is in DRAM twice and counted in D, or with FORCE, in write-through, where it is larger than B, and
where a block has no mirror, once it is on flash with its map deltas journalled (R383; assumption log 26: DEDUCED, unsafe). -/
def State.ackBlocks (c : Slot) (blocks maps : List Nat) (s : State) : State :=
  if c.force || s.tiers.writeThrough || s.tiers.budget < 4096 * blocks.length
      || (s.block.dirty.any fun d => blocks.contains d.block && d.place.mirror.isNone)
  then s.awaitFlash c.id [] blocks maps true 0 else (s.done c.id 0).issueStores

/-- BLOCK_WRITE carried out: refused, held back by the bands of Table 7-8, or written (R377, R383). -/
def State.doBlockWrite (c : Slot) (s : State) : State :=
  match s.writeError (rangeUnits c.lba c.nblocks) (partUnits c.lba c.nblocks) with
  | some st => s.fail c.id st 0
  | none =>
    if s.admitsDirty (4096 * c.nblocks) then
      let t := (s.takeCredit (4096 * c.nblocks)).putBlocks c.lba (s.dataBytes c) c.nblocks c.order none
      t.ackBlocks c ((List.range c.nblocks).map (· + c.lba)) []
    else s.setWork c.id (.held (4096 * c.nblocks))

/-- BLOCK_ATOMIC carried out: it enters D whole, and its old data stays mapped in flash until its map changes are installed (R386,
R387). -/
def State.doBlockAtomic (c : Slot) (s : State) : State :=
  match s.writeError (rangeUnits c.lba c.nblocks) (partUnits c.lba c.nblocks) with
  | some st => s.fail c.id st 0
  | none =>
    if s.admitsDirty (4096 * c.nblocks) then
      let a : AtomicWrite := { id := c.order, first := c.lba, count := c.nblocks }
      let t := (s.takeCredit (4096 * c.nblocks)).putBlocks c.lba (s.dataBytes c) c.nblocks c.order (some c.order)
      let t : State := { t with block := { t.block with atomics := t.block.atomics ++ [a] } }
      t.ackBlocks c ((List.range c.nblocks).map (· + c.lba)) []
    else s.setWork c.id (.held (4096 * c.nblocks))

/-- BLOCK_WRITE (R383). -/
def execBlockWrite (slot : Nat) (s : State) : Host.Outcome State Fault Refusal :=
  .next (s.runBlock slot 0x11 false fun c => s.doBlockWrite c)

/-- BLOCK_ATOMIC (R386). -/
def execBlockAtomic (slot : Nat) (s : State) : Host.Outcome State Fault Refusal :=
  .next (s.runBlock slot 0x12 false fun c => s.doBlockAtomic c)

/-- Unmap the units from `lo` to below `hi`: their entries become 0, their blocks read as zeros and are dirty no more, and what was on its
way to flash is not installed (R362, R373, R384). -/
def State.unmapUnits (lo hi : Nat) (s : State) : State :=
  let s := s.dropStores fun r => !r.item.isMaps && lo ≤ r.lun && r.lun < hi
  let t := ((s.ftl.map.filter fun e => lo ≤ e.1 && e.1 < hi).map (·.1)).foldl (fun t u => t.setMap u 0) s
  { t with block := { t.block with
      data := memErase t.block.data (lo * 65536) ((hi - lo) * 65536)
      dirty := t.block.dirty.filter fun b => !(lo ≤ b.block / 16 && b.block / 16 < hi) } }

/-- Blocks of a range that lie in units it covers in part. -/
def partBlocks (lba n : Nat) : List Nat :=
  (partUnits lba n).flatMap fun u =>
    ((List.range 16).map (· + u * 16)).filter fun b => lba ≤ b && b < lba + n

/-- BLOCK_TRIM carried out (R384): wholly covered units are unmapped, the covered blocks of the others become zeros as a
write would make them. -/
def State.doBlockTrim (c : Slot) (s : State) : State :=
  let parts := partUnits c.lba c.nblocks
  let blocks := partBlocks c.lba c.nblocks
  match s.writeError parts parts with
  | some st => s.fail c.id st 0
  | none =>
    if s.admitsDirty (4096 * blocks.length) then
      let t := (s.takeCredit (4096 * blocks.length)).unmapUnits ((c.lba + 15) / 16) ((c.lba + c.nblocks) / 16)
      let t := blocks.foldl (fun t b => t.putBlocks b (zeroBytes 4096) 1 c.order none) t
      t.fitSlc.throttle.ackBlocks c blocks ((t.ftl.dirtyMaps.map (·.page)).filter fun m =>
        c.lba / 16384 ≤ m && m ≤ (c.lba + c.nblocks - 1) / 16384)
    else s.setWork c.id (.held (4096 * blocks.length))

/-- BLOCK_TRIM (R384). -/
def execBlockTrim (slot : Nat) (s : State) : Host.Outcome State Fault Refusal :=
  .next (s.runBlock slot 0x14 false fun c => s.doBlockTrim c)

/-- A block write, atomic write or trim admitted before has not taken effect yet (R385). -/
def State.earlierWrite (s : State) (order : Nat) : Bool :=
  s.atr.slots.any fun c => c.order < order && (c.opcode = 0x11 || c.opcode = 0x12 || c.opcode = 0x14)
    && (c.phase = .fenced || c.phase = .handed || (match c.work with | .held _ => true | _ => false))

/-- BLOCK_FLUSH: completes when the blocks of every block command admitted before it are on flash and their map deltas
journalled; the step waits for earlier commands to take effect (R385). -/
def execBlockFlush (slot : Nat) (s : State) : Host.Outcome State Fault Refusal :=
  .next (s.runCmd slot 0x13 false fun c =>
    if s.earlierWrite c.order then s
    else
      let bs := (s.block.dirty.filter fun b => b.order < c.order).map (·.block)
      s.awaitFlash slot [] bs (s.ftl.dirtyMaps.map (·.page)) true 0)

/-- A block command that waits for its range lock past its deadline completes with `DEADLINE_EXPIRED` and releases its
entry (R379, R61). -/
def execLockWaitDeadline (slot : Nat) (s : State) : Host.Outcome State Fault Refusal :=
  .next (match s.slot? slot with
    | none => s
    | some c =>
      if c.phase = .handed && takesLock c.opcode && !s.lockGranted slot && s.deadlinePassed c.entry c.fetchBt then
        let t := s.fail slot .deadlineExpired 0
        ({ t with locks := t.locks.filter (·.slot ≠ slot) } : State).takeLocks
      else s)

/-! ### Self-tests (R389 to R392) -/

/-- Steps of a test: for each package its lines in steps of 256 MiB, the mirror pool among them, and for each die its page
reads in steps of 16 (R391, Table 14-5; assumption log 28: DESIGN CHOICE, unsafe). -/
def State.testSteps (s : State) (extended : Bool) : Nat :=
  let dram := if extended then 125 else 4 + ceilDiv s.grade.mirrorPool 256
  let flash := if extended then (s.flash.units.map fun e => ceilDiv e.n 16).foldl (· + ·) 0 else 64 * s.grade.dies
  s.grade.packages * dram + flash

/-- The self-test log record of Table 14-6. -/
def State.testRecord (s : State) : Bytes :=
  let t := s.block.test
  let el := if t.state = 1 then s.bt - t.elapsed else t.elapsed
  leBytes 1 t.state ++ leBytes 1 (if t.state = 0 then 0 else t.kind) ++ zeroBytes 2 ++ leBytes 4 t.stepsDone
    ++ leBytes 4 t.stepsTotal ++ leBytes 4 t.failures ++ leBytes 8 t.firstFail ++ leBytes 1 t.failKind ++ zeroBytes 3
    ++ leBytes 4 t.yields ++ leBytes 8 t.startBt ++ leBytes 4 el ++ leBytes 4 t.relocated ++ zeroBytes 16

/-- Change the self-test log. -/
def State.updTest (f : SelfTestLog → SelfTestLog) (s : State) : State :=
  { s with block := { s.block with test := f s.block.test } }

/-- SELF_TEST: start a test, abort the running one at its next yield point, or return the log (R389). While a test runs
`elapsed` holds the elapsed BT at which it began. -/
def execSelfTest (slot : Nat) (s : State) : Host.Outcome State Fault Refusal :=
  .next (match s.slot? slot with
    | none => s
    | some c0 => s.runCmd slot 0x15 (c0.arg 40 1 = 4) fun c =>
      let a := c.arg 40 1
      if a = 4 then (s.writeResult c 0 s.testRecord).done slot 0
      else if a = 3 then
        if s.block.test.state = 1 then (s.updTest fun t => { t with aborting := true }).done slot 0
        else s.done slot 0
      else if s.block.test.state = 1 then s.fail slot .invalidField 40
      else
        (s.updTest fun _ =>
          { state := 1, kind := a, stepsTotal := s.testSteps (a = 2), startBt := s.epoch, elapsed := s.bt
            slot := slot, lastStep := s.bt }).setWork slot .selfTest)

/-- The running test ends in a state; its command completes with `OK` (R389). -/
def State.endTest (st : Nat) (s : State) : State :=
  (s.updTest fun t => { t with state := st, elapsed := s.bt - t.elapsed, aborting := false }).done s.block.test.slot 0

/-- A self-test step issues when no host operation is queued where it runs, or 100,000 BT after the previous one, and ends
in a yield. A finding raises one record and counts; a unit that needed stage 3 is relocated (R366, R391, R392). `found` is the
kind and address of a finding, `relocate` the unit. -/
def execSelfTestStep (idle : Bool) (found : Option (Nat × Nat)) (relocate : Option (Die × Nat)) (s : State) :
    Host.Outcome State Fault Refusal :=
  .next (
    let t := s.block.test
    if t.state = 1 && (idle || s.elapsed t.lastStep 100000) then
      let s1 := match found with
        | none => s
        | some f =>
          (s.updTest fun t => { t with
            failures := t.failures + 1
            firstFail := if t.failures = 0 then f.2 else t.firstFail
            failKind := if t.failures = 0 then f.1 else t.failKind }).raise { faultOf 0x0F 5 with location := f.2 }
      let s2 := s1.updTest fun t => { t with
        stepsDone := t.stepsDone + 1, yields := t.yields + 1, lastStep := s.bt
        relocated := t.relocated + bit01 relocate.isSome }
      let s2 := match relocate with
        | some x => s2.relocateOnce .background (s2.eunit x.1 x.2)
        | none => s2
      if s2.block.test.aborting then s2.endTest 4
      else if s2.block.test.stepsTotal ≤ s2.block.test.stepsDone then
        s2.endTest (if s2.block.test.failures = 0 then 2 else 3)
      else s2
    else s)

end Sys2Proof.Machine
end

