-- ==== Sys2Proof/Machine/DieEvents.lean ====
section
/-! DEFINITION. Ends of die operations: reads and their decode stages, programs, erases, suspends, and DONE records (R319,
R325, R331, R333 to R336, R353, R354, R364, R366, R367). -/
namespace Sys2Proof.Machine

/-- Some codeword needed the soft decision of stage 3, or failed it (R319). -/
def needsStage3 (stages : List Nat) : Bool := stages.any (2 ≤ ·)

/-- Some codeword is uncorrectable (R319). -/
def uncorrectable (stages : List Nat) : Bool := stages.any (3 ≤ ·)

/-- The page is rebuilt from its row: its unit is not VERIFIED and the row's parity page is programmed (R354). -/
def State.parityCovers (s : State) (d : Die) (u n : Nat) : Bool :=
  (s.eunit d u).state ≠ .verified &&
    s.ftl.rows.any fun r => r.parity && r.n = n && (r.members.zip r.units).contains (s.grade.dieIndex d, u)

/-- PLANE of the first codeword that failed, in its place in a physical page address (Table 12-2). -/
def planeBits (stages : List Nat) : Nat := planeOf (stages.findIdx (3 ≤ ·)) * 2 ^ 10

/-- A die read of a logical unit for a block command ends: with the last one the command answers. A unit that no source gave
back makes the read complete under R382, with one record (R450, R452). -/
def State.commandRead (slot lun : Nat) (o : DieOp) (stages : List Nat) (lost : Bool) (s : State) : State :=
  match s.slot? slot with
  | none => s
  | some c => match c.work with
    | .blockRead us bad =>
      let us := if s.ownerBusy o.owner then us else us.filter (· ≠ lun)
      let bad := if lost then (((s.unreadPages o lun stages).map (· + 16 * lun)).filter fun b =>
        !(s.block.dirty.any (·.block = b))) ++ bad else bad
      let t := if lost then s.raise { faultOf 0x08 4 with
          dataLost := true, location := physAddr o.die o.unit o.page (s.eunit o.die o.unit).slc + planeBits stages } else s
      if us.isEmpty then t.answerRead c bad else t.setWork slot (.blockRead us bad)
    | _ => s

/-- What a unit is for once it has left its set. -/
def EraseUnit.homeRole (e : EraseUnit) : UnitRole :=
  match e.role with
  | .host | .relocate | .map | .checkpoint => if e.slc then .buffer else .reserve
  | r => r

/-- A read of the blank check of a FREE unit ends (R333): the check passes when every page it reads is blank. A unit that fails is erased
again, a journal unit without a record, and is BAD at the second failure in succession; either way it has left its set (R330). -/
def State.blankCheckEnd (o : DieOp) (pass : Bool) (s : State) : State :=
  let e := s.eunit o.die o.unit
  if e.state ≠ .free then s
  else if pass then
    if s.flash.ops.any (DieOp.checksBlank o.die o.unit) then s
    else s.updEunit o.die o.unit fun x => { x with blankOk := true, blankFails := 0 }
  else
    let t := ((s.dropBlank o.die o.unit).updChannel o.die.channel fun k =>
      { k with blankFails := sat32 (k.blankFails + 1) }).leaveSet o.die o.unit
    let pool := (poolRole o.die o.unit).isSome
    if 1 ≤ e.blankFails then
      let t := t.updEunit o.die o.unit fun x => { x with state := .bad, blankFails := 2 }
      if pool then t.poolBad o.die o.unit else t
    else
      let t := t.updEunit o.die o.unit fun x => { x with blankFails := 1 }
      if pool then t.eraseJournal e else t.startErase .reclaim e.homeRole e.slc o.die o.unit

/-- A row's parity page is to be programmed anew. -/
def State.reaskParity (p : Row → Bool) (s : State) : State :=
  { s with ftl := { s.ftl with rows := updWhere p (fun r => { r with asked := false, parity := false }) s.ftl.rows } }

/-- What a program was to write, other than stored units, is queued elsewhere (R324). -/
def State.redirectOp (o : DieOp) (s : State) : State :=
  match o.owner with
  | .parity g n => s.reaskParity fun r => r.gen = g && r.n = n
  | .journal q => s.queueJournal q
  | .raw => s.rawDone .notErased
  | .checkpoint | .repair =>
    (s.placePage o.prio (stripeGroup o.die) 5 true o.owner (o.fill.getD { data := [] })).2
  | _ => s

/-- Programs queued for a unit that takes no more are redirected, and stores that are not written there are placed anew (R324). -/
def State.redirect (d : Die) (u : Nat) (s : State) : State :=
  let hit := fun o : DieOp => o.kind = .program && o.die = d && o.unit = u && o.st = .queued
  let ops := s.flash.ops.filter hit
  let t : State := { s with flash := { s.flash with ops := s.flash.ops.filter fun o => !hit o } }
  ops.foldl (fun t o => t.redirectOp o) ((t.leaveSet d u).replaceIn .foreground d u)

/-- Queued programs that R323 refuses raise a record each and are redirected (R323, R324). -/
def State.refuseQueued (s : State) : State :=
  let bad := s.flash.ops.filter s.hopeless
  let t := bad.foldl (fun t o => t.refuseProgram o.die o.unit o.page (t.eunit o.die o.unit).slc) s
  (bad.map fun o => (o.die, o.unit)).eraseDups.foldl (fun t x => t.redirect x.1 x.2) t

/-- A read of a read-disturb scan ends: the unit's valid data is relocated when a codeword needed stage 3 or more than 64
needed stage 2; otherwise, with the last page read, the counter returns to 0 (R366). -/
def State.scanRead (o : DieOp) (stages : List Nat) (s : State) : State :=
  let t := s.updEunit o.die o.unit fun x => { x with scan2 := x.scan2 + (stages.filter (· = 1)).length }
  let e := t.eunit o.die o.unit
  if needsStage3 stages || 64 < e.scan2 then
    let t : State := { t with flash := { t.flash with ops := t.flash.ops.filter fun q =>
      !(q.owner = .scan && q.die = o.die && q.unit = o.unit && q.st = .queued) } }
    t.relocateOnce .background e
  else if t.scanning e then t
  else t.updEunit o.die o.unit fun x => { x with reads := 0 }

/-- A raw read ends (R527). -/
def State.rawRead (o : DieOp) (stages : List Nat) (s : State) : State :=
  let bs := s.pageData o.die o.unit o.page
  (s.updTst fun r => { r with
    window := memWrite (memErase r.window 0 65536) 0 bs
    stages := stages ++ List.replicate (16 - stages.length) 0 }).rawDone (if uncorrectable stages then .mediaUncorrectable else .ok)

/-- A suspend takes effect; the queued reads for the die are issued (R335). -/
def execDieSuspendEnd (d : Die) (s : State) : Host.Outcome State Fault Refusal :=
  .next (
    let hit := fun o : DieOp => o.die = d && o.st = .suspending
    ({ s with flash := { s.flash with ops := updWhere hit (fun o => { o with st := .suspended }) s.flash.ops } } :
      State).pumpFlash)

/-- The WSEQ a program brings to its unit, and of a journal record its SEQ. -/
def DieOp.seq (o : DieOp) : Nat :=
  match o.owner, o.fill with
  | .journal q, _ => q
  | _, some p => (p.metas.map (·.wseq)).foldl Nat.max 0
  | _, none => 0

/-- A program passed: its page holds what it wrote, the pointer moves, a full unit closes, and its owner is served. -/
def State.programPass (o : DieOp) (s : State) : State :=
  let t := match o.fill with | some p => s.programImage o.die o.unit o.page p | none => s
  let t := t.updEunit o.die o.unit fun x => x.programmed o.seq s.bt
  match o.owner with
  | .store _ => t.storePass o
  | .pad => t.memberPass o
  | .parity g n =>
    let set := fun r : Row => { r with parity := true }
    { t with ftl := { t.ftl with rows := updWhere (fun r => r.gen = g && r.n = n && r.asked) set t.ftl.rows } }
  | .journal q => ((t.journalCopy q ((s.eunit o.die o.unit).role = .journalA)).releaseErases).recycleJournal
  | .raw => t.rawDone .ok
  | _ => t

/-- A program failed (R325): its unit closes with one record, its valid data moves elsewhere, and it becomes BAD; what was
to be programmed goes to another unit, and parity pages it held are programmed anew. A journal unit leaves its pool (R330). -/
def State.programFail (o : DieOp) (s : State) : State :=
  let e := s.eunit o.die o.unit
  if (poolRole o.die o.unit).isSome then
    let t := s.poolBad o.die o.unit
    (match o.owner with | .journal q => t.queueJournal q | _ => t).redirect o.die o.unit
  else
    let rec1 := { faultOf 0x0A 0 with location := physAddr o.die o.unit o.page e.slc }
    let t := (s.raise rec1).updEunit o.die o.unit fun x =>
      { x with state := .closed, failing := true, closedBt := s.bt }
    let lo := pageKey t.grade o.die o.unit o.page
    let t : State := { t with flash := { t.flash with pages := t.flash.pages.filter (·.1 ≠ lo) } }
    let t := match o.owner with | .raw => t.rawFail | _ => t.redirectOp o
    let t := t.reaskParity fun r => r.parityDie = t.grade.dieIndex o.die && r.parityUnit = o.unit && r.asked
    (t.redirect o.die o.unit).relocateOnce .foreground (t.eunit o.die o.unit)

/-- A unit after an erase to a mode: its wear rises by 4 for QLC, 1 for SLC (R320, R368). -/
def EraseUnit.erased (e : EraseUnit) (slc : Bool) : EraseUnit :=
  { e with
    slc := slc, n := 0, reads := 0, blankOk := false, maxWseq := 0, gen := 0, visited := 0, waitMaps := none
    wear := e.wear + (if slc then 1 else 4) }

/-- A die erase ends (R330, R331, R334): on a pass the DONE record is programmed and the unit stays ERASING until it is
durable; on a failure DONE is programmed too, the unit becomes BAD with it, and one record is raised. A journal unit's
erase is not journalled. -/
def execDieEraseEnd (d : Die) (good : Bool) (s : State) : Host.Outcome State Fault Refusal :=
  .next (match s.runningOp? d .erase with
    | none => s
    | some o =>
      let slc := o.page = 1
      let t := (s.endOp o).eraseData d o.unit
      let t :=
        if (poolRole d o.unit).isSome then
          if good then t.updEunit d o.unit fun x => { x.erased true with state := .free }
          else t.poolBad d o.unit
        else
          let t := t.updEunit d o.unit fun x => { x.erased slc with failing := !good }
          let t := if good then t else
            (t.raise { faultOf 0x0A 0 with location := physAddr d o.unit 0 slc }).updEunit d o.unit
              fun x => { x with wear := x.wear - (if slc then 1 else 4) }
          t.journal .done slc d o.unit
      t.refuseQueued.markUrgent.pumpFlash)

/-- The DONE record of the erase that a unit in ERASING has gone through: no INTENT for the unit follows it. -/
def State.dueDone? (s : State) : Option JournalRec :=
  s.flash.journal.find? fun r => r.typ = .done && (s.eunit r.die r.unit).state = .erasing
    && !(s.flash.journal.any fun q => q.typ = .intent && q.die = r.die && q.unit = r.unit && r.seq < q.seq)

/-- The journal operations of a record that have not ended. -/
def State.recordOps (s : State) (seq : Nat) : List DieOp :=
  s.flash.ops.filter fun o => o.owner = .journal seq

/-- The oldest DONE record becomes durable in both copies: its programs end with pass status, and its unit becomes FREE, or
BAD where its erase failed; a raw erase of the unit ends (R331, R334, R336, R527). It does not occur while a program of the
record has not been issued. -/
def execJournalDoneDurable (s : State) : Host.Outcome State Fault Refusal :=
  .next (match s.dueDone? with
    | none => s
    | some r =>
      let ops := s.recordOps r.seq
      if ops.any (·.st ≠ .running) then s
      else
        let t := ops.foldl (fun t o => (t.endOp o).programPass o) s
        if !(t.flash.journal.any fun q => q.seq = r.seq && q.durableA && q.durableB) then t
        else
          let e := t.eunit r.die r.unit
          let t := t.updEunit r.die r.unit fun x =>
            { x with state := if e.failing then .bad else .free, failing := false }
          let t := if t.rawOn .erase r.die r.unit then (if e.failing then t.rawFail else t.rawDone .ok) else t
          t.releaseErases.releaseParity.issueStores.serveFlash.noteProtection.markUrgent.pumpFlash)

end Sys2Proof.Machine
end

