-- ==== Sys2Proof/Machine/Atrium.lean ====
section
/-! DEFINITION. The Atrium's rings: set-up, doorbells, hand-over to a path, host reads of data buffers, posting and
notification (R39 to R50, R61, R63 to R71, R402, R403, R473). -/
namespace Sys2Proof.Machine

/-! ### Which set-up accesses are answered (R495, R498, R520, R541) -/

/-- Blocks of the set-up window (Table 22-1). -/
inductive RegBlock where
  | sys | atr | lnk | bcn | pwr | sec | tir | sch | clu | fch | drc | src | gat | att | red | err | tst
  deriving DecidableEq, Repr

/-- The dusk flush has begun, or the drive is off: set-up accesses are not answered (R433, R541). -/
def State.silent (s : State) : Bool :=
  s.power.state = .off || s.power.flush = .running

/-- A write of a register in a block is taken: by the port's rule of R407, and in HELD, HALTED and RECOVERY by those of R498
and R520. In HELD the named registers alone are, which their own rows say. -/
def State.regOpen (s : State) (port : Nat) (b : RegBlock) : Bool :=
  s.portAccepts port && !s.silent && match s.power.phase with
    | .held | .halted => false
    | .recovery => b = .sys || b = .pwr || b = .sec || b = .atr
    | _ => true

/-- The port takes the write, and in HELD too (R498: `ERR_LOG_STATUS` and `PWR_SHUTDOWN`). -/
def State.regOpenHeld (s : State) (port : Nat) (b : RegBlock) : Bool :=
  s.regOpen port b || (s.portAccepts port && !s.silent && s.power.phase = .held)

/-- The ring can be reached: in RECOVERY rings 0 only (R520). -/
def State.ringOpen (s : State) (port n : Nat) : Bool :=
  n < 256 && s.regOpen port .atr && (s.power.phase ≠ .recovery || n = 0)

/-! ### Ring settings and doorbells (R39 to R47, R536) -/

/-- A ring size in range: a power of two from 16 to 4,096 (Table 2-1). -/
def ringSizeOk (n : Nat) : Bool := [16, 32, 64, 128, 256, 512, 1024, 2048, 4096].contains n

/-- An enable can succeed for a ring of this size and base (R40, R495). -/
def State.enableOk (s : State) (size base : Nat) : Bool :=
  (s.power.phase = .service || s.power.phase = .recovery) && ringSizeOk size && base % 4096 = 0

/-- The disable of a submission ring is complete once its last command has posted: its records go (R42, R64). -/
def Sq.settle (q : Sq) : Sq :=
  if q.disabling && q.inFlight = 0 then { q with enabled := false, disabling := false, window := [] } else q

/-- Enable a submission ring (R41, R47). -/
def Sq.enable (q : Sq) : Sq :=
  { q with enabled := true, halted := false, head := 0, tail := 0, expSeq := q.seqBase, window := [] }

/-- A write of `ATR_SQ_CFG` (R40 to R42): settings, while the ring is disabled; then the request of ENABLE. -/
def State.writeSqCfg (n v : Nat) (s : State) : State :=
  let q := s.sq n
  let cq := bitsAt v 8 8
  let size := bitsAt v 16 16
  let s := if q.enabled && (q.cq ≠ cq || q.size ≠ size) then s.countErr 0
    else if q.enabled then s else s.updSq n fun q => { q with cq := cq, size := size }
  if bitAt v 0 then
    if q.enabled then (if q.disabling then s.countErr 0 else s)
    else if s.enableOk size q.base && (s.cq cq).enabled then s.updSq n Sq.enable
    else (s.updSq n fun q => { q with err := true }).countErr 0
  else if q.enabled then s.updSq n fun q => Sq.settle { q with disabling := true }
  else s

/-- A write of `ATR_CQ_CFG` (R40 to R42). -/
def State.writeCqCfg (n v : Nat) (s : State) : State :=
  let c := s.cq n
  let size := bitsAt v 16 16
  let s := if c.enabled && c.size ≠ size then s.countErr 0
    else if c.enabled then s else s.updCq n fun c => { c with size := size }
  let s := s.updCq n fun c => { c with msgEn := bitAt v 1 }
  if bitAt v 0 then
    if c.enabled then s
    else if s.enableOk size c.base then
      s.updCq n fun c => { c with enabled := true, tail := 0, head := 0, phase := true, badHead := false }
    else (s.updCq n fun c => { c with err := true }).countErr 0
  else if c.enabled then
    if s.atr.sqs.any fun q => q.enabled && q.cq = n then s.countErr 0
    else s.updCq n fun c => { c with enabled := false, unnotified := 0 }
  else s

/-- Entries posted on a completion ring and not released. -/
def Cq.held (c : Cq) : Nat := (c.tail + c.size - c.head) % c.size

/-- A submission doorbell (Table 2-2). A doorbell to a ring whose disable is in progress, which no row of the table names, is taken
as one to a disabled ring (assumption log 152: DESIGN CHOICE, unsafe). -/
def State.writeSqDb (n v : Nat) (s : State) : State :=
  let q := s.sq n
  let t := bitsAt v 0 12
  if !q.enabled || q.disabling || q.halted then s.countErr 1
  else if q.size ≤ t then
    (s.updSq n fun q => { q with halted := true }).raise { faultOf 0x11 5 with location := n }
  else s.updSq n fun q => { q with tail := t }

/-- A completion doorbell (Table 2-2, R45). One record stands for all bad writes of a ring until a valid one. -/
def State.writeCqDb (n v : Nat) (s : State) : State :=
  let c := s.cq n
  let h := bitsAt v 0 12
  if !c.enabled then s.countErr 2
  else if c.size ≤ h || c.held < (h + c.size - c.head) % c.size then
    let t := s.countErr 2
    if c.badHead then t
    else (t.updCq n fun c => { c with badHead := true }).raise { faultOf 0x11 5 with location := 256 + n }
  else s.updCq n fun c => { c with head := h, badHead := false }

/-- SQ_ENABLE: a write of `ATR_SQ_CFG` with ENABLE 1 (R40, R41). -/
def execSqEnable (port n : Nat) (value : Word) (s : State) : Host.Outcome State Fault Refusal :=
  .next (if s.ringOpen port n && bitAt value.toNat 0 then s.writeSqCfg n value.toNat else s)

/-- SQ_DISABLE: a write of `ATR_SQ_CFG` with ENABLE 0 (R42). -/
def execSqDisable (port n : Nat) (value : Word) (s : State) : Host.Outcome State Fault Refusal :=
  .next (if s.ringOpen port n && !bitAt value.toNat 0 then s.writeSqCfg n value.toNat else s)

/-- CQ_ENABLE: a write of `ATR_CQ_CFG` with ENABLE 1 (R40, R41). -/
def execCqEnable (port n : Nat) (value : Word) (s : State) : Host.Outcome State Fault Refusal :=
  .next (if s.ringOpen port n && bitAt value.toNat 0 then s.writeCqCfg n value.toNat else s)

/-- CQ_DISABLE: a write of `ATR_CQ_CFG` with ENABLE 0 (R42). -/
def execCqDisable (port n : Nat) (value : Word) (s : State) : Host.Outcome State Fault Refusal :=
  .next (if s.ringOpen port n && !bitAt value.toNat 0 then s.writeCqCfg n value.toNat else s)

/-- ATR_SQ_DB (R44, R46). -/
def execAtrSqDb (port n : Nat) (value : Word) (s : State) : Host.Outcome State Fault Refusal :=
  .next (if s.ringOpen port n then s.writeSqDb n value.toNat else s)

/-- ATR_CQ_DB (R45, R46). -/
def execAtrCqDb (port n : Nat) (value : Word) (s : State) : Host.Outcome State Fault Refusal :=
  .next (if s.ringOpen port n then s.writeCqDb n value.toNat else s)

/-! ### Host reads of data buffers (R402, R403) -/

/-- Tags outstanding on a port. -/
def State.tagsOn (s : State) (p : Nat) : List Nat :=
  s.atr.slots.flatMap fun c => (c.reads.filter (·.port = p)).map (·.tag)

/-- The lowest free tag of a port, none while 4,096 are outstanding (R403). -/
def State.freeTag? (s : State) (p : Nat) : Option Nat :=
  (List.range 4096).find? fun t => !(s.tagsOn p).contains t

/-- Issue a read of host memory for a slot: an MRD of one slot on VC1 of a port (R402, R403). -/
def State.issueRead (id p : Nat) (g : Seg) (s : State) : State :=
  match s.freeTag? p with
  | none => s
  | some t =>
    match s.slot? id with
    | none => s
    | some c =>
      (s.updSlot id fun c => { c with reads := c.reads ++ [{ port := p, tag := t, addr := g.addr, len := g.len }] }).send p
        { cls := 3, vc := 1, dst := (s.port p).hostNode, tag := t, addr := g.addr, len := g.len, slots := 1
          ring := some (s.ringOf c.sq) }

/-- Segments cut into pieces of at most 4,096 bytes, the most one MRD asks for (R402). -/
def cutSegs : Nat → List Seg → List Seg
  | 0, _ => []
  | _ + 1, [] => []
  | k + 1, g :: gs =>
    if g.len ≤ 4096 then g :: cutSegs k gs
    else ⟨g.addr, 4096⟩ :: cutSegs k (⟨g.addr + 4096, g.len - 4096⟩ :: gs)

/-- The pieces in which a buffer is read. -/
def readPieces (gs : List Seg) : List Seg :=
  cutSegs (gs.length + ((gs.map (·.len)).foldl (· + ·) 0) / 4096 + 1) gs

/-- Ask for the next pieces of one slot while its ring's home port has free tags; at most `fuel` of them. -/
def State.pumpSlot (id : Nat) : Nat → State → State
  | 0, s => s
  | k + 1, s =>
    match s.slot? id with
    | none => s
    | some c => match c.toRead, s.homePort (s.ringOf c.sq) with
      | g :: gs, some p =>
        if (s.freeTag? p).isNone then s
        else State.pumpSlot id k ((s.updSlot id fun c => { c with toRead := gs }).issueRead id p g)
      | _, _ => s

/-- Ask for the data of every command handed to its path that still waits for some, in admission order. -/
def State.pumpReads (s : State) : State :=
  (s.atr.slots.filter fun c => c.phase = .handed && !c.toRead.isEmpty).foldl
    (fun t c => t.pumpSlot c.id c.toRead.length) s

/-- A CPL answers an outstanding MRD (R402, R403): its bytes arrive; with the last of its packets the read ends. CSTATUS
other than OK ends the fetch, and the command completes with `HOST_ACCESS_FAULT` (R454). A tag that is not outstanding is
dropped and counted. -/
def State.takeCpl (p tag cstatus offset : Nat) (last : Bool) (data : Bytes) (s : State) : State :=
  match s.atr.slots.find? fun c => c.reads.any fun m => m.port = p && m.tag = tag with
  | none => s.updPort p fun q => { q with errPackets := sat32 (q.errPackets + 1) }
  | some c =>
    if cstatus ≠ 0 then (s.finish c.id .hostAccessFault 0 0).pumpReads
    else
      match c.reads.find? fun m => m.port = p && m.tag = tag with
      | none => s
      | some m =>
        let t : State := { s with hostMem := memWrite s.hostMem (m.addr + offset) (data.take (m.len - offset)) }
        let t := if last then t.updSlot c.id fun c => { c with reads := c.reads.filter (· ≠ m) } else t
        t.pumpReads

/-! ### Hand-over (R19, R61, R71, R468) -/

/-- An earlier fetched entry of the ring has not posted its completion. -/
def State.earlierUnposted (s : State) (sq order : Nat) : Bool :=
  (s.atr.slots.any fun c => c.sq = sq && c.order < order)
    || s.atr.cqs.any fun c => c.ready.any fun k => k.sq = sq && k.order < order

/-- A version the command pins is impaired. -/
def State.pinsImpaired (s : State) (c : Slot) : Bool :=
  c.pins.any fun p => match s.version? p.1 p.2 with | some v => v.impaired | none => false

/-- Opcodes that still apply to an impaired version of those that pin one: OBJECT_READ and OBJECT_MOVE (R469). -/
def impairOk (op : Nat) : Bool := op = 0x22 || op = 0x23

/-- Hand a command to its path: the second check of its deadline, and of impairment; a block command asks for its
range-lock entry, a command with a data buffer for its data (R61, R378, R403, R468). -/
def State.handOver (id : Nat) (s : State) : State :=
  match s.slot? id with
  | none => s
  | some c =>
    if s.deadlinePassed c.entry c.fetchBt then s.fail id .deadlineExpired 0
    else if s.pinsImpaired c && !impairOk c.opcode then s.fail id .objectImpaired 0
    else ((s.updSlot id fun c => { c with phase := .handed }).takeLocks).pumpReads

/-- Hand over the fenced commands whose every earlier command has posted (R71). -/
def State.unfence (s : State) : State :=
  (s.atr.slots.filter fun c => c.phase = .fenced && !s.earlierUnposted c.sq c.order).foldl
    (fun t c => t.handOver c.id) s

/-! ### Posting and notification (R63 to R70, R402) -/

/-- The 16 bytes of a completion entry (Table 2-9). -/
def completionBytes (k : Completion) (head : Nat) (phase degraded : Bool) : Bytes :=
  leBytes 2 k.tag ++ leBytes 1 k.status.code ++ leBytes 1 (bit01 phase + k.cflags + (if degraded then 0x20 else 0))
    ++ leBytes 4 k.seq.toNat ++ leBytes 2 k.sq ++ leBytes 2 head ++ leBytes 4 k.result

/-- The notification message of a ring (R402). -/
def State.notify (n : Nat) (s : State) : State :=
  match s.homePort n with
  | none => s
  | some p =>
    let c := s.cq n
    let bs := leBytes 2 n ++ leBytes 2 c.tail ++ zeroBytes 28
    let t : State := { s with hostMem := memWrite s.hostMem c.msgAddr bs }
    (t.updCq n fun c => { c with unnotified := 0 }).send p
      { cls := 1, vc := 0, dst := (s.port p).hostNode, addr := c.msgAddr, len := 32, slots := 2, ring := some n
        data := bs }

/-- Count a posted completion that asks for a message, and send the message when the coalescing count is reached or its
time is 0 (R70). -/
def State.wantNotify (n : Nat) (want : Bool) (s : State) : State :=
  let c := s.cq n
  if !want || !c.msgEn then s
  else
    let t := s.updCq n fun c => { c with
      unnotified := c.unnotified + 1, oldest := if c.unnotified = 0 then s.bt else c.oldest }
    if c.coalesceCount ≤ c.unnotified + 1 || c.coalesceTime = 0 then t.notify n else t

/-- Keep a posted completion with the record of its sequence number (R64). -/
def Sq.retain (q : Sq) (k : Completion) : Sq :=
  if k.retain then
    { q with window := updWhere (fun r => r.seq = k.seq) (fun r => { r with posted := some k }) q.window }
  else q

/-- What the posting of a completion releases: its active-command slot, its range-lock entry and its pins (R69, R197,
R378). -/
def State.release (id : Option Nat) (s : State) : State :=
  match id with
  | none => s
  | some i =>
    let pins := match s.slot? i with | some c => c.pins | none => []
    (({ s with
      locks := s.locks.filter (·.slot ≠ i)
      atr := { s.atr with slots := s.atr.slots.filter (·.id ≠ i) } } : State).dropUnready i).unpinAll pins

/-- Post the first ready completion of a ring: what waited of its results, one 16-byte write, and everything that follows from it
(R21, R65, R68, R69). -/
def State.post (n : Nat) (s : State) : State :=
  let c := s.cq n
  match c.ready, s.homePort n with
  | k :: ks, some _ =>
    if s.still || c.size ≤ c.held + 1 then s
    else
      let bs := completionBytes k (s.sq k.sq).head c.phase s.timeDegraded
      let t := (s.unpark n).hostWrite n (c.base + 16 * c.tail) bs
      let wrap := c.tail + 1 = c.size
      let t := t.updCq n fun c => { c with
        ready := ks, tail := if wrap then 0 else c.tail + 1, phase := if wrap then !c.phase else c.phase }
      let t := t.updSq k.sq fun q => Sq.settle { q.retain k with inFlight := q.inFlight - 1 }
      ((t.release k.slot).unfence.takeLocks).wantNotify n k.notify
  | _, _ => s

/-- NOTIFY_TIMEOUT: the coalescing time has passed since the oldest completion without a message (R70). -/
def execNotifyTimeout (cq : Nat) (s : State) : Host.Outcome State Fault Refusal :=
  .next (
    let c := s.cq cq
    if 0 < c.unnotified && s.elapsed c.oldest c.coalesceTime && !s.silent then s.notify cq else s)

end Sys2Proof.Machine
end

