-- ==== Sys2Proof/Machine/Link.lean ====
section
/-! DEFINITION. Link ports: training, retraining, replay, failover, and return to service (R395 to R397, R404 to R409, R467,
R485, R496). -/
namespace Sys2Proof.Machine

/-! ### Returning units (R464, R467) -/

/-- A return ends in failure: the unit stays CLOSED with its closure number, UNIT_RETURN completes with `UNIT_CLOSED`, and
one record is raised (R464, R470). -/
def State.returnFailed (k : UnitKind) (p : Nat) (s : State) : State :=
  match s.unit? k p with
  | none => s
  | some u =>
    ((s.updUnit k p fun u => { u with state := .closed }).finishUnitCmds k p 0x01 .unitClosed 0).raise
      (faultUnit 0x0F 2 k p u.closure)

/-! ### Failover (R406 to R408) -/

/-- Ring homes held back from their own port return to it once no packet of the ring waits or is unacknowledged on the
other (R407). -/
def State.settleHomes (s : State) : State :=
  let busy := fun h : Nat × Nat =>
    let p := s.port h.2
    (p.replay.any fun f => f.pkt.ring = some h.1) || (p.wait.any fun k => k.ring = some h.1)
  { s with link := { s.link with homes := s.link.homes.filter busy } }

/-- The packets of a port's unacknowledged flits, in order: each has its final flit in the replay buffer. -/
def Port.unacked (p : Port) : List TxPkt := (p.replay.filter (·.final)).map (·.pkt)

/-- A packet as it goes on through another port: host traffic is addressed to the host node learnt there (R406). -/
def TxPkt.via (k : TxPkt) (host : Nat) : TxPkt := if k.ring.isSome then { k with dst := host } else k

/-- Reissue the outstanding reads of a port under new tags of the other (R408). -/
def State.reissueReads (p q : Nat) (s : State) : State :=
  (s.atr.slots.flatMap fun c => (c.reads.filter (·.port = p)).map fun m => (c.id, m)).foldl
    (fun t cm =>
      (t.updSlot cm.1 fun c => { c with reads := c.reads.filter (· ≠ cm.2) }).issueRead cm.1 q ⟨cm.2.addr, cm.2.len⟩) s

/-- A port loses its link: nothing is in flight on it any more. -/
def Port.drop (p : Port) : Port :=
  { p with link := .down, width := 0, lanes := 0, replay := [], wait := [], red := [], partialPkt := [], starvedSince := none
           beaconAt := none, bseq := none, echoAt := none, sameReplays := 0 }

/-- Move a port's unacknowledged and waiting packets to the front of the other port, its reads under new tags (R408). The
moved packets keep their order; reads leave the list, for they are reissued. -/
def State.failover (p : Nat) (s : State) : State :=
  let q := 1 - p
  let moved := ((s.port p).unacked ++ (s.port p).wait).filter (·.cls ≠ 3)
  let moved := moved.map fun k => k.via (s.port q).hostNode
  let t := (s.updPort p Port.drop).updPort q fun r => ({ r with wait := moved ++ r.wait }.pump).noteStarve s.bt
  let t : State := { t with link := { t.link with homes := t.link.homes.filter (·.2 ≠ p) } }
  t.reissueReads p q

/-- A port fault: the port enters DRAINING with one record of class 0x10, its traffic moves, and it goes to CLOSED (R397, R408, R470,
R485). -/
def State.portFault (p : Nat) (s : State) : State :=
  let t := (s.drainFault 0x10 .port p).failover p
  if t.unitIs .port p .draining then t.closed .port p else t

/-- A port that reaches IN_SERVICE and UP: what waited for a port leaves first; rings whose packets are still on the other
port stay there (R407, R409). -/
def State.portReady (p : Nat) (s : State) : State :=
  let q := 1 - p
  let other := s.port q
  let t :=
    if s.portUsable q then
      let rings := ((other.unacked ++ other.wait).filterMap (·.ring)).eraseDups.filter fun c => c % 2 = p
      { s with link := { s.link with homes := rings.map fun c => (c, q) } }
    else
      ((s.updPort q fun r => { r with wait := [] }).updPort p fun r =>
        { r with wait := (other.wait.filter (·.cls ≠ 3)).map (fun k => k.via r.hostNode) ++ r.wait }).reissueReads q p
  (State.renewRounds t (t.updPort p Port.pump)).pumpRed.pumpReads

/-! ### Training (R395, R396, R404, R406, R496) -/

/-- The link can train: core release has come, or the recovery loader runs (R495, R498). -/
def State.linkAlive (s : State) : Bool :=
  !s.silent && (s.power.phase = .mount || s.power.phase = .service || s.power.phase = .held || s.power.phase = .recovery)

/-- Start training a port afresh. -/
def Port.train (now : Nat) (p : Port) : Port :=
  { p with link := .training, attempts := 0, trainSince := now, trainFailed := false }

/-- A partner is detected and the port starts training (R396). -/
def execPartnerDetected (port : Nat) (s : State) : Host.Outcome State Fault Refusal :=
  .next (
    let p := s.port port
    if 2 ≤ port || !s.linkAlive || p.link ≠ .down then s
    else if s.unitIs .port port .inService && !p.trainFailed then
      s.updPort port fun p => { p.train s.bt with partner := true }
    else s.updPort port fun p => { p with partner := true })

/-- The third failed attempt in a row: the port has failed training and stays DOWN (R396). A return in progress fails
with it; a port in service closes. -/
def State.trainingFailed (port : Nat) (s : State) : State :=
  let t := s.updPort port fun p => { p.drop with trainFailed := true, attempts := 0 }
  if t.unitIs .port port .returning then t.returnFailed .port port
  else if t.unitIs .port port .closed then t.raise (faultUnit 0x10 5 .port port 0)
  else t.closeFault 0x10 .port port

/-- One attempt at training has failed. -/
def State.attemptFailed (port : Nat) (s : State) : State :=
  if 2 ≤ (s.port port).attempts then s.trainingFailed port
  else s.updPort port fun p => { p with attempts := p.attempts + 1, trainSince := s.bt }

/-- A port that has not reached UP within 100 ms trains again, three times in all (R396). -/
def execTrainingTimeout (port : Nat) (s : State) : Host.Outcome State Fault Refusal :=
  .next (
    let p := s.port port
    if p.link = .training && s.elapsed p.trainSince 100000 then s.attemptFailed port else s)

/-- The partner advertises at least 129 slots on VC0, VC1 and VC3 to VC6 (R404). -/
def linkCreditsOk (p : LinkParams) : Bool :=
  p.credits.length = 7 && [0, 1, 3, 4, 5, 6].all fun v => 129 ≤ p.credits.getD v 0

/-- A port after parameter exchange: sequence numbers and credits start afresh (R396, R404 to R406, R411). -/
def Port.up (q : LinkParams) (now : Nat) (p : Port) : Port :=
  { p with
    link := .up, width := q.width, lanes := q.lanes, hostNode := q.hostNode, credits := q.credits
    attempts := 0, trainFailed := false, nextFseq := 0, rxSeq := 65535, acked := 65535, replay := []
    red := [], partialPkt := [], sameReplays := 0, lastAck := now, nak := false
    failedRetrains := [], starvedSince := none, bseq := none, beaconAt := none, delay := q.delay % 65536
    width2 := if q.width = 2 then sat16 (p.width2 + 1) else p.width2 }

/-- Parameter exchange ends: the port is UP at width 4 or 2, one record at width 2; a partner that advertises too little
credit fails the attempt. A CLOSED port that the drive retrains passes through RETURNING (R395, R396, R404, R496). -/
def execTrainingEnd (port : Nat) (p : LinkParams) (s : State) : Host.Outcome State Fault Refusal :=
  .next (
    if 2 ≤ port || (s.port port).link ≠ .training then s
    else if !linkCreditsOk p || (p.width ≠ 4 && p.width ≠ 2) then s.attemptFailed port
    else
      let t := s.updPort port (Port.up p s.bt)
      let t : State := { t with link := { t.link with node := p.node } }
      let t := if p.width = 2 then t.raise (faultUnit 0x10 5 .port port 0) else t
      if t.unitIs .port port .closed then t.updUnit .port port fun u => { u with state := .returning }
      else if t.unitIs .port port .inService then t.portReady port
      else t)

/-- PORT_RETRY: while no port is IN_SERVICE, every DOWN port starts training again once in each 1,000,000 BT (R496). -/
def execPortRetry (s : State) : Host.Outcome State Fault Refusal :=
  .next (
    if (s.inService .port).isEmpty && s.linkAlive && s.elapsed s.link.lastRetry 1000000 then
      let ports := s.link.ports.map fun p => if p.link = .down then p.train s.bt else p
      { s with link := { s.link with ports := ports, lastRetry := s.bt } }
    else s)

/-! ### Retraining and replay (R397, R405) -/

/-- A port that is UP starts a retrain (R397). -/
def State.retrain (port : Nat) (s : State) : State :=
  if (s.port port).link = .up then
    s.updPort port fun p =>
      { p with link := .retraining, retrains := sat16 (p.retrains + 1), trainSince := s.bt, sameReplays := 0 }
  else s

/-- Flit lock is lost for 10 µs (R397). -/
def execFlitLockLoss (port : Nat) (s : State) : Host.Outcome State Fault Refusal :=
  .next (s.retrain port)

/-- Replay the unacknowledged flits from the oldest; the fourth replay of one flit without ACK_SEQ advancing starts a
retrain (R397, R405). -/
def State.replayFlits (port : Nat) (s : State) : State :=
  if (s.port port).replay.isEmpty then s
  else
    let t := s.updPort port fun p =>
      { p with replays := sat32 (p.replays + 1), sameReplays := p.sameReplays + 1, lastAck := s.bt }
    if 4 ≤ (t.port port).sameReplays then t.retrain port else t

/-- ACK_SEQ has not advanced for 4 µs while flits are unacknowledged (R405). -/
def execAckTimeout (port : Nat) (s : State) : Host.Outcome State Fault Refusal :=
  .next (
    let p := s.port port
    if p.link = .up && s.elapsed p.lastAck 4 then s.replayFlits port else s)

/-- Send the ECHO flits that are due on a port (R411). -/
def Port.sendEcho (bcnCycle : Nat) (p : Port) : Port := { p with echoAt := some bcnCycle, echoDue := false }

/-- A retrain ends: DATA flits resume; after three failed retrains within 100 ms the port has a port fault, and before that
it retrains again (R397). An ECHO that fell due is sent (R418). -/
def execRetrainEnd (port : Nat) (good : Bool) (s : State) : Host.Outcome State Fault Refusal :=
  .next (
    let p := s.port port
    if p.link ≠ .retraining then s
    else if good then
      let t := s.updPort port fun p =>
        let q := { p with link := .up, lastAck := s.bt, sameReplays := 0 }
        if p.echoDue then q.sendEcho (s.clk.cycle / 6) else q
      State.renewRounds t (t.updPort port Port.pump)
    else
      let fails := (p.failedRetrains.filter fun t => s.bt ≤ t + 100000) ++ [s.bt]
      if 3 ≤ fails.length then (s.updPort port fun p => { p with failedRetrains := [] }).portFault port
      else s.updPort port fun p =>
        { p with failedRetrains := fails, retrains := sat16 (p.retrains + 1), trainSince := s.bt })

/-- CREDIT_STARVATION: no credit on VC0 to VC2 for 100,000 BT while a packet of them waits is a port fault (R485). -/
def execCreditStarvation (port : Nat) (s : State) : Host.Outcome State Fault Refusal :=
  .next (match (s.port port).starvedSince with
    | some t => if s.elapsed t 100000 && s.portUsable port then s.portFault port else s
    | none => s)

/-- CPL: a completion of a host read arrives on a port in service (R403, R408, R418). -/
def execCpl (port tag cstatus offset : Nat) (last : Bool) (data : List Byte) (s : State) :
    Host.Outcome State Fault Refusal :=
  .next (if s.portAccepts port then s.takeCpl port tag cstatus offset last data else s)

end Sys2Proof.Machine
end

