-- ==== Sys2Proof/Machine/Beacon.lean ====
section
/-! DEFINITION. The beacon time base: sources, states, the epoch, echo delays and the test pulse (R410 to R418, R529). -/
namespace Sys2Proof.Machine

/-- Change the time base. -/
def State.updBeacon (f : Beacon → Beacon) (s : State) : State := { s with beacon := f s.beacon }

/-- Two counts lie within one BT of one another. -/
def within1 (a b : Nat) : Bool := a ≤ b + 1 && b ≤ a + 1

/-- A source supplies valid beacons: its last was valid within 192 BT, and a port is UP (R412, R415). -/
def State.supplying (s : State) (src : Nat) : Bool :=
  if src = 2 then (match s.beacon.aux with | some a => s.bt < a.2 + 192 | none => false)
  else (s.port src).link = .up && match (s.port src).beaconAt with | some t => s.bt < t + 192 | none => false

/-- The gap since the last checkpoint is compared with the epoch at the first lock; beyond 604,800,000,000 BT a full
retention pass begins (R367, R415). -/
def State.compareEpoch (s : State) : State :=
  if s.ftl.compareDue && !(s.beacon.state = .acquiring) then
    let far := s.ftl.checkpointTick + 604800000000 < s.epoch
    { s with ftl := { s.ftl with compareDue := false, fullPass := if far then some s.bt else s.ftl.fullPass } }
  else s

/-- Lock: the epoch takes the beacon's count, forward or back (R415, R416). -/
def State.lock (tick : Nat) (s : State) : State :=
  (s.updBeacon fun b => { b with
    state := .locked, tick := tick, tickBt := s.bt, lastValid := s.bt, agree := 0 }).compareEpoch

/-- One more of a run of beacons that agree with one another; a beacon that disagrees starts a run of its own. -/
def State.runOf (tick : Nat) (s : State) : State :=
  s.updBeacon fun b =>
    let ok := 0 < b.agree && within1 tick (b.agreeTick + (s.bt - b.agreeBt))
    { b with agree := if ok then b.agree + 1 else 1, agreeTick := tick, agreeBt := s.bt }

/-- A valid beacon of the governing source (R415): in ACQUIRING or DEGRADED three agreeing flits lock, or one frame of
`AUX_TIME`; in LOCKED or HOLDOVER one within 1 BT of the epoch keeps or regains LOCKED, others are ignored and counted, and
three of them in a row that agree relock with one record. -/
def State.applyBeacon (tick : Nat) (frame : Bool) (s : State) : State :=
  let b := s.beacon
  if b.state = .acquiring || b.state = .degraded then
    let t := s.runOf tick
    if frame || 3 ≤ t.beacon.agree then t.lock tick else t
  else if within1 tick s.epoch then
    s.updBeacon fun b => { b with state := .locked, lastValid := s.bt, agree := 0 }
  else
    let t := (s.updBeacon fun b => { b with bad := sat16 (b.bad + 1) }).runOf tick
    if 3 ≤ t.beacon.agree then
      ((t.updBeacon fun b => { b with relocks := sat16 (b.relocks + 1) }).lock tick).raise (faultOf 0x12 5)
    else t

/-- A valid beacon that does not govern is monitored: one that agrees with the epoch has arrived all the same (R412, R415,
R418). -/
def State.monitorBeacon (tick : Nat) (s : State) : State :=
  if s.beacon.state = .locked && within1 tick s.epoch then s.updBeacon fun b => { b with lastValid := s.bt } else s

/-- While `AUX_TIME` governs in mode 2 the link takes over at its third agreeing flit (R418). -/
def State.takeOver (port tick : Nat) (s : State) : State :=
  let t := s.runOf tick
  if 3 ≤ t.beacon.agree then (t.updBeacon fun b => { b with supply := port }).lock tick else t

/-- A valid beacon of a link port (R412). -/
def State.linkBeacon (port tick : Nat) (s : State) : State :=
  let sup := s.beacon.supply
  let t := s.updPort port fun p => { p with beaconAt := some s.bt }
  if sup = 2 && s.supplying 2 then t.takeOver port tick
  else
    let clash := sup < 2 && sup ≠ port && s.supplying sup && s.beacon.state = .locked && !within1 tick s.epoch
    let t := if clash then t.raise { faultOf 0x12 5 with detail := port } else t
    if sup < 2 && sup < port && s.supplying sup then t.monitorBeacon tick
    else (t.updBeacon fun b => { b with supply := port }).applyBeacon tick false

/-- BEACON: a BEACON flit arrives on an UP port. It is valid when its CRC holds, REF_LOCKED is set and its BSEQ follows the
last flit with a good CRC on the port; its tick is placed at its arrival less the delay (R411). -/
def execBeacon (port : Nat) (flit : BeaconFlit) (s : State) : Host.Outcome State Fault Refusal :=
  .next (
    let p := s.port port
    if 2 ≤ port || p.link ≠ .up then s
    else if !flit.crcOk then s.updBeacon fun b => { b with bad := sat16 (b.bad + 1) }
    else
      let t := s.updPort port fun p => { p with bseq := some (flit.bseq % 65536) }
      if s.beacon.cfg = 1 then t
      else
        let follows := match p.bseq with | some q => flit.bseq % 65536 = (q + 1) % 65536 | none => true
        if flit.refLocked && follows then t.linkBeacon port (flit.tick + p.delay / 100)
        else
          let t := if s.beacon.supply = port then t.updBeacon fun b => { b with agree := 0 } else t
          t.updBeacon fun b => { b with bad := sat16 (b.bad + 1) })

/-- AUX_TIME_FRAME: a frame of 96 ticks ends, free of errors or not. It is valid when its TICK is 96 above that of the
error-free frame directly before it; otherwise it sets the reference only (R413). -/
def execAuxTimeFrame (tick : Nat) (clean : Bool) (s : State) : Host.Outcome State Fault Refusal :=
  .next (
    if s.beacon.cfg = 0 then s
    else
      let follows := match s.beacon.aux with
        | some a => tick = a.1 + 96 && s.bt < a.2 + 192
        | none => false
      let t := s.updBeacon fun b => { b with aux := if clean then some (tick, s.bt) else none }
      if !(clean && follows) then t.updBeacon fun b => { b with bad := sat16 (b.bad + 1) }
      else if s.beacon.cfg = 2 && (s.supplying 0 || s.supplying 1) then t.monitorBeacon tick
      else (t.updBeacon fun b => { b with supply := 2 }).applyBeacon tick true)

/-- BEACON_HOLDOVER: 192 BT without a valid beacon (R415). -/
def execBeaconHoldover (s : State) : Host.Outcome State Fault Refusal :=
  .next (
    let b := s.beacon
    if b.state = .locked && s.elapsed b.lastValid 192 then
      s.updBeacon fun b => { b with state := .holdover, holdovers := sat16 (b.holdovers + 1), agree := 0 }
    else s)

/-- BEACON_DEGRADED: 50,000 BT after the last valid beacon, with one record (R415). -/
def execBeaconDegraded (s : State) : Host.Outcome State Fault Refusal :=
  .next (
    let b := s.beacon
    if b.state = .holdover && s.elapsed b.lastValid 50000 then
      (s.updBeacon fun b => { b with state := .degraded, agree := 0 }).raise (faultOf 0x12 5)
    else s)

/-- BEACON_SOURCE_CHECK: over each 65,536 BT the supplying source is measured against AON; one more than 100 ppm off is
rejected as though lost, with one record (R414). -/
def execBeaconSourceCheck (ppm : Int) (s : State) : Host.Outcome State Fault Refusal :=
  .next (
    let b := s.beacon
    if !s.elapsed b.checked 65536 || 3 ≤ b.supply then s
    else
      let t := s.updBeacon fun b => { b with checked := s.bt }
      if ppm.natAbs ≤ 100 then t
      else
        let t := if b.supply < 2 then t.updPort b.supply fun p => { p with beaconAt := none } else t
        (t.updBeacon fun b => { b with
          supply := 3, agree := 0, rejected := sat16 (b.rejected + 1)
          aux := if b.supply = 2 then none else b.aux }).raise (faultOf 0x12 5))

/-- ECHO: every 1,000,000 BT an ECHO flit leaves on each UP port; on one that retrains it waits (R411, R418). -/
def execEcho (s : State) : Host.Outcome State Fault Refusal :=
  .next (
    if s.elapsed s.link.lastEcho 1000000 then
      let f := fun p : Port => match p.link with
        | .up => p.sendEcho (s.clk.cycle / 6)
        | .retraining => { p with echoDue := true }
        | _ => p
      { s with link := { s.link with ports := s.link.ports.map f, lastEcho := s.bt } }
    else s)

/-- ECHO_RETURN: the one-way delay is half the round trip less TURN, in BCN cycles; TURN counts 10 ns, one such cycle
(R411, Table 15-7). -/
def execEchoReturn (port arrival turn : Nat) (s : State) : Host.Outcome State Fault Refusal :=
  .next (match (s.port port).echoAt with
    | none => s
    | some t0 => s.updPort port fun p => { p with echoAt := none, delay := (arrival - t0 - turn) / 2 % 65536 })

/-- A write of `BCN_CFG`: 3 is out of range; another selection than before starts with no source; other than 0 stops the
test pulse at once (R412, R529, R534). -/
def State.writeBcnCfg (v : Nat) (s : State) : State :=
  let c := bitsAt v 0 2
  if c = 3 then s.updBeacon fun b => { b with err := true }
  else
    let t := if c = s.beacon.cfg then s else s.updBeacon fun b =>
      { b with cfg := c, supply := 3, agree := 0, aux := none }
    if c = 0 then t else { t with test := { t.test with pulse := false } }

/-- BCN_CFG (R412). -/
def execBcnCfg (port : Nat) (value : Word) (s : State) : Host.Outcome State Fault Refusal :=
  .next (if s.regOpen port .bcn then s.writeBcnCfg value.toNat else s)

/-- TEST_PULSE: `AUX_TIME` is driven high at a tick boundary whose epoch count is a multiple of the period, while enabled and
`BCN_CFG` is 0 (R529). -/
def execTestPulse (s : State) : Host.Outcome State Fault Refusal :=
  .next (
    if s.beacon.cfg = 0 && s.test.pulse && s.epoch % (s.test.period + 1) = 0 then
      { s with test := { s.test with pulses := s.test.pulses + 1 } }
    else s)

/-- A write of `TST_PULSE_CFG`: one that enables the pulse while `BCN_CFG` is 1 or 2 is ignored and sets ERR (R529). -/
def State.writePulseCfg (v : Nat) (s : State) : State :=
  if bitAt v 0 && s.beacon.cfg ≠ 0 then { s with test := { s.test with err := true } }
  else { s with test := { s.test with pulse := bitAt v 0, period := bitsAt v 16 16 } }

/-- TST_PULSE_CFG (R529). -/
def execTstPulseCfg (port : Nat) (value : Word) (s : State) : Host.Outcome State Fault Refusal :=
  .next (if s.regOpen port .tst then s.writePulseCfg value.toNat else s)

end Sys2Proof.Machine
end

