-- ==== Sys2Proof/Machine/Measure.lean ====
section
/-! DEFINITION. Measurement registers and the measurement log (R508, R509, Table 20-5). -/
namespace Sys2Proof.Machine

/-- The first 64 bytes of SHAKE256 (R501). -/
def digest64 (b : Bytes) : Bytes := fitBytes 64 (Config.shake256 b)

/-- `extend` of R508. -/
def extendM (m : Bytes) (t : Nat) (d : Bytes) : Bytes := digest64 (m ++ leBytes 4 t ++ d)

/-- Extend a measurement register with an event of a type and a digest of 64 bytes, and log it; a full log sets LOG_FULL
(R508, R509). -/
def State.extend (reg typ obj ver : Nat) (digest : Bytes) (s : State) : State :=
  let q := s.sec
  let e : LogEntry := { seq := q.log.length + 1, reg := reg, version := ver, typ := typ, obj := obj, digest := digest }
  { s with sec := { q with
      m := updAt reg (fun m => extendM m typ digest) q.m
      log := if q.log.length < 65536 then q.log ++ [e] else q.log
      logFull := q.logFull || decide (65536 ≤ q.log.length) } }

end Sys2Proof.Machine
end

