-- ==== Sys2Proof/Machine/Kernel.lean ====
section
/-! DEFINITION. Distance kernels: their form, the checks of KERNEL_LOAD, and their arithmetic (R220 to R226). -/
namespace Sys2Proof.Machine

/-! ### Form (R223, Table 8-6) -/

/-- A kernel word: OP, DST, SA, SB and whether bits [16:0] are zero. -/
structure KWord where
  op : Nat
  dst : Nat
  sa : Nat
  sb : Nat
  clean : Bool
  deriving DecidableEq, Repr

/-- The fields of a kernel word. -/
def decodeKWord (w : Nat) : KWord :=
  { op := bitsAt w 26 6, dst := bitsAt w 23 3, sa := bitsAt w 20 3, sb := bitsAt w 17 3, clean := bitsAt w 0 17 = 0 }

/-- A distance kernel. -/
structure Kernel where
  mask : Nat
  consts : List Word
  elems : List KWord
  fins : List KWord
  deriving DecidableEq, Repr

/-- The words of a kernel from an offset. -/
def kwordsAt (b : Bytes) (off n : Nat) : List KWord := (List.range n).map fun i => decodeKWord (field b (off + 4 * i) 4)

/-- The kernel that bytes hold. -/
def decodeKernel (b : Bytes) : Kernel :=
  let n := field b 0 1
  { mask := field b 2 2, consts := (List.range 4).map fun i => BitVec.ofNat 32 (field b (16 + 4 * i) 4)
    elems := kwordsAt b 32 n, fins := kwordsAt b (32 + 4 * n) (field b 1 1) }

/-- The bytes of a kernel of words. -/
def kernelBytes (mask c0 : Nat) (elems fins : List Nat) : Bytes :=
  leBytes 1 elems.length ++ leBytes 1 fins.length ++ leBytes 2 mask ++ zeroBytes 12 ++ leBytes 4 c0 ++ zeroBytes 12
    ++ (elems ++ fins).flatMap (leBytes 4)

/-- The built-in kernels of slots 0 to 3 (Table 8-7, Table 8-8). -/
def builtinKernel (slot : Nat) : Bytes :=
  match slot with
  | 0 => kernelBytes 0x03C3 0 [0x08000000] [0x58000000]
  | 1 => kernelBytes 0x03C3 0 [0x04000000] [0x5C000000]
  | 2 => kernelBytes 0x03C3 0x3F800000 [0x04000000, 0x0C800000, 0x11000000]
      [0x40000000, 0x40900000, 0x41200000, 0x4D940000, 0x51B00000, 0x4C060000, 0x54800000, 0x48100000, 0x60000000]
  | _ => kernelBytes 0x0100 0 [0x18000000] [0x58000000]

/-- The bytes a kernel slot holds; none for an empty slot (R221). -/
def State.kernelSlot (s : State) (slot : Nat) : Option Bytes :=
  if slot < 4 then some (builtinKernel slot)
  else match s.search.kernels[slot]? with
    | some b => if b = [] then none else some b
    | none => none

/-- The kernel of a slot whose FORMAT_MASK includes a format (R219, R241). -/
def State.kernelFor (s : State) (slot fmt : Nat) : Option Kernel :=
  match s.kernelSlot slot with
  | some b => if bitAt (decodeKernel b).mask fmt then some (decodeKernel b) else none
  | none => none

/-! ### The checks of KERNEL_LOAD (R224) -/

/-- An output operation. -/
def KWord.isOut (w : KWord) : Bool := w.op = 0x16 || w.op = 0x17 || w.op = 0x18

/-- An element word is defined, in its stage and within its registers. -/
def KWord.elemOk (mask : Nat) (w : KWord) : Bool :=
  w.clean && 1 ≤ w.op && w.op ≤ 6 && w.dst ≤ 3 && (w.op ≠ 6 || mask = 0x0100)

/-- The finish registers a word reads are among those written before it, and the accumulators among those an element word
adds into (R224, assumption log 48: DEDUCED, unsafe). -/
def KWord.readsOk (accs regs : List Nat) (w : KWord) : Bool :=
  match w.op with
  | 0x10 | 0x16 | 0x17 => accs.contains w.sa
  | 0x11 | 0x12 | 0x13 => regs.contains w.sa && regs.contains w.sb
  | 0x14 | 0x18 => regs.contains w.sa
  | _ => w.sa ≤ 3

/-- The finish words are defined, read what is written, and end in the one output operation. -/
def finsOk (accs : List Nat) : List Nat → List KWord → Bool
  | _, [] => false
  | regs, [w] => w.clean && w.isOut && w.readsOk accs regs
  | regs, w :: ws =>
    w.clean && 0x10 ≤ w.op && w.op ≤ 0x15 && w.readsOk accs regs && finsOk accs (w.dst :: regs) ws

/-- N_ELEM, N_FIN and the length are in range. -/
def kernelLengthOk (b : Bytes) : Bool :=
  let n := field b 0 1
  let m := field b 1 1
  1 ≤ n && n ≤ 4 && 1 ≤ m && m ≤ 12 && b.length = 32 + 4 * (n + m)

/-- The fields of a kernel whose length is right. -/
def kernelFieldsOk (b : Bytes) : Bool :=
  let k := decodeKernel b
  k.elems.all (KWord.elemOk k.mask) && finsOk (k.elems.map (·.dst)) [] k.fins && k.mask ≠ 0
    && ((List.range 16).all fun i => !bitAt k.mask i || bitAt 0x03C3 i) && allZero (slice b 4 12)
    && k.consts.all fun c => !isNanF32 c.toNat

/-- A slot is named by an index version that is not RETIRED. -/
def State.kernelInUse (s : State) (slot : Nat) : Bool :=
  s.tiers.objects.any fun o => o.kind = 3 && o.versions.any fun v => (memGet v.data 7).toNat = slot

/-- KERNEL_LOAD, 0x45: the counts and the length they make are checked at step 6, from the data buffer where it can be read (R224,
R542). -/
def State.specKernelLoad (s : State) (e : Bytes) (refused : Bool) : OpSpec :=
  let look := !(refused && bitAt (field e 1 1) 1)
  { data := true, reserved := [(41, 23)], field5 := [(field e 40 1 < 4 || 63 < field e 40 1, 40)]
    length6 := [(look && !kernelLengthOk (s.entryData e refused), 24)] }

/-- KERNEL_LOAD: the kernel is checked, stored and measured (R221, R224, Table 20-5). -/
def execKernelLoad (slot : Nat) (s : State) : Host.Outcome State Fault Refusal :=
  .next (s.runCmd slot 0x45 false fun c =>
    let b := s.dataBytes c
    let n := c.arg 40 1
    if !kernelLengthOk b then s.fail slot .invalidLength 24
    else if !kernelFieldsOk b then s.fail slot .invalidField 16
    else if s.kernelInUse n then s.fail slot .invalidField 40
    else
      let ks := (List.range 64).map fun i => if i = n then b else s.search.kernels.getD i []
      let t : State := { s with search := { s.search with kernels := ks } }
      (t.extend 3 0x21 0 0 (digest64 b)).done slot 0)

/-! ### Arithmetic (R220, R222) -/

/-- An index of the format has exact integer accumulators: INT4 and INT8 (R222). -/
def intIndex (fmt : Nat) : Bool := fmt = 1 || fmt = 8

/-- Bits that differ between two codes of 8 bits. -/
def diffBits (a b : Nat) : Nat := ((List.range 8).filter fun i => bitAt a i != bitAt b i).length

/-- The term of an element operation, exactly, from the codes and the values of q_i and x_i. -/
def elemTerm (op : Nat) (qc xc : Nat) (q x : Frac) : Frac :=
  match op with
  | 1 => q.mul x
  | 2 => (q.sub x).mul (q.sub x)
  | 3 => x.mul x
  | 4 => q.mul q
  | 5 => (q.sub x).abs
  | _ => Frac.ofInt (diffBits qc xc)

/-- Accumulators a0 to a3: exact integers, or FP32 values. -/
abbrev Accs := List Frac

/-- Add a term: exactly for integers, else the term rounded once and the sum rounded once (R222). -/
def addTerm (int : Bool) (a t : Frac) : Frac :=
  if int then a.add t else f32 (roundF32 (a.add (f32 (roundF32 t).1))).1

/-- The element words for one element. -/
def elemStep (int : Bool) (ws : List KWord) (qc xc : Nat) (q x : Frac) (as : Accs) : Accs :=
  ws.foldl (fun as w => as.modify w.dst fun a => addTerm int a (elemTerm w.op qc xc q x)) as

/-- The element stage over all elements. -/
def elemStage (int : Bool) (ws : List KWord) (fmt : Nat) : List (Nat × Nat) → Accs → Accs
  | [], as => as
  | p :: ps, as =>
    let q := (elemValue fmt p.1).getD Frac.zero
    let x := (elemValue fmt p.2).getD Frac.zero
    elemStage int ws fmt ps (elemStep int ws p.1 p.2 q x as)

/-- An accumulator as FP32 (FLOAD). -/
def loadAcc (a : Frac) : Word := BitVec.ofNat 32 (roundF32 a).1

/-- An accumulator as a key, negated where asked (OUTA, OUTNA). -/
def accKey (int neg : Bool) (a : Frac) : Key :=
  let v := if neg then a.neg else a
  if int then .int v.trunc else .fp (loadAcc v)

/-- The finish stage: the key, and whether FRSQ met a negative value (R135). -/
def finStage (int : Bool) (k : Kernel) (as : Accs) : List KWord → List Word → Bool → Key × Bool
  | [], _, nan => (.int 0, nan)
  | w :: ws, f, nan =>
    let a := as.getD w.sa Frac.zero
    let x := f.getD w.sa 0
    let y := f.getD w.sb 0
    match w.op with
    | 0x10 => finStage int k as ws (f.set w.dst (loadAcc a)) nan
    | 0x11 => finStage int k as ws (f.set w.dst (fpOp 0 0 x y).val) nan
    | 0x12 => finStage int k as ws (f.set w.dst (fpOp 1 0 x y).val) nan
    | 0x13 => finStage int k as ws (f.set w.dst (fpOp 2 0 x y).val) nan
    | 0x14 => finStage int k as ws (f.set w.dst (rsqOp x).val) (nan || (rsqOp x).nan)
    | 0x15 => finStage int k as ws (f.set w.dst (k.consts.getD w.sa 0)) nan
    | 0x16 => (accKey int false a, nan)
    | 0x17 => (accKey int true a, nan)
    | _ => (.fp x, nan)

/-- The key of a stored vector for a query, and whether a NaN was met (R220 to R222). -/
def Kernel.key (k : Kernel) (fmt : Nat) (q x : List Nat) : Key × Bool :=
  let int := intIndex fmt
  let as := elemStage int k.elems fmt (q.zip x) (List.replicate 4 Frac.zero)
  let bad := fun c => (elemValue fmt c).isNone
  finStage int k as k.fins (List.replicate 8 0) (q.any bad || x.any bad)

/-- The key type of Table 8-12: 0 for INT64, 1 for FP32. -/
def Key.typ : Key → Nat
  | .int _ => 0
  | .fp _ => 1

/-- A key as a value: FP32 keys compare numerically, −0 equal to +0 (R225). -/
def Key.value : Key → Frac
  | .int v => Frac.ofInt v
  | .fp c => f32 c.toNat

/-- The order of R225: key, then VECTOR_ID or node number. -/
def rankBefore (a b : Key × Nat) : Bool :=
  a.1.value.lt b.1.value || (!b.1.value.lt a.1.value && a.2 < b.2)

/-- Insert in rank order. -/
def rankInsert (x : Key × Nat) : List (Key × Nat) → List (Key × Nat)
  | [] => [x]
  | y :: ys => if rankBefore x y then x :: y :: ys else y :: rankInsert x ys

/-- `best(s, n)`: the first n in rank order. -/
def best (l : List (Key × Nat)) (n : Nat) : List (Key × Nat) := (l.foldl (fun acc x => rankInsert x acc) []).take n

/-- Bytes 8 to 15 of a record (R236). -/
def Key.bytes : Key → Bytes
  | .int v => leBytes 8 (intTo 64 v)
  | .fp c => leBytes 4 c.toNat ++ zeroBytes 4

end Sys2Proof.Machine
end

