-- ==== Sys2Proof/Machine/Index.lean ====
section
/-! DEFINITION. Vector indexes: header and regions, the commit checks, the accession list and its snapshots, filters, and the
commands INDEX_CREATE, ACCESSION and INDEX_QUERY (R214 to R219, R227 to R235). -/
namespace Sys2Proof.Machine

/-! ### Header and regions (R217, Tables 8-3 and 8-4) -/

/-- The index header. -/
structure IndexHdr where
  fmt : Nat
  kernel : Nat
  dim : Nat
  graph : Bool
  attrs : Bool
  attrBytes : Nat
  degree : Nat
  entryCount : Nat
  beam : Nat
  nodes : Nat
  vecOff : Nat
  labelOff : Nat
  graphOff : Nat
  entries : List Nat
  deriving DecidableEq, Repr

/-- The header in the first 4 KiB of a version. -/
def decodeIndexHdr (b : Bytes) : IndexHdr :=
  { fmt := field b 6 1, kernel := field b 7 1, dim := field b 8 2, graph := bitAt (field b 10 1) 0
    attrs := bitAt (field b 10 1) 1, attrBytes := field b 11 1, degree := field b 12 1, entryCount := field b 13 1
    beam := field b 14 2, nodes := field b 16 8, vecOff := field b 24 8, labelOff := field b 32 8, graphOff := field b 40 8
    entries := (List.range (Nat.min 16 (field b 13 1))).map fun i => field b (64 + 8 * i) 8 }

/-- The header of a version. -/
def Version.indexHdr (v : Version) : IndexHdr := decodeIndexHdr (memRead v.data 0 4096)

/-- Stride of a vector record. -/
def IndexHdr.vecStride (h : IndexHdr) : Nat := ceilDiv (packedBytes h.fmt h.dim) 32 * 32

/-- Stride of a label record. -/
def IndexHdr.labelStride (h : IndexHdr) : Nat := 8 + h.attrBytes

/-- Stride of a graph record. -/
def IndexHdr.graphStride (h : IndexHdr) : Nat := ceilDiv (2 + 5 * h.degree) 8 * 8

/-- Stride of an accession entry (R228). -/
def IndexHdr.entryStride (h : IndexHdr) : Nat := ceilDiv (16 + h.attrBytes + h.vecStride) 32 * 32

/-- Offset of record `i` of a region: P records in each 16 KiB page (R217). -/
def recordAt (base stride i : Nat) : Nat := base + i / (16384 / stride) * 16384 + i % (16384 / stride) * stride

/-- Bytes of a region of `n` records: whole pages. -/
def regionBytes (stride n : Nat) : Nat := ceilDiv n (16384 / stride) * 16384

/-- VECTOR_ID of a node. -/
def Version.nodeId (v : Version) (h : IndexHdr) (i : Nat) : Nat :=
  leNat (memRead v.data (recordAt h.labelOff h.labelStride i) 8)

/-- Attributes of a node. -/
def Version.nodeAttrs (v : Version) (h : IndexHdr) (i : Nat) : Bytes :=
  memRead v.data (recordAt h.labelOff h.labelStride i + 8) h.attrBytes

/-- The vector record of a node. -/
def Version.nodeVector (v : Version) (h : IndexHdr) (i : Nat) : Bytes :=
  memRead v.data (recordAt h.vecOff h.vecStride i) h.vecStride

/-- The graph record of a node. -/
def Version.graphRecord (v : Version) (h : IndexHdr) (i : Nat) : Bytes :=
  memRead v.data (recordAt h.graphOff h.graphStride i) h.graphStride

/-- Neighbours of a node. -/
def Version.neighbours (v : Version) (h : IndexHdr) (i : Nat) : List Nat :=
  let r := v.graphRecord h i
  (List.range (Nat.min h.degree (field r 0 2))).map fun j => field r (2 + 5 * j) 5

/-- Element codes of a vector record. -/
def IndexHdr.codes (h : IndexHdr) (b : Bytes) : List Nat := unpackElems h.fmt b h.dim

/-! ### Commit checks (R219, Table 8-5) -/

/-- Formats of Table 8-3. -/
def indexFormat (f : Nat) : Bool := f = 0 || f = 1 || f = 6 || f = 7 || f = 8 || f = 9

/-- Check 1: every header field within Table 8-3. -/
def indexCheck1 (b : Bytes) : Bool :=
  let h := decodeIndexHdr b
  field b 0 4 = 0x58444E49 && field b 4 2 = 1 && indexFormat h.fmt && h.kernel < 64 && h.dim % 32 = 0 && 32 ≤ h.dim
    && h.dim ≤ 4096 && field b 10 1 < 4
    && (if h.attrs then 8 ≤ h.attrBytes && h.attrBytes ≤ 56 && h.attrBytes % 8 = 0 else h.attrBytes = 0)
    && (if h.graph then 1 ≤ h.degree && h.degree ≤ 64 && 1 ≤ h.entryCount && h.entryCount ≤ 16 && h.degree ≤ h.beam
          && h.beam ≤ 1024 && 2 ≤ h.nodes
        else h.degree = 0 && h.entryCount = 0 && h.beam = 0 && 1 ≤ h.nodes && h.graphOff = 0)
    && h.nodes ≤ 2 ^ 36 && allZero (slice b 48 16) && allZero (slice b (64 + 8 * h.entryCount) (4032 - 8 * h.entryCount))

/-- The regions of a version: start and length. -/
def IndexHdr.regions (h : IndexHdr) : List (Nat × Nat) :=
  [(h.vecOff, regionBytes h.vecStride h.nodes), (h.labelOff, regionBytes h.labelStride h.nodes)]
    ++ (if h.graph then [(h.graphOff, regionBytes h.graphStride h.nodes)] else [])

/-- Check 3: the regions. -/
def IndexHdr.check3 (h : IndexHdr) (size : Nat) : Bool :=
  (h.regions.all fun r => r.1 % 16384 = 0 && r.1 + r.2 ≤ size && 4096 ≤ r.1)
    && (List.range h.regions.length).all fun i => (List.range i).all fun j =>
        !(rangesMeet (h.regions.getD i (0, 0)).1 (h.regions.getD i (0, 0)).2 (h.regions.getD j (0, 0)).1
          (h.regions.getD j (0, 0)).2)

/-- Check 4 at a node: its VECTOR_ID is above that of the node before. -/
def Version.idOk (v : Version) (h : IndexHdr) (i : Nat) : Bool := i = 0 || v.nodeId h (i - 1) < v.nodeId h i

/-- Check 5 at a node: its graph record. -/
def Version.graphOk (v : Version) (h : IndexHdr) (i : Nat) : Bool :=
  let r := v.graphRecord h i
  let n := field r 0 2
  let ms := v.neighbours h i
  1 ≤ n && n ≤ h.degree && (ms.all fun m => m < h.nodes && m ≠ i) && ms.eraseDups.length = ms.length
    && allZero (r.drop (2 + 5 * n))

/-- The first index of a list in breach. -/
def firstBreach (n : Nat) (ok : Nat → Bool) : Option Nat := (List.range n).find? fun i => !ok i

/-- The first ENTRY at or above NODES, or repeated (check 6). -/
def badEntry (nodes : Nat) : List Nat → List Nat → Option Nat
  | _, [] => none
  | seen, e :: es => if nodes ≤ e || seen.contains e then some e else badEntry nodes (e :: seen) es

/-- The first check of Table 8-5 that fails, and its node. -/
def State.indexFault (s : State) (v : Version) : Option (Nat × Nat) :=
  let b := memRead v.data 0 4096
  let h := v.indexHdr
  if !indexCheck1 b then some (1, 0)
  else if (s.kernelFor h.kernel h.fmt).isNone then some (2, 0)
  else if !h.check3 v.size then some (3, 0)
  else match firstBreach h.nodes (v.idOk h) with
    | some i => some (4, i)
    | none =>
      match (if h.graph then firstBreach h.nodes (v.graphOk h) else none) with
      | some i => some (5, i)
      | none => (badEntry h.nodes [] h.entries).map fun e => (6, e)

/-! ### Snapshots (R230, R231) -/

/-- A snapshot's effect: base nodes with a deaccession mark, the live inserts, and the deletes without effect. -/
structure Snap where
  killed : List Nat := []
  inserts : List AccEntry := []
  noops : Nat := 0
  deriving DecidableEq, Repr

/-- One entry takes effect. -/
def Version.applyEntry (v : Version) (h : IndexHdr) (z : Snap) (a : AccEntry) : Snap :=
  let node := (List.range h.nodes).find? fun i => v.nodeId h i = a.id
  let base := match node with | some i => !z.killed.contains i | none => false
  let mine := z.inserts.any fun b => b.id = a.id
  let killed := if base then z.killed ++ node.toList else z.killed
  let rest := z.inserts.filter fun b => b.id ≠ a.id
  if a.insert then { killed := killed, inserts := rest ++ [a], noops := z.noops }
  else { killed := killed, inserts := rest, noops := if base || mine then z.noops else z.noops + 1 }

/-- The snapshot of a version at a sequence number. -/
def Version.snap (v : Version) (at_ : Nat) : Snap :=
  (v.index.entries.filter fun a => a.seq ≤ at_).foldl (v.applyEntry v.indexHdr) {}

/-! ### Filters (R234, Table 8-11) -/

/-- A filter term. -/
structure Term where
  off : Nat
  width : Nat
  op : Nat
  signed : Bool
  const : Nat
  deriving DecidableEq, Repr

/-- The term of 16 bytes. -/
def decodeTerm (b : Bytes) : Term :=
  { off := field b 0 1, width := 2 ^ (field b 1 1 % 4), op := field b 2 1, signed := bitAt (field b 3 1) 0
    const := field b 8 8 }

/-- A term's own fields are allowed; the rest depends on the index. -/
def termOk (b : Bytes) : Bool :=
  let t := decodeTerm b
  field b 1 1 < 4 && t.op ≤ 7 && field b 3 1 < 2 && field b 4 4 = 0 && t.off % t.width = 0 && t.const < 2 ^ (8 * t.width)

/-- A vector's attributes meet a term. -/
def Term.holds (t : Term) (attrs : Bytes) : Bool :=
  let u := field attrs t.off t.width
  let num := fun x : Nat => if t.signed then toInt (8 * t.width) x else (x : Int)
  let a := num u
  let c := num t.const
  match t.op with
  | 0 => a = c
  | 1 => a ≠ c
  | 2 => a < c
  | 3 => a ≤ c
  | 4 => c < a
  | 5 => c ≤ a
  | 6 => u &&& t.const ≠ 0
  | _ => u &&& t.const = t.const

/-- Every term holds. -/
def passesAll (ts : List Term) (attrs : Bytes) : Bool := ts.all fun t => t.holds attrs

/-! ### INDEX_CREATE (R216) -/

/-- INDEX_CREATE, 0x40. -/
def State.specIndexCreate (s : State) (e : Bytes) : OpSpec :=
  let ct := field e 46 1
  let size := field e 48 8
  { result := true, reserved := [(47, 1), (56, 8)], bits4 := [(16 ≤ ct, 46)]
    field5 := [(field e 40 4 = 0, 40), (field e 44 2 = 0, 44), (s.classTierBad (ct % 4) (ct / 4 % 4), 46)
               , (size % 16384 ≠ 0, 48)]
    length6 := [(size = 0, 48), (field e 28 4 < 16, 28)]
    objects := [(s.idHeld (field e 40 4), .invalidField, 40)] }

/-- Create an object for a command whose version starts in BUILDING, and answer its base in 16 bytes; shared by the kinds that
own their creating command. -/
def State.createFor (c : Slot) (kind cls tier size ver : Nat) (building : Bool) (s : State) : State :=
  let id := c.arg 40 4
  let durable := s.classOf kind cls tier
  if s.idHeld id then s.fail c.id .invalidField 40
  else match s.createError kind size tier durable with
    | some st => s.fail c.id st 0
    | none =>
      let t := s.createObj id kind tier size ver durable building
      let base := match t.obj? id with | some o => o.base | none => 0
      (t.writeResult c 0 (leBytes 8 base ++ zeroBytes 8)).done c.id 0

/-- INDEX_CREATE: an index object with a BUILDING first version (R216). -/
def execIndexCreate (slot : Nat) (s : State) : Host.Outcome State Fault Refusal :=
  .next (s.runCmd slot 0x40 true fun c =>
    if 4096 ≤ (s.tiers.objects.filter fun o => o.kind = 3).length then s.fail slot .capacityExhausted 0
    else s.createFor c 3 (c.arg 46 1 % 4) (c.arg 46 1 / 4 % 4) (c.arg 48 8) (c.arg 44 2) true)

/-! ### ACCESSION (R228, R229, R232) -/

/-- Checks of step 8, in order. -/
def step8 (l : List (Bool × Status × Nat)) : List (Bool × Status × Nat) := l

/-- The check "named versions current or pinned" of step 8. -/
def State.noVersion (s : State) (id ver : Nat) : Bool × Status × Nat := ((s.readable? id ver).isNone, .versionRetired, 0)

/-- The object is of another kind than its command names, whose field RESULT gives. -/
def State.otherKind (s : State) (id kind off : Nat) : Bool × Status × Nat :=
  (match s.obj? id with | some o => o.kind ≠ kind | none => false, .invalidField, off)

/-- The checks "it exists, has such a version and is of the kind" that commands naming an object by kind share (R60). -/
def State.kindChecks (s : State) (id kind ver : Nat) : List (Bool × Status × Nat) :=
  [noObject s id, s.noVersion id ver, s.otherKind id kind 40]

/-- ACCESSION, 0x41. -/
def State.specAccession (s : State) (e : Bytes) : OpSpec :=
  let id := field e 40 4
  let n := field e 46 2
  let v := s.readable? id 0
  { data := true, reserved := [(44, 2), (48, 16)]
    length6 := [(n = 0 || 256 < n, 46)]
    objects := s.kindChecks id 3 0 ++
      [(match v with | some v => field e 24 4 ≠ n * v.indexHdr.entryStride | none => false, .invalidLength, 24)]
    pins := match v with | some v => [(id, v.num)] | none => [] }

/-- An entry's fields are allowed (Table 8-9). -/
def entryOk (h : IndexHdr) (b : Bytes) : Bool :=
  (field b 0 1 = 1 || (field b 0 1 = 2 && allZero (slice b 16 (h.attrBytes + h.vecStride)))) && field b 1 3 = 0
    && field b 4 4 = 0

/-- An entry with its SEQ. -/
def decodeEntry (h : IndexHdr) (b : Bytes) (seq : Nat) : AccEntry :=
  { seq := seq, insert := field b 0 1 = 1, id := field b 8 8, attrs := slice b 16 h.attrBytes
    vector := slice b (16 + h.attrBytes) h.vecStride }

/-- An entry as it is stored in the list. -/
def AccEntry.store (a : AccEntry) : Bytes :=
  fitBytes a.bytes (leBytes 1 (if a.insert then 1 else 2) ++ zeroBytes 3 ++ leBytes 4 a.seq ++ leBytes 8 a.id ++ a.attrs
    ++ a.vector)

/-- An ACCESSION of the index admitted earlier has not completed (R229). -/
def State.accessionAhead (s : State) (c : Slot) : Bool :=
  s.atr.slots.any fun d => d.opcode = 0x41 && d.arg 40 4 = c.arg 40 4 && d.order < c.order && d.phase ≠ .done

/-- Append entries to the current version's list: they are dirty data, acknowledged as other writes (R188, R229, R232). -/
def State.appendEntries (c : Slot) (o : Obj) (v : Version) (es : List AccEntry) (s : State) : State :=
  let bytes := (es.map AccEntry.bytes).foldl (· + ·) 0
  let ps := pageList o.id v.num (v.listBase + v.listBytes) bytes
  if o.durable && !s.admitsDirty (4096 * ps.length) then s.setWork c.id (.held (4096 * ps.length))
  else
    let last := v.index.entries.length + es.length
    let t := if o.durable then s.takeCredit (4096 * ps.length) else s
    let t := t.writeVersion o.id v.num (v.listBase + v.listBytes) (es.flatMap AccEntry.store)
    let t := t.updObj o.id fun o =>
      { o.updVer v.num fun v => { v with index := { v.index with entries := v.index.entries ++ es } } with
        accessing := some c.id }
    let o := match t.obj? o.id with | some x => x | none => o
    let t := t.fitSlc.ackWrite c.id o (o.durable && t.tiers.budget < 4 * o.rewriteSize) ps last
    match t.slot? c.id with
    | some d => if d.phase = .done then t.accessionDone c last else t
    | none => t

/-- ACCESSION carried out on the current version. -/
def State.doAccession (c : Slot) (s : State) : State :=
  match s.obj? (c.arg 40 4) with
  | none => s.fail c.id .objectNotFound 0
  | some o => match o.current? with
    | none => s.fail c.id .versionRetired 0
    | some v =>
      let h := v.indexHdr
      let n := c.arg 46 2
      let parts := chunksOf h.entryStride n (s.dataBytes c)
      if v.impaired then s.fail c.id .objectImpaired 0
      else if c.dataLen ≠ n * h.entryStride then s.fail c.id .invalidLength 24
      else if !parts.all (entryOk h) then s.fail c.id .invalidField 16
      else if 16777216 < v.index.entries.length + n
          || s.freeUnits < ceilDiv (v.listBytes + n * h.entryStride) 65536 - ceilDiv v.listBytes 65536 then
        s.fail c.id .capacityExhausted 0
      else if o.durable && s.protected then s.fail c.id .writeProtected 0
      else s.appendEntries c o v (parts.mapIdx fun i b => decodeEntry h b (v.index.entries.length + i + 1))

/-- ACCESSION: once every earlier one of the index has completed, its entries are appended (R229). -/
def execAccession (slot : Nat) (s : State) : Host.Outcome State Fault Refusal :=
  .next (s.runCmd slot 0x41 false fun c => if s.accessionAhead c then s else s.doAccession c)

/-! ### INDEX_QUERY (R233, Table 8-10) -/

/-- INDEX_QUERY, 0x46. -/
def State.specIndexQuery (s : State) (e : Bytes) : OpSpec :=
  let id := field e 40 4
  { result := true, reserved := [(44, 20)], length6 := [(field e 28 4 < 64, 28)]
    objects := [noObject s id, (match s.obj? id with | some o => o.kind ≠ 3 | none => false, .invalidField, 40)] }

/-- The INDEX_QUERY record. Of an index without a CURRENT version the fields of the version are zero. -/
def indexRecord (o : Obj) : Bytes :=
  let tail := leBytes 1 o.lastCheck ++ zeroBytes 3 ++ leBytes 8 o.lastNode ++ leBytes 1 (bit01 o.merging) ++ zeroBytes 7
  match o.current? with
  | none => zeroBytes 44 ++ tail
  | some v =>
    let z := v.snap v.index.committed
    leBytes 2 v.num ++ zeroBytes 6 ++ leBytes 8 v.indexHdr.nodes ++ leBytes 4 v.index.committed
      ++ leBytes 4 z.inserts.length ++ leBytes 8 z.killed.length ++ leBytes 4 z.noops ++ leBytes 8 v.listBytes ++ tail

/-- INDEX_QUERY. -/
def execIndexQuery (slot : Nat) (s : State) : Host.Outcome State Fault Refusal :=
  .next (s.runCmd slot 0x46 true fun c =>
    match s.obj? (c.arg 40 4) with
    | none => s.fail slot .objectNotFound 0
    | some o => (s.writeResult c 0 (indexRecord o)).done slot 0)

end Sys2Proof.Machine
end

