-- ==== Sys2Proof/Machine/Gather.lean ====
section
/-! DEFINITION. Embedding tables and the gather engine (R273 to R293). -/
namespace Sys2Proof.Machine

/-! ### Header, rows and commit checks (Table 10-2, R277, R278, R280) -/

/-- A component descriptor (R278). -/
structure TableComp where
  rows : Nat
  seed : Nat
  off : Nat
  elems : Nat
  deriving DecidableEq, Repr

/-- The table header. -/
structure TableHdr where
  layout : Nat
  combine : Nat
  fmt : Nat
  group : Nat
  enc : Nat
  comps : Nat
  elems : Nat
  logical : Nat
  physical : Nat
  rowOff : Nat
  seed : Nat
  comp : List TableComp
  deriving DecidableEq, Repr

/-- The header at the start of a table version. -/
def decodeTable (b : Bytes) : TableHdr :=
  { layout := field b 6 1, combine := field b 7 1, fmt := field b 8 1 % 16, group := bitsAt (field b 8 1) 4 2
    enc := bitsAt (field b 8 1) 6 1, comps := field b 9 1, elems := field b 10 2, logical := field b 16 8
    physical := field b 24 8, rowOff := field b 32 8, seed := field b 40 8
    comp := (List.range (Nat.min 4 (field b 9 1))).map fun j =>
      let d := slice b (64 + 32 * j) 32
      { rows := field d 0 8, seed := field d 8 8, off := field d 16 8, elems := field d 24 2 } }

/-- The header of a version. -/
def Version.tableHdr (v : Version) : TableHdr := decodeTable (memRead v.data 0 4096)

/-- G. -/
def TableHdr.g (h : TableHdr) : Nat := groupSize h.group

/-- Stride of a stored row of E elements (R277). -/
def TableHdr.stride (h : TableHdr) (elems : Nat) : Nat :=
  ceilDiv (packedBytes h.fmt elems + if h.fmt = 9 then 0 else elems / h.g) 32 * 32

/-- `row_hash`. -/
def rowHash (index seed : Nat) : Nat :=
  let x := index ^^^ seed
  let x := x ^^^ (x / 2 ^ 33)
  let x := x * 0xFF51AFD7ED558CCD % 2 ^ 64
  let x := x ^^^ (x / 2 ^ 33)
  let x := x * 0xC4CEB9FE1A85EC53 % 2 ^ 64
  x ^^^ (x / 2 ^ 33)

/-- The stored rows of a logical index: component and row (R278). -/
def TableHdr.rowsOf (h : TableHdr) (i : Nat) : List (Nat × Nat) :=
  match h.layout with
  | 0 => [(0, i)]
  | 1 => [(0, rowHash i h.seed % h.physical)]
  | _ => h.comp.mapIdx fun j c => (j, rowHash i c.seed % c.rows)

/-- Region start and elements of a component. -/
def TableHdr.region (h : TableHdr) (j : Nat) : Nat × Nat :=
  if h.layout = 2 then (match h.comp[j]? with | some c => (c.off, c.elems) | none => (0, 0)) else (h.rowOff, h.elems)

/-- Offset of a stored row in the version. -/
def TableHdr.rowAt (h : TableHdr) (j r : Nat) : Nat :=
  recordAt (h.region j).1 (h.stride (h.region j).2) r

/-- Check 1: the header fields; the limit on stored rows of a PLAIN table is that of Table 10-7. -/
def tableCheck1 (b : Bytes) : Bool :=
  let h := decodeTable b
  field b 0 4 = 0x4C424154 && field b 4 2 = 1 && h.layout ≤ 2 && (if h.layout = 2 then h.combine ≤ 2 else h.combine = 0)
    && indexFormat h.fmt && field b 8 1 < 128 && h.group ≠ 3 && (h.fmt ≠ 9 || (h.group = 0 && h.enc = 0))
    && (if h.layout = 2 then 2 ≤ h.comps && h.comps ≤ 4 else h.comps = 0)
    && 32 ≤ h.elems && h.elems ≤ 4096 && h.elems % 32 = 0 && (h.fmt = 9 || h.elems % h.g = 0) && field b 12 4 = 0
    && 1 ≤ h.logical && h.logical ≤ 2 ^ 40
    && (match h.layout with
        | 0 => h.physical = h.logical && h.physical ≤ 2 ^ 36
        | 1 => 1 ≤ h.physical && h.physical ≤ Nat.min h.logical (2 ^ 36)
        | _ => h.physical = 0)
    && (h.layout ≠ 2 || h.rowOff = 0) && (h.layout = 1 || h.seed = 0) && allZero (slice b 48 16)
    && allZero (if h.layout = 2 then slice b (64 + 32 * h.comps) (32 * (4 - h.comps)) else slice b 64 128)
    && allZero (slice b 192 3904)

/-- Check 2: the component descriptors. -/
def tableCheck2 (b : Bytes) : Bool :=
  let h := decodeTable b
  h.layout ≠ 2 ||
    (((List.range h.comps).all fun j =>
        let c := h.comp.getD j { rows := 0, seed := 0, off := 0, elems := 0 }
        1 ≤ c.rows && c.rows ≤ 2 ^ 36 && allZero (slice b (64 + 32 * j + 26) 6)
          && (if h.combine = 2 then c.elems ≠ 0 && c.elems % 32 = 0 && (h.fmt = 9 || c.elems % h.g = 0)
              else c.elems = h.elems))
      && (h.combine ≠ 2 || (h.comp.map (·.elems)).foldl (· + ·) 0 = h.elems))

/-- Regions: start and length. -/
def TableHdr.regions (h : TableHdr) : List (Nat × Nat) :=
  if h.layout = 2 then h.comp.map fun c => (c.off, regionBytes (h.stride c.elems) c.rows)
  else [(h.rowOff, regionBytes (h.stride h.elems) h.physical)]

/-- Check 3: the regions. -/
def TableHdr.check3 (h : TableHdr) (size : Nat) : Bool :=
  (h.regions.all fun r => r.1 % 16384 = 0 && r.1 + r.2 ≤ size && 4096 ≤ r.1)
    && (List.range h.regions.length).all fun i => (List.range i).all fun j =>
        !(rangesMeet (h.regions.getD i (0, 0)).1 (h.regions.getD i (0, 0)).2 (h.regions.getD j (0, 0)).1
          (h.regions.getD j (0, 0)).2)

/-- The first check of Table 10-4 that fails. -/
def tableFault (v : Version) : Option Nat :=
  let b := memRead v.data 0 4096
  if !tableCheck1 b then some 1
  else if !tableCheck2 b then some 2
  else if !v.tableHdr.check3 v.size then some 3 else none

/-! ### Delivered rows (R279, Table 10-3) -/

/-- A stored row's elements decoded, scaled and rounded to FP32, and whether a NaN was met. -/
def TableHdr.decodeRow (h : TableHdr) (elems : Nat) (b : Bytes) : List Nat × Bool :=
  let cs := unpackElems h.fmt b elems
  let at_ := packedBytes h.fmt elems
  let groups := if h.fmt = 9 then [cs] else chunksOf h.g (elems + 1) cs
  let ds := groups.mapIdx fun j g => dequantGroup h.fmt h.enc g (field b (at_ + j) 1)
  (ds.flatMap fun d => d.1.map fun v => (roundF32 v).1, ds.any (·.2))

/-- Combine component rows element by element, or side by side (R279). -/
def combineRows (combine : Nat) : List (List Nat) → List Nat
  | [] => []
  | r :: rs =>
    if combine = 2 then (r :: rs).flatten
    else
      let op := fun a b : Nat => (roundF32 (if combine = 0 then (f32 a).add (f32 b) else (f32 a).mul (f32 b))).1
      rs.foldl (fun acc c => acc.zipWith op c) r

/-- Bytes of a delivered row. -/
def TableHdr.rowBytes (h : TableHdr) (form : Nat) : Nat :=
  match form with
  | 0 => h.stride h.elems
  | 1 => 2 * h.elems
  | _ => 4 * h.elems

/-- The delivered row of the stored rows of a logical index, and whether a NaN was met (Table 10-3). -/
def TableHdr.deliver (h : TableHdr) (v : Version) (form i : Nat) : Bytes × Bool :=
  let parts := (h.rowsOf i).map fun p => (p.1, memRead v.data (h.rowAt p.1 p.2) (h.stride (h.region p.1).2))
  if form = 0 then (parts.flatMap (·.2), false)
  else
    let ds := parts.map fun p => h.decodeRow (h.region p.1).2 p.2
    let row := if h.layout = 2 then combineRows h.combine (ds.map (·.1)) else ds.flatMap (·.1)
    (row.flatMap fun c => if form = 1 then leBytes 2 (roundBf16 (f32 c)).1 else leBytes 4 c, ds.any (·.2))

/-! ### The hot region and the tracker (R288, R289) -/

/-- Bytes of the hot region a copy takes: its row in each of the packages that hold it (R289; assumption log 52: DEDUCED, unsafe). -/
def HotCopy.taken (c : HotCopy) : Nat := c.bytes * c.pkgs.length

/-- Bytes of the hot region taken. -/
def GatherEngine.used (g : GatherEngine) : Nat := (g.copies.map HotCopy.taken).foldl (· + ·) 0

/-- The packages a copy of stored row `r` goes to: its own and its partner, or the one of them that is in service (R289). -/
def State.hotPackages (s : State) (r : Nat) : List Nat :=
  let n := s.grade.packages
  ([r % n, partner n (r % n)].eraseDups).filter fun p => s.packages.contains p

/-- The copy is protected from eviction (R288). -/
def HotCopy.guarded (c : HotCopy) (now : Nat) : Bool := match c.guardUntil with | some t => now < t | none => false

/-- A copy is of a stored row. -/
def HotCopy.isRow (c : HotCopy) (id n j r : Nat) : Bool := c.table = id && c.ver = n && c.comp = j && c.row = r

/-- Drop the least recently read unprotected copies until `need` more bytes fit, looking at no more than `fuel`; with `force`
protected ones too, last. False where they do not fit (R289, R293). -/
def GatherEngine.evict (now need : Nat) (force : Bool) : Nat → GatherEngine → Bool × GatherEngine
  | 0, g => (decide (g.used + need ≤ g.hotUnits * 67108864), g)
  | fuel + 1, g =>
    if g.used + need ≤ g.hotUnits * 67108864 then (true, g)
    else match g.copies.find? fun c => !c.guarded now with
      | some c => GatherEngine.evict now need force fuel { g with copies := removeFirst (· = c) g.copies }
      | none =>
        if force && !g.copies.isEmpty then GatherEngine.evict now need force fuel { g with copies := g.copies.drop 1 }
        else (false, g)

/-- Put a copy of a stored row into the hot region in the given packages, protected until a BT or not; false where there is no space
(R288, R289). -/
def GatherEngine.put (now id n j r stride : Nat) (pkgs : List Nat) (guard_ : Option Nat) (g : GatherEngine) :
    Bool × GatherEngine :=
  if g.hotUnits = 0 || pkgs.isEmpty then (false, g)
  else match g.copies.find? (·.isRow id n j r) with
    | some c =>
      let u := match guard_, c.guardUntil with
        | some a, some b => some (Nat.max a b)
        | some a, none => some a
        | none, b => b
      (true, { g with copies := removeFirst (· = c) g.copies ++ [{ c with guardUntil := u }] })
    | none =>
      match GatherEngine.evict now (stride * pkgs.length) false (g.copies.length + 1) g with
      | (false, g) => (false, g)
      | (true, g) =>
        (true, { g with copies := g.copies ++ [{ table := id, ver := n, comp := j, row := r, bytes := stride
                                                 pkgs := pkgs, guardUntil := guard_ }] })

/-- The tracker entry with the lowest count, and among those the oldest. -/
def coldest : List Track → Option Track
  | [] => none
  | t :: ts => match coldest ts with
    | none => some t
    | some u => if u.count < t.count || (u.count = t.count && u.born < t.born) then some u else some t

/-- A stored row counts a hit; a row that becomes hot is copied (R289). -/
def GatherEngine.hit (now id n j r stride : Nat) (pkgs : List Nat) (g : GatherEngine) : GatherEngine :=
  let is := fun t : Track => t.table = id && t.ver = n && t.comp = j && t.row = r
  let g := if g.tracker.any is then { g with tracker := updWhere is (fun t => { t with count := t.count + 1 }) g.tracker }
    else
      let l := if 65536 ≤ g.tracker.length then (match coldest g.tracker with
        | some t => removeFirst (· = t) g.tracker
        | none => g.tracker) else g.tracker
      { g with tracker := l ++ [{ table := id, ver := n, comp := j, row := r, count := 1, born := g.nextBorn }]
               nextBorn := g.nextBorn + 1 }
  let count := match g.tracker.find? is with | some t => t.count | none => 0
  if g.threshold ≤ count && !(g.copies.any (·.isRow id n j r)) then (g.put now id n j r stride pkgs none).2 else g

/-- HOT_DECAY: every 1,000,000 BT all counts halve (R289). -/
def execHotDecay (s : State) : Host.Outcome State Fault Refusal :=
  .next (
    if s.elapsed s.gather.decayed 1000000 then
      { s with gather := { s.gather with
          decayed := s.gather.decayed + 1000000
          tracker := s.gather.tracker.map fun t => { t with count := t.count / 2 } } }
    else s)

/-- PREFETCH_PROTECT_EXPIRY: prefetched copies whose 1,000,000 BT have passed are ordinary hot copies (R288). -/
def execPrefetchProtectExpiry (s : State) : Host.Outcome State Fault Refusal :=
  .next { s with gather := { s.gather with
    copies := s.gather.copies.map fun c => if c.guarded s.bt then c else { c with guardUntil := none } } }

/-! ### TABLE_CREATE (R274) -/

/-- TABLE_CREATE, 0x50. -/
def State.specTableCreate (s : State) (e : Bytes) : OpSpec := s.specIndexCreate e

/-- TABLE_CREATE: a table object with a BUILDING first version. -/
def execTableCreate (slot : Nat) (s : State) : Host.Outcome State Fault Refusal :=
  .next (s.runCmd slot 0x50 true fun c =>
    if 4096 ≤ (s.tiers.objects.filter fun o => o.kind = 4).length then s.fail slot .capacityExhausted 0
    else s.createFor c 4 (c.arg 46 1 % 4) (c.arg 46 1 / 4 % 4) (c.arg 48 8) (c.arg 44 2) true)

/-! ### GATHER and GATHER_PREFETCH (R282 to R288) -/

/-- GATHER, 0x51, and GATHER_PREFETCH, 0x52, where `pre`. -/
def State.specGather (s : State) (pre : Bool) (e : Bytes) : OpSpec :=
  let id := field e 40 4
  let n := field e 48 4
  let form := field e 46 1
  let v := s.readable? id (field e 44 2)
  let h : TableHdr := match v with | some v => v.tableHdr | none => decodeTable []
  { data := true, result := !pre
    reserved := if pre then [(46, 2), (52, 12)] else [(47, 1), (52, 12)]
    field5 := [(!pre && 2 < form, 46)]
    length6 := [(n = 0 || 1048576 < n, 48), (field e 24 4 ≠ 8 * n, 24)]
    objects := s.kindChecks id 4 (field e 44 2)
      ++ [(match s.obj? id with | some o => o.current?.isNone | none => false, .versionRetired, 0)] ++ step8 [(!pre && form = 0 && h.layout = 2, .invalidField, 46)
                , (!pre && decide (field e 28 4 < n * h.rowBytes form + 32), .invalidLength, 28)]
    pins := match v with | some v => [(id, v.num)] | none => [] }

/-- The position of the first word that is no index of the table (R283). -/
def badIndex (logical : Nat) (ws : List Nat) : Option Nat := ws.findIdx? fun w => 2 ^ 40 ≤ w || logical ≤ w

/-- Positions of the next batch step: the longest run with at most 16,384 distinct indices (R284). -/
def stepLength : List Nat → List Nat → Nat
  | _, [] => 0
  | seen, i :: is =>
    if seen.contains i then stepLength seen is + 1
    else if 16384 ≤ seen.length then 0
    else stepLength (i :: seen) is + 1

/-- The stored rows of a gather's next step, in order of first occurrence (R284). -/
def TableHdr.stepRows (h : TableHdr) (w : GatherWork) : List (Nat × Nat) :=
  let rest := w.indices.drop w.pos
  (((rest.take (stepLength [] rest)).eraseDups).flatMap h.rowsOf).eraseDups

/-- The owners of a step's rows read those that no copy in DRAM serves (R281, R284, R287). -/
def State.startStep (slot id n : Nat) (h : TableHdr) (w : GatherWork) (s : State) : State :=
  let cold := (h.stepRows w).filter fun p => !(s.gather.copies.any (·.isRow id n p.1 p.2))
  (s.setWork slot (.gather w)).startReads slot
    (s.flashReads id n (cold.map fun p => (h.rowAt p.1 p.2, h.stride (h.region p.1).2)))

/-- A gather or prefetch begins, when fewer than 8 of its kind execute and none admitted before it still waits: its index list is
read and checked (R283, R287). -/
def State.beginGather (c : Slot) (s : State) : State :=
  let busy := (s.atr.slots.filter fun d => d.opcode = c.opcode && d.phase = .running).length
  let ahead := s.atr.slots.any fun d => d.opcode = c.opcode && d.phase = .handed && d.order < c.order
  if 8 ≤ busy || ahead then s
  else match c.pins with
    | [] => s.fail c.id .objectNotFound 0
    | p :: _ => match s.version? p.1 p.2 with
      | none => s.fail c.id .objectNotFound 0
      | some v =>
        if v.impaired then s.fail c.id .objectImpaired 0
        else
          let ws := (chunksOf 8 (c.arg 48 4) (s.dataBytes c)).map leNat
          match badIndex v.tableHdr.logical ws with
          | some i => s.fail c.id .outOfRange i
          | none => s.startStep c.id p.1 p.2 v.tableHdr { indices := ws }

/-- GATHER (R282, R287). -/
def execGather (slot : Nat) (s : State) : Host.Outcome State Fault Refusal :=
  .next (s.runCmd slot 0x51 true fun c => s.beginGather c)

/-- GATHER_PREFETCH (R282, R287). -/
def execGatherPrefetch (slot : Nat) (s : State) : Host.Outcome State Fault Refusal :=
  .next (s.runCmd slot 0x52 false fun c => s.beginGather c)

/-- A read of one stored row of a step: its source is counted, its copy read, and its hit or its staging done (R284, R288,
R289). -/
def State.readRow (pre : Bool) (id n : Nat) (h : TableHdr) (x : GatherWork × State) (p : Nat × Nat) : GatherWork × State :=
  let w := x.1
  let s := x.2
  let stride := h.stride (h.region p.1).2
  let off := h.rowAt p.1 p.2
  let copy := s.gather.copies.find? (·.isRow id n p.1 p.2)
  let dram := match s.tiers.objects.find? (·.id = id) with | some o => o.inDram n (off / 65536) | none => false
  let w : GatherWork := match copy with
    | some k => if k.guarded s.bt then { w with prefetched := w.prefetched + 1 } else { w with hot := w.hot + 1 }
    | none => if dram then w else { w with flash := w.flash + 1 }
  let s : State := match copy with
    | some k => { s with gather := { s.gather with
        copies := removeFirst (· = k) s.gather.copies ++ [if pre then k else { k with guardUntil := none }] } }
    | none => s.touch id n off stride
  let w : GatherWork := { w with fetched := w.fetched + 1 }
  if pre then
    let r := s.gather.put s.bt id n p.1 p.2 stride (s.hotPackages p.2) (some (s.bt + 1000000))
    ({ w with staged := w.staged + bit01 r.1 }, { s with gather := r.2 })
  else if w.counted.contains p then (w, s)
  else ({ w with counted := p :: w.counted }, { s with gather := s.gather.hit s.bt id n p.1 p.2 stride (s.hotPackages p.2) })

/-- The gather record (R285). -/
def GatherWork.record (w : GatherWork) : Bytes :=
  leBytes 4 w.steps ++ leBytes 4 (bit01 w.nan) ++ leBytes 8 w.fetched ++ leBytes 4 w.hot ++ leBytes 4 w.prefetched
    ++ leBytes 4 w.flash ++ zeroBytes 4

/-- A step of a gather on its version: every distinct row is read once; a row that cannot be recovered ends the command with
nothing of the step written; otherwise the positions are written, and after the last the record (R284 to R286, R288). -/
def State.gatherStep (c : Slot) (id n : Nat) (v : Version) (w : GatherWork) (s : State) : State :=
  let pre := c.opcode = 0x52
  let h := v.tableHdr
  let form := if pre then 0 else c.arg 46 1
  let rest := w.indices.drop w.pos
  let len := stepLength [] rest
  let now := rest.take len
  let distinct := now.eraseDups
  let rows := h.stepRows w
  let lost := rows.any fun p => (v.firstLost (h.rowAt p.1 p.2) (h.stride (h.region p.1).2)).isSome
  if lost then (s.impair id n).fail c.id .objectImpaired (if pre then 0 else w.pos)
  else
    let x := rows.foldl (State.readRow pre id n h) ({ w with pos := w.pos + len, steps := w.steps + 1 }, s)
    if pre then
      if w.indices.length ≤ x.1.pos then x.2.done c.id x.1.staged else x.2.startStep c.id id n h x.1
    else
      let size := h.rowBytes form
      let made := distinct.map fun i => (i, h.deliver v form i)
      let rowOf := fun i : Nat => match made.find? (·.1 = i) with | some d => d.2.1 | none => []
      let w2 : GatherWork := { x.1 with nan := w.nan || made.any fun d => d.2.2 }
      let t := x.2.writeResult c (w.pos * size) (now.flatMap rowOf)
      if w.indices.length ≤ w2.pos then (t.writeResult c (w2.pos * size) w2.record).done c.id w2.pos
      else t.startStep c.id id n h w2

/-- GATHER_STEP_END: the batch step under way ends, once its flash reads have ended. -/
def execGatherStepEnd (slot : Nat) (s : State) : Host.Outcome State Fault Refusal :=
  .next (match s.slot? slot with
    | none => s
    | some c => match c.phase, c.work, c.pins with
      | .running, .gather w, p :: _ =>
        if s.still || !c.fetching.isEmpty || s.haltedBy (.slot slot) || (c.opcode = 0x51 && !s.reachable (s.ringOf c.sq)) then s
        else match s.version? p.1 p.2 with
          | none => s.fail slot .objectNotFound 0
          | some v => if v.impaired then s.fail slot .objectImpaired (if c.opcode = 0x52 then 0 else w.pos)
            else s.gatherStep c p.1 p.2 v w
      | _, _, _ => s)

/-! ### TABLE_QUERY (R291) -/

/-- TABLE_QUERY, 0x53. -/
def State.specTableQuery (s : State) (e : Bytes) : OpSpec :=
  { result := true, reserved := [(44, 20)], length6 := [(field e 28 4 < 64, 28)]
    objects := [noObject s (field e 40 4)
      , (match s.obj? (field e 40 4) with | some o => o.kind ≠ 4 | none => false, .invalidField, 40)] }

/-- The record of Table 10-6. -/
def State.tableRecord (o : Obj) (s : State) : Bytes :=
  let num := fun v : Option Version => match v with | some v => v.num | none => 0
  let mine := s.gather.copies.filter fun c => c.table = o.id
  let logical := match o.current? with | some v => v.tableHdr.logical | none => 0
  let pins := match o.current? with | some v => v.pins | none => 0
  leBytes 2 (num o.current?) ++ leBytes 2 (num o.building?) ++ leBytes 1 o.lastCheck ++ zeroBytes 3 ++ leBytes 8 logical
    ++ leBytes 4 (mine.filter fun c => !c.guarded s.bt).length ++ leBytes 4 (mine.filter fun c => c.guarded s.bt).length
    ++ leBytes 8 ((mine.map HotCopy.taken).foldl (· + ·) 0) ++ leBytes 4 pins ++ zeroBytes 28

/-- TABLE_QUERY. -/
def execTableQuery (slot : Nat) (s : State) : Host.Outcome State Fault Refusal :=
  .next (s.runCmd slot 0x53 true fun c =>
    match s.obj? (c.arg 40 4) with
    | none => s.fail slot .objectNotFound 0
    | some o => (s.writeResult c 0 (s.tableRecord o)).done slot 0)

end Sys2Proof.Machine
end

