-- ==== Sys2Proof/Machine/FolioMath.lean ====
section
/-! DEFINITION. Folios: header, layout, sealing, and the arithmetic of attention in place (R254 to R258, R263 to R268). -/
namespace Sys2Proof.Machine

/-! ### Header and layout (R255, R256) -/

/-- The fields of a folio header (Table 9-3). -/
structure FolioHdr where
  layers : Nat
  heads : Nat
  kf : Nat
  vf : Nat
  group : Nat
  enc : Nat
  nan : Bool
  dim : Nat
  blocks : Nat
  tokens : Nat
  deriving DecidableEq, Repr

/-- The header at the start of a folio's content. -/
def decodeFolio (b : Bytes) : FolioHdr :=
  { layers := field b 6 2, heads := field b 8 1, kf := field b 9 1 % 16, vf := field b 9 1 / 16, group := field b 10 1 % 4
    enc := bitsAt (field b 10 1) 2 1, nan := bitAt (field b 10 1) 3, dim := field b 12 2, blocks := field b 16 4
    tokens := field b 20 4 }

/-- The header of a folio version. -/
def Version.folioHdr (v : Version) : FolioHdr := decodeFolio (memRead v.data 0 64)

/-- G, the group size in elements. -/
def FolioHdr.g (f : FolioHdr) : Nat := groupSize f.group

/-- Bytes of one token's K row in a sealed block. -/
def FolioHdr.kRow (f : FolioHdr) : Nat := f.dim * elemBits f.kf / 8

/-- Bytes of one token's V row in a sealed block. -/
def FolioHdr.vRow (f : FolioHdr) : Nat := f.dim * elemBits f.vf / 8

/-- Start of the V data in a sealed block: KD. -/
def FolioHdr.vAt (f : FolioHdr) : Nat := 128 * f.kRow

/-- Start of the K scales: KD + VD. -/
def FolioHdr.ksAt (f : FolioHdr) : Nat := f.vAt + 128 * f.vRow

/-- Start of the V scales: KD + VD + KS. -/
def FolioHdr.vsAt (f : FolioHdr) : Nat := f.ksAt + (if f.kf = 9 then 0 else 128 * f.dim / f.g)

/-- BLOCK_BYTES. -/
def FolioHdr.blockBytes (f : FolioHdr) : Nat := ceilDiv (f.vsAt + if f.vf = 9 then 0 else f.dim * 128 / f.g) 64 * 64

/-- Offset of block (L, h, b). -/
def FolioHdr.blockAt (f : FolioHdr) (l h b : Nat) : Nat := 65536 + ((l * f.heads + h) * f.blocks + b) * f.blockBytes

/-- OPEN_OFFSET. -/
def FolioHdr.openOff (f : FolioHdr) : Nat := ceilDiv (65536 + f.layers * f.heads * f.blocks * f.blockBytes) 65536 * 65536

/-- Offset of slot `t` of the open block of (L, h). -/
def FolioHdr.openAt (f : FolioHdr) (l h t : Nat) : Nat := f.openOff + (l * f.heads + h) * 512 * f.dim + t * 4 * f.dim

/-- SIZE. -/
def FolioHdr.size (f : FolioHdr) : Nat := ceilDiv (f.openOff + f.layers * f.heads * 512 * f.dim) 65536 * 65536

/-- The header of 4 KiB. -/
def FolioHdr.bytes (f : FolioHdr) : Bytes :=
  fitBytes 4096 (leBytes 4 0x494C4F46 ++ leBytes 2 1 ++ leBytes 2 f.layers ++ leBytes 1 f.heads
    ++ leBytes 1 (f.kf + 16 * f.vf) ++ leBytes 1 (f.group + 4 * f.enc + 8 * bit01 f.nan) ++ zeroBytes 1 ++ leBytes 2 f.dim
    ++ zeroBytes 2 ++ leBytes 4 f.blocks ++ leBytes 4 f.tokens ++ leBytes 4 f.blockBytes ++ zeroBytes 4 ++ leBytes 8 65536
    ++ leBytes 8 f.openOff ++ leBytes 8 f.size)

/-! ### Sealing (R257, R258) -/

/-- The BF16 codes of bytes. -/
def bf16Codes (b : Bytes) (n : Nat) : List Nat := unpackElems 9 b n

/-- A dynamic conversion to a format, without monitoring and to nearest (R258). -/
def plainConv (fmt group enc : Nat) : ConvRec :=
  { layer := 0, target := fmt, wide := fmt, group := group, enc := enc, static := false, sr := false, monitor := false
    staticScale := 0, bandLo := 0, bandHi := 0, oobLimit := 0, srSeed := 0 }

/-- One group of BF16 codes quantised (R84 to R88, R94). -/
def quantGroup (fmt group enc : Nat) (cs : List Nat) : ConvGroup :=
  (convGroup (plainConv fmt group enc) false (cs.map (· * 65536)) { index := 0, glint := {} }).1

/-- The groups of a run of BF16 codes quantised. -/
def quantRun (fmt group enc : Nat) (cs : List Nat) : List ConvGroup :=
  (chunksOf (groupSize group) (cs.length + 1) cs).map (quantGroup fmt group enc)

/-- A sealed block of 128 tokens, each its K row and its V row of BF16 codes (R257, R258). -/
def FolioHdr.seal (f : FolioHdr) (rows : List (List Nat × List Nat)) : Bytes :=
  let ks := rows.map fun r => quantRun f.kf f.group f.enc r.1
  let column := fun d : Nat => rows.map fun r => r.2.getD d 0
  let vs := (List.range f.dim).map fun d => quantRun f.vf f.group f.enc (column d)
  let kData := if f.kf = 9 then rows.flatMap fun r => packElems 9 r.1
    else ks.flatMap fun gs => packElems f.kf (gs.flatMap (·.elems))
  let vColumns := vs.map fun gs => gs.flatMap (·.elems)
  let vData := if f.vf = 9 then rows.flatMap fun r => packElems 9 r.2
    else (List.range 128).flatMap fun t => packElems f.vf (vColumns.map fun c => c.getD t 0)
  let kScales := if f.kf = 9 then [] else ks.flatMap fun gs => gs.flatMap fun g => leBytes 1 g.scale
  let vScales := if f.vf = 9 then [] else vs.flatMap fun gs => gs.flatMap fun g => leBytes 1 g.scale
  fitBytes f.blockBytes (kData ++ vData ++ kScales ++ vScales)

/-- The K and V rows of an open-block slot. -/
def FolioHdr.slotRows (f : FolioHdr) (b : Bytes) : List Nat × List Nat :=
  (bf16Codes (b.take (2 * f.dim)) f.dim, bf16Codes (b.drop (2 * f.dim)) f.dim)

/-- Append the rows of one layer and head from token `t` on: each goes to its open slot, and a block that fills is sealed
(R258). -/
def FolioHdr.appendRows (f : FolioHdr) (l h : Nat) : List Bytes → Nat → Mem → Mem
  | [], _, m => m
  | r :: rs, t, m =>
    let m := memWrite m (f.openAt l h (t % 128)) r
    let m := if t % 128 = 127 then
        let rows := (List.range 128).map fun i => f.slotRows (memRead m (f.openAt l h i) (4 * f.dim))
        memWrite m (f.blockAt l h (t / 128)) (f.seal rows)
      else m
    FolioHdr.appendRows f l h rs (t + 1) m

/-- Layer and head pairs, in data-buffer order. -/
def FolioHdr.pairs (f : FolioHdr) : List (Nat × Nat) :=
  (List.range f.layers).flatMap fun l => (List.range f.heads).map fun h => (l, h)

/-- The content after an append, its header apart (R258). -/
def FolioHdr.appended (f : FolioHdr) (count : Nat) (data : Bytes) (m : Mem) : Mem :=
  let row := 4 * f.dim
  (f.pairs.mapIdx fun i p => (i, p)).foldl (fun m x =>
    f.appendRows x.2.1 x.2.2 (chunksOf row count (slice data (x.1 * count * row) (count * row))) f.tokens m) m

/-- Byte ranges that an append writes, its header apart. -/
def FolioHdr.appendRanges (f : FolioHdr) (count : Nat) : List (Nat × Nat) :=
  let last := f.tokens + count
  f.pairs.flatMap fun p =>
    let full := last / 128 - f.tokens / 128
    let blocks := (List.range full).map fun i => (f.blockAt p.1 p.2 (f.tokens / 128 + i), f.blockBytes)
    let slots := if full = 0 then [(f.openAt p.1 p.2 (f.tokens % 128), count * 4 * f.dim)]
      else if full = 1 && last % 128 ≤ f.tokens % 128 then
        [(f.openAt p.1 p.2 (f.tokens % 128), (128 - f.tokens % 128) * 4 * f.dim)
         , (f.openAt p.1 p.2 0, last % 128 * 4 * f.dim)]
      else [(f.openAt p.1 p.2 0, 512 * f.dim)]
    blocks ++ slots

/-! ### Tiles (R263, R264) -/

/-- A block of a layer and head as an attend reads it, with the tokens of the range in it. -/
structure FolioTile where
  /-- false for the open block -/
  closed : Bool
  lo : Nat
  hi : Nat
  /-- the sealed block's bytes, or the open block's -/
  bytes : Bytes
  deriving DecidableEq, Repr

/-- The tiles of a range of a layer and head, in token order. -/
def FolioHdr.tiles (f : FolioHdr) (m : Mem) (l h start count : Nat) : List FolioTile :=
  let last := start + count
  (List.range (ceilDiv last 128 - start / 128)).map fun i =>
    let b := start / 128 + i
    let closed := b < f.tokens / 128
    { closed := closed, lo := start - b * 128, hi := Nat.min 128 (last - b * 128)
      bytes := if closed then memRead m (f.blockAt l h b) f.blockBytes else memRead m (f.openAt l h 0) (512 * f.dim) }

/-- Values of codes with NaN read as zero (R88). -/
def folioValues (fmt : Nat) (cs : List Nat) : List Frac := (valuesOf fmt cs).1

/-- K codes of a token, in the format of its tile. -/
def FolioHdr.kCodes (f : FolioHdr) (t : FolioTile) (i : Nat) : List Nat :=
  if t.closed then unpackElems f.kf (slice t.bytes (i * f.kRow) f.kRow) f.dim
  else (f.slotRows (slice t.bytes (i * 4 * f.dim) (4 * f.dim))).1

/-- V codes of a token, in the format of its tile. -/
def FolioHdr.vCodes (f : FolioHdr) (t : FolioTile) (i : Nat) : List Nat :=
  if t.closed then unpackElems f.vf (slice t.bytes (f.vAt + i * f.vRow) f.vRow) f.dim
  else (f.slotRows (slice t.bytes (i * 4 * f.dim) (4 * f.dim))).2

/-- Scale code of group `j` of a token's K row. -/
def FolioHdr.kScale (f : FolioHdr) (t : FolioTile) (i j : Nat) : Nat := field t.bytes (f.ksAt + i * (f.dim / f.g) + j) 1

/-- Scale code of token group `j` of element `d` of V. -/
def FolioHdr.vScale (f : FolioHdr) (t : FolioTile) (d j : Nat) : Nat := field t.bytes (f.vsAt + d * (128 / f.g) + j) 1

/-! ### Attention (R263 to R265) -/

/-- Add group sums in ascending order (R90, R91): the groups of the two operands with their scales. -/
def dotGroups : List (List Frac × Option Frac × List Frac × Option Frac) → Word → Word
  | [], acc => acc
  | x :: xs, acc => dotGroups xs (foldScaled acc (dot x.1 x.2.2.1) x.2.1 x.2.2.2).1

/-- `dot_fp32` of a query row with a stored key (R263). -/
def FolioHdr.dotKey (f : FolioHdr) (t : FolioTile) (q : List Nat) (qg : List ConvGroup) (i : Nat) : Word :=
  if t.closed && f.kf ≠ 9 then
    let ks := chunksOf f.g (f.dim + 1) (f.kCodes t i)
    dotGroups ((qg.zip ks).mapIdx fun j x =>
      (folioValues 6 x.1.elems, scaleValue 0 x.1.scale, folioValues f.kf x.2, scaleValue f.enc (f.kScale t i j))) 0
  else (foldBf16 0 ((folioValues 9 q).zip (folioValues 9 (f.kCodes t i))) false).1

/-- Round a value to an FP32 code. -/
def toF32 (v : Frac) : Nat := (roundF32 v).1

/-- The larger of two FP32 codes by value. -/
def maxCode (a b : Nat) : Nat := if (f32 a).lt (f32 b) then b else a

/-- `fexp2(round_fp32(round_fp32(x - m) * LOG2E))` (R264). -/
def expDiff (x m : Nat) : Nat :=
  let d := toF32 ((f32 x).sub (f32 m))
  (exp2Op (BitVec.ofNat 32 (toF32 ((f32 d).mul (f32 0x3FB8AA3B))))).val.toNat

/-- A partial result: O, M and L as FP32 codes. -/
structure RowPartial where
  o : List Nat
  m : Nat
  l : Nat
  deriving DecidableEq, Repr

/-- The probabilities of a tile by token slot, as they enter the product: their groups where V is narrow, BF16 codes otherwise
(R263). Slots outside the range are zero. -/
def FolioHdr.probs (f : FolioHdr) (t : FolioTile) (p : List Nat) : List ConvGroup :=
  let slots := List.replicate t.lo 0 ++ p ++ List.replicate (128 - t.hi) 0
  if t.closed && f.vf ≠ 9 then
    (chunksOf f.g 129 slots).map fun cs =>
      (convGroup (plainConv 6 f.group 0) false cs { index := 0, glint := {} }).1
  else [{ elems := slots.map fun c => (roundBf16 (f32 c)).1, scale := 0 }]

/-- Decoded probabilities by slot. -/
def FolioHdr.decoded (f : FolioHdr) (t : FolioTile) (gs : List ConvGroup) : List Frac :=
  if t.closed && f.vf ≠ 9 then
    gs.flatMap fun g => (folioValues 6 g.elems).map fun v => v.mul ((scaleValue 0 g.scale).getD Frac.zero)
  else gs.flatMap fun g => folioValues 9 g.elems

/-- `pv_fp32`: one FP32 sum for each element of V (R90, R91, R263). -/
def FolioHdr.product (f : FolioHdr) (t : FolioTile) (gs : List ConvGroup) : List Nat :=
  let rows := (List.range 128).map fun i => if t.lo ≤ i && i < t.hi then f.vCodes t i else []
  (List.range f.dim).map fun d =>
    let column := rows.map fun r => r.getD d 0
    if t.closed && f.vf ≠ 9 then
      (dotGroups ((gs.zip (chunksOf f.g 129 column)).mapIdx fun j x =>
        (folioValues 6 x.1.elems, scaleValue 0 x.1.scale, folioValues f.vf x.2, scaleValue f.enc (f.vScale t d j))) 0).toNat
    else
      let p := gs.flatMap (·.elems)
      let pv := ((folioValues 9 p).zip (folioValues 9 column)).drop t.lo
      (foldBf16 0 (pv.take (t.hi - t.lo)) false).1.toNat

/-- `tile_partial` (R264). -/
def FolioHdr.tilePartial (f : FolioHdr) (t : FolioTile) (q : List Nat) (qg : List ConvGroup) (scale : Frac) : RowPartial :=
  let s := (List.range (t.hi - t.lo)).map fun i => toF32 ((f32 (f.dotKey t q qg (t.lo + i)).toNat).mul scale)
  let m := s.foldl maxCode (s.getD 0 0)
  let gs := f.probs t (s.map fun x => expDiff x m)
  let p := ((f.decoded t gs).drop t.lo).take (t.hi - t.lo)
  { o := f.product t gs, m := m, l := p.foldl (fun l x => toF32 ((f32 l).add x)) 0 }

/-- `merge` (R264). -/
def RowPartial.merge (x y : RowPartial) : RowPartial :=
  let m := maxCode x.m y.m
  let a := f32 (expDiff x.m m)
  let b := f32 (expDiff y.m m)
  let mix := fun u v : Nat => toF32 ((f32 (toF32 ((f32 u).mul a))).add (f32 (toF32 ((f32 v).mul b))))
  { o := x.o.zipWith mix y.o, m := m, l := mix x.l y.l }

/-- Fold partials in ascending tile order. -/
def foldPartials : List RowPartial → RowPartial
  | [] => { o := [], m := 0, l := 0 }
  | p :: ps => ps.foldl RowPartial.merge p

/-- The record of one query row (Table 9-5). -/
def FolioHdr.rowRecord (f : FolioHdr) (ts : List FolioTile) (scale : Frac) (count : Nat) (q : Bytes) : Bytes :=
  let codes := bf16Codes q f.dim
  let qg := quantRun 6 f.group 0 codes
  let p := foldPartials (ts.map fun t => f.tilePartial t codes qg scale)
  leBytes 4 p.m ++ leBytes 4 p.l ++ leBytes 4 count
    ++ leBytes 1 (bit01 (codes.any isNanBf16) + 2 * bit01 (ts.any fun t => !t.closed)) ++ zeroBytes 3 ++ p.o.flatMap (leBytes 4)

/-! ### Reload (R268) -/

/-- A sealed row decoded to BF16: elements times scale, each rounded once. -/
def decodeRow (fmt enc : Nat) (cs : List Nat) (scale : Nat → Nat) : List Nat :=
  cs.mapIdx fun d c =>
    let v := (elemValue fmt c).getD Frac.zero
    (roundBf16 (v.mul ((scaleValue enc (scale d)).getD Frac.zero))).1

/-- The BF16 K row then V row of a token. -/
def FolioHdr.tokenRows (f : FolioHdr) (t : FolioTile) (i : Nat) : Bytes :=
  let k := f.kCodes t i
  let v := f.vCodes t i
  let k := if t.closed && f.kf ≠ 9 then decodeRow f.kf f.enc k fun d => f.kScale t i (d / f.g) else k
  let v := if t.closed && f.vf ≠ 9 then decodeRow f.vf f.enc v fun d => f.vScale t d (i / f.g) else v
  packElems 9 k ++ packElems 9 v

/-- FORM 0 of a range of a layer and head. -/
def FolioHdr.reloadRows (f : FolioHdr) (m : Mem) (l h start count : Nat) : Bytes :=
  (f.tiles m l h start count).flatMap fun t => (List.range (t.hi - t.lo)).flatMap fun i => f.tokenRows t (t.lo + i)

end Sys2Proof.Machine
end

