-- ==== Sys2Proof/Machine/Image.lean ====
section
/-! DEFINITION. The Aqnan image: its parts, the checks of Table 5-11, and PROGRAM_LOAD (R96, R97, R149, R150, R545). -/
namespace Sys2Proof.Machine

/-! ### Parts of an image (Tables 5-7 to 5-10, 3-7) -/

/-- A section entry (Table 5-8) with the image offset at which it stands. -/
structure Section where
  place : Nat
  typ : Nat
  rsvd : Bool
  off : Nat
  len : Nat
  aux : Nat
  deriving DecidableEq, Repr

/-- The section entries of an image (Table 5-8). -/
def sectionsOf (b : Bytes) : List Section :=
  (List.range (field b 12 2)).map fun i =>
    let a := 128 + 16 * i
    { place := a, typ := field b a 1, rsvd := field b (a + 1) 3 ≠ 0, off := field b (a + 4) 4, len := field b (a + 8) 4
      aux := field b (a + 12) 4 }

/-- A conversion record (Table 3-7). -/
def decodeConv (b : Bytes) : ConvRec :=
  { layer := field b 0 2, target := field b 2 1 % 16, wide := field b 2 1 / 16, group := field b 3 1 % 4
    enc := bitsAt (field b 3 1) 2 1, static := bitAt (field b 3 1) 3, sr := bitAt (field b 3 1) 4
    monitor := bitAt (field b 3 1) 5, staticScale := field b 4 1, bandLo := BitVec.ofNat 32 (field b 8 4)
    bandHi := BitVec.ofNat 32 (field b 12 4), oobLimit := field b 16 4, srSeed := BitVec.ofNat 32 (field b 20 4) }

/-- A pause-point entry (Table 5-9). -/
def decodePause (b : Bytes) : PauseEntry :=
  { index := field b 0 2, layerStart := bitAt (field b 2 1) 0, layerEnd := bitAt (field b 2 1) 1
    preempt := bitAt (field b 2 1) 2, codeOffset := field b 4 4, liveRegs := BitVec.ofNat 64 (field b 8 8)
    livePreds := BitVec.ofNat 8 (field b 16 1), liveAcc := BitVec.ofNat 8 (field b 17 1)
    liveInput := BitVec.ofNat 8 (field b 18 1), storeBase := field b 20 4, storeLen := field b 24 4, layer := field b 28 2
    resume := field b 30 2 }

/-- A placement-plan entry (Table 5-10). -/
def decodePlace (b : Bytes) : PlaceEntry :=
  { trigger := field b 0 2, op := field b 2 1, tier := field b 3 1, slot := field b 4 2, priv := bitAt (field b 6 1) 0
    wait := bitAt (field b 6 1) 1, offset := field b 8 8, length := field b 16 4, storeOffset := field b 20 4
    clusters := BitVec.ofNat 64 (field b 24 8) }

/-- The records of `n` bytes of a section, with their image offsets. -/
def Section.parts (x : Section) (b : Bytes) (n : Nat) : List (Nat × Bytes) :=
  (List.range x.aux).map fun i => (x.off + n * i, slice b (x.off + n * i) n)

/-- The section of a type. -/
def sectionOf (xs : List Section) (typ : Nat) : Option Section := xs.find? (·.typ = typ)

/-- The bytes of a section. -/
def Section.bytes (x : Section) (b : Bytes) : Bytes := slice b x.off x.len

/-! ### The checks (Table 5-11). Each answers the image offsets of the fields in breach. -/

/-- The offsets of the conditions that are breached. -/
def breached (l : List (Bool × Nat)) : List Nat := (l.filter (·.1)).map (·.2)

/-- Two ranges, both not empty, overlap. -/
def overlap (a n b m : Nat) : Bool := 0 < n && 0 < m && decide (a < b + m) && decide (b < a + n)

/-- Every element of a list against those before it. -/
def againstEarlier {α : Type} (p : α → α → Bool) : List α → List α → List α
  | _, [] => []
  | seen, x :: xs => if seen.any (p x) then x :: againstEarlier p (seen ++ [x]) xs else againstEarlier p (seen ++ [x]) xs

/-- Check 1: MAGIC, FORMAT_VERSION, HEADER_LEN, and reserved header bytes. -/
def check1 (b : Bytes) : List Nat :=
  breached [(field b 0 4 ≠ 0x494E5141, 0), (field b 4 2 ≠ 1, 4), (field b 6 2 ≠ 128, 6)]
    ++ breached ((List.range 82).map fun i => (field b (46 + i) 1 ≠ 0, 46 + i))

/-- Check 2: IMAGE_LEN, the section table and every section lie within the image. -/
def check2 (b : Bytes) : List Nat :=
  let n := field b 8 4
  if n ≠ b.length then [8]
  else if n < 128 + 16 * field b 12 2 then [12]
  else breached ((sectionsOf b).map fun x => (decide (n < x.off + x.len), x.place + 4))

/-- Entry sizes of the counted section types. -/
def entrySize (typ : Nat) : Option Nat :=
  if typ = 3 then some 24 else if typ = 4 then some 32 else if typ = 5 then some 32 else none

/-- Check 3: alignment, overlap, lengths, and how often each type occurs. A missing section has no byte of its own: SECTIONS is
named where nothing else offends (assumption log 44: DEDUCED, unsafe). -/
def check3 (b : Bytes) : List Nat :=
  let xs := sectionsOf b
  let top := 128 + 16 * xs.length
  let bad := breached (xs.flatMap fun x =>
      [(x.typ = 0 || 5 < x.typ, x.place), (x.rsvd, x.place + 1), (x.off % 64 ≠ 0 || overlap x.off x.len 0 top, x.place + 4)
       , (match entrySize x.typ with | some n => x.len ≠ n * x.aux | none => false, x.place + 8)
       , (x.len = 0, x.place + 8), ((entrySize x.typ).isSome && x.aux = 0, x.place + 12)])
    ++ (againstEarlier (fun x y : Section => x.typ = y.typ) [] xs).map (·.place)
    ++ (againstEarlier (fun x y : Section => overlap x.off x.len y.off y.len) [] xs).map (·.place + 4)
  if bad.isEmpty then breached [((sectionOf xs 1).isNone || (sectionOf xs 5).isNone, 12)] else bad

/-- Check 4: header values within Table 5-7; of the counts that state no range with zero in it, zero is invalid (R10). ENTRY is a
word of the CODE section (assumption log 163: DEDUCED, unsafe). -/
def check4 (b : Bytes) : List Nat :=
  let out := fun off n lo hi => (decide (field b off n < lo) || decide (hi < field b off n), off)
  let code := match sectionOf (sectionsOf b) 1 with | some x => x.len | none => 0
  breached [out 8 4 1 67108864, out 12 2 1 16, out 14 2 1 64, out 16 2 1 64, out 18 2 (field b 16 2) 64, out 20 2 1 32
            , out 22 2 0 64, out 24 4 0 65536, (field b 24 4 % 4 ≠ 0, 24), (field b 32 4 = 0, 32), (field b 36 4 % 64 ≠ 0 || field b 36 4 = 0, 36)
            , (field b 40 4 % 4 ≠ 0 || decide (code ≤ field b 40 4), 40), out 44 2 1 64]

/-- The ranges of the store that an image fills, with the image offset of the field that places each. -/
def storeRanges (b : Bytes) : List (Nat × Nat × Nat) :=
  ((sectionsOf b).filter fun x => x.typ = 1 || x.typ = 2).map (fun x => (x.aux, x.len, x.place + 12))
    ++ [(field b 28 4, field b 24 4, 28)]

/-- Check 5: the CODE length, and CODE, CONST and parameters in the store. -/
def check5 (b : Bytes) : List Nat :=
  let rs := storeRanges b
  breached (((sectionsOf b).filter (·.typ = 1)).map fun x => (x.len % 4 ≠ 0 || 262144 < x.len, x.place + 8))
    ++ breached (rs.map fun r => (decide (storeSize < r.1 + r.2.1), r.2.2))
    ++ (againstEarlier (fun x y : Nat × Nat × Nat => overlap x.1 x.2.1 y.1 y.2.1) [] rs).map (·.2.2)

/-- The words of the CODE section with their offsets in it. -/
def codeWords (b : Bytes) : List (Nat × Nat) :=
  match sectionOf (sectionsOf b) 1 with
  | some x => (chunksOf 4 (x.len / 4 + 1) (x.bytes b)).mapIdx fun i w => (4 * i, leNat w)
  | none => []

/-- The image offset of the CODE section. -/
def codeAt (b : Bytes) : Nat := match sectionOf (sectionsOf b) 1 with | some x => x.off | none => 0

/-- Check 6: every code word is defined. -/
def check6 (b : Bytes) : List Nat := breached ((codeWords b).map fun w => (!wordOk w.2, codeAt b + w.1))

/-- The parts of a counted section, with their image offsets. -/
def partsOf (b : Bytes) (typ n : Nat) : List (Nat × Bytes) :=
  match sectionOf (sectionsOf b) typ with | some x => x.parts b n | none => []

/-- The pause-point entries of an image. -/
def pausesOf (b : Bytes) : List PauseEntry := (partsOf b 5 32).map fun p => decodePause p.2

/-- What check 7 asks of one entry at a position. -/
def pauseBreaches (b : Bytes) (i : Nat) (p : Nat × Bytes) : List (Bool × Nat) :=
  let e := decodePause p.2
  let code := match sectionOf (sectionsOf b) 1 with | some x => (x.aux, x.len) | none => (0, 0)
  [(e.index ≠ i, p.1), (8 ≤ field p.2 2 1, p.1 + 2), (field p.2 3 1 ≠ 0, p.1 + 3)
   , (!((codeWords b).any fun w => w.1 = e.codeOffset && w.2 = pWord (BitVec.ofNat 16 i)), p.1 + 4)
   , (e.liveRegs.getLsbD 0, p.1 + 8), (e.livePreds.getLsbD 0, p.1 + 16), (field p.2 19 1 ≠ 0, p.1 + 19)
   , (e.storeBase % 64 ≠ 0 || decide (storeSize < e.storeBase + e.storeLen) || overlap e.storeBase e.storeLen code.1 code.2,
       p.1 + 20)
   , (e.storeLen % 64 ≠ 0, p.1 + 24), (!e.layerStart && !e.layerEnd && e.layer ≠ 0, p.1 + 28)
   , (e.resume ≠ 0 && decide (code.2 ≤ 4 * e.resume), p.1 + 30)]

/-- Check 7: pause points. -/
def check7 (b : Bytes) : List Nat :=
  let es := pausesOf b
  let named := fun w : Nat × Nat => match es[bitsAt w.2 10 16]? with | some e => e.codeOffset = w.1 | none => false
  breached (((codeWords b).filter fun w => bitsAt w.2 26 6 = 0x2B).map fun w => (!named w, codeAt b + w.1))
    ++ breached (((partsOf b 5 32).mapIdx fun i p => pauseBreaches b i p).flatten)
    ++ breached [(match es[0]? with | some e => e.codeOffset ≠ field b 40 4 | none => true, 40)]

/-- Element bits of a format code for comparing formats (Table 3-1). -/
def widerThan (a b : Nat) : Bool := decide (elemBits b < elemBits a)

/-- What R97 and the reserved fields ask of a conversion record, each with the byte of the record that holds the field in breach
(assumption log 44: DEDUCED, unsafe). -/
def convBreaches (b : Bytes) : List (Bool × Nat) :=
  let r := decodeConv b
  let fin := fun w : Word => decide (w.toNat / 2 ^ 23 % 256 ≠ 255)
  let pos := fun w : Word => w.toNat < 2 ^ 31 || w.toNat = 2 ^ 31
  let le := (f32 r.bandLo.toNat).le (f32 r.bandHi.toNat)
  let wideOk := ([4, 5, 6, 7, 8] : List Nat).contains r.wide && widerThan r.wide r.target
  let scaleOk := if r.enc = 0 then decide (r.staticScale ≠ 0xFF)
    else r.staticScale ≠ 0 && r.staticScale ≠ 0x7F && r.staticScale < 0x80
  [(!(([0, 1, 4, 5, 6, 7, 8, 9] : List Nat).contains r.target), 2), (if r.monitor then !wideOk else r.wide ≠ 0, 2)
   , (decide (64 ≤ field b 3 1) || r.group = 3 || (r.target = 9 && (r.static || r.enc ≠ 0)), 3)
   , ((r.target = 9 && r.staticScale ≠ 0) || (r.static && !scaleOk), 4), (field b 5 1 ≠ 0, 5), (field b 6 1 ≠ 0, 6)
   , (field b 7 1 ≠ 0, 7), (if r.monitor then !(fin r.bandLo && pos r.bandLo) else r.bandLo ≠ 0, 8)
   , (if r.monitor then !(fin r.bandHi && le) else r.bandHi ≠ 0, 12)
   , (if r.monitor then r.oobLimit = 0 else r.oobLimit ≠ 0, 16)]

/-- A conversion record meets R97 and its reserved fields are zero. -/
def convOk (b : Bytes) : Bool := (convBreaches b).all fun x => !x.1

/-- Check 8: conversion records. -/
def check8 (b : Bytes) : List Nat :=
  breached ((partsOf b 3 24).flatMap fun p => (convBreaches p.2).map fun x => (x.1, p.1 + x.2))

/-- Check 9: a monitored record has entries that start and end its layer. -/
def check9 (b : Bytes) : List Nat :=
  let es := pausesOf b
  breached ((partsOf b 3 24).map fun p =>
    let r := decodeConv p.2
    (r.monitor && !(es.any (fun e => e.layerStart && e.layer = r.layer)
      && es.any (fun e => e.layerEnd && e.layer = r.layer)), p.1))

/-- Check 10: placement entries within Table 5-10. -/
def check10 (b : Bytes) : List Nat :=
  breached ((partsOf b 4 32).flatMap fun p =>
    let e := decodePlace p.2
    [(decide ((pausesOf b).length ≤ e.trigger), p.1), (3 < e.op, p.1 + 2), (3 < e.tier, p.1 + 3)
     , (if e.priv then e.slot ≠ 0 else decide (field b 22 2 ≤ e.slot), p.1 + 4), (4 ≤ field p.2 6 1, p.1 + 6)
     , (field p.2 7 1 ≠ 0, p.1 + 7), (e.length = 0 || e.length % 64 ≠ 0, p.1 + 16)
     , (e.tier = 0 && decide (storeSize < e.storeOffset + e.length), p.1 + 20)])

/-- The first check that fails, with the lowest offset in breach (R150, assumption log 44: DEDUCED, unsafe). -/
def imageFault (b : Bytes) : Option (Nat × Nat) :=
  let try_ := fun (n : Nat) (l : List Nat) (next : Option (Nat × Nat)) =>
    match lowest l with | some o => some (n, o) | none => next
  try_ 1 (check1 b) <| try_ 2 (check2 b) <| try_ 3 (check3 b) <| try_ 4 (check4 b) <| try_ 5 (check5 b) <|
    try_ 6 (check6 b) <| try_ 7 (check7 b) <| try_ 8 (check8 b) <| try_ 9 (check9 b) <| try_ 10 (check10 b) none

/-! ### A checked image (R149, R150) -/

/-- Bits set in a number of 64 bits. -/
def popCount (n : Nat) : Nat := ((List.range 64).filter (bitAt n)).length

/-- Bytes one entry needs in the save area of a cluster. -/
def PauseEntry.saveSize (e : PauseEntry) (threads : Nat) : Nat :=
  (popCount e.liveRegs.toNat * 4 + 1) * threads + 65536 * popCount e.liveAcc.toNat + 147584 * popCount e.liveInput.toNat
    + 1024 + e.storeLen

/-- `save_bytes_per_cluster` of R150. -/
def saveBytesOf (b : Bytes) : Nat :=
  ((pausesOf b).map fun e => e.saveSize (field b 14 2)).foldl Nat.max 0 + 256 * field b 20 2

/-- The image of bytes that passed Table 5-11. -/
def parseImage (b : Bytes) : Image :=
  let xs := sectionsOf b
  let part := fun t => match sectionOf xs t with | some x => (x.bytes b, x.aux) | none => ([], 0)
  { threads := field b 14 2, minClusters := field b 16 2, maxClusters := field b 18 2, syncBlocks := field b 20 2
    slots := field b 22 2, paramLen := field b 24 4, paramBase := field b 28 4, resultBytes := field b 32 4
    scratchBytes := field b 36 4, entry := field b 40 4, spanBt := field b 44 2
    code := (part 1).1, codeAux := (part 1).2, const := (part 2).1, constAux := (part 2).2
    convs := (partsOf b 3 24).map fun p => decodeConv p.2, pauses := pausesOf b
    plan := (partsOf b 4 32).map fun p => decodePlace p.2
    measurement := digest64 b, saveBytes := saveBytesOf b
    sections := digest64 ((part 1).1 ++ (part 2).1) }

/-! ### PROGRAM_LOAD (R150, R153, R545) -/

/-- The size of a program version: IMAGE_LEN rounded up to a multiple of 4,096 (R545). -/
def imageSize (n : Nat) : Nat := ceilDiv n 4096 * 4096

/-- PROGRAM_LOAD, 0x30. -/
def State.specProgramLoad (s : State) (e : Bytes) : OpSpec :=
  let id := field e 40 4
  let n := field e 44 2
  let size := imageSize (field e 24 4)
  { data := true, result := true, reserved := [(46, 18)]
    field5 := [(id = 0, 40), (n = 0, 44)]
    length6 := [(field e 28 4 < 64, 28)]
    objects := match s.obj? id with
      | some o => (o.kind ≠ 2, .invalidField, 40) :: s.newVersionChecks o n size
      | none => [(s.idHeld id, .invalidField, 40)] }

/-- The load report (R153). -/
def loadReport (check off save : Nat) (m : Bytes) : Bytes :=
  leBytes 4 check ++ leBytes 4 off ++ leBytes 4 save ++ zeroBytes 4 ++ fitBytes 32 m ++ zeroBytes 16

/-- Write an image into its new version and make it CURRENT. -/
def State.putImage (id n : Nat) (b : Bytes) (s : State) : State :=
  let size := imageSize b.length
  let g := parseImage b
  let t := s.updVer id n fun v => { v with size := size, data := [], lost := [], image := some g }
  let t := t.writeVersion id n 0 (fitBytes size b)
  let t := (t.updObj id fun o => { o with size := size }).commit id n
  (t.extend 2 0x20 id n (fitBytes 64 g.measurement)).fitSlc

/-- The first error of creating or versioning the program image object. -/
def State.programError (s : State) (id n size : Nat) : Option (Status × Nat) :=
  if s.protected then some (.writeProtected, 0)
  else match s.obj? id with
    | some o => ((s.newVersionChecks o n size).find? (·.1)).map (·.2)
    | none =>
      if s.idHeld id then some (.invalidField, 40)
      else (s.createError 2 size (if s.tiers.flagsView then 3 else 0) true).map fun st => (st, 0)

/-- A checked image is stored: its object is created or gets a new version (R545). The write is durable and waits as any
other (R209, R210). -/
def State.storeImage (c : Slot) (b : Bytes) (s : State) : State :=
  let id := c.arg 40 4
  let n := c.arg 44 2
  let size := imageSize b.length
  match s.programError id n size with
  | some x => s.fail c.id x.1 x.2
  | none =>
    let durable := match s.obj? id with | some o => o.durable | none => true
    if durable && !s.admitsDirty size then s.setWork c.id (.held size)
    else
      let t := if durable then s.takeCredit size else s
      let t := match s.obj? id with
        | some _ => t.newVersion id n
        | none => t.createObj id 2 (if s.tiers.flagsView then 3 else 0) size n true true
      let t := (t.holdVersion c.id id n).putImage id n b
      let t := t.writeResult c 0 (loadReport 0 0 (saveBytesOf b) (digest64 b))
      match t.obj? id with
      | some o => t.ackWrite c.id o false (pageList id n 0 size) 0
      | none => t.done c.id 0

/-- PROGRAM_LOAD carried out: the checks of Table 5-11, the load report, and the new version. -/
def State.doProgramLoad (c : Slot) (s : State) : State :=
  let b := s.dataBytes c
  match imageFault b with
  | some x =>
    let t := s.writeResult c 0 (loadReport x.1 x.2 0 [])
    if x.1 = 2 then t.fail c.id .invalidLength 24 else t.fail c.id .invalidField 16
  | none => s.storeImage c b

/-- PROGRAM_LOAD (R150, R545). -/
def execProgramLoad (slot : Nat) (s : State) : Host.Outcome State Fault Refusal :=
  .next (s.runCmd slot 0x30 true fun c => s.doProgramLoad c)

end Sys2Proof.Machine
end

