-- ==== Sys2Proof/Machine/Sched.lean ====
section
/-! DEFINITION. Admission of jobs, JOB_RUN, starts and resumes, pause points, placement moves, slices and charging
(chapter 6, R98 to R100, R143, R154, R201 to R205). -/
namespace Sys2Proof.Machine

/-! ### Admission (R154, R157, R162) -/

/-- A job of the client is admitted and not complete. -/
def State.hasJobs (s : State) (client : Nat) : Bool := s.sched.jobs.any fun j => j.client = client

/-- v of a client whose job is admitted: where it had none, the larger of its own and the smallest v among clients with
admitted jobs (R162). -/
def State.admitV (s : State) (client : Nat) : Nat :=
  let v := (s.sched.clients.getD client {}).vtime
  if s.hasJobs client then v
  else match lowest (s.sched.jobs.map fun j => (s.sched.clients.getD j.client {}).vtime) with
    | some m => Nat.max v m
    | none => v

/-- The measurement of a program version run for the first time since start-up (Table 20-5). -/
def State.measureRun (j : Job) (s : State) : State :=
  match j.image, s.version? j.prog j.progVer with
  | some g, some v => match v.image with
    | some i =>
      if i.measured then s
      else (s.updVer j.prog j.progVer fun v => { v with image := some { i with measured := true } }).extend 2 0x20 j.prog
        j.progVer (fitBytes 64 g.measurement)
    | none => s
  | _, _ => s

/-- A job is admitted for a command: it waits from now on, in the command's admission order, and its client's v catches up (R162,
R163). -/
def State.newJob (c : Slot) (kind : JobKind) (need : Nat) (f : Job → Job) (s : State) : Job × State :=
  let v := s.admitV c.client
  let j : Job := f { id := s.sched.nextJob, slot := c.id, kind := kind, client := c.client, order := c.order, need := need
                     waitSince := s.bt, area := s.twoPlaces (Config.homePackage (areaHome s.sched.nextJob)) }
  let t : State := { s with sched := { s.sched with jobs := s.sched.jobs ++ [j], nextJob := s.sched.nextJob + 1 } }
  (j, (t.updClient c.client fun k => { k with vtime := v }).noteShort)

/-- Admit a job for a command of a service, and measure its program (Table 20-5). -/
def State.admitJob (c : Slot) (kind : JobKind) (need : Nat) (f : Job → Job) (s : State) : State :=
  let x := s.newJob c kind need f
  x.2.measureRun x.1

/-- Admission of a JOB_RUN at its fetch: its job waits from then on, and can start once the command has executed (R162, R163; assumption
log 142: DEDUCED, unsafe). -/
def State.admitRun (c : Slot) (s : State) : State :=
  if c.opcode = 0x31 then (s.newJob c .run (c.arg 46 2) fun j => { j with ready := false }).2 else s

/-- A job running a program version, with its bindings and parameters (R154). -/
def Job.withProgram (prog ver : Nat) (g : Image) (bs : List Binding) (params : Bytes) (j : Job) : Job :=
  { j with prog := prog, progVer := ver, image := some g, bindings := bs, params := params, syncBlocks := g.syncBlocks }

/-- The image of a program version that a command may run. -/
def State.image? (s : State) (id n : Nat) : Option Image :=
  match s.version? id n with
  | some v => v.image
  | none => none

/-- OBJECT_ID, VERSION, WRITE and whether reserved bits are zero, of the bindings in a data buffer (R154). -/
def bindingsOf (b : Bytes) (n : Nat) : List (Nat × Nat × Bool × Bool) :=
  (List.range n).map fun i =>
    (field b (8 * i) 4, field b (8 * i + 4) 2, bitAt (field b (8 * i + 6) 1) 0
     , field b (8 * i + 6) 1 < 2 && field b (8 * i + 7) 1 = 0)

/-- A version can be bound for writing: it is CURRENT or BUILDING, and of a table only BUILDING (Table 7-3, R275; assumption log
46). -/
def Obj.bindWrite (o : Obj) (v : Version) : Bool :=
  (v.state = .current || v.state = .building) && (o.kind ≠ 4 || v.state = .building)

/-- A binding's object has no such version, or names a BUILDING one to read. -/
def State.bindNoVersion (s : State) (x : Nat × Nat × Bool × Bool) : Bool :=
  match s.obj? x.1 with
  | some o => match o.named? x.2.1 with
    | some v => !x.2.2.1 && v.state = .building
    | none => true
  | none => true

/-- A binding asks to write a version that can not be. -/
def State.bindProtected (s : State) (x : Nat × Nat × Bool × Bool) : Bool :=
  match s.obj? x.1 with
  | some o => match o.named? x.2.1 with
    | some v => x.2.2.1 && !o.bindWrite v
    | none => false
  | none => false

/-- The checks of bindings at step 8: objects, then versions, then whether they can be written (R60, R154). -/
def State.bindChecks (s : State) (bs : List (Nat × Nat × Bool × Bool)) : List (Bool × Status × Nat) :=
  [(bs.any fun x => !x.2.2.2, .invalidField, 16), (bs.any fun x => (s.obj? x.1).isNone, .objectNotFound, 0)
   , (bs.any s.bindNoVersion, .versionRetired, 0), (bs.any s.bindProtected, .writeProtected, 0)]

/-- JOB_RUN, 0x31. `refused` says that the host refused the read of a segment list. -/
def State.specJobRun (s : State) (e : Bytes) (refused : Bool) : OpSpec :=
  let id := field e 40 4
  let n := field e 46 2
  let sgl := bitAt (field e 1 1) 1
  let o := s.obj? id
  let v := s.readable? id (field e 44 2)
  let g : Image := match v with | some v => v.image.getD (parseImage []) | none => parseImage []
  let used := g.slots ≠ 0 || g.paramLen ≠ 0
  let l := bufferSegs s.hostMem sgl (field e 16 8) (field e 24 4)
  let data := l.segs.flatMap fun x => memRead s.hostMem x.addr x.len
  let bs := if used then bindingsOf data g.slots else []
  { dataLate := true, result := true, reserved := [(48, 16)]
    field5 := [(sgl && field e 16 8 % 16 ≠ 0, 16)]
    length6 := [(n = 0 || s.grade.clustersInService < n, 46)]
    objects := [(o.isNone, .objectNotFound, 0), (v.isNone, .versionRetired, 0)
                , (match o with | some o => o.kind ≠ 2 | none => false, .invalidField, 40), (n < g.minClusters || g.maxClusters < n, .invalidLength, 46)
                , (!used && sgl, .invalidField, 1), (!used && field e 16 8 ≠ 0, .invalidField, 16)
                , (!used && field e 24 4 ≠ 0, .invalidField, 24)
                , (used && !sgl && field e 16 8 % 4 ≠ 0, .invalidField, 16)
                , (used && field e 24 4 ≠ 8 * g.slots + g.paramLen, .invalidLength, 24)
                , (used && sgl && refused, .hostAccessFault, 0)
                , (used && sgl && (l.rsvd || l.align), .invalidField, 16), (used && sgl && l.bad, .invalidLength, 24)
                , (field e 28 4 < g.resultBytes + 128 + 40 * g.convs.length, .invalidLength, 28)]
      ++ s.bindChecks bs
    pins := (match v with | some v => [(id, v.num)] | none => [])
      ++ bs.filterMap fun x => match s.obj? x.1 with
        | some o => match o.named? x.2.1 with | some v => some (x.1, v.num) | none => none
        | none => none }

/-- The job that was admitted for a JOB_RUN. -/
def State.jobOf? (s : State) (slot : Nat) : Option Job := s.sched.jobs.find? fun j => j.slot = slot && !j.ready

/-- JOB_RUN: its job takes its program, its bindings and its parameters, and can start (R154, R163). -/
def execJobRun (slot : Nat) (s : State) : Host.Outcome State Fault Refusal :=
  .next (s.runCmd slot 0x31 true fun c =>
    match c.pins with
    | [] => s.fail slot .objectNotFound 0
    | p :: bound => match s.image? p.1 p.2, s.jobOf? slot with
      | none, _ => s.fail slot .versionRetired 0
      | some _, none => s
      | some g, some j =>
        let b := s.dataBytes c
        let bs := (bound.zip (bindingsOf b g.slots)).map fun x : (Nat × Nat) × (Nat × Nat × Bool × Bool) =>
          ({ obj := x.1.1, ver := x.1.2, write := x.2.2.2.1 } : Binding)
        let k : Job := { j.withProgram p.1 p.2 g bs (slice b (8 * g.slots) g.paramLen) with ready := true }
        ((s.updJob j.id fun _ => k).measureRun k).setWork slot .job)

/-! ### Starts and resumes (R163 to R165) -/

/-- v of a job's client. -/
def State.jobV (s : State) (j : Job) : Nat := (s.sched.clients.getD j.client {}).vtime

/-- Waiting order: v, then admission order (R163). -/
def State.before (s : State) (a b : Job) : Bool :=
  s.jobV a < s.jobV b || (s.jobV a = s.jobV b && a.order < b.order)

/-- The first waiting job of a list. -/
def State.firstOf (s : State) : List Job → Option Job
  | [] => none
  | j :: js => match s.firstOf js with
    | none => some j
    | some k => if s.before j k then some j else some k

/-- Jobs that wait and can start or resume. A job that is to end cannot, nor can one whose command has not executed yet. -/
def State.waiting (s : State) : List Job :=
  s.sched.jobs.filter fun j => j.state = .waiting && j.ready && j.ending.isNone && j.stop.isNone

/-- Grant blocks of the sync table that no job holds (R127, R164). -/
def State.freeGrant (s : State) : List Nat :=
  (List.range 256).filter fun b => !(s.sched.jobs.any fun j => j.grant.contains b)

/-- How many they are. -/
def State.freeBlocks (s : State) : Nat := s.freeGrant.length

/-- Grant blocks a job still needs (R164). -/
def Job.blocksNeeded (j : Job) : Nat := if j.started then 0 else j.syncBlocks

/-- The job that `try_start` would start next and its clusters: the head waiter, or the first in order that fits beside its
set-aside (R164, R165). -/
def State.tryStart (s : State) : Option (Job × List Nat) :=
  match s.firstOf s.waiting with
  | none => none
  | some head =>
    let free := s.freeClusters
    if head.need ≤ free.length && head.blocksNeeded ≤ s.freeBlocks then some (head, free.take head.need)
    else
      let c := free.length - head.need
      let b := s.freeBlocks - head.blocksNeeded
      let fits := s.waiting.filter fun j => j.id ≠ head.id && j.need ≤ c && j.blocksNeeded ≤ b
      match s.firstOf fits with
      | some j => some (j, (free.drop (free.length - c)).take j.need)
      | none => none

/-- A thread that goes on at a PC outside the code region raises the fetch-range trap, the lowest cluster and thread first
(R156). -/
def State.checkPcs (id : Nat) (s : State) : State :=
  match s.job? id with
  | none => s
  | some j =>
    let bad := (j.clusters.mapIdx fun c k => k.threads.mapIdx fun t x => (c, t, x)).flatten.find? fun x =>
      x.2.2.st = .ready && !j.pcOk x.2.2.pc
    match bad with
    | some x => s.progTrap { job := id, cluster := x.1, thread := x.2.1 } x.2.2.pc 0x01 x.2.2.pc
    | none => s

/-- The counters of blocks of the sync table (R127). -/
def State.tableCounters (s : State) (bs : List Nat) : List Word := bs.flatMap fun b => s.sched.syncTable.getD b []

/-- A job is granted the lowest free blocks of the sync table; it finds the counters as they stand there, and its object n is counter
n mod 64 of block n / 64 of the grant (R127, assumption log 34: DEDUCED, unsafe). -/
def State.takeGrant (j : Job) (s : State) : State :=
  let bs := s.freeGrant.take j.syncBlocks
  s.updJob j.id fun j => { j with grant := bs, sync := s.tableCounters bs }

/-- Put a job on its clusters and let its threads go on: afresh, or restored from its save (R131, R146, R165). -/
def State.enter (id : Nat) (s : State) : State :=
  match s.job? id with
  | none => s
  | some j =>
    match j.save with
    | some v => (s.restore id v j.physList false).checkPcs id
    | none => (s.startFresh id).checkPcs id

/-- Start or resume a job on clusters at an ARITH cycle: its grant at the first start, its slice, watchdog and counters
(R160, R164, R168, R173, R174, R178). -/
def State.startJob (j : Job) (phys : List Nat) (cyc : Nat) (s : State) : State :=
  let slice := Nat.max 64 (s.sched.sliceBt - j.deduct)
  let t := if j.started then s else s.takeGrant j
  let t := t.updJob j.id fun j =>
    { j with
      state := .running, started := true, clusters := phys.map fun p => { phys := p }, chargedTo := cyc
      sliceEnd := s.bt + slice, deduct := 0, watchdog16 := 0, marked := false }
  let t := t.updClient j.client fun c => { c with jobs := if j.started then c.jobs else sat32 (c.jobs + 1) }
  (t.endWait j).enter j.id

/-- The hash of CODE and CONST as they were copied is compared with the digest kept at PROGRAM_LOAD. After a mismatch they are copied
once more; a second mismatch makes the version impaired (R468, R510). -/
def State.hashImage (j : Job) (mismatches : Nat) (s : State) : State :=
  match j.image with
  | none => s
  | some g => if 2 ≤ mismatches || digest64 (g.code ++ g.const) ≠ g.sections then s.impair j.prog j.progVer else s

/-- JOB_START: one waiting job starts or resumes (R163 to R165). Of the copies of its sections that were hashed for a cluster,
`mismatches` did not give the digest kept for them (R510). -/
def execJobStart (start : HashedStart) (s : State) : Host.Outcome State Fault Refusal :=
  .next (match (if s.still then none else s.tryStart) with
    | some x => (s.startJob x.1 x.2 (s.cycleAt start.cycle)).hashImage x.1 start.mismatches
    | none => s)

/-! ### Pause points (R98 to R100, R143, R144, R201) -/

/-- Threads that have not executed EXIT. -/
def Job.alive (j : Job) : List Thread := j.clusters.flatMap fun c => c.threads.filter fun t => t.st ≠ .exited

/-- Nothing of a job is queued or in flight, and no placement move is under way (R143, R201). -/
def Job.quiet (j : Job) : Bool :=
  j.xfers.isEmpty && j.moves.isEmpty && j.clusters.all fun c => c.engines.all fun e => e.ops.isEmpty

/-- The pause point every running thread has reached. -/
def Job.reached? (j : Job) : Option Nat :=
  match j.alive with
  | [] => none
  | t :: ts => match t.st with
    | .barrier n => if ts.all fun u => u.st = .barrier n then some n else none
    | _ => none

/-- The summaries of a layer counted afresh, what its re-run left kept (R95, Table 3-6). -/
def Glint.fresh (g : Glint) : Glint := { layer := g.layer, rerun := g.rerun, rerunOob := g.rerunOob }

/-- Change the summaries of a layer in every cluster. -/
def JobCluster.mapLayer (layer : Nat) (f : Glint → Glint) (c : JobCluster) : JobCluster :=
  { c with glint := c.glint.map fun g => if g.layer = layer then f g else g }

/-- A run of a layer starts: its summaries count afresh, and it has not been re-run yet (R98, Table 3-9). -/
def Job.layerStart (layer : Nat) (j : Job) : Job :=
  { j with clusters := j.clusters.map (JobCluster.mapLayer layer Glint.fresh), wide := j.wide.filter (· ≠ layer) }

/-- Out-of-band groups of a record over every cluster of the job (R98). -/
def Job.oob (j : Job) (i : Nat) : Nat := (j.clusters.map fun c => (c.glint.getD i {}).oob).foldl (· + ·) 0

/-- A layer fails calibration: a monitored record of it has reached its limit, and this run of the layer is not wide (R98,
R100). -/
def Job.layerFails (j : Job) (layer : Nat) : Bool :=
  !j.wide.contains layer && (match j.image with
    | some g => (g.convs.mapIdx fun i r => (i, r)).any fun x =>
        x.2.monitor && x.2.layer = layer && x.2.oobLimit ≤ j.oob x.1
    | none => false)

/-- The save taken at the last start of a layer. -/
def Job.layerSave? (j : Job) (layer : Nat) : Option Save :=
  j.layerSaves.find? fun v => match j.pause? v.index with | some e => e.layer = layer | none => false

/-- A layer's start as a wider re-run returns to it: wide, counted, and its summaries marked (R100, R101). -/
def Job.widen (j : Job) (layer : Nat) (v : Save) : Save :=
  let mark := fun (c d : JobCluster) =>
    { c with glint := (c.glint.zip d.glint).map fun x =>
        if x.1.layer = layer then { x.1 with rerun := true, rerunOob := x.2.oob } else x.1 }
  { v with clusters := v.clusters.zipWith mark j.clusters, wide := layer :: v.wide, reruns := v.reruns + 1 }

/-- Tier 0 placements in force after an entry (R203). -/
def placedAfter (l : List PlaceEntry) (p : PlaceEntry) : List PlaceEntry :=
  let same := fun q : PlaceEntry => q.slot = p.slot && q.priv = p.priv && overlap q.offset q.length p.offset p.length
  if p.op = 0 || p.op = 2 then (if p.tier = 0 then l ++ [p] else l)
  else if p.op = 1 || p.tier = 0 then l.filter fun q => !same q
  else l

/-- The placement entries that a pause point triggers (R201). -/
def Job.triggered (j : Job) (n : Nat) : List PlaceEntry :=
  match j.image with
  | some g => g.plan.filter (·.trigger = n)
  | none => []

/-- The layer of the wider re-run under way has ended, or starts anew. -/
def Job.endRerun (e : PauseEntry) (j : Job) : Job :=
  let same := match j.rerun with
    | some v => (match j.pause? v.index with | some f => f.layer = e.layer | none => false)
    | none => false
  if (e.layerEnd || e.layerStart) && same then { j with rerun := none } else j

/-- Save the pause state at an entry, and note it as the last pause point (R144). -/
def State.savePoint (id : Nat) (e : PauseEntry) (s : State) : State :=
  s.updJob id fun j =>
    let j := { j with placed := (j.triggered e.index).foldl placedAfter j.placed }
    let v := s.saveJob j e
    { j with
      save := some v, save0 := if e.index = 0 then (match j.save0 with | some w => some w | none => some v) else j.save0
      layerSaves := if e.layerStart then
          v :: j.layerSaves.filter fun w => (match j.pause? w.index with | some f => f.layer ≠ e.layer | none => false)
        else j.layerSaves
      lastPause := e.index, pointReplays := 0, spanEvents := [] }

/-- Threads at the barrier go on at the next instruction, unless a move with WAIT holds them (R143, R201). -/
def Job.release (j : Job) : Job :=
  let hold := j.moves.any fun m => m.entry.wait
  let go := fun t : Thread => match t.st with
    | .barrier n => { t with pc := t.pc + 4, st := if hold then .barrier n else .ready }
    | _ => t
  { j with clusters := j.clusters.map fun c => { c with threads := c.threads.map go } }

/-- A pause point whose layer passes, or that ends no layer: its placement entries are queued, threads go on, and the
decisions apply (R143, R201). -/
def State.passPoint (id cyc : Nat) (e : PauseEntry) (s : State) : State :=
  let t := s.updJob id fun j =>
    ({ j with moves := (j.triggered e.index).map fun p => { entry := p, since := s.bt } } : Job).release
  (t.decideStop id cyc).checkPcs id

/-- A layer fails calibration: the job goes back to the layer's start, wide, and the decisions apply there (R100, Table
6-3). -/
def State.rerunLayer (id cyc : Nat) (e : PauseEntry) (v : Save) (s : State) : State :=
  match s.job? id with
  | none => s
  | some j =>
    let w := j.widen e.layer v
    let t := (s.restore id w [] true).updJob id fun k =>
      { k with layerSaves := k.layerSaves.filter (· ≠ v), rerun := some w }
    (t.decideAt (j.preemptPoint e.index) id cyc).checkPcs id

/-- PAUSE_POINT_TAKEN: the pause point every thread has reached is taken (R143). A job of a service that runs no Jorern program has no
pause-point table; each such step is a point of its own, which counts as PREEMPT (R170, R243; assumption log 165: DESIGN CHOICE,
unsafe). -/
def execPausePointTaken (job cycle : Nat) (s : State) : Host.Outcome State Fault Refusal :=
  .next (
    match s.job? job with
    | none => s
    | some j =>
      if j.state ≠ .running || j.ending.isSome || !j.quiet then s
      else if j.image.isNone then s.decideAt true job (s.cycleAt cycle)
      else match j.reached? with
        | none => s
        | some n => match j.pause? n with
          | none => s
          | some e =>
            let cyc := s.cycleAt cycle
            match (if e.layerEnd && j.layerFails e.layer then j.layerSave? e.layer else none) with
            | some v => (s.savePoint job e).rerunLayer job cyc e v
            | none =>
              let t := s.updJob job (Job.endRerun e)
              let t := if e.layerStart then t.updJob job (Job.layerStart e.layer) else t
              (t.savePoint job e).passPoint job cyc e)

/-! ### Placement moves (R201 to R205) -/

/-- The units of a placement entry and the version it acts on; none for the job's scratch and tier 0 (R201, R202). -/
def Job.moveUnits (j : Job) (p : PlaceEntry) : Option (Nat × Nat × List Nat) :=
  if p.priv then none
  else match j.bindings[p.slot]? with
    | some b => some (b.obj, b.ver, unitsOf p.offset p.length)
    | none => none

/-- The job takes a reference on each unit in a tier (R203). -/
def State.takeRefs (job id n tier : Nat) (us : List Nat) (s : State) : State :=
  s.updObj id fun o => { o with refs := o.refs ++ us.map fun u => { who := .job job, ver := n, unit := u, tier := tier } }

/-- The job's references on units are dropped, in one tier or in every tier (R203). -/
def State.dropJobRefs (job id n : Nat) (tier : Option Nat) (us : List Nat) (s : State) : State :=
  s.dropRefs fun o r => o.id = id && r.who = .job job && r.ver = n && us.contains r.unit
    && (match tier with | some t => r.tier = t | none => true)

/-- PROMOTE or PIN into tiers 1 to 3: false while a promotion into DRAM finds no room. Into tier 2 beyond the limit of R357 the range
stays where it lies (R203 to R205, assumption log 47: DEDUCED, unsafe). -/
def State.promoteMove (job id n tier : Nat) (us : List Nat) (s : State) : Bool × State :=
  let room := tier ≠ 2 || s.tier2Units + us.length ≤ s.tier2Limit
  let r := if room then s.promoteUnits id n tier us else (true, s.cancelEvicts id n us)
  if r.1 then (true, r.2.takeRefs job id n tier us) else r

/-- EVICT: false while dirty pages of the range are still to be written back (R203, R204). -/
def State.evictMove (job id n tier : Nat) (us : List Nat) (s : State) : Bool × State :=
  let s := s.dropJobRefs job id n none us
  let dirty := s.evictPages (.job job) id n us
  if dirty.isEmpty then (true, us.foldl (fun t u => t.evictUnit (.job job) id n u tier) s) else (false, s.startWriteback dirty)

/-- A unit of a job's scratch goes to a tier; tier 1 is where it lies otherwise. -/
def Job.putScratch (tier : Nat) (j : Job) (u : Nat) : Job :=
  let rest := j.scratchAt.filter (·.1 ≠ u)
  { j with scratchAt := if tier = 1 then rest else rest ++ [(u, tier)] }

/-- The tier a unit of a job's scratch lies in. -/
def Job.scratchTier (j : Job) (u : Nat) : Nat := match j.scratchAt.find? (·.1 = u) with | some x => x.2 | none => 1

/-- A PRIVATE entry acts on the units of the job's scratch: PROMOTE and PIN move them up to the tier, EVICT down to it (R201, R203;
assumption log 169: DEDUCED, safe). -/
def Job.moveScratch (p : PlaceEntry) (j : Job) : Job :=
  let go := fun u => if p.op = 1 then j.scratchTier u < p.tier else (p.op = 0 || p.op = 2) && p.tier < j.scratchTier u
  ((unitsOf p.offset p.length).filter go).foldl (Job.putScratch p.tier) j

/-- One placement entry carried out; false while it cannot be, and then only room for it is under way (R201, R203, R205). -/
def State.carryOut (j : Job) (p : PlaceEntry) (s : State) : Bool × State :=
  if (p.op = 0 || p.op = 2) && p.tier = 0 then (true, s.placeTier0 j.id j.physList p)
  else if p.priv then (true, s.updJob j.id (Job.moveScratch p))
  else match j.moveUnits p with
    | none => (true, s)
    | some m =>
      match p.op with
      | 1 => s.evictMove j.id m.1 m.2.1 p.tier m.2.2
      | 3 => (true, s.dropJobRefs j.id m.1 m.2.1 (some p.tier) m.2.2)
      | _ => s.promoteMove j.id m.1 m.2.1 p.tier m.2.2

/-- Threads held by moves with WAIT go on once none is left (R201). -/
def Job.unhold (j : Job) : Job :=
  if j.moves.any fun m => m.entry.wait then j
  else
    let go := fun t : Thread => match t.st with | .barrier _ => { t with st := .ready } | _ => t
    { j with clusters := j.clusters.map fun c => { c with threads := c.threads.map go } }

/-- The first move of a job is complete. -/
def State.finishMove (job : Nat) (s : State) : State :=
  match s.job? job with
  | none => s
  | some j =>
    let wait := match j.moves.head? with | some m => m.entry.wait | none => false
    let t := s.updJob job fun j =>
      let ms := match j.moves.drop 1 with | m :: ms => { m with since := s.bt } :: ms | [] => []
      let k := { j with moves := ms }
      if wait && j.state = .running then k.unhold else k
    t.checkPcs job

/-- PLACEMENT_MOVE_END: the first placement move of a job, or the move of an OBJECT_MOVE that waits, is carried out; a promotion
without room waits, and an eviction waits for its write-back (R200 to R205). -/
def execPlacementMoveEnd (owner : DmaOwner) (s : State) : Host.Outcome State Fault Refusal :=
  .next (match owner with
    | .job job => match s.job? job with
      | none => s
      | some j => match j.moves with
        | [] => s
        | m :: _ =>
          let r := s.carryOut j m.entry
          if r.1 then r.2.finishMove job else r.2
    | .slot id => match s.slot? id with
      | none => s
      | some c => match c.work with
        | .move since => (s.hostPromote c since).2
        | _ => s
    | .drive => s)

/-- A promotion gives up (R205). -/
def State.giveUp (s : State) : State := { s with tiers := { s.tiers with giveUps := sat16 (s.tiers.giveUps + 1) } }

/-- PROMOTE_WAIT_EXPIRY: a promotion into DRAM has waited `TIR_PROMOTE_WAIT` and completes without copying (R205). -/
def execPromoteWaitExpiry (owner : DmaOwner) (s : State) : Host.Outcome State Fault Refusal :=
  .next (match owner with
    | .job job => match s.job? job with
      | none => s
      | some j => match j.moves with
        | [] => s
        | m :: _ =>
          if (m.entry.op = 0 || m.entry.op = 2) && m.entry.tier = 1 && s.elapsed m.since s.tiers.promoteWait
              && !(s.carryOut j m.entry).1 then s.giveUp.finishMove job
          else s
    | .slot id => match s.slot? id with
      | none => s
      | some c => match c.work with
        | .move since =>
          if s.elapsed since s.tiers.promoteWait && !(s.hostPromote c since).1 then s.giveUp.done id 0 else s
        | _ => s
    | .drive => s)

/-! ### Slices, charging, the watchdog and waits (R161, R166, R167, R169, R174, R175) -/

/-- The threads of a job are held at a barrier by a placement move with WAIT (R174). -/
def Job.held (j : Job) : Bool := j.moves.any fun m => m.entry.wait

/-- Who uses the AON timer from the next BT boundary on: the holdover limit while the time base is HOLDOVER, the self-test's yield limit at
all other times (R477). -/
def State.aonUser (s : State) : AonUser := if s.beacon.state = .holdover then .holdover else .selfTest

/-- POST_CHARGE: `n` BT boundaries pass; each running job's charge is posted, its watchdog advances, and a switch of the AON timer's user
takes effect (R160, R161, R174, R477). -/
def execPostCharge (n : Nat) (s : State) : Host.Outcome State Fault Refusal :=
  .next (
    let cyc := s.clk.cycle + 600 * n
    let rate := s.issueRate
    let t := (s.sched.jobs.filter fun j => j.state = .running).foldl (fun t j => t.chargeJob j.id cyc) s
    let tick := fun j : Job =>
      if j.state = .running && !j.held then { j with watchdog16 := j.watchdog16 + rate * n } else j
    { t with
      clk := { t.clk with cycle := cyc }, sched := { t.sched with jobs := t.sched.jobs.map tick }
      beacon := if n = 0 then t.beacon else { t.beacon with aon := s.aonUser } })

/-- SLICE_END: a job is marked when a waiting job's client has a lower v, otherwise a new full slice begins (R169, R179). -/
def execSliceEnd (job : Nat) (s : State) : Host.Outcome State Fault Refusal :=
  .next (
    match s.job? job with
    | none => s
    | some j =>
      if j.state ≠ .running || j.ending.isSome || j.marked || s.bt < j.sliceEnd then s
      else if s.waiting.any fun k => s.jobV k < s.jobV j then s.updJob job fun j => { j with marked := true }
      else s.updJob job fun j => { j with sliceEnd := s.bt + s.sched.sliceBt })

/-- SLICE_WATCHDOG: at 256 BT the job stops as after a trap, with no trap recorded, and is to complete with `JOB_FAULT`
(R175). -/
def execSliceWatchdog (job _cycle : Nat) (s : State) : Host.Outcome State Fault Refusal :=
  .next (
    match s.job? job with
    | none => s
    | some j =>
      if j.state ≠ .running || j.ending.isSome || j.watchdog16 < 256 * 16 then s
      else
        ((s.updJob job (Job.endWith .jobFault)).raise { faultOf 0x0D 4 with detail := j.client }).updClient j.client
          fun c => { c with wdog := sat32 (c.wdog + 1) })

/-- CLUSTER_WAIT_TIMEOUT: a waiting job whose clusters have been too few for 1,000,000 BT is to complete with `UNIT_CLOSED`
(R166). -/
def execClusterWaitTimeout (job : Nat) (s : State) : Host.Outcome State Fault Refusal :=
  .next (
    match s.job? job with
    | none => s
    | some j => match j.shortSince with
      | some t =>
        if j.state = .waiting && j.ending.isNone && s.elapsed t 1000000 then s.updJob job (Job.endWith .unitClosed) else s
      | none => s)

/-- The deadline of the command applies to a job of this kind before its first start (R167; not to a search's and an attend's,
R237, R269). -/
def JobKind.hasDeadline : JobKind → Bool
  | .run | .seal | .merge => true
  | .encode | .rerank | .attend | .distance => false

/-- JOB_DEADLINE: a job not yet started when its command's deadline passes is to complete with `DEADLINE_EXPIRED` (R167). -/
def execJobDeadline (job : Nat) (s : State) : Host.Outcome State Fault Refusal :=
  .next (
    match s.job? job with
    | none => s
    | some j => match s.slot? j.slot with
      | some c =>
        if j.state = .waiting && !j.started && j.ending.isNone && j.kind.hasDeadline
            && s.deadlinePassed c.entry c.fetchBt then s.updJob job (Job.endWith .deadlineExpired) else s
      | none => s)

end Sys2Proof.Machine
end

