-- ==== Sys2Proof/Machine/Stats.lean ====
section
/-! DEFINITION. What a job reports: the statistics record and the glint summaries (R155, Table 5-14). -/
namespace Sys2Proof.Machine

/-- Two summaries of one record added, the counters stopping at all ones, the larger PEAK kept (Table 3-6). -/
def Glint.merge (a b : Glint) : Glint :=
  { layer := a.layer, groups := sat32 (a.groups + b.groups), flat := sat32 (a.flat + b.flat)
    oobHigh := sat32 (a.oobHigh + b.oobHigh), oobLow := sat32 (a.oobLow + b.oobLow), sat := sat32 (a.sat + b.sat)
    nan := sat32 (a.nan + b.nan), peak := if a.peak.toNat < b.peak.toNat then b.peak else a.peak
    rerun := a.rerun || b.rerun, rerunOob := sat32 (a.rerunOob + b.rerunOob) }

/-- The job's summary of conversion record `i`, over every cluster it held. A job that holds no clusters now reports its
save's. -/
def Job.glintOf (j : Job) (i layer : Nat) : Glint :=
  let cs := if j.clusters.isEmpty then (match j.save with | some v => v.clusters | none => []) else j.clusters
  cs.foldl (fun g c => g.merge (c.glint.getD i { layer := layer })) { layer := layer }

/-- A glint summary of 40 bytes (R155). -/
def Glint.bytes (g : Glint) : Bytes :=
  leBytes 2 g.layer ++ leBytes 1 (bit01 g.rerun) ++ zeroBytes 1 ++ leBytes 4 g.groups ++ leBytes 4 g.flat
    ++ leBytes 4 g.oobHigh ++ leBytes 4 g.oobLow ++ leBytes 4 g.sat ++ leBytes 4 g.nan ++ leBytes 4 g.peak.toNat
    ++ leBytes 4 g.rerunOob ++ zeroBytes 4

/-- Conversion records of a job's image. -/
def Job.convs (j : Job) : List ConvRec := match j.image with | some g => g.convs | none => []

/-- Every glint summary, in record order. -/
def Job.glintBytes (j : Job) : Bytes := (j.convs.mapIdx fun i r => (j.glintOf i r.layer).bytes).flatten

/-- The statistics record (Table 5-14). -/
def Job.statsRecord (j : Job) : Bytes :=
  let t : TrapRec := j.trap.getD { cause := 0, thread := 0, cluster := 0, phys := 0, pc := 0, data := 0 }
  leBytes 2 1 ++ leBytes 2 j.convs.length ++ leBytes 4 (bit01 j.nan + 2 * bit01 j.accSat + 4 * bit01 j.trapped)
    ++ leBytes 8 j.cycles ++ leBytes 4 j.preemptions ++ leBytes 4 j.replays ++ leBytes 2 j.reruns ++ leBytes 2 j.lastPause
    ++ leBytes 2 j.need ++ zeroBytes 2 ++ leBytes 1 t.cause ++ leBytes 1 t.thread ++ leBytes 2 t.cluster ++ leBytes 2 t.phys
    ++ zeroBytes 2 ++ leBytes 4 t.pc ++ leBytes 8 t.data.toNat ++ zeroBytes 76

/-- The statistics record and the summaries together, as a chained job's are written (R236). -/
def Job.statsBytes (j : Job) : Bytes := j.statsRecord ++ j.glintBytes

/-- Bytes of the statistics record and summaries of an image. -/
def Image.statsSize (g : Image) : Nat := 128 + 40 * g.convs.length

/-- The bytes of the result region. -/
def Job.resultBytes (j : Job) : Bytes := match j.image with | some g => memRead j.result 0 g.resultBytes | none => []

/-- The status of a job that ended (R67, R155). -/
def Job.status (j : Job) : Status :=
  match j.ending with
  | some st => st
  | none => if j.reruns ≠ 0 then .widerRerun else .ok

end Sys2Proof.Machine
end

