-- ==== Sys2Proof/Machine/Folio.lean ====
section
/-! DEFINITION. The folio commands (R252 to R262, R268 to R270). -/
namespace Sys2Proof.Machine

/-! ### FOLIO_CREATE (R254, Table 9-2) -/

/-- The header of a FOLIO_CREATE's arguments. -/
def folioOfArgs (e : Bytes) : FolioHdr :=
  { layers := field e 44 2, heads := field e 46 1, kf := field e 50 1 % 16, vf := field e 50 1 / 16
    group := field e 51 1 % 4, enc := bitsAt (field e 51 1) 2 1, nan := false, dim := field e 48 2, blocks := field e 52 4
    tokens := 0 }

/-- FOLIO_CREATE, 0x58. -/
def State.specFolioCreate (s : State) (e : Bytes) : OpSpec :=
  let f := folioOfArgs e
  let ct := field e 47 1
  { result := true, reserved := [(56, 8)], bits4 := [(16 ≤ ct, 47), (8 ≤ field e 51 1, 51)]
    field5 := [(field e 40 4 = 0, 40), (s.classTierBad (ct % 4) (ct / 4 % 4), 47)
               , (f.dim % 32 ≠ 0 || (f.group ≠ 3 && f.dim % f.g ≠ 0), 48), (!indexFormat f.kf || !indexFormat f.vf, 50)
               , (f.group = 3, 51)]
    length6 := [(f.layers = 0 || 256 < f.layers, 44), (f.heads = 0 || 64 < f.heads, 46), (f.dim < 32 || 256 < f.dim, 48)
                , (f.blocks = 0 || 65536 < f.blocks, 52), (field e 28 4 < 16, 28)]
    objects := [(s.idHeld (field e 40 4), .invalidField, 40)] }

/-- FOLIO_CREATE carried out: its header page is a write like any other, admitted and acknowledged so (R188, R210, R253, R254). -/
def State.doFolioCreate (c : Slot) (s : State) : State :=
  let id := c.arg 40 4
  let f := folioOfArgs c.entry
  let tier := c.arg 47 1 / 4 % 4
  let durable := s.classOf 5 (c.arg 47 1 % 4) tier
  if s.idHeld id then s.fail c.id .invalidField 40
  else if 16777216 ≤ (s.tiers.objects.filter fun o => o.kind = 5).length then s.fail c.id .capacityExhausted 0
  else match s.createError 5 f.size tier durable with
    | some st => s.fail c.id st 0
    | none =>
      if durable && !s.admitsDirty 4096 then s.setWork c.id (.held 4096)
      else
        let t := (if durable then s.takeCredit 4096 else s).createObj id 5 tier f.size 1 durable false
        let t := t.writeVersion id 1 0 f.bytes
        match t.obj? id with
        | none => t.done c.id 0
        | some o => (t.writeResult c 0 (leBytes 8 o.base ++ leBytes 8 f.size)).ackWrite c.id o false (pageList id 1 0 4096) 0

/-- FOLIO_CREATE: the folio with its header and no tokens, version 1 CURRENT; BASE and SIZE are the result (R253, R254). -/
def execFolioCreate (slot : Nat) (s : State) : Host.Outcome State Fault Refusal :=
  .next (s.runCmd slot 0x58 true fun c => s.doFolioCreate c)

/-! ### Shared checks and order (R253, R261, R269) -/

/-- The folio version a command names. -/
def State.folio? (s : State) (e : Bytes) : Option Version := s.readable? (field e 40 4) 1

/-- The header of the folio a command names. -/
def State.folioHdrOf (s : State) (e : Bytes) : FolioHdr :=
  match s.folio? e with
  | some v => v.folioHdr
  | none => decodeFolio []

/-- The folio's version is held from admission. -/
def State.folioPins (s : State) (e : Bytes) : List (Nat × Nat) :=
  match s.folio? e with
  | some v => [(field e 40 4, v.num)]
  | none => []

/-- VERSION is 0 or 1. -/
def folioVersion (e : Bytes) : Bool × Nat := (1 < field e 44 2, 44)

/-- Attends and reloads executing in the attention service (R269). -/
def State.attendsRunning (s : State) : Nat :=
  (s.atr.slots.filter fun c => (c.opcode = 0x5A || c.opcode = 0x5B) && c.phase = .running).length

/-- Run a folio command on the version it holds. -/
def State.folioRun (c : Slot) (f : Nat → Nat → Version → State) (s : State) : State :=
  match c.pins with
  | [] => s.fail c.id .objectNotFound 0
  | p :: _ => match s.version? p.1 p.2 with
    | none => s.fail c.id .objectNotFound 0
    | some v => if v.impaired then s.fail c.id .objectImpaired 0 else f p.1 p.2 v

/-! ### FOLIO_APPEND (R258, R259) -/

/-- FOLIO_APPEND, 0x59. -/
def State.specFolioAppend (s : State) (e : Bytes) : OpSpec :=
  let f := s.folioHdrOf e
  let n := field e 48 4
  { data := true, reserved := [(46, 2), (52, 12)], field5 := [folioVersion e]
    length6 := [(n = 0 || 16384 < n, 48)]
    objects := s.kindChecks (field e 40 4) 5 1 ++ step8 [(field e 24 4 ≠ f.layers * f.heads * n * 4 * f.dim, .invalidLength, 24)]
    pins := s.folioPins e }

/-- Pages that an append writes, the header's page apart. -/
def FolioHdr.appendPages (f : FolioHdr) (id n count : Nat) : List (Nat × Nat × Nat) :=
  ((f.appendRanges count).flatMap fun r => pageList id n r.1 r.2).eraseDups

/-- Write a list of ranges of new content to a version. -/
def State.writeRanges (id n : Nat) (rs : List (Nat × Nat)) (m : Mem) (s : State) : State :=
  rs.foldl (fun t r => t.writeVersion id n r.1 (memRead m r.1 r.2)) s

/-- Write the tokens of an append. The header follows at once, or, where the folio is written through, once their pages are on
flash (R259). -/
def State.writeTokens (c : Slot) (o : Obj) (n : Nat) (v : Version) (ps : List (Nat × Nat × Nat)) (s : State) : State :=
  let f := v.folioHdr
  let count := c.arg 48 4
  let data := s.dataBytes c
  let last := f.tokens + count
  let t := s.writeRanges o.id n (f.appendRanges count) (f.appended count data v.data)
  if t.writesThrough o then t.awaitFlash c.id ps [] [] (t.journalsFirst o) last
  else
    let head : FolioHdr := { f with tokens := last, nan := f.nan || anyNanBf16 data }
    (t.writeVersion o.id n 0 (head.bytes.take 64)).ackWrite c.id o false ((o.id, n, 0) :: ps) last

/-- Append the tokens: held back where the durable dirty data is not admitted (R188, R210, R259). -/
def State.appendTokens (c : Slot) (s : State) : State :=
  match c.pins with
  | [] => s.fail c.id .objectNotFound 0
  | p :: _ => match s.tiers.objects.find? (·.id = p.1), s.version? p.1 p.2 with
    | some o, some v =>
      let ps := v.folioHdr.appendPages p.1 p.2 (c.arg 48 4)
      let n := 4096 * (ps.length + 1)
      if o.durable && !s.admitsDirty n then s.setWork c.id (.held n)
      else (if o.durable then s.takeCredit n else s).writeTokens c o p.2 v ps
    | _, _ => s.fail c.id .objectNotFound 0

/-- FOLIO_APPEND: tokens that fill no block are written at once; where blocks fill, a job of the client seals them first (R258,
R259, assumption log 50: DESIGN CHOICE, unsafe). -/
def execFolioAppend (slot : Nat) (s : State) : Host.Outcome State Fault Refusal :=
  .next (s.runCmd slot 0x59 false fun c => s.folioRun c fun id _ v =>
    let f := v.folioHdr
    let last := f.tokens + c.arg 48 4
    let durable := match s.tiers.objects.find? (·.id = id) with | some o => o.durable | none => false
    if 128 * f.blocks < last then s.fail slot .outOfRange 0
    else if durable && s.protected then s.fail slot .writeProtected 0
    else if last / 128 = f.tokens / 128 then s.appendTokens c
    else (s.admitJob c .seal 1 fun j => j).setWork slot (.folio last))

/-! ### FOLIO_TRUNCATE (R260) -/

/-- FOLIO_TRUNCATE, 0x5C. -/
def State.specFolioTruncate (s : State) (e : Bytes) : OpSpec :=
  { reserved := [(46, 2), (52, 12)], field5 := [folioVersion e, (field e 48 4 = 0, 48)]
    objects := s.kindChecks (field e 40 4) 5 1, pins := s.folioPins e }

/-- TOKENS falls. -/
def State.truncate (c : Slot) (s : State) : State :=
  match c.pins with
  | [] => s.fail c.id .objectNotFound 0
  | p :: _ => match s.tiers.objects.find? (·.id = p.1) with
    | none => s.fail c.id .objectNotFound 0
    | some o =>
      let n := c.arg 48 4
      if o.durable && !s.admitsDirty 4096 then s.setWork c.id (.held 4096)
      else
        let t := (if o.durable then s.takeCredit 4096 else s).writeVersion p.1 p.2 20 (leBytes 4 n)
        t.ackWrite c.id o false [(p.1, p.2, 0)] n

/-- FOLIO_TRUNCATE (R260). -/
def execFolioTruncate (slot : Nat) (s : State) : Host.Outcome State Fault Refusal :=
  .next (s.runCmd slot 0x5C false fun c => s.folioRun c fun id _ v =>
    let f := v.folioHdr
    let n := c.arg 48 4
    let durable := match s.tiers.objects.find? (·.id = id) with | some o => o.durable | none => false
    if n = 0 || f.tokens < n || (n % 128 ≠ 0 && n < f.tokens / 128 * 128) then s.fail slot .invalidField 48
    else if durable && s.protected then s.fail slot .writeProtected 0
    else s.truncate c)

/-! ### FOLIO_ATTEND (R262 to R266, R269) -/

/-- FOLIO_ATTEND, 0x5A. -/
def State.specFolioAttend (s : State) (e : Bytes) : OpSpec :=
  let f := s.folioHdrOf e
  let heads := field e 49 1
  let rows := field e 50 2
  let scale := field e 60 4
  { data := true, result := true
    field5 := [folioVersion e, (isNanF32 scale || (f32 scale).isZero, 60)]
    length6 := [(heads = 0 || 64 < heads, 49), (rows = 0 || 4096 < rows, 50), (field e 56 4 = 0, 56)]
    objects := s.kindChecks (field e 40 4) 5 1
      ++ step8 [(field e 24 4 ≠ heads * rows * f.dim * 2, .invalidLength, 24)
          , (field e 28 4 < heads * rows * (16 + 4 * f.dim), .invalidLength, 28)
          , (f.heads < field e 48 1 + heads, .invalidLength, 49), (f.layers ≤ field e 46 2, .invalidField, 46)]
    pins := s.folioPins e }

/-- What a range of tokens of a layer and head takes of the folio: its sealed blocks, and the open block where it reaches there. -/
def FolioHdr.rangesOf (f : FolioHdr) (l h start count : Nat) : List (Nat × Nat) :=
  let last := start + count
  let full := Nat.min (ceilDiv last 128) (f.tokens / 128)
  (if start / 128 < full then [(f.blockAt l h (start / 128), (full - start / 128) * f.blockBytes)] else [])
    ++ (if f.tokens / 128 * 128 < last then [(f.openAt l h 0, 512 * f.dim)] else [])

/-- Reads of ranges of a version count as accesses (R185). -/
def State.touchAll (id n : Nat) (rs : List (Nat × Nat)) (s : State) : State := rs.foldl (fun t r => t.touch id n r.1 r.2) s

/-- Layers and heads an attend or a reload reads. -/
def FolioHdr.parts (f : FolioHdr) (c : Slot) : List (Nat × Nat) :=
  if c.opcode = 0x5A then (List.range (c.arg 49 1)).map fun h => (c.arg 46 2, c.arg 48 1 + h)
  else (List.range (c.arg 48 2)).flatMap fun l => (List.range f.heads).map fun h => (c.arg 46 2 + l, h)

/-- What an attend or a reload reads of its folio. -/
def FolioHdr.reads (f : FolioHdr) (c : Slot) : List (Nat × Nat) :=
  (f.parts c).flatMap fun p => f.rangesOf p.1 p.2 (c.arg 52 4) (c.arg 56 4)

/-- The attend's blocks have been read; its cluster work runs as one job on `ATT_CLUSTERS` clusters (R262, R269). -/
def State.attendJob (c : Slot) (id n : Nat) (v : Version) (s : State) : State :=
  ((s.touchAll id n (v.folioHdr.reads c)).admitJob c .attend s.attention.clusters fun j => j).setWork c.id (.folio 0)

/-- FOLIO_ATTEND: the range is checked, and what lies on flash alone is read from its dies; at most 64 attends and reloads execute at
once (R262, R269; assumption log 101: DESIGN CHOICE, safe). -/
def execFolioAttend (slot : Nat) (s : State) : Host.Outcome State Fault Refusal :=
  .next (s.runCmd slot 0x5A true fun c => s.folioRun c fun id n v =>
    let f := v.folioHdr
    if f.tokens < c.arg 52 4 + c.arg 56 4 then s.fail slot .outOfRange 0
    else if 64 ≤ s.attendsRunning then s
    else
      let rs := s.flashReads id n (f.reads c)
      if rs.isEmpty then s.attendJob c id n v else s.startReads slot rs)

/-- The records of an attend, by KV head and then row (R265). -/
def FolioHdr.records (f : FolioHdr) (c : Slot) (data : Bytes) (m : Mem) : Bytes :=
  let rows := c.arg 50 2
  let scale := f32 (c.arg 60 4)
  (List.range (c.arg 49 1)).flatMap fun h =>
    let ts := f.tiles m (c.arg 46 2) (c.arg 48 1 + h) (c.arg 52 4) (c.arg 56 4)
    (List.range rows).flatMap fun r =>
      f.rowRecord ts scale (c.arg 56 4) (slice data ((h * rows + r) * 2 * f.dim) (2 * f.dim))

/-- The job of an append or an attend has ended: the append goes on, the attend writes its records; with another status the
command completes with it, and nothing else happens (R246, R258, R265, R546). -/
def State.folioJobEnd (c : Slot) (j : Job) (s : State) : State :=
  if j.status ≠ .ok then s.fail c.id j.status 0
  else match c.pins with
    | [] => s.fail c.id .objectNotFound 0
    | p :: _ => match s.version? p.1 p.2 with
      | none => s.fail c.id .objectNotFound 0
      | some v =>
        if v.impaired then s.fail c.id .objectImpaired 0
        else if j.kind = .seal then s.appendTokens c
        else (s.writeResult c 0 (v.folioHdr.records c (s.dataBytes c) v.data)).done c.id (c.arg 49 1 * c.arg 50 2)

/-! ### FOLIO_RELOAD (R268) -/

/-- FOLIO_RELOAD, 0x5B. -/
def State.specFolioReload (s : State) (e : Bytes) : OpSpec :=
  let f := s.folioHdrOf e
  let layers := field e 48 2
  let form := field e 50 1
  let n := field e 56 4
  let stored := form = 1
  { result := true, reserved := [(51, 1), (60, 4)]
    field5 := [folioVersion e, (1 < form, 50), (stored && field e 52 4 % 128 ≠ 0, 52), (stored && n % 128 ≠ 0, 56)]
    length6 := [(layers = 0, 48), (n = 0, 56)]
    objects := s.kindChecks (field e 40 4) 5 1
      ++ step8 [(f.layers < field e 46 2 + layers, .invalidLength, 48)
          , (field e 28 4 < layers * f.heads * (if stored then n / 128 * f.blockBytes else n * 4 * f.dim), .invalidLength, 28)]
    pins := s.folioPins e }

/-- A reload answers: the rows of the range in BF16, or its sealed blocks as they stand (R268). -/
def State.reload (c : Slot) (id n : Nat) (v : Version) (s : State) : State :=
  let f := v.folioHdr
  let start := c.arg 52 4
  let count := c.arg 56 4
  let out := (f.parts c).flatMap fun p =>
    if c.arg 50 1 = 1 then memRead v.data (f.blockAt p.1 p.2 (start / 128)) (count / 128 * f.blockBytes)
    else f.reloadRows v.data p.1 p.2 start count
  ((s.touchAll id n (f.reads c)).writeResult c 0 out).done c.id count

/-- The flash reads of an attend or a reload have ended. -/
def State.endFolioReads (c : Slot) (s : State) : State :=
  s.folioRun c fun id n v => if c.opcode = 0x5A then s.attendJob c id n v else s.reload c id n v

/-- FOLIO_RELOAD: the range is checked, and what lies on flash alone is read from its dies first (R268, R269). -/
def execFolioReload (slot : Nat) (s : State) : Host.Outcome State Fault Refusal :=
  .next (s.runCmd slot 0x5B true fun c => s.folioRun c fun id n v =>
    let f := v.folioHdr
    let start := c.arg 52 4
    let count := c.arg 56 4
    let stored := c.arg 50 1 = 1
    if f.tokens < start + count then s.fail slot .outOfRange 0
    else if stored && f.tokens / 128 * 128 < start + count then s.fail slot .invalidField 56
    else if 64 ≤ s.attendsRunning then s
    else
      let rs := s.flashReads id n (f.reads c)
      if rs.isEmpty then s.reload c id n v else s.startReads slot rs)

end Sys2Proof.Machine
end

