-- ==== Sys2Proof/Machine/Search.lean ====
section
/-! DEFINITION. The search commands: the search block and its checks, classes D and X, chained jobs and the query blocks (R233
to R246). -/
namespace Sys2Proof.Machine

/-! ### The search block (Table 8-10) -/

/-- The search block with its filter terms. -/
structure SearchBlock where
  nq : Nat
  k : Nat
  beam : Nat
  limit : Nat
  width : Nat
  flags : Nat
  nterms : Nat
  kernel : Nat
  asOf : Nat
  maxRounds : Nat
  rerankK : Nat
  encId : Nat
  encVer : Nat
  encClusters : Nat
  rrId : Nat
  rrVer : Nat
  rrClusters : Nat
  encLen : Nat
  rrLen : Nat
  terms : List Term
  deriving DecidableEq, Repr

/-- The search block at the start of a data buffer. -/
def decodeSearch (b : Bytes) : SearchBlock :=
  { nq := field b 0 2, k := field b 2 2, beam := field b 4 2, limit := field b 6 2, width := field b 8 1, flags := field b 9 1
    nterms := field b 10 1, kernel := field b 11 1, asOf := field b 12 4, maxRounds := field b 16 2, rerankK := field b 18 2
    encId := field b 20 4, encVer := field b 24 2, encClusters := field b 26 2, rrId := field b 28 4, rrVer := field b 32 2
    rrClusters := field b 34 2, encLen := field b 36 4, rrLen := field b 40 4
    terms := (List.range (field b 10 1)).map fun i => decodeTerm (slice b (64 + 16 * i) 16) }

def SearchBlock.hasAsOf (p : SearchBlock) : Bool := bitAt p.flags 0
def SearchBlock.encode (p : SearchBlock) : Bool := bitAt p.flags 1
def SearchBlock.rerank (p : SearchBlock) : Bool := bitAt p.flags 2
def SearchBlock.hasKernel (p : SearchBlock) : Bool := bitAt p.flags 3
def SearchBlock.filter (p : SearchBlock) : Bool := bitAt p.flags 4

/-- Records in a query block: RERANK_K with RERANK, K otherwise (R236). -/
def SearchBlock.slots (p : SearchBlock) : Nat := if p.rerank then p.rerankK else p.k

/-- Fields that the flags or the class leave unused are zero, and every other field that states no count is allowed. -/
def SearchBlock.fieldsOk (p : SearchBlock) (d : Bool) (b : Bytes) : Bool :=
  p.flags < 32 && allZero (slice b 44 20) && (p.hasAsOf || p.asOf = 0)
    && (p.encode || (p.encId = 0 && p.encVer = 0 && p.encClusters = 0 && p.encLen = 0))
    && (p.rerank || (p.rrId = 0 && p.rrVer = 0 && p.rrClusters = 0 && p.rrLen = 0 && p.rerankK = 0))
    && (p.hasKernel || p.kernel = 0) && p.kernel < 64 && (p.filter || p.nterms = 0)
    && (if d then !p.hasKernel else p.beam = 0 && p.limit = 0 && p.width = 0 && p.maxRounds = 0)
    && ((List.range p.nterms).all fun i => termOk (slice b (64 + 16 * i) 16))

/-- Count fields and lengths are in range, as far as no image says so (R10, R233, R542). -/
def SearchBlock.countsOk (p : SearchBlock) (d : Bool) : Bool :=
  let within := fun n lo hi => lo ≤ n && n ≤ hi
  within p.nq 1 256 && within p.k 1 4096
    && (!d || (within p.beam 1 1024 && within p.limit p.beam 1024 && within p.width 1 64 && within p.maxRounds 1 4096))
    && (!p.filter || within p.nterms 1 8) && (!p.rerank || (within p.rerankK 1 p.k && 1 ≤ p.rrClusters && 1 ≤ p.rrLen))
    && (!p.encode || (1 ≤ p.encClusters && 1 ≤ p.encLen))

/-- Where the parts of the data buffer lie: the bindings and input of the encoder, or the queries, from `enc`; those of the
reranker from `rr`; and the total (R233). -/
structure SearchLayout where
  enc : Nat
  rr : Nat
  total : Nat
  deriving DecidableEq, Repr

/-- The layout for an index stride and the SLOTS of the two images. -/
def SearchBlock.layout (p : SearchBlock) (stride encSlots rrSlots : Nat) : SearchLayout :=
  let a := 64 + 16 * p.nterms
  let b := a + (if p.encode then 8 * encSlots + p.encLen else p.nq * stride)
  { enc := a, rr := b, total := b + (if p.rerank then 8 * rrSlots + p.rrLen else 0) }

/-- An image and whether it is there. -/
def State.imageOr (s : State) (id n : Nat) : Option Image :=
  match s.readable? id n with
  | some v => v.image
  | none => none

/-- SLOTS of a named image. -/
def slotsOf (g : Option Image) : Nat := match g with | some g => g.slots | none => 0

/-- The check "named objects exist" for a chained image. -/
def State.chainNoObject (s : State) (used : Bool) (id : Nat) : Bool × Status × Nat :=
  (used && (s.obj? id).isNone, .objectNotFound, 0)

/-- The check "named versions current or pinned" for a chained image. -/
def State.chainNoVersion (s : State) (used : Bool) (id n : Nat) : Bool × Status × Nat :=
  (used && (s.readable? id n).isNone, .versionRetired, 0)

/-- Once a chained image has been found: it is a program image, and its clusters are in its range and below the grade's in service
(R244, R245). -/
def State.chainChecks (s : State) (used : Bool) (id n clusters : Nat) : List (Bool × Status × Nat) :=
  [(used && (s.imageOr id n).isNone, .invalidField, 16)
   , (used && (match s.imageOr id n with
       | some g => clusters < g.minClusters || g.maxClusters < clusters || s.grade.clustersInService < clusters
       | none => false), .invalidLength, 24)]

/-- PARAM_LEN and RESULT_BYTES of a chained image. -/
def sizeChecks (used : Bool) (g : Option Image) (params result : Nat) : List (Bool × Status × Nat) :=
  [(used && (match g with | some g => g.paramLen ≠ params || g.resultBytes < result | none => false), .invalidLength, 24)]

/-- The bindings of a chained image at an offset of the data buffer. -/
def chainBindings (used : Bool) (b : Bytes) (off n : Nat) : List (Nat × Nat × Bool × Bool) :=
  if used then bindingsOf (b.drop off) n else []

/-- Versions held for a chained image and its bindings. -/
def State.chainPins (s : State) (used : Bool) (id n : Nat) (b : Bytes) (off m : Nat) : List (Nat × Nat) :=
  if used then
    (match s.readable? id n with | some v => [(id, v.num)] | none => [])
      ++ (bindingsOf (b.drop off) m).filterMap fun x => match s.obj? x.1 with
        | some o => match o.named? x.2.1 with | some v => some (x.1, v.num) | none => none
        | none => none
  else []

/-- SEARCH_D, 0x42, and SEARCH_X, 0x43: class D where `d`. The search block lies in the data buffer: its fields are checked at step 5,
its counts and what they make of RESULT_LEN at step 6, and what rests on the index or an image at step 8 (R60, R233, R542; assumption
log 49: DEDUCED, unsafe). -/
def State.specSearch (s : State) (d : Bool) (e : Bytes) (refused : Bool) : OpSpec :=
  let id := field e 40 4
  let b := s.entryData e refused
  let look := 64 ≤ field e 24 4 && !(refused && bitAt (field e 1 1) 1)
  let p := decodeSearch b
  let v := s.readable? id (field e 44 2)
  let h : IndexHdr := match v with | some v => v.indexHdr | none => decodeIndexHdr []
  let eg := s.imageOr p.encId p.encVer
  let rg := s.imageOr p.rrId p.rrVer
  let lay := p.layout h.vecStride (slotsOf eg) (slotsOf rg)
  let stats := fun (used : Bool) (g : Option Image) => match g with | some g => if used then g.statsSize else 0 | none => 0
  let named : List (Bool × Status × Nat) :=
    [noObject s id, s.chainNoObject p.encode p.encId, s.chainNoObject p.rerank p.rrId
     , s.noVersion id (field e 44 2), s.chainNoVersion p.encode p.encId p.encVer, s.chainNoVersion p.rerank p.rrId p.rrVer
     , s.otherKind id 3 40]
  let blocks := p.nq * (32 + 16 * p.slots)
  let last : List (Bool × Status × Nat) :=
    [(decide (field e 28 4 < blocks + stats p.encode eg + stats p.rerank rg), .invalidLength, 28)
     , (d && !h.graph, .invalidField, 16)
     , ((s.kernelFor (if p.hasKernel then p.kernel else h.kernel) h.fmt).isNone, .invalidField, 16)
     , (p.filter && (!h.attrs || p.terms.any fun t => decide (h.attrBytes < t.off + t.width)), .invalidField, 16)
     , (p.hasAsOf && (match v with | some v => decide (v.index.committed < p.asOf) | none => false), .invalidField, 16)]
  { data := true, result := true, reserved := [(46, 18)]
    field5 := [(look && !p.fieldsOk d b, 16)]
    length6 := [(field e 24 4 < 64, 24), (look && !p.countsOk d, 24), (look && decide (field e 28 4 < blocks), 28)]
    objects := named ++ s.chainChecks p.encode p.encId p.encVer p.encClusters
      ++ s.chainChecks p.rerank p.rrId p.rrVer p.rrClusters
      ++ [(decide (field e 24 4 ≠ lay.total), .invalidLength, 24)]
      ++ sizeChecks p.encode eg p.encLen (p.nq * h.vecStride)
      ++ sizeChecks p.rerank rg (p.rrLen + p.nq * (8 + 8 * p.k)) (p.nq * p.k * 4) ++ last
      ++ s.bindChecks (chainBindings p.encode b lay.enc (slotsOf eg) ++ chainBindings p.rerank b lay.rr (slotsOf rg))
    pins := (match v with | some v => [(id, v.num)] | none => [])
      ++ s.chainPins p.encode p.encId p.encVer b lay.enc (slotsOf eg)
      ++ s.chainPins p.rerank p.rrId p.rrVer b lay.rr (slotsOf rg) }

/-- What a search holds from admission: its version and snapshot (R235). -/
def State.searchWork (s : State) (e : Bytes) (pins : List (Nat × Nat)) : Work :=
  let l := bufferSegs s.hostMem (bitAt (field e 1 1) 1) (field e 16 8) (field e 24 4)
  let p := decodeSearch (l.segs.flatMap fun x => memRead s.hostMem x.addr x.len)
  match pins with
  | [] => .none
  | q :: _ =>
    let at_ := match s.version? q.1 q.2 with | some v => v.index.committed | none => 0
    .search { snapshot := if p.hasAsOf then p.asOf else at_, ver := q.2 }

/-! ### Distances (R239, R241) -/

/-- What every step of a search uses: the version, its header, the kernel, the snapshot and the terms. -/
structure SearchCtx where
  ver : Version
  hdr : IndexHdr
  kernel : Kernel
  snap : Snap
  terms : List Term

/-- Key of a base node for a query. -/
def SearchCtx.nodeKey (x : SearchCtx) (q : List Nat) (n : Nat) : Key × Bool :=
  x.kernel.key x.hdr.fmt q (x.hdr.codes (x.ver.nodeVector x.hdr n))

/-- Key of an insert for a query. -/
def SearchCtx.insertKey (x : SearchCtx) (q : List Nat) (a : AccEntry) : Key × Bool :=
  x.kernel.key x.hdr.fmt q (x.hdr.codes a.vector)

/-- A base node is eligible: live in the snapshot and passing the filter (R235). -/
def SearchCtx.eligible (x : SearchCtx) (n : Nat) : Bool :=
  !x.snap.killed.contains n && passesAll x.terms (x.ver.nodeAttrs x.hdr n)

/-- State of a class D walk over nodes: keys evaluated, nodes expanded, the width, rounds, flags, whether a NaN was met. -/
structure Walk where
  evaluated : List (Key × Nat) := []
  expanded : List Nat := []
  width : Nat
  rounds : Nat := 0
  widened : Bool := false
  roundLimit : Bool := false
  evalLimit : Bool := false
  nan : Bool := false

/-- The limit on the base vectors a query evaluates (R239). -/
def evalMax : Nat := 262144

/-- Insert a node number in ascending order, once. -/
def insertNode (n : Nat) : List Nat → List Nat
  | [] => [n]
  | m :: ms => if n < m then n :: m :: ms else if n = m then m :: ms else m :: insertNode n ms

/-- Score new nodes, the lowest-numbered first, up to the limit. -/
def Walk.score (w : Walk) (key : Nat → Key × Bool) (new : List Nat) : Walk :=
  let fit := new.take (evalMax - w.evaluated.length)
  let ks := fit.map fun n => (key n, n)
  { w with evaluated := w.evaluated ++ ks.map (fun k => (k.1.1, k.2)), nan := w.nan || ks.any (fun k => k.1.2)
           evalLimit := decide (fit.length < new.length) }

/-- Walk the graph round by round (R239). `enough` says that what is evaluated answers the query. -/
def walk (key : Nat → Key × Bool) (next : Nat → List Nat) (enough : List (Key × Nat) → Bool)
    (perRound limit maxRounds : Nat) : Nat → Walk → Walk
  | 0, w => w
  | fuel + 1, w =>
    let beam := best w.evaluated w.width
    let frontier := ((beam.map (·.2)).filter fun n => !w.expanded.contains n).take perRound
    if frontier.isEmpty then
      if enough w.evaluated || w.width = limit then w
      else walk key next enough perRound limit maxRounds fuel
        { w with width := Nat.min (2 * w.width) limit, widened := true }
    else if w.rounds = maxRounds then { w with roundLimit := true }
    else
      let seen := w.evaluated.map (·.2)
      let new := ((frontier.flatMap next).filter fun m => !seen.contains m).foldl (fun acc m => insertNode m acc) []
      let w := ({ w with rounds := w.rounds + 1, expanded := w.expanded ++ frontier } : Walk).score key new
      if w.evalLimit then w else walk key next enough perRound limit maxRounds fuel w

/-- Candidates with vector IDs in place of node numbers. -/
def SearchCtx.asIds (x : SearchCtx) (l : List (Key × Nat)) : List (Key × Nat) := l.map fun c => (c.1, x.ver.nodeId x.hdr c.2)

/-- QFLAGS of Table 8-12, SHORT apart. -/
def queryFlags (widened roundLimit nan evalLimit : Bool) : Nat :=
  2 * bit01 widened + 4 * bit01 roundLimit + 8 * bit01 nan + 16 * bit01 evalLimit

/-- A query has a NaN code (R220). -/
def SearchCtx.nanQuery (x : SearchCtx) (q : List Nat) : Bool := q.any fun c => (elemValue x.hdr.fmt c).isNone

/-- `search_d` of R239. -/
def SearchCtx.classD (x : SearchCtx) (p : SearchBlock) (q : List Nat) : QueryState :=
  let ins := (x.snap.inserts.filter fun a => passesAll x.terms a.attrs).map fun a => (x.insertKey q a, a.id)
  let key := x.nodeKey q
  let start := (x.hdr.entries.foldl (fun acc m => insertNode m acc) [])
  let enough := fun l : List (Key × Nat) => p.k ≤ (l.filter fun c => x.eligible c.2).length + ins.length
  let w := walk key (x.ver.neighbours x.hdr) enough p.width p.limit p.maxRounds (p.maxRounds + 16)
    (({ width := p.beam } : Walk).score key start)
  let own := w.evaluated.filter fun c => x.eligible c.2
  { found := best (x.asIds own ++ ins.map fun c => (c.1.1, c.2)) p.k
    flags := queryFlags w.widened w.roundLimit (w.nan || x.nanQuery q || ins.any fun c => c.1.2) w.evalLimit
    rounds := w.rounds, beam := w.width, evaluated := w.evaluated.length, scanned := ins.length }

/-- Class X: every live vector is scored (R241). -/
def SearchCtx.classX (x : SearchCtx) (p : SearchBlock) (q : List Nat) : QueryState :=
  let nodes := ((List.range x.hdr.nodes).filter fun n => !x.snap.killed.contains n).map fun n => (x.nodeKey q n, n)
  let ins := x.snap.inserts.map fun a => (x.insertKey q a, a)
  let own := (nodes.filter fun c => x.eligible c.2).map fun c => (c.1.1, c.2)
  let new := (ins.filter fun c => passesAll x.terms c.2.attrs).map fun c => (c.1.1, c.2.id)
  { found := best (x.asIds own ++ new) p.k
    flags := queryFlags false false (x.nanQuery q || nodes.any (fun c => c.1.2) || ins.any fun c => c.1.2) false
    rounds := 0, beam := 0, evaluated := nodes.length, scanned := ins.length }

/-! ### Query blocks (R236, R237) -/

/-- KEY_TYPE without a reranker: that of the kernel's key. -/
def keyType (k : Kernel) (fmt : Nat) : Nat :=
  match k.fins.getLast? with
  | some w => if w.op = 0x18 then 1 else if intIndex fmt then 0 else 1
  | none => 0

/-- A query block: header and records. -/
def queryBlock (n snapshot ver typ : Nat) (r : QueryState) : Bytes :=
  leBytes 4 r.found.length ++ leBytes 4 snapshot ++ leBytes 2 ver ++ leBytes 1 typ
    ++ leBytes 1 (r.flags + bit01 (decide (r.found.length < n))) ++ leBytes 2 r.rounds ++ leBytes 2 r.beam
    ++ leBytes 8 r.evaluated ++ leBytes 4 r.scanned ++ zeroBytes 4
    ++ r.found.flatMap fun c => leBytes 8 c.2 ++ c.1.bytes

/-- The search ends without error: its query blocks, then the statistics of chained jobs, are written; it is short where a
query is (R236, R237, R246). -/
def State.finishSearch (c : Slot) (p : SearchBlock) (w : SearchWork) (typ : Nat) (s : State) : State :=
  let n := p.slots
  let block := fun i : Nat => i * (32 + 16 * n)
  let t := (w.results.mapIdx fun i r => (i, r)).foldl
    (fun t ir => t.writeResult c (block ir.1) (queryBlock n w.snapshot w.ver typ ir.2)) s
  let t := t.writeResult c (block p.nq) w.stats
  let total := (w.results.map fun r => r.found.length).foldl (· + ·) 0
  let short := w.results.any fun r => r.found.length < n
  t.finish c.id (okStatus short false w.rerun) total (infoBits short false w.rerun)

/-- The search ends with the status of a chained job: no query block is written, and the statistics records are (R246,
R546); the INFO bits stand whatever the status (R67). -/
def State.failSearch (c : Slot) (p : SearchBlock) (w : SearchWork) (st : Status) (s : State) : State :=
  (s.writeResult c (p.nq * (32 + 16 * p.slots)) w.stats).finish c.id st 0 (infoBits false false w.rerun)

/-! ### Stages (R243 to R245) -/

/-- The search's version, header and kernel. -/
def State.searchCtx (s : State) (c : Slot) (p : SearchBlock) (w : SearchWork) : Option SearchCtx :=
  match s.version? (c.arg 40 4) w.ver with
  | none => none
  | some v =>
    let h := v.indexHdr
    match s.kernelFor (if p.hasKernel then p.kernel else h.kernel) h.fmt with
    | none => none
    | some k => some { ver := v, hdr := h, kernel := k, snap := v.snap w.snapshot, terms := if p.filter then p.terms else [] }

/-- Split the pins of a search: the index, the encoder with its bindings, the reranker with its bindings. -/
def State.searchPins (s : State) (c : Slot) (p : SearchBlock) : List (Nat × Nat) × List (Nat × Nat) :=
  let rest := c.pins.drop 1
  let slots := fun l : List (Nat × Nat) => match l with | q :: _ => slotsOf (s.image? q.1 q.2) | [] => 0
  if p.encode then (rest.take (1 + slots rest), rest.drop (1 + slots rest)) else ([], rest)

/-- Admit a chained job: its image and bindings are those held, its WRITE bits those of the data buffer (R244, R245). -/
def State.admitChained (c : Slot) (kind : JobKind) (clusters : Nat) (pins : List (Nat × Nat)) (b params : Bytes)
    (s : State) : State :=
  match pins with
  | [] => s
  | q :: bound => match s.image? q.1 q.2 with
    | none => s
    | some g =>
      let bs := (bound.zip (bindingsOf b g.slots)).map fun x : (Nat × Nat) × (Nat × Nat × Bool × Bool) =>
        ({ obj := x.1.1, ver := x.1.2, write := x.2.2.2.1 } : Binding)
      s.admitJob c kind clusters (Job.withProgram q.1 q.2 g bs params)

/-- The reranker's parameters (R245). -/
def rerankParams (p : SearchBlock) (input : Bytes) (rs : List QueryState) : Bytes :=
  input ++ rs.flatMap fun r =>
    leBytes 4 r.found.length ++ zeroBytes 4
      ++ (List.range p.k).flatMap fun i => leBytes 8 (match r.found[i]? with | some c => c.2 | none => 0)

/-- Every query's candidates are known: the reranker job, or the result (R245). -/
def State.searchScored (c : Slot) (b : Bytes) (p : SearchBlock) (x : SearchCtx) (w : SearchWork) (s : State) : State :=
  if p.rerank then
    let pins := (s.searchPins c p).2
    let slots := match pins with | q :: _ => slotsOf (s.image? q.1 q.2) | [] => 0
    let encSlots := match (s.searchPins c p).1 with | q :: _ => slotsOf (s.image? q.1 q.2) | [] => 0
    let at_ := (p.layout x.hdr.vecStride encSlots slots).rr
    (s.admitChained c .rerank p.rrClusters pins (b.drop at_)
      (rerankParams p (slice b (at_ + 8 * slots) p.rrLen) w.results)).setWork c.id (.search { w with stage := 2 })
  else s.finishSearch c p w (keyType x.kernel x.hdr.fmt)

/-- Compute the candidates of every query and go on (R239, R241). -/
def State.searchRun (c : Slot) (b : Bytes) (w : SearchWork) (s : State) : State :=
  let p := decodeSearch b
  match s.searchCtx c p w with
  | none => s.failSearch c p w .objectImpaired
  | some x =>
    if x.ver.impaired then s.failSearch c p w .objectImpaired
    else
      let one := fun q : Bytes => if c.opcode = 0x42 then x.classD p (x.hdr.codes q) else x.classX p (x.hdr.codes q)
      s.searchScored c b p x { w with results := w.queries.map one }

/-- The queries are known: on the grades with distance units they are answered now, on the E grade by a job of the client
(R242, R243; assumption log 50: DESIGN CHOICE, unsafe). -/
def State.searchDistances (c : Slot) (b : Bytes) (w : SearchWork) (s : State) : State :=
  if s.grade.hasDistance then s.searchRun c b w
  else (s.admitJob c .distance 1 id).setWork c.id (.search { w with stage := 1 })

/-- Queries executing in the search service (R250). -/
def State.queriesRunning (s : State) : Nat :=
  (s.atr.slots.map fun c => match c.phase, c.work with
    | .running, .search _ => (decodeSearch (s.dataBytes c)).nq
    | _, _ => 0).foldl (· + ·) 0

/-- A search begins: its encoder job, or its own queries (R233, R244). While 512 queries execute it waits (R250). -/
def State.searchStart (c : Slot) (s : State) : State :=
  let b := s.dataBytes c
  let p := decodeSearch b
  if 512 < s.queriesRunning + p.nq then s
  else match c.work with
    | .search w =>
      match s.searchCtx c p w with
      | none => s.fail c.id .versionRetired 0
      | some x =>
        let stride := x.hdr.vecStride
        if p.encode then
          let pins := (s.searchPins c p).1
          let slots := match pins with | q :: _ => slotsOf (s.image? q.1 q.2) | [] => 0
          let at_ := (p.layout stride slots 0).enc
          (s.admitChained c .encode p.encClusters pins (b.drop at_) (slice b (at_ + 8 * slots) p.encLen)).setWork c.id
            (.search { w with stage := 0 })
        else
          let qs := (List.range p.nq).map fun i => slice b (64 + 16 * p.nterms + i * stride) stride
          s.searchDistances c b { w with queries := qs }
    | _ => s.fail c.id .versionRetired 0

/-- SEARCH_D: a deterministic graph search of an index snapshot for each query (R239). -/
def execSearchD (slot : Nat) (s : State) : Host.Outcome State Fault Refusal :=
  .next (s.runCmd slot 0x42 true fun c => s.searchStart c)

/-- SEARCH_X: every live vector of a snapshot is scored (R241). -/
def execSearchX (slot : Nat) (s : State) : Host.Outcome State Fault Refusal :=
  .next (s.runCmd slot 0x43 true fun c => s.searchStart c)

/-! ### Ends of a search's jobs (R244 to R246) -/

/-- A reranked query: score descending, then VECTOR_ID; the first RERANK_K are kept with their scores as keys. A code that reads as NaN,
an infinity's among them, counts as zero (R77, R245). -/
def rerankQuery (p : SearchBlock) (region : Bytes) (i : Nat) (r : QueryState) : QueryState :=
  let score := fun n : Nat =>
    let w := field region ((i * p.k + n) * 4) 4
    if isNanF32 w then 0 else w
  let neg := r.found.mapIdx fun n c =>
    let w := score n
    (Key.fp (BitVec.ofNat 32 (if w < 2 ^ 31 then w + 2 ^ 31 else w - 2 ^ 31)), c.2)
  let back := fun c : Key × Nat => match c.1 with
    | .fp w => (Key.fp (w ^^^ 0x80000000), c.2)
    | k => (k, c.2)
  { r with found := (best neg p.rerankK).map back }

/-- A job of a search has ended with its status: the search goes on to its next stage, or ends (R244 to R246, R546). -/
def State.searchJobEnd (c : Slot) (j : Job) (w : SearchWork) (s : State) : State :=
  let b := s.dataBytes c
  let p := decodeSearch b
  let chained := j.kind ≠ .distance
  let w := { w with stats := if chained then w.stats ++ j.statsBytes else w.stats
                    rerun := w.rerun || (chained && j.reruns ≠ 0) }
  if j.status ≠ .ok && j.status ≠ .widerRerun then s.failSearch c p w j.status
  else match j.kind with
    | .encode =>
      let stride := match s.searchCtx c p w with | some x => x.hdr.vecStride | none => 0
      let qs := (List.range p.nq).map fun i => slice j.resultBytes (i * stride) stride
      s.searchDistances c b { w with queries := qs }
    | .rerank =>
      s.finishSearch c p { w with results := w.results.mapIdx (rerankQuery p j.resultBytes) } 2
    | _ => s.searchRun c b w

end Sys2Proof.Machine
end

