-- ==== Sys2Proof/Machine/Merge.lean ====
section
/-! DEFINITION. ACCESSION_MERGE: the merged graph, the version built from it, and the commit (R247 to R249). -/
namespace Sys2Proof.Machine

/-- A live vector of a snapshot: its ID, attributes and vector record, and its node where it survives from the base. -/
structure LiveVec where
  id : Nat
  attrs : Bytes
  vector : Bytes
  node : Option Nat
  deriving DecidableEq, Repr

/-- Insert in VECTOR_ID order. -/
def insertLive (x : LiveVec) : List LiveVec → List LiveVec
  | [] => [x]
  | y :: ys => if x.id < y.id then x :: y :: ys else y :: insertLive x ys

/-- The live vectors of a snapshot in ascending VECTOR_ID: survivors and inserts. Vector `i` becomes node `i` (R218, R247). -/
def Version.liveVectors (v : Version) (z : Snap) : List LiveVec :=
  let h := v.indexHdr
  let base := ((List.range h.nodes).filter fun n => !z.killed.contains n).map fun n =>
    ({ id := v.nodeId h n, attrs := v.nodeAttrs h n, vector := v.nodeVector h n, node := some n } : LiveVec)
  (z.inserts.map fun a => ({ id := a.id, attrs := a.attrs, vector := a.vector, node := none } : LiveVec)).foldl
    (fun l x => insertLive x l) base

/-- What a merge works on: the old version, its header, the kernel, the nodes killed, and the live vectors. -/
structure MergeCtx where
  ver : Version
  hdr : IndexHdr
  kernel : Kernel
  killed : List Nat
  live : List LiveVec

/-- The graph being built: the list of each vector, where it has one. -/
abbrev MergeGraph := List (Nat × List Nat)

/-- The list of a vector. -/
def MergeGraph.get (g : MergeGraph) (v : Nat) : List Nat :=
  match g.find? (·.1 = v) with
  | some x => x.2
  | none => []

/-- Give a vector a list. -/
def MergeGraph.put (g : MergeGraph) (v : Nat) (ms : List Nat) : MergeGraph := g.filter (·.1 ≠ v) ++ [(v, ms)]

/-- Key of a vector with another as the query (R247). -/
def MergeCtx.key (x : MergeCtx) (q m : Nat) : Key × Bool :=
  let code := fun i => x.hdr.codes (match x.live[i]? with | some v => v.vector | none => [])
  x.kernel.key x.hdr.fmt (code q) (code m)

/-- `best_for(v, s)`: by key with v as the query, then VECTOR_ID. -/
def MergeCtx.bestFor (x : MergeCtx) (v : Nat) (l : List Nat) : List Nat :=
  (best (l.eraseDups.map fun m => ((x.key v m).1, m)) l.length).map (·.2)

/-- The new number of a base node that survives. -/
def MergeCtx.renumber (x : MergeCtx) (n : Nat) : Option Nat := x.live.findIdx? fun v => v.node = some n

/-- Surviving neighbours of a base node, by their new numbers. -/
def MergeCtx.liveNeighbours (x : MergeCtx) (n : Nat) : List Nat :=
  (x.ver.neighbours x.hdr n).filterMap fun m => if x.killed.contains m then none else x.renumber m

/-- The repaired list of a survivor: its surviving neighbours, then the best surviving neighbours of those that died. -/
def MergeCtx.repair (x : MergeCtx) (v n : Nat) : List Nat :=
  let keep := x.liveNeighbours n
  let dead := (x.ver.neighbours x.hdr n).filter fun m => x.killed.contains m
  let fill := (dead.flatMap x.liveNeighbours).filter fun c => c ≠ v && !keep.contains c
  keep ++ (x.bestFor v fill).take (x.hdr.degree - keep.length)

/-- Entry nodes of the new version: a dead one is replaced, in turn, by its nearest surviving neighbour that is not an entry,
and dropped where it has none; without any, node 0 (R247). -/
def MergeCtx.entries (x : MergeCtx) : List Nat :=
  let alive := x.hdr.entries.filterMap fun n => if x.killed.contains n then none else x.renumber n
  let step := fun (acc : List Nat) (n : Nat) =>
    if !x.killed.contains n then (match x.renumber n with | some m => acc ++ [m] | none => acc)
    else
      let q := x.hdr.codes (x.ver.nodeVector x.hdr n)
      let dist := fun m : Nat =>
        (x.kernel.key x.hdr.fmt q (x.hdr.codes (match x.live[m]? with | some v => v.vector | none => []))).1
      let cand := (x.liveNeighbours n).filter fun m => !alive.contains m && !acc.contains m
      acc ++ (best (cand.map fun m => (dist m, m)) 1).map (·.2)
  match x.hdr.entries.foldl step [] with
  | [] => [0]
  | es => es

/-- `search_d_graph`: the walk of R239 over the graph as it stands, with v as the query and v itself left out. -/
def MergeCtx.place (x : MergeCtx) (g : MergeGraph) (entries : List Nat) (v : Nat) : List Nat :=
  let key := x.key v
  let start := ((entries.filter fun n => n ≠ v).foldl (fun acc m => insertNode m acc) [])
  let next := fun n => (g.get n).filter fun m => m ≠ v
  let rounds := x.live.length + 1
  let w := walk key next (fun _ => true) 8 x.hdr.beam rounds rounds
    (({ width := x.hdr.beam } : Walk).score key start)
  (best w.evaluated x.hdr.degree).map (·.2)

/-- Place a vector: its own list, and back-edges kept to DEGREE in the order of each owner. -/
def MergeCtx.link (x : MergeCtx) (entries : List Nat) (g : MergeGraph) (v : Nat) : MergeGraph :=
  let ms := x.place g entries v
  let g := MergeGraph.put g v ms
  ms.foldl (fun g m =>
    if (g.get m).contains v then g
    else MergeGraph.put g m ((x.bestFor m (g.get m ++ [v])).take x.hdr.degree)) g

/-- `accession_merge`: the list of every live vector (R247). -/
def MergeCtx.graph (x : MergeCtx) : MergeGraph :=
  let vs := x.live.mapIdx fun i v => (i, v.node)
  let g : MergeGraph := vs.filterMap fun p => match p.2 with | some n => some (p.1, x.repair p.1 n) | none => none
  vs.foldl (fun g p => if p.2.isSome && (g.get p.1) ≠ [] then g else x.link x.entries g p.1) g

/-- Header of the merged version: the old one with NODES, region offsets and entries anew; its regions follow one another from
16,384 (assumption log 51: DESIGN CHOICE, unsafe). -/
def IndexHdr.merged (h : IndexHdr) (n : Nat) (entries : List Nat) : IndexHdr :=
  let vec := regionBytes h.vecStride n
  let label := regionBytes h.labelStride n
  { h with
    nodes := n, vecOff := 16384, labelOff := 16384 + vec, graphOff := if h.graph then 16384 + vec + label else 0
    entryCount := entries.length, entries := entries }

/-- Bytes the regions of a header end at. -/
def IndexHdr.end_ (h : IndexHdr) : Nat := (h.regions.map fun r => r.1 + r.2).foldl Nat.max 0

/-- The header as its 4 KiB page. -/
def IndexHdr.bytes (h : IndexHdr) : Bytes :=
  fitBytes 4096 (leBytes 4 0x58444E49 ++ leBytes 2 1 ++ leBytes 1 h.fmt ++ leBytes 1 h.kernel ++ leBytes 2 h.dim
    ++ leBytes 1 (bit01 h.graph + 2 * bit01 h.attrs) ++ leBytes 1 h.attrBytes ++ leBytes 1 h.degree
    ++ leBytes 1 h.entryCount ++ leBytes 2 h.beam ++ leBytes 8 h.nodes ++ leBytes 8 h.vecOff ++ leBytes 8 h.labelOff
    ++ leBytes 8 h.graphOff ++ zeroBytes 16 ++ h.entries.flatMap (leBytes 8))

/-- Write the records of a region. -/
def writeRecords (base stride : Nat) (rs : List Bytes) (m : Mem) : Mem :=
  (rs.mapIdx fun i b => (i, b)).foldl (fun m x => memWrite m (recordAt base stride x.1) (fitBytes stride x.2)) m

/-- A graph record. -/
def graphBytes (ms : List Nat) : Bytes := leBytes 2 ms.length ++ ms.flatMap (leBytes 5)

/-- The content of the merged version. -/
def MergeCtx.content (x : MergeCtx) : Mem :=
  let h := x.hdr.merged x.live.length (if x.hdr.graph then x.entries else [])
  let g := if h.graph then x.graph else []
  let m := memWrite [] 0 h.bytes
  let m := writeRecords h.vecOff h.vecStride (x.live.map (·.vector)) m
  let m := writeRecords h.labelOff h.labelStride (x.live.map fun v => leBytes 8 v.id ++ v.attrs) m
  if h.graph then
    writeRecords h.graphOff h.graphStride ((List.range x.live.length).map fun i => graphBytes (g.get i)) m
  else m

/-- ACCESSION_MERGE, 0x44. -/
def State.specAccessionMerge (s : State) (e : Bytes) : OpSpec :=
  let id := field e 40 4
  let n := field e 44 2
  let v := s.readable? id 0
  let few : List (Bool × Status × Nat) := match v with
    | some v => [(decide ((v.liveVectors (v.snap v.index.committed)).length < if v.indexHdr.graph then 2 else 1)
        , .invalidField, 40)]
    | none => []
  { reserved := [(46, 18)]
    objects := s.kindChecks id 3 0
      ++ (match s.obj? id with | some o => s.newVersionChecks o n o.size | none => []) ++ few
    pins := match v with | some v => [(id, v.num)] | none => [] }

/-- ACCESSION_MERGE begins: its snapshot is the committed sequence, NEW_VERSION is BUILDING, and the merge's work is a job of the
client (R247, R249, assumption log 50: DESIGN CHOICE, unsafe). -/
def State.startMerge (c : Slot) (o : Obj) (v : Version) (s : State) : State :=
  let n := c.arg 44 2
  let h := v.indexHdr
  let at_ := v.index.committed
  let live := (v.liveVectors (v.snap at_)).length
  match (s.newVersionChecks o n o.size).find? (·.1) with
  | some x => s.fail c.id x.2.1 x.2.2
  | none =>
    if v.impaired then s.fail c.id .objectImpaired 0
    else if live < (if h.graph then 2 else 1) then s.fail c.id .invalidField 40
    else if o.size < (h.merged live []).end_ then s.fail c.id .capacityExhausted 0
    else if o.durable && s.protected then s.fail c.id .writeProtected 0
    else
      let t := (s.newVersion o.id n).updObj o.id fun o => { o with merging := true }
      ((t.holdVersion c.id o.id n).admitJob c .merge 1 fun j => j).setWork c.id (.merge n at_ .working)

/-- ACCESSION_MERGE, of the version current at its admission, which it holds (R197, R247, R249; assumption log 171: DEDUCED, safe). -/
def execAccessionMerge (slot : Nat) (s : State) : Host.Outcome State Fault Refusal :=
  .next (s.runCmd slot 0x44 false fun c =>
    match s.obj? (c.arg 40 4), c.pins with
    | some o, p :: _ => match o.ver? p.2 with
      | none => s.fail slot .versionRetired 0
      | some v => if v.state ≠ .current then s.fail slot .versionRetired 0 else s.startMerge c o v
    | _, _ => s.fail slot .objectNotFound 0)

/-- The merge ends without its version: the BUILDING version is retired (R249). -/
def State.dropMerge (c : Slot) (newVer : Nat) (st : Status) (s : State) : State :=
  ((s.retire (c.arg 40 4) newVer).updObj (c.arg 40 4) fun o => { o with merging := false }).fail c.id st 0

/-- The new version of a merge is written, once its bytes are admitted to D, and goes to flash (R210, R247). -/
def State.writeMerge (c : Slot) (newVer snapshot : Nat) (s : State) : State :=
  let id := c.arg 40 4
  match s.obj? id, c.pins with
  | some o, q :: _ => match s.version? id q.2 with
    | none => s.dropMerge c newVer .versionRetired
    | some v =>
      let h := v.indexHdr
      match s.kernelFor h.kernel h.fmt with
      | none => s.dropMerge c newVer .invalidField
      | some k =>
        let z := v.snap snapshot
        let x : MergeCtx := { ver := v, hdr := h, kernel := k, killed := z.killed, live := v.liveVectors z }
        if v.impaired then s.dropMerge c newVer .objectImpaired
        else if o.durable && !s.admitsDirty o.size then s.setWork c.id (.merge newVer snapshot .held)
        else
          let t := if o.durable then s.takeCredit o.size else s
          let t := t.writeVersion id newVer 0 (memRead x.content 0 o.size)
          (t.startWriteback (pageList id newVer 0 o.size)).setWork c.id (.merge newVer snapshot .built)
  | _, _ => s.dropMerge c newVer .objectNotFound

/-- A merge that waited for admission goes on. -/
def State.goOnMerge (c : Slot) (s : State) : State :=
  match c.work with
  | .merge n at_ .held => s.writeMerge c n at_
  | _ => s

/-- The job of a merge has ended (R247). -/
def State.mergeJobEnd (c : Slot) (j : Job) (newVer snapshot : Nat) (s : State) : State :=
  if j.status ≠ .ok then s.dropMerge c newVer j.status else s.writeMerge c newVer snapshot

/-- Entries above the snapshot carried into the new version's list, numbered from 1 (R248). -/
def carried (v : Version) (snapshot : Nat) : List AccEntry :=
  (v.index.entries.filter fun a => snapshot < a.seq).mapIdx fun i a => { a with seq := i + 1 }

/-- The later entries move over, and the new version becomes CURRENT at once; the entries are a write like any other, admitted and
acknowledged so (R188, R197, R210, R211, R248). -/
def State.commitMerge (c : Slot) (o : Obj) (v w : Version) (snapshot : Nat) (s : State) : State :=
  let es := carried v snapshot
  let b := es.flatMap AccEntry.store
  let ps := pageList o.id w.num w.listBase b.length
  if o.durable && !s.admitsDirty (4096 * ps.length) then s
  else
    let t := if o.durable then s.takeCredit (4096 * ps.length) else s
    let t := t.updVer o.id w.num fun w => { w with index := { entries := es, committed := es.length } }
    let t := (t.writeVersion o.id w.num w.listBase b).commit o.id w.num
    let t := (t.updObj o.id fun o => { o with merging := false, lastCheck := 0, lastNode := 0 }).fitSlc
    match t.obj? o.id with
    | some o => t.ackWrite c.id o false ps 0
    | none => t.done c.id 0

/-- MERGE_COMMIT: the version is built and on flash, and no ACCESSION of the index is executing: the later entries move over,
and the new version becomes CURRENT (R248). -/
def execMergeCommit (slot : Nat) (s : State) : Host.Outcome State Fault Refusal :=
  .next (match s.slot? slot with
    | none => s
    | some c => match c.phase, c.work with
      | .running, .merge n at_ .built => match s.obj? (c.arg 40 4) with
        | none => s.dropMerge c n .objectNotFound
        | some o => match o.current?, o.ver? n with
          | some v, some w =>
            if o.accessing.isSome || !w.dirty.isEmpty then s
            else if w.impaired || !w.lost.isEmpty then s.dropMerge c n .objectImpaired
            else s.commitMerge c o v w at_
          | _, _ => s.dropMerge c n .versionRetired
      | _, _ => s)

end Sys2Proof.Machine
end

