-- ==== Sys2Proof/Machine/JobEnd.lean ====
section
/-! DEFINITION. The end of a job and what its command does then (R155, R246, R546, chapters 8 and 9). -/
namespace Sys2Proof.Machine

/-- A pass in flight can go no further: its next block is in no staging slot, and no stream can deliver it (R110, R147). -/
def Job.starved (j : Job) (c e : Nat) (g : Engine) (o : EngOp) : Bool :=
  o.kind = .pass && !o.stepsDone && (match j.streamFor? o.stream c e with
    | some t => (g.stagedOf? t).isNone && !j.canDeliver t
    | none => true)

/-- Nothing of a job is in flight. A job that is to end does not wait for passes that can go no further (R147, assumption log 53: DEDUCED,
unsafe). -/
def Job.settled (j : Job) : Bool :=
  j.xfers.isEmpty && (j.clusters.mapIdx fun c k => (k.engines.mapIdx fun e g =>
    g.ops.all fun o => j.ending.isSome && j.starved c e g o).all (· = true)).all (· = true)

/-- The job of a service runs no Jorern program, and has no threads to wait for. -/
def Job.noProgram (j : Job) : Bool := j.image.isNone

/-- Why a job can end now: the status it is to end with, or none for a normal end; none of the two while it goes on (R155, R166,
R167, R439, R468). -/
def Job.endNow (j : Job) : Option (Option Status) :=
  let stopped := match j.stop with
    | some .impaired => some Status.objectImpaired
    | some .shutdown => some Status.unitClosed
    | none => none
  match j.state with
  | .ended => none
  | .waiting => match j.ending, stopped with
    | some st, _ => some (some st)
    | none, some st => some (some st)
    | none, none => none
  | .running =>
    if !j.settled then none
    else match j.ending with
      | some st => some (some st)
      | none =>
        if j.noProgram then some stopped
        else if j.alive.isEmpty then some none else none

/-- Whether a job that ends has side effects to report: it has started, and a program of its own ran (R155, R166, R167). -/
def Job.reports (j : Job) : Bool := j.started && !j.noProgram

/-- A JOB_RUN's job has ended: the result region and the summaries are written, the statistics record last (R155). -/
def State.runJobEnd (c : Slot) (j : Job) (s : State) : State :=
  let n := match j.image with | some g => g.resultBytes | none => 0
  let t := if j.reports then
      ((s.writeResult c 0 j.resultBytes).writeResult c (n + 128) j.glintBytes).writeResult c n j.statsRecord else s
  t.finish c.id j.status 0 (infoBits false false (j.reruns ≠ 0))

/-- The command of a job that has ended goes on or completes (R155, R546). -/
def State.afterJob (j : Job) (s : State) : State :=
  match s.slot? j.slot with
  | none => s
  | some c => match j.kind, c.work with
    | .run, _ => s.runJobEnd c j
    | .seal, _ | .attend, _ => s.folioJobEnd c j
    | .merge, .merge n at_ _ => s.mergeJobEnd c j n at_
    | _, .search w => s.searchJobEnd c j w
    | _, _ => s

/-- The sync table with the counters of a job's grant as the job leaves them (R127). -/
def Job.leaveSync (j : Job) (table : List (List Word)) : List (List Word) :=
  (j.grant.mapIdx fun i b => (b, (j.sync.drop (64 * i)).take 64)).foldl (fun t x => t.set x.1 x.2) table

/-- JOB_END: a job whose threads have all exited with nothing in flight, or that is to end with an error and has nothing left in
flight, gives up its clusters, its references and its sync grant, and its command goes on (R127, R155, R160, R203). It waits while
no port can carry its records (R409). -/
def execJobEnd (job cycle : Nat) (s : State) : Host.Outcome State Fault Refusal :=
  .next (
    match s.job? job with
    | none => s
    | some j => match j.endNow, s.slot? j.slot with
      | some st, some c =>
        if !s.reachable (s.ringOf c.sq) then s
        else
          let j : Job := { j with
            ending := st, cycles := if j.state = .running then
                j.cycles + 4 * j.clusters.length * (s.cycleAt cycle - j.chargedTo) else j.cycles }
          let t := s.releaseClusters job (s.cycleAt cycle)
          let t := t.dropRefs fun _ r => r.who = .job job
          let t := if j.state = .waiting then t.endWait j else t
          let t : State := { t with sched := { t.sched with
            jobs := t.sched.jobs.filter (·.id ≠ job), syncTable := j.leaveSync t.sched.syncTable } }
          t.afterJob j
      | _, _ => s)

end Sys2Proof.Machine
end

