-- ==== Sys2Proof/Machine/Reduce.lean ====
section
/-! DEFINITION. Gradient reduction: domains, residual stores, rounds, and the packets of the tree (chapter 11). -/
namespace Sys2Proof.Machine

/-! ### Checks of the commands (Table 11-1, Table 11-2, Table 11-4) -/

/-- The domain in a slot. -/
def State.dom (s : State) (d : Nat) : Domain := s.domains.getD d {}

/-- Change a domain slot. -/
def State.updDom (d : Nat) (f : Domain → Domain) (s : State) : State :=
  { s with domains := updAt d f s.domains }

/-- A REDUCE naming the slot is admitted and not yet complete. -/
def State.reduceAdmitted (s : State) (d : Nat) : Bool :=
  s.atr.slots.any fun c => c.opcode = 0x63 && c.phase ≠ .done && c.arg 40 1 = d

/-- The reduction engine is not IN_SERVICE. -/
def State.reductionClosed (s : State) : Bool := !s.unitIs .reduction 0 .inService

/-- What every reduction opcode asks of the engine (R54, R28). -/
def State.reductionSpec (s : State) (sp : OpSpec) : OpSpec :=
  { sp with absent := !s.grade.hasReduction, closed := s.reductionClosed }

/-- Offset of the first node address that breaks the pattern of R296. -/
def nodePattern (e : Bytes) : List (Bool × Nat) :=
  let n := field e 42 2
  let r := field e 44 2
  [((field e 48 4 = 0) ≠ (r = 0), 48), ((field e 52 4 = 0) ≠ (n ≤ 2 * r + 1), 52),
   ((field e 56 4 = 0) ≠ (n ≤ 2 * r + 2), 56)]

/-- DOMAIN_SET, 0x60 (R295, R296). -/
def State.specDomainSet (s : State) (e : Bytes) : OpSpec :=
  let d := field e 40 1
  let n := field e 42 2
  let st := field e 60 4
  let twin := (List.range 4).any fun i => i ≠ d && (s.dom i).state ≠ .empty && (s.dom i).tag = field e 46 2
  s.reductionSpec
    { reserved := [(41, 1)]
      field5 := (decide (3 < d), 40) :: (decide (n ≤ field e 44 2), 44) :: (st < 1000 || 100000000 < st, 60) :: nodePattern e
      length6 := [(n < 2 || 4096 < n, 42)]
      objects := [((s.dom d).state ≠ .empty, .invalidField, 40), (twin, .invalidField, 46)] }

/-- DOMAIN_CLEAR, 0x61 (R295). -/
def State.specDomainClear (s : State) (e : Bytes) : OpSpec :=
  let d := field e 40 1
  s.reductionSpec
    { reserved := [(41, 23)], field5 := [(3 < d, 40)]
      objects := [((s.dom d).state = .reducing || (s.dom d).state = .stalled || s.reduceAdmitted d, .invalidField, 40)] }

/-- A signed 16-bit field. -/
def sfield16 (e : Bytes) (off : Nat) : Int := toInt 16 (field e off 2)

/-- RESIDUAL_CREATE, 0x62 (R297). -/
def State.specResidualCreate (s : State) (e : Bytes) : OpSpec :=
  let x := sfield16 e 52
  s.reductionSpec
    { result := true, reserved := [(44, 2), (47, 1), (54, 10)], bits4 := [(4 ≤ field e 46 1, 46)]
      field5 := [(field e 40 4 = 0, 40), (field e 46 1 = 3, 46), (x < -150 || 127 < x, 52)]
      length6 := [(field e 48 4 = 0 || 65536 < field e 48 4, 48), (field e 28 4 < 16, 28)]
      objects := [(s.idHeld (field e 40 4), .invalidField, 40)] }

/-- Bytes of an element in a form: 0 FP32, 1 BF16. -/
def formBytes (bf16 : Bool) : Nat := if bf16 then 2 else 4

/-- CHUNKS of a residual store. -/
def Version.resChunks (v : Version) : Nat := leNat (memRead v.data 8 4)

/-- REDUCE, 0x63 (R298, R299). -/
def State.specReduce (s : State) (e : Bytes) : OpSpec :=
  let d := field e 40 1
  let n := field e 42 2
  let k := field e 56 4
  let o := s.obj? (field e 44 4)
  let v := s.readable? (field e 44 4) 0
  let isStore := match o with | some o => o.kind = 6 | none => false
  let room := match v with | some v => field e 52 4 + n ≤ v.resChunks | none => true
  s.reductionSpec
    { data := true, result := true
      bits4 := [(4 ≤ field e 41 1, 41)]
      field5 := [(3 < d, 40)]
      length6 := [(n = 0 || 1024 < n, 42), (k = 0 || 65536 < k, 56)
                  , (field e 24 4 ≠ 65536 * n * formBytes (bitAt (field e 41 1) 0), 24)
                  , (field e 28 4 < 65536 * n * formBytes (bitAt (field e 41 1) 1) + 64, 28)]
      objects := [(o.isNone, .objectNotFound, 0), (v.isNone, .versionRetired, 0), (!isStore, .invalidField, 44)
                  , (!room, .outOfRange, 0), ((s.dom d).state = .empty, .invalidField, 40)
                  , ((s.dom d).nextRound ≠ field e 48 4, .invalidField, 48)]
      pins := match v with | some v => [(field e 44 4, v.num)] | none => [] }

/-- DOMAIN_QUERY, 0x64 (R313). -/
def State.specDomainQuery (s : State) (e : Bytes) : OpSpec :=
  s.reductionSpec
    { result := true, reserved := [(41, 23)], field5 := [(3 < field e 40 1, 40)], length6 := [(field e 28 4 < 64, 28)] }

/-! ### Domains and residual stores -/

/-- RES_OFFSET of a store of so many chunks (Table 11-3). -/
def resOffset (chunks : Nat) : Nat := 65536 + ceilDiv (2 * chunks) 65536 * 65536

/-- SIZE of a store (R297). -/
def resSize (chunks : Nat) : Nat := resOffset chunks + 262144 * chunks

/-- The header of Table 11-3, STATE CLEAN. -/
def resHeader (chunks lastRound : Nat) : Bytes :=
  leBytes 4 0x53455252 ++ leBytes 2 1 ++ [0, 0] ++ leBytes 4 chunks ++ leBytes 4 lastRound
    ++ leBytes 8 (resOffset chunks) ++ leBytes 8 (resSize chunks)

/-- RESIDUAL_CREATE carried out: the store with its header, its exponents at INIT_EXP and its residuals zero; what it writes is a write
like any other, admitted and acknowledged so (R188, R210, R297). -/
def State.doResidualCreate (c : Slot) (s : State) : State :=
  let id := c.arg 40 4
  let n := c.arg 48 4
  let durable := s.classOf 6 (c.arg 46 1) 3
  let ps := pageList id 1 0 32 ++ pageList id 1 65536 (2 * n)
  if s.idHeld id then s.fail c.id .invalidField 40
  else if s.reductionClosed then s.fail c.id .unitClosed 0
  else match s.createError 6 (resSize n) 3 durable with
    | some st => s.fail c.id st 0
    | none =>
      if durable && !s.admitsDirty (4096 * ps.length) then s.setWork c.id (.held (4096 * ps.length))
      else
        let t := (if durable then s.takeCredit (4096 * ps.length) else s).createObj id 6 3 (resSize n) 1 durable false
        let exps := (List.replicate n (leBytes 2 (c.arg 52 2))).flatten
        let t := (t.writeVersion id 1 0 (resHeader n 0)).writeVersion id 1 65536 exps
        match t.obj? id with
        | some o => (t.writeResult c 0 (leBytes 8 o.base ++ zeroBytes 8)).ackWrite c.id o false ps 0
        | none => t.done c.id 0

/-- RESIDUAL_CREATE (R297). -/
def execResidualCreate (slot : Nat) (s : State) : Host.Outcome State Fault Refusal :=
  .next (s.runCmd slot 0x62 true fun c => s.doResidualCreate c)

/-- The domain query record of Table 11-7. -/
def Domain.record (d : Domain) : Bytes :=
  let code := match d.state with | .empty => 0 | .ready => 1 | .reducing => 2 | .stalled => 3
  if d.state = .empty then zeroBytes 64
  else
    leBytes 1 code ++ [0] ++ leBytes 2 d.tag ++ leBytes 2 d.ranks ++ leBytes 2 d.rank ++ leBytes 4 d.nextRound
      ++ leBytes 4 d.parent ++ leBytes 4 d.left ++ leBytes 4 d.right ++ leBytes 4 d.roundsDone
      ++ leBytes 4 d.rereduced ++ leBytes 4 d.dupDrops ++ leBytes 4 d.mismatchDrops ++ leBytes 4 d.stalls
      ++ zeroBytes 20

/-- DOMAIN_QUERY (R313). -/
def execDomainQuery (slot : Nat) (s : State) : Host.Outcome State Fault Refusal :=
  .next (s.runCmd slot 0x64 true fun c =>
    (s.writeResult c 0 (s.dom (c.arg 40 1)).record).done slot 0)

/-- REDUCE reaches the engine and waits for its round to begin (R299). -/
def execReduce (slot : Nat) (s : State) : Host.Outcome State Fault Refusal :=
  .next (s.runCmd slot 0x63 false fun c => s.setWork slot (.reduce (c.arg 40 1) false))

/-! ### Arithmetic of a contribution (R300 to R302) -/

/-- Bits of a natural number. -/
def bitLen (n : Nat) : Nat := if n = 0 then 0 else Nat.log2 n + 1

/-- The smallest m for which v / 2^m, rounded towards zero, lies within the INT32 range without -2^31 (R300). -/
def fitMargin (v : Int) : Nat := bitLen v.natAbs - 31

/-- Saturate to plus or minus 2^31 - 1. -/
def satInt32 (v : Int) : Int := if 2147483647 < v then 2147483647 else if v < -2147483647 then -2147483647 else v

/-- Elements that are not zero, with their FP32 codes (R300). `g` and `r` are FP32 codes of gradient and residual. -/
def keptA : List Nat → List Nat → Nat → List (Nat × Word)
  | g :: gs, r :: rs, i =>
    let c := (roundF32 ((f32 g).add (f32 r))).1
    if c = 0 then keptA gs rs (i + 1) else (i, BitVec.ofNat 32 c) :: keptA gs rs (i + 1)
  | _, _, _ => []

/-- Magnitude order of R300: larger first, and the lower element first among equals. -/
def beforeA (x y : Nat × Word) : Bool :=
  let m := fun w : Word => w.toNat % 2 ^ 31
  m y.2 < m x.2 || (m x.2 = m y.2 && x.1 ≤ y.1)

/-- The elements chosen: the K of largest magnitude, in ascending order (R300). -/
def chooseT (k : Nat) (a : List (Nat × Word)) : List Nat :=
  (((a.mergeSort beforeA).take k).map (·.1)).mergeSort (· ≤ ·)

/-- The value of a kept element. -/
def valueA (a : List (Nat × Word)) (i : Nat) : Frac :=
  match a.find? (·.1 = i) with
  | some x => f32 x.2.toNat
  | none => Frac.zero

/-- A mantissa of a value against an exponent, before saturation (R300). -/
def mantissa (v : Frac) (e : Int) : Int := (v.mul (Frac.pow2 (-e))).roundEven

/-- A contribution at an exponent: entries to send, whether one saturated, and the margin (R300). -/
structure Contribution where
  entries : List (Nat × Int)
  overflowed : Bool
  margin : Nat
  deriving DecidableEq, Repr

/-- Quantise the chosen set at an exponent (R300). -/
def contribute (a : List (Nat × Word)) (chosen : List Nat) (e : Int) : Contribution :=
  let qs := chosen.map fun i => (i, mantissa (valueA a i) e)
  let m := (qs.map fun q => fitMargin q.2).foldl Nat.max 0
  { entries := (qs.filter (·.2 ≠ 0)).map fun q => (q.1, satInt32 q.2), overflowed := m ≠ 0, margin := m }

/-- Add one entry to words kept by rising element. -/
def addWord (i : Nat) (v : Int) : List (Nat × Int) → List (Nat × Int)
  | [] => [(i, v)]
  | w :: ws => if i < w.1 then (i, v) :: w :: ws else if i = w.1 then (i, w.2 + v) :: ws else w :: addWord i v ws

/-- Add entries (R301). -/
def addEntries (es : List (Nat × Int)) (ws : List (Nat × Int)) : List (Nat × Int) :=
  es.foldl (fun w e => addWord e.1 e.2 w) ws

/-- `node_out` of R301: the outgoing entries of a node with its flag and margin. -/
def nodeOut (p : Pass) : Contribution :=
  let ws := p.words.filter (·.2 ≠ 0)
  let m := (ws.map fun w => fitMargin w.2).foldl Nat.max p.margin
  { entries := ws.map fun w => (w.1, satInt32 w.2), overflowed := p.overflowed || ws.any fun w => fitMargin w.2 ≠ 0, margin := m }

/-- Every packet of the part has arrived. -/
def Arrived.whole (a : Arrived) : Bool := match a.count with | some n => n ≤ a.seen.length | none => false

/-- A part that has arrived whole. -/
def Arrived.full : Arrived := { seen := [], count := some 0 }

/-- A pass of a node with its own contribution added; a child that the tree lacks has no part (R301). -/
def Pass.own_ (d : Domain) (a : List (Nat × Word)) (chosen : List Nat) (e : Int) (p : Pass) : Pass :=
  let c := contribute a chosen e
  { p with
    exp := e, words := addEntries c.entries p.words, own := Arrived.full
    left := if d.left = 0 then Arrived.full else p.left
    right := if d.right = 0 then Arrived.full else p.right
    overflowed := p.overflowed || c.overflowed, margin := Nat.max p.margin c.margin }

/-! ### Packets (R306 to R308) -/

/-- Send a reduction packet of a domain slot, in order behind those that wait at its bound (R306, R308). -/
def State.sendRed (d dst : Nat) (k : RedPacket) (s : State) : State :=
  let x : TxPkt := { cls := 6, vc := 3 + d, dst := dst, len := 32 + 8 * k.entries.length, slots := redSlots k, red := some k }
  ({ s with link := { s.link with redWait := s.link.redWait ++ [x] } } : State).pumpRed

/-- The packets of one part: at most 256 entries each, one with none where there are none (R306). -/
def partPackets (base : RedPacket) (es : List (Nat × Int)) : List RedPacket :=
  let cs := if es.isEmpty then [[]] else chunksOf 256 (es.length + 1) es
  (cs.zip (List.range cs.length)).map fun c =>
    { base with entries := c.1, pktIndex := c.2, pktCount := cs.length }

/-- A packet of a round of the domain with what every packet of it carries (Table 11-5). -/
def redBase (d : Domain) (r : Round) (kind chunk : Nat) (pass2 : Bool) (e : Int) : RedPacket :=
  { tag := d.tag, kind := kind, overflow := false, pass2 := pass2, sender := d.rank, pktIndex := 0, pktCount := 1
    round := r.num, chunk := chunk, exp := e, margin := 0, k := r.k, chunkCount := r.chunkCount, entries := [] }

/-- Send packets to a node; nowhere where the tree has none. -/
def State.sendPart (d dst : Nat) (ks : List RedPacket) (s : State) : State :=
  if dst = 0 then s else ks.foldl (fun t k => t.sendRed d dst k) s

/-- Change the round of a domain. -/
def State.updRound (d : Nat) (f : Round → Round) (s : State) : State :=
  s.updDom d fun m => { m with round := m.round.map f }

/-- Change a chunk of the round. -/
def State.updChunk (d c : Nat) (f : Chunk → Chunk) (s : State) : State :=
  s.updRound d fun r => { r with chunks := updWhere (fun k => k.index = c) f r.chunks }

/-! ### Completion of chunks and rounds (R303, R304, R312) -/

/-- Mantissa of the sum of an element in the result, zero where the root sent none. -/
def entryOf (es : List (Nat × Int)) (i : Nat) : Int := match es.find? (·.1 = i) with | some e => e.2 | none => 0

/-- The result bytes of a chunk and whether one saturated (R303). -/
def chunkResult (bf16 : Bool) (k : Chunk) : Bytes × Bool :=
  let one := fun i =>
    let v := (Frac.ofInt (entryOf k.downEntries i)).mul (Frac.pow2 k.downExp)
    if bf16 then roundBf16 v else roundF32 v
  let cs := (List.range 65536).map one
  (cs.flatMap fun c => leBytes (formBytes bf16) c.1, cs.any (·.2))

/-- The new residuals of a chunk (R303). -/
def chunkResiduals (k : Chunk) : Bytes :=
  (List.range 65536).flatMap fun i =>
    let v := valueA k.a i
    if k.chosen.contains i then
      let q := satInt32 (mantissa v k.downExp)
      leBytes 4 (roundF32 (v.sub ((Frac.ofInt q).mul (Frac.pow2 k.downExp)))).1
    else match k.a.find? (·.1 = i) with
      | some x => leBytes 4 x.2.toNat
      | none => zeroBytes 4

/-- The chunk's next exponent (R303). -/
def nextExp (k : Chunk) : Int :=
  let b := bitLen ((k.downEntries.map fun e => e.2.natAbs).foldl Nat.max 0)
  if b = 0 then k.downExp
  else
    let x := k.downExp + b - 25
    if x < -150 then -150 else if 127 < x then 127 else x

/-- The reduction record of Table 11-6. -/
def Round.record (r : Round) (now : Nat) : Bytes :=
  let rr := (r.chunks.filter (·.rereduced)).length
  leBytes 4 r.num ++ leBytes 2 r.chunkCount ++ leBytes 2 rr ++ leBytes 4 (bit01 r.nan + 2 * bit01 r.outSat)
    ++ leBytes 4 (sat32 r.dupDrops) ++ leBytes 8 r.entriesSent ++ leBytes 8 r.entriesSummed ++ leBytes 4 r.startLow
    ++ leBytes 4 (now - r.startBt) ++ zeroBytes 24

/-- Write the residuals and next exponents of a completed round to its store (R304). -/
def State.storeRound (r : Round) (id n : Nat) (s : State) : State :=
  match s.version? id n with
  | none => s
  | some v =>
    let ro := resOffset v.resChunks
    r.chunks.foldl (fun t k =>
      (t.writeVersion id n (ro + 262144 * k.index) (chunkResiduals k)).writeVersion id n (65536 + 2 * k.index)
        (leBytes 2 (intTo 16 (nextExp k)))) s

/-- Pages of residuals and exponents a round's update changes. -/
def Round.dataPages (r : Round) (id n chunks : Nat) : List (Nat × Nat × Nat) :=
  (r.chunks.flatMap fun k =>
    pageList id n (65536 + 2 * k.index) 2 ++ pageList id n (resOffset chunks + 262144 * k.index) 262144).eraseDups

/-- Pages a round's update of its store changes, the header's among them. -/
def Round.pages (r : Round) (id n chunks : Nat) : List (Nat × Nat × Nat) :=
  (pageList id n 0 32 ++ r.dataPages id n chunks).eraseDups

/-- INFO bits of a REDUCE: those of the round it has begun (R67, R312). -/
def Round.info (r : Round) : Nat := infoBits false (r.chunks.any (·.rereduced)) false

/-- INFO bits of the REDUCE in a slot, whose round may not have begun. -/
def State.reduceInfo (s : State) (slot : Nat) : Nat :=
  match s.domains.find? fun m => match m.round with | some r => r.slot = slot | none => false with
  | some m => match m.round with | some r => r.info | none => 0
  | none => 0

/-- The reference of a domain's round is a reference on its store (R299). -/
def Holder.isRound : Holder → Bool
  | .round _ => true
  | _ => false

/-- The domain's round is over: its slot is READY and its reference on the store falls (R299, R203). -/
def State.leaveRound (d : Nat) (s : State) : State :=
  (s.updDom d fun m => { m with state := .ready, round := none }).dropRefs fun _ r => r.who = .round d

/-- Results and record are written and the REDUCE completes (R303, R312). -/
def State.completeRound (d : Nat) (s : State) : State :=
  match (s.dom d).round with
  | none => s
  | some r => match s.slot? r.slot with
    | none => s
    | some c =>
      let outs := r.chunks.map (chunkResult r.outBf16)
      let q := { r with outSat := outs.any (·.2) }
      let rr := (r.chunks.filter (·.rereduced)).length
      let t := (s.writeResult c 0 (outs.flatMap (·.1) ++ q.record s.bt)).leaveRound d
      let t := t.updDom d fun m => { m with
        lastDone := r.num, roundsDone := sat32 (m.roundsDone + 1), rereduced := sat32 (m.rereduced + rr) }
      t.finish c.id (okStatus false (rr ≠ 0) false) rr r.info

/-- One part of the update of a store that is written through is in DRAM: the round waits for its pages (R209, R304). -/
def State.awaitRound (d phase : Nat) (c : Slot) (ps : List (Nat × Nat × Nat)) (s : State) : State :=
  let j := match ps with
    | p :: _ => match s.tiers.objects.find? (·.id = p.1) with | some o => s.journalsFirst o | none => false
    | [] => false
  let t := s.updRound d fun r => { r with phase := phase }
  (t.startWriteback ps).setWork c.id (.flush { pages := ps, journal := j })

/-- The part of the update that was on its way is on flash, and the next follows: APPLYING, then residuals and exponents, then
LAST_ROUND, then CLEAN, and only then the completion (R304). -/
def State.roundStep (d : Nat) (s : State) : State :=
  match (s.dom d).round with
  | none => s
  | some r => match s.slot? r.slot with
    | none => s
    | some c =>
      let p := c.pins.headD (0, 0)
      let chunks := match s.version? p.1 p.2 with | some v => v.resChunks | none => 0
      let head := [(p.1, p.2, 0)]
      match r.phase with
      | 1 => (s.storeRound r p.1 p.2).awaitRound d 2 c (r.dataPages p.1 p.2 chunks)
      | 2 => (s.writeVersion p.1 p.2 12 (leBytes 4 r.num)).awaitRound d 3 c head
      | 3 => (s.writeVersion p.1 p.2 6 [0]).awaitRound d 4 c head
      | _ => s.completeRound d

/-- A round whose every chunk is complete updates its store: at once in DRAM, or part by part where the store is written through. A
durable store's pages are admitted under Table 7-8 first, and where results can not leave, or the pages are held back, the round
waits (R210, R304, R409). -/
def State.endRound (d : Nat) (s : State) : State :=
  match (s.dom d).round with
  | none => s
  | some r =>
    match s.slot? r.slot with
    | none => s
    | some c =>
      let p := c.pins.headD (0, 0)
      match s.tiers.objects.find? (·.id = p.1) with
      | none => s
      | some o =>
        let chunks := match o.ver? p.2 with | some v => v.resChunks | none => 0
        let ps := r.pages p.1 p.2 chunks
        let need := 4096 * (ps.filter fun p => !(s.stillDirty [p]).contains p).length
        if r.phase ≠ 0 || !(r.chunks.all (·.complete)) || !s.reachable (s.ringOf c.sq) || (o.durable && !s.admitsDirty need)
        then s
        else
          let t := if o.durable then s.takeCredit need else s
          if t.writesThrough o then (t.writeVersion p.1 p.2 6 [1]).awaitRound d 1 c [(p.1, p.2, 0)]
          else ((t.storeRound r p.1 p.2).writeVersion p.1 p.2 12 (leBytes 4 r.num)).completeRound d

/-- A chunk completes with the result that came down the tree (R303). -/
def State.finishChunk (d c : Nat) (es : List (Nat × Int)) (e : Int) (second : Bool) (s : State) : State :=
  (s.updChunk d c fun k =>
    { k with downEntries := es, downExp := e, rereduced := second, complete := true }).endRound d

/-- Entries of a rank's own contribution at an exponent, which its controllers add (R312). -/
def ownEntries (a : List (Nat × Word)) (chosen : List Nat) (e : Int) : Nat := (contribute a chosen e).entries.length

/-- The sums of a pass that a node has whole go on: to its parent, or at the root to a second pass or down the tree (R301
to R303). -/
def State.passDone (d c : Nat) (second : Bool) (s : State) : State :=
  let m := s.dom d
  match m.round with
  | none => s
  | some r =>
    match r.chunks.find? (·.index = c) with
    | none => s
    | some k =>
      match (if second then k.second else some k.first) with
      | none => s
      | some p =>
        if p.sent || !r.sending || !(p.own.whole && p.left.whole && p.right.whole) then s
        else
          let out := nodeOut p
          let mark := fun q : Pass => { q with sent := true }
          let t := s.updChunk d c fun k =>
            if second then { k with second := k.second.map mark } else { k with first := mark k.first }
          if m.rank ≠ 0 then
            let base := { redBase m r 0 c second p.exp with overflow := out.overflowed, margin := out.margin }
            (t.sendPart d m.parent (partPackets base out.entries)).updRound d fun r =>
              { r with entriesSent := r.entriesSent + out.entries.length }
          else if out.overflowed && !second then
            let l := if m.ranks ≤ 1 then 0 else Nat.log2 (m.ranks - 1) + 1
            let e2 : Int := p.exp + out.margin + l + 1
            let e2 := if 127 < e2 then 127 else e2
            let order := [redBase m r 1 c true e2]
            let t := (t.sendPart d m.left order).sendPart d m.right order
            (t.updRound d fun r => { r with entriesSummed := r.entriesSummed + ownEntries k.a k.chosen e2 }).updChunk d c
              fun k => { k with second := some (Pass.own_ m k.a k.chosen e2 ((k.second.getD { exp := e2 }))) }
          else
            let down := partPackets (redBase m r 2 c second p.exp) out.entries
            ((t.sendPart d m.left down).sendPart d m.right down).finishChunk d c out.entries p.exp second

/-- Carry on every pass of a chunk that can go on: the first pass, then the second. -/
def State.advanceChunk (d c : Nat) (s : State) : State :=
  ((s.passDone d c false).passDone d c true).passDone d c true

/-- Sending of a round begins: its tick is noted, and every chunk's first pass goes on (R299). -/
def State.sendRound (d : Nat) (s : State) : State :=
  let t := s.updRound d fun r =>
    { r with sending := true, startLow := s.epoch % 2 ^ 32, startBt := s.bt, lastPacket := s.bt }
  match (t.dom d).round with
  | none => t
  | some r => (r.chunks.map (·.index)).foldl (fun t c => t.advanceChunk d c) t

/-- The tick count has reached START_TICK; it is ignored while zero or while degraded timing is in force (R299). -/
def State.startDue (s : State) (start : Nat) : Bool :=
  start = 0 || s.timeDegraded || (s.epoch + 2 ^ 32 - start % 2 ^ 32) % 2 ^ 32 < 2 ^ 31

/-- Read one chunk's kept a, chosen set and first pass from the data buffer and the store (R300). -/
def makeChunk (m : Domain) (bf16 : Bool) (k idx : Nat) (grad res : Bytes) (e : Int) : Chunk × Bool :=
  let n := formBytes bf16
  let gs := (List.range 65536).map fun i => field grad (i * n) n
  let nan := gs.any fun c => if bf16 then isNanBf16 c else isNanF32 c
  let g32 := if bf16 then gs.map (· * 65536) else gs
  let rs := (List.range 65536).map fun i => field res (i * 4) 4
  let a := keptA g32 rs 0
  let t := chooseT k a
  ({ index := idx, exp := e, a := a, chosen := t, first := Pass.own_ m a t e { exp := e } }, nan)

/-- Chunks of work area that the rounds under way hold, and the area's 4,096 chunks of 768 KiB (R314). -/
def State.workChunks (s : State) : Nat :=
  (s.domains.map fun m => match m.round with | some r => r.chunkCount | none => 0).foldl (· + ·) 0

/-- An earlier REDUCE of the domain has not completed. -/
def State.earlierReduce (s : State) (d order : Nat) : Bool :=
  s.atr.slots.any fun c => c.opcode = 0x63 && c.phase ≠ .done && c.arg 40 1 = d && c.order < order

/-- The round of a command as it begins: each chunk's contribution is formed (R299, R300). -/
def State.makeRound (c : Slot) (m : Domain) (v : Version) (s : State) : Round :=
  let forms := c.arg 41 1
  let n := c.arg 42 2
  let first := c.arg 52 4
  let data := s.dataBytes c
  let size := 65536 * formBytes (bitAt forms 0)
  let made := (List.range n).map fun i =>
    makeChunk m (bitAt forms 0) (c.arg 56 4) (first + i) (slice data (i * size) size)
      (memRead v.data (resOffset v.resChunks + 262144 * (first + i)) 262144)
      (toInt 16 (leNat (memRead v.data (65536 + 2 * (first + i)) 2)))
  { num := c.arg 48 4, slot := c.id, residual := c.arg 44 4, chunkFirst := first, chunkCount := n, k := c.arg 56 4
    inBf16 := bitAt forms 0, outBf16 := bitAt forms 1, startTick := c.arg 60 4, chunks := made.map fun x => { x.1 with place := s.twoPlaces (x.1.index % s.grade.packages) }
    entriesSummed := (made.map fun x => ownEntries x.1.a x.1.chosen x.1.exp).foldl (· + ·) 0
    nan := made.any (·.2), startBt := s.bt, lastPacket := s.bt }

/-- START_TICK: the tick count reaches START_TICK and the round begins to send (R299). -/
def execStartTick (domain : Nat) (s : State) : Host.Outcome State Fault Refusal :=
  .next (match (s.dom domain).round with
    | none => s
    | some r => if r.sending || !s.startDue r.startTick then s else s.sendRound domain)

/-! ### Arriving packets (R302, R303, R307 to R310) -/

/-- Take one packet of a part into its bitmap: none for a duplicate (R307). -/
def Arrived.take (a : Arrived) (index count : Nat) : Option Arrived :=
  if a.seen.contains index then none else some { seen := index :: a.seen, count := some count }

/-- A duplicate is dropped and counted (R307). -/
def State.dupDrop (d : Nat) (s : State) : State :=
  (s.updDom d fun m => { m with dupDrops := sat32 (m.dupDrops + 1) }).updRound d fun r =>
    { r with dupDrops := r.dupDrops + 1 }

/-- A packet that disagrees with the round is dropped, counted and reported once a round (R309). -/
def State.mismatchDrop (d : Nat) (s : State) : State :=
  let t := s.updDom d fun m => { m with mismatchDrops := sat32 (m.mismatchDrops + 1) }
  match (s.dom d).round with
  | some r =>
    if r.mismatched then t
    else (t.updRound d fun r => { r with mismatched := true }).raise
      { faultOf 0x13 5 with location := d, detail := r.num }
  | none => t

/-- The part a packet's sender stands for: none when the tree gives the sender no such part (R296). -/
def senderPart (m : Domain) (k : RedPacket) : Option Bool :=
  if k.kind = 0 then
    (if m.left ≠ 0 && k.sender = 2 * m.rank + 1 then some false
     else if m.right ≠ 0 && k.sender = 2 * m.rank + 2 then some true else none)
  else if m.rank ≠ 0 && k.sender = (m.rank - 1) / 2 then some false else none

/-- A pass after one more packet of a child's part; none for a duplicate (R301, R307). -/
def Pass.take (p : Pass) (right : Bool) (k : RedPacket) : Option Pass :=
  match (if right then p.right else p.left).take k.pktIndex k.pktCount with
  | none => none
  | some a =>
    some { p with
      left := if right then p.left else a
      right := if right then a else p.right
      words := addEntries k.entries p.words
      overflowed := p.overflowed || k.overflow
      margin := if k.overflow then Nat.max p.margin k.margin else p.margin }

/-- An UP packet: added to its pass (R301). -/
def State.upPacket (d : Nat) (k : RedPacket) (ch : Chunk) (right : Bool) (s : State) : State :=
  match (if k.pass2 then ch.second else some ch.first) with
  | none => s.mismatchDrop d
  | some p => match p.take right k with
    | none => s.dupDrop d
    | some p =>
      let t := s.updChunk d k.chunk fun ch => if k.pass2 then { ch with second := some p } else { ch with first := p }
      (t.updRound d fun r => { r with entriesSummed := r.entriesSummed + k.entries.length }).advanceChunk d k.chunk

/-- A REPASS order: forwarded to the children; the kept set is quantised again at E' (R302). -/
def State.repassPacket (d : Nat) (k : RedPacket) (ch : Chunk) (s : State) : State :=
  match ch.repass.take k.pktIndex k.pktCount with
  | none => s.dupDrop d
  | some a =>
    let m := s.dom d
    let on := { k with sender := m.rank }
    let t := s.updChunk d k.chunk fun ch =>
      { ch with repass := a, second := some (Pass.own_ m ch.a ch.chosen k.exp (ch.second.getD { exp := k.exp })) }
    let t := t.updRound d fun r => { r with entriesSummed := r.entriesSummed + ownEntries ch.a ch.chosen k.exp }
    ((t.sendPart d m.left [on]).sendPart d m.right [on]).advanceChunk d k.chunk

/-- A DOWN packet: forwarded to the children; with the last of them the chunk completes (R303). -/
def State.downPacket (d : Nat) (k : RedPacket) (ch : Chunk) (s : State) : State :=
  match ch.down.take k.pktIndex k.pktCount with
  | none => s.dupDrop d
  | some a =>
    let m := s.dom d
    let on := { k with sender := m.rank }
    let es := addEntries k.entries ch.downEntries
    let t := s.updChunk d k.chunk fun ch => { ch with down := a, downEntries := es, downExp := k.exp }
    let t := (t.sendPart d m.left [on]).sendPart d m.right [on]
    if a.whole then t.finishChunk d k.chunk es k.exp k.pass2 else t

/-- A packet of a round that has completed here (R307). -/
def Domain.pastRound (m : Domain) (n : Nat) : Bool :=
  m.lastDone ≠ 0 && (m.lastDone + 2 ^ 32 - n) % 2 ^ 32 < 2 ^ 31

/-- The packet is taken now; one of a round that has not begun is held at the link under back-pressure (R308). -/
def State.redAccepted (s : State) (vc : Nat) (k : RedPacket) : Bool :=
  let m := s.dom (vc - 3)
  m.state = .empty || m.tag ≠ k.tag || m.pastRound k.round || match m.round with
    | some r => r.num = k.round
    | none => false

/-- Take a reduction packet that arrives on a port (R307 to R310). -/
def State.takeRed (port vc : Nat) (k : RedPacket) (s : State) : State :=
  let d := vc - 3
  let m := s.dom d
  if m.state = .empty || m.tag ≠ k.tag || !s.grade.hasReduction then
    s.updPort port fun p => { p with errPackets := sat32 (p.errPackets + 1) }
  else match m.round with
    | none => if m.pastRound k.round then s.dupDrop d else s
    | some r =>
      if r.num ≠ k.round then (if m.pastRound k.round then s.dupDrop d else s)
      else
        match senderPart m k, r.chunks.find? (·.index = k.chunk) with
        | some right, some ch =>
          if k.k ≠ r.k || k.chunkCount ≠ r.chunkCount || 2 < k.kind then s.mismatchDrop d
          else
            let t := s.updDom d fun m => { m with state := .reducing }
            let t := t.updRound d fun r => { r with lastPacket := s.bt }
            if ch.complete then t.dupDrop d
            else if k.kind = 0 then t.upPacket d k ch right
            else if k.kind = 1 then t.repassPacket d k ch
            else t.downPacket d k ch
        | _, _ => s.mismatchDrop d

/-- A reduction packet arrives on a port: it is taken, or held at the link until it can be (R308). -/
def State.arriveRed (port vc : Nat) (k : RedPacket) (s : State) : State :=
  if s.redAccepted vc k then s.takeRed port vc k else s.updPort port fun p => { p with held := p.held ++ [(vc, k)] }

/-- Packets held at the link are taken as soon as they can be, in the order they came (R308). -/
def State.deliverHeld (s : State) : State :=
  [0, 1].foldl (fun t p => ((t.port p).held).foldl (fun t k => t.arriveRed p k.1 k.2)
    (t.updPort p fun q => { q with held := [] })) s

/-- REDUCTION_PACKET: a packet arrives on virtual channel 3 + s. What it counts in `LNK_ERR_CNT` falls to the lowest port
in service. -/
def execReductionPacket (vc : Nat) (p : RedPacket) (s : State) : Host.Outcome State Fault Refusal :=
  .next (
    if vc < 3 || 6 < vc then s
    else if s.portUsable 0 then s.arriveRed 0 vc p
    else if s.portUsable 1 then s.arriveRed 1 vc p else s)

/-- DOMAIN_SET: an EMPTY slot becomes READY (R295). -/
def execDomainSet (slot : Nat) (s : State) : Host.Outcome State Fault Refusal :=
  .next (s.runCmd slot 0x60 false fun c =>
    let sp := s.specDomainSet c.entry
    match sp.objects.find? (·.1) with
    | some o => s.fail slot o.2.1 o.2.2
    | none =>
      if sp.closed then s.fail slot .unitClosed 0
      else (s.updDom (c.arg 40 1) fun _ =>
        { state := .ready, tag := c.arg 46 2, ranks := c.arg 42 2, rank := c.arg 44 2, parent := c.arg 48 4
          left := c.arg 52 4, right := c.arg 56 4, stallBt := c.arg 60 4, nextRound := 1 }).deliverHeld.done slot 0)

/-- DOMAIN_CLEAR: a READY slot becomes EMPTY (R295). -/
def execDomainClear (slot : Nat) (s : State) : Host.Outcome State Fault Refusal :=
  .next (s.runCmd slot 0x61 false fun c =>
    let sp := s.specDomainClear c.entry
    match sp.objects.find? (·.1) with
    | some o => s.fail slot o.2.1 o.2.2
    | none => (s.updDom (c.arg 40 1) fun _ => {}).deliverHeld.done slot 0)

/-- A round holds its residual store by reference, every unit of it in the tier of its home (R203, R299). -/
def State.holdStore (d id n : Nat) (s : State) : State :=
  s.updObj id fun o => match o.ver? n with
    | none => o
    | some v => { o with refs := o.refs ++ (List.range (ceilDiv v.size 65536)).map fun u =>
        { who := .round d, ver := n, unit := u, tier := o.tier } }

/-- ROUND_START: the round of a REDUCE begins when the previous round of its domain has completed, the engine takes new
work and the work area has room; it sends at once when START_TICK allows (R299, R314). -/
def execRoundStart (slot : Nat) (s : State) : Host.Outcome State Fault Refusal :=
  .next (match s.slot? slot with
    | none => s
    | some c => match c.work with
      | .reduce d false =>
        let m := s.dom d
        let pin := c.pins.headD (0, 0)
        match s.version? pin.1 pin.2 with
        | none => s
        | some v =>
          if s.still || m.round.isSome || s.earlierReduce d c.order || s.reductionClosed
              || 4096 < s.workChunks + c.arg 42 2 then s
          else
            let r := s.makeRound c m v
            let t := ((s.setWork slot (.reduce d true)).updDom d fun m => { m with state := .reducing, round := some r }).holdStore
              d pin.1 pin.2
            (if s.startDue r.startTick then t.sendRound d else t).deliverHeld
      | _ => s)

/-! ### Stalls and closure (R310, R311) -/

/-- Every REDUCE that has not completed completes with `UNIT_CLOSED` and the INFO bits of its round (R67, R311). -/
def State.endReduces (info : Nat → Nat) (s : State) : State :=
  (s.atr.slots.filter fun c => c.opcode = 0x63 && c.phase ≠ .done).foldl
    (fun t c => t.finish c.id .unitClosed 0 (info c.id)) s

/-- The reduction engine enters CLOSED: every REDUCE that has not completed completes with `UNIT_CLOSED`, the stores are
left, and every slot becomes EMPTY (R311). A store whose update a fault cut off stays APPLYING (R304; assumption log 166: DEDUCED,
safe). -/
def State.emptyDomains (s : State) : State :=
  let t : State := { s with domains := s.domains.map fun _ => {}, link := { s.link with redWait := [] } }
  ((t.dropRefs fun _ r => r.who.isRound).deliverHeld).endReduces s.reduceInfo

/-- Every round that executes stands STALLED, or none executes (R311). -/
def State.roundsStuck (s : State) : Bool := s.domains.all fun m => m.round.isNone || m.state = .stalled

/-- REDUCTION_STALL: a round has neither sent nor accepted a packet for STALL_BT; one record, and it keeps waiting. While the
engine is DRAINING and no other round can end, it can not drain and closes (R310, R311). -/
def execReductionStall (domain : Nat) (s : State) : Host.Outcome State Fault Refusal :=
  .next (
    let m := s.dom domain
    match m.round with
    | none => s
    | some r =>
      if m.state = .reducing && r.phase = 0 && s.elapsed r.lastPacket m.stallBt then
        let t := s.updDom domain fun m => { m with state := .stalled, stalls := sat32 (m.stalls + 1) }
        if t.unitIs .reduction 0 .draining && t.roundsStuck then
          let n := match t.unit? .reduction 0 with | some u => u.closure | none => 0
          (t.emptyDomains.closed .reduction 0).raise
            { faultUnit 0x13 2 .reduction 0 n with location := domain, detail := r.num }
        else t.raise { faultUnit 0x13 5 .reduction 0 0 with location := domain, detail := r.num }
      else s)

end Sys2Proof.Machine
end

