-- ==== Sys2Proof/Machine/UnitCmds.lean ====
section
/-! DEFINITION. The administration commands and the ends of draining and of return self-tests (R24 to R30, R463 to R467,
Table 1-11). -/
namespace Sys2Proof.Machine

/-! ### Naming a unit (Table 17-3) -/

/-- The unit UNIT names: by logical number for clusters and docent cores, else by physical number. -/
def State.namedUnit? (s : State) (k : UnitKind) (n : Nat) : Option SvcUnit :=
  if k = .cluster || k = .docent then s.logical? k n else s.unit? k n

/-- Numbers below this bound lie in the range of UNIT for a kind (Table 17-3); cluster and docent numbers have no other
bound than that of R28. -/
def unitBound (k : UnitKind) : Nat :=
  match k with
  | .cluster | .docent => 65536
  | .engine => 64
  | .dram => 12
  | .port => 2
  | .reduction => 1

/-- UNIT names a unit the grade lacks: a logical number at or above the in-service count, a DRAM controller that is not
fitted, the reduction engine of the S and E grades (R6, R13, R28). -/
def State.unitAbsent (s : State) (k : UnitKind) (n : Nat) : Bool :=
  match k with
  | .cluster => s.grade.clustersInService ≤ n
  | .docent => 12 ≤ n
  | .dram => s.grade.packages ≤ n && n < 12
  | .reduction => !s.grade.hasReduction
  | _ => false

/-- UNIT_CLOSE, 0x00 (R463). -/
def State.specUnitClose (s : State) (e : Bytes) : OpSpec :=
  let n := field e 42 2
  match kindOf (field e 40 1) with
  | none => { reserved := [(41, 1), (44, 20)], field5 := [(true, 40)] }
  | some k => { reserved := [(41, 1), (44, 20)], absent := s.unitAbsent k n, field5 := [(decide (unitBound k ≤ n), 42)] }

/-- UNIT_RETURN, 0x01 (R463): of its operands only KIND can name a unit the grade lacks. -/
def State.specUnitReturn (s : State) (e : Bytes) : OpSpec :=
  let k := kindOf (field e 40 1)
  { reserved := [(41, 1), (44, 20)], absent := k = some .reduction && !s.grade.hasReduction, field5 := [(k.isNone, 40)] }

/-- UNIT_QUERY, 0x02 (R465). -/
def State.specUnitQuery (s : State) (e : Bytes) : OpSpec :=
  { result := true, reserved := [(40, 24)], length6 := [(decide (field e 28 4 < 8 * s.grade.builtUnits), 28)] }

/-- FAULT_READ, 0x03 (R466, R542). -/
def specFaultRead (e : Bytes) : OpSpec :=
  { result := true, reserved := [(40, 24)], field5 := [(decide (field e 28 4 % 48 ≠ 0), 28)] }

/-! ### Closure and return -/

/-- A channel engine's channel group: eight channels (Table 1-2). -/
def fcg (channel : Nat) : Nat := channel / 8

/-- A closure leaves at least the minimum of Table 1-9 in service. -/
def State.leavesMinimum (s : State) (k : UnitKind) (p : Nat) : Bool :=
  let left := (s.inService k).filter fun u => u.phys ≠ p && (k ≠ .engine || fcg u.phys = fcg p)
  (match k with | .cluster => 1 | .docent => 8 | .engine => 1 | .dram => 2 | .port => 1 | .reduction => 0) ≤ left.length

/-- The reduction engine closes: every slot empty, admitted REDUCE commands ended; where a round stands STALLED the record
of class 0x13 names the closure (R311, R470). -/
def State.closeReduction (s : State) : State :=
  let stalled := (List.range 4).find? fun d => (s.dom d).state = .stalled
  let n := match s.unit? .reduction 0 with | some u => u.closure | none => 0
  let t := s.emptyDomains.closed .reduction 0
  match stalled with
  | some d => t.raise { faultUnit 0x13 2 .reduction 0 n with location := d, detail := match (s.dom d).round with
      | some r => r.num | none => 0 }
  | none => t

/-- Package `p` holds dirty pages, or their mirrors, that have not left it. -/
def State.packageBusy (s : State) (p : Nat) : Bool := s.places.any fun x => x.home = p || x.mirror = some p

/-- The channel engine has page operations to finish: those it has issued (R27). -/
def State.engineBusy (s : State) (p : Nat) : Bool := s.flash.ops.any fun o => o.engine = p && o.st ≠ .queued && o.st ≠ .held

/-- A DRAINING unit holds no work: a cluster no job, a channel engine no page operation, a package no dirty page, the reduction engine
no round that still can end, a port nothing after its failover (R26, R27, R192, R311). -/
def State.holdsNoWork (s : State) (k : UnitKind) (p : Nat) : Bool :=
  match k with
  | .cluster => !s.clusterHeld p
  | .reduction => s.roundsStuck
  | .engine => !s.engineBusy p
  | .dram => !s.packageBusy p
  | _ => true

/-- Clean lines that lie in package `p` are dropped: copies, and units of objects homed in tier 1 (R27). -/
def State.dropClean (p : Nat) (s : State) : State :=
  let fit := s.grade.packages
  let packs := (s.units.filter fun u => u.kind = .dram && (u.state = .inService || u.phys = p)).map (·.phys)
  let gone := fun (o : Obj) => o.allUnits.filter fun x => match o.ver? x.1 with
    | some v => !o.unitDirty x.1 x.2 && homeOf fit packs (pageHome (v.lun + x.2) 0) = p
    | none => false
  let leave := fun o : Obj =>
    { o with
      copies := o.copies.filter (·.pkg ≠ p)
      outDram := if o.tier = 1 then (o.outDram ++ gone o).eraseDups else o.outDram }
  { s with tiers := { s.tiers with objects := s.tiers.objects.map leave } }

/-- Evacuation begins with draining: clean lines go, save areas, scratch, accumulation words and hot copies move, and dirty pages move,
take other mirrors or are marked for write-back (R27, R30, R192). -/
def State.leavePackage (p : Nat) (s : State) : State :=
  let t := (s.dropClean p).leaveAreas p
  let r := t.makeRoom [] t.dramUnitsHeld 0
  let back := 3 * r.2.tiers.budget ≤ 4 * r.2.dirtyBytes
  r.2.mapPlaces (leavePlace r.2.grade.packages r.2.packages back (!r.1) p)

/-- A package has been closed by a fault: what it held lives on in its other copies, and a dirty page that had none is lost (R26, R191,
R450, R452). -/
def State.losePackage (p : Nat) (s : State) : State :=
  let alone := s.tiers.objects.flatMap fun o => o.versions.flatMap fun v =>
    (v.dirty.filter fun d => d.place.home = p && d.place.mirror.isNone).map fun d => (o.id, v.num, d.page)
  let t := ((s.dropClean p).leaveAreas p).mapPlaces (losePlace s.grade.packages p)
  alone.foldl (fun t x => t.losePage x.1 x.2.1 x.2.2) t

/-- Take a DRAINING unit to CLOSED (R26, R27, R192, R408). -/
def State.drained (k : UnitKind) (p : Nat) (s : State) : State :=
  match k with
  | .reduction => s.closeReduction
  | .port => (s.failover p).closed .port p
  | _ => s.closed k p

/-- Close a unit that is IN_SERVICE on a host's request: DRAINING, and CLOSED at once where it holds no work. -/
def State.hostClose (slot : Nat) (k : UnitKind) (p : Nat) (s : State) : State :=
  let t := (s.setWork slot (.unit k.code p)).startDrain k p
  let t := if k = .dram then t.leavePackage p else t
  if t.holdsNoWork k p then t.drained k p else t

/-- A closure stops a return self-test: the unit is CLOSED and keeps its number, the return completes with `UNIT_CLOSED`
and no record (Table 1-11). -/
def State.stopReturn (k : UnitKind) (p : Nat) (s : State) : State :=
  let t := (s.updUnit k p fun u => { u with state := .closed }).finishUnitCmds k p 0x01 .unitClosed 0
  if k = .port then t.updPort p fun q => { q.drop with returning := false } else t

/-- UNIT_CLOSE (R464, Table 1-11). -/
def execUnitClose (slot : Nat) (s : State) : Host.Outcome State Fault Refusal :=
  .next (s.runCmd slot 0x00 false fun c =>
    match kindOf (c.arg 40 1) with
    | none => s.fail slot .invalidField 40
    | some k => match s.namedUnit? k (c.arg 42 2) with
      | none => s.fail slot .invalidField 42
      | some u => match u.state with
        | .closed => s.done slot u.closure
        | .draining => s.setWork slot (.unit k.code u.phys)
        | .returning => (s.stopReturn k u.phys).done slot u.closure
        | .inService =>
          if s.leavesMinimum k u.phys then s.hostClose slot k u.phys else s.fail slot .invalidField 42)

/-- The unit of a kind that holds a closure number while it is not IN_SERVICE (R464). -/
def State.closureUnit? (s : State) (k : UnitKind) (n : Nat) : Option SvcUnit :=
  if n = 0 then none else s.units.find? fun u => u.kind = k ∧ u.closure = n ∧ u.state ≠ .inService

/-- A CLOSED unit starts its return self-test; a link port trains (R26, R467, Table 17-5). -/
def State.startReturn (k : UnitKind) (p : Nat) (s : State) : State :=
  let t := s.updUnit k p fun u => { u with state := .returning }
  if k = .port then t.updPort p fun q => { q.train t.bt with returning := true } else t

/-- UNIT_RETURN (R464, Table 1-11). -/
def execUnitReturn (slot : Nat) (s : State) : Host.Outcome State Fault Refusal :=
  .next (s.runCmd slot 0x01 false fun c =>
    match kindOf (c.arg 40 1) with
    | none => s.fail slot .invalidField 40
    | some k => match s.closureUnit? k (c.arg 42 2) with
      | none => s.fail slot .invalidField 42
      | some u => match u.state with
        | .closed => (s.setWork slot (.unit k.code u.phys)).startReturn k u.phys
        | .returning => s.done slot 0
        | _ => s.fail slot .invalidField 42)

/-- A UNIT_QUERY entry (R465). -/
def SvcUnit.entry (u : SvcUnit) : Bytes :=
  leBytes 1 u.kind.code ++ leBytes 1 (u.state.code + 4 * bit01 u.spare + 8 * bit01 u.logical.isSome) ++ leBytes 2 u.phys
    ++ leBytes 2 (u.logical.getD 0) ++ leBytes 2 u.closure

/-- UNIT_QUERY (R465). -/
def execUnitQuery (slot : Nat) (s : State) : Host.Outcome State Fault Refusal :=
  .next (s.runCmd slot 0x02 true fun c =>
    (s.writeResult c 0 (s.units.flatMap SvcUnit.entry)).done slot s.units.length)

/-- The 48 bytes of a fault record (Table 17-2). -/
def FaultRec.bytes (r : FaultRec) : Bytes :=
  leBytes 4 r.seq ++ leBytes 1 r.cls ++ leBytes 1 r.response ++ leBytes 1 r.unitKind
    ++ leBytes 1 (bit01 r.dataLost + 2 * bit01 r.budget) ++ leBytes 2 r.unit ++ leBytes 2 r.closure ++ leBytes 4 r.objectId
    ++ leBytes 2 r.version ++ leBytes 2 r.count ++ leBytes 4 r.detail ++ leBytes 8 r.location ++ leBytes 8 r.tick
    ++ leBytes 4 (r.lastBt - r.firstBt) ++ zeroBytes 4

/-- Mark the first `n` unread records read. -/
def markRead : Nat → List FaultRec → List FaultRec
  | 0, l => l
  | _ + 1, [] => []
  | n + 1, r :: rs => if r.isRead then r :: markRead (n + 1) rs else { r with isRead := true } :: markRead n rs

/-- FAULT_READ (R466). -/
def execFaultRead (slot : Nat) (s : State) : Host.Outcome State Fault Refusal :=
  .next (s.runCmd slot 0x03 true fun c =>
    let rs := (s.err.log.filter fun r => !r.isRead).take (c.resultLen / 48)
    let t : State := { s with err := { s.err with log := markRead rs.length s.err.log } }
    (t.writeResult c 0 (rs.flatMap FaultRec.bytes)).done slot rs.length)

/-- DRAIN_COMPLETE: a DRAINING unit holds no work, or the reduction engine only a round that stays STALLED; it reaches
CLOSED (R26, R27, R311). -/
def execDrainComplete (kind phys : Nat) (s : State) : Host.Outcome State Fault Refusal :=
  .next (
    match kindOf kind with
    | none => s
    | some k =>
      if s.unitIs k phys .draining && s.holdsNoWork k phys then
        s.drained k phys
      else s)

/-- Rows of a controller withdrawn under R456, by the repair list. -/
def Repair.rowOf (p : Nat) : Repair → Bool
  | .dramUnit q _ => q = p
  | _ => false

/-- Post-package repair of one withdrawn unit, while the device has repair resources: whether it succeeds is a free value
(R456, assumption log 12: PRESUMED, safe). A repaired unit rejoins DRAM tier capacity and leaves the list. -/
def State.repairRow (p : Nat) (r : Repair) (s : State) : State :=
  let (k, t) := s.takeFree
  if Config.rowRepairs k then
    ({ t with
      tiers := { t.tiers with withdrawn := t.tiers.withdrawn - 1 }
      err := { t.err with
        repairs := t.err.repairs.filter (· ≠ r)
        drcCnt := updAt p (fun c => (c.1, c.2.1, c.2.2.1, sat32 (c.2.2.2 + 1))) t.err.drcCnt } } : State).writeRepairs
  else t

/-- Post-package repair of a controller's withdrawn units. -/
def State.repairRows (p : Nat) (s : State) : State :=
  (s.err.repairs.filter (Repair.rowOf p)).foldl (fun t r => t.repairRow p r) s

/-- RETURN_SELF_TEST_END: a unit in RETURNING passes and rejoins, or stays CLOSED with one record; a link port passes only
with its link UP (R464, R467). -/
def execReturnSelfTestEnd (kind phys : Nat) (good : Bool) (s : State) : Host.Outcome State Fault Refusal :=
  .next (
    match kindOf kind with
    | none => s
    | some k =>
      if !s.unitIs k phys .returning then s
      else if k = .port && good && (s.port phys).link ≠ .up then s
      else if good then
        let t := if k = .dram then s.repairRows phys else s
        let t := (t.rejoin k phys).finishUnitCmds k phys 0x01 .ok 0
        if k = .port then (t.updPort phys fun q => { q with returning := false }).portReady phys else t
      else
        let t := s.returnFailed k phys
        if k = .port then t.updPort phys fun q => { q.drop with returning := false } else t)

end Sys2Proof.Machine
end

