-- ==== Sys2Proof/Machine/Errors.lean ====
section
/-! DEFINITION. Detected errors: resends and faulted paths, channel halts, recovery from second sources, grown repairs,
machine traps and engine parity, docent-core faults (R446 to R459, R468, R470). -/
namespace Sys2Proof.Machine

/-! ### Replays and clusters that close under a job (R148, R176, R457) -/

/-- Count a replay in `CLU_REPAIR_CNT` of a physical cluster (Table 22-8). -/
def State.countReplay (p : Nat) (s : State) : State :=
  { s with err := { s.err with cluCnt := updAt p (fun c => (c.1, c.2.1, sat32 (c.2.2 + 1))) s.err.cluCnt } }

/-- The running job that holds a physical cluster. -/
def State.holder? (s : State) (p : Nat) : Option Job :=
  s.sched.jobs.find? fun j => j.state = .running && j.clusters.any fun c => c.phys = p

/-- A faulted cluster that a job holds leaves service: a fault on a DRAINING one is recorded, and it reaches CLOSED as its job leaves it
(R26, R30). -/
def State.closeHeld (cls p : Nat) (s : State) : State := (s.closeFault cls .cluster p).closeLeft p

/-- A job whose cluster `i` is closed by a fault goes on from its last pause point on the cluster that takes that number. Where none is
free, what applies at that point applies: a stop, a pending pre-emption, or a suspension (R176, R177, R457). -/
def State.replayMoved (cls p : Nat) (j : Job) (i : Nat) (s : State) : State :=
  let t := s.updJob j.id fun j => { j with replays := sat32 (j.replays + 1), pointReplays := j.pointReplays + 1 }
  match t.moveOne j.id i (State.closeHeld cls p) with
  | none => (t.closeHeld cls p).decideNow j.id
  | some t =>
    let fresh := match t.job? j.id with | some k => [k.phys i] | none => []
    let t := match j.save with
      | some v => t.restore j.id v fresh false
      | none => t.startFresh j.id
    (t.decideNow j.id).closeIdle

/-- A compute cluster closes on a fault. A job that holds it replays elsewhere; at the ninth event from one pause point it is
to complete with `JOB_FAULT` (R26, R457). -/
def State.clusterFault (cls p : Nat) (s : State) : State :=
  match s.holder? p with
  | none => s.closeFault cls .cluster p
  | some j =>
    if j.ending.isSome then s.closeFault cls .cluster p
    else if 8 ≤ j.pointReplays then (s.updJob j.id (Job.endWith .jobFault)).closeFault cls .cluster p
    else s.replayMoved cls p j (((List.range j.clusters.length).find? fun i => j.phys i = p).getD 0)

/-- A machine trap, engine parity error or job-line loss on a job's cluster: the job replays from its last pause point; the second
such event on one physical cluster within a span closes that cluster (R457). `cls` is its class; `record` says that the first
event raises a record, with RESPONSE REPLAYED. -/
def State.jobEvent (cls : Nat) (record : Bool) (id i : Nat) (s : State) : State :=
  match s.job? id with
  | none => s
  | some j =>
    if j.state ≠ .running || j.ending.isSome || j.clusters.length ≤ i then s
    else
      let p := j.phys i
      let t := s.countReplay p
      if j.spanEvents.contains p then t.clusterFault cls p
      else
        let t := t.updJob id fun j => { j with spanEvents := p :: j.spanEvents }
        let t := if record then t.raise { faultUnit cls 1 .cluster p 0 with detail := j.client } else t
        t.replay id

/-! ### Grown repairs (R456) -/

/-- A line of a cluster store has failed three times: its row is mapped to one of its bank's four soft spare rows, with one record;
with none left the cluster, whose other lines are good, drains and closes (R26, R456). The 32 banks interleave by 64-byte lines, a row holding one of them (R125, assumption
log 55: DESIGN CHOICE, unsafe). -/
def State.repairRowOf (p loc : Nat) (s : State) : State :=
  let bank := loc / 64 % 32
  let used := (s.err.repairs.filter fun r => match r with
    | .storeRow q b _ => q = p && b = bank
    | _ => false).length
  if 4 ≤ used then
    let t := s.drainFault 0x03 .cluster p
    if t.unitIs .cluster p .draining && t.holdsNoWork .cluster p then t.closed .cluster p else t
  else
    let t : State := { s with err := { s.err with
      repairs := s.err.repairs ++ [.storeRow p bank (loc / 2048)]
      cluCnt := updAt p (fun c => (c.1, sat32 (c.2.1 + 1), c.2.2)) s.err.cluCnt } }
    t.writeRepairs.raise { faultUnit 0x03 0 .cluster p 0 with location := loc }

/-- A DRAM line has failed three times: the controller stops using the 64 KiB unit that holds it, and what no longer fits in DRAM leaves
it, with one record (R456). -/
def State.withdraw (p loc : Nat) (s : State) : State :=
  if s.err.repairs.contains (.dramUnit p (loc / 65536)) then s
  else
    let t : State := { s with
      tiers := { s.tiers with withdrawn := s.tiers.withdrawn + 1 }
      err := { s.err with
        repairs := s.err.repairs ++ [.dramUnit p (loc / 65536)]
        drcCnt := updAt p (fun c => (c.1, c.2.1, sat16 (c.2.2.1 + 1), c.2.2.2)) s.err.drcCnt } }
    ((t.makeRoom [] t.dramUnitsHeld 0).2.writeRepairs).raise { faultUnit 0x07 0 .dram p 0 with location := loc }

/-- One failure of a line of a cluster store or DRAM package; the third within 1,000,000 BT is repaired (R456). -/
def State.lineFailure (k : UnitKind) (p at_ : Nat) (s : State) : State :=
  let loc := at_ / 64 * 64
  let same := fun f : LineFails => f.unitKind = k.code && f.phys = p && f.location = loc
  let old := match s.err.lineFails.find? same with | some f => f.times | none => []
  let times := s.bt :: old.filter fun t => s.bt ≤ t + 1000000
  let rest := s.err.lineFails.filter fun f => !same f
  if times.length < 3 then
    { s with err := { s.err with
        lineFails := rest ++ [{ unitKind := k.code, phys := p, location := loc, times := times }] } }
  else
    let t : State := { s with err := { s.err with lineFails := rest } }
    if k = .cluster then t.repairRowOf p loc else t.withdraw p loc

/-- A cluster-store line of a job fails its check: it is counted (R448, R456). -/
def State.storeFailure (p loc : Nat) (s : State) : State :=
  let t : State := { s with err := { s.err with
    cluCnt := updAt p (fun c => (sat32 (c.1 + 1), c.2.1, c.2.2)) s.err.cluCnt } }
  t.lineFailure .cluster p loc

/-- A DRAM line fails its check: it is counted, and as a patrol failure where no channel was halted on it (R448, R449, R456;
assumption log 56: DEDUCED, unsafe). -/
def State.dramFailure (patrol : Bool) (p loc : Nat) (s : State) : State :=
  let t : State := { s with err := { s.err with
    drcCnt := updAt p (fun c => (sat32 (c.1 + 1), if patrol then sat32 (c.2.1 + 1) else c.2.1, c.2.2)) s.err.drcCnt } }
  t.lineFailure .dram p loc

/-! ### Machine traps, engine parity and docent cores -/

/-- MACHINE_TRAP: on a fetch CRC failure the line is refetched and the thread goes on; on state parity the job replays (R148, R457;
assumption log 57: DEDUCED, unsafe). -/
def execMachineTrap (h : Thr) (fetchCrc : Bool) (s : State) : Host.Outcome State Fault Refusal :=
  .next (
    match s.job? h.job with
    | none => s
    | some j => match j.clusters[h.cluster]? with
      | none => s
      | some c => match c.threads[h.thread]? with
        | none => s
        | some t =>
          if j.state ≠ .running || j.ending.isSome || t.st = .exited then s
          else if fetchCrc then s.storeFailure c.phys (j.codeRegion.1 + t.pc)
          else s.jobEvent 0x05 true h.job h.cluster)

/-- ENGINE_PARITY_ERROR: the job replays from its last pause point (R130, R457). -/
def execEngineParityError (e : Eng) (s : State) : Host.Outcome State Fault Refusal :=
  .next (if e.engine < 4 then s.jobEvent 0x06 true e.job e.cluster else s)

/-- A faulted docent core closes without draining, and its services go on elsewhere (R459, R460). -/
def State.docentFault (core : Nat) (s : State) : State := s.closeFault 0x0E .docent core

/-- DOCENT_WATCHDOG: a core's firmware has not restarted its watchdog for 1,000 BT (R459). -/
def execDocentWatchdog (core : Nat) (s : State) : Host.Outcome State Fault Refusal :=
  .next (if s.elapsed (s.docent.restarted.getD core 0) 1000 then s.docentFault core else s)

/-- DOCENT_CORE_FAULT: a parity error in a core's state, or a line of it that no source gives back (R459). -/
def execDocentCoreFault (core : Nat) (s : State) : Host.Outcome State Fault Refusal :=
  .next (s.docentFault core)

/-! ### Transport parity (R446, R447) -/

/-- Interface and lane group of a link: D2DC0 with D2DM0, D2DC1 with D2DM1, and D2DI, whose lane groups A and B meet D2DC2 and
D2DC3 (Table 1-3). -/
def linkGroup (iface group : Nat) : Nat × Nat :=
  if iface = 0 ∨ iface = 4 then (0, group)
  else if iface = 1 ∨ iface = 5 then (1, group)
  else if iface = 2 then (2, 0)
  else if iface = 3 then (2, 1)
  else (2, group)

/-- The die of a path's receiving end: 0 compute, 1 memory-side, 2 I/O (Tables 1-2, 1-3). -/
def pathDie : Path → Nat
  | .d2d i _ => if i < 4 then 0 else if i < 6 then 1 else 2
  | .unit k _ => if k = 0 ∨ k = 1 then 0 else if k = 4 then 2 else 1

/-- The path exists and carries traffic: its lane group is not faulted, its unit not CLOSED. -/
def State.pathOpen (s : State) : Path → Bool
  | .d2d i g => i < 7 && g < 2 && !s.err.laneGroups.contains (linkGroup i g)
  | .unit k p => match kindOf k with
    | some k => s.clocked k p
    | none => false

/-- The reduction engine is faulted: its commands end and it closes; while it is DRAINING it goes on (R26, R311, Table 1-11). -/
def State.reductionFault (cls n : Nat) (s : State) : State :=
  (if s.unitIs .reduction n .draining then s else s.emptyDomains).closeFault cls .reduction n

/-- A DRAM controller is faulted and closes without draining; one that drains or returns holds nothing more than its drain leaves
(R26, R461). -/
def State.packageFault (cls p : Nat) (s : State) : State :=
  if s.unitIs .dram p .inService then (s.closeFault cls .dram p).losePackage p else s.closeFault cls .dram p

/-- A lane group is faulted: one record, and with both groups of its interface the drive stops (R16, R447). -/
def State.laneFault (iface group : Nat) (s : State) : State :=
  let l := linkGroup iface group
  let both := s.err.laneGroups.any fun x => x.1 = l.1
  let t : State := { s with
    err := { s.err with laneGroups := s.err.laneGroups ++ [l], stopped := s.err.stopped || both }
    atr := { s.atr with stopped := s.atr.stopped || both } }
  t.raise { faultOf 0x02 5 with detail := group, location := iface }

/-- A path is faulted at its fourth consecutive error (R446). -/
def State.pathFault (p : Path) (s : State) : State :=
  match p with
  | .d2d i g => s.laneFault i g
  | .unit k n => match kindOf k with
    | some .cluster => s.clusterFault 0x01 n
    | some .port => (s.failover n).closeFault 0x01 .port n
    | some .reduction => s.reductionFault 0x01 n
    | some .dram => s.packageFault 0x01 n
    | some k => s.closeFault 0x01 k n
    | none => s

/-- TRANSPORT_PARITY_ERROR: the words are sent again, which is counted; the fourth error in a row within 10 BT faults the path
(R446). -/
def execTransportParityError (p : Path) (s : State) : Host.Outcome State Fault Refusal :=
  .next (
    if !s.pathOpen p then s
    else
      let rest := s.err.paths.filter fun e => e.path ≠ p
      let old := s.err.paths.find? fun e => e.path = p && s.bt ≤ e.first + 10
      let e : PathErrors := match old with
        | some e => { e with count := e.count + 1 }
        | none => { path := p, first := s.bt, count := 1 }
      if 4 ≤ e.count then ({ s with err := { s.err with paths := rest } } : State).pathFault p
      else { s with err := { s.err with
        paths := rest ++ [e], resends := updAt (pathDie p) (fun n => sat32 (n + 1)) s.err.resends } })

/-! ### Channel halts (R453) -/

/-- CHANNEL_HALT: a channel meets a failed line and writes nothing beyond it until the line is recovered. -/
def execChannelHalt (owner : DmaOwner) (line : LineKind) (s : State) : Host.Outcome State Fault Refusal :=
  .next (
    let live := match owner with
      | .slot id => match s.slot? id with | some c => c.phase ≠ .done | none => false
      | .job id => match s.job? id with | some j => j.state = .running | none => false
      | .drive => true
    if live && !s.err.halts.contains (owner, line) then
      { s with err := { s.err with halts := s.err.halts ++ [(owner, line)] } }
    else s)

/-! ### Lines no source gives back (R452, R468) -/

/-- Pages of a version whose only copy is in a logical unit set LOST. -/
def Version.lostPages (v : Version) (kind lo n : Nat) : List Nat :=
  ((List.range (v.homeUnits kind)).filter fun u => lo ≤ v.lun + u && v.lun + u < lo + n).flatMap fun u =>
    ((List.range 16).map (· + 16 * u)).filter fun p => !(v.dirty.any (·.page = p)) && !(v.lost.contains p)

/-- Logical units `lo` on, `n` of them, are set LOST; versions whose homes hold one are impaired (R362, R452, R468). -/
def State.loseUnits (lo n : Nat) (s : State) : State :=
  let t := (List.range n).foldl (fun t i => t.setMap (lo + i) 1) s
  let hit := t.tiers.objects.flatMap fun o => o.versions.flatMap fun v =>
    (v.lostPages o.kind lo n).map fun p => (o.id, v.num, p)
  hit.foldl (fun t h => t.losePage h.1 h.2.1 h.2.2) t

/-- A job is marked, and stops as under an impairment; one record where no object version is concerned (R452, R453). -/
def State.markJob (id : Nat) (s : State) : State :=
  match s.job? id with
  | none => s
  | some j => (s.updJob id fun j => { j with stop := some .impaired }).raise { faultOf 0x08 4 with detail := j.client }

/-- The version a command's slot pins first becomes impaired. -/
def State.impairPins (slot : Nat) (s : State) : State :=
  match s.slot? slot with
  | none => s
  | some c => match c.pins with
    | p :: _ => s.impair p.1 p.2
    | [] => s

/-- A kept gradient is lost with the residual store it comes from: the round's command ends, and the domain's slot is READY
again (R468, assumption log 58: DEDUCED, unsafe). -/
def State.loseGradient (d : Nat) (s : State) : State :=
  match (s.dom d).round with
  | none => s
  | some r =>
    let t := match s.obj? r.residual with
      | some o => match o.current? with | some v => s.impair r.residual v.num | none => s
      | none => s
    ((t.leaveRound d).deliverHeld).finish r.slot .objectImpaired 0 r.info

/-- A line in the STORE_LIVE range of the current pause point is lost: with no slot bound for writing the job starts again from
pause point 0 with its results afresh and the counters of that point, which counts as one replay; otherwise it is to complete with
`JOB_FAULT` (R129, R458). -/
def State.loseLive (id : Nat) (s : State) : State :=
  match s.job? id with
  | none => s
  | some j =>
    if j.state ≠ .running || j.ending.isSome then s
    else if (j.bindings.any (·.write)) || 8 ≤ j.pointReplays then s.updJob id (Job.endWith .jobFault)
    else
      let first := fun v : Save => match j.pause? v.index with | some e => e.layerStart | none => false
      let t := s.updJob id fun j =>
        { j with
          replays := sat32 (j.replays + 1), pointReplays := j.pointReplays + 1, rerun := none
          layerSaves := match j.save0 with | some v => if first v then [v] else [] | none => [] }
      let fresh := (t.updJob id fun j =>
        { j with
          save := none, save0 := none, layerSaves := [], lastPause := 0, wide := [], reruns := 0, result := [], placed := []
          sync := match j.save0 with | some v => v.sync | none => j.sync }).startFresh id
      let t := match j.save0, j.save with
        | some v, some w => if w.index = 0 then fresh else t.restore id v j.physList true
        | _, _ => fresh
      t.decideNow id

/-- The check line of a DRAM group of 31 data lines: their CRCs, then its own (R18). -/
def checkLine (lines : List Bytes) : Bytes :=
  let b := (lines.take 31).flatMap fun l => leBytes 2 (Config.lineCrc l).toNat
  b ++ leBytes 2 (Config.lineCrc b).toNat

/-- What follows when no source gives the line back (R452, R458, R468). A check line is written afresh from its data lines (R448). -/
def State.lineLost (l : LineKind) (loc : Nat) (s : State) : State :=
  match l with
  | .cleanObject o n u => s.losePage o n (u * 16 + loc / 4096 % 16)
  | .dirtyObject o n p => s.losePage o n p
  | .cleanBlock _ | .dirtyBlock _ => s.raise { faultOf 0x08 4 with dataLost := true, location := loc }
  | .dirtyMap m | .cleanMap m => s.loseUnits (1024 * m) 1024
  | .directory => s.loseUnits (8192 * (loc / 64)) 8192
  | .jobArea j | .storeCopy j _ => s.markJob j
  | .hotRow t n _ _ => s.impair t n
  | .working c => s.impairPins c
  | .keptGradient d _ => s.loseGradient d
  | .accumulator _ _ => s.reductionFault 0x08 0
  | .code j _ => match s.job? j with
    | some k => s.impair k.prog k.progVer
    | none => s
  | .storeWritten j c => s.jobEvent 0x03 false j c
  | .storeLive j _ => s.loseLive j
  | .check _ _ => s

/-- Sources of Table 17-1 that a line has: die parity only while the flash unit of its home is not VERIFIED, a mirror or other copy only
where there is one. A line written since the last pause point, or in the STORE_LIVE range, has no copy. -/
def State.sources (s : State) (l : LineKind) : Nat :=
  let flash := fun lun => match s.locate (s.mapEntry lun) with
    | some (d, u, _) => if (s.eunit d u).state = .verified then 1 else 2
    | none => 2
  match l with
  | .cleanObject o n u => match s.version? o n with | some v => flash (v.lun + u) | none => 0
  | .dirtyObject o n p => match s.version? o n with
    | some v => bit01 (v.dirty.any fun d => d.page = p && d.place.mirror.isSome)
    | none => 0
  | .cleanBlock u => flash u
  | .dirtyBlock u => bit01 !(s.block.dirty.any fun d => d.block / 16 = u && d.place.mirror.isNone)
  | .dirtyMap m => bit01 (s.ftl.dirtyMaps.any fun d => d.page = m && d.place.mirror.isSome)
  | .hotRow t n c r => 1 + bit01 (s.gather.copies.any fun k => k.isRow t n c r && 1 < k.pkgs.length)
  | .jobArea _ | .accumulator _ _ => 1
  | .cleanMap _ | .directory | .working _ | .keptGradient _ _ | .storeCopy _ _ | .code _ _ => 2
  | .storeWritten _ _ | .storeLive _ _ | .check _ _ => 0

/-- The cluster store that holds a line, by job and job-relative cluster. -/
def lineStore? : LineKind → Option (Nat × Nat)
  | .storeCopy j c | .storeWritten j c | .storeLive j c | .code j c => some (j, c)
  | _ => none

/-- Count the failure of a line where it lies, in a unit whose clock runs (R33, R456). -/
def State.countLine (l : LineKind) (phys loc : Nat) (s : State) : State :=
  match lineStore? l with
  | some (j, c) => match s.job? j with
    | some k => if c < k.clusters.length && s.clocked .cluster (k.phys c) then s.storeFailure (k.phys c) loc else s
    | none => s
  | none => if s.clocked .dram phys then s.dramFailure (!s.err.halts.any fun h => h.2 = l) phys loc else s

/-- A command whose line was lost completes with the status its chapter gives: a block read under R382; a command not yet begun
with `OBJECT_IMPAIRED`; one under way as its jobs and steps meet the impairment (R453, R468). -/
def State.endHalted (l : LineKind) (id : Nat) (s : State) : State :=
  match s.slot? id with
  | none => s
  | some c =>
    let unit := match l with | .cleanBlock u | .dirtyBlock u => [u] | _ => []
    let blocks := unit.flatMap fun u => (List.range 16).map (· + 16 * u)
    match c.work with
    | .blockRead us bad =>
      let us := us.filter fun u => !unit.contains u
      if us.isEmpty then s.answerRead c (blocks ++ bad) else s.setWork id (.blockRead us (blocks ++ bad))
    | _ =>
      if c.phase ≠ .handed then s
      else if c.opcode = 0x10 then s.answerRead c blocks
      else if impairOk c.opcode then s
      else s.fail id .objectImpaired 0

/-- Mark the owners of the channels halted on a line that was lost (R453). -/
def State.markHalted (l : LineKind) (s : State) : State :=
  (s.err.halts.filter fun h => h.2 = l).foldl (fun t h => match h.1 with
    | .job id => t.updJob id fun j => { j with stop := some .impaired }
    | .slot id => t.endHalted l id
    | .drive => t) s

/-- LINE_RECOVERY_END: the first source in its row of Table 17-1 that gives a good line replaces the failed one, and every channel
halted on it goes on; where none does, the line is lost (R450, R452, R453). `good` says of each source in turn whether it gave a
line passing its check. -/
def execLineRecoveryEnd (line : LineKind) (phys location : Nat) (good : List Bool) (s : State) :
    Host.Outcome State Fault Refusal :=
  .next (
    let t := s.countLine line phys location
    let cured := (good.take (s.sources line)).any (· = true)
    let own := match line with | .storeWritten _ _ | .storeLive _ _ | .check _ _ => true | _ => false
    let t := if cured then t
      else if own then t.lineLost line location
      else (t.lineLost line location).markHalted line
    { t with err := { t.err with halts := t.err.halts.filter fun h => h.2 ≠ line } })

end Sys2Proof.Machine
end

