-- ==== Sys2Proof/Machine/Power.lean ====
section
/-! DEFINITION. Power states, restarts, the dusk flush, clean shutdown, the holdup bank, temperatures and the governor
(chapter 16, R37, R38, R189, R206, R212, R499). -/
namespace Sys2Proof.Machine

/-- Change the power block. -/
def State.updPower (f : Power → Power) (s : State) : State := { s with power := f s.power }

/-! ### What a restart keeps (R433, R441, R494, R499, R534) -/

/-- A version after a restart: nothing pins it, DRAM holds no page of it, and entries of an ACCESSION that did not complete are not
applied (R227, R229). -/
def Version.restarted (v : Version) : Version :=
  { v with
    pins := 0, index := { v.index with entries := v.index.entries.filter fun a => a.seq ≤ v.index.committed }
    dirty := []
    image := v.image.map fun g => { g with measured := false } }

/-- A volatile object of which DRAM alone held data: a dirty page or a BUILDING version (R189). -/
def Obj.losesData (o : Obj) : Bool := !o.durable && o.versions.any fun v => !v.dirty.isEmpty || v.state = .building

/-- An object after a restart: DRAM holds none of it, and no one refers to it. Versions that nothing pins any more are dropped at the
mount, after the volatile objects that lost data (R189, R196). -/
def Obj.restarted (o : Obj) : Obj :=
  { o with
    unsaved := o.unsaved || o.losesData
    versions := o.versions.map Version.restarted, copies := [], accesses := [], refs := [], deferred := [], accessing := none
    outDram := [] }

/-- The flash array after a restart: what was programmed stays, lent units return to the reserve, and records of the erase
journal that are in no copy are gone (R327, R332, R527). -/
def Flash.restarted (f : Flash) : Flash :=
  { f with
    units := f.units.map fun e => { e with
      role := if e.role = .lent then .reserve else e.role, closedBt := 0, visited := 0, waitMaps := none, scan2 := 0 }
    ops := [], journal := f.journal.filter fun r => r.durableA || r.durableB, channels := List.replicate 64 {} }

/-- Flash translation after a restart: the map is what the MAP stream holds, stores that were on their way are gone, parity pages that
were not programmed are due again; windows and scans count afresh (R347, R372). -/
def Ftl.restarted (f : Ftl) : Ftl :=
  { f with
    map := f.flashMap, dirtyMaps := [], stores := [], opens := f.opens.map fun o => { o with part := none }
    rows := f.rows.map fun r => { r with asked := r.parity }
    nextCheckpoint := none, finalAsked := false, swap := none
    reclaiming := [], relocated := List.replicate 64 0, admitted := List.replicate 64 0, nextWindow := 10000, windowEnd := 0
    fullPass := none, compareDue := false, writeProtected := false }

/-- The block range after a restart: DRAM holds none of it, and the self-test log is cleared (R389, Table 14-7). -/
def BlockRange.restarted (b : BlockRange) : BlockRange := { b with dirty := [], atomics := [], test := {} }

/-- Logical units of durable data that is newer in DRAM than on flash. -/
def State.unsavedLuns (s : State) : List Nat :=
  ((s.tiers.objects.filter (·.durable)).flatMap fun o => o.versions.flatMap fun v => v.dirty.map fun d => v.lun + d.page / 16)
    ++ s.block.dirty.map (·.block / 16)

/-- The security block after a restart: fuses and the serial flash stay, everything else is cleared; a region whose write was cut
off is invalid (R508, R509, R513, R517, R521). -/
def Security.restarted (q : Security) : Security :=
  { keyDigests := q.keyDigests, revoked := q.revoked, rollback := q.rollback, attestOk := q.attestOk
    firmware := q.firmware, config := q.config
    fwInvalid := q.fwInvalid || (match q.writing with | some w => w.1 = 1 | none => false)
    cfgInvalid := q.cfgInvalid || (match q.writing with | some w => w.1 = 2 | none => false) }

/-- An append to the folio is admitted and under way, so that it is uncommitted when power fails (R270). -/
def State.appendUnder (s : State) (o : Obj) : Bool :=
  o.appending || (o.kind = 5 && s.atr.slots.any fun c => c.opcode = 0x59 && c.phase = .running && c.arg 40 4 = o.id)

/-- The drive as it starts afresh at phase FUSE: every register at its reset value but those kept (R534), what flash, fuses, the
serial flash and host memory hold, and the connector's condition. -/
def State.restart (s : State) : State :=
  { State.reset with
    grade := s.grade
    tiers := { flagsView := s.tiers.flagsView, vitrine := s.tiers.vitrine, compress := s.tiers.compress
               objects := s.tiers.objects.map fun o => { o.restarted with appending := s.appendUnder o }
               nextLun := s.tiers.nextLun, lostList := s.tiers.lostList, lostCount := s.tiers.lostCount
               withdrawn := s.tiers.withdrawn }
    search := s.search
    flash := s.flash.restarted
    ftl := { s.ftl.restarted with unsaved := (s.ftl.unsaved ++ s.unsavedLuns).eraseDups }
    block := s.block.restarted
    power := { mated := s.power.mated, switchOpen := s.power.switchOpen, overvoltage := s.power.overvoltage
               inVolt := s.power.inVolt, flushSeq := s.power.flushSeq, clean := s.power.clean }
    sec := s.sec.restarted
    err := { repairs := s.err.repairs, repairWrites := s.err.repairWrites, laneGroups := s.err.laneGroups }
    hostMem := s.hostMem, free := s.free, pending := s.pending }

/-- The drive has no power: what it keeps, in the power state OFF (R436). -/
def State.goOff (s : State) : State := s.restart.updPower fun p => { p with state := .off }

/-! ### The dusk flush (R432 to R435) -/

/-- A dusk flush is triggered: the power state is DUSK, pins under boundary scan return to the drive's logic, and a holdup
measurement ends (R432, R445, R479). -/
def State.trigger (onInput : Bool) (after : AfterFlush) (s : State) : State :=
  { s with
    power := { s.power with
      state := .dusk, flush := .triggered, after := after, onInput := onInput, measuring := false, clean := false }
    test := { s.test with holdsPins := false, highZ := false } }

/-- A state in which the flush begins on a power event (R432). -/
def PowerState.flushes (p : PowerState) : Bool := p = .active || p = .capped || p = .quiescent || p = .shuttingDown

/-- Input power is gone: the flush runs on the bank, or goes on on it; in STARTING and SHUTDOWN the drive goes to OFF (R428, R432,
R445). -/
def State.inputLost (s : State) : State :=
  let t := s.updPower fun p => { p with switchOpen := true }
  if s.power.state.flushes then t.trigger false .off
  else if s.power.state = .dusk then t.updPower fun p => { p with onInput := false, after := .off }
  else t.goOff

/-- What the flush saves, in order of first change: units of durable objects and of the block range (R360). -/
def State.duskItems (s : State) : List DirtyItem :=
  sortItems (((s.tiers.objects.filter (·.durable)).flatMap fun o => o.versions.flatMap fun v =>
      v.dirty.map fun d => DirtyItem.page d.since o.id v.num (d.page / 16))
    ++ s.block.dirty.map fun b => DirtyItem.block b.since (b.block / 16))

/-- The page that saves a unit (R360). -/
def State.duskPage (s : State) (x : DirtyItem) : Option DuskPage :=
  match x with
  | .page _ id n u => (s.version? id n).map fun v => .data (v.lun + u) none (memRead v.data (u * 65536) 65536)
  | .block _ u => some (.data u ((s.block.dirty.find? fun b => b.block / 16 = u && b.atomic.isSome).bind (·.atomic))
      (memRead s.block.data (u * 65536) 65536))

/-- Pages of the flush in the order they are laid: data units, then map pages, 16 to a page (R360). -/
def State.duskPages (s : State) : List DuskPage :=
  s.duskItems.filterMap s.duskPage
    ++ (chunksOf 16 s.ftl.dirtyMaps.length (s.ftl.dirtyMaps.map (·.page))).map fun ms =>
        .maps ms (ms.flatMap fun m => entriesOf m s.ftl.map)

/-- Lay a page for a die of the plan. -/
def layPage (die : Nat) (p : DuskPage) : List (Nat × List DuskPage) → List (Nat × List DuskPage)
  | [] => [(die, [p])]
  | x :: xs => if x.1 = die then (die, x.2 ++ [p]) :: xs else x :: layPage die p xs

/-- Which die takes each page, a free value of Config (R360; assumption log 21: DESIGN CHOICE, unsafe). -/
def State.planDusk : List DuskPage → List (Nat × List DuskPage) → State → List (Nat × List DuskPage) × State
  | [], l, s => (l, s)
  | p :: ps, l, s =>
    let r := s.takeFree
    State.planDusk ps (layPage (Config.storeDie r.1 % (64 * s.grade.dies)) p l) r.2

/-- What the index says of a page (R360). -/
def DuskPage.entries : DuskPage → List DuskEntry
  | .data lun a _ => [.unit lun a]
  | .maps ms _ => ms.map .map
  | _ => []

/-- An index entry in bytes, for the CRC-32 of the trailer (R360; assumption log 182: DESIGN CHOICE, safe). -/
def DuskEntry.bytes : DuskEntry → Bytes
  | .unit lun a => leBytes 4 lun ++ leBytes 4 0 ++ leBytes 8 (match a with | some i => i + 1 | none => 0)
  | .map m => leBytes 4 m ++ leBytes 4 1 ++ zeroBytes 8

/-- Atomic writes that own a unit of the list. -/
def atomicsOf (ps : List DuskPage) : List Nat :=
  (ps.filterMap fun p => match p with | .data _ a _ => a | _ => none).eraseDups

/-- The atomic-write table of a die: each write's identifier, its units and the dies that hold them (R360). -/
def atomicTable (plan : List (Nat × List DuskPage)) (ps : List DuskPage) : List (Nat × Nat × Nat) :=
  (atomicsOf ps).map fun i =>
    (i, (plan.map fun x => (x.2.filter fun p => match p with | .data _ a _ => a = some i | _ => false).length).foldl (· + ·) 0
     , (plan.filter fun x => (atomicsOf x.2).contains i).length)

/-- A die's share: index page, data units, map pages, trailer page (R360). -/
def State.duskDie (s : State) (plan : List (Nat × List DuskPage)) (x : Nat × List DuskPage) : DuskDie :=
  let es := x.2.flatMap DuskPage.entries
  let d := s.grade.dieOf x.1
  { die := d, unit := (s.duskUnit d).unit
    pages := [.index es] ++ x.2 ++
      [.trailer s.power.flushSeq (x.2.length + 2) (Config.crc32 (es.flatMap DuskEntry.bytes)) (atomicTable plan x.2) s.err.repairs] }

/-- What a page of the flush writes: every page carries STREAM 4 (R360). -/
def DuskPage.image (w : Nat) : DuskPage → PageImage
  | .data lun _ bs => { data := bs, metas := unitMetas lun 16 4 false w }
  | .maps ms es => { data := [], metas := (mapImage ms (es.flatMap fun e => leBytes 4 e.2) w).metas.map fun m => { m with stream := 4 } }
  | .index es => { data := es.flatMap DuskEntry.bytes, metas := unitMetas 0 16 4 false w }
  | .trailer q n c _ _ => { data := leBytes 4 q ++ leBytes 4 n ++ leBytes 4 c.toNat, metas := unitMetas 0 16 4 false w }

/-- Queue the programs of a die's share, from slot 0 (R360). -/
def State.queueDusk (x : DuskDie) (s : State) : State :=
  (x.pages.mapIdx fun i p => (i, p)).foldl (fun t y =>
    let t : State := { t with ftl := { t.ftl with wseq := t.ftl.wseq + 1 } }
    t.queueOp { die := x.die, kind := .program, unit := x.unit, page := y.1, prio := .dusk, owner := .dusk
                fill := some (y.2.image (t.ftl.wseq - 1)) }) s

/-- Queue the parity page of one row of the dusk units (R351, Table 16-5). Its LUN field holds stream 3, as the dusk stream's code does not
fit there (assumption log 175: DESIGN CHOICE, unsafe). -/
def State.duskParityPage (g slot : Nat) (s : State) : State :=
  let rows := s.flash.dusk.filter fun x => stripeGroup x.die = g && slot < x.pages.length
  let data := rows.foldl (fun acc x => xorBytes acc ((x.pages.getD slot (.index [])).image 0).data) []
  match s.parityUnit? (parityDie g slot) with
  | none => s
  | some e =>
    let r : Row := { gen := 0, group := g, stream := 3, n := slot, members := [], units := [] }
    let q := s.queuePage .dusk .dusk { data := data, metas := unitMetas r.code 16 3 false s.ftl.wseq } e
    { q.2 with flash := { q.2.flash with duskParity := q.2.flash.duskParity ++
      [{ group := g, slot := slot, die := q.1.die, unit := e.unit, page := q.1.page }] } }

/-- Every die's share of D is laid out (R360). -/
def State.shareDusk (s : State) : State :=
  let plan := State.planDusk s.duskPages [] s
  { plan.2 with flash := { plan.2.flash with dusk := plan.1.map (plan.2.duskDie plan.1), duskParity := [] } }

/-- The rows that pages of the flush make: stripe group and slot (R351). -/
def State.duskRows (s : State) : List (Nat × Nat) :=
  (s.flash.dusk.flatMap fun x => (List.range x.pages.length).map fun i => (stripeGroup x.die, i)).eraseDups

/-- The programs of every die's share are queued, in the order of the dies. -/
def State.queueShares (s : State) : State := s.flash.dusk.foldl (fun t x => t.queueDusk x) s

/-- The flush lays out D and queues its programs: every die's pages, and the row parity (R351, R360, R433). -/
def State.layDusk (s : State) : State :=
  let t := s.shareDusk.queueShares
  t.duskRows.foldl (fun t r => t.duskParityPage r.1 r.2) t

/-- DUSK_FLUSH: the Atrium stops, D is frozen, every job and transfer stops, and die operations are handled under R327: programs
and reads already issued run to their end, erases stop, the rest is cancelled; then the flush is laid into the dusk region (R212, R327,
R360, R433, R434). -/
def execDuskFlush (s : State) : Host.Outcome State Fault Refusal :=
  .next (
    if s.power.flush ≠ .triggered then s
    else
      let keep := fun o : DieOp => o.kind ≠ .erase && o.st ≠ .held && o.st ≠ .queued
      let go := fun o : DieOp => { o with st := .running }
      ({ s with
        power := { s.power with flush := .running, frozen := s.dirtyBytes, flushSeq := s.power.flushSeq + 1 }
        tiers := { s.tiers with objects := s.tiers.objects.map fun o => { o with appending := s.appendUnder o } }
        atr := { s.atr with
          slots := [], stopped := true, parked := [], cqs := s.atr.cqs.map fun c => { c with ready := [] } }
        locks := []
        sched := { s.sched with jobs := [] }
        err := { s.err with halts := [] }
        domains := s.domains.map fun _ => {}
        test := { s.test with busy := none }
        sec := { s.sec with signing := none }
        flash := { s.flash with ops := (s.flash.ops.filter keep).map go } } : State).layDusk)

/-- A thermal trip or RESET_N flushes first; what follows the flush (R433, R435, R441, R444). -/
def State.afterFlush (s : State) : State :=
  match s.power.after with
  | .off => s.goOff
  | .restart => s.restart
  | .shutdown => s.updPower fun p => { p with state := .shutdown, flush := .none, shdnDone := true }

/-- Every program that the flush queued or that was already issued has passed, in the order of each die (R327, R433). -/
def State.finishPrograms (s : State) : State :=
  let t : State := { s with flash := { s.flash with ops := s.flash.ops.filter (·.kind ≠ .program) } }
  (s.flash.ops.filter (·.kind = .program)).foldl (fun t o => t.programPass o) t

/-- DUSK_FLUSH_END: the last trailer is programmed, or the bank has failed before it: what was not programmed then the next mount finds
missing (R361, R433, R435). A flush run from the input does not rest on the bank. -/
def execDuskFlushEnd (bankFailed : Bool) (s : State) : Host.Outcome State Fault Refusal :=
  .next (
    if s.power.flush ≠ .running then s
    else if bankFailed && !s.power.onInput then s.goOff
    else s.finishPrograms.afterFlush)

/-- AON_LOSS: the always-on supply is gone, and with it everything that is not kept (Table 16-7). -/
def execAonLoss (s : State) : Host.Outcome State Fault Refusal :=
  .next (if s.power.state = .off then s else (s.updPower fun p =>
    { p with clean := p.clean && (p.state = .shutdown || p.state = .starting) }).goOff)

/-! ### Clean shutdown (R439, R515) -/

/-- Dirty pages of every class, and dirty map pages (R189). -/
def State.allDirty (s : State) : Nat :=
  (s.tiers.objects.map Obj.dirtyPages).foldl (· + ·) 0 + s.block.dirty.length + s.ftl.dirtyMaps.length

/-- Steps 2 and 3 of R439 have ended: every command has posted, no job is left, and nothing is dirty. -/
def State.shutdownReady (s : State) : Bool :=
  s.power.state = .shuttingDown && s.atr.slots.isEmpty && (s.atr.cqs.all fun c => c.ready.isEmpty) && s.sched.jobs.isEmpty
    && s.allDirty = 0

/-- The final checkpoint stands: SHUTDOWN with SHDN_DONE high, or a restart where FW_ACTIVATE asked for it or RESET_N came meanwhile
(R348, R439, R441, R515). -/
def State.endShutdown (s : State) : State :=
  if s.ftl.nextCheckpoint.isSome then s
  else
    let t := s.updPower fun p => { p with clean := true }
    if s.power.restartAfter || s.power.resetHeld then t.restart
    else t.updPower fun p => { p with state := .shutdown, shdnDone := true, measuring := false }

/-- The end of a clean shutdown: the final checkpoint, and then what follows it (R348, R439). The recovery loader restarts once the
completion of its FW_ACTIVATE has posted (R520). -/
def State.tryShutdown (s : State) : State :=
  if s.power.phase = .recovery && s.power.restartAfter && s.atr.slots.isEmpty then s.restart
  else if !s.shutdownReady then s
  else if s.ftl.finalAsked then s.settleCheckpoint.endShutdown
  else (({ s with ftl := { s.ftl with finalAsked := true } } : State).checkpoint).settleCheckpoint.endShutdown

/-- A REDUCE whose round is updating its store: every chunk of it is complete. -/
def State.updating (s : State) (slot : Nat) : Bool :=
  s.domains.any fun m => match m.round with | some r => r.slot = slot && r.phase ≠ 0 | none => false

/-- Reductions end with `UNIT_CLOSED` at a clean shutdown, but for one that is updating its store (R304, R439; assumption log 166:
DEDUCED, safe). -/
def State.stopReduces (s : State) : State :=
  (s.atr.slots.filter fun c => c.opcode = 0x63 && c.phase ≠ .done && !s.updating c.id).foldl
    (fun t c => t.finish c.id .unitClosed 0 (s.reduceInfo c.id)) s

/-- The rounds that end so are over. -/
def State.stopRound (d : Nat) (s : State) : State :=
  match (s.dom d).round with
  | some r => if r.phase ≠ 0 then s else s.leaveRound d
  | none => s

/-- A clean shutdown starts: no further fetch; jobs that wait end at once, running ones stop at their next pause points, reductions
end with `UNIT_CLOSED`; admitted commands run on (R439). -/
def State.startShutdown (s : State) : State :=
  let stop := fun j : Job => { j with stop := match j.stop with | some x => some x | none => some .shutdown }
  let t : State := { s with
    power := { s.power with state := .shuttingDown, shutdownHeld := false }
    atr := { s.atr with stopped := true }
    sched := { s.sched with jobs := s.sched.jobs.map stop }
    ftl := { s.ftl with finalAsked := false } }
  (((List.range 4).foldl (fun t d => t.stopRound d) t.stopReduces).issueStores).tryShutdown

/-- A request of clean shutdown: taken in service, held while the drive starts up (R439, Table 19-4). -/
def State.askShutdown (s : State) : State :=
  match s.power.state with
  | .active | .capped | .quiescent => s.startShutdown
  | .starting => s.updPower fun p => { p with shutdownHeld := true }
  | _ => s

/-- SHDN_REQ_N held low for 1 ms (R439). -/
def execShdnReqN (s : State) : Host.Outcome State Fault Refusal := .next s.askShutdown

/-! ### Reset, input and detection signals (R425, R428, R432, R441) -/

/-- RESET_N held low for 10 µs (R441, R499, R445). -/
def execResetN (s : State) : Host.Outcome State Fault Refusal :=
  .next (match s.power.state with
    | .active | .capped | .quiescent => s.trigger true .restart
    | .shuttingDown => s.updPower fun p => { p with resetHeld := true }
    | .starting | .shutdown => s.restart
    | .off | .dusk => s)

/-- MATED_N: high, the module is leaving its slot, and the input switch opens; low, it is seated (R428, R432, R445). -/
def execMatedN (high : Bool) (s : State) : Host.Outcome State Fault Refusal :=
  .next (
    if high then
      let t := s.updPower fun p => { p with mated := false, switchOpen := true }
      if s.power.state = .off then t else t.inputLost
    else s.updPower fun p => { p with mated := true })

/-- Input in the tolerated bands of Table 16-3, in mV (R425). -/
def toleratedMv (mv : Nat) : Bool := (28000 ≤ mv && mv < 30000) || (40000 < mv && mv ≤ 42000)

/-- POWER_FAILURE: input below 28.0 V or above 42.0 V for 5 µs (R425, R432). After an overvoltage the switch stays open. -/
def execPowerFailure (millivolt : Nat) (s : State) : Host.Outcome State Fault Refusal :=
  .next (
    if 28000 ≤ millivolt && millivolt ≤ 42000 then s
    else
      let t := s.updPower fun p => { p with
        inVolt := millivolt / 10, tolerated := none, switchOpen := true
        overvoltage := p.overvoltage || decide (42000 < millivolt) }
      if s.power.state = .off then t else t.inputLost)

/-- INPUT_TOLERANCE_EXPIRY: input has stayed in a tolerated band for longer than 100 ms (R425). -/
def execInputToleranceExpiry (millivolt : Nat) (s : State) : Host.Outcome State Fault Refusal :=
  .next (match s.power.tolerated with
    | none => s
    | some since =>
      if toleratedMv millivolt && s.elapsed since 100000 && s.power.state ≠ .off then
        (s.updPower fun p => { p with
          inVolt := millivolt / 10, tolerated := none, overvoltage := p.overvoltage || decide (40000 < millivolt) }).inputLost
      else s)

/-- INPUT_SWITCH_CLOSE: after an overvoltage, input has been within 30 V to 40 V for 100 ms (R425). -/
def execInputSwitchClose (millivolt : Nat) (s : State) : Host.Outcome State Fault Refusal :=
  .next (
    if s.power.overvoltage && s.power.state = .off && 30000 ≤ millivolt && millivolt ≤ 40000 then
      s.updPower fun p => { p with overvoltage := false, switchOpen := false, inVolt := millivolt / 10 }
    else s)

/-- POWER_GOOD: the bulk capacitance is charged and start-up begins at phase FUSE; a bank found above 1 J raises one record (R426,
R429, R487). -/
def execPowerGood (residualMj millivolt : Nat) (s : State) : Host.Outcome State Fault Refusal :=
  .next (
    if s.power.state ≠ .off || !s.power.mated || s.power.overvoltage || millivolt < 30000 || 40000 < millivolt then s
    else
      let t := s.restart.updPower fun p => { p with
        switchOpen := false, inVolt := millivolt / 10, bleed := decide (1000 < residualMj) }
      if 1000 < residualMj then t.raise (faultOf 0x14 5) else t)

/-! ### The holdup bank (R206, R430, R431) -/

/-- The largest number up to 2^k - 1 above `acc` whose square is at most `n`. -/
def isqrtBits (n : Nat) : Nat → Nat → Nat
  | 0, acc => acc
  | k + 1, acc => if (acc + 2 ^ k) * (acc + 2 ^ k) ≤ n then isqrtBits n k (acc + 2 ^ k) else isqrtBits n k acc

/-- `holdup_energy_mj` of R430 in exact arithmetic: usable mJ for a capacitance in µF and a resistance in 0.1 mΩ. -/
def holdupMj (uf esr : Nat) : Nat :=
  (Nat.min 3800000000000000 (uf * 230400000000) - uf * ((180000 + 33 * esr) * (180000 + 33 * esr))) / 200000000000

/-- V_chg of R430 in 10 mV, rounded down (assumption log 61: DEDUCED, unsafe). -/
def chargeVolt (uf : Nat) : Nat := Nat.min 4800 (isqrtBits (380000000000 / uf) 14 0)

/-- HOLDUP_MEASURE: the first measurement after power good begins; a later one, due every 86,400,000,000 BT, holds D at B less
0.25 GiB first (R206, R430, R431). -/
def execHoldupMeasure (s : State) : Host.Outcome State Fault Refusal :=
  .next (
    let p := s.power
    let up := p.state ≠ .off && p.state ≠ .dusk && p.state ≠ .shutdown
    if !up || p.measuring then s
    else if !p.measured then s.updPower fun p => { p with measuring := true, lastMeasure := s.bt }
    else if !s.elapsed p.lastMeasure 86400000000 then s
    else
      let t : State := { s with tiers := { s.tiers with holdBack := true } }
      if s.dirtyBytes + 268435456 ≤ s.tiers.budget || s.dirtyBytes = 0 then
        t.updPower fun p => { p with measuring := true, lastMeasure := s.bt }
      else t)

/-- HOLDUP_MEASURE_END: the measurement ends; a valid result gives B, an invalid one leaves none and raises one record (R206, R209,
R430). -/
def execHoldupMeasureEnd (chargedOk : Bool) (microfarad esrTenthMilliohm : Nat) (s : State) :
    Host.Outcome State Fault Refusal :=
  .next (
    if !s.power.measuring then s
    else
      let ok := chargedOk && 5000 ≤ microfarad && microfarad ≤ 25000 && esrTenthMilliohm ≤ 1000
      let t : State := { s with tiers := { s.tiers with holdBack := false } }
      let t := t.updPower fun p => { p with measuring := false, measured := true, valid := ok }
      if ok then
        (t.updPower fun p => { p with
          energy := holdupMj microfarad esrTenthMilliohm, capUf := microfarad, esr := esrTenthMilliohm
          vchg := chargeVolt microfarad, count := sat16 (p.count + 1) }).deriveBudget.throttle
      else
        let t := t.deriveBudget.throttle
        if s.tiers.writeThrough then t.raise { faultOf 0x14 5 with budget := true } else t)

/-! ### Temperatures (R443, R444) -/

/-- Set CUT while a governor or thermal cut is in force (Table 22-5), and issue the die operations the cuts allow. -/
def State.noteCuts (s : State) : State :=
  (s.updPower fun p => { p with
    cut := 0 < p.thermalCut || 0 < p.governorCut || p.hotFlash || p.cutBackground || 0 < p.cutForeground || 0 < p.cutReads
    }).pumpFlash

/-- One threshold of Table 16-9: whether its action is in force and since when the temperature has been 3 °C below; the action ends
after 100 ms of that (R443). -/
def coolDown (now : Nat) (t limit : Int) (hot : Bool) (cool : Option Nat) : Bool × Option Nat :=
  if limit ≤ t then (true, none)
  else if !hot then (false, none)
  else if t ≤ limit - 30 then
    match cool with
    | none => (true, some now)
    | some since => if since + 100000 ≤ now then (false, none) else (true, some since)
  else (true, none)

/-- A thermal trip (R444, R497): in service the flush runs from the input and SHUTDOWN follows; while starting the drive enters it
at once, by failure THERMAL. -/
def State.thermalTrip (s : State) : State :=
  let t := s.updPower fun p => { p with trip := true }
  if s.power.state.flushes then (t.raise (faultOf 0x14 5)).trigger true .shutdown
  else if s.power.state = .starting then
    (t.updPower fun p => { p with state := .shutdown, shdnDone := true, failure := .thermal, measuring := false }).raise
      (faultOf 0x15 5)
  else s

/-- THERMAL_SAMPLE: temperatures in 0.1 °C, every 1 ms (R443, R444, R445). During a flush thresholds are ignored. -/
def execThermalSample (compute flash dram : Int) (s : State) : Host.Outcome State Fault Refusal :=
  .next (
    if s.power.state = .off then s
    else
      let t := s.updPower fun p => { p with tempCompute := compute, tempFlash := flash, tempDram := dram }
      if s.power.state = .dusk then t
      else
        let p := s.power
        let c := coolDown s.bt compute 950 p.hotCompute p.coolCompute
        let f := coolDown s.bt flash 700 p.hotFlash p.coolFlash
        let d := coolDown s.bt dram 950 p.hotDram p.coolDram
        let since := if 850 ≤ flash then (match p.flash85 with | some b => some b | none => some s.bt) else none
        let t := (t.updPower fun p => { p with
          hotCompute := c.1, coolCompute := c.2
          thermalCut := if 950 ≤ compute then Nat.min 15 (p.thermalCut + 1) else if c.1 then p.thermalCut else 0
          hotFlash := f.1, coolFlash := f.2, hotDram := d.1, coolDram := d.2, flash85 := since }).noteCuts
        let long := match since with | some b => s.elapsed b 1000000 | none => false
        if 1050 ≤ compute || long then t.thermalTrip else t)

/-! ### The governor (R37, R38, R424) -/

/-- One step of a cut of flash tokens: a sixteenth of the budget (assumption log 62: DESIGN CHOICE, unsafe). -/
def Power.tokenStep (p : Power) : Nat := ceilDiv p.flashLimit 16

/-- The next cut in the order of R38: background work, foreground tokens, the ARITH issue rate, reads. Reads are cut only while no
other operation holds tokens (R339). -/
def State.cutMore (s : State) : State :=
  let p := s.power
  if !p.cutBackground then s.updPower fun p => { p with cutBackground := true }
  else if p.cutForeground < p.flashLimit then
    s.updPower fun p => { p with cutForeground := Nat.min p.flashLimit (p.cutForeground + p.tokenStep) }
  else if p.governorCut < 15 then s.updPower fun p => { p with governorCut := p.governorCut + 1 }
  else if s.flash.ops.any fun o => o.kind ≠ .read && (o.st = .running || o.st = .suspending) then s
  else s.updPower fun p => { p with cutReads := Nat.min p.flashLimit (p.cutReads + p.tokenStep) }

/-- Take the last cut back. -/
def State.cutLess (s : State) : State :=
  let p := s.power
  if 0 < p.cutReads then s.updPower fun p => { p with cutReads := p.cutReads - p.tokenStep }
  else if 0 < p.governorCut then s.updPower fun p => { p with governorCut := p.governorCut - 1 }
  else if 0 < p.cutForeground then s.updPower fun p => { p with cutForeground := p.cutForeground - p.tokenStep }
  else s.updPower fun p => { p with cutBackground := false }

/-- The power limit in mW: the lowest of 720 W, the cap, and 20.0 A times the input voltage (R424). -/
def Power.limitMw (p : Power) (mv : Nat) : Nat := Nat.min (Nat.min 720000 (p.cap * 1000)) (20 * mv)

/-- Windows in a row above a limit, with one more. -/
def runLength (above : Bool) (n : Nat) : Nat := if above then n + 1 else 0

/-- A 1 ms window is over what R37 and Table 16-3 allow: above the peak, or the tenth in a row above the continuous limit. -/
def Power.overPeak (p : Power) (milliwatt milliamp : Nat) : Bool :=
  800000 < milliwatt || 22200 < milliamp || 10 ≤ p.overPower || 10 ≤ p.overCurrent

/-- GOVERNOR_WINDOW: the averages of a 1 ms window and of the last 100 ms. Over a limit of R37, Table 16-3 or the cap one more cut is
made, within them one is taken back (R38, R424; assumption log 62: DESIGN CHOICE, unsafe). The dusk flush is never cut. -/
def execGovernorWindow (milliwatt1ms milliwatt100ms milliamp1ms milliamp100ms millivolt : Nat) (s : State) :
    Host.Outcome State Fault Refusal :=
  .next (
    if s.power.state = .off then s
    else
      let t := s.updPower fun p => { p with
        inVolt := millivolt / 10, inAmp := milliamp100ms / 10, inWatt := milliwatt100ms / 100
        overPower := runLength (720000 < milliwatt1ms) p.overPower
        overCurrent := runLength (20000 < milliamp1ms) p.overCurrent
        tolerated := if toleratedMv millivolt then (match p.tolerated with | some b => some b | none => some s.bt) else none }
      if s.power.state = .dusk then t
      else
        let above := s.power.limitMw millivolt < milliwatt100ms || 20000 < milliamp100ms
          || t.power.overPeak milliwatt1ms milliamp1ms
        (if above then t.cutMore else t.cutLess).noteCuts)

/-! ### Power set-up writes (R437 to R439) -/

/-- A write of `PWR_CAP`: 300 to 720 W; below 720 the state is CAPPED, at 720 ACTIVE (R437). -/
def State.writeCap (v : Nat) (s : State) : State :=
  if v < 300 || 720 < v then s.updPower fun p => { p with err := true }
  else s.updPower fun p => { p with
    cap := v
    state := match p.state with
      | .active => if v < 720 then .capped else .active
      | .capped => if v < 720 then .capped else .active
      | st => st }

/-- A request of QUIESCENT: from ACTIVE while no job holds a cluster; refused otherwise (Table 16-7, R445). -/
def State.quiesce (s : State) : State :=
  if s.power.state = .quiescent then s
  else if s.power.state = .active && !(s.sched.jobs.any fun j => j.state = .running) then
    s.updPower fun p => { p with state := .quiescent }
  else s.updPower fun p => { p with err := true }

end Sys2Proof.Machine
end

