-- ==== Sys2Proof/Machine/Security.lean ====
section
/-! DEFINITION. Signed containers, the rollback counter, attestation, staging and activation, measurement reads (chapter 20). -/
namespace Sys2Proof.Machine

/-- Change the security block. -/
def State.updSec (f : Security → Security) (s : State) : State := { s with sec := f s.sec }

/-! ### Containers (R504, R505, Table 20-4) -/

/-- Bytes of the region of a target: firmware 12 MiB, configuration 256 KiB (R504). -/
def regionBytesOf (target : Nat) : Nat := if target = 1 then 12582912 else 262144

/-- Length of the container whose header is given. -/
def containerLen (b : Bytes) : Nat := 128 + field b 12 4 + 29856

/-- The header is as Table 20-4 gives for the target, and the container fits its region. -/
def headerOk (target : Nat) (b : Bytes) : Bool :=
  field b 0 4 = 0x4E544E43 && field b 4 2 = 1 && field b 6 1 = target && (target = 1 || target = 2) && field b 7 1 < 4
    && field b 8 2 ≤ 256 && (if target = 1 then field b 10 1 < 16 else field b 10 1 = 0) && field b 11 1 = 0
    && field b 12 4 ≠ 0 && (if target = 1 then field b 16 4 < field b 12 4 else field b 16 4 = 0) && allZero (slice b 20 108)
    && containerLen b ≤ regionBytesOf target

/-- Key slots a firmware container revokes. -/
def revokeSlots (b : Bytes) : List Nat := (List.range 4).filter fun i => bitAt (field b 10 1) i

/-- Key slot, key digest and signature are accepted, and a firmware does not revoke its own slot (R505). -/
def State.keyOk (s : State) (b : Bytes) : Bool :=
  let slot := field b 7 1
  let n := 128 + field b 12 4
  let pk := slice b n 64
  !s.sec.revoked.contains slot && s.sec.keyDigests.getD slot [] = digest64 pk && !(revokeSlots b).contains slot
    && Config.slhVerify pk (b.take (n + 64)) (slice b (n + 64) 29792)

/-- The rollback counter (R506). -/
def State.rollback (s : State) : Nat := s.sec.rollback.length

/-- A container is accepted (R505). -/
def State.containerOk (s : State) (target : Nat) (b : Bytes) : Bool :=
  headerOk target b && containerLen b ≤ b.length && s.keyOk (b.take (containerLen b)) && s.rollback ≤ field b 8 2

/-! ### Reports -/

/-- `BCN_TICK`: the epoch, with VALID clear while ACQUIRING (Table 22-5). -/
def State.tickReg (s : State) : Nat :=
  s.epoch % 2 ^ 63 + (if s.beacon.state = .acquiring then 0 else 2 ^ 63)

/-- SEC_STATUS.STATE (Table 20-7). -/
def SecState.code : SecState → Nat
  | .normal => 0 | .staging => 1 | .writing => 2 | .pending => 3 | .recovery => 4

/-- The identity row as commands report it (R502; assumption log 63: DESIGN CHOICE, safe). -/
def State.identityRow (s : State) : Bytes :=
  if s.sec.identity = [] then (List.range 4096).map Config.recoveryRow else fitBytes 4096 s.sec.identity

/-- The attestation report (Table 20-9). -/
def State.report (s : State) (nonce : Bytes) : Bytes :=
  let rec_ := s.power.phase = .recovery
  let row := s.identityRow
  let flags := bit01 rec_ + 2 * bit01 s.sec.logFull
    + 4 * bit01 (s.beacon.state = .locked || s.beacon.state = .holdover) + 8 * bit01 s.sec.lock + 16 * bit01 s.sec.certBad
  leBytes 4 0x54545441 ++ leBytes 2 1 ++ slice row 6 1 ++ leBytes 1 s.sec.state.code ++ slice row 8 16
    ++ leBytes 2 (if rec_ then 0 else s.sec.fwVersion) ++ leBytes 2 (if rec_ then 0 else s.sec.cfgVersion)
    ++ leBytes 2 s.rollback ++ leBytes 2 flags ++ leBytes 4 s.sec.log.length ++ zeroBytes 4 ++ leBytes 8 s.tickReg
    ++ zeroBytes 16 ++ fitBytes 64 nonce ++ s.sec.m.flatMap (fitBytes 64) ++ zeroBytes 128

/-- A log entry (R509). -/
def LogEntry.bytes (e : LogEntry) : Bytes :=
  leBytes 4 e.seq ++ leBytes 1 e.reg ++ zeroBytes 1 ++ leBytes 2 e.version ++ leBytes 4 e.typ ++ leBytes 4 e.obj
    ++ fitBytes 64 e.digest

/-! ### Specs of the opcodes (Table 20-6) -/

/-- IDENTITY_READ, 0x08. -/
def State.specIdentityRead (_s : State) (e : Bytes) : OpSpec :=
  { result := true, reserved := [(40, 24)], length6 := [(field e 28 4 < 34208, 28)] }

/-- ATTEST, 0x09. -/
def State.specAttest (_s : State) (e : Bytes) : OpSpec :=
  { data := true, result := true, reserved := [(40, 24)]
    length6 := [(field e 24 4 ≠ 64, 24), (field e 28 4 < 36432, 28)] }

/-- TARGET names firmware or configuration. -/
def targetBad (e : Bytes) : Bool := field e 40 1 ≠ 1 && field e 40 1 ≠ 2

/-- FW_STAGE, 0x0A. -/
def State.specFwStage (_s : State) (e : Bytes) : OpSpec :=
  { data := true, reserved := [(42, 2), (48, 16)], bits4 := [(1 < field e 41 1, 41)]
    field5 := [(targetBad e, 40), (field e 44 4 % 4096 ≠ 0, 44)]
    length6 := [(field e 24 4 = 0 || 1048576 < field e 24 4
                  || regionBytesOf (field e 40 1) < field e 44 4 + field e 24 4, 24)] }

/-- FW_ACTIVATE, 0x0B. -/
def State.specFwActivate (_s : State) (e : Bytes) : OpSpec :=
  { data := true, reserved := [(42, 2), (48, 16)], bits4 := [(1 < field e 41 1, 41)], field5 := [(targetBad e, 40)]
    length6 := [(field e 24 4 ≠ 64, 24), (field e 44 4 = 0, 44)] }

/-- ROLLBACK_ADVANCE, 0x0C. -/
def State.specRollbackAdvance (_s : State) (e : Bytes) : OpSpec :=
  { data := true, reserved := [(40, 24)], length6 := [(field e 24 4 ≠ 64, 24)] }

/-- MEASURE_READ, 0x0D. -/
def State.specMeasureRead (_s : State) (e : Bytes) : OpSpec :=
  { result := true, reserved := [(44, 20)]
    field5 := [(512 ≤ field e 28 4 && (field e 28 4 - 512) % 80 ≠ 0, 28)], length6 := [(decide (field e 28 4 < 512), 28)] }

/-! ### Identity, measurement, attestation -/

/-- IDENTITY_READ: the row, then the certificate (R502, R503). -/
def execIdentityRead (slot : Nat) (s : State) : Host.Outcome State Fault Refusal :=
  .next (s.runCmd slot 0x08 true fun c =>
    (s.writeResult c 0 (s.identityRow ++ fitBytes 30112 s.sec.certificate)).done slot 0)

/-- MEASURE_READ: M0 to M7, then log entries from FIRST_SEQ (R519). -/
def execMeasureRead (slot : Nat) (s : State) : Host.Outcome State Fault Refusal :=
  .next (s.runCmd slot 0x0D true fun c =>
    let es := (s.sec.log.filter fun e => c.arg 40 4 ≤ e.seq).take ((c.resultLen - 512) / 80)
    (s.writeResult c 0 (s.sec.m.flatMap (fitBytes 64) ++ es.flatMap LogEntry.bytes)).done slot es.length)

/-- The signing engine takes the first ATTEST that waits, in admission order: its report is taken now (R518, Table 20-11). -/
def State.signNext (s : State) : State :=
  if s.sec.signing.isSome then s
  else
    let waits := s.atr.slots.filter fun c => c.phase = .running && c.work = .attest []
    match lowest (waits.map (·.order)) with
    | none => s
    | some o => match waits.find? (·.order = o) with
      | none => s
      | some c => (s.updSec fun q => { q with signing := some c.id }).setWork c.id (.attest (s.report (s.dataBytes c)))

/-- ATTEST: refused where the attestation secret does not read; otherwise it waits for the signing engine (R518). -/
def execAttest (slot : Nat) (s : State) : Host.Outcome State Fault Refusal :=
  .next (s.runCmd slot 0x09 true fun _ =>
    if !s.sec.attestOk then s.fail slot .accessDenied 0
    else (s.setWork slot (.attest [])).signNext)

/-- SIGNATURE_END: the signature is made; the report and it are written, and the next ATTEST begins (R518). -/
def execSignatureEnd (s : State) : Host.Outcome State Fault Refusal :=
  .next (match s.sec.signing with
    | none => s
    | some id => match s.slot? id with
      | none => (s.updSec fun q => { q with signing := none }).signNext
      | some c => match c.work with
        | .attest r =>
          if s.still || !s.reachable (s.ringOf c.sq) then s
          else
            let t := (s.writeResult c 0 (r ++ fitBytes 35664 (Config.slhSign r))).done id 0
            (t.updSec fun q => { q with signing := none }).signNext
        | _ => (s.updSec fun q => { q with signing := none }).signNext)

/-! ### Firmware (R512 to R517, R520) -/

/-- UPDATE_LOCK holds: in RECOVERY it has no effect (R517, R520). -/
def State.updateLocked (s : State) : Bool := s.sec.lock && s.power.phase ≠ .recovery

/-- FW_STAGE: the data is copied into the staging buffer (R513, R517, R521). -/
def execFwStage (slot : Nat) (s : State) : Host.Outcome State Fault Refusal :=
  .next (s.runCmd slot 0x0A false fun c =>
    if s.updateLocked || s.sec.state = .writing then s.fail slot .accessDenied 0
    else
      let old := if bitAt (c.arg 41 1) 0 then [] else s.sec.staged
      (s.updSec fun q => { q with
        staged := memWrite old (c.arg 44 4) (s.dataBytes c), target := c.arg 40 1
        state := if q.state = .pending then .pending else .staging }).done slot c.dataLen)

/-- The first check of Table 20-8 that fails. -/
def State.activateFault (s : State) (c : Slot) : Option (Status × Nat) :=
  let target := c.arg 40 1
  let n := c.arg 44 4
  let b := memRead s.sec.staged 0 n
  if s.updateLocked || (s.sec.state ≠ .staging && s.sec.state ≠ .pending) || target ≠ s.sec.target then
    some (.accessDenied, 0)
  else if regionBytesOf target < n then some (.invalidLength, 44)
  else if digest64 b ≠ s.dataBytes c then some (.measurementMismatch, 0)
  else if !headerOk target b then some (.invalidField, 40)
  else if n ≠ containerLen b then some (.invalidField, 44)
  else if !s.keyOk b then some (.authFailed, 0)
  else if field b 8 2 < s.rollback then some (.rollbackRefused, 0)
  else none

/-- FW_ACTIVATE: the checks of Table 20-8; then M4 is extended and the serial flash is written (R514). The security block performs one
signature operation at a time: while it signs, the command waits (R501). -/
def execFwActivate (slot : Nat) (s : State) : Host.Outcome State Fault Refusal :=
  .next (s.runCmd slot 0x0B false fun c =>
    if s.sec.signing.isSome then s
    else match s.activateFault c with
    | some f => s.fail slot f.1 f.2
    | none =>
      let b := memRead s.sec.staged 0 (c.arg 44 4)
      ((s.extend 4 0x32 0 0 (digest64 b)).updSec fun q => { q with
        state := .writing, writing := some (c.arg 40 1, b, 0, bitAt (c.arg 41 1) 0) }).setWork slot .fwWrite)

/-- The command that writes the serial flash. -/
def State.fwSlot? (s : State) : Option Slot := s.atr.slots.find? fun c => c.phase = .running && c.work = .fwWrite

/-- Complete the activation. -/
def State.fwDone (st : Status) (s : State) : State :=
  match s.fwSlot? with
  | some c => s.finish c.id st 0 0
  | none => s

/-- A container is written and reads back right: it is PENDING, and with RESTART, or in RECOVERY, the drive restarts once the
completion has posted (R514, R515, R520). -/
def State.fwWritten (target : Nat) (b : Bytes) (restart : Bool) (s : State) : State :=
  let t := (s.updSec fun q => { q with
    state := .pending, writing := none
    firmware := if target = 1 then some b else q.firmware, config := if target = 2 then some b else q.config
    fwInvalid := q.fwInvalid && target ≠ 1, cfgInvalid := q.cfgInvalid && target ≠ 2 }).fwDone .ok
  if t.power.phase = .recovery then
    ({ t with atr := { t.atr with stopped := true } } : State).updPower fun p => { p with restartAfter := true }
  else if restart then (t.updPower fun p => { p with restartAfter := true }).askShutdown
  else t

/-- FW_WRITE_END: an attempt at erasing and programming the region ends, and reads back right or not; after the third failure the
region is invalid and the state STAGING (R514). -/
def execFwWriteEnd (good : Bool) (s : State) : Host.Outcome State Fault Refusal :=
  .next (match s.sec.writing with
    | none => s
    | some w =>
      if s.still then s
      else if good then s.fwWritten w.1 w.2.1 w.2.2.2
      else if w.2.2.1 < 2 then s.updSec fun q => { q with writing := some (w.1, w.2.1, w.2.2.1 + 1, w.2.2.2) }
      else
        (s.updSec fun q => { q with
          state := .staging, writing := none, fwInvalid := q.fwInvalid || w.1 = 1
          cfgInvalid := q.cfgInvalid || w.1 = 2 }).fwDone .mediaUncorrectable)

/-- ROLLBACK_ADVANCE: blow the lowest unblown bits, leaving those that stay unblown after their pulses, until the counter equals the
running firmware's SEC_VERSION; then revoke its key slots (R506, R516). -/
def execRollbackAdvance (slot : Nat) (stuck : List Nat) (s : State) : Host.Outcome State Fault Refusal :=
  .next (s.runCmd slot 0x0C false fun c =>
    if s.updateLocked || s.sec.state = .writing then s.fail slot .accessDenied 0
    else if s.sec.m.getD 0 [] ≠ s.dataBytes c then s.fail slot .measurementMismatch 0
    else
      let free := (List.range 256).filter fun i => !s.sec.rollback.contains i && !stuck.contains i
      let blown := free.take (s.sec.fwVersion - s.rollback)
      let t := s.updSec fun q => { q with
        rollback := q.rollback ++ blown, revoked := (q.revoked ++ q.fwRevoke).eraseDups }
      let t := if blown = [] then t else t.extend 4 0x30 0 0 (leBytes 64 t.rollback)
      t.done slot t.rollback)

/-- Set the update lock; it is measured when it is set (R517, Table 20-5). -/
def State.setUpdateLock (s : State) : State :=
  if s.sec.lock then s else (s.updSec fun q => { q with lock := true }).extend 4 0x31 0 0 (zeroBytes 64)

/-- UPDATE_LOCK: a write of 1 to `SEC_LOCK` (R517). -/
def execUpdateLock (port : Nat) (s : State) : Host.Outcome State Fault Refusal :=
  .next (if s.regOpen port .sec then s.setUpdateLock else s)

end Sys2Proof.Machine
end

