-- ==== Sys2Proof/Machine/Startup.lean ====
section
/-! DEFINITION. From power good to service: fuses, configuration, memory fill, core release, mount, and the failure paths
(chapter 19, R332, R337, R361, R372, R455, R456, R490 to R498). -/
namespace Sys2Proof.Machine

/-- The drive is starting up in the phase. -/
def State.inPhase (s : State) (p : Phase) : Bool := s.power.state = .starting && s.power.phase = p

/-- Core release has not come: no docent core runs (R479, R498). -/
def Phase.beforeCores : Phase → Bool
  | .fuse | .config | .sram | .dram | .halted => true
  | _ => false

/-- Start-up passes to a phase; from core release the pins belong to the drive's own logic (R479). -/
def State.toPhase (p : Phase) (s : State) : State :=
  let t := s.updPower fun q => { q with phase := p }
  if p.beforeCores then t else { t with test := { t.test with holdsPins := false, highZ := false } }

/-- A start-up failure: its code, one record of class 0x15, and its course (R497, Table 19-3). -/
def State.startFail (f : StartFailure) (course : Phase) (s : State) : State :=
  ((s.updPower fun p => { p with failure := f }).toPhase course).raise { faultOf 0x15 5 with detail := f.code }

/-! ### Fuse load (R447, R455, R489, R500) -/

/-- A unit that the fuse map lists as bad starts CLOSED (R489; assumption log 66: DEDUCED, unsafe). -/
def fuseUnit (k : UnitKind) (p : Nat) (bad : Bool) (spare : Bool) (logical : Option Nat) : SvcUnit :=
  { kind := k, phys := p, state := if bad then .closed else .inService, logical := if bad then none else logical
    spare := spare && !bad, bad := bad }

/-- Units of a kind under the fuse map: bad ones closed, spares without a number, the rest numbered without gaps (R11, R29, R489). -/
def fuseList (k : UnitKind) (bad spare : List Nat) : List Nat → Nat → List SvcUnit
  | [], _ => []
  | p :: ps, n =>
    if bad.contains p then fuseUnit k p true false none :: fuseList k bad spare ps n
    else if spare.contains p then fuseUnit k p false true none :: fuseList k bad spare ps n
    else fuseUnit k p false false (some n) :: fuseList k bad spare ps (n + 1)

/-- Every service unit the fuse map gives; the units that depend on the grade follow at core release. -/
def fuseUnitsOf (m : FuseMap) : List SvcUnit :=
  fuseList .cluster m.badClusters m.spareClusters (List.range m.builtClusters) 0
    ++ fuseList .docent m.badDocents m.spareDocents (List.range 14) 0
    ++ State.fuseUnits .engine [] (List.range 64) 0 ++ State.fuseUnits .dram [] (List.range 12) 0
    ++ State.fuseUnits .port [] (List.range 2) 0 ++ State.fuseUnits .reduction [] (List.range 1) 0

/-- The fuse state as stored, that M1 is extended with: FW_KEY_DIGEST, KEY_REVOKE in a byte, ROLLBACK (Table 20-1, Table 20-5;
assumption log 64: DESIGN CHOICE, unsafe). -/
def Security.fuseBytes (q : Security) : Bytes :=
  let bits := fun (l : List Nat) (n : Nat) => leBytes (n / 8) (l.foldl (fun v i => v ||| 2 ^ i) 0)
  (List.range 4).flatMap (fun i => fitBytes 64 (q.keyDigests.getD i [])) ++ bits q.revoked 8 ++ bits q.rollback 256

/-- Both lane groups of a link are faulted (R447). -/
def State.deadLink? (s : State) : Option Nat :=
  (List.range 3).find? fun l => s.err.laneGroups.contains (l, 0) && s.err.laneGroups.contains (l, 1)

/-- Apply the fuse map (R455, R489, R500). A fuse that is blown stays blown (R506). -/
def State.applyFuses (m : FuseMap) (s : State) : State :=
  let us := fuseUnitsOf m
  let t : State := { s with
    units := us, clustersBuilt := m.builtClusters
    clustersLogical := (us.filter fun u => u.kind = .cluster ∧ u.logical ≠ none).length
    sec := { s.sec with
      keyDigests := m.keyDigests, revoked := (s.sec.revoked ++ m.keyRevoke).eraseDups
      rollback := (s.sec.rollback ++ m.rollbackBits).eraseDups, attestOk := m.attestCrcOk } }
  t.extend 1 0x10 0 0 (digest64 t.sec.fuseBytes)

/-- FUSE_LOAD_END: the first copy of the fuse map whose CRC holds is applied; with none the drive is HALTED. A link whose two lane
groups are faulted takes failure INTERFACE (R447, R489, R497). -/
def execFuseLoadEnd (copyA copyB : Option FuseMap) (s : State) : Host.Outcome State Fault Refusal :=
  .next (
    if !s.inPhase .fuse then s
    else match (match copyA with | some m => some m | none => copyB) with
      | none => s.startFail .fuseMap .halted
      | some m =>
        let t := s.applyFuses m
        match t.deadLink? with
        | some l => t.startFail .iface (if l = 2 then .halted else .held)
        | none => t.toPhase .config)

/-! ### Configuration load (R490, R498, R505, R520) -/

/-- The boot ROM recovery loader starts (R498, R520). -/
def State.enterRecovery (f : StartFailure) (s : State) : State :=
  let t := (s.startFail f .recovery).updSec fun q => { q with state := .recovery }
  (t.extend 0 0x01 0 0 (fitBytes 64 Config.romDigest)).extend 0 0x04 0 0 (zeroBytes 64)

/-- Accept one container, or not: accepted it is measured (R505, Table 20-5). -/
def State.acceptContainer (target : Nat) (bad : Bool) (b : Bytes) (s : State) : Option State :=
  if bad || !s.containerOk target b then none
  else
    let c := b.take (containerLen b)
    let t := s.extend 0 (if target = 1 then 0x03 else 0x02) 0 0 (digest64 c)
    some (t.updSec fun q =>
      if target = 1 then { q with fwVersion := field c 8 2, fwRevoke := revokeSlots c }
      else { q with cfgVersion := field c 8 2 })

/-- CONFIG_LOAD_END: the configuration and firmware containers have been read, or not after three attempts; each that is accepted is
measured, and anything else takes RECOVERY. What FW_ACTIVATE wrote stands in the regions (R490, R514, R521). -/
def execConfigLoadEnd (config firmware : Option (List Byte)) (certificate : List Byte) (s : State) :
    Host.Outcome State Fault Refusal :=
  .next (
    if !s.inPhase .config then s
    else
      let s := s.updSec fun q => { q with certificate := fitBytes 30112 certificate }
      match config, firmware with
      | some c, some f =>
        let c := match s.sec.config with | some b => b | none => c
        let f := match s.sec.firmware with | some b => b | none => f
        match s.acceptContainer 2 s.sec.cfgInvalid c with
        | none => s.enterRecovery .configAuth
        | some t => match t.acceptContainer 1 s.sec.fwInvalid f with
          | none => t.enterRecovery .configAuth
          | some u => u.toPhase .sram
      | _, _ => s.enterRecovery .configRead)

/-! ### Memory fill and core release (R337, R491, R492, R502) -/

/-- A unit starts CLOSED; it is numbered at the mount (R491, R493). -/
def State.startClosed (k : UnitKind) (p : Nat) (s : State) : State := s.closeNumber k p

/-- SRAM_FILL_END: words that failed are repaired, clusters and docent cores that cannot be start CLOSED, any other word that fails
takes failure MEMORY (R491, R456; assumption log 65: DESIGN CHOICE, unsafe). -/
def execSramFillEnd (repaired closedClusters closedDocents : List Nat) (memoryFail : Bool) (s : State) :
    Host.Outcome State Fault Refusal :=
  .next (
    if !s.inPhase .sram then s
    else if memoryFail then s.startFail .memory .held
    else
      let built := fun k p => (s.unit? k p).isSome
      let t := (repaired.filter (built .cluster)).foldl (fun t p => t.repairRowOf p 0) s
      let t := (closedClusters.filter (built .cluster)).foldl (fun t p => t.startClosed .cluster p) t
      let t := (closedDocents.filter (built .docent)).foldl (fun t p => t.startClosed .docent p) t
      t.toPhase .dram)

/-- Copies of the identity row that hold their CRC. -/
def validRows (l : List IdentityCopy) : List Bytes := (l.filter (·.crcOk)).map (·.row)

/-- The identity row: one that two valid copies agree on, with no other on which two agree (R337). -/
def chooseRow (l : List IdentityCopy) : Option Bytes :=
  let rows := validRows l
  match (rows.filter fun r => 2 ≤ rows.count r).eraseDups with
  | [r] => some r
  | _ => none

/-- One record for each copy that disagrees with the chosen row or fails its CRC (R337). -/
def State.noteCopies (row : Bytes) (l : List IdentityCopy) (s : State) : State :=
  (l.mapIdx fun i c => (i, c)).foldl (fun t x =>
    if x.2.crcOk && x.2.row = row then t
    else t.raise { faultOf 0x15 0 with location := physAddr ⟨16 * x.1, 0⟩ 0 0 false }) s

/-- The units of the grade: its DRAM controllers, and the reduction engine where it has one (R13, R492). -/
def State.fitGrade (g : Grade) (s : State) : State :=
  { s with
    grade := g
    units := s.units.filter fun u =>
      !(u.kind = .dram && g.packages ≤ u.phys) && !(u.kind = .reduction && !g.hasReduction)
    power := { s.power with flashLimit := g.flashTokens } }

/-- The certificate's digest is compared with the row's (R502). -/
def State.checkCert (s : State) : State :=
  if digest64 s.sec.certificate = slice s.sec.identity 80 64 then s
  else (s.updSec fun q => { q with certBad := true }).raise (faultOf 0x15 5)

/-- Core release: identity row, grade, built cluster count (R4, R337, R492). -/
def State.coreRelease (identity : List IdentityCopy) (s : State) : State :=
  match chooseRow identity with
  | none => s.startFail .identity .held
  | some row =>
    let t := ((s.updSec fun q => { q with identity := row }).noteCopies row identity).extend 1 0x11 0 0 (digest64 row)
    match gradeOf (field row 6 1) with
    | none => t.startFail .grade .held
    | some g =>
      if t.clustersBuilt ≠ g.clustersBuilt then t.startFail .grade .held
      else ((t.fitGrade g).checkCert.setBudget).toPhase .mount

/-- Units the factory map names as bad are never used (R317, R337). -/
def State.markBad (bad : List (Die × Nat)) (s : State) : State :=
  (bad.filter fun x => s.grade.hasDie x.1 && x.2 < unitsPerDie && !s.listed x.1 x.2).foldl
    (fun t x => t.updEunit x.1 x.2 fun e => { e with state := .bad }) s

/-- DRAM_FILL_END: packages are trained and filled, a package that fails leaves its controller CLOSED, and the docent cores are
released; the identity row and the factory bad-unit maps are read from the dies' one-time-programmable pages (R317, R337, R491,
R492). -/
def execDramFillEnd (failed : List Nat) (identity : DieRows) (s : State) :
    Host.Outcome State Fault Refusal :=
  .next (
    if !s.inPhase .dram then s
    else
      let t := (failed.filter fun p => p < 12).foldl (fun t p => t.startClosed .dram p) s
      (t.coreRelease (identity.copies.take 4)).markBad identity.bad)

/-! ### Mount (R332, R361, R372, R493, R494) -/

/-- Units the repair list names start CLOSED (R456, R493). -/
def State.applyRepairs (s : State) : State :=
  s.err.repairs.foldl (fun t r => match r with
    | .notInService k p => match kindOf k with
      | some k => if t.unitIs k p .inService then t.closeNumber k p else t
      | none => t
    | _ => t) s

/-- A unit is named by the repair list. -/
def onList (l : List Repair) (u : SvcUnit) : Bool := l.contains (.notInService u.kind.code u.phys)

/-- Closure numbers of the units that start CLOSED, from the first on (R464, R493). -/
def numberUnits : List SvcUnit → Nat → State → State
  | [], n, s => { s with err := { s.err with nextClosure := n } }
  | u :: us, n, s => numberUnits us (wrapClosure n) (s.updUnit u.kind u.phys fun v => { v with closure := n })

/-- The class of a unit that start-up itself closed (R470): a cluster's store, a docent core, a package that fails training. -/
def startClass (k : UnitKind) : Nat := if k = .cluster then 0x03 else if k = .docent then 0x0E else 0x0F

/-- Closure numbers go to the units of the repair list and the bad units of the fuse map, by KIND and physical number, then to
those R491 closed, of which each raises its record (R464, R470, R493; assumption log 66: DEDUCED, unsafe). -/
def State.numberClosed (old : List Repair) (s : State) : State :=
  let closed := s.units.filter fun u => u.state = .closed
  let first := closed.filter (fun u => u.bad || onList old u)
  let then_ := closed.filter fun u => !(u.bad || onList old u)
  let t := numberUnits (first ++ then_) 1 s
  then_.foldl (fun t u => t.raise (faultUnit (startClass u.kind) 2 u.kind u.phys
    (match t.unit? u.kind u.phys with | some v => v.closure | none => 0))) t

/-- Every kind keeps its minimum of Table 1-9 in service. -/
def State.meetsMinimum (s : State) : Bool :=
  1 ≤ (s.inService .cluster).length && 8 ≤ (s.inService .docent).length && 2 ≤ (s.inService .dram).length
    && 1 ≤ (s.inService .port).length
    && (List.range 8).all fun g => (s.inService .engine).any fun u => fcg u.phys = g

/-- A volatile object that held a dirty page, a BUILDING version, or an append under way when power was lost (R189, R270). -/
def Obj.losesAll (o : Obj) : Bool := !o.durable && (o.appending || o.unsaved)

/-- Delete the volatile objects that R189 names, listing and counting them. -/
def State.dropVolatile (s : State) : State :=
  let gone := (s.tiers.objects.filter Obj.losesAll).map (·.id)
  let l := s.tiers.lostList ++ gone
  let t : State := { s with tiers := { s.tiers with
    objects := s.tiers.objects.filter fun o => !o.losesAll
    lostList := l.drop (l.length - 4096), lostCount := sat32 (s.tiers.lostCount + gone.length) } }
  if gone.isEmpty then t else t.raise { faultOf 0x18 5 with dataLost := true }

/-- Versions that nothing pins are dropped with their homes, and objects given up with them (R196, R199). -/
def State.settleAll (s : State) : State :=
  s.tiers.objects.foldl (fun t o =>
    (t.updObj o.id fun o => { o with appending := false, unsaved := false }).settleObj o.id) s

/-- The BUILDING versions of merges that were cut off are retired (R249, R494). -/
def State.dropMerges (s : State) : State :=
  (s.tiers.objects.filter (·.merging)).foldl (fun t o =>
    let t := match o.building? with | some v => t.retire o.id v.num | none => t
    t.updObj o.id fun o => { o with merging := false }) s

/-- Units with an INTENT and no later DONE, or left ERASING, are erased again before they are used, in the mode of their INTENT (R320,
R332). -/
def State.reErase (s : State) : State :=
  let open_ := s.flash.journal.filter s.openIntent
  let done := open_.mapIdx fun i r =>
    { r with typ := JournalType.done, seq := s.flash.nextSeq + i, durableA := true, durableB := true }
  let mode := fun e : EraseUnit => match (open_.filter fun r => r.die = e.die && r.unit = e.unit).getLast? with
    | some r => r.slc
    | none => e.slc
  let hit := fun e : EraseUnit => e.state = .erasing || (open_.any fun r => r.die = e.die && r.unit = e.unit)
  let t : State := { s with flash := { s.flash with
    units := updWhere hit (fun e => { e.erased (mode e) with state := .free, failing := false }) s.flash.units
    journal := s.flash.journal ++ done, nextSeq := s.flash.nextSeq + open_.length } }
  (s.flash.units.filter hit).foldl (fun t e => t.unbindUnit (t.grade.dieIndex e.die) e.unit) t

/-! ### Replaying the dusk region (R354, R360, R361) -/

/-- The parity page of a row of dusk units is programmed and can be read. -/
def State.duskCovered (s : State) (g slot : Nat) : Bool :=
  s.flash.duskParity.any fun p => p.group = g && p.slot = slot && p.page < (s.eunit (s.grade.dieOf p.die) p.unit).n

/-- Slot `i` of a die's dusk unit gives its page back: it was programmed, and it can be read, or rebuilt as the one page of its row that can
not (R354, R361). `bad` lists pages that can not be read, by die index and slot. -/
def State.duskSurvives (s : State) (bad : List (Nat × Nat)) (x : DuskDie) (i : Nat) : Bool :=
  let gone := fun y : DuskDie => i < y.pages.length && ((s.eunit y.die y.unit).n ≤ i || bad.contains (s.grade.dieIndex y.die, i))
  !gone x || (s.duskCovered (stripeGroup x.die) i
    && (s.flash.dusk.filter fun y => stripeGroup y.die = stripeGroup x.die && gone y).length = 1)

/-- The pages of a die that survive. -/
def State.duskGood (s : State) (bad : List (Nat × Nat)) (x : DuskDie) : List DuskPage :=
  ((x.pages.mapIdx fun i p => (i, p)).filter fun y => s.duskSurvives bad x y.1).map (·.2)

/-- A die's trailer survives. -/
def State.trailerGood (s : State) (bad : List (Nat × Nat)) (x : DuskDie) : Bool := s.duskSurvives bad x (x.pages.length - 1)

/-- The page holds a unit of the atomic write. -/
def DuskPage.ofAtomic (id : Nat) : DuskPage → Bool
  | .data _ a _ => a = some id
  | _ => false

/-- The atomic write can be applied: every die that holds a unit of it has its trailer, and every page of it survives (R361, R388). -/
def State.atomicGood (s : State) (bad : List (Nat × Nat)) (id : Nat) : Bool :=
  (s.flash.dusk.filter fun x => x.pages.any (DuskPage.ofAtomic id)).all fun x =>
    s.trailerGood bad x && (x.pages.filter (DuskPage.ofAtomic id)).length
      = ((s.duskGood bad x).filter (DuskPage.ofAtomic id)).length

/-- Data units that the region gives back, with what is applied of atomic writes only whole, in the order they were laid. -/
def State.duskData (s : State) (bad : List (Nat × Nat)) : List (Nat × Bytes) :=
  s.flash.dusk.flatMap fun x => (s.duskGood bad x).filterMap fun p => match p with
    | .data lun none bs => some (lun, bs)
    | .data lun (some id) bs => if s.atomicGood bad id then some (lun, bs) else none
    | _ => none

/-- Put the bytes of a unit where its data is. -/
def State.restoreUnit (lun : Nat) (bs : Bytes) (s : State) : State :=
  match s.ownerOf? lun with
  | some x => s.updVer x.1.id x.2.1.num fun v =>
      { v with data := memWrite (memErase v.data (x.2.2 * 65536) 65536) (x.2.2 * 65536) bs }
  | none => { s with block := { s.block with data := memWrite (memErase s.block.data (lun * 65536) 65536) (lun * 65536) bs } }

/-- A unit of the region is applied: rewritten through the HOST stream (R361). -/
def State.applyUnit (x : Nat × Bytes) (s : State) : State :=
  let t := s.restoreUnit x.1 x.2
  let item := match t.ownerOf? x.1 with
    | some o => StoreItem.object o.1.id o.2.1.num o.2.2
    | none => .block x.1
  let g := t.someGroup
  (g.2.sendUnit .foreground item g.1 0 true x.1 x.2 false).2

/-- A page of map pages is installed, and queued for the MAP stream (R361). -/
def State.applyMaps (ms : List Nat) (es : List (Nat × Nat)) (s : State) : State :=
  let put := fun l : List (Nat × Nat) => es.foldl (fun l e => putPair e.1 e.2 l) (l.filter fun e => !ms.contains (e.1 / 1024))
  ({ s with ftl := { s.ftl with map := put s.ftl.map } } : State).rejournal ms

/-- Logical units that a surviving index lists, whose page is missing, and which belong to no atomic write: they are LOST (R361). -/
def State.duskLost (s : State) (bad : List (Nat × Nat)) : List Nat :=
  s.flash.dusk.flatMap fun x =>
    if s.duskSurvives bad x 0 then
      ((x.pages.mapIdx fun i p => (i, p)).filter fun y => !(s.duskSurvives bad x y.1)).filterMap fun y => match y.2 with
        | .data lun none _ => some lun
        | _ => none
    else []

/-- Units of the atomic writes that are not applied. -/
def State.duskRefused (s : State) (bad : List (Nat × Nat)) : List (Nat × List Nat) :=
  ((s.flash.dusk.flatMap fun x => atomicsOf x.pages).eraseDups.filter fun i => !(s.atomicGood bad i)).map fun i =>
    (i, s.flash.dusk.flatMap fun x => x.pages.filterMap fun p => match p with
      | .data lun a _ => if a = some i then some lun else none
      | _ => none)

/-- Something of the region is missing: a trailer, or an indexed page. -/
def State.duskBroken (s : State) (bad : List (Nat × Nat)) : Bool :=
  s.flash.dusk.any fun x => (List.range x.pages.length).any fun i => !(s.duskSurvives bad x i)

/-- The dusk pages are applied. Units that the region does not give back and that no index lists read as flash holds them; of an atomic write
that is not whole the range keeps its old data, with one record that names it (R361, R388, R468). -/
def State.replayDusk (bad : List (Nat × Nat)) (s : State) : State :=
  let data := s.duskData bad
  let lost := (s.duskLost bad).eraseDups
  let maps := s.flash.dusk.flatMap fun x => (s.duskGood bad x).filterMap fun p => match p with
    | .maps ms es => some (ms, es)
    | _ => none
  let t := maps.foldl (fun t m => t.applyMaps m.1 m.2) s
  let old := t.ftl.unsaved.filter fun u => !(data.any fun x => x.1 = u) && !lost.contains u
  let t := old.foldl (fun t u => t.restoreUnit u (t.flashUnit u)) t
  let t := data.foldl (fun t x => t.applyUnit x) t
  let t := lost.foldl (fun t u => t.loseUnits u 1) t
  let t := if s.duskBroken bad then t.raise { faultOf 0x16 5 with dataLost := true, location := lost.headD 0 } else t
  (s.duskRefused bad).foldl (fun t x => t.raise
    { faultOf 0x16 5 with dataLost := true, location := 16 * x.2.foldl Nat.min (x.2.headD 0), detail := 16 * x.2.length }) t

/-- A page of the last programmed wordline of an OPEN unit can not be read: what is valid there is rebuilt from the row's parity and written
to another open unit, or lost where the row has none, and the unit closes (R328). -/
def State.repairPage (x : Nat × Nat × Nat) (s : State) : State :=
  let d := s.grade.dieOf x.1
  let e := s.eunit d x.2.1
  let last := if e.slc then x.2.2 + 1 = e.n else x.2.2 < e.n && x.2.2 / 4 = (e.n - 1) / 4
  if e.state ≠ .opened || !last then s
  else
    let covered := s.ftl.rows.any fun r => r.parity && r.gen = e.gen && r.n = x.2.2
    let luns := (s.validLuns d x.2.1).filter fun l => (s.readSlots l).contains (d, x.2.1, x.2.2)
    let t := (s.leaveSet d x.2.1).updEunit d x.2.1 fun y => { y with state := .closed, closedBt := s.bt }
    if covered then luns.foldl (fun t l => t.storeMove .foreground (stripeGroup d) l) t
    else
      let t := luns.foldl (fun t l => t.loseUnits l 1) t
      if luns.isEmpty then t else t.raise { faultOf 0x08 4 with dataLost := true, location := physAddr d x.2.1 x.2.2 e.slc }

/-- After a mount that did not follow a clean shutdown every read counter is raised by one quarter of its threshold (R366). -/
def State.raiseReads (s : State) : State :=
  { s with flash := { s.flash with units := s.flash.units.map fun e => { e with reads := e.reads + e.disturbLimit / 4 } } }

/-- The dusk region is erased and blank-checked, and a dusk unit that can not be used is replaced (R359, R361). -/
def State.eraseDusk (s : State) : State :=
  let one := fun (t : State) (x : DuskDie) =>
    if (t.eunit x.die x.unit).state = .bad || (t.eunit x.die x.unit).failing then
      match t.takeBuffer? x.die with
      | some b => ((t.updEunit x.die x.unit fun e => { e with role := .reserve, state := .bad }).updEunit x.die b.unit
          fun e => { e with role := .dusk, blankOk := true })
      | none => t
    else
      let r := fun (typ : JournalType) (k : Nat) => ({ typ := typ, slc := true, die := x.die, unit := x.unit, seq := t.flash.nextSeq + k
                                                       durableA := true, durableB := true } : JournalRec)
      let u := t.updEunit x.die x.unit fun e => { e.erased true with state := .free, blankOk := true }
      { (u.eraseData x.die x.unit) with flash := { (u.eraseData x.die x.unit).flash with
        journal := u.flash.journal ++ [r .intent 0, r .done 1], nextSeq := u.flash.nextSeq + 2 } }
  let t := s.flash.dusk.foldl one s
  { t with flash := { t.flash with dusk := [], duskParity := [] }, ftl := { t.ftl with unsaved := [] } }

/-- What the mount has queued is programmed before the drive enters service, with the parity of its rows: the programs end one round after
another (R361, R372; assumption log 176: DESIGN CHOICE, unsafe). -/
def State.settleMount : Nat → State → State
  | 0, s => s
  | k + 1, s =>
    if s.flash.ops.all (·.kind ≠ .program) && s.ftl.stores.isEmpty && s.ftl.dirtyMaps.isEmpty then s
    else
      let t := s.finishPrograms
      let t : State := { t with
        flash := { t.flash with ops := t.flash.ops.filter fun o => o.owner ≠ .blank }
        ftl := { t.ftl with opens := t.ftl.opens.map fun o => { o with closing := true } } }
      let t := t.serveFlash.retireData t.ftl.stores.length
      let ms := (t.ftl.dirtyMaps.filter (·.store.isNone)).map (·.page)
      State.settleMount k ((chunksOf 16 ms.length ms).foldl (fun t m => t.storeMaps m []) t)

/-- Kernel slots 4 to 63 that hold a kernel are measured in order (Table 20-5). -/
def State.measureKernels (s : State) : State :=
  ((List.range 64).drop 4).foldl (fun t i => match t.kernelSlot i with
    | some b => t.extend 3 0x21 0 0 (digest64 b)
    | none => t) s

/-- The retention comparison waits for the first lock (R367, R494). -/
def State.dueCompare (s : State) : State := { s with ftl := { s.ftl with compareDue := true } }

/-- What a mount after a dusk flush does over again: what the flush saved is applied, last wordlines are rebuilt, read counters are raised, and
the programs this takes are awaited (R328, R361, R366, R372). -/
def State.replayMount (badDusk : List (Nat × Nat)) (damaged : List (Nat × Nat × Nat)) (s : State) : State :=
  (damaged.eraseDups.foldl (fun t x => t.repairPage x) (s.replayDusk badDusk)).raiseReads.settleMount 16

/-- The mount's own work (R189, R249, R328, R332, R361, R366, R367, R372, R494). -/
def State.mountAll (badDusk : List (Nat × Nat)) (damaged : List (Nat × Nat × Nat)) (s : State) : State :=
  let t := if s.power.clean then s.reErase.settleAll.dropMerges
    else s.reErase.dropVolatile.settleAll.dropMerges.replayMount badDusk damaged
  t.eraseDusk.measureKernels.dueCompare

/-- The drive enters SERVICE; a clean shutdown that was held is taken (R496, Table 19-4). -/
def State.enterService (s : State) : State :=
  let t := (s.updPower fun p => { p with
    phase := .service, state := if p.cap < 720 then .capped else .active, clean := false }).noteProtection.compareEpoch
  if t.power.shutdownHeld then t.startShutdown else t

/-- The repair list and the closure numbers as the mount finds them (R456, R493). -/
def State.mountUnits (s : State) : State :=
  let t := (s.applyRepairs.numberClosed s.err.repairs).noteUnits
  ((t.inService .dram).foldl (fun t u => t.repairRows u.phys) t).deriveBudget

/-- MOUNT_END: the translation layer is mounted and the drive declares service, or start-up fails (R332, R372, R493 to R496). `badDusk` lists
dusk pages that can not be read, `damaged` pages of last wordlines of OPEN units that can not (R328, R361). -/
def execMountEnd (journalA journalB checkpoint : Bool) (badDusk : List (Nat × Nat)) (damaged : List (Nat × Nat × Nat)) (s : State) :
    Host.Outcome State Fault Refusal :=
  .next (
    if !s.inPhase .mount then s
    else if (!journalA && !journalB) || !checkpoint then s.startFail .mount .held
    else
      let t := if journalA && journalB then s else s.raise (faultOf 0x15 0)
      let t := t.mountUnits
      if !t.meetsMinimum then t.startFail .memory .held
      else (t.mountAll badDusk damaged).enterService)

end Sys2Proof.Machine
end

