-- ==== Sys2Proof/Machine/TestDiag.lean ====
section
/-! DEFINITION. The boundary-scan port and the management bus (R420, R422, R479, R488, R522 to R526, R531, R532). -/
namespace Sys2Proof.Machine

/-- `PWR_BOOT_STATUS` (Table 22-5). -/
def State.bootStatus (s : State) : Nat := s.power.phase.code + 256 * s.power.failure.code

/-- The sideband signals work: the drive is not OFF, and in DUSK the input is still within the envelope (R420, R531). -/
def State.sideband (s : State) : Bool :=
  s.power.state ≠ .off && (s.power.state ≠ .dusk || s.power.onInput || (2800 ≤ s.power.inVolt && s.power.inVolt ≤ 4200))

/-! ### The TAP (R522 to R526) -/

/-- Change the test block, where the sideband signals work. -/
def State.tap (f : TestBlock → TestBlock) (s : State) : Host.Outcome State Fault Refusal :=
  .next (if s.sideband then { s with test := f s.test } else s)

/-- Pin-controlling instructions take effect: STARTING before core release, or SHUTDOWN (R479). -/
def State.pinsFree (s : State) : Bool :=
  s.power.state = .shutdown || (s.power.state = .starting && s.power.phase.beforeCores)

/-- Cells as the boundary register holds them: 3,191 of them (R525). -/
def fitCells (l : List Bool) : List Bool := l.take 3191 ++ List.replicate (3191 - l.length) false

/-- An instruction that leaves the pins to the drive's own logic. -/
def TestBlock.load (code dr : Nat) (t : TestBlock) : TestBlock := { t with ir := code, dr := dr, holdsPins := false, highZ := false }

/-- EXTEST and its two IEEE 1149.6 forms: the boundary register drives the pins, or the instruction acts as BYPASS (R479, R524,
R526). -/
def State.driveCells (code : Nat) (cells : List Bool) (s : State) : Host.Outcome State Fault Refusal :=
  s.tap fun t =>
    if s.pinsFree then { t with ir := code, dr := 0, boundary := fitCells cells, holdsPins := true, highZ := false }
    else t.load code 0

/-- TAP_RESET: Test-Logic-Reset selects IDCODE and returns the pins to the drive's logic (R522, Table 21-5). -/
def execTapReset (s : State) : Host.Outcome State Fault Refusal := s.tap fun t => t.load 0x01 0x196006B7

/-- EXTEST (R524). -/
def execExtest (cells : List Bool) (s : State) : Host.Outcome State Fault Refusal := s.driveCells 0x00 cells

/-- IDCODE: the identification register reads 0x1960_06B7 (R523). -/
def execIdcode (s : State) : Host.Outcome State Fault Refusal := s.tap fun t => t.load 0x01 0x196006B7

/-- SAMPLE/PRELOAD: the pins are sampled and the cells are loaded; no pin is driven (R524). -/
def execSamplePreload (pins cells : List Bool) (s : State) : Host.Outcome State Fault Refusal :=
  s.tap fun t => { t.load 0x02 0 with sampled := fitCells pins, boundary := fitCells cells }

/-- CLAMP: the pins hold what the boundary register gives, with the bypass register selected (R524). -/
def execClamp (s : State) : Host.Outcome State Fault Refusal :=
  s.tap fun t => if s.pinsFree then { t with ir := 0x04, dr := 0, holdsPins := true, highZ := false } else t.load 0x04 0

/-- HIGHZ: outputs are in high impedance, with the bypass register selected (R524). -/
def execHighz (s : State) : Host.Outcome State Fault Refusal :=
  s.tap fun t => if s.pinsFree then { t with ir := 0x05, dr := 0, holdsPins := false, highZ := true } else t.load 0x05 0

/-- EXTEST_PULSE (R526). -/
def execExtestPulse (cells : List Bool) (s : State) : Host.Outcome State Fault Refusal := s.driveCells 0x06 cells

/-- EXTEST_TRAIN (R526). -/
def execExtestTrain (cells : List Bool) (s : State) : Host.Outcome State Fault Refusal := s.driveCells 0x07 cells

/-- BOOT_STATUS: Capture-DR takes a copy of `PWR_BOOT_STATUS` (R524). -/
def execBootStatus (s : State) : Host.Outcome State Fault Refusal := s.tap fun t => t.load 0x10 s.bootStatus

/-- BYPASS (R524). -/
def execBypass (s : State) : Host.Outcome State Fault Refusal := s.tap fun t => t.load 0xFF 0

/-! ### The management bus (R422, R531, Table 21-4) -/

/-- Answer a read with bytes, low byte first; with nothing where the bus does not answer. -/
def State.answer (b : Bytes) (s : State) : Host.Outcome State Fault Refusal :=
  .next { s with test := { s.test with smb := if s.sideband then b else [] } }

/-- SMB_POWER_STATE, code 0x00. -/
def execSmbPowerState (s : State) : Host.Outcome State Fault Refusal := s.answer (leBytes 1 s.power.state.code)

/-- SMB_BOOT_STATUS, code 0x01. -/
def execSmbBootStatus (s : State) : Host.Outcome State Fault Refusal := s.answer (leBytes 4 s.bootStatus)

/-- SMB_INPUT_VOLTAGE, code 0x02: 10 mV. -/
def execSmbInputVoltage (s : State) : Host.Outcome State Fault Refusal := s.answer (leBytes 2 s.power.inVolt)

/-- SMB_INPUT_CURRENT, code 0x03: 10 mA. -/
def execSmbInputCurrent (s : State) : Host.Outcome State Fault Refusal := s.answer (leBytes 2 s.power.inAmp)

/-- SMB_INPUT_POWER, code 0x04: 0.1 W. -/
def execSmbInputPower (s : State) : Host.Outcome State Fault Refusal := s.answer (leBytes 2 s.power.inWatt)

/-- SMB_HOLDUP_ENERGY, code 0x05: mJ, 0 when no valid measurement. -/
def execSmbHoldupEnergy (s : State) : Host.Outcome State Fault Refusal :=
  s.answer (leBytes 2 (if s.power.valid then s.power.energy else 0))

/-- SMB_COMPUTE_TEMP, code 0x06: signed 0.1 °C. -/
def execSmbComputeTemp (s : State) : Host.Outcome State Fault Refusal := s.answer (leBytes 2 (intTo 16 s.power.tempCompute))

/-- SMB_FLASH_TEMP, code 0x07. -/
def execSmbFlashTemp (s : State) : Host.Outcome State Fault Refusal := s.answer (leBytes 2 (intTo 16 s.power.tempFlash))

/-- SMB_DRAM_TEMP, code 0x08. -/
def execSmbDramTemp (s : State) : Host.Outcome State Fault Refusal := s.answer (leBytes 2 (intTo 16 s.power.tempDram))

/-- SMB_DUSK_BUDGET, code 0x09: B in bytes. -/
def execSmbDuskBudget (s : State) : Host.Outcome State Fault Refusal := s.answer (leBytes 8 s.tiers.budget)

/-- SMB_DIRTY_DURABLE, code 0x0A: D in bytes. -/
def execSmbDirtyDurable (s : State) : Host.Outcome State Fault Refusal := s.answer (leBytes 8 s.dirtyBytes)

/-- SMB_UNREAD_FAULTS, code 0x0B. -/
def execSmbUnreadFaults (s : State) : Host.Outcome State Fault Refusal := s.answer (leBytes 2 s.unread)

/-- SMB_SERIAL, code 0x0C: the serial number, zeros before it is read (Table 20-1). -/
def execSmbSerial (s : State) : Host.Outcome State Fault Refusal := s.answer (fitBytes 16 (slice s.sec.identity 8 16))

end Sys2Proof.Machine
end

