-- ==== Sys2Proof/Machine/Regs.lean ====
section
/-! DEFINITION. The set-up registers: what each reads as and what a write of it does (chapter 22, R158, R159, R178, R183, R402,
R437, R439, R498, R520, R529, R530, R533 to R541). -/
namespace Sys2Proof.Machine

/-! ### The window (R533) -/

/-- Block, instance and offset of a window offset (Table 22-1); none outside every span. -/
def blockAt (o : Nat) : Option (RegBlock × Nat × Nat) :=
  let inst := fun (b : RegBlock) (base : Nat) => some (b, (o - base) / 0x1000, (o - base) % 0x1000)
  if o < 0x10000 then some (.sys, 0, o)
  else if o < 0x20000 then some (.atr, 0, o - 0x10000)
  else if o < 0x30000 then some (.lnk, 0, o - 0x20000)
  else if o < 0x40000 then some (.bcn, 0, o - 0x30000)
  else if o < 0x50000 then some (.pwr, 0, o - 0x40000)
  else if o < 0x60000 then some (.sec, 0, o - 0x50000)
  else if o < 0x70000 then some (.tir, 0, o - 0x60000)
  else if o < 0x80000 then some (.sch, 0, o - 0x70000)
  else if 0x100000 ≤ o && o < 0x144000 then inst .clu 0x100000
  else if 0x200000 ≤ o && o < 0x240000 then inst .fch 0x200000
  else if 0x300000 ≤ o && o < 0x30C000 then inst .drc 0x300000
  else if 0x400000 ≤ o && o < 0x410000 then some (.src, 0, o - 0x400000)
  else if 0x410000 ≤ o && o < 0x420000 then some (.gat, 0, o - 0x410000)
  else if 0x420000 ≤ o && o < 0x430000 then some (.att, 0, o - 0x420000)
  else if 0x430000 ≤ o && o < 0x440000 then some (.red, 0, o - 0x430000)
  else if 0x500000 ≤ o && o < 0x510000 then some (.err, 0, o - 0x500000)
  else if 0x600000 ≤ o && o < 0x620000 then some (.tst, 0, o - 0x600000)
  else none

/-- An access of `size` bytes at an offset is one R402 allows. -/
def accessOk (o size : Nat) : Bool := o < 0x1000000 && ((size = 4 && o % 4 = 0) || (size = 8 && o % 8 = 0))

/-- A ring's block in the ATR window: ring number and offset in it (R536). -/
def ringAt (base o : Nat) : Option (Nat × Nat) :=
  if base ≤ o && o < base + 0x4000 then some ((o - base) / 0x40, (o - base) % 0x40) else none

/-- Word `i` of a value, the lowest first. -/
def word32 (v i : Nat) : Nat := bitsAt v (32 * i) 32

/-- A counter as its register shows it: it stops at all ones (R534). -/
def shown (n v : Nat) : Nat := Nat.min v (2 ^ n - 1)

/-! ### Reads: the 32-bit word at a 4-byte aligned offset of each block -/

/-- The capability registers have been written: by core release, once its checks passed (R492). -/
def State.capsWritten (s : State) : Bool := s.sec.identity ≠ [] && s.power.failure ≠ .grade

/-- A `SYS_SVC` entry (R535). -/
def SvcUnit.reg (u : SvcUnit) : Nat :=
  u.state.code + 4 * bit01 u.spare + 8 * bit01 u.logical.isSome + 16 + 256 * u.logical.getD 0 + 65536 * u.closure

/-- SYS (Table 22-2). -/
def State.readSys (s : State) (o : Nat) : Nat :=
  let caps := fun v => if s.capsWritten then v else 0
  let docents := (s.units.filter fun u => u.kind = .docent ∧ u.logical ≠ none).length
  if o = 0 then (if s.sec.identity = [] then 0 else field s.sec.identity 6 1) + 0x100 + 0x96000000
  else if o = 4 then caps (s.clustersBuilt + 256 * (s.numbersUsed .cluster).eraseDups.length + 0xE0000 + 0x100000 * docents)
  else if o = 8 then caps (s.grade.packages + 256 * s.grade.dies)
  else if o = 0xC then caps (bit01 s.grade.hasReduction + 2 * bit01 s.grade.hasDistance + 4 * bit01 s.grade.hasCompression)
  else if 0x100 ≤ o && o < 0x200 then
    match s.logical? .cluster ((o - 0x100) / 4) with
    | some u => u.phys + 256 * (u.phys / (s.clustersBuilt / 4)) + 2 ^ 31
    | none => 0
  else if 0x1000 ≤ o && o < 0x2800 then
    match kindOf ((o - 0x1000) / 0x400) with
    | none => 0
    | some k => match s.unit? k ((o - 0x1000) % 0x400 / 4) with
      | some u => u.reg
      | none => 0
  else 0

/-- A submission ring's registers (Table 22-3). -/
def Sq.read (q : Sq) (o : Nat) : Nat :=
  if o = 0x00 then word32 q.base 0 else if o = 0x04 then word32 q.base 1
  else if o = 0x08 then bit01 (q.enabled && !q.disabling) + 256 * q.cq + 65536 * q.size
  else if o = 0x0C then bit01 q.enabled + 2 * bit01 q.halted + 4 * bit01 q.err + 65536 * q.inFlight
  else if o = 0x10 then q.seqBase.toNat
  else if o = 0x18 then q.head
  else 0

/-- A completion ring's registers (Table 22-3). -/
def Cq.read (c : Cq) (o : Nat) : Nat :=
  if o = 0x00 then word32 c.base 0 else if o = 0x04 then word32 c.base 1
  else if o = 0x08 then bit01 c.enabled + 2 * bit01 c.msgEn + 65536 * c.size
  else if o = 0x0C then bit01 c.enabled + 2 * bit01 c.err
  else if o = 0x10 then word32 c.msgAddr 0 else if o = 0x14 then word32 c.msgAddr 1
  else if o = 0x18 then c.coalesceCount + 65536 * c.coalesceTime
  else if o = 0x20 then c.tail + 4096 * bit01 c.phase
  else 0

/-- ATR (Table 22-3). -/
def State.readAtr (s : State) (o : Nat) : Nat :=
  if o < 0x400 then s.atr.errCnt.getD (o / 4) 0
  else match ringAt 0x1000 o, ringAt 0x5000 o with
    | some r, _ => (s.sq r.1).read r.2
    | none, some r => (s.cq r.1).read r.2
    | none, none => 0

/-- Codes of LINK (Table 22-5). -/
def LinkState.code : LinkState → Nat
  | .down => 0 | .training => 1 | .up => 2 | .retraining => 3

/-- A port's registers (Table 22-5). -/
def State.readPort (s : State) (n o : Nat) : Nat :=
  let p := s.port n
  let svc := match s.unit? .port n with | some u => u.state.code | none => 0
  if o = 0x00 then
    p.link.code + 4 * svc + (if p.link = .up then 16 * p.width else 0) + 256 * p.lanes + 4096 * bit01 p.trainFailed
  else if o = 0x04 then p.hostNode
  else if o = 0x08 then p.errPackets else if o = 0x0C then p.errFlits
  else if o = 0x10 then p.replays else if o = 0x14 then p.retrains + 65536 * p.width2
  else 0

/-- LNK (Table 22-5). -/
def State.readLnk (s : State) (o : Nat) : Nat :=
  if o < 0x200 then s.readPort (o / 0x100) (o % 0x100) else if o = 0x800 then s.link.node else 0

/-- Codes of the time-base states (Table 22-5). -/
def TimeState.code : TimeState → Nat
  | .acquiring => 0 | .locked => 1 | .holdover => 2 | .degraded => 3

/-- BCN (Table 22-5). -/
def State.readBcn (s : State) (o : Nat) : Nat :=
  let b := s.beacon
  let supply := if b.supply < 3 && s.supplying b.supply then b.supply else 3
  let tick := s.epoch % 2 ^ 63 + (if b.state = .acquiring then 0 else 2 ^ 63)
  if o = 0x00 then b.cfg
  else if o = 0x04 then b.state.code + 4 * supply + 16 * bit01 b.err
  else if o = 0x08 then word32 tick 0 else if o = 0x0C then word32 tick 1
  else if o = 0x10 then (s.port 0).delay + 65536 * (s.port 1).delay
  else if o = 0x18 then b.bad + 65536 * b.rejected else if o = 0x1C then b.holdovers + 65536 * b.relocks
  else 0

/-- Dirty MiB left while a clean shutdown writes back (R439). -/
def State.remainMib (s : State) : Nat := if s.power.state = .shuttingDown then ceilDiv s.allDirty 256 else 0

/-- PWR (Table 22-5). -/
def State.readPwr (s : State) (o : Nat) : Nat :=
  let p := s.power
  let w := s.grade.watts
  if o = 0x00 then p.state.code
  else if o = 0x08 then bit01 p.err + 2 * bit01 p.trip + 4 * bit01 p.cut + 8 * bit01 p.bleed
  else if o = 0x0C then s.remainMib
  else if o = 0x10 then p.cap
  else if o = 0x18 then (if p.valid then p.energy else 0) + 65536 * bit01 p.valid
  else if o = 0x20 then p.capUf + 65536 * p.esr else if o = 0x24 then p.vchg + 65536 * p.count
  else if o = 0x28 then s.grade.flashTokens + 65536 * s.tokenLimit .foreground
  else if o = 0x30 then intTo 16 p.tempCompute + 65536 * intTo 16 p.tempFlash else if o = 0x34 then intTo 16 p.tempDram
  else if o = 0x38 then s.bootStatus
  else if o = 0x3C then w.1 + 1024 * w.2.1 + 1048576 * w.2.2
  else if o = 0x40 then p.inVolt + 65536 * p.inAmp else if o = 0x44 then p.inWatt
  else 0

/-- SEC (Table 22-5). -/
def State.readSec (s : State) (o : Nat) : Nat :=
  let q := s.sec
  if o = 0x00 then
    q.state.code + 8 * bit01 q.logFull + 16 * bit01 q.certBad
      + (((List.range 4).filter q.revoked.contains).map fun i => 2 ^ (8 + i)).foldl (· + ·) 0 + 65536 * s.rollback
  else if o = 0x04 then bit01 q.lock
  else 0

/-- The lowest free count of any die: the listed ones, and the first that is not listed (R363, Table 13-5). -/
def State.freeMin (s : State) : Nat :=
  let listed := s.listedDies
  let other := ((List.range (64 * s.grade.dies)).map s.grade.dieOf).find? fun d => !listed.contains d
  (listed ++ other.toList).foldl (fun m d => Nat.min m (s.freeCount d)) unitsPerDie

/-- Wear in 0.1 % of 6,000: mean over every erase unit, and largest (Table 13-5). -/
def State.wearWord (s : State) : Nat :=
  let ws := s.flash.units.map (·.wear)
  let mean := ws.foldl (· + ·) 0 * 1000 / (6000 * (64 * s.grade.dies * unitsPerDie))
  shown 16 mean + 65536 * shown 16 (ws.foldl Nat.max 0 * 1000 / 6000)

/-- Host-pinned DRAM in bytes (R200). -/
def State.pinnedBytes (s : State) : Nat :=
  65536 * ((s.tiers.objects.map fun o : Obj => (o.refs.filter fun r => r.who = .host && r.tier = 1).length).foldl (· + ·) 0)

/-- `TIR_AREA` (Table 22-6; assumption log 24: DESIGN CHOICE, unsafe). -/
def State.area (s : State) (i : Nat) : Nat :=
  if i = 0 then s.grade.carveMib * 1048576
  else if i < 6 then s.areaMib i * 1048576
  else if i = 6 then s.saveAreas
  else if i = 7 then s.pinnedBytes
  else s.dramUnitsFree * 65536

/-- TIR (Table 22-6). -/
def State.readTir (s : State) (o : Nat) : Nat :=
  let t := s.tiers
  let pool := (s.pools.foldl (· + ·) 0) * 1048576
  if o = 0x00 then bit01 t.flagsView + 2 * bit01 t.vitrine + 4 * bit01 (t.compress && s.grade.hasCompression)
  else if o = 0x04 then bit01 t.err + 2 * bit01 t.writeThrough + 65536 * t.giveUps
  else if o = 0x08 then word32 t.budget 0 else if o = 0x0C then word32 t.budget 1
  else if o = 0x10 then word32 s.dirtyBytes 0 else if o = 0x14 then word32 s.dirtyBytes 1
  else if o = 0x18 then word32 pool 0 else if o = 0x1C then word32 pool 1
  else if o = 0x20 then t.lostCount else if o = 0x24 then t.promoteWait
  else if o = 0x28 then s.grade.units else if o = 0x2C then s.mappedUnits
  else if o = 0x30 then s.reservedUnits else if o = 0x34 then s.spareMib
  else if o = 0x38 then s.ftl.slcUnits + 65536 * ceilDiv s.tier2Units 576
  else if o = 0x3C then s.wearWord
  else if o = 0x40 then s.freeMin + 65536 * reclaimBand s.freeMin
  else if o = 0x44 then (s.ftl.map.filter fun e => e.2 = 1).length
  else if 0x80 ≤ o && o < 0xC8 then word32 (s.area ((o - 0x80) / 8)) (o % 8 / 4)
  else 0

/-- A client's registers (Table 22-6, Table 22-8). -/
def Client.read (c : Client) (o : Nat) : Nat :=
  if o = 0x00 then bit01 c.enabled + 65536 * c.weight else if o = 0x04 then c.limit
  else if 0x08 ≤ o && o < 0x28 then
    let i := (o - 0x08) / 8
    let v := if i = 0 then c.vtime else if i = 1 then c.cycles else if i = 2 then c.waitBt else c.overrunBt
    word32 (shown 64 v) (o % 8 / 4)
  else if o = 0x28 then shown 32 c.jobs else if o = 0x2C then shown 32 c.maxWaitBt else if o = 0x30 then shown 32 c.preempts
  else if o = 0x34 then shown 32 c.suspends else if o = 0x38 then shown 32 c.limitStops else if o = 0x3C then shown 32 c.wdog
  else 0

/-- SCH (Table 22-6). -/
def State.readSch (s : State) (o : Nat) : Nat :=
  if o = 0x00 then s.sched.sliceBt
  else if o = 0x04 then
    bit01 s.sched.err + 256 * (s.sched.jobs.filter fun j => j.state = .running).length + 65536 * s.waiting.length
  else if 0x1000 ≤ o && o < 0x9000 then (s.sched.clients.getD ((o - 0x1000) / 0x80) {}).read ((o - 0x1000) % 0x80)
  else 0

/-- CLU: counters of a built cluster (Table 22-8). -/
def State.readClu (s : State) (p o : Nat) : Nat :=
  if (s.unit? .cluster p).isNone then 0
  else
    let c := s.err.cluCnt.getD p (0, 0, 0)
    if o = 0x00 then shown 32 c.1 else if o = 0x04 then shown 32 c.2.1 else if o = 0x08 then shown 32 c.2.2 else 0

/-- FCH: counters of a channel (Table 22-8). -/
def State.readFch (s : State) (c o : Nat) : Nat :=
  let k := s.flash.channels.getD c {}
  let w := fun v => word32 (shown 64 v) (o % 8 / 4)
  if o < 0x08 then w k.stage1 else if o < 0x10 then w k.stage2 else if o < 0x18 then w k.stage3
  else if o = 0x18 then shown 32 k.uncorrectable else if o = 0x1C then shown 32 k.blankFails
  else if o < 0x28 then w k.suspends else if o = 0x28 then shown 32 k.urgent else 0

/-- DRC: counters of a fitted controller (Table 22-8). -/
def State.readDrc (s : State) (p o : Nat) : Nat :=
  if s.grade.packages ≤ p then 0
  else
    let c := s.err.drcCnt.getD p (0, 0, 0, 0)
    if o = 0x00 then shown 32 c.1 else if o = 0x04 then shown 32 c.2.1
    else if o = 0x08 then shown 16 c.2.2.1 + 65536 * shown 16 c.2.2.2 else 0

/-- SRC (Table 22-7). -/
def State.readSrc (s : State) (o : Nat) : Nat :=
  let slots := (((List.range 64).filter fun i => (s.kernelSlot i).isSome).map fun i => 2 ^ i).foldl (· + ·) 0
  if o = 0x00 then s.queriesRunning else if o = 0x08 then word32 slots 0 else if o = 0x0C then word32 slots 1 else 0

/-- Commands of an opcode that execute. -/
def State.executing (s : State) (op : Nat) : Nat := (s.atr.slots.filter fun c => c.opcode = op && c.phase = .running).length

/-- GAT (Table 22-7). -/
def State.readGat (s : State) (o : Nat) : Nat :=
  if o = 0x00 then s.gather.threshold else if o = 0x04 then s.gather.hotUnits
  else if o = 0x08 then bit01 s.gather.err + 16 * s.executing 0x51 + 256 * s.executing 0x52 else 0

/-- ATT (Table 22-7). -/
def State.readAtt (s : State) (o : Nat) : Nat :=
  if o = 0x00 then s.attention.clusters else if o = 0x04 then bit01 s.attention.err + 256 * s.attendsRunning else 0

/-- STATE codes of Table 11-7. -/
def DomState.code : DomState → Nat
  | .empty => 0 | .ready => 1 | .reducing => 2 | .stalled => 3

/-- RED, absent without the reduction engine (R534, Table 22-7). -/
def State.readRed (s : State) (o : Nat) : Nat :=
  if o = 0x00 && s.grade.hasReduction then
    1 + ((List.range 4).map fun i => (s.dom i).state.code * 4 ^ (i + 1)).foldl (· + ·) 0
  else 0

/-- ERR (Table 22-7, Table 22-8). -/
def State.readErr (s : State) (o : Nat) : Nat :=
  if o = 0x00 then s.unread else if o = 0x04 then (s.err.nextSeq - 1) % 2 ^ 32
  else if o = 0x08 then s.err.lost
  else if o = 0x10 || o = 0x14 || o = 0x18 then shown 32 (s.err.resends.getD ((o - 0x10) / 4) 0)
  else if 0x100 ≤ o && o < 0x130 then
    match s.err.log.find? fun r => !r.isRead with
    | some r => field r.bytes (o - 0x100) 4
    | none => 0
  else 0

/-- TST (Table 22-7). -/
def State.readTst (s : State) (o : Nat) : Nat :=
  let t := s.test
  if o = 0x00 then word32 t.addr 0 else if o = 0x04 then word32 t.addr 1
  else if o = 0x0C then bit01 t.busy.isSome + 256 * t.status.code
  else if o = 0x10 then ((List.range 16).map fun i => t.stages.getD i 0 % 4 * 4 ^ i).foldl (· + ·) 0
  else if o = 0x18 then bit01 t.pulse + 65536 * t.period
  else if o = 0x1C then bit01 t.err
  else if 0x10000 ≤ o && o < 0x20000 then leNat (memRead t.window (o - 0x10000) 4)
  else 0

/-- The word at an offset of a block instance. -/
def State.readBlock (s : State) (b : RegBlock) (i o : Nat) : Nat :=
  match b with
  | .sys => s.readSys o | .atr => s.readAtr o | .lnk => s.readLnk o | .bcn => s.readBcn o | .pwr => s.readPwr o
  | .sec => s.readSec o | .tir => s.readTir o | .sch => s.readSch o | .clu => s.readClu i o | .fch => s.readFch i o
  | .drc => s.readDrc i o | .src => s.readSrc o | .gat => s.readGat o | .att => s.readAtt o | .red => s.readRed o
  | .err => s.readErr o | .tst => s.readTst o

/-- The 32-bit word at a window offset; zero where nothing is assigned (R533). -/
def State.regWord (s : State) (o : Nat) : Nat :=
  match blockAt o with
  | some (b, i, l) => s.readBlock b i l
  | none => 0

/-- A read of 4 or 8 bytes (R534). -/
def State.regRead (s : State) (o size : Nat) : Nat :=
  if size = 8 then s.regWord o + 2 ^ 32 * s.regWord (o + 4) else s.regWord o

/-- A set-up read of an offset is answered: by a port that is UP and IN_SERVICE, in HELD, RECOVERY and HALTED of the blocks that
R498 and R520 name. -/
def State.readOpen (s : State) (port o : Nat) : Bool :=
  s.portAccepts port && !s.silent &&
    match s.power.phase, blockAt o with
    | .halted, _ => false
    | .held, some (b, _, _) => b = .sys || b = .err || b = .pwr || b = .tst
    | .held, none => false
    | .recovery, some (.atr, _, l) =>
      (match ringAt 0x1000 l with | some r => r.1 = 0 | none => false)
        || (match ringAt 0x5000 l with | some r => r.1 = 0 | none => false)
    | .recovery, some (b, _, _) => b = .sys || b = .pwr || b = .sec
    | .recovery, none => false
    | _, _ => true

/-! ### Writes -/

/-- The state after an outcome; the state before it where there is none. -/
def State.afterOf (s : State) : Host.Outcome State Fault Refusal → State
  | .next t => t
  | _ => s

/-- A write of a register of a submission ring (Table 22-3, R40, R536). -/
def State.writeSq (n o v : Nat) (s : State) : State :=
  if o = 0x00 then
    if (s.sq n).enabled then s.countErr 0 else s.updSq n fun q => { q with base := v }
  else if o = 0x08 then s.writeSqCfg n v
  else if o = 0x0C then (if bitAt v 2 then s.updSq n fun q => { q with err := false } else s)
  else if o = 0x10 then s.updSq n fun q => { q with seqBase := BitVec.ofNat 32 v }
  else if o = 0x14 then s.writeSqDb n v
  else s

/-- A write of a register of a completion ring (Table 22-3, R40, R536). -/
def State.writeCq (n o v : Nat) (s : State) : State :=
  if o = 0x00 then
    if (s.cq n).enabled then s.countErr 0 else s.updCq n fun c => { c with base := v }
  else if o = 0x08 then s.writeCqCfg n v
  else if o = 0x0C then (if bitAt v 1 then s.updCq n fun c => { c with err := false } else s)
  else if o = 0x10 then (if v % 32 = 0 then s.updCq n fun c => { c with msgAddr := v } else s.countErr 0)
  else if o = 0x18 then
    if 1 ≤ bitsAt v 0 16 && bitsAt v 0 16 ≤ 4096 then
      s.updCq n fun c => { c with coalesceCount := bitsAt v 0 16, coalesceTime := bitsAt v 16 16 }
    else s.countErr 0
  else if o = 0x1C then s.writeCqDb n v
  else s

/-- A write in the ATR block. In RECOVERY rings 0 alone are reached (R520). -/
def State.writeAtr (port o v : Nat) (s : State) : State :=
  match ringAt 0x1000 o, ringAt 0x5000 o with
  | some r, _ => if s.ringOpen port r.1 then s.writeSq r.1 r.2 v else s
  | none, some r => if s.ringOpen port r.1 then s.writeCq r.1 r.2 v else s
  | none, none => s

/-- A refused write of the SCH block. -/
def State.schErr (s : State) : State := { s with sched := { s.sched with err := true } }

/-- A write of `SCH_CLIENT_CFG` (R157 to R159, R178): enabling clears the client's counters. -/
def State.writeClient (n v : Nat) (s : State) : State :=
  let c := s.sched.clients.getD n {}
  let w := bitsAt v 16 13
  let l := bitsAt v 32 16
  if 4096 < w then s.schErr
  else if bitAt v 0 then
    if w = 0 || l = 0 then s.schErr
    else if c.enabled then s.updClient n fun c => { c with weight := w, limit := l }
    else s.updClient n fun _ => { enabled := true, weight := w, limit := l }
  else if c.enabled && s.hasJobs n then s.schErr
  else s.updClient n fun c => { c with enabled := false, weight := w, limit := l }

/-- A write of `TIR_CFG` (R183, R186, R538): another view, vitrine mode or compression only while no object exists; COMPRESS is
ignored on the F grade. -/
def State.writeTirCfg (v : Nat) (s : State) : State :=
  let t := s.tiers
  let c := if s.grade.hasCompression then bitAt v 2 else t.compress
  let same := bitAt v 0 = t.flagsView && bitAt v 1 = t.vitrine && c = t.compress
  if (bitAt v 1 && !bitAt v 0) || (!same && !t.objects.isEmpty) then { s with tiers := { t with err := true } }
  else { s with tiers := { t with flagsView := bitAt v 0, vitrine := bitAt v 1, compress := c } }

/-- A write of `PWR_SHUTDOWN` (R438, R439): GO, then QUIESCE. -/
def State.writeShutdown (v : Nat) (s : State) : State :=
  let t := if bitAt v 0 then s.askShutdown else s
  if bitAt v 1 then t.quiesce else t

/-- POP: the oldest unread record is marked read (R462, Table 22-7). -/
def State.popRecord (s : State) : State := { s with err := { s.err with log := markRead 1 s.err.log } }

/-- Clear the counter groups named by `TST_CTR_CLEAR` (R530). -/
def State.clearGroup (s : State) : Nat → State
  | 0 => { s with atr := { s.atr with errCnt := List.replicate 256 0 } }
  | 1 => { s with link := { s.link with
      ports := s.link.ports.map fun p => { p with errPackets := 0, errFlits := 0, replays := 0, retrains := 0, width2 := 0 } } }
  | 2 => { s with beacon := { s.beacon with bad := 0, rejected := 0, holdovers := 0, relocks := 0 } }
  | 3 => { s with err := { s.err with resends := [0, 0, 0] } }
  | 4 => { s with flash := { s.flash with channels := List.replicate 64 {} } }
  | 5 => { s with err := { s.err with drcCnt := List.replicate 12 (0, 0, 0, 0) } }
  | _ => { s with err := { s.err with cluCnt := List.replicate 68 (0, 0, 0) } }

/-- A write of `TST_CTR_CLEAR`. -/
def State.writeCtrClear (v : Nat) (s : State) : State :=
  ((List.range 7).filter (bitAt v)).foldl State.clearGroup s

/-- A write of `GAT_HOT_BYTES`: 0 to 256 units; copies beyond them are dropped, least recently read first and protected ones last
(R288, R293). -/
def State.writeHotBytes (v : Nat) (s : State) : State :=
  let n := bitsAt v 0 9
  if 256 < n then { s with gather := { s.gather with err := true } }
  else
    let g := { s.gather with hotUnits := n }
    { s with gather := (g.evict s.bt 0 true (g.copies.length + 1)).2 }

/-- A write of `TST_MEDIA_CMD` (R527); an OP outside its range is refused. -/
def State.writeMediaCmd (port v : Nat) (s : State) : State :=
  let op := bitsAt v 0 3
  if op = 1 then s.afterOf (execMediaRead port s)
  else if op = 2 then s.afterOf (execMediaLend port s)
  else if op = 3 then s.afterOf (execMediaProgram port s)
  else if op = 4 then s.afterOf (execMediaErase port s)
  else if op = 5 then s.afterOf (execMediaReturn port s)
  else s.updTst fun t => { t with err := true }

/-- A write in the PWR block. -/
def State.writePwr (o v : Nat) (s : State) : State :=
  if o = 0x08 then s.updPower fun p => { p with err := p.err && !bitAt v 0, bleed := p.bleed && !bitAt v 3 }
  else if o = 0x10 then s.writeCap (bitsAt v 0 10)
  else if o = 0x14 then s.writeShutdown v
  else s

/-- A write in the TIR block. -/
def State.writeTir (o v : Nat) (s : State) : State :=
  if o = 0x00 then s.writeTirCfg v
  else if o = 0x04 then { s with tiers := { s.tiers with err := s.tiers.err && !bitAt v 0 } }
  else if o = 0x24 then
    if 1 ≤ v && v ≤ 10000000 then { s with tiers := { s.tiers with promoteWait := v } }
    else { s with tiers := { s.tiers with err := true } }
  else s

/-- A write in the SCH block. -/
def State.writeSch (o v : Nat) (s : State) : State :=
  if o = 0x00 then
    let b := bitsAt v 0 20
    if 256 ≤ b && b ≤ 1000000 then { s with sched := { s.sched with sliceBt := b } } else s.schErr
  else if o = 0x04 then { s with sched := { s.sched with err := s.sched.err && !bitAt v 0 } }
  else if 0x1000 ≤ o && o < 0x9000 && (o - 0x1000) % 0x80 = 0 then s.writeClient ((o - 0x1000) / 0x80) v
  else s

/-- A write in the GAT block. -/
def State.writeGat (o v : Nat) (s : State) : State :=
  if o = 0x00 then
    if bitsAt v 0 8 = 0 then { s with gather := { s.gather with err := true } }
    else { s with gather := { s.gather with threshold := bitsAt v 0 8 } }
  else if o = 0x04 then s.writeHotBytes v
  else if o = 0x08 then { s with gather := { s.gather with err := s.gather.err && !bitAt v 0 } }
  else s

/-- A write in the ATT block. -/
def State.writeAtt (o v : Nat) (s : State) : State :=
  if o = 0x00 then
    let n := bitsAt v 0 7
    if 1 ≤ n && n ≤ 64 then { s with attention := { s.attention with clusters := n } }
    else { s with attention := { s.attention with err := true } }
  else if o = 0x04 then { s with attention := { s.attention with err := s.attention.err && !bitAt v 0 } }
  else s

/-- A write in the TST block, of `n` bytes. -/
def State.writeTst (port o n v : Nat) (s : State) : State :=
  if o = 0x00 then s.updTst fun t => { t with addr := v }
  else if o = 0x08 then s.writeMediaCmd port v
  else if o = 0x18 then s.writePulseCfg v
  else if o = 0x1C then s.updTst fun t => { t with err := t.err && !bitAt v 0 }
  else if o = 0x20 then s.writeCtrClear v
  else if 0x10000 ≤ o && o < 0x20000 then s.updTst fun t => { t with window := memWrite t.window (o - 0x10000) (leBytes n v) }
  else s

/-- A write of one register at its own offset in a block, `n` bytes wide. HELD admits only `ERR_LOG_STATUS` and `PWR_SHUTDOWN`
(R498). -/
def State.writeReg (port : Nat) (b : RegBlock) (o n v : Nat) (s : State) : State :=
  match b with
  | .atr => s.writeAtr port o v
  | .err => if o = 0x00 && s.regOpenHeld port .err then (if bitAt v 13 then s.popRecord else s) else s
  | .pwr =>
    if o = 0x14 then (if s.regOpenHeld port .pwr then s.writePwr o v else s)
    else if s.regOpen port .pwr then s.writePwr o v else s
  | .bcn =>
    if !s.regOpen port .bcn then s
    else if o = 0x00 then s.writeBcnCfg v
    else if o = 0x04 then s.updBeacon fun q => { q with err := q.err && !bitAt v 4 }
    else s
  | .sec => if s.regOpen port .sec && o = 0x04 && bitAt v 0 then s.setUpdateLock else s
  | .tir => if s.regOpen port .tir then s.writeTir o v else s
  | .sch => if s.regOpen port .sch then s.writeSch o v else s
  | .gat => if s.regOpen port .gat then s.writeGat o v else s
  | .att => if s.regOpen port .att then s.writeAtt o v else s
  | .tst => if s.regOpen port .tst then s.writeTst port o n v else s
  | .sys | .lnk | .clu | .fch | .drc | .src | .red => s

/-- A 64-bit register that can be written, at an 8-byte aligned offset: its value is replaced whole, or in the half addressed (R534).
The other wide registers hold what a write changes in one half. -/
def wideReg (b : RegBlock) (o : Nat) : Bool :=
  match b with
  | .atr => (match ringAt 0x1000 o with | some r => r.2 = 0 | none => false)
      || (match ringAt 0x5000 o with | some r => r.2 = 0 || r.2 = 0x10 | none => false)
  | .sch => 0x1000 ≤ o && o < 0x9000 && (o - 0x1000) % 0x80 = 0
  | .tst => o = 0x00
  | _ => false

/-- A write of 4 bytes at an offset of a block. -/
def State.write32 (port : Nat) (b : RegBlock) (i o v : Nat) (s : State) : State :=
  let base := o / 8 * 8
  if wideReg b base then
    let lo := if o = base then v else s.readBlock b i base
    let hi := if o = base then s.readBlock b i (base + 4) else v
    s.writeReg port b base 8 (lo + 2 ^ 32 * hi)
  else s.writeReg port b o 4 v

/-- A set-up write of 4 or 8 bytes (R533, R534): one access of a 64-bit register, two of 32-bit registers with the lower first. -/
def State.regWrite (port o size v : Nat) (s : State) : State :=
  match blockAt o with
  | none => s
  | some (b, i, l) =>
    if size = 8 then
      if wideReg b l then s.writeReg port b l 8 v
      else (s.write32 port b i l (word32 v 0)).write32 port b i (l + 4) (word32 v 1)
    else s.write32 port b i l (word32 v 0)

/-- A CFG_WR on a port: outside the rules of R402 it is dropped and counted. -/
def State.cfgWrite (port o size v : Nat) (s : State) : State :=
  if !s.portAccepts port || s.silent then s
  else if !accessOk o size then s.updPort port fun q => { q with errPackets := sat32 (q.errPackets + 1) }
  else s.regWrite port o size v

/-! ### The rows -/

/-- REGISTER_WRITE (R534). -/
def execRegisterWrite (port offset size : Nat) (value : Word64) (s : State) : Host.Outcome State Fault Refusal :=
  .next (s.cfgWrite port offset size value.toNat)

/-- CLIENT_ENABLE: a write of `SCH_CLIENT_CFG` with ENABLE 1 (R158). -/
def execClientEnable (port n : Nat) (value : Word64) (s : State) : Host.Outcome State Fault Refusal :=
  .next (if n < 256 && s.regOpen port .sch && bitAt value.toNat 0 then s.writeClient n value.toNat else s)

/-- CLIENT_DISABLE: a write of `SCH_CLIENT_CFG` with ENABLE 0 (R159). -/
def execClientDisable (port n : Nat) (value : Word64) (s : State) : Host.Outcome State Fault Refusal :=
  .next (if n < 256 && s.regOpen port .sch && !bitAt value.toNat 0 then s.writeClient n value.toNat else s)

/-- TIR_CFG (R183). -/
def execTirCfg (port : Nat) (value : Word) (s : State) : Host.Outcome State Fault Refusal :=
  .next (if s.regOpen port .tir then s.writeTirCfg value.toNat else s)

/-- PWR_CAP (R437). -/
def execPwrCap (port : Nat) (value : Word) (s : State) : Host.Outcome State Fault Refusal :=
  .next (if s.regOpen port .pwr then s.writeCap (bitsAt value.toNat 0 10) else s)

/-- PWR_SHUTDOWN with GO (R439, R498). -/
def execPwrShutdownGo (port : Nat) (s : State) : Host.Outcome State Fault Refusal :=
  .next (if s.regOpenHeld port .pwr then s.writeShutdown 1 else s)

/-- PWR_SHUTDOWN with QUIESCE (R438, Table 16-10). -/
def execQuiesce (port : Nat) (s : State) : Host.Outcome State Fault Refusal :=
  .next (if s.regOpenHeld port .pwr then s.writeShutdown 2 else s)

/-- POP (R462, R541): with no unread record it has no effect. -/
def execPop (port : Nat) (s : State) : Host.Outcome State Fault Refusal :=
  .next (if s.regOpenHeld port .err then s.popRecord else s)

/-- TST_CTR_CLEAR (R530). -/
def execTstCtrClear (port : Nat) (value : Word) (s : State) : Host.Outcome State Fault Refusal :=
  .next (if s.regOpen port .tst then s.writeCtrClear value.toNat else s)

/-- GAT_HOT_BYTES (R288, R293). -/
def execGatHotBytes (port : Nat) (value : Word) (s : State) : Host.Outcome State Fault Refusal :=
  .next (if s.regOpen port .gat then s.writeHotBytes value.toNat else s)

end Sys2Proof.Machine
end

