-- ==== Sys2Proof/Machine/Flit.lean ====
section
/-! DEFINITION. Flits that arrive: sequence, acknowledgement, credit, and the packets they carry (R397 to R399, R402 to R405,
R407, R418, Table 15-3 to Table 15-5). -/
namespace Sys2Proof.Machine

/-! ### The link layer (R397, R404, R405) -/

/-- A partner acknowledges DATA flits up to a sequence number: they leave the replay buffer. A number that names none of them
changes nothing. -/
def Port.ack (a now : Nat) (p : Port) : Port :=
  let n := (a + 65536 - p.acked) % 65536
  if n = 0 || p.replay.length < n then p
  else { p with replay := p.replay.drop n, acked := a, sameReplays := 0, lastAck := now }

/-- The partner returns credit on a virtual channel; 7 names none (R404). Credit on VC0 to VC2 ends starvation (R485). -/
def Port.credit (f : Nat) (p : Port) : Port :=
  let vc := f % 8
  let n := f / 8
  if vc = 7 then p
  else { p with credits := updAt vc (· + n) p.credits, red := acceptRed vc n p.red, starvedSince := if vc ≤ 2 && 0 < n then none else p.starvedSince }

/-- What every flit carries: the acknowledgement and two credit fields; what they free is sent (R308, R404, R405, R407). -/
def State.linkFields (port : Nat) (f : Bytes) (s : State) : State :=
  (State.renewRounds s (s.updPort port fun p =>
    (((p.ack (field f 2 2) s.bt).credit (field f 6 2)).credit (field f 8 2)).pump.noteStarve s.bt)).settleHomes.pumpRed

/-- One more discarded flit; the drive asks for a replay in its next flit (R398, R405). -/
def State.discardFlit (port : Nat) (s : State) : State :=
  s.updPort port fun p => { p with errFlits := sat32 (p.errFlits + 1), nak := true }

/-! ### Packets (R399, R400, R402, Table 15-4) -/

/-- One more dropped packet. -/
def State.dropPacket (port : Nat) (s : State) : State :=
  s.updPort port fun p => { p with errPackets := sat32 (p.errPackets + 1) }

/-- A header is one the drive accepts: a class it receives, and every reserved field zero (R399, Table 15-4, Table 15-5). -/
def headerAccepted (b : Bytes) : Bool :=
  let c := field b 0 1
  (c = 2 || c = 4 || c = 5 || c = 6) && field b 1 1 ≤ 1 && field b 2 2 ≤ 128 && field b 15 1 = 0
    && (c = 4 || c = 5 || field b 12 2 = 0) && (c = 5 || (field b 14 1 = 0 && field b 28 4 = 0))

/-- Answer a CFG_RD: its bytes, or CSTATUS 2 for an access outside R402. -/
def State.cfgRead (port tag o n : Nat) (s : State) : State :=
  let k : TxPkt := { cls := 5, vc := 2, dst := (s.port port).hostNode, tag := tag, slots := 1, cstatus := 2 }
  if !accessOk o n then s.send port k
  else if s.readOpen port o then
    s.send port { k with slots := 2, cstatus := 0, len := n, data := leBytes n (s.regRead o n) }
  else s

/-- The reduction packet a payload spells; none where a reserved field is not zero or the entries do not fit (R306,
Table 11-5). -/
def redOf (b : Bytes) : Option RedPacket :=
  let n := field b 10 2
  let es := chunksOf 8 256 (slice b 32 (8 * n))
  if 256 < n || b.length < 32 + 8 * n || 4 ≤ field b 3 1 || field b 23 1 ≠ 0 || es.any (fun e => field e 2 2 ≠ 0) then none
  else some
    { tag := field b 0 2, kind := field b 2 1, overflow := bitAt (field b 3 1) 0, pass2 := bitAt (field b 3 1) 1
      sender := field b 4 2, pktIndex := field b 6 2, pktCount := field b 8 2, round := field b 12 4, chunk := field b 16 4
      exp := toInt 16 (field b 20 2), margin := field b 22 1, k := field b 24 4, chunkCount := field b 28 4
      entries := es.map fun e => (field e 0 2, toInt 32 (field e 4 4)) }

/-- A reduction packet, for the domain slot whose DOMAIN_TAG it carries (R295, R309; assumption log 68: DEDUCED, unsafe). -/
def State.redArrives (port : Nat) (b : Bytes) (s : State) : State :=
  match redOf b with
  | none => s.dropPacket port
  | some k =>
    match (List.range 4).find? fun d => (s.dom d).state ≠ .empty && (s.dom d).tag = k.tag with
    | some d => if s.grade.hasReduction then s.arriveRed port (3 + d) k else s.dropPacket port
    | none => s.dropPacket port

/-- Deliver one packet to its class's receiver. -/
def State.takePacket (port : Nat) (b : Bytes) (s : State) : State :=
  let pay := b.drop 32
  let n := field b 24 4
  if !headerAccepted b then s.dropPacket port
  else
    let c := field b 0 1
    if c = 2 then
      if pay.length < n then s.dropPacket port else s.cfgWrite port (field b 16 8) n (field pay 0 n)
    else if c = 4 then s.cfgRead port (field b 12 2) (field b 16 8) n
    else if c = 5 then s.takeCpl port (field b 12 2) (field b 14 1) (field b 28 4) (bitAt (field b 1 1) 0) (pay.take n)
    else s.redArrives port pay

/-- Cut the slots received into packets, each a header and PAY_SLOTS payload slots; a slot of zeros where a header is due is empty,
and a header that claims more than 128 slots is a packet of its own (R399; assumption log 31: DESIGN CHOICE, unsafe). Answers the whole packets and
what is left. -/
def cutPackets : Nat → Bytes → List Bytes × Bytes
  | 0, b => ([], b)
  | fuel + 1, b =>
    if b.length < 32 then ([], b)
    else if allZero (b.take 32) then cutPackets fuel (b.drop 32)
    else
      let n := if 128 < field b 2 2 then 32 else 32 * (1 + field b 2 2)
      if b.length < n then ([], b)
      else
        let r := cutPackets fuel (b.drop n)
        (b.take n :: r.1, r.2)

/-- The slots of a DATA flit received in order. -/
def State.takeSlots (port : Nat) (b : Bytes) (s : State) : State :=
  let all := (s.port port).partialPkt ++ b
  let r := cutPackets (all.length / 32 + 1) all
  let t := s.updPort port fun p => { p with partialPkt := r.2 }
  if s.portAccepts port then r.1.foldl (fun t k => t.takePacket port k) t else t

/-- The part of a flit that its type decides: a DATA flit in sequence is taken, one out of sequence is discarded with a NAK; a flit of an
invalid type is counted and dropped, and is no part of the sequence (R398, R405). -/
def State.flitBody (port : Nat) (f : Bytes) (s : State) : State :=
  match field f 4 1 with
  | 0 =>
    if field f 0 2 = ((s.port port).rxSeq + 1) % 65536 then
      (s.updPort port fun p => { p with rxSeq := field f 0 2, nak := false }).takeSlots port (slice f 16 224)
    else s.discardFlit port
  | 1 | 2 | 3 => s
  | _ => s.updPort port fun p => { p with errFlits := sat32 (p.errFlits + 1) }

/-- FLIT_RECEIVE: a flit arrives on a port that is UP; `good` says that its CRC holds and no codeword of it was uncorrectable. What
BEACON and ECHO flits carry in their slots has rows of its own. -/
def execFlitReceive (port : Nat) (flit : List Byte) (good : Bool) (s : State) : Host.Outcome State Fault Refusal :=
  .next (
    if 2 ≤ port || (s.port port).link ≠ .up || s.silent then s
    else if !good then s.discardFlit port
    else
      let t := (s.linkFields port flit).flitBody port flit
      let t := if bitAt (field flit 5 1) 0 then t.replayFlits port else t
      if bitAt (field flit 5 1) 1 then t.retrain port else t)

end Sys2Proof.Machine
end

