-- ==== Sys2Proof/Machine/ObjectWrite.lean ====
section
/-! DEFINITION. OBJECT_WRITE and its COMMIT (R186, R188, R197 to R199, R219, R280, R469, R547). -/
namespace Sys2Proof.Machine

/-- FLAGS of an OBJECT_WRITE (Table 7-4). -/
def writeNew (e : Bytes) : Bool := bitAt (field e 46 1) 0
def writeCommit (e : Bytes) : Bool := bitAt (field e 46 1) 1
def writeForce (e : Bytes) : Bool := bitAt (field e 46 1) 2
def writeByAddr (e : Bytes) : Bool := bitAt (field e 46 1) 3

/-- The version an OBJECT_WRITE names, where it makes none. -/
def State.writeVer? (s : State) (e : Bytes) : Option Version :=
  match (s.target e (writeByAddr e)).1 with
  | some o => o.named? (if writeByAddr e then 0 else field e 44 2)
  | none => none

/-- OBJECT_WRITE, 0x21. -/
def State.specObjectWrite (s : State) (e : Bytes) : OpSpec :=
  let am := writeByAddr e
  let mk := writeNew e
  let len := field e 24 4
  let t := s.target e am
  let v := if mk then none else s.writeVer? e
  let size := match t.1, v with | some _, some v => v.size | some o, none => o.size | _, _ => 0
  let building := match v with | some v => v.state = .building | none => false
  let held := match v with | some v => v.state = .superseded || v.state = .retiring | none => false
  let kind := match t.1 with | some o => o.kind | none => 0
  let homed := match t.1 with | some o => 2 ≤ o.tier | none => false
  { data := true, reserved := [(47, 1), (56, 8)], bits4 := [(16 ≤ field e 46 1, 46)]
    field5 := (mk && field e 44 2 = 0, 44) :: s.rangeFields e am len 24
    objects := step8 [(t.1.isNone, if am then .outOfRange else .objectNotFound, 0), (!mk && v.isNone, .versionRetired, 0)
        , (kind = 2 || kind = 5 || kind = 6, .invalidField, 40)
        , (writeCommit e && !mk && !building, .invalidField, 46), (held, .writeProtected, 0)
        , (kind = 4 && !mk && !building, .writeProtected, 0)
        , (s.tiers.vitrine && homed && !mk && !building, .writeProtected, 0)
        , (decide (size < t.2 + len), .outOfRange, 0)]
      ++ (match t.1 with | some o => if mk then s.newVersionChecks o (field e 44 2) o.size else [] | none => [])
    pins := match t.1, v with | some o, some v => [(o.id, v.num)] | _, _ => [] }

/-- The object, version number, offset and length an admitted OBJECT_WRITE reaches. -/
def State.writeRange (s : State) (c : Slot) : Option (Nat × Nat × Nat × Nat) :=
  let e := c.entry
  match c.pins with
  | p :: _ =>
    let base := match s.tiers.objects.find? (·.id = p.1) with | some o => o.base | none => 0
    some (p.1, p.2, if writeByAddr e then field e 48 8 - base else field e 48 8, c.dataLen)
  | [] => some (field e 40 4, field e 44 2, field e 48 8, c.dataLen)

/-- An overlapping write of the same version admitted earlier has not been applied (R199). -/
def State.writeAhead (s : State) (c : Slot) : Bool :=
  s.atr.slots.any fun d =>
    d.opcode = 0x21 && d.order < c.order
      && (d.phase = .fenced || d.phase = .handed || (match d.work with | .held _ => true | _ => false))
      && (match s.writeRange c, s.writeRange d with
          | some a, some b => a.1 = b.1 && a.2.1 = b.2.1 && rangesMeet a.2.2.1 a.2.2.2 b.2.2.1 b.2.2.2
          | _, _ => false)

/-- The check that an index or table version fails at its commit, with its node (Table 8-5, Table 10-4). -/
def State.commitFault (s : State) (o : Obj) (v : Version) : Option (Nat × Nat) :=
  match o.kind with
  | 3 => s.indexFault v
  | 4 => (tableFault v).map fun k => (k, 0)
  | _ => none

/-- COMMIT of a version after the command's data: refused while a page is lost or where a check fails, and then the version stays
BUILDING; otherwise it becomes CURRENT. A version that has left BUILDING since the command's admission is none to commit (R196, R219,
R280, R291, R469; assumption log 168: DEDUCED, safe). -/
def State.commitWrite (c : Slot) (o : Obj) (n : Nat) (ps : List (Nat × Nat × Nat)) (s : State) : State :=
  match s.version? o.id n with
  | none => s.fail c.id .versionRetired 0
  | some v =>
    if v.state ≠ .building then s.fail c.id .invalidField 46
    else if !v.lost.isEmpty then s.fail c.id .mediaUncorrectable 0
    else match s.commitFault o v with
      | some x => (s.updObj o.id fun o => { o with lastCheck := x.1, lastNode := x.2 }).fail c.id .invalidField 46
      | none =>
        let clear := fun o : Obj => if o.kind = 3 then { o with lastCheck := 0, lastNode := 0 } else o
        (((s.commit o.id n).updObj o.id clear).fitSlc).ackWrite c.id o (writeForce c.entry) ps 0

/-- The data of an OBJECT_WRITE is written, and committed where asked. -/
def State.applyWrite (c : Slot) (o : Obj) (n off : Nat) (s : State) : State :=
  let b := s.dataBytes c
  let ps := pageList o.id n off b.length
  let t := (if o.durable then s.takeCredit (4096 * ps.length) else s).writeVersion o.id n off b
  if writeCommit c.entry then t.commitWrite c o n ps else t.ackWrite c.id o (writeForce c.entry) ps 0

/-- OBJECT_WRITE carried out; held back where its durable dirty data is not admitted (R210). -/
def State.doObjectWrite (c : Slot) (s : State) : State :=
  let mk := writeNew c.entry
  match s.writeRange c with
  | none => s.fail c.id .objectNotFound 0
  | some (id, n, off, len) => match s.tiers.objects.find? (·.id = id) with
    | none => s.fail c.id .objectNotFound 0
    | some o =>
      match (if mk then (s.newVersionChecks o n o.size).find? (·.1) else none) with
      | some x => s.fail c.id x.2.1 x.2.2
      | none =>
        let num := 4096 * (pagesOf off len).length
        let impaired := match o.ver? n with | some v => v.impaired | none => false
        if !mk && (o.ver? n).isNone then s.fail c.id .versionRetired 0
        else if impaired then s.fail c.id .objectImpaired 0
        else if s.protected && (o.durable || writeForce c.entry || s.writesThrough o) then s.fail c.id .writeProtected 0
        else if o.durable && !s.admitsDirty num then s.setWork c.id (.held num)
        else (if mk then (s.newVersion id n).holdVersion c.id id n else s).applyWrite c o n off

/-- OBJECT_WRITE (R198, R199, R547). -/
def execObjectWrite (slot : Nat) (s : State) : Host.Outcome State Fault Refusal :=
  .next (s.runCmd slot 0x21 false fun c => if s.writeAhead c then s else s.doObjectWrite c)

end Sys2Proof.Machine
end

