-- ==== Sys2Proof/Machine/Validate.lean ====
section
/-! DEFINITION. Fetch, duplicates, validation and admission (R19, R20, R48, R49, R60 to R64, R71, R438, R473, R520). -/
namespace Sys2Proof.Machine

/-- What a defined opcode asks of its entry; none for an opcode no chapter assigns (R53, R60). -/
def State.opSpec (s : State) (e : Bytes) (refused : Bool) : Option OpSpec :=
  match field e 0 1 with
  | 0x00 => some (s.specUnitClose e)
  | 0x01 => some (s.specUnitReturn e)
  | 0x02 => some (s.specUnitQuery e)
  | 0x03 => some (specFaultRead e)
  | 0x08 => some (s.specIdentityRead e)
  | 0x09 => some (s.specAttest e)
  | 0x0A => some (s.specFwStage e)
  | 0x0B => some (s.specFwActivate e)
  | 0x0C => some (s.specRollbackAdvance e)
  | 0x0D => some (s.specMeasureRead e)
  | 0x10 => some (s.specBlock 0x10 e)
  | 0x11 => some (s.specBlock 0x11 e)
  | 0x12 => some (s.specBlock 0x12 e)
  | 0x13 => some specBlockFlush
  | 0x14 => some (s.specBlock 0x14 e)
  | 0x15 => some (specSelfTest e)
  | 0x20 => some (s.specObjectCreate e)
  | 0x21 => some (s.specObjectWrite e)
  | 0x22 => some (s.specObjectRead e)
  | 0x23 => some (s.specObjectMove e)
  | 0x24 => some (s.specObjectRetire e)
  | 0x25 => some (s.specObjectQuery e)
  | 0x26 => some (s.specObjectDurability e)
  | 0x27 => some (s.specObjectFlush e)
  | 0x30 => some (s.specProgramLoad e)
  | 0x31 => some (s.specJobRun e refused)
  | 0x40 => some (s.specIndexCreate e)
  | 0x41 => some (s.specAccession e)
  | 0x42 => some (s.specSearch true e refused)
  | 0x43 => some (s.specSearch false e refused)
  | 0x44 => some (s.specAccessionMerge e)
  | 0x45 => some (s.specKernelLoad e refused)
  | 0x46 => some (s.specIndexQuery e)
  | 0x50 => some (s.specTableCreate e)
  | 0x51 => some (s.specGather false e)
  | 0x52 => some (s.specGather true e)
  | 0x53 => some (s.specTableQuery e)
  | 0x58 => some (s.specFolioCreate e)
  | 0x59 => some (s.specFolioAppend e)
  | 0x5A => some (s.specFolioAttend e)
  | 0x5B => some (s.specFolioReload e)
  | 0x5C => some (s.specFolioTruncate e)
  | 0x60 => some (s.specDomainSet e)
  | 0x61 => some (s.specDomainClear e)
  | 0x62 => some (s.specResidualCreate e)
  | 0x63 => some (s.specReduce e)
  | 0x64 => some (s.specDomainQuery e)
  | _ => none

/-- Opcodes the recovery loader accepts (R520). -/
def recoveryOp (op : Nat) : Bool := op = 0x08 || op = 0x09 || op = 0x0A || op = 0x0B || op = 0x0D

/-- Steps 2 to 10 of Table 2-7 for an entry accepted as new: its spec, or the status and RESULT with which it is refused. -/
def State.validate (s : State) (e : Bytes) (refused : Bool) : Except (Status × Nat) OpSpec :=
  match s.opSpec e refused with
  | none => .error (.invalidOpcode, 0)
  | some sp =>
    if s.power.phase = .recovery && !recoveryOp (field e 0 1) then .error (.accessDenied, 0)
    else match s.runChecks e sp refused with
      | some r => .error r
      | none => if s.deadlinePassed e s.bt then .error (.deadlineExpired, 0) else .ok sp

/-! ### When a ring is fetched from (R48, R49, R407, R409, R473) -/

/-- F_c + H_c of a completion ring (R473). -/
def State.reserved (s : State) (cq : Nat) : Nat :=
  ((s.atr.sqs.filter fun q => q.cq = cq).map (·.inFlight)).foldl (· + ·) 0 + (s.cq cq).held

/-- The record that a new entry would push out of the duplicate window has posted its completion (R49). -/
def Sq.windowMoves (q : Sq) : Bool :=
  match q.window[4095]? with
  | some r => r.posted.isSome
  | none => true

/-- The ring has an entry the Atrium may fetch now. -/
def State.fetchable (s : State) (n : Nat) : Bool :=
  let q := s.sq n
  n < 256 && q.enabled && !q.disabling && !q.halted && q.head ≠ q.tail && !s.atr.stopped && !s.still
    && s.atr.slots.length < 8192 && q.windowMoves && s.reserved q.cq + 1 < (s.cq q.cq).size && s.reachable q.cq

/-- The ring whose turn it is: the last one while it has taken fewer than 8 entries, else the next in ring order (R48). -/
def State.turn (s : State) : Option Nat :=
  let l := s.atr.lastRing
  if s.atr.turnTaken < 8 && s.fetchable l then some l
  else ((List.range 256).map fun i => (l + 1 + i) % 256).find? s.fetchable

/-! ### Duplicates (R62 to R64) -/

/-- A completion that posts without a command behind it. -/
def State.answerEntry (n : Nat) (e : Bytes) (order : Nat) (st : Status) (result flags : Nat) (keep : Bool) (s : State) : State :=
  let t := if 0x10 ≤ st.code then s.countErr st.code else s
  t.ready
    { tag := field e 2 2, status := st, cflags := flags, seq := BitVec.ofNat 32 (field e 4 4), sq := n, result := result
      notify := !bitAt (field e 1 1) 4, slot := none, order := order, retain := keep }

/-- An entry that is not new: a duplicate is reposted, or answered with DUPLICATE while its original is in flight; any other
takes `SEQUENCE_ERROR` (Table 2-8). -/
def State.oldEntry (n : Nat) (e : Bytes) (order : Nat) (s : State) : State :=
  let q := s.sq n
  let seq : Word := BitVec.ofNat 32 (field e 4 4)
  let rec_ := if 2 ^ 32 - 4096 ≤ (seq - q.expSeq).toNat then q.window.find? (·.seq = seq) else none
  match rec_ with
  | none => s.answerEntry n e order .sequenceError 0 0 false
  | some r =>
    if r.opcode ≠ field e 0 1 || r.tag ≠ field e 2 2 then s.answerEntry n e order .sequenceError 0 0 false
    else match r.posted with
      | none => s.answerEntry n e order .duplicate 0 2 false
      | some k => s.ready { k with
          cflags := k.cflags + (if bitAt k.cflags 1 then 0 else 2), notify := !bitAt (field e 1 1) 4, slot := none
          order := order, retain := false }

/-! ### Admission (R19, R22, R57, R71, R197, R299, R438) -/

/-- The command returns a QUIESCENT drive to ACTIVE, or to CAPPED where a cap is set: it needs a cluster, a docent-core service or
a channel engine, as every family but reduction does (R438, Table 1-6). -/
def State.wake (op : Nat) (s : State) : State :=
  if s.power.state = .quiescent && !(0x60 ≤ op && op ≤ 0x6F) then
    s.updPower fun p => { p with state := if p.cap < 720 then .capped else .active }
  else s

/-- Each admitted REDUCE takes its domain's next round number (R299). -/
def State.takeRound (e : Bytes) (s : State) : State :=
  if field e 0 1 = 0x63 then
    s.updDom (field e 40 1) fun m => { m with nextRound := if m.nextRound = 0xFFFFFFFF then 1 else m.nextRound + 1 }
  else s

/-- The active-command slot of an admitted entry. -/
def State.newSlot (s : State) (n order : Nat) (e : Bytes) (sp : OpSpec) : Slot :=
  let hf := field e 1 1
  let data := if sp.data || (sp.dataLate && field e 24 4 ≠ 0) then
    (bufferSegs s.hostMem (bitAt hf 1) (field e 16 8) (field e 24 4)).segs else []
  let result := if sp.result then (bufferSegs s.hostMem (bitAt hf 2) (field e 32 8) (field e 28 4)).segs else []
  let op := field e 0 1
  { id := s.atr.nextSlot, sq := n, entry := e, order := order, fetchBt := s.bt, phase := .fenced
    data := data, result := result, toRead := readPieces data, pins := sp.pins
    work := if op = 0x42 || op = 0x43 then s.searchWork e sp.pins
      else if op = 0x27 then .flush (s.flushList (field e 40 4)) else .none }

/-- Admit an entry: it takes a slot, pins its versions, a JOB_RUN's job waits from now on, and it is handed over, or fenced (R71,
R162). -/
def State.accept (n order : Nat) (e : Bytes) (sp : OpSpec) (s : State) : State :=
  let c := s.newSlot n order e sp
  let t : State := { s with atr := { s.atr with slots := s.atr.slots ++ [c], nextSlot := s.atr.nextSlot + 1 } }
  let t := (((t.pinAll c.pins).takeRound e).wake (field e 0 1)).admitRun c
  if bitAt (field e 1 1) 0 && t.earlierUnposted n order then t else t.handOver c.id

/-- A new entry: E advances, its record is retained, and it is checked, then admitted or refused (R60, R62, R64). -/
def State.newEntry (n : Nat) (e : Bytes) (order : Nat) (refused : Bool) (s : State) : State :=
  let r : Retained := { seq := BitVec.ofNat 32 (field e 4 4), opcode := field e 0 1, tag := field e 2 2 }
  let t := s.updSq n fun q => { q with expSeq := q.expSeq + 1, window := (r :: q.window).take 4096 }
  match s.validate e refused with
  | .error x => t.answerEntry n e order x.1 x.2 0 true
  | .ok sp => t.accept n order e sp

/-- Host memory as the fetch reads it (assumption log 19: DESIGN CHOICE, unsafe). -/
def State.learn (reads : List (Nat × List Byte)) (s : State) : State :=
  { s with hostMem := reads.foldl (fun m r => memWrite m r.1 r.2) s.hostMem }

/-- FETCH: the next entry of the ring whose turn it is; the host memory it reads, its segment lists among them, comes with the
step, which says whether the host refused a list (R48 to R50, R60, R62). -/
def execFetch (sq : Nat) (reads : List (Nat × List Byte)) (sglRefused : Bool) (s : State) : Host.Outcome State Fault Refusal :=
  .next (
    if s.turn ≠ some sq then s
    else
      let s := s.learn reads
      let q := s.sq sq
      let e := memRead s.hostMem (q.base + 64 * q.head) 64
      let order := s.atr.nextOrder
      let t := s.updSq sq fun q => { q with head := (q.head + 1) % q.size, inFlight := q.inFlight + 1 }
      let t : State := { t with atr := { t.atr with
        lastRing := sq, turnTaken := if s.atr.lastRing = sq && s.atr.turnTaken < 8 then s.atr.turnTaken + 1 else 1
        nextOrder := order + 1 } }
      if BitVec.ofNat 32 (field e 4 4) = q.expSeq then t.newEntry sq e order sglRefused else t.oldEntry sq e order)

end Sys2Proof.Machine
end

