-- ==== Sys2Proof/Machine/Resume.lean ====
section
/-! DEFINITION. Steps after which commands that waited go on: a write-back that ends, map pages that are journalled, a completion
that is posted (R63 to R71, R199, R210, R347, R358, R363, R439). -/
namespace Sys2Proof.Machine

/-- Carry out a command whose write waited for admission: it goes on, or waits again (R210). -/
def State.goOn (c : Slot) (s : State) : State :=
  match c.opcode with
  | 0x11 => s.doBlockWrite c
  | 0x12 => s.doBlockAtomic c
  | 0x14 => s.doBlockTrim c
  | 0x21 => s.doObjectWrite c
  | 0x26 => s.doDurability c
  | 0x30 => if s.reachable (s.ringOf c.sq) then s.doProgramLoad c else s
  | 0x41 => s.doAccession c
  | 0x44 => s.goOnMerge c
  | 0x58 => if s.reachable (s.ringOf c.sq) then s.doFolioCreate c else s
  | 0x59 => s.appendTokens c
  | 0x5C => s.truncate c
  | 0x62 => if s.reachable (s.ringOf c.sq) then s.doResidualCreate c else s
  | _ => s

/-- The command waits for admission of durable dirty data. -/
def Slot.waitsDirty (c : Slot) : Bool :=
  c.phase = .running && match c.work with | .held _ | .merge _ _ .held => true | _ => false

/-- Commands that wait for admission go on in admission order, then rounds that wait (R210). -/
def State.resumeHeld (s : State) : State :=
  let t := (s.atr.slots.filter Slot.waitsDirty).foldl
    (fun t c => match t.slot? c.id with | some c => if c.waitsDirty then t.goOn c else t | none => t) s
  (List.range 4).foldl (fun t d => t.endRound d) t

/-- A command whose flash writes and journalling are complete goes on: an append writes its header, a round's update its next part, and
every other command completes (R199, R259, R304, R383, R385). -/
def State.afterWait (c : Slot) (w : FlushWork) (s : State) : State :=
  if c.opcode = 0x63 then s.roundStep (c.arg 40 1)
  else match s.folioHeader c w.result w.journal with
    | some t => t
    | none =>
      (s.finish c.id (okStatus (bitAt w.info 2) (bitAt w.info 4) (bitAt w.info 3)) w.result w.info).accessionDone c w.result

/-- Pages that are dirty no more, as of a version since RETIRED, and units that have moved leave the lists of the waiting commands
(R199). -/
def State.pruneFlushes (s : State) : State :=
  s.updFlushes fun w => { w with pages := s.stillDirty w.pages, moves := w.moves.filter s.inFlight }

/-- Commands that have nothing left to wait for go on, in admission order. -/
def State.finishFlushes (s : State) : State :=
  let s := s.pruneFlushes
  (s.atr.slots.filter fun c => c.phase = .running && match c.work with | .flush w => w.ended | _ => false).foldl
    (fun t c => match c.work with
      | .flush w => t.afterWait c w
      | _ => t) s

/-- Commands that waited go on, and a shutdown that waited for them. -/
def State.goOnAll (s : State) : State := s.finishFlushes.finishListed.resumeHeld.tryShutdown

/-- WRITEBACK_END: the write-back of `count` units that count as written ends: their pages leave D, what waited for them goes on, and
write-backs that are due start (R208 to R210, R346, R353, R358, R363). -/
def execWritebackEnd (count : Nat) (s : State) : Host.Outcome State Fault Refusal :=
  .next (
    if s.still then s
    else ((s.retireData count).throttle.noteProtection.migrateFull.reclaimForeground.finishFlushes.resumeHeld).issueStores.tryShutdown)

/-- MAP_PAGE_JOURNAL: one MAP-stream slot takes the dirty map pages that are due (R347 to R349). -/
def execMapPageJournal (s : State) : Host.Outcome State Fault Refusal :=
  .next (
    if s.still || s.haltedBy .drive || s.mapSlot.isEmpty then s
    else (s.storeMaps s.mapSlot []).serveFlash.goOnAll)

/-- A command whose flash reads have ended goes on; a gather's step ends with GATHER_STEP_END. -/
def State.afterReads (c : Slot) (s : State) : State :=
  let t := s.updSlot c.id fun c => { c with fetch := none }
  match c.opcode with
  | 0x22 => t.endObjectRead c
  | 0x5A => t.endFolioReads c
  | 0x5B => t.endFolioReads c
  | _ => t

/-- Reads that wait are issued, and commands whose reads have ended go on, in admission order. -/
def State.serveReads (s : State) : State :=
  let t := s.pumpFetch
  (t.atr.slots.filter fun c => c.phase = .running && c.fetch = some []).foldl (fun t c => t.afterReads c) t

/-- DIE_READ_END: a die read ends with the stage each codeword needed: 0, 1, 2 for the stages of R319, 3 uncorrectable; of a blank check
none when the pages are blank. Its unit's read counter rises, and its owner is served. -/
def execDieReadEnd (d : Die) (stages : List Nat) (s : State) : Host.Outcome State Fault Refusal :=
  .next (match s.runningOp? d .read with
    | none => s
    | some o =>
      let t := s.endOp o
      match o.owner with
      | .blank => (t.blankCheckEnd o stages.isEmpty).refuseQueued.serveFlash.pumpFlash.markUrgent.serveReads
      | owner =>
        let t := (t.updEunit d o.unit fun x => { x with reads := x.reads + 1 }).updChannel d.channel
          fun k => k.addStages stages
        let lost := uncorrectable stages && !t.parityCovers d o.unit o.page
        let t := match owner with
          | .command slot lun => t.commandRead slot lun o stages lost
          | .object slot lun => t.objectRead slot lun o stages lost
          | .raw => t.rawRead o stages
          | .scan => t.scanRead o stages
          | .retention => if needsStage3 stages then t.relocateOnce .background (t.eunit d o.unit) else t
          | _ => t
        t.pumpFlash.serveReads)

/-- DIE_PROGRAM_END: a die program ends; what has come to count as written with it is done with, and what waited goes on (R325, R331,
R336, R347, R353, R456). -/
def execDieProgramEnd (d : Die) (good : Bool) (s : State) : Host.Outcome State Fault Refusal :=
  .next (match s.runningOp? d .program with
    | none => s
    | some o =>
      let t := s.endOp o
      let t := if good then t.programPass o else t.programFail o
      t.refuseQueued.serveFlash.noteProtection.throttle.markUrgent.pumpFlash.goOnAll.serveReads)

/-- COMPLETION_POST: the first ready completion of a ring is written to host memory (R65, R68, R69, R70). -/
def execCompletionPost (cq : Nat) (s : State) : Host.Outcome State Fault Refusal := .next (s.post cq).tryShutdown

end Sys2Proof.Machine
end

