-- ==== Sys2Proof/Machine/Dispatch.lean ====
section
/-! DEFINITION. The dispatcher: one arm for each constructor of Instr, each one direct call of its meaning. -/
namespace Sys2Proof.Machine

/-- The effect of a command on everything but the queue. -/
def exec (i : Instr) (s : State) : Host.Outcome State Fault Refusal :=
  match i with
  | .unitClose slot => Sys2Proof.Machine.execUnitClose slot s
  | .unitReturn slot => Sys2Proof.Machine.execUnitReturn slot s
  | .unitQuery slot => Sys2Proof.Machine.execUnitQuery slot s
  | .faultRead slot => Sys2Proof.Machine.execFaultRead slot s
  | .identityRead slot => Sys2Proof.Machine.execIdentityRead slot s
  | .attest slot => Sys2Proof.Machine.execAttest slot s
  | .fwStage slot => Sys2Proof.Machine.execFwStage slot s
  | .fwActivate slot => Sys2Proof.Machine.execFwActivate slot s
  | .fwWriteEnd good => Sys2Proof.Machine.execFwWriteEnd good s
  | .rollbackAdvance slot stuck => Sys2Proof.Machine.execRollbackAdvance slot stuck s
  | .measureRead slot => Sys2Proof.Machine.execMeasureRead slot s
  | .blockRead slot => Sys2Proof.Machine.execBlockRead slot s
  | .blockWrite slot => Sys2Proof.Machine.execBlockWrite slot s
  | .blockAtomic slot => Sys2Proof.Machine.execBlockAtomic slot s
  | .blockFlush slot => Sys2Proof.Machine.execBlockFlush slot s
  | .blockTrim slot => Sys2Proof.Machine.execBlockTrim slot s
  | .selfTest slot => Sys2Proof.Machine.execSelfTest slot s
  | .selfTestStep idle found relocate => Sys2Proof.Machine.execSelfTestStep idle found relocate s
  | .objectCreate slot => Sys2Proof.Machine.execObjectCreate slot s
  | .objectWrite slot => Sys2Proof.Machine.execObjectWrite slot s
  | .objectRead slot => Sys2Proof.Machine.execObjectRead slot s
  | .objectMove slot => Sys2Proof.Machine.execObjectMove slot s
  | .objectRetire slot => Sys2Proof.Machine.execObjectRetire slot s
  | .objectQuery slot => Sys2Proof.Machine.execObjectQuery slot s
  | .objectDurability slot => Sys2Proof.Machine.execObjectDurability slot s
  | .objectFlush slot => Sys2Proof.Machine.execObjectFlush slot s
  | .programLoad slot => Sys2Proof.Machine.execProgramLoad slot s
  | .jobRun slot => Sys2Proof.Machine.execJobRun slot s
  | .indexCreate slot => Sys2Proof.Machine.execIndexCreate slot s
  | .accession slot => Sys2Proof.Machine.execAccession slot s
  | .searchD slot => Sys2Proof.Machine.execSearchD slot s
  | .searchX slot => Sys2Proof.Machine.execSearchX slot s
  | .accessionMerge slot => Sys2Proof.Machine.execAccessionMerge slot s
  | .mergeCommit slot => Sys2Proof.Machine.execMergeCommit slot s
  | .kernelLoad slot => Sys2Proof.Machine.execKernelLoad slot s
  | .indexQuery slot => Sys2Proof.Machine.execIndexQuery slot s
  | .tableCreate slot => Sys2Proof.Machine.execTableCreate slot s
  | .gather slot => Sys2Proof.Machine.execGather slot s
  | .gatherStepEnd slot => Sys2Proof.Machine.execGatherStepEnd slot s
  | .gatherPrefetch slot => Sys2Proof.Machine.execGatherPrefetch slot s
  | .tableQuery slot => Sys2Proof.Machine.execTableQuery slot s
  | .hotDecay => Sys2Proof.Machine.execHotDecay s
  | .prefetchProtectExpiry => Sys2Proof.Machine.execPrefetchProtectExpiry s
  | .folioCreate slot => Sys2Proof.Machine.execFolioCreate slot s
  | .folioAppend slot => Sys2Proof.Machine.execFolioAppend slot s
  | .folioAttend slot => Sys2Proof.Machine.execFolioAttend slot s
  | .folioReload slot => Sys2Proof.Machine.execFolioReload slot s
  | .folioTruncate slot => Sys2Proof.Machine.execFolioTruncate slot s
  | .domainSet slot => Sys2Proof.Machine.execDomainSet slot s
  | .domainClear slot => Sys2Proof.Machine.execDomainClear slot s
  | .residualCreate slot => Sys2Proof.Machine.execResidualCreate slot s
  | .reduce slot => Sys2Proof.Machine.execReduce slot s
  | .roundStart slot => Sys2Proof.Machine.execRoundStart slot s
  | .startTick domain => Sys2Proof.Machine.execStartTick domain s
  | .reductionPacket vc p => Sys2Proof.Machine.execReductionPacket vc p s
  | .reductionStall domain => Sys2Proof.Machine.execReductionStall domain s
  | .domainQuery slot => Sys2Proof.Machine.execDomainQuery slot s
  | .add h f => Sys2Proof.Machine.execAdd h f s
  | .sub h f => Sys2Proof.Machine.execSub h f s
  | .and h f => Sys2Proof.Machine.execAnd h f s
  | .or h f => Sys2Proof.Machine.execOr h f s
  | .xor h f => Sys2Proof.Machine.execXor h f s
  | .sll h f => Sys2Proof.Machine.execSll h f s
  | .srl h f => Sys2Proof.Machine.execSrl h f s
  | .sra h f => Sys2Proof.Machine.execSra h f s
  | .slt h f => Sys2Proof.Machine.execSlt h f s
  | .sltu h f => Sys2Proof.Machine.execSltu h f s
  | .min h f => Sys2Proof.Machine.execMin h f s
  | .max h f => Sys2Proof.Machine.execMax h f s
  | .minu h f => Sys2Proof.Machine.execMinu h f s
  | .maxu h f => Sys2Proof.Machine.execMaxu h f s
  | .mul h f => Sys2Proof.Machine.execMul h f s
  | .mulhu h f => Sys2Proof.Machine.execMulhu h f s
  | .addi h f => Sys2Proof.Machine.execAddi h f s
  | .andi h f => Sys2Proof.Machine.execAndi h f s
  | .ori h f => Sys2Proof.Machine.execOri h f s
  | .xori h f => Sys2Proof.Machine.execXori h f s
  | .shi h f => Sys2Proof.Machine.execShi h f s
  | .lui h f => Sys2Proof.Machine.execLui h f s
  | .fadd h f => Sys2Proof.Machine.execFadd h f s
  | .fsub h f => Sys2Proof.Machine.execFsub h f s
  | .fmul h f => Sys2Proof.Machine.execFmul h f s
  | .fma h f => Sys2Proof.Machine.execFma h f s
  | .fmin h f => Sys2Proof.Machine.execFmin h f s
  | .fmax h f => Sys2Proof.Machine.execFmax h f s
  | .fabs h f => Sys2Proof.Machine.execFabs h f s
  | .fneg h f => Sys2Proof.Machine.execFneg h f s
  | .fcvtSW h f => Sys2Proof.Machine.execFcvtSW h f s
  | .fcvtWS h f => Sys2Proof.Machine.execFcvtWS h f s
  | .fexp2 h f => Sys2Proof.Machine.execFexp2 h f s
  | .flog2 h f => Sys2Proof.Machine.execFlog2 h f s
  | .frcp h f => Sys2Proof.Machine.execFrcp h f s
  | .frsq h f => Sys2Proof.Machine.execFrsq h f s
  | .badd2 h f => Sys2Proof.Machine.execBadd2 h f s
  | .bmul2 h f => Sys2Proof.Machine.execBmul2 h f s
  | .bfma2 h f => Sys2Proof.Machine.execBfma2 h f s
  | .bmax2 h f => Sys2Proof.Machine.execBmax2 h f s
  | .bpack h f => Sys2Proof.Machine.execBpack h f s
  | .blo h f => Sys2Proof.Machine.execBlo h f s
  | .bhi h f => Sys2Proof.Machine.execBhi h f s
  | .eq h f => Sys2Proof.Machine.execEq h f s
  | .ne h f => Sys2Proof.Machine.execNe h f s
  | .lt h f => Sys2Proof.Machine.execLt h f s
  | .ltu h f => Sys2Proof.Machine.execLtu h f s
  | .ge h f => Sys2Proof.Machine.execGe h f s
  | .geu h f => Sys2Proof.Machine.execGeu h f s
  | .feq h f => Sys2Proof.Machine.execFeq h f s
  | .flt h f => Sys2Proof.Machine.execFlt h f s
  | .fle h f => Sys2Proof.Machine.execFle h f s
  | .pand h f => Sys2Proof.Machine.execPand h f s
  | .por h f => Sys2Proof.Machine.execPor h f s
  | .pxor h f => Sys2Proof.Machine.execPxor h f s
  | .pnot h f => Sys2Proof.Machine.execPnot h f s
  | .ptos h f => Sys2Proof.Machine.execPtos h f s
  | .stop h f => Sys2Proof.Machine.execStop h f s
  | .ldb h f => Sys2Proof.Machine.execLdb h f s
  | .ldh h f => Sys2Proof.Machine.execLdh h f s
  | .ldw h f => Sys2Proof.Machine.execLdw h f s
  | .ldq h f => Sys2Proof.Machine.execLdq h f s
  | .stb h f => Sys2Proof.Machine.execStb h f s
  | .sth h f => Sys2Proof.Machine.execSth h f s
  | .stw h f => Sys2Proof.Machine.execStw h f s
  | .stq h f => Sys2Proof.Machine.execStq h f s
  | .br h f => Sys2Proof.Machine.execBr h f s
  | .jal h f => Sys2Proof.Machine.execJal h f s
  | .jr h f => Sys2Proof.Machine.execJr h f s
  | .exit h f => Sys2Proof.Machine.execExit h f s
  | .xfer h f => Sys2Proof.Machine.execXfer h f s
  | .ldin h f => Sys2Proof.Machine.execLdin h f s
  | .wstr h f => Sys2Proof.Machine.execWstr h f s
  | .pass h f => Sys2Proof.Machine.execPass h f s
  | .drain h f => Sys2Proof.Machine.execDrain h f s
  | .accld h f => Sys2Proof.Machine.execAccld h f s
  | .discard h f => Sys2Proof.Machine.execDiscard h f s
  | .signal h f => Sys2Proof.Machine.execSignal h f s
  | .wait h f => Sys2Proof.Machine.execWait h f s
  | .set h f => Sys2Proof.Machine.execSet h f s
  | .read h f => Sys2Proof.Machine.execRead h f s
  | .pause h index => Sys2Proof.Machine.execPause h index s
  | .tid h f => Sys2Proof.Machine.execTid h f s
  | .cid h f => Sys2Proof.Machine.execCid h f s
  | .ncl h f => Sys2Proof.Machine.execNcl h f s
  | .flags h f => Sys2Proof.Machine.execFlags h f s
  | .trap h f => Sys2Proof.Machine.execTrap h f s
  | .btime h f => Sys2Proof.Machine.execBtime h f s
  | .wide h f => Sys2Proof.Machine.execWide h f s
  | .machineTrap h fetchCrc => Sys2Proof.Machine.execMachineTrap h fetchCrc s
  | .groupStaged e => Sys2Proof.Machine.execGroupStaged e s
  | .passEnd e => Sys2Proof.Machine.execPassEnd e s
  | .drainEnd e tile => Sys2Proof.Machine.execDrainEnd e tile s
  | .accldEnd e tile => Sys2Proof.Machine.execAccldEnd e tile s
  | .loadEnd e => Sys2Proof.Machine.execLoadEnd e s
  | .xferEnd job id => Sys2Proof.Machine.execXferEnd job id s
  | .streamEnd job handle => Sys2Proof.Machine.execStreamEnd job handle s
  | .pausePointTaken job cycle => Sys2Proof.Machine.execPausePointTaken job cycle s
  | .placementMoveEnd owner => Sys2Proof.Machine.execPlacementMoveEnd owner s
  | .jobStart start => Sys2Proof.Machine.execJobStart start s
  | .jobEnd job cycle => Sys2Proof.Machine.execJobEnd job cycle s
  | .postCharge n => Sys2Proof.Machine.execPostCharge n s
  | .sliceEnd job => Sys2Proof.Machine.execSliceEnd job s
  | .sliceWatchdog job cycle => Sys2Proof.Machine.execSliceWatchdog job cycle s
  | .clusterWaitTimeout job => Sys2Proof.Machine.execClusterWaitTimeout job s
  | .jobDeadline job => Sys2Proof.Machine.execJobDeadline job s
  | .fetch sq reads sglRefused => Sys2Proof.Machine.execFetch sq reads sglRefused s
  | .completionPost cq => Sys2Proof.Machine.execCompletionPost cq s
  | .notifyTimeout cq => Sys2Proof.Machine.execNotifyTimeout cq s
  | .lockWaitDeadline slot => Sys2Proof.Machine.execLockWaitDeadline slot s
  | .sqEnable port n value => Sys2Proof.Machine.execSqEnable port n value s
  | .sqDisable port n value => Sys2Proof.Machine.execSqDisable port n value s
  | .cqEnable port n value => Sys2Proof.Machine.execCqEnable port n value s
  | .cqDisable port n value => Sys2Proof.Machine.execCqDisable port n value s
  | .atrSqDb port n value => Sys2Proof.Machine.execAtrSqDb port n value s
  | .atrCqDb port n value => Sys2Proof.Machine.execAtrCqDb port n value s
  | .clientEnable port n value => Sys2Proof.Machine.execClientEnable port n value s
  | .clientDisable port n value => Sys2Proof.Machine.execClientDisable port n value s
  | .tirCfg port value => Sys2Proof.Machine.execTirCfg port value s
  | .bcnCfg port value => Sys2Proof.Machine.execBcnCfg port value s
  | .pwrCap port value => Sys2Proof.Machine.execPwrCap port value s
  | .pwrShutdownGo port => Sys2Proof.Machine.execPwrShutdownGo port s
  | .quiesce port => Sys2Proof.Machine.execQuiesce port s
  | .updateLock port => Sys2Proof.Machine.execUpdateLock port s
  | .pop port => Sys2Proof.Machine.execPop port s
  | .tstPulseCfg port value => Sys2Proof.Machine.execTstPulseCfg port value s
  | .tstCtrClear port value => Sys2Proof.Machine.execTstCtrClear port value s
  | .gatHotBytes port value => Sys2Proof.Machine.execGatHotBytes port value s
  | .mediaRead port => Sys2Proof.Machine.execMediaRead port s
  | .mediaLend port => Sys2Proof.Machine.execMediaLend port s
  | .mediaProgram port => Sys2Proof.Machine.execMediaProgram port s
  | .mediaErase port => Sys2Proof.Machine.execMediaErase port s
  | .mediaReturn port => Sys2Proof.Machine.execMediaReturn port s
  | .registerWrite port offset size value => Sys2Proof.Machine.execRegisterWrite port offset size value s
  | .partnerDetected port => Sys2Proof.Machine.execPartnerDetected port s
  | .trainingEnd port p => Sys2Proof.Machine.execTrainingEnd port p s
  | .trainingTimeout port => Sys2Proof.Machine.execTrainingTimeout port s
  | .portRetry => Sys2Proof.Machine.execPortRetry s
  | .flitReceive port flit good => Sys2Proof.Machine.execFlitReceive port flit good s
  | .flitLockLoss port => Sys2Proof.Machine.execFlitLockLoss port s
  | .ackTimeout port => Sys2Proof.Machine.execAckTimeout port s
  | .retrainEnd port good => Sys2Proof.Machine.execRetrainEnd port good s
  | .creditStarvation port => Sys2Proof.Machine.execCreditStarvation port s
  | .cpl port tag cstatus offset last data => Sys2Proof.Machine.execCpl port tag cstatus offset last data s
  | .beacon port flit => Sys2Proof.Machine.execBeacon port flit s
  | .echo => Sys2Proof.Machine.execEcho s
  | .echoReturn port arrival turn => Sys2Proof.Machine.execEchoReturn port arrival turn s
  | .auxTimeFrame tick clean => Sys2Proof.Machine.execAuxTimeFrame tick clean s
  | .beaconHoldover => Sys2Proof.Machine.execBeaconHoldover s
  | .beaconDegraded => Sys2Proof.Machine.execBeaconDegraded s
  | .beaconSourceCheck ppm => Sys2Proof.Machine.execBeaconSourceCheck ppm s
  | .testPulse => Sys2Proof.Machine.execTestPulse s
  | .powerGood residualMj millivolt => Sys2Proof.Machine.execPowerGood residualMj millivolt s
  | .fuseLoadEnd copyA copyB => Sys2Proof.Machine.execFuseLoadEnd copyA copyB s
  | .configLoadEnd config firmware certificate => Sys2Proof.Machine.execConfigLoadEnd config firmware certificate s
  | .sramFillEnd repaired closedClusters closedDocents memoryFail => Sys2Proof.Machine.execSramFillEnd repaired closedClusters closedDocents memoryFail s
  | .dramFillEnd failed identity => Sys2Proof.Machine.execDramFillEnd failed identity s
  | .mountEnd journalA journalB checkpoint badDusk damaged => Sys2Proof.Machine.execMountEnd journalA journalB checkpoint badDusk damaged s
  | .holdupMeasure => Sys2Proof.Machine.execHoldupMeasure s
  | .holdupMeasureEnd chargedOk microfarad esrTenthMilliohm => Sys2Proof.Machine.execHoldupMeasureEnd chargedOk microfarad esrTenthMilliohm s
  | .powerFailure millivolt => Sys2Proof.Machine.execPowerFailure millivolt s
  | .inputToleranceExpiry millivolt => Sys2Proof.Machine.execInputToleranceExpiry millivolt s
  | .inputSwitchClose millivolt => Sys2Proof.Machine.execInputSwitchClose millivolt s
  | .matedN high => Sys2Proof.Machine.execMatedN high s
  | .resetN => Sys2Proof.Machine.execResetN s
  | .shdnReqN => Sys2Proof.Machine.execShdnReqN s
  | .aonLoss => Sys2Proof.Machine.execAonLoss s
  | .duskFlush => Sys2Proof.Machine.execDuskFlush s
  | .duskFlushEnd bankFailed => Sys2Proof.Machine.execDuskFlushEnd bankFailed s
  | .thermalSample compute flash dram => Sys2Proof.Machine.execThermalSample compute flash dram s
  | .governorWindow milliwatt1ms milliwatt100ms milliamp1ms milliamp100ms millivolt => Sys2Proof.Machine.execGovernorWindow milliwatt1ms milliwatt100ms milliamp1ms milliamp100ms millivolt s
  | .writebackAge => Sys2Proof.Machine.execWritebackAge s
  | .writebackEnd count => Sys2Proof.Machine.execWritebackEnd count s
  | .promoteWaitExpiry owner => Sys2Proof.Machine.execPromoteWaitExpiry owner s
  | .dieReadEnd d stages => Sys2Proof.Machine.execDieReadEnd d stages s
  | .dieProgramEnd d good => Sys2Proof.Machine.execDieProgramEnd d good s
  | .dieEraseEnd d good => Sys2Proof.Machine.execDieEraseEnd d good s
  | .journalDoneDurable => Sys2Proof.Machine.execJournalDoneDurable s
  | .mapPageJournal => Sys2Proof.Machine.execMapPageJournal s
  | .verifyAfterClose d unit stages => Sys2Proof.Machine.execVerifyAfterClose d unit stages s
  | .backgroundWindow => Sys2Proof.Machine.execBackgroundWindow s
  | .transportParityError p => Sys2Proof.Machine.execTransportParityError p s
  | .channelHalt owner line => Sys2Proof.Machine.execChannelHalt owner line s
  | .lineRecoveryEnd line phys location good => Sys2Proof.Machine.execLineRecoveryEnd line phys location good s
  | .docentWatchdog core => Sys2Proof.Machine.execDocentWatchdog core s
  | .drainComplete kind phys => Sys2Proof.Machine.execDrainComplete kind phys s
  | .returnSelfTestEnd kind phys good => Sys2Proof.Machine.execReturnSelfTestEnd kind phys good s
  | .tapReset => Sys2Proof.Machine.execTapReset s
  | .extest cells => Sys2Proof.Machine.execExtest cells s
  | .idcode => Sys2Proof.Machine.execIdcode s
  | .samplePreload pins cells => Sys2Proof.Machine.execSamplePreload pins cells s
  | .clamp => Sys2Proof.Machine.execClamp s
  | .highz => Sys2Proof.Machine.execHighz s
  | .extestPulse cells => Sys2Proof.Machine.execExtestPulse cells s
  | .extestTrain cells => Sys2Proof.Machine.execExtestTrain cells s
  | .bootStatus => Sys2Proof.Machine.execBootStatus s
  | .bypass => Sys2Proof.Machine.execBypass s
  | .smbPowerState => Sys2Proof.Machine.execSmbPowerState s
  | .smbBootStatus => Sys2Proof.Machine.execSmbBootStatus s
  | .smbInputVoltage => Sys2Proof.Machine.execSmbInputVoltage s
  | .smbInputCurrent => Sys2Proof.Machine.execSmbInputCurrent s
  | .smbInputPower => Sys2Proof.Machine.execSmbInputPower s
  | .smbHoldupEnergy => Sys2Proof.Machine.execSmbHoldupEnergy s
  | .smbComputeTemp => Sys2Proof.Machine.execSmbComputeTemp s
  | .smbFlashTemp => Sys2Proof.Machine.execSmbFlashTemp s
  | .smbDramTemp => Sys2Proof.Machine.execSmbDramTemp s
  | .smbDuskBudget => Sys2Proof.Machine.execSmbDuskBudget s
  | .smbDirtyDurable => Sys2Proof.Machine.execSmbDirtyDurable s
  | .smbUnreadFaults => Sys2Proof.Machine.execSmbUnreadFaults s
  | .smbSerial => Sys2Proof.Machine.execSmbSerial s
  | .docentCoreFault core => Sys2Proof.Machine.execDocentCoreFault core s
  | .engineParityError e => Sys2Proof.Machine.execEngineParityError e s
  | .dieSuspendEnd d => Sys2Proof.Machine.execDieSuspendEnd d s
  | .signatureEnd => Sys2Proof.Machine.execSignatureEnd s

end Sys2Proof.Machine
end

