-- ==== Sys2Proof/Safety.lean ====
section
/-! DEFINITION. What every state of the drive keeps, whatever command it takes: the sizes of the tables the spec fixes,
the ranges of the set-up registers, the fault log, the canonical form of host memory, of cluster stores and of the block range; and what one command may do to
what it must not touch. -/
namespace Sys2Proof.Machine

/-- 256 submission rings, 256 completion rings and 256 error counters (R39, Table 22-3). -/
def Atrium.Ok (a : Atrium) : Prop := a.sqs.length = 256 ∧ a.cqs.length = 256 ∧ a.errCnt.length = 256

/-- 256 clients, 68 cluster stores in canonical form, and a time slice in the range of `SCH_SLICE_BT` (R7, R159,
Table 22-6). -/
def Sched.Ok (q : Sched) : Prop :=
  q.clients.length = 256 ∧ q.stores.length = 68 ∧ 256 ≤ q.sliceBt ∧ q.sliceBt ≤ 1000000 ∧ ∀ m ∈ q.stores, memWf m = true

/-- `GAT_HOT_CFG` from 1 to 255 and `GAT_HOT_BYTES` from 0 to 256 (Table 22-6). -/
def GatherEngine.Ok (g : GatherEngine) : Prop := 1 ≤ g.threshold ∧ g.threshold ≤ 255 ∧ g.hotUnits ≤ 256

/-- `ATT_CFG` from 1 to 64 clusters (Table 22-6). -/
def Attention.Ok (a : Attention) : Prop := 1 ≤ a.clusters ∧ a.clusters ≤ 64

/-- `TIR_PROMOTE_WAIT` from 1 to 10,000,000 BT (Table 22-6). -/
def Tiers.Ok (t : Tiers) : Prop := 1 ≤ t.promoteWait ∧ t.promoteWait ≤ 10000000

/-- `BCN_CFG` names one of its three selections (R412). -/
def Beacon.Ok (b : Beacon) : Prop := b.cfg ≤ 2

/-- `PWR_CAP` from 300 to 720 W (R437). -/
def Power.Ok (p : Power) : Prop := 300 ≤ p.cap ∧ p.cap ≤ 720

/-- Two link ports (R394). -/
def LinkBlock.Ok (l : LinkBlock) : Prop := l.ports.length = 2

/-- Counters of 64 channels (Table 21-3). -/
def Flash.Ok (f : Flash) : Prop := f.channels.length = 64

/-- The fault log holds at most 4,096 records, oldest first, and every record's number is below the next one
(R461, R462). -/
def ErrState.Ok (e : ErrState) : Prop :=
  e.log.length ≤ 4096 ∧ (e.log.map (·.seq)).Pairwise (· < ·) ∧ ∀ q ∈ e.log, q.seq < e.nextSeq

/-- The map, as it stands and as the MAP stream holds it, lists logical units in rising order, each once (R342, R347). -/
def Ftl.Ok (f : Ftl) : Prop := (f.map.map (·.1)).Pairwise (· < ·) ∧ (f.flashMap.map (·.1)).Pairwise (· < ·)

/-- The contents of the block range are in canonical form. -/
def BlockRange.Ok (b : BlockRange) : Prop := memWf b.data = true

/-- Host memory is in canonical form. -/
def Mem.Ok (m : Mem) : Prop := memWf m = true

/-- What every state keeps. -/
structure Inv (s : State) : Prop where
  atr : s.atr.Ok
  sched : s.sched.Ok
  gather : s.gather.Ok
  attention : s.attention.Ok
  tiers : s.tiers.Ok
  beacon : s.beacon.Ok
  power : s.power.Ok
  link : s.link.Ok
  flash : s.flash.Ok
  err : s.err.Ok
  ftl : s.ftl.Ok
  block : s.block.Ok
  domains : s.domains.length = 4
  hostMem : Mem.Ok s.hostMem

/-- What one command may make of a state: it leaves the queue of waiting commands alone, it keeps the invariant, and it
clears no fuse (R506: a blown fuse stays blown). -/
structure Evolves (s t : State) : Prop where
  pending : t.pending = s.pending
  inv : Inv s → Inv t
  rollback : s.sec.rollback ⊆ t.sec.rollback
  revoked : s.sec.revoked ⊆ t.sec.revoked

/-! ### Where a thread stands (R131 to R133) -/

/-- Thread `h` of the running job `j` is `t`, it is ready to issue, and the word at its PC, in the code region of its
cluster's store, is `w`; nothing stops the job or the drive. -/
structure AtWord (s : State) (h : Thr) (w : Nat) (j : Job) (t : Thread) : Prop where
  job : s.job? h.job = some j
  thread : ∃ c, j.clusters[h.cluster]? = some c ∧ c.threads[h.thread]? = some t
    ∧ leNat (memRead (s.store c.phys) (j.codeRegion.1 + t.pc) 4) = w
  running : j.state = .running
  going : j.ending = none
  untrapped : j.trapped = false
  awake : s.still = false
  ready : t.st = .ready

/-- As AtWord, and the guard of the instruction holds (R136) and the next word lies in the code region. -/
structure Issues (s : State) (h : Thr) (w : Nat) (gp : BitVec 3) (gn : BitVec 1) (j : Job) (t : Thread) : Prop where
  stands : AtWord s h w j t
  guard : t.guard gp gn = true
  follows : j.pcOk (t.pc + 4) = true

/-- The thread's register `rd` takes `v` and it goes on at the next word; nothing else of the state changes. -/
def State.putsReg (s : State) (h : Thr) (t : Thread) (rd : BitVec 6) (v : Word) : State :=
  s.updThread h fun u => { u.setReg rd v with pc := t.pc + 4 }

/-- The thread's predicate `p` takes `b` and it goes on at the next word; nothing else of the state changes. -/
def State.putsPred (s : State) (h : Thr) (t : Thread) (p : BitVec 3) (b : Bool) : State :=
  s.updThread h fun u => { u.setPred p b with pc := t.pc + 4 }

/-- The thread goes on at a PC; nothing else of the state changes. -/
def State.goesTo (s : State) (h : Thr) (pc : Nat) : State := s.updThread h fun u => { u with pc := pc }

/-! ### A command that takes its step (R19) -/

/-- The command `c` in an active-command slot has been handed to its path, has the opcode, and the bytes of its data buffer have
arrived; the drive works, the channel that serves it has not halted, no earlier command names the same folio (R261), and, where
it writes results, a port carries them. -/
structure Handed (s : State) (id op : Nat) (results : Bool) (c : Slot) : Prop where
  held : s.slot? id = some c
  phase : c.phase = .handed
  opcode : c.opcode = op
  reads : c.reads = []
  toRead : c.toRead = []
  awake : s.still = false
  going : s.haltedBy (.slot id) = false
  unordered : s.folioWaits c = false
  carried : results = true → s.reachable (s.ringOf c.sq) = true

end Sys2Proof.Machine
end

