-- ==== Sys2Proof/Certificates/Slice0/Obligations.lean ====
section
/-! DEFINITION. What this model is claimed to do, one statement each: the commands family by family, then the whole machine. Every
statement is over all states, those no run reaches among them. -/
open Sys2Proof Sys2Proof.Machine

/-- Table 5-3, MAJOR 0x01 (R137): for each of the sixteen integer instructions, a thread that issues it writes the
operation of the row on rs1 and rs2 to rd, and goes on at the next word; nothing else of the state changes.
Table 5-3, MAJORs 0x02 to 0x07 (R137): ADDI with the sign-extended immediate, ANDI, ORI and XORI with the zero-extended
one, SHI by the amount in IMM14[4:0] and the kind in IMM14[13:12], LUI. -/
def Obligations.ArithmeticInstructionsWriteTheirResult : Prop :=
  (∀ r ∈ ([(Instr.add, 0, fun x y => x + y), (Instr.sub, 1, fun x y => x - y), (Instr.and, 2, fun x y => x &&& y),
      (Instr.or, 3, fun x y => x ||| y), (Instr.xor, 4, fun x y => x ^^^ y),
      (Instr.sll, 5, fun x y => x <<< (y &&& 31).toNat), (Instr.srl, 6, fun x y => x >>> (y &&& 31).toNat),
      (Instr.sra, 7, fun x y => x.sshiftRight (y &&& 31).toNat),
      (Instr.slt, 8, fun x y => if x.toInt < y.toInt then 1 else 0),
      (Instr.sltu, 9, fun x y => if x.toNat < y.toNat then 1 else 0),
      (Instr.min, 10, fun x y => if x.toInt < y.toInt then x else y),
      (Instr.max, 11, fun x y => if x.toInt < y.toInt then y else x),
      (Instr.minu, 12, fun x y => if x.toNat < y.toNat then x else y),
      (Instr.maxu, 13, fun x y => if x.toNat < y.toNat then y else x),
      (Instr.mul, 14, fun x y => x * y),
      (Instr.mulhu, 15, fun x y => ((x.setWidth 64 * y.setWidth 64) >>> 32).setWidth 32)]
      : List ((Thr → RForm → Instr) × Nat × (Word → Word → Word))),
    ∀ (s : State) (h : Thr) (f : RForm) (j : Job) (t : Thread), Issues s h (rWord 0x01 r.2.1 f) f.gp f.gn j t →
      exec (r.1 h f) s = .next (s.putsReg h t f.rd (r.2.2 (t.reg f.rs1) (t.reg f.rs2)))) ∧
  ((∀ r ∈ ([(Instr.addi, 0x02, fun x i => x + i.signExtend 32), (Instr.andi, 0x03, fun x i => x &&& i.zeroExtend 32),
      (Instr.ori, 0x04, fun x i => x ||| i.zeroExtend 32), (Instr.xori, 0x05, fun x i => x ^^^ i.zeroExtend 32),
      (Instr.shi, 0x06, fun x i =>
        if i.extractLsb' 12 2 = 0 then x <<< (i.extractLsb' 0 5).toNat
        else if i.extractLsb' 12 2 = 1 then x >>> (i.extractLsb' 0 5).toNat
        else x.sshiftRight (i.extractLsb' 0 5).toNat)]
      : List ((Thr → IForm → Instr) × Nat × (Word → BitVec 14 → Word))),
    ∀ (s : State) (h : Thr) (f : IForm) (j : Job) (t : Thread), AtWord s h (iWord r.2.1 f) j t →
      j.pcOk (t.pc + 4) = true → exec (r.1 h f) s = .next (s.putsReg h t f.rd (r.2.2 (t.reg f.rs1) f.imm))) ∧
  ∀ (s : State) (h : Thr) (f : UForm) (j : Job) (t : Thread), AtWord s h (uWord 0x07 f) j t →
    j.pcOk (t.pc + 4) = true → exec (.lui h f) s = .next (s.putsReg h t f.rd (f.imm ++ (0 : BitVec 12))))

/-- R135 and Table 5-3, MAJORs 0x08 and 0x09: an FP32 or packed BF16 instruction writes its result to rd, sets NAN_SEEN and
ACC_SAT where its operation meets their conditions and clears neither, and changes nothing else. -/
def Obligations.FloatInstructionsWriteTheirResult : Prop :=
  ∀ r ∈ ([(Instr.fadd, 0x08, 0, fun _ x y => f32Op2 Frac.add x y), (Instr.fsub, 0x08, 1, fun _ x y => f32Op2 Frac.sub x y),
      (Instr.fmul, 0x08, 2, fun _ x y => f32Op2 Frac.mul x y), (Instr.fma, 0x08, 3, fun o x y => fmaOp o x y),
      (Instr.fmin, 0x08, 4, fun _ x y => f32Op2 Frac.min x y), (Instr.fmax, 0x08, 5, fun _ x y => f32Op2 Frac.max x y),
      (Instr.fabs, 0x08, 6, fun _ x _ => f32Op1 Frac.abs x), (Instr.fneg, 0x08, 7, fun _ x _ => f32Op1 Frac.neg x),
      (Instr.fcvtSW, 0x08, 8, fun _ x _ => cvtSW x), (Instr.fcvtWS, 0x08, 9, fun _ x _ => cvtWS x),
      (Instr.fexp2, 0x08, 10, fun _ x _ => exp2Op x), (Instr.flog2, 0x08, 11, fun _ x _ => log2Op x),
      (Instr.frcp, 0x08, 12, fun _ x _ => rcpOp x), (Instr.frsq, 0x08, 13, fun _ x _ => rsqOp x),
      (Instr.badd2, 0x09, 0, fun o x y => bfOp3 false (fun _ a b => a.add b) o x y),
      (Instr.bmul2, 0x09, 1, fun o x y => bfOp3 false (fun _ a b => a.mul b) o x y),
      (Instr.bfma2, 0x09, 2, fun o x y => bfOp3 true (fun c a b => c.add (a.mul b)) o x y),
      (Instr.bmax2, 0x09, 3, fun o x y => bfOp3 false (fun _ a b => a.max b) o x y),
      (Instr.bpack, 0x09, 4, fun _ x y =>
        packLanes (srcF32 x).1 (srcF32 y).1 (isNanF32 x.toNat || isNanF32 y.toNat)),
      (Instr.blo, 0x09, 5, fun _ x _ => widen x 0), (Instr.bhi, 0x09, 6, fun _ x _ => widen x 1)]
      : List ((Thr → RForm → Instr) × Nat × Nat × (Word → Word → Word → Flagged))),
    ∀ (s : State) (h : Thr) (f : RForm) (j : Job) (t : Thread), Issues s h (rWord r.2.1 r.2.2.1 f) f.gp f.gn j t →
      let v := r.2.2.2 (t.reg f.rd) (t.reg f.rs1) (t.reg f.rs2)
      exec (r.1 h f) s = .next ((s.stick h.job v.nan v.sat).putsReg h t f.rd v.val)

/-- R135: no FP32 operation but FCVT.W.S, whose result is an integer, leaves a NaN or an infinity in its register, and no packed BF16
operation in a lane; a NaN read sets NAN_SEEN; the logarithm, reciprocal and reciprocal root of zero are the largest finite value
with ACC_SAT, and the logarithm and reciprocal root of a negative number are zero with NAN_SEEN. -/
def Obligations.FloatResultsAreFinite : Prop :=
  (∀ (fn : Nat) (o x y : Word), fn ≤ 13 → fn ≠ 9 → isNanF32 (fpOp fn o x y).val.toNat = false) ∧
  (∀ (fn i : Nat) (o x y : Word), fn ≤ 4 → i < 2 → isNanBf16 (lane (bfOp fn o x y).val i) = false) ∧
  (∀ (fn : Nat) (o x y : Word), fn = 5 ∨ fn = 6 → isNanF32 (bfOp fn o x y).val.toNat = false) ∧
  (∀ (fn : Nat) (o x y : Word), fn ≤ 13 → fn ≠ 8 → isNanF32 x.toNat = true → (fpOp fn o x y).nan = true) ∧
  (∀ o x y : Word, x.toNat % 2 ^ 31 = 0 →
    fpOp 11 o x y = { val := 0xFF7FFFFF, nan := false, sat := true } ∧
    fpOp 12 o x y = { val := 0x7F7FFFFF, nan := false, sat := true } ∧
    fpOp 13 o x y = { val := 0x7F7FFFFF, nan := false, sat := true }) ∧
  ∀ o x y : Word, 2 ^ 31 < x.toNat → isNanF32 x.toNat = false →
    fpOp 11 o x y = { val := 0, nan := true, sat := false } ∧ fpOp 13 o x y = { val := 0, nan := true, sat := false }

/-- Table 5-3, MAJORs 0x0A and 0x0B: a comparison, an operation on predicates, PTOS or STOP writes its predicate, register or
predicates; a comparison of FP32 numbers that meets a NaN sets NAN_SEEN. -/
def Obligations.ComparesAndPredicatesWriteTheirResult : Prop :=
  (∀ r ∈ ([(Instr.eq, 0, fun x y => decide (x = y)), (Instr.ne, 1, fun x y => decide (x ≠ y)),
      (Instr.lt, 2, fun x y => decide (x.toInt < y.toInt)), (Instr.ltu, 3, fun x y => decide (x.toNat < y.toNat)),
      (Instr.ge, 4, fun x y => decide (y.toInt ≤ x.toInt)), (Instr.geu, 5, fun x y => decide (y.toNat ≤ x.toNat))]
      : List ((Thr → RForm → Instr) × Nat × (Word → Word → Bool))),
    ∀ (s : State) (h : Thr) (f : RForm) (j : Job) (t : Thread), Issues s h (rWord 0x0A r.2.1 f) f.gp f.gn j t →
      exec (r.1 h f) s = .next (s.putsPred h t (predOf f.rd) (r.2.2 (t.reg f.rs1) (t.reg f.rs2)))) ∧
  (∀ r ∈ ([(Instr.feq, 6, fun a b => !a.lt b && !b.lt a), (Instr.flt, 7, fun a b => a.lt b),
      (Instr.fle, 8, fun a b => a.le b)] : List ((Thr → RForm → Instr) × Nat × (Frac → Frac → Bool))),
    ∀ (s : State) (h : Thr) (f : RForm) (j : Job) (t : Thread), Issues s h (rWord 0x0A r.2.1 f) f.gp f.gn j t →
      exec (r.1 h f) s = .next ((s.stick h.job (isNanF32 (t.reg f.rs1).toNat || isNanF32 (t.reg f.rs2).toNat) false).putsPred
        h t (predOf f.rd) (r.2.2 (srcF32 (t.reg f.rs1)).1 (srcF32 (t.reg f.rs2)).1))) ∧
  (∀ r ∈ ([(Instr.pand, 0, fun a b => a && b), (Instr.por, 1, fun a b => a || b), (Instr.pxor, 2, fun a b => a != b),
      (Instr.pnot, 3, fun a _ => !a)] : List ((Thr → RForm → Instr) × Nat × (Bool → Bool → Bool))),
    ∀ (s : State) (h : Thr) (f : RForm) (j : Job) (t : Thread), Issues s h (rWord 0x0B r.2.1 f) f.gp f.gn j t →
      exec (r.1 h f) s =
        .next (s.putsPred h t (predOf f.rd) (r.2.2 (t.pred (predOf f.rs1)) (t.pred (predOf f.rs2))))) ∧
  (∀ (s : State) (h : Thr) (f : RForm) (j : Job) (t : Thread), Issues s h (rWord 0x0B 4 f) f.gp f.gn j t →
    exec (.ptos h f) s = .next (s.putsReg h t f.rd (t.predBits.zeroExtend 32))) ∧
  ∀ (s : State) (h : Thr) (f : RForm) (j : Job) (t : Thread), Issues s h (rWord 0x0B 5 f) f.gp f.gn j t →
    ∃ g : Thread → Thread, exec (.stop h f) s = .next (s.updThread h g) ∧
      g t = { t with preds := (g t).preds, pc := t.pc + 4 } ∧
      ∀ i : BitVec 3, (g t).pred i = if i = 0 then true else (t.reg f.rs1).getLsbD i.toNat

/-- R137, R134: a load of 1, 2, 4 or 16 bytes at a naturally aligned offset inside the cluster store zero-extends its bytes, as the
thread's own earlier stores leave them, into rd; LDQ fills four registers from rd. Nothing else changes.
R137, R133, R134, R145: a store of 1, 2, 4 or 16 bytes at a naturally aligned offset inside the cluster store, outside the code
region and the range write-protected since the last pause point, puts the bytes of its register, or of four registers, where the
thread's own loads see them; every other byte it sees, every register and every cluster store, as others see it, stay as they were.
R134: when a thread's stores become visible (at its next SIGNAL, the model's choice of the moment: assumption log 164), the last one's
bytes stand in its cluster's store; bytes no store of it covers, and every other store, stay as they were. -/
def Obligations.LoadsAndStoresMoveTheirBytes : Prop :=
  ((∀ r ∈ ([(Instr.ldb, 0x10, 1), (Instr.ldh, 0x11, 2), (Instr.ldw, 0x12, 4)] : List ((Thr → IForm → Instr) × Nat × Nat)),
    ∀ (s : State) (h : Thr) (f : IForm) (j : Job) (t : Thread), AtWord s h (iWord r.2.1 f) j t →
      j.pcOk (t.pc + 4) = true → t.address f % r.2.2 = 0 → t.address f + r.2.2 ≤ storeSize →
      exec (r.1 h f) s = .next (s.putsReg h t f.rd
        (BitVec.ofNat 32 (leNat (t.sees (s.store (j.phys h.cluster)) (t.address f) r.2.2))))) ∧
  ∀ (s : State) (h : Thr) (f : IForm) (j : Job) (t : Thread), AtWord s h (iWord 0x13 f) j t →
    j.pcOk (t.pc + 4) = true → t.address f % 16 = 0 → t.address f + 16 ≤ storeSize → f.rd.toNat % 4 = 0 →
    let w := fun i : Nat => BitVec.ofNat 32 (leNat (t.sees (s.store (j.phys h.cluster)) (t.address f + 4 * i) 4))
    exec (.ldq h f) s = .next (s.updThread h fun u =>
      { (((u.setReg f.rd (w 0)).setReg (f.rd + 1) (w 1)).setReg (f.rd + 2) (w 2)).setReg (f.rd + 3) (w 3) with
        pc := t.pc + 4 })) ∧
  (∀ r ∈ ([(Instr.stb, 0x14, 1, fun t rd => leBytes 1 (t.reg rd).toNat), (Instr.sth, 0x15, 2, fun t rd => leBytes 2 (t.reg rd).toNat),
      (Instr.stw, 0x16, 4, fun t rd => leBytes 4 (t.reg rd).toNat),
      (Instr.stq, 0x17, 16, fun t rd => leBytes 4 (t.reg rd).toNat ++ leBytes 4 (t.reg (rd + 1)).toNat ++
        leBytes 4 (t.reg (rd + 2)).toNat ++ leBytes 4 (t.reg (rd + 3)).toNat)]
      : List ((Thr → IForm → Instr) × Nat × Nat × (Thread → BitVec 6 → Bytes))),
    ∀ (s : State) (h : Thr) (f : IForm) (j : Job) (t : Thread), AtWord s h (iWord r.2.1 f) j t →
      j.pcOk (t.pc + 4) = true → t.address f % r.2.2.1 = 0 → t.address f + r.2.2.1 ≤ storeSize →
      j.meetsCode (t.address f) r.2.2.1 = false → j.meetsLive (t.address f) r.2.2.1 = false →
      ∃ s' u, exec (r.1 h f) s = .next s' ∧ s' = (s.updThread h fun _ => u) ∧
        u = { t with stores := t.stores ++ [(t.address f, r.2.2.2 t f.rd)], pc := t.pc + 4 } ∧
        (∀ p, s'.store p = s.store p) ∧
        ∀ m, memWf m = true → u.sees m (t.address f) r.2.2.1 = r.2.2.2 t f.rd ∧
          ∀ a, a < t.address f ∨ t.address f + r.2.2.1 ≤ a → u.sees m a 1 = t.sees m a 1) ∧
  ∀ (s : State) (h : Thr) (p a : Nat) (t : Thread) (ws : List (Nat × Bytes)) (bs : Bytes), s.thread? h = some (p, t) →
    t.stores = ws ++ [(a, bs)] → p < s.sched.stores.length → memWf (s.store p) = true →
    memRead ((s.publish h).store p) a bs.length = bs ∧
      (∀ x, (∀ w ∈ t.stores, x < w.1 ∨ w.1 + w.2.length ≤ x) → memGet ((s.publish h).store p) x = memGet (s.store p) x) ∧
      ∀ q, q ≠ p → (s.publish h).store q = s.store q

/-- R137, R147, Table 5-6: a load or store whose offset is not a multiple of its size, and a store into the code region or past
the end of the store, raise their traps, 0x02 and 0x03: the job stops with JOB_FAULT and no register or byte changes. -/
def Obligations.BadAddressesTrap : Prop :=
  ∀ r ∈ ([(Instr.ldb, 0x10, 1), (Instr.ldh, 0x11, 2), (Instr.ldw, 0x12, 4), (Instr.ldq, 0x13, 16), (Instr.stb, 0x14, 1),
      (Instr.sth, 0x15, 2), (Instr.stw, 0x16, 4), (Instr.stq, 0x17, 16)] : List ((Thr → IForm → Instr) × Nat × Nat)),
    ∀ (s : State) (h : Thr) (f : IForm) (j : Job) (t : Thread), AtWord s h (iWord r.2.1 f) j t →
      (t.address f % r.2.2 ≠ 0 → exec (r.1 h f) s = .next (s.progTrap h t.pc 0x02 (t.address f))) ∧
      (t.address f % r.2.2 = 0 → storeSize < t.address f + r.2.2 →
        exec (r.1 h f) s = .next (s.progTrap h t.pc 0x03 (t.address f))) ∧
      (0x14 ≤ r.2.1 → t.address f % r.2.2 = 0 → j.meetsCode (t.address f) r.2.2 = true →
        exec (r.1 h f) s = .next (s.progTrap h t.pc 0x03 (t.address f)))

/-- Table 5-3, MAJORs 0x20 to 0x22: BR taken and not taken, JAL with its link, JR, and EXIT, which ends the thread, its stores visible. A PC that
leaves the code region is the next statement's.
R131, R147: a thread whose next PC is no multiple of 4 or lies outside the code region takes the fetch-range trap 0x01
with that PC: shown of EXIT's neighbours, the branch and the jump. -/
def Obligations.ControlInstructionsSetThePc : Prop :=
  ((∀ (s : State) (h : Thr) (f : BForm) (j : Job) (t : Thread), AtWord s h (bWord f) j t →
    let pc := if t.guard f.p f.n then pcPlus t.pc f.off.toInt else t.pc + 4
    j.pcOk pc = true → exec (.br h f) s = .next (s.goesTo h pc)) ∧
  (∀ (s : State) (h : Thr) (f : UForm) (j : Job) (t : Thread), AtWord s h (uWord 0x21 f) j t →
    j.pcOk (pcPlus t.pc f.imm.toInt) = true →
    exec (.jal h f) s = .next (s.updThread h fun u =>
      { u.setReg f.rd (BitVec.ofNat 32 (t.pc + 4)) with pc := pcPlus t.pc f.imm.toInt })) ∧
  (∀ (s : State) (h : Thr) (f : RForm) (j : Job) (t : Thread), AtWord s h (rWord 0x22 0 f) j t →
    t.guard f.gp f.gn = true → j.pcOk (t.reg f.rs1).toNat = true →
    exec (.jr h f) s = .next (s.goesTo h (t.reg f.rs1).toNat)) ∧
  ∀ (s : State) (h : Thr) (f : RForm) (j : Job) (t : Thread), AtWord s h (rWord 0x22 1 f) j t →
    t.guard f.gp f.gn = true → exec (.exit h f) s = .next ((s.publish h).updThread h fun u => { u with st := .exited })) ∧
  ((∀ (s : State) (h : Thr) (f : BForm) (j : Job) (t : Thread), AtWord s h (bWord f) j t →
    let pc := if t.guard f.p f.n then pcPlus t.pc f.off.toInt else t.pc + 4
    j.pcOk pc = false → exec (.br h f) s = .next ((s.goesTo h pc).progTrap h pc 0x01 pc)) ∧
  ∀ (s : State) (h : Thr) (f : RForm) (j : Job) (t : Thread), AtWord s h (rWord 0x22 0 f) j t →
    t.guard f.gp f.gn = true → j.pcOk (t.reg f.rs1).toNat = false →
    exec (.jr h f) s = .next ((s.goesTo h (t.reg f.rs1).toNat).progTrap h (t.reg f.rs1).toNat 0x01 (t.reg f.rs1).toNat))

/-- Table 5-3, MAJOR 0x2C: TID, CID, NCL, FLAGS, BTIME and WIDE write rd; TRAP raises the software trap 0x0B recording rs1.
FLAGS has NAN_SEEN in bit 0 and ACC_SAT in bit 1, the model's choice (assumption log 40). -/
def Obligations.SystemInstructionsAnswer : Prop :=
  (∀ r ∈ ([(Instr.tid, 0, fun _ h _ _ => BitVec.ofNat 32 h.thread), (Instr.cid, 1, fun _ h _ _ => BitVec.ofNat 32 h.cluster),
      (Instr.ncl, 2, fun _ _ j _ => BitVec.ofNat 32 j.clusters.length),
      (Instr.flags, 3, fun _ _ j _ => (if j.nan then 1 else 0) ||| (if j.accSat then 2 else 0)),
      (Instr.btime, 5, fun s _ _ _ => BitVec.ofNat 32 s.epoch),
      (Instr.wide, 6, fun _ _ j x => if x.toNat ∈ j.wide then 1 else 0)]
      : List ((Thr → RForm → Instr) × Nat × (State → Thr → Job → Word → Word))),
    ∀ (s : State) (h : Thr) (f : RForm) (j : Job) (t : Thread), Issues s h (rWord 0x2C r.2.1 f) f.gp f.gn j t →
      exec (r.1 h f) s = .next (s.putsReg h t f.rd (r.2.2 s h j (t.reg f.rs1)))) ∧
  ∀ (s : State) (h : Thr) (f : RForm) (j : Job) (t : Thread), AtWord s h (rWord 0x2C 4 f) j t →
    t.guard f.gp f.gn = true → exec (.trap h f) s = .next (s.progTrap h t.pc 0x0B (t.reg f.rs1).toNat)

/-- R136: an R- or S-format instruction whose guard p[GP] XOR GN is 0 only takes its turn: the thread goes on at the next word
and nothing else changes. -/
def Obligations.GuardedOffInstructionsOnlyAdvance : Prop :=
  (∀ r ∈ ([(Instr.add, 0x01, 0), (Instr.sub, 0x01, 1), (Instr.and, 0x01, 2), (Instr.or, 0x01, 3), (Instr.xor, 0x01, 4),
      (Instr.sll, 0x01, 5), (Instr.srl, 0x01, 6), (Instr.sra, 0x01, 7), (Instr.slt, 0x01, 8), (Instr.sltu, 0x01, 9),
      (Instr.min, 0x01, 10), (Instr.max, 0x01, 11), (Instr.minu, 0x01, 12), (Instr.maxu, 0x01, 13), (Instr.mul, 0x01, 14),
      (Instr.mulhu, 0x01, 15), (Instr.fadd, 0x08, 0), (Instr.fsub, 0x08, 1), (Instr.fmul, 0x08, 2), (Instr.fma, 0x08, 3),
      (Instr.fmin, 0x08, 4), (Instr.fmax, 0x08, 5), (Instr.fabs, 0x08, 6), (Instr.fneg, 0x08, 7), (Instr.fcvtSW, 0x08, 8),
      (Instr.fcvtWS, 0x08, 9), (Instr.fexp2, 0x08, 10), (Instr.flog2, 0x08, 11), (Instr.frcp, 0x08, 12),
      (Instr.frsq, 0x08, 13), (Instr.badd2, 0x09, 0), (Instr.bmul2, 0x09, 1), (Instr.bfma2, 0x09, 2), (Instr.bmax2, 0x09, 3),
      (Instr.bpack, 0x09, 4), (Instr.blo, 0x09, 5), (Instr.bhi, 0x09, 6), (Instr.eq, 0x0A, 0), (Instr.ne, 0x0A, 1),
      (Instr.lt, 0x0A, 2), (Instr.ltu, 0x0A, 3), (Instr.ge, 0x0A, 4), (Instr.geu, 0x0A, 5), (Instr.feq, 0x0A, 6),
      (Instr.flt, 0x0A, 7), (Instr.fle, 0x0A, 8), (Instr.pand, 0x0B, 0), (Instr.por, 0x0B, 1), (Instr.pxor, 0x0B, 2),
      (Instr.pnot, 0x0B, 3), (Instr.ptos, 0x0B, 4), (Instr.stop, 0x0B, 5), (Instr.jr, 0x22, 0), (Instr.exit, 0x22, 1),
      (Instr.tid, 0x2C, 0), (Instr.cid, 0x2C, 1), (Instr.ncl, 0x2C, 2), (Instr.flags, 0x2C, 3), (Instr.trap, 0x2C, 4),
      (Instr.btime, 0x2C, 5), (Instr.wide, 0x2C, 6)] : List ((Thr → RForm → Instr) × Nat × Nat)),
    ∀ (s : State) (h : Thr) (f : RForm) (j : Job) (t : Thread), AtWord s h (rWord r.2.1 r.2.2 f) j t →
      t.guard f.gp f.gn = false → j.pcOk (t.pc + 4) = true → exec (r.1 h f) s = .next (s.goesTo h (t.pc + 4))) ∧
  ∀ r ∈ ([(Instr.xfer, 0x28, 0), (Instr.ldin, 0x28, 1), (Instr.wstr, 0x28, 2), (Instr.pass, 0x29, 0), (Instr.drain, 0x29, 1),
      (Instr.accld, 0x29, 2), (Instr.discard, 0x29, 3), (Instr.signal, 0x2A, 0), (Instr.wait, 0x2A, 1),
      (Instr.set, 0x2A, 2), (Instr.read, 0x2A, 3)] : List ((Thr → SForm → Instr) × Nat × Nat)),
    ∀ (s : State) (h : Thr) (f : SForm) (j : Job) (t : Thread), AtWord s h (sWord r.2.1 r.2.2 f) j t →
      t.guard f.gp f.gn = false → j.pcOk (t.pc + 4) = true → exec (r.1 h f) s = .next (s.goesTo h (t.pc + 4))

/-- R127, R128, R134, R142, R143: SIGNAL makes the thread's stores visible, adds rb to the counter and wakes the threads it satisfies, WAIT goes on where the counter is at
least rb and otherwise suspends the thread, SET gives the counter rb, READ gives rc the counter, and PAUSE stops the
thread at the barrier of its entry.
R127, R142, R143: an object outside the grant, an increment of 0 or above 65,535, a counter that would pass 0xFFFF_FFFF, and a
PAUSE at a wrong place or against another barrier raise their traps 0x08, 0x09 and 0x0A. -/
def Obligations.SyncAndPauseTakeEffect : Prop :=
  ((∀ (s : State) (h : Thr) (f : SForm) (j : Job) (t : Thread), Issues s h (sWord 0x2A 0 f) f.gp f.gn j t →
    let obj := (t.reg f.ra).toNat
    let n := (j.sync.getD obj 0).toNat + (t.reg f.rb).toNat
    obj < j.sync.length → 1 ≤ (t.reg f.rb).toNat → (t.reg f.rb).toNat ≤ 65535 → n ≤ 0xFFFFFFFF →
    exec (.signal h f) s = .next (((s.publish h).setCounter h.job obj (BitVec.ofNat 32 n)).goesTo h (t.pc + 4))) ∧
  (∀ (s : State) (h : Thr) (f : SForm) (j : Job) (t : Thread), Issues s h (sWord 0x2A 1 f) f.gp f.gn j t →
    let obj := (t.reg f.ra).toNat
    obj < j.sync.length →
    exec (.wait h f) s = .next (
      if (t.reg f.rb).toNat ≤ (j.sync.getD obj 0).toNat then s.goesTo h (t.pc + 4)
      else (s.goesTo h (t.pc + 4)).updThread h fun u =>
        if u.st = .stopped then u else { u with st := .waiting obj (t.reg f.rb) })) ∧
  (∀ (s : State) (h : Thr) (f : SForm) (j : Job) (t : Thread), Issues s h (sWord 0x2A 2 f) f.gp f.gn j t →
    (t.reg f.ra).toNat < j.sync.length →
    exec (.set h f) s = .next ((s.setCounter h.job (t.reg f.ra).toNat (t.reg f.rb)).goesTo h (t.pc + 4))) ∧
  (∀ (s : State) (h : Thr) (f : SForm) (j : Job) (t : Thread), Issues s h (sWord 0x2A 3 f) f.gp f.gn j t →
    (t.reg f.ra).toNat < j.sync.length →
    exec (.read h f) s = .next (s.putsReg h t f.rc (j.sync.getD (t.reg f.ra).toNat 0))) ∧
  ∀ (s : State) (h : Thr) (i : BitVec 16) (j : Job) (t : Thread) (e : PauseEntry), AtWord s h (pWord i) j t →
    j.pause? i.toNat = some e → e.codeOffset = t.pc → j.otherBarrier i.toNat = false →
    exec (.pause h i) s = .next ((s.publish h).updThread h fun u => { u with st := .barrier i.toNat })) ∧
  ((∀ r ∈ ([(Instr.signal, 0), (Instr.wait, 1), (Instr.set, 2), (Instr.read, 3)] : List ((Thr → SForm → Instr) × Nat)),
    ∀ (s : State) (h : Thr) (f : SForm) (j : Job) (t : Thread), Issues s h (sWord 0x2A r.2 f) f.gp f.gn j t →
      j.sync.length ≤ (t.reg f.ra).toNat →
      exec (r.1 h f) s = .next (s.progTrap h t.pc 0x08 (t.reg f.ra).toNat)) ∧
  (∀ (s : State) (h : Thr) (f : SForm) (j : Job) (t : Thread), Issues s h (sWord 0x2A 0 f) f.gp f.gn j t →
    (t.reg f.ra).toNat < j.sync.length →
    ((t.reg f.rb).toNat = 0 ∨ 65535 < (t.reg f.rb).toNat →
      exec (.signal h f) s = .next (s.progTrap h t.pc 0x08 (t.reg f.rb).toNat)) ∧
    (1 ≤ (t.reg f.rb).toNat → (t.reg f.rb).toNat ≤ 65535 →
      0xFFFFFFFF < (j.sync.getD (t.reg f.ra).toNat 0).toNat + (t.reg f.rb).toNat →
      exec (.signal h f) s = .next ((s.publish h).progTrap h t.pc 0x09 (t.reg f.ra).toNat))) ∧
  ∀ (s : State) (h : Thr) (i : BitVec 16) (j : Job) (t : Thread), AtWord s h (pWord i) j t →
    (j.otherBarrier i.toNat = true ∨ ∀ e, j.pause? i.toNat = some e → e.codeOffset ≠ t.pc) →
    exec (.pause h i) s = .next (s.progTrap h t.pc 0x0A t.pc))

/-- R134, R138, R139: a stream instruction sees the thread's earlier stores, and one whose descriptor meets every rule is set up: XFER's
transfer joins those in flight, LDIN's load joins its engine's operations, WSTR's stream joins the job's, live while the tree holds
fewer than 64 (R120). The thread goes on at the next word. -/
def Obligations.StreamInstructionsSetUp : Prop :=
  (∀ (s : State) (h : Thr) (f : SForm) (j : Job) (t : Thread), Issues s h (sWord 0x28 0 f) f.gp f.gn j t →
    let u := s.publish h
    let off := (t.reg f.ra).toNat
    let b := memRead (u.store (j.phys h.cluster)) off 64
    let d := decodeDesc b
    off % 64 = 0 → off + 64 ≤ storeSize → j.descCommon 0 off b d = none → u.xferCheck j off d = none →
    exec (.xfer h f) s = .next ((u.updJob h.job fun k =>
      { k with
        nextXfer := k.nextXfer + 1
        xfers := k.xfers ++ [{ id := k.nextXfer, cluster := h.cluster, thread := h.thread, pc := t.pc, desc := d }] }).goesTo
      h (t.pc + 4))) ∧
  (∀ (s : State) (h : Thr) (f : SForm) (j : Job) (t : Thread), Issues s h (sWord 0x28 1 f) f.gp f.gn j t →
    let u := s.publish h
    let off := (t.reg f.ra).toNat
    let b := memRead (u.store (j.phys h.cluster)) off 64
    let d := decodeDesc b
    off % 64 = 0 → off + 64 ≤ storeSize → j.descCommon 1 off b d = none → u.ldinCheck j off d = none →
    let x := if d.conv then u.takeIndices h.job h.cluster d.convrec (d.lanes * d.length) else (0, u)
    exec (.ldin h f) s = .next ((x.2.queueEngOp { job := h.job, cluster := h.cluster, engine := oneEngine d.dstEngines }
      { kind := .load, thread := h.thread, pc := t.pc, half := d.half, sig := d.sig, sync := d.sync, desc := some d
        base := x.1 }).goTo h (t.pc + 4))) ∧
  ∀ (s : State) (h : Thr) (f : SForm) (j : Job) (t : Thread), Issues s h (sWord 0x28 2 f) f.gp f.gn j t →
    let u := s.publish h
    let off := (t.reg f.ra).toNat
    let b := memRead (u.store (j.phys h.cluster)) off 64
    let d := decodeDesc b
    off % 64 = 0 → off + 64 ≤ storeSize → j.descCommon 2 off b d = none → u.wstrCheck j off d = none →
    let x := if d.conv then
        u.takeIndices h.job h.cluster d.convrec
          (d.lanes * match j.operand? d with | some o => d.length * o.block | none => 0)
      else (0, u)
    exec (.wstr h f) s = .next ((x.2.updJob h.job fun k =>
      { k with
        nextStream := k.nextStream + 1
        streams := k.streams ++
          [{ num := k.nextStream, handle := d.stream, cluster := h.cluster, desc := d, dests := d.dests
             live := decide (u.treeStreams < 64), thread := h.thread, pc := t.pc, base := x.1 }] }).goTo h (t.pc + 4))

/-- R112 to R116, R134, R141: PASS, DRAIN and ACCLD whose checks pass see the thread's earlier stores and join the operations of the
engine that RA[1:0] names, with the fields of their registers (Table 5-5), and DISCARD of a FULL or EMPTY tile makes it EMPTY. A PASS
waits while the engine holds a running and a queued pass, and a DISCARD while its tile is in any other state: nothing changes but that
the thread's stores are visible.
An engine with no operation in flight begins one at once (R112 to R114, Table 4-4): a pass on an EMPTY tile with what it needs
in its halves makes it ACCUMULATING from zeros, one that continues goes on from a FULL tile, a drain of a FULL tile makes it
DRAINING, an accumulator load of an EMPTY one LOADING. -/
def Obligations.EngineInstructionsTakeEffect : Prop :=
  ((∀ (s : State) (h : Thr) (f : SForm) (j : Job) (t : Thread) (g : Engine),
    let e : Eng := { job := h.job, cluster := h.cluster, engine := (t.reg f.ra).toNat % 4 }
    let u := s.publish h
    s.engine? e = some (j, g) →
    (Issues s h (sWord 0x29 0 f) f.gp f.gn j t →
      let o := passOp h.thread t.pc (t.reg f.ra) (t.reg f.rb)
      (g.passesFull = true → exec (.pass h f) s = .next u) ∧
      (g.passesFull = false → j.passCheck e g (t.reg f.ra) o = none →
        exec (.pass h f) s = .next ((u.queueEngOp e o).goTo h (t.pc + 4)))) ∧
    (Issues s h (sWord 0x29 1 f) f.gp f.gn j t →
      let o := drainOp h.thread t.pc (t.reg f.ra) (t.reg f.rb) (t.reg f.rc)
      let x := if o.outConv then u.takeIndices h.job h.cluster o.convrec 16384 else (0, u)
      j.drainCheck g (t.reg f.ra) o = none →
        exec (.drain h f) s = .next ((x.2.queueEngOp e { o with base := x.1 }).goTo h (t.pc + 4))) ∧
    (Issues s h (sWord 0x29 2 f) f.gp f.gn j t →
      let o := accldOp h.thread t.pc (t.reg f.ra) (t.reg f.rb)
      j.accldCheck g o = none → exec (.accld h f) s = .next ((u.queueEngOp e o).goTo h (t.pc + 4))) ∧
    (Issues s h (sWord 0x29 3 f) f.gp f.gn j t →
      let i := bitsAt (t.reg f.ra).toNat 2 1
      ((g.tile i).state = .full ∨ (g.tile i).state = .empty →
        exec (.discard h f) s = .next ((u.updEngine e fun g => g.setTile i {}).goesTo h (t.pc + 4))) ∧
      ((g.tile i).state ≠ .full ∧ (g.tile i).state ≠ .empty → exec (.discard h f) s = .next u)))) ∧
  (∀ (s : State) (e : Eng) (j : Job) (g : Engine) (o : EngOp), s.engine? e = some (j, g) → g.ops = [] → o.started = false →
    j.trapped = false → j.ending = none → o.tile < 2 → o.tileBad g = false →
    (o.kind = .pass → j.passBad e.cluster e.engine g o = false) →
    ∃ (cs : List JobCluster) (k : Engine), (s.queueEngOp e o).engine? e = some ({ j with clusters := cs }, k) ∧
      k.ops.length = 1 ∧ (∀ q ∈ k.ops, q.started = true ∧ q.kind = o.kind) ∧
      k.half0 = g.half0 ∧ k.half1 = g.half1 ∧ k.tile (1 - o.tile) = g.tile (1 - o.tile) ∧
      k.tile o.tile = (match o.kind with
        | .pass => { state := .accumulating, data := if o.cont then (g.tile o.tile).data else zeroTile }
        | .drain => { g.tile o.tile with state := .draining }
        | .accld => { g.tile o.tile with state := .loading }
        | .load => g.tile o.tile))

/-- R131 to R137, the frame of every thread instruction but the stream, engine and sync ones: the state changes in the
scheduler's jobs and, where a trap is raised, in the fault log; of the jobs only the thread's own changes; clients, rings,
objects, flash and host memory stay, and so do the cluster stores, but for the thread's own stores, which EXIT makes visible. -/
def Obligations.ThreadInstructionFrame : Prop :=
  (∀ i ∈ ([Instr.add, Instr.sub, Instr.and, Instr.or, Instr.xor, Instr.sll, Instr.srl, Instr.sra, Instr.slt, Instr.sltu,
      Instr.min, Instr.max, Instr.minu, Instr.maxu, Instr.mul, Instr.mulhu, Instr.fadd, Instr.fsub, Instr.fmul, Instr.fma,
      Instr.fmin, Instr.fmax, Instr.fabs, Instr.fneg, Instr.fcvtSW, Instr.fcvtWS, Instr.fexp2, Instr.flog2, Instr.frcp,
      Instr.frsq, Instr.badd2, Instr.bmul2, Instr.bfma2, Instr.bmax2, Instr.bpack, Instr.blo, Instr.bhi, Instr.eq, Instr.ne,
      Instr.lt, Instr.ltu, Instr.ge, Instr.geu, Instr.feq, Instr.flt, Instr.fle, Instr.pand, Instr.por, Instr.pxor,
      Instr.pnot, Instr.ptos, Instr.stop, Instr.jr, Instr.tid, Instr.cid, Instr.ncl, Instr.flags, Instr.trap,
      Instr.btime, Instr.wide] : List (Thr → RForm → Instr)),
    ∀ (h : Thr) (f : RForm) (s s' : State), exec (i h f) s = .next s' →
      s' = { s with sched := { s.sched with jobs := s'.sched.jobs }, err := s'.err } ∧
        ∀ n, n ≠ h.job → s'.job? n = s.job? n) ∧
  (∀ i ∈ ([Instr.addi, Instr.andi, Instr.ori, Instr.xori, Instr.shi, Instr.ldb, Instr.ldh, Instr.ldw, Instr.ldq, Instr.stb,
      Instr.sth, Instr.stw, Instr.stq] : List (Thr → IForm → Instr)),
    ∀ (h : Thr) (f : IForm) (s s' : State), exec (i h f) s = .next s' →
      s' = { s with sched := { s.sched with jobs := s'.sched.jobs }, err := s'.err } ∧
        ∀ n, n ≠ h.job → s'.job? n = s.job? n) ∧
  (∀ (h : Thr) (f : RForm) (s s' : State), exec (.exit h f) s = .next s' →
      s' = { s with sched := { s.sched with jobs := s'.sched.jobs, stores := s'.sched.stores }, err := s'.err } ∧
        (∀ n, n ≠ h.job → s'.job? n = s.job? n) ∧
        ∀ p, (∀ q t, s.thread? h = some (q, t) → p ≠ q ∨ t.stores = []) → s'.store p = s.store p) ∧
  ∀ (h : Thr) (f : UForm) (g : BForm) (s s' : State),
    exec (.lui h f) s = .next s' ∨ exec (.jal h f) s = .next s' ∨ exec (.br h g) s = .next s' →
      s' = { s with sched := { s.sched with jobs := s'.sched.jobs }, err := s'.err } ∧
        ∀ n, n ≠ h.job → s'.job? n = s.job? n

/-- R131: s0 reads as 0 and p0 as true whatever was written, and a write to any other register or predicate is read back and
leaves the others as they were. -/
def Obligations.RegisterZeroAndPredicateZeroAreFixed : Prop :=
  ∀ (t : Thread) (i k : BitVec 6) (p q : BitVec 3) (v : Word) (b : Bool), t.regs.length = 64 →
    (t.setReg i v).reg 0 = 0 ∧ t.setReg 0 v = t ∧ (i ≠ 0 → (t.setReg i v).reg i = v) ∧
      (k ≠ i → (t.setReg i v).reg k = t.reg k) ∧ (t.setReg i v).regs.length = 64 ∧
    (t.setPred p b).pred 0 = true ∧ t.setPred 0 b = t ∧ (p ≠ 0 → (t.setPred p b).pred p = b) ∧
      (q ≠ p → (t.setPred p b).pred q = t.pred q)

/-- R136 and Table 5-2: every field of an R-, S-, I-, U-, B- or P-format word lies at its bits, and the words fit 32 bits. -/
def Obligations.InstructionWordsFollowTheirFormats : Prop :=
  (∀ (m n : Nat) (f : RForm), m < 64 → n < 16 →
    let w := BitVec.ofNat 32 (rWord m n f)
    rWord m n f < 2 ^ 32 ∧ (w.extractLsb' 26 6).toNat = m ∧ w.extractLsb' 20 6 = f.rd ∧ w.extractLsb' 14 6 = f.rs1 ∧
      w.extractLsb' 8 6 = f.rs2 ∧ w.extractLsb' 5 3 = f.gp ∧ w.extractLsb' 4 1 = f.gn ∧ (w.extractLsb' 0 4).toNat = n) ∧
  (∀ (m n : Nat) (f : SForm), m < 64 → n < 16 →
    let w := BitVec.ofNat 32 (sWord m n f)
    sWord m n f < 2 ^ 32 ∧ (w.extractLsb' 26 6).toNat = m ∧ w.extractLsb' 20 6 = f.ra ∧ w.extractLsb' 14 6 = f.rb ∧
      w.extractLsb' 8 6 = f.rc ∧ w.extractLsb' 5 3 = f.gp ∧ w.extractLsb' 4 1 = f.gn ∧ (w.extractLsb' 0 4).toNat = n) ∧
  (∀ (m : Nat) (f : IForm), m < 64 →
    let w := BitVec.ofNat 32 (iWord m f)
    iWord m f < 2 ^ 32 ∧ (w.extractLsb' 26 6).toNat = m ∧ w.extractLsb' 20 6 = f.rd ∧ w.extractLsb' 14 6 = f.rs1 ∧
      w.extractLsb' 0 14 = f.imm) ∧
  (∀ (m : Nat) (f : UForm), m < 64 →
    let w := BitVec.ofNat 32 (uWord m f)
    uWord m f < 2 ^ 32 ∧ (w.extractLsb' 26 6).toNat = m ∧ w.extractLsb' 20 6 = f.rd ∧ w.extractLsb' 0 20 = f.imm) ∧
  (∀ f : BForm,
    let w := BitVec.ofNat 32 (bWord f)
    bWord f < 2 ^ 32 ∧ w.extractLsb' 26 6 = 0x20 ∧ w.extractLsb' 23 3 = f.p ∧ w.extractLsb' 22 1 = f.n ∧
      w.extractLsb' 0 22 = f.off) ∧
  ∀ i : BitVec 16,
    let w := BitVec.ofNat 32 (pWord i)
    pWord i < 2 ^ 32 ∧ w.extractLsb' 26 6 = 0x2B ∧ w.extractLsb' 10 16 = i ∧ w.extractLsb' 0 10 = 0

/-- R103, R110 to R116, R128: the operations of an engine end. A block of the running pass's stream, staged already or delivered now, that
passes the checks of R103 issues its group; with no pass running a stream's block is staged ahead (R120); a pass whose steps have all
issued folds what waits and leaves its tile FULL; a drain writes its rows to the cluster's store and leaves its tile EMPTY; an
accumulator load fills its tile from the store and leaves it FULL; an input load gives its halves their data, and the passes that waited
for it are judged. Each then signals, and what waited begins.
R90, R111: the group sums of an issued group reach the tile at the next fold, each element rounded once.
R104: a group that fails the checks of R103 is a stream-alignment fault: the first of a job replays it and raises one record with
RESPONSE REPLAYED, the second ends it with STREAM_ALIGNMENT, its streams ended (R130), and the results of its last pause point. -/
def Obligations.EngineOperationsEnd : Prop :=
  (∀ (s : State) (e : Eng) (j : Job) (g : Engine) (o : EngOp), s.engine? e = some (j, g) →
    (g.ops.find? (fun o => o.kind = .pass && o.stepsDone) = some o →
      let f := g.foldPending
      exec (.passEnd e) s = .next
        ((((s.updEngine e fun _ => (f.1.setTile o.tile { f.1.tile o.tile with state := .full }).dropOp o).updJob e.job fun k =>
          { k with accSat := k.accSat || f.2 }).signalEnd (o.thr e) o.pc o.sig o.sync).startOps e)) ∧
    (∀ tile, g.ops.find? (fun o => o.kind = .drain && o.started && o.tile = tile) = some o →
      let r := j.drainRows o (g.tile tile).data
        (match j.clusters[e.cluster]? with | some c => c.glint.getD o.convrec {} | none => {})
      let t := s.updStore (j.phys e.cluster) fun m => (j.drainWrites o r.1 r.2.1).foldl (fun m w => memWrite m w.1 w.2) m
      let t := if o.outConv then
          t.updCluster e.job e.cluster fun c => { c with glint := c.glint.set o.convrec r.2.2.glint } else t
      exec (.drainEnd e tile) s = .next
        ((((t.updJob e.job fun k => { k with nan := k.nan || r.2.2.nan }).updEngine e fun g =>
          (g.setTile tile {}).dropOp o).signalEnd (o.thr e) o.pc o.sig o.sync).startOps e)) ∧
    (∀ tile, s.haltedBy (.job e.job) = false → g.ops.find? (fun o => o.kind = .accld && o.started && o.tile = tile) = some o →
      let ws := (chunksOf 4 16384 (memRead (s.store (j.phys e.cluster)) o.offset 65536)).map leNat
      exec (.accldEnd e tile) s = .next
        ((((s.updEngine e fun g => (g.setTile tile
            { state := .full, data := ws.map fun w => if isNanF32 w then 0 else BitVec.ofNat 32 w }).dropOp o).updJob
          e.job fun k => { k with nan := k.nan || ws.any isNanF32 }).signalEnd (o.thr e) o.pc o.sig o.sync).startOps e)) ∧
    (∀ d spec r, s.haltedBy (.job e.job) = false → g.ops.find? (fun o => o.kind = .load && o.started) = some o →
      o.desc = some d → j.operand? d = some spec →
      let rd := s.srcRead j e.cluster d
      let gl := match j.clusters[e.cluster]? with | some c => c.glint.getD d.convrec {} | none => {}
      let wide := match spec.conv with | some r => j.isWide r | none => false
      (if d.layout = 2 then (blockResident rd d spec).map fun r => (r, gl, false)
        else some (laneResident rd d spec wide o.base gl)) = some r →
      let t := (s.touchSource j d (d.ranges spec d.length)).updEngine e fun g => (g.putHalf o.half r.1).dropOp o
      let t := if d.conv then
          t.updCluster e.job e.cluster fun c => { c with glint := c.glint.set d.convrec r.2.1 } else t
      exec (.loadEnd e) s = .next
        (((t.updJob e.job fun k => { k with nan := k.nan || r.2.2 }).signalEnd (o.thr e) o.pc o.sig o.sync).judgeLoaded e o.half)) ∧
    (∀ d spec, s.haltedBy (.job e.job) = false → g.ops.find? (fun o => o.kind = .load && o.started) = some o →
      o.desc = some d → j.operand? d = some spec → d.layout = 2 → blockResident (s.srcRead j e.cluster d) d spec = none →
      exec (.loadEnd e) s = .next (((s.touchSource j d (d.ranges spec d.length)).updEngine e fun g => g.dropOp o).alignFault
        e.job e.cluster)) ∧
    (∀ t u, g.running? = none → j.streams.find? (fun t => t.dests.contains (e.cluster, e.engine) && j.canDeliver t) = some t →
      s.deliver e.job t = some u → exec (.groupStaged e) s = .next u) ∧
    ∀ r t spec u k x, g.running? = some o → g.resident? o.half = some r →
      j.streamFor? o.stream e.cluster e.engine = some t → j.operand? t.desc = some spec →
      ((g.stagedOf? t).isSome = true ∧ u = s) ∨ (g.stagedOf? t = none ∧ s.deliver e.job t = some u) →
      (u.engine? e).map Prod.snd = some k → k.stagedOf? t = some x →
      let grp := o.k0 / r.block + o.group
      (groupAligned r t.desc spec x.block grp x.idx = false → exec (.groupStaged e) s = .next (u.alignFault e.job e.cluster)) ∧
      (groupAligned r t.desc spec x.block grp x.idx = true → pairOk r spec = true →
        let f := k.issueGroup o r spec x
        exec (.groupStaged e) s = .next (((u.updEngine e fun _ => f.1).updJob e.job fun j =>
          ({ j with nan := j.nan || f.2.1, accSat := j.accSat || f.2.2 } : Job).tidyStreams).startOps e))) ∧
  (∀ (g : Engine) (o : EngOp) (r : Resident) (spec : OperandSpec) (x : Staged), r.fmt ≠ 9 → g.sums = none → o.tile < 2 →
    let k := (g.issueGroup o r spec x).1
    let p := (groupSums o.tile r spec x.block (o.k0 / r.block + o.group)).1
    k.tile o.tile = g.tile o.tile ∧ k.foldPending.1.tile (1 - o.tile) = g.tile (1 - o.tile) ∧ k.foldPending.1.sums = none ∧
      (k.foldPending.1.tile o.tile).data = (g.tile o.tile).data.mapIdx fun i acc =>
        (foldScaled acc (p.sums.getD i Frac.zero) (p.rows.getD (i / 128) none) (p.cols.getD (i % 128) none)).1) ∧
  (∀ (s : State) (id c : Nat) (j : Job), s.job? id = some j → j.ending = none →
    (j.alignFaults = 0 → s.alignFault id c =
      (((s.updJob id fun k => { k with alignFaults := k.alignFaults + 1 }).raise
        { faultUnit 0x0C 1 .cluster (j.phys c) 0 with detail := j.client }).updJob id fun k =>
          { k with save := match k.rerun with | some v => some v | none => k.save }).replay id) ∧
    (j.alignFaults ≠ 0 → ∃ k, (s.alignFault id c).job? id = some k ∧ k.ending = some .streamAlignment ∧ k.streams = [] ∧
      k.result = (match j.save with | some v => v.result | none => []) ∧ k.alignFaults = j.alignFaults + 1))

/-- R138, R139, R209, R120: a transfer ends with its bytes, as the source holds them then (the model's choice, assumption log 42), at
its destination: the own store, the job's scratch, the result region, or an object, whose pages become dirty (where the object is
written through, or a page of it has no mirror, the transfer waits for their write-back). It leaves the job and signals. A stream whose
blocks have all been delivered leaves the tree and signals. -/
def Obligations.TransfersAndStreamsEnd : Prop :=
  (∀ (s : State) (job id : Nat) (j : Job) (x : Xfer), s.job? job = some j → s.haltedBy (.job job) = false →
    j.xfers.find? (fun y => y.id = id) = some x → x.written = false →
    let d := x.desc
    let bs := s.srcRead j x.cluster d d.srcOffset d.length
    let t := s.touchSource j d [(d.srcOffset, d.length)]
    (d.dstSpace = 0 → exec (.xferEnd job id) s =
      .next ((t.updStore (j.phys x.cluster) fun m => memWrite m d.dstOffset bs).finishXfer job x)) ∧
    (d.dstSpace = 2 → ∀ b o, j.bindings[d.dstSlot]? = some b → s.tiers.objects.find? (·.id = b.obj) = some o →
      (o.durable = true → s.admitsDirty bs.length = false → exec (.xferEnd job id) s = .next s) ∧
      (o.durable = false ∨ s.admitsDirty bs.length = true →
        let u := ((if o.durable then s.takeCredit bs.length else s).touchSource j d [(d.srcOffset, d.length)]).writeVersion
          b.obj b.ver d.dstOffset bs
        let waits := u.writesThrough o = true ∨ (o.durable = true ∧ ∃ p ∈ j.xferPages d, u.unmirrored p = true)
        (¬waits → exec (.xferEnd job id) s = .next (u.finishXfer j.id x)) ∧
        (waits → exec (.xferEnd job id) s = .next
          ((u.startWriteback (j.xferPages d)).updJob j.id fun k =>
            { k with xfers := updWhere (fun y => y.id = x.id) (fun y => { y with written := true }) k.xfers })))) ∧
    (d.dstSpace = 3 → exec (.xferEnd job id) s =
      .next ((t.updJob job fun k => { k with scratch := memWrite k.scratch d.dstOffset bs }).finishXfer job x)) ∧
    (d.dstSpace = 4 → exec (.xferEnd job id) s =
      .next ((t.updJob job fun k => { k with result := memWrite k.result d.dstOffset bs }).finishXfer job x))) ∧
  (∀ (s : State) (job id : Nat) (j : Job) (x : Xfer), s.job? job = some j → s.haltedBy (.job job) = false →
    j.xfers.find? (fun y => y.id = id) = some x → x.written = true → s.stillDirty (j.xferPages x.desc) = [] →
    (∀ m ∈ s.xferMaps j x, s.ftl.dirtyMaps.any (·.page = m) = false) →
    exec (.xferEnd job id) s = .next (s.finishXfer job x)) ∧
  ∀ (s : State) (job handle : Nat) (j : Job) (x : Stream), s.job? job = some j → s.haltedBy (.job job) = false →
    j.streams.find? (fun t => t.handle = handle && t.live && !t.ended && t.delivered = t.desc.length) = some x →
    exec (.streamEnd job handle) s = .next
      (((s.updJob job fun k =>
        ({ k with streams := updWhere (·.num = x.num) (fun t => { t with ended := true }) k.streams } : Job).tidyStreams).signalEnd
          { job := job, cluster := x.cluster, thread := x.thread } x.pc x.desc.sig x.desc.sync).fillTree)

/-- R100, R143, R144, R201 to R205: a pause point that every running thread has reached, with nothing queued or in flight, is
taken: its pause state is saved, and unless its layer fails calibration its placement entries are queued, the threads go on at
the next instruction and the decisions of R176 apply. A layer that fails goes back to its start. A job that runs no program takes its
decisions where nothing of it is in flight (the model's choice, assumption log 165). A placement move that can be
carried out ends; an eviction or a promotion that cannot waits, with room for it under way, and a promotion that has waited
TIR_PROMOTE_WAIT is given up and counted.
R144, R146: what a pause point saves of a thread, an engine and the sync counters: registers, predicates, tiles and halves in
the LIVE masks as they are, the rest as zero, false, EMPTY and holding nothing; threads that have exited stay so, the others
go on at RESUME, or at the instruction after the PAUSE where RESUME is 0. -/
def Obligations.PausePointsTakeTheirSave : Prop :=
  ((∀ (s : State) (job cycle n : Nat) (j : Job) (e : PauseEntry), s.job? job = some j → j.state = .running → j.ending = none →
    j.quiet = true → j.image.isSome = true → j.reached? = some n → j.pause? n = some e →
    (e.layerEnd = false ∨ j.layerFails e.layer = false →
      let t := s.updJob job (Job.endRerun e)
      exec (.pausePointTaken job cycle) s = .next
        (((if e.layerStart then t.updJob job (Job.layerStart e.layer) else t).savePoint job e).passPoint job
          (s.cycleAt cycle) e)) ∧
    (e.layerEnd = true → j.layerFails e.layer = true → ∀ v, j.layerSave? e.layer = some v →
      exec (.pausePointTaken job cycle) s = .next ((s.savePoint job e).rerunLayer job (s.cycleAt cycle) e v))) ∧
  (∀ (s : State) (job cycle : Nat) (j : Job), s.job? job = some j → j.state = .running → j.ending = none →
    j.quiet = true → j.image = none →
    exec (.pausePointTaken job cycle) s = .next (s.decideAt true job (s.cycleAt cycle))) ∧
  (∀ (s : State) (job : Nat) (j : Job) (m : Move) (ms : List Move), s.job? job = some j → j.moves = m :: ms →
    (∀ t, s.carryOut j m.entry = (true, t) → exec (.placementMoveEnd (.job job)) s = .next (t.finishMove job)) ∧
    (∀ t, s.carryOut j m.entry = (false, t) → exec (.placementMoveEnd (.job job)) s = .next t) ∧
    ((s.carryOut j m.entry).1 = false → m.entry.op = 0 ∨ m.entry.op = 2 → m.entry.tier = 1 →
      m.since + s.tiers.promoteWait ≤ s.bt →
      exec (.promoteWaitExpiry (.job job)) s =
        .next (({ s with tiers := { s.tiers with giveUps := sat16 (s.tiers.giveUps + 1) } } : State).finishMove job)))) ∧
  ((∀ (e : PauseEntry) (t : Thread) (i : BitVec 6) (p : BitVec 3), t.st ≠ .exited →
    (e.saveThread t).reg i = (if e.liveRegs.getLsbD i.toNat then t.reg i else 0) ∧
    (e.saveThread t).pred p = (p = 0 || (e.livePreds.getLsbD p.toNat && t.preds.getLsbD p.toNat)) ∧
    (e.saveThread t).pc = (if e.resume = 0 then e.codeOffset + 4 else 4 * e.resume) ∧ (e.saveThread t).st = .ready) ∧
  (∀ (e : PauseEntry) (t : Thread), t.st = .exited → e.saveThread t = t) ∧
  (∀ (e : PauseEntry) (k : Nat) (g : Engine) (i : Nat), i < 2 →
    ((e.saveEngine k g).tile i = if e.liveAcc.getLsbD (2 * k + i) ∧ (g.tile i).state = .full then g.tile i else {}) ∧
    (e.saveEngine k g).ops = []) ∧
  ∀ (s : State) (id : Nat) (j : Job) (e : PauseEntry), s.job? id = some j →
    ∃ k v, (s.savePoint id e).job? id = some k ∧ k.save = some v ∧ k.lastPause = e.index ∧ k.pointReplays = 0 ∧
      k.spanEvents = [] ∧ v.index = e.index ∧ v.sync = j.sync ∧ v.result = j.result ∧
      v.store = j.clusters.map fun c => memRead (s.store c.phys) e.storeBase e.storeLen)

/-- R131, R155, R163 to R165, R168: JOB_START starts or resumes the job that R164 picks, on the clusters it picks, with a slice of
the scheduler's length; JOB_END gives up the clusters, the references and the sync grant of a job that can end, its counters standing
in the sync table (R127), and its command goes on.
R510: a first mismatch of the hash of what was copied is copied again and the job starts; a second makes the program's version impaired.
R166, R167, R169, R175: a slice that ends marks the job where a waiting job's client has a lower v and otherwise begins anew;
the watchdog stops a job that has issued for 256 BT in 16ths without a PREEMPT point; a waiting job whose clusters have been
too few for 1,000,000 BT is to end with UNIT_CLOSED, one never started whose command's deadline has passed with
DEADLINE_EXPIRED. -/
def Obligations.JobsStartEndAndTimeOut : Prop :=
  ((∀ (s : State) (cycle k : Nat) (j : Job) (g : Image) (ps : List Nat), s.still = false → s.tryStart = some (j, ps) →
    j.image = some g →
    (k ≤ 1 → digest64 (g.code ++ g.const) = g.sections →
      exec (.jobStart ⟨cycle, k⟩) s = .next (s.startJob j ps (s.cycleAt cycle))) ∧
    (2 ≤ k ∨ digest64 (g.code ++ g.const) ≠ g.sections → exec (.jobStart ⟨cycle, k⟩) s = .next ((s.startJob j ps (s.cycleAt cycle)).impair j.prog j.progVer))) ∧
  (∀ (s : State) (cycle k : Nat) (j : Job) (ps : List Nat), s.still = false → s.tryStart = some (j, ps) → j.image = none →
    exec (.jobStart ⟨cycle, k⟩) s = .next (s.startJob j ps (s.cycleAt cycle))) ∧
  (∀ (s : State) (job cycle : Nat) (j : Job) (st : Option Status) (c : Slot), s.job? job = some j → j.endNow = some st →
    s.slot? j.slot = some c → s.reachable (s.ringOf c.sq) = true →
    ∃ t, exec (.jobEnd job cycle) s = .next t ∧ t = State.afterJob
      { j with
        ending := st, cycles := if j.state = .running then
          j.cycles + 4 * j.clusters.length * (s.cycleAt cycle - j.chargedTo) else j.cycles }
      (let u := (s.releaseClusters job (s.cycleAt cycle)).dropRefs fun _ r => r.who = .job job
       let u := if j.state = .waiting then u.endWait j else u
       { u with sched := { u.sched with
          jobs := u.sched.jobs.filter (·.id ≠ job), syncTable := j.leaveSync u.sched.syncTable } })) ∧
  ∀ (g : Image) (p i : Nat), i < g.threads →
    (g.freshCluster p).threads[i]? = some { regs := List.replicate 64 0, preds := 0, pc := g.entry, st := .ready }) ∧
  ((∀ (s : State) (job : Nat) (j : Job), s.job? job = some j → j.state = .running → j.ending = none → j.marked = false →
    j.sliceEnd ≤ s.bt →
    ((∃ k ∈ s.waiting, s.jobV k < s.jobV j) →
      exec (.sliceEnd job) s = .next (s.updJob job fun k => { k with marked := true })) ∧
    ((∀ k ∈ s.waiting, s.jobV j ≤ s.jobV k) →
      exec (.sliceEnd job) s = .next (s.updJob job fun k => { k with sliceEnd := s.bt + s.sched.sliceBt }))) ∧
  (∀ (s : State) (job cycle : Nat) (j : Job), s.job? job = some j → j.state = .running → j.ending = none →
    256 * 16 ≤ j.watchdog16 →
    exec (.sliceWatchdog job cycle) s = .next
      (((s.updJob job (Job.endWith .jobFault)).raise { faultOf 0x0D 4 with detail := j.client }).updClient j.client fun c =>
        { c with wdog := sat32 (c.wdog + 1) })) ∧
  (∀ (s : State) (job t0 : Nat) (j : Job), s.job? job = some j → j.shortSince = some t0 → j.state = .waiting →
    j.ending = none → t0 + 1000000 ≤ s.bt →
    exec (.clusterWaitTimeout job) s = .next (s.updJob job (Job.endWith .unitClosed))) ∧
  ∀ (s : State) (job : Nat) (j : Job) (c : Slot), s.job? job = some j → s.slot? j.slot = some c → j.state = .waiting →
    j.started = false → j.ending = none → j.kind = .run ∨ j.kind = .seal ∨ j.kind = .merge →
    s.deadlinePassed c.entry c.fetchBt = true →
    exec (.jobDeadline job) s = .next (s.updJob job (Job.endWith .deadlineExpired)))

/-- R160, R161, R174: at BT boundaries the clock goes on by 600 ARITH cycles each, every running job is charged 4 engines times
its clusters times the cycles since it was last charged, its watchdog goes on by the cycles of every 16 in which the engines
issue, no other job is charged, and a switch of the AON timer's user takes effect (R477).
R161: posting a charge to a client adds it to the client's cycles and moves its v on by the whole part of charge and remainder
over its weight, both counters stopping at all ones; the remainder stays below the weight. -/
def Obligations.BoundariesPostTheCharge : Prop :=
  (∀ (s : State) (n : Nat), (s.sched.jobs.map (·.id)).Nodup →
    ∃ t, exec (.postCharge n) s = .next t ∧ t.clk.cycle = s.clk.cycle + 600 * n ∧
      t = { s with
        clk := t.clk, sched := { s.sched with jobs := t.sched.jobs, clients := t.sched.clients }
        beacon := { s.beacon with aon := if n = 0 then s.beacon.aon else
          if s.beacon.state = .holdover then .holdover else .selfTest } } ∧
      ∀ id j, s.job? id = some j → ∃ k, t.job? id = some k ∧
        (j.state ≠ .running → k = j) ∧
        (j.state = .running →
          k.cycles = j.cycles + 4 * j.clusters.length * (s.clk.cycle + 600 * n - j.chargedTo) ∧
          k.chargedTo = Nat.max j.chargedTo (s.clk.cycle + 600 * n) ∧
          k.watchdog16 = (if j.held then j.watchdog16 else j.watchdog16 + s.issueRate * n) ∧
          k.clusters = j.clusters ∧ k.sliceEnd = j.sliceEnd ∧ k.state = j.state)) ∧
  (∀ (c : Client) (n : Nat), 0 < c.weight → c.rem < c.weight →
    (c.post n).vtime = Nat.min (c.vtime + (n + c.rem) / c.weight) 0xFFFFFFFFFFFFFFFF ∧
    (c.post n).rem < c.weight ∧
    (c.vtime + (n + c.rem) / c.weight ≤ 0xFFFFFFFFFFFFFFFF →
      c.weight * (c.post n).vtime + (c.post n).rem = c.weight * c.vtime + c.rem + n) ∧
    (c.post n).cycles = Nat.min (c.cycles + n) 0xFFFFFFFFFFFFFFFF ∧ (c.post n).weight = c.weight)

/-- R40 to R42, R47: SQ_ENABLE and CQ_ENABLE of a disabled ring whose settings are in range enable it, with its indices, its
expected sequence number and its duplicate window, or its phase, as R41 and R47 say; SQ_DISABLE asks for the disable, which is
complete at once where no command is in flight; CQ_DISABLE of a ring no enabled submission ring is bound to disables it.
R40: ring settings out of range, and an enable the spec refuses, leave the ring as it is but for its error bit and count in
`ATR_ERR_CNT[0]`; settings of an enabled ring do not change. -/
def Obligations.RingsAreEnabledAndDisabled : Prop :=
  (∀ (s : State) (port n : Nat) (v : Word), s.ringOpen port n = true →
    let f := bitsAt v.toNat
    (f 0 1 = 1 → (s.sq n).enabled = false → s.power.phase = .service ∨ s.power.phase = .recovery →
      (∃ k, 4 ≤ k ∧ k ≤ 12 ∧ f 16 16 = 2 ^ k) → (s.sq n).base % 4096 = 0 → (s.cq (f 8 8)).enabled = true →
      exec (.sqEnable port n v) s = .next (s.updSq n fun q =>
        { q with
          cq := f 8 8, size := f 16 16, enabled := true, halted := false, head := 0, tail := 0, expSeq := q.seqBase
          window := [] })) ∧
    (f 0 1 = 1 → (s.cq n).enabled = false → s.power.phase = .service ∨ s.power.phase = .recovery →
      (∃ k, 4 ≤ k ∧ k ≤ 12 ∧ f 16 16 = 2 ^ k) → (s.cq n).base % 4096 = 0 →
      exec (.cqEnable port n v) s = .next (s.updCq n fun c =>
        { c with
          size := f 16 16, msgEn := bitAt v.toNat 1, enabled := true, tail := 0, head := 0, phase := true
          badHead := false })) ∧
    (f 0 1 = 0 → (s.sq n).enabled = true → (s.sq n).cq = f 8 8 → (s.sq n).size = f 16 16 →
      exec (.sqDisable port n v) s = .next (s.updSq n fun q =>
        if q.inFlight = 0 then { q with enabled := false, disabling := false, window := [] }
        else { q with disabling := true })) ∧
    (f 0 1 = 0 → (s.cq n).enabled = true → (s.cq n).size = f 16 16 →
      (∀ q ∈ s.atr.sqs, q.enabled = true → q.cq ≠ n) →
      exec (.cqDisable port n v) s = .next (s.updCq n fun c =>
        { c with msgEn := bitAt v.toNat 1, enabled := false, unnotified := 0 }))) ∧
  (∀ (s : State) (port n : Nat) (v : Word), s.ringOpen port n = true →
    let f := bitsAt v.toNat
    (f 0 1 = 1 → (s.sq n).enabled = false →
      (∀ k, 4 ≤ k → k ≤ 12 → f 16 16 ≠ 2 ^ k) ∨ (s.sq n).base % 4096 ≠ 0 ∨ (s.cq (f 8 8)).enabled = false →
      exec (.sqEnable port n v) s =
        .next ((s.updSq n fun q => { q with cq := f 8 8, size := f 16 16, err := true }).countErr 0)) ∧
    (f 0 1 = 0 → (s.cq n).enabled = true → (s.cq n).size = f 16 16 → (∃ q ∈ s.atr.sqs, q.enabled = true ∧ q.cq = n) →
      exec (.cqDisable port n v) s = .next ((s.updCq n fun c => { c with msgEn := bitAt v.toNat 1 }).countErr 0)))

/-- R44 to R46: a submission doorbell inside the ring sets its tail, one past its end halts the ring with a record of class 0x11;
a completion doorbell that releases no more than is posted sets the head, any other is counted and the first raises one
record; a doorbell of a ring that is not enabled is counted. -/
def Obligations.DoorbellsMoveTheRings : Prop :=
  ∀ (s : State) (port n : Nat) (v : Word), s.ringOpen port n = true →
    let i := bitsAt v.toNat 0 12
    ((s.sq n).enabled = true → (s.sq n).disabling = false → (s.sq n).halted = false →
      (i < (s.sq n).size → exec (.atrSqDb port n v) s = .next (s.updSq n fun q => { q with tail := i })) ∧
      ((s.sq n).size ≤ i → exec (.atrSqDb port n v) s =
        .next ((s.updSq n fun q => { q with halted := true }).raise { faultOf 0x11 5 with location := n }))) ∧
    ((s.sq n).enabled = false → exec (.atrSqDb port n v) s = .next (s.countErr 1)) ∧
    ((s.cq n).enabled = true →
      let behind := ((s.cq n).tail + (s.cq n).size - (s.cq n).head) % (s.cq n).size
      let freed := (i + (s.cq n).size - (s.cq n).head) % (s.cq n).size
      (i < (s.cq n).size → freed ≤ behind →
        exec (.atrCqDb port n v) s = .next (s.updCq n fun c => { c with head := i, badHead := false })) ∧
      ((s.cq n).size ≤ i ∨ behind < freed →
        ((s.cq n).badHead = true → exec (.atrCqDb port n v) s = .next (s.countErr 2)) ∧
        ((s.cq n).badHead = false → exec (.atrCqDb port n v) s = .next
          (((s.countErr 2).updCq n fun c => { c with badHead := true }).raise
            { faultOf 0x11 5 with location := 256 + n })))) ∧
    ((s.cq n).enabled = false → exec (.atrCqDb port n v) s = .next (s.countErr 2))

/-- R48 to R50, R60 to R64: FETCH takes the next entry of the ring whose turn it is, 64 bytes at its head; a new entry advances the
expected sequence number, is kept in the duplicate window and is checked: refused with the status of Table 2-7, or
admitted. One that is not new is answered under Table 2-8. -/
def Obligations.FetchTakesTheNextEntry : Prop :=
  ∀ (s : State) (n : Nat) (reads : List (Nat × List Byte)) (refused : Bool), s.turn = some n →
    let u : State := { s with hostMem := reads.foldl (fun m r => memWrite m r.1 r.2) s.hostMem }
    let e := memRead u.hostMem ((s.sq n).base + 64 * (s.sq n).head) 64
    let k := if s.atr.lastRing = n && s.atr.turnTaken < 8 then s.atr.turnTaken + 1 else 1
    let t := u.updSq n fun q => { q with head := (q.head + 1) % q.size, inFlight := q.inFlight + 1 }
    let t : State := { t with atr := { t.atr with lastRing := n, turnTaken := k, nextOrder := s.atr.nextOrder + 1 } }
    (BitVec.ofNat 32 (field e 4 4) ≠ (s.sq n).expSeq →
      exec (.fetch n reads refused) s = .next (t.oldEntry n e s.atr.nextOrder)) ∧
    (BitVec.ofNat 32 (field e 4 4) = (s.sq n).expSeq →
      let w := t.updSq n fun q => { q with
        expSeq := q.expSeq + 1
        window := ({ seq := BitVec.ofNat 32 (field e 4 4), opcode := field e 0 1, tag := field e 2 2 } :: q.window).take 4096 }
      (∀ x, t.validate e refused = .error x →
        exec (.fetch n reads refused) s = .next (w.answerEntry n e s.atr.nextOrder x.1 x.2 0 true)) ∧
      (∀ sp, t.validate e refused = .ok sp →
        exec (.fetch n reads refused) s = .next (w.accept n s.atr.nextOrder e sp)))

/-- R62 to R64, Table 2-8: an entry that is not new and names no record of the 4,096 before the expected number, or one of another
opcode or tag, is answered with SEQUENCE_ERROR; one whose original is in flight with DUPLICATE; one whose original has posted with
that completion again. The command is not executed a second time: no slot is taken and nothing but the ring's ready
completions and error counters changes. -/
def Obligations.DuplicatesAreNotExecuted : Prop :=
  ∀ (s : State) (n order : Nat) (e : Bytes), ∃ k : Completion, ∃ c : List Nat,
    s.oldEntry n e order = State.ready k { s with atr := { s.atr with errCnt := c } } ∧
      k.slot = none ∧ k.retain = false ∧ k.order = order ∧
      (k.status = .sequenceError ∨
        ∃ r ∈ (s.sq n).window, r.seq = BitVec.ofNat 32 (field e 4 4) ∧ r.opcode = field e 0 1 ∧ r.tag = field e 2 2 ∧
          ((r.posted = none ∧ k.status = .duplicate ∧ k.cflags = 2) ∨
            ∃ p, r.posted = some p ∧ k.status = p.status ∧ k.result = p.result ∧ k.seq = p.seq ∧ k.tag = p.tag))

/-- R63: the answer to a duplicate whose original has posted carries the original's TAG, SEQ, STATUS, RESULT and INFO bits with
DUPLICATE set; it is written with the head and the phase of the time of its posting; it takes no active-command slot and writes
nothing to a result buffer. -/
def Obligations.RepostsCarryTheOriginal : Prop :=
  (∀ (s : State) (n order : Nat) (e : Bytes) (r : Retained) (p : Completion),
    2 ^ 32 - 4096 ≤ (BitVec.ofNat 32 (field e 4 4) - (s.sq n).expSeq).toNat →
    (s.sq n).window.find? (fun r => r.seq = BitVec.ofNat 32 (field e 4 4)) = some r → r.opcode = field e 0 1 →
    r.tag = field e 2 2 → r.posted = some p →
    ∃ k, s.oldEntry n e order = s.ready k ∧ k.tag = p.tag ∧ k.seq = p.seq ∧ k.status = p.status ∧ k.result = p.result ∧
      k.sq = p.sq ∧ (∀ i, i ≠ 1 → k.cflags.testBit i = p.cflags.testBit i) ∧ k.cflags.testBit 1 = true ∧ k.slot = none ∧
      (s.ready k).hostMem = s.hostMem ∧ (s.ready k).atr.slots = s.atr.slots) ∧
  ∀ (k : Completion) (head : Nat) (phase degraded : Bool), k.cflags % 2 = 0 → k.cflags < 32 →
    let b := completionBytes k head phase degraded
    field b 10 2 = head % 65536 ∧ bitAt (field b 3 1) 0 = phase ∧ bitAt (field b 3 1) 1 = k.cflags.testBit 1

/-- R454: a completion with CSTATUS 1 of a read that is outstanding for a command ends the command with HOST_ACCESS_FAULT: its
completion is the ring's last ready one, no further read of it is outstanding or due, no channel halts, and no fault record is
raised or merged. -/
def Obligations.RefusedFetchesEndTheirCommand : Prop :=
  ∀ (s : State) (port tag offset : Nat) (last : Bool) (data : Bytes) (c : Slot), s.portAccepts port = true →
    s.atr.slots.find? (fun c => c.reads.any fun m => m.port = port && m.tag = tag) = some c → s.slot? c.id = some c →
    c.phase ≠ .done → s.ringOf c.sq < s.atr.cqs.length →
    ∃ t, exec (.cpl port tag 1 offset last data) s = .next t ∧ t.err = s.err ∧
      (∃ d, t.slot? c.id = some d ∧ d.phase = .done ∧ d.reads = [] ∧ d.toRead = []) ∧
      ∃ k, (t.cq (s.ringOf c.sq)).ready = (s.cq (s.ringOf c.sq)).ready ++ [k] ∧ k.status = .hostAccessFault ∧
        k.tag = field c.entry 2 2 ∧ k.seq = BitVec.ofNat 32 (field c.entry 4 4) ∧ k.result = 0

/-- R21, R65, R68 to R70: posting the first ready completion of a ring with room writes what waited of its results and then its 16 bytes at the tail, moves the tail on,
turning the phase at the end of the ring, frees the command's slot, its range-lock entry and its pins, hands over what waited for
it, and counts it for the ring's message.
R61, R378: a block command still waiting for its range-lock entry when its deadline passes completes with DEADLINE_EXPIRED
and asks for no entry any more.
R65, R67, R69: a command that ends marks its slot done, with nothing left to read, and puts its completion, with its entry's TAG
and SEQ, at the end of the ready list of the completion ring its submission ring is bound to; it ends once; every other part
of the state stays, but for that slot and that list. -/
def Obligations.CompletionsArePosted : Prop :=
  ((∀ (s : State) (n p : Nat) (k : Completion) (ks : List Completion), (s.cq n).ready = k :: ks → s.homePort n = some p →
    s.still = false → (s.cq n).held + 1 < (s.cq n).size →
    let c := s.cq n
    let t := (s.unpark n).hostWrite n (c.base + 16 * c.tail) (completionBytes k (s.sq k.sq).head c.phase s.timeDegraded)
    let t := t.updCq n fun c => { c with
      ready := ks
      tail := if (s.cq n).tail + 1 = (s.cq n).size then 0 else c.tail + 1
      phase := if (s.cq n).tail + 1 = (s.cq n).size then !c.phase else c.phase }
    let t := t.updSq k.sq fun q => Sq.settle { q.retain k with inFlight := q.inFlight - 1 }
    exec (.completionPost n) s =
      .next (((t.release k.slot).unfence.takeLocks).wantNotify n k.notify).tryShutdown) ∧
  (∀ (k : Completion) (h : Nat) (ph dg : Bool), (completionBytes k h ph dg).length = 16 ∧
    field (completionBytes k h ph dg) 0 2 = k.tag % 65536 ∧ field (completionBytes k h ph dg) 2 1 = k.status.code % 256 ∧
    field (completionBytes k h ph dg) 4 4 = k.seq.toNat ∧ field (completionBytes k h ph dg) 8 2 = k.sq % 65536 ∧
    field (completionBytes k h ph dg) 10 2 = h % 65536 ∧ field (completionBytes k h ph dg) 12 4 = k.result % 2 ^ 32) ∧
  (∀ (s : State) (n : Nat), 0 < (s.cq n).unnotified → (s.cq n).oldest + (s.cq n).coalesceTime ≤ s.bt → s.silent = false →
    exec (.notifyTimeout n) s = .next (s.notify n)) ∧
  ∀ (s : State) (n p : Nat), s.homePort n = some p →
    let bs := leBytes 2 n ++ leBytes 2 (s.cq n).tail ++ zeroBytes 28
    s.notify n = (({ s with hostMem := memWrite s.hostMem (s.cq n).msgAddr bs } : State).updCq n fun c =>
      { c with unnotified := 0 }).send p
        { cls := 1, vc := 0, dst := (s.port p).hostNode, addr := (s.cq n).msgAddr, len := 32, slots := 2, ring := some n, data := bs }) ∧
  (∀ (s : State) (slot : Nat) (c : Slot), s.slot? slot = some c → c.phase = .handed → takesLock c.opcode = true →
    s.lockGranted slot = false → s.deadlinePassed c.entry c.fetchBt = true →
    exec (.lockWaitDeadline slot) s = .next
      (let t := s.finish slot .deadlineExpired 0 0
       ({ t with locks := t.locks.filter (·.slot ≠ slot) } : State).takeLocks)) ∧
  (∀ (s : State) (id : Nat) (st : Status) (result info : Nat) (c : Slot), s.slot? id = some c →
    (c.phase = .done → s.finish id st result info = s) ∧
    (c.phase ≠ .done →
      let t := s.finish id st result info
      t.slot? id = some { c with phase := .done, work := .none, reads := [], toRead := [] } ∧
      (∀ k, k ≠ id → t.slot? k = s.slot? k) ∧
      (s.ringOf c.sq < s.atr.cqs.length → (t.cq (s.ringOf c.sq)).ready = (s.cq (s.ringOf c.sq)).ready ++
        [{ tag := field c.entry 2 2, status := st, cflags := info, seq := BitVec.ofNat 32 (field c.entry 4 4), sq := c.sq
           result := result, notify := !bitAt (field c.entry 1 1) 4, slot := some id, order := c.order }]) ∧
      (∀ n, n ≠ s.ringOf c.sq → t.cq n = s.cq n) ∧
      t = { s with atr := { s.atr with slots := t.atr.slots, cqs := t.atr.cqs } } ∧
      t.finish id st result info = t))

/-- R533, R534, R402: a REGISTER_WRITE of 4 bytes at the offset of a register that has a row of its own does what that row does,
and REGISTER_WRITE at an offset that no block spans changes nothing; one of another size or alignment is dropped and counted.
R158, R159, Table 22-6: CLIENT_ENABLE with a weight from 1 to 4,096 and a limit enables a client with its counters at zero, or
gives an enabled one its new weight and limit; CLIENT_DISABLE of a client without jobs disables it; a write that is out of range,
or disables a client that has jobs, sets ERR and changes no client. -/
def Obligations.RegisterWritesReachTheirRegister : Prop :=
  ((∀ (s : State) (port n : Nat) (v : Word), n < 256 →
    exec (.registerWrite port (0x11008 + 0x40 * n) 4 (v.zeroExtend 64)) s =
      (if v.getLsbD 0 then exec (.sqEnable port n v) s else exec (.sqDisable port n v) s) ∧
    exec (.registerWrite port (0x15008 + 0x40 * n) 4 (v.zeroExtend 64)) s =
      (if v.getLsbD 0 then exec (.cqEnable port n v) s else exec (.cqDisable port n v) s) ∧
    exec (.registerWrite port (0x11014 + 0x40 * n) 4 (v.zeroExtend 64)) s = exec (.atrSqDb port n v) s ∧
    exec (.registerWrite port (0x1501C + 0x40 * n) 4 (v.zeroExtend 64)) s = exec (.atrCqDb port n v) s) ∧
  (∀ (s : State) (port : Nat) (v : Word),
    exec (.registerWrite port 0x60000 4 (v.zeroExtend 64)) s = exec (.tirCfg port v) s ∧
    exec (.registerWrite port 0x30000 4 (v.zeroExtend 64)) s = exec (.bcnCfg port v) s ∧
    exec (.registerWrite port 0x40010 4 (v.zeroExtend 64)) s = exec (.pwrCap port v) s ∧
    exec (.registerWrite port 0x40014 4 1) s = exec (.pwrShutdownGo port) s ∧
    exec (.registerWrite port 0x40014 4 2) s = exec (.quiesce port) s ∧
    exec (.registerWrite port 0x50004 4 1) s = exec (.updateLock port) s ∧
    exec (.registerWrite port 0x500000 4 0x2000) s = exec (.pop port) s ∧
    exec (.registerWrite port 0x410004 4 (v.zeroExtend 64)) s = exec (.gatHotBytes port v) s ∧
    exec (.registerWrite port 0x600018 4 (v.zeroExtend 64)) s = exec (.tstPulseCfg port v) s ∧
    exec (.registerWrite port 0x600020 4 (v.zeroExtend 64)) s = exec (.tstCtrClear port v) s) ∧
  (∀ (s : State) (port o : Nat) (v : Word64), s.portAccepts port = true → s.silent = false →
    (0x80000 ≤ o → o < 0x100000 → o % 4 = 0 → exec (.registerWrite port o 4 v) s = .next s) ∧
    (o % 4 ≠ 0 → exec (.registerWrite port o 4 v) s =
      .next (s.updPort port fun q => { q with errPackets := sat32 (q.errPackets + 1) }))) ∧
  ∀ (s : State) (port o size : Nat) (v : Word64), s.portAccepts port = false →
    exec (.registerWrite port o size v) s = .next s) ∧
  (∀ (s : State) (port n : Nat) (v : Word64), n < 256 → s.regOpen port .sch = true →
    let w := bitsAt v.toNat 16 13
    let l := bitsAt v.toNat 32 16
    let c := s.sched.clients.getD n {}
    (v.getLsbD 0 = true →
      (1 ≤ w → w ≤ 4096 → l ≠ 0 → c.enabled = false →
        exec (.clientEnable port n v) s = .next (s.updClient n fun _ => { enabled := true, weight := w, limit := l })) ∧
      (1 ≤ w → w ≤ 4096 → l ≠ 0 → c.enabled = true →
        exec (.clientEnable port n v) s = .next (s.updClient n fun c => { c with weight := w, limit := l })) ∧
      (w = 0 ∨ 4096 < w ∨ l = 0 →
        exec (.clientEnable port n v) s = .next { s with sched := { s.sched with err := true } })) ∧
    (v.getLsbD 0 = false → w ≤ 4096 →
      (c.enabled = false ∨ (∀ j ∈ s.sched.jobs, j.client ≠ n) →
        exec (.clientDisable port n v) s =
          .next (s.updClient n fun c => { c with enabled := false, weight := w, limit := l })) ∧
      (c.enabled = true → (∃ j ∈ s.sched.jobs, j.client = n) →
        exec (.clientDisable port n v) s = .next { s with sched := { s.sched with err := true } })))

/-- R183, R288, R412, R437, R438, R439, R462, R517, R529, R530: what the set-up writes with rows of their own do when the block takes
them: the view of TIR_CFG while no object exists, the hot region's size, the beacon's selection, the power cap and its
state, the quiescent state while no job runs, the clean shutdown, the update lock with its measurement, the oldest unread
record, the test pulse, and the counters cleared. -/
def Obligations.SetupWritesTakeEffect : Prop :=
  (∀ (s : State) (port : Nat) (v : Word), s.regOpen port .tir = true → s.tiers.objects = [] →
    (v.getLsbD 1 = true → v.getLsbD 0 = true) →
    exec (.tirCfg port v) s = .next { s with tiers := { s.tiers with
      flagsView := v.getLsbD 0, vitrine := v.getLsbD 1
      compress := if s.grade.hasCompression then v.getLsbD 2 else s.tiers.compress } }) ∧
  (∀ (s : State) (port : Nat) (v : Word), s.regOpen port .bcn = true → bitsAt v.toNat 0 2 ≠ 3 →
    ∃ t, exec (.bcnCfg port v) s = .next t ∧ t.beacon.cfg = bitsAt v.toNat 0 2 ∧
      (bitsAt v.toNat 0 2 ≠ s.beacon.cfg → t.beacon.supply = 3 ∧ t.beacon.agree = 0 ∧ t.beacon.aux = none) ∧
      (bitsAt v.toNat 0 2 = s.beacon.cfg → t.beacon = s.beacon) ∧
      t.test = (if bitsAt v.toNat 0 2 = 0 then s.test else { s.test with pulse := false }) ∧
      t = { s with beacon := t.beacon, test := t.test }) ∧
  (∀ (s : State) (port : Nat) (v : Word), s.regOpen port .pwr = true →
    (300 ≤ bitsAt v.toNat 0 10 → bitsAt v.toNat 0 10 ≤ 720 → s.power.state = .active ∨ s.power.state = .capped →
      exec (.pwrCap port v) s = .next { s with power := { s.power with
        cap := bitsAt v.toNat 0 10, state := if bitsAt v.toNat 0 10 < 720 then .capped else .active } }) ∧
    (bitsAt v.toNat 0 10 < 300 ∨ 720 < bitsAt v.toNat 0 10 →
      exec (.pwrCap port v) s = .next { s with power := { s.power with err := true } })) ∧
  (∀ (s : State) (port : Nat), s.regOpen port .pwr = true →
    (s.power.state = .active ∨ s.power.state = .capped ∨ s.power.state = .quiescent →
      exec (.pwrShutdownGo port) s = .next s.startShutdown) ∧
    (s.power.state = .active → (∀ j ∈ s.sched.jobs, j.state ≠ .running) →
      exec (.quiesce port) s = .next { s with power := { s.power with state := .quiescent } }) ∧
    (s.power.state = .active → (∃ j ∈ s.sched.jobs, j.state = .running) →
      exec (.quiesce port) s = .next { s with power := { s.power with err := true } })) ∧
  (∀ (s : State) (port : Nat), s.regOpen port .sec = true → s.sec.lock = false →
    exec (.updateLock port) s =
      .next (({ s with sec := { s.sec with lock := true } } : State).extend 4 0x31 0 0 (List.replicate 64 0))) ∧
  (∀ (s : State) (port : Nat) (pre post : List FaultRec) (r : FaultRec), s.regOpen port .err = true →
    s.err.log = pre ++ r :: post → (∀ q ∈ pre, q.isRead = true) → r.isRead = false →
    exec (.pop port) s = .next { s with err := { s.err with log := pre ++ { r with isRead := true } :: post } }) ∧
  (∀ (s : State) (port : Nat) (v : Word), s.regOpen port .tst = true →
    (v.getLsbD 0 = false ∨ s.beacon.cfg = 0 → exec (.tstPulseCfg port v) s = .next { s with test := { s.test with
      pulse := v.getLsbD 0, period := bitsAt v.toNat 16 16 } }) ∧
    (v.getLsbD 0 = true → s.beacon.cfg ≠ 0 →
      exec (.tstPulseCfg port v) s = .next { s with test := { s.test with err := true } }) ∧
    ∃ t, exec (.tstCtrClear port v) s = .next t ∧
      t.atr.errCnt = (if v.getLsbD 0 then List.replicate 256 0 else s.atr.errCnt) ∧
      (v.getLsbD 2 = true → t.beacon.bad = 0 ∧ t.beacon.rejected = 0 ∧ t.beacon.holdovers = 0 ∧ t.beacon.relocks = 0) ∧
      t.err.resends = (if v.getLsbD 3 then [0, 0, 0] else s.err.resends) ∧
      t.flash.channels = (if v.getLsbD 4 then List.replicate 64 {} else s.flash.channels) ∧
      t.err.drcCnt = (if v.getLsbD 5 then List.replicate 12 (0, 0, 0, 0) else s.err.drcCnt) ∧
      t.err.cluCnt = (if v.getLsbD 6 then List.replicate 68 (0, 0, 0) else s.err.cluCnt)) ∧
  (∀ (s : State) (port : Nat) (v : Word), s.regOpen port .gat = true → bitsAt v.toNat 0 9 ≤ 256 →
    ∃ t, exec (.gatHotBytes port v) s = .next t ∧ t.gather.hotUnits = bitsAt v.toNat 0 9 ∧
      t.gather.used ≤ bitsAt v.toNat 0 9 * 67108864 ∧ (∀ c ∈ t.gather.copies, c ∈ s.gather.copies) ∧
      (s.gather.used ≤ bitsAt v.toNat 0 9 * 67108864 → t.gather.copies = s.gather.copies) ∧
      t = { s with gather := { s.gather with hotUnits := t.gather.hotUnits, copies := t.gather.copies } })

/-- R527, R528: the raw media operations, accepted in SERVICE through a port while none runs, on a page that Table 12-2 names: READ
queues a read of the page at foreground priority; LEND of a good reserve unit that no location binds, while its die can spare
one, lends it; PROGRAM of the page that a lent unit's pointer admits queues its program with the window's bytes; ERASE
erases a lent unit; RETURN gives it back. -/
def Obligations.RawMediaOperationsTakeEffect : Prop :=
  ∀ (s : State) (port : Nat), s.portAccepts port = true → s.power.flush ≠ .running → s.power.phase = .service →
    s.test.busy = none → s.rawAddrOk = true →
    let d := addrDie s.test.addr
    let e := s.eunit d (addrUnit s.test.addr)
    let n := addrPage s.test.addr e.slc
    exec (.mediaRead port) s = .next
      (({ s with test := { s.test with busy := some .read } } : State).queueOp
        { die := d, kind := .read, unit := e.unit, page := n, prio := .foreground, owner := .raw }) ∧
    (e.isReserve = true → s.lunitOf? (s.grade.dieIndex d) e.unit = none → 5 ≤ s.unboundGood d → 12 ≤ s.freeCount d →
      exec (.mediaLend port) s = .next
        ((s.updEunit d e.unit fun x => { x with role := .lent }).noteProtection.rawDone .ok)) ∧
    (e.role = .lent → e.admits n = true → exec (.mediaProgram port) s = .next
      ((({ s with test := { s.test with busy := some .program } } : State).queueBlank .foreground d e).queueOp
        { die := d, kind := .program, unit := e.unit, page := n, prio := .foreground, owner := .raw
          fill := some { data := memRead s.test.window 0 65536 } })) ∧
    (e.role = .lent → e.admits n = false → exec (.mediaProgram port) s = .next
      ((s.raise { faultOf 0x0B 4 with location := physAddr d e.unit n e.slc }).rawDone .notErased)) ∧
    (e.role = .lent → e.state ≠ .bad → e.state ≠ .erasing → exec (.mediaErase port) s = .next
      (({ s with test := { s.test with busy := some .erase } } : State).startErase .raw .lent (bitAt s.test.addr 35) d e.unit)) ∧
    (e.role = .lent →
      exec (.mediaReturn port) s = .next
        (if e.state = .opened ∨ e.state = .closed ∨ e.state = .verified then
          (((s.updEunit d e.unit fun x => { x with role := .reserve }).rawDone .ok).startErase .reclaim .reserve
            false d e.unit).noteProtection
        else ((s.updEunit d e.unit fun x => { x with role := .reserve }).rawDone .ok).noteProtection))

/-- R24, R26, R28, R463, R464, Table 1-11: UNIT_CLOSE of a unit that is IN_SERVICE and leaves the minimum gives it its closure number and
the state DRAINING, a DRAM package giving up what it holds (R27, R192), or CLOSED at once where it holds no work; of a CLOSED unit it answers the closure number, of a DRAINING one it waits,
a return it stops, and one that would leave too few is refused. UNIT_RETURN of a CLOSED unit starts its self-test, whose end brings it
IN_SERVICE or leaves it CLOSED; DRAIN_COMPLETE takes a DRAINING unit that holds no work to CLOSED. -/
def Obligations.UnitsCloseAndReturn : Prop :=
  (∀ (s : State) (slot : Nat) (c : Slot) (k : UnitKind) (u : SvcUnit), Handed s slot 0x00 false c →
    kindOf (c.arg 40 1) = some k → s.namedUnit? k (c.arg 42 2) = some u →
    (u.state = .closed → exec (.unitClose slot) s = .next (s.finish slot .ok u.closure 0)) ∧
    (u.state = .draining → exec (.unitClose slot) s = .next (s.updSlot slot fun c =>
      { c with phase := .running, work := .unit k.code u.phys })) ∧
    (u.state = .returning → exec (.unitClose slot) s = .next ((s.stopReturn k u.phys).finish slot .ok u.closure 0)) ∧
    (u.state = .inService → s.leavesMinimum k u.phys = false →
      exec (.unitClose slot) s = .next (s.finish slot .invalidField 42 0)) ∧
    (u.state = .inService → s.leavesMinimum k u.phys = true →
      let t := (s.setWork slot (.unit k.code u.phys)).startDrain k u.phys
      let t := if k = .dram then t.leavePackage u.phys else t
      (∃ v, t.unit? k u.phys = some v ∧ v.state = .draining ∧ v.closure = s.nextClosure) ∧
      exec (.unitClose slot) s = .next (if t.holdsNoWork k u.phys then t.drained k u.phys else t))) ∧
  (∀ (s : State) (slot : Nat) (c : Slot) (k : UnitKind) (u : SvcUnit), Handed s slot 0x01 false c →
    kindOf (c.arg 40 1) = some k → s.closureUnit? k (c.arg 42 2) = some u →
    (u.state = .closed → ∃ t, exec (.unitReturn slot) s = .next t ∧
      t = (s.setWork slot (.unit k.code u.phys)).startReturn k u.phys ∧
      (∃ v, t.unit? k u.phys = some v ∧ v.state = .returning) ∧
      (k = .port → u.phys < s.link.ports.length → (t.port u.phys).link = .training ∧ (t.port u.phys).returning = true)) ∧
    (u.state = .returning → exec (.unitReturn slot) s = .next (s.finish slot .ok 0 0)) ∧
    (u.state = .draining → exec (.unitReturn slot) s = .next (s.finish slot .invalidField 42 0))) ∧
  (∀ (s : State) (kind p : Nat) (k : UnitKind) (u : SvcUnit), kindOf kind = some k → s.unit? k p = some u →
    u.state = .draining → (k = .reduction → p = 0) → s.holdsNoWork k p = true →
    ∃ t v, exec (.drainComplete kind p) s = .next t ∧ t = s.drained k p ∧ t.unit? k p = some v ∧ v.state = .closed) ∧
  ∀ (s : State) (kind p : Nat) (k : UnitKind) (u : SvcUnit), kindOf kind = some k → s.unit? k p = some u →
    u.state = .returning →
    (k ≠ .port ∨ (s.port p).link = .up → ∃ t v, exec (.returnSelfTestEnd kind p true) s = .next t ∧ t.unit? k p = some v ∧
      v.state = .inService ∧ v.closure = 0) ∧
    ∃ t v, exec (.returnSelfTestEnd kind p false) s = .next t ∧ t.unit? k p = some v ∧ v.state = .closed ∧
      v.closure = u.closure

/-- R465, R466, R313, R502, R503, R519, Table 17-2, Table 11-7: what the commands that only report write at the start of their result
buffer, and their RESULT: UNIT_QUERY every unit, FAULT_READ the unread records, which are read then, IDENTITY_READ the identity row
and certificate, MEASURE_READ the measurement registers and log entries, DOMAIN_QUERY the domain. -/
def Obligations.ReportingCommandsAnswer : Prop :=
  (∀ (s : State) (slot : Nat) (c : Slot), Handed s slot 0x02 true c →
    exec (.unitQuery slot) s = .next ((s.writeResult c 0 (s.units.flatMap SvcUnit.entry)).finish slot .ok s.units.length 0)) ∧
  (∀ (s : State) (slot : Nat) (c : Slot), Handed s slot 0x03 true c →
    let rs := (s.err.log.filter fun r => !r.isRead).take (c.resultLen / 48)
    ∃ log, exec (.faultRead slot) s =
        .next ((({ s with err := { s.err with log := log } } : State).writeResult c 0 (rs.flatMap FaultRec.bytes)).finish slot
          .ok rs.length 0) ∧
      log.map (·.seq) = s.err.log.map (·.seq) ∧
      log.filter (!·.isRead) = (s.err.log.filter fun r => !r.isRead).drop (c.resultLen / 48)) ∧
  (∀ (s : State) (slot : Nat) (c : Slot), Handed s slot 0x08 true c →
    exec (.identityRead slot) s =
      .next ((s.writeResult c 0 (s.identityRow ++ fitBytes 30112 s.sec.certificate)).finish slot .ok 0 0)) ∧
  (∀ (s : State) (slot : Nat) (c : Slot), Handed s slot 0x0D true c →
    let es := (s.sec.log.filter fun e => c.arg 40 4 ≤ e.seq).take ((c.resultLen - 512) / 80)
    exec (.measureRead slot) s =
      .next ((s.writeResult c 0 (s.sec.m.flatMap (fitBytes 64) ++ es.flatMap LogEntry.bytes)).finish slot .ok es.length 0)) ∧
  (∀ (s : State) (slot : Nat) (c : Slot), Handed s slot 0x64 true c →
    exec (.domainQuery slot) s = .next ((s.writeResult c 0 (s.dom (c.arg 40 1)).record).finish slot .ok 0 0)) ∧
  (∀ u : SvcUnit, u.entry.length = 8 ∧ field u.entry 0 1 = u.kind.code ∧ field u.entry 2 2 = u.phys % 65536 ∧
    field u.entry 6 2 = u.closure % 65536) ∧
  (∀ r : FaultRec, r.bytes.length = 48 ∧ field r.bytes 0 4 = r.seq % 2 ^ 32 ∧ field r.bytes 4 1 = r.cls % 256 ∧
    field r.bytes 5 1 = r.response % 256 ∧ field r.bytes 6 1 = r.unitKind % 256 ∧ field r.bytes 8 2 = r.unit % 65536 ∧
    field r.bytes 10 2 = r.closure % 65536 ∧ field r.bytes 12 4 = r.objectId % 2 ^ 32 ∧ field r.bytes 16 2 = r.version % 65536 ∧
    field r.bytes 18 2 = r.count % 65536 ∧ field r.bytes 20 4 = r.detail % 2 ^ 32 ∧ field r.bytes 24 8 = r.location % 2 ^ 64 ∧
    field r.bytes 32 8 = r.tick % 2 ^ 64) ∧
  (∀ e : LogEntry, e.bytes.length = 80 ∧ field e.bytes 0 4 = e.seq % 2 ^ 32 ∧ field e.bytes 4 1 = e.reg % 256 ∧
    field e.bytes 6 2 = e.version % 65536 ∧ field e.bytes 8 4 = e.typ % 2 ^ 32 ∧ field e.bytes 12 4 = e.obj % 2 ^ 32) ∧
  ∀ d : Domain, d.record.length = 64

/-- R501, R505, R506, R513, R514, R516, R517, R518: FW_STAGE puts its data into the staging buffer; FW_ACTIVATE waits while a signature is
being made, and of a container that passes Table 20-8 measures it and writes the serial flash, and the end of that write leaves it PENDING, tries again, or after the third
failure leaves the region invalid; ROLLBACK_ADVANCE blows the lowest unblown bits and revokes the key slots; ATTEST waits for the
signing engine, and the end of its signature writes report and signature. -/
def Obligations.SecurityCommandsTakeEffect : Prop :=
  (∀ (s : State) (slot : Nat) (c : Slot), Handed s slot 0x0A false c →
    (s.updateLocked = true ∨ s.sec.state = .writing → exec (.fwStage slot) s = .next (s.finish slot .accessDenied 0 0)) ∧
    (s.updateLocked = false → s.sec.state ≠ .writing → exec (.fwStage slot) s =
      .next (({ s with sec := { s.sec with
        staged := memWrite (if bitAt (c.arg 41 1) 0 then [] else s.sec.staged) (c.arg 44 4) (s.dataBytes c)
        target := c.arg 40 1, state := if s.sec.state = .pending then .pending else .staging } } : State).finish slot .ok
        c.dataLen 0))) ∧
  (∀ (s : State) (slot : Nat) (c : Slot), Handed s slot 0x0B false c →
    let b := memRead s.sec.staged 0 (c.arg 44 4)
    (s.sec.signing ≠ none → exec (.fwActivate slot) s = .next s) ∧ (s.sec.signing = none →
    ∃ t, exec (.fwActivate slot) s = .next t ∧
      match s.activateFault c with
      | some f => t = s.finish slot f.1 f.2 0
      | none => t.sec.state = .writing ∧ t.sec.writing = some (c.arg 40 1, b, 0, bitAt (c.arg 41 1) 0) ∧
        (s.sec.log.length < 65536 → ∃ e, t.sec.log = s.sec.log ++ [e] ∧ e.reg = 4 ∧ e.typ = 0x32 ∧ e.digest = digest64 b) ∧
        t.sec.rollback = s.sec.rollback ∧ t.sec.revoked = s.sec.revoked ∧ t.sec.firmware = s.sec.firmware ∧
        t = { s.updSlot slot (fun c => { c with phase := .running, work := .fwWrite }) with sec := t.sec } ∧
        s.containerOk (c.arg 40 1) b = true ∧ digest64 b = s.dataBytes c)) ∧
  (∀ (s : State) (target n : Nat) (b : Bytes) (restart : Bool), s.sec.writing = some (target, b, n, restart) → s.still = false →
    (∃ t, exec (.fwWriteEnd true) s = .next t ∧ t.sec.state = .pending ∧ t.sec.writing = none ∧
      t.sec.firmware = (if target = 1 then some b else s.sec.firmware) ∧
      t.sec.config = (if target = 2 then some b else s.sec.config)) ∧
    (n < 2 → exec (.fwWriteEnd false) s = .next { s with sec := { s.sec with writing := some (target, b, n + 1, restart) } }) ∧
    (2 ≤ n → ∃ t, exec (.fwWriteEnd false) s = .next t ∧ t.sec.state = .staging ∧ t.sec.writing = none ∧
      t.sec.firmware = s.sec.firmware ∧ (target = 1 → t.sec.fwInvalid = true) ∧ (target = 2 → t.sec.cfgInvalid = true))) ∧
  (∀ (s : State) (slot : Nat) (stuck : List Nat) (c : Slot), Handed s slot 0x0C false c → s.updateLocked = false →
    s.sec.state ≠ .writing →
    (s.sec.m.getD 0 [] ≠ s.dataBytes c →
      exec (.rollbackAdvance slot stuck) s = .next (s.finish slot .measurementMismatch 0 0)) ∧
    (s.sec.m.getD 0 [] = s.dataBytes c → ∃ t blown, exec (.rollbackAdvance slot stuck) s = .next t ∧
      t.sec.rollback = s.sec.rollback ++ blown ∧ (∀ i ∈ blown, i < 256 ∧ i ∉ s.sec.rollback ∧ i ∉ stuck) ∧ blown.Nodup ∧
      (∀ i < 256, i ∉ s.sec.rollback → i ∉ stuck → i ∉ blown → ∀ k ∈ blown, k < i) ∧
      s.sec.rollback.length + blown.length ≤ max s.sec.rollback.length s.sec.fwVersion ∧
      (∀ i, i ∈ t.sec.revoked ↔ i ∈ s.sec.revoked ∨ i ∈ s.sec.fwRevoke))) ∧
  (∀ (s : State) (slot : Nat) (c : Slot), Handed s slot 0x09 true c →
    (s.sec.attestOk = false → exec (.attest slot) s = .next (s.finish slot .accessDenied 0 0)) ∧
    (s.sec.attestOk = true → s.sec.signing ≠ none → exec (.attest slot) s = .next (s.setWork slot (.attest []))) ∧
    (s.sec.attestOk = true → exec (.attest slot) s = .next (s.setWork slot (.attest [])).signNext)) ∧
  ∀ (s : State) (id : Nat) (c : Slot) (r : Bytes), s.sec.signing = some id → s.slot? id = some c → c.work = .attest r →
    s.still = false → s.reachable (s.ringOf c.sq) = true →
    exec .signatureEnd s = .next
      (({ (s.writeResult c 0 (r ++ fitBytes 35664 (Config.slhSign r))).finish id .ok 0 0 with
          sec := { s.sec with signing := none } } : State).signNext)

/-- R381 to R383, R386: with its range lock granted, BLOCK_READ of a range of which nothing must come from flash writes its blocks, or
those before the first that is lost, whose offset is then RESULT; one that needs flash waits for its die reads. BLOCK_WRITE and
BLOCK_ATOMIC that nothing refuses put their data into DRAM, every block of the range dirty, and complete, or with FORCE, in
write-through, beyond the budget or without a mirror wait for flash, and what is due is written back (R210); an atomic write is kept in the
table of atomic writes; a write that is not admitted is held back.
R384, R385, R389, R391: BLOCK_TRIM makes its blocks read as zeros and unmaps the units it covers whole; BLOCK_FLUSH waits until what
was dirty of earlier commands is on flash and journalled; SELF_TEST starts a test, aborts it or answers its log, and each step of a
test counts, reports what it finds, relocates the unit it names, and ends the test when the last step or an abort is due. -/
def Obligations.BlockCommandsTakeEffect : Prop :=
  ((∀ (s : State) (slot : Nat) (c : Slot), Handed s slot 0x10 true c → s.lockGranted slot = true →
    let us := (s.flashUnits c.lba c.nblocks).filter fun u => (s.locate (s.mapEntry u)).isSome
    (us = [] → s.badBlock? c.lba c.nblocks [] = none → exec (.blockRead slot) s =
      .next ((s.writeResult c 0 (memRead s.block.data (c.lba * 4096) (c.nblocks * 4096))).finish slot .ok 0 0)) ∧
    (∀ b, us = [] → s.badBlock? c.lba c.nblocks [] = some b → exec (.blockRead slot) s =
      .next ((s.writeResult c 0 (memRead s.block.data (c.lba * 4096) ((b - c.lba) * 4096))).finish slot .mediaUncorrectable
        (b - c.lba) 0)) ∧
    (us ≠ [] → ∃ t, exec (.blockRead slot) s = .next t ∧
      t.slot? slot = some { c with phase := .running, work := .blockRead us [] } ∧
      t = { s with atr := t.atr, flash := t.flash } ∧
      ∀ u ∈ us, ∀ x ∈ s.readSlots u, ∃ o ∈ t.flash.ops,
        o.kind = .read ∧ o.owner = .command slot u ∧ o.die = x.1 ∧ o.unit = x.2.1 ∧ o.page = x.2.2)) ∧
  (∀ r ∈ ([(Instr.blockWrite, 0x11), (Instr.blockAtomic, 0x12)] : List ((Nat → Instr) × Nat)),
    ∀ (s : State) (slot : Nat) (c : Slot), Handed s slot r.2 false c → s.lockGranted slot = true →
    (∀ st, s.writeError (rangeUnits c.lba c.nblocks) (partUnits c.lba c.nblocks) = some st →
      exec (r.1 slot) s = .next (s.finish slot st 0 0)) ∧
    (s.writeError (rangeUnits c.lba c.nblocks) (partUnits c.lba c.nblocks) = none →
      s.admitsDirty (4096 * c.nblocks) = false → exec (r.1 slot) s =
        .next (s.updSlot slot fun c => { c with phase := .running, work := .held (4096 * c.nblocks) })) ∧
    (s.writeError (rangeUnits c.lba c.nblocks) (partUnits c.lba c.nblocks) = none → 0 < c.nblocks →
      s.admitsDirty (4096 * c.nblocks) = true → ∃ u : State,
        let waits := c.force = true ∨ s.tiers.writeThrough = true ∨ s.tiers.budget < 4096 * c.nblocks ∨
          ∃ d ∈ u.block.dirty, c.lba ≤ d.block ∧ d.block < c.lba + c.nblocks ∧ d.place.mirror = none
        (¬waits → exec (r.1 slot) s = .next ((u.finish slot .ok 0 0).issueStores)) ∧
        (waits → exec (r.1 slot) s = .next ((u.updSlot slot fun d =>
          { d with phase := .running, work := .flush {
            blocks := (List.range c.nblocks).map (· + c.lba), journal := true } }).issueStores)) ∧
        u = { s with block := u.block, ftl := u.ftl, tiers := u.tiers } ∧
        u.block.data = memWrite s.block.data (c.lba * 4096) (s.dataBytes c) ∧
        u.block.atomics = (if r.2 = 0x12 then s.block.atomics ++ [{ id := c.order, first := c.lba, count := c.nblocks }]
          else s.block.atomics) ∧
        (∀ b, c.lba ≤ b → b < c.lba + c.nblocks → ∃ d ∈ u.block.dirty, d.block = b) ∧
        ∀ d, (d.block < c.lba ∨ c.lba + c.nblocks ≤ d.block) → (d ∈ u.block.dirty ↔ d ∈ s.block.dirty)))) ∧
  ((∀ (s : State) (slot : Nat) (c : Slot), Handed s slot 0x14 false c → s.lockGranted slot = true →
    let parts := partUnits c.lba c.nblocks
    (∀ st, s.writeError parts parts = some st → exec (.blockTrim slot) s = .next (s.finish slot st 0 0)) ∧
    (s.writeError parts parts = none → 0 < c.nblocks → s.block.Ok → s.ftl.Ok →
      s.admitsDirty (4096 * (partBlocks c.lba c.nblocks).length) = true → ∃ (u : State) (maps : List Nat),
      exec (.blockTrim slot) s = .next (u.ackBlocks c (partBlocks c.lba c.nblocks) maps) ∧
      u.atr = s.atr ∧ u.hostMem = s.hostMem ∧ u.flash = s.flash ∧ u.tiers.objects = s.tiers.objects ∧
      (∀ a, memGet u.block.data a =
        if c.lba * 4096 ≤ a ∧ a < (c.lba + c.nblocks) * 4096 then 0 else memGet s.block.data a) ∧
      (∀ n, c.lba ≤ 16 * n → 16 * n + 16 ≤ c.lba + c.nblocks → u.mapEntry n = 0 ∧ ∀ d ∈ u.block.dirty, d.block / 16 ≠ n) ∧
      (partUnits c.lba c.nblocks = [] → c.force = false → s.tiers.writeThrough = false →
        exec (.blockTrim slot) s = .next ((u.finish slot .ok 0 0).issueStores)))) ∧
  (∀ (s : State) (slot : Nat) (c : Slot), Handed s slot 0x13 false c → s.earlierWrite c.order = false →
    let bs := (s.block.dirty.filter fun b => b.order < c.order).map (·.block)
    let ms := s.ftl.dirtyMaps.map (·.page)
    exec (.blockFlush slot) s = .next (if bs = [] ∧ ms = [] then s.finish slot .ok 0 0
      else (s.updSlot slot fun c =>
        { c with phase := .running, work := .flush { blocks := bs, maps := ms, journal := true } }).issueStores)) ∧
  (∀ (s : State) (slot : Nat) (c : Slot), Handed s slot 0x15 (c.arg 40 1 = 4) c →
    (c.arg 40 1 = 4 → exec (.selfTest slot) s = .next ((s.writeResult c 0 s.testRecord).finish slot .ok 0 0)) ∧
    (c.arg 40 1 = 3 → s.block.test.state = 1 → exec (.selfTest slot) s = .next
      (({ s with block := { s.block with test := { s.block.test with aborting := true } } } : State).finish slot .ok 0 0)) ∧
    (c.arg 40 1 = 3 → s.block.test.state ≠ 1 → exec (.selfTest slot) s = .next (s.finish slot .ok 0 0)) ∧
    (c.arg 40 1 = 1 ∨ c.arg 40 1 = 2 → s.block.test.state ≠ 1 → ∃ t, exec (.selfTest slot) s = .next t ∧
      t.slot? slot = some { c with phase := .running, work := .selfTest } ∧
      t.block.test.state = 1 ∧ t.block.test.kind = c.arg 40 1 ∧ t.block.test.stepsDone = 0 ∧ t.block.test.failures = 0 ∧
      t = { s with atr := t.atr, block := { s.block with test := t.block.test } }) ∧
    (c.arg 40 1 = 1 ∨ c.arg 40 1 = 2 → s.block.test.state = 1 →
      exec (.selfTest slot) s = .next (s.finish slot .invalidField 40 0))) ∧
  ∀ (s : State) (idle : Bool) (found : Option (Nat × Nat)) (move : Option (Die × Nat)), s.block.test.state = 1 →
    idle = true ∨ s.block.test.lastStep + 100000 ≤ s.bt → ∃ u w : State,
      u.block.test.stepsDone = s.block.test.stepsDone + 1 ∧ u.block.test.yields = s.block.test.yields + 1 ∧
      u.block.test.failures = s.block.test.failures + (if found.isSome then 1 else 0) ∧
      u.block.test.relocated = s.block.test.relocated + (if move.isSome then 1 else 0) ∧
      u.block.test.aborting = s.block.test.aborting ∧ u.block.test.stepsTotal = s.block.test.stepsTotal ∧
      u = { s with err := u.err, block := { s.block with test := u.block.test } } ∧
      (found = none → u.err = s.err) ∧
      (∀ f, found = some f → u.err = (s.raise { faultOf 0x0F 5 with location := f.2 }).err) ∧
      (move = none → w = u) ∧ (∀ x, move = some x → w = u.relocateOnce .background (u.eunit x.1 x.2)) ∧
      exec (.selfTestStep idle found move) s = .next (
        if w.block.test.aborting then w.endTest 4
        else if w.block.test.stepsTotal ≤ w.block.test.stepsDone then w.endTest (if w.block.test.failures = 0 then 2 else 3)
        else w) ∧
      ∀ k, (w.endTest k).block.test.state = k)

/-- R181, R184, R195, R198, R199, R469, R545: OBJECT_CREATE that nothing refuses makes the object with its version CURRENT, at a base that
meets no other, and answers the base; OBJECT_READ of a range that DRAM holds answers it, or what stands before its first lost page, and
reads what lies on flash alone from its dies first; OBJECT_WRITE puts its bytes into the version it names or the new BUILDING one, dirty,
and with COMMIT that version becomes CURRENT; OBJECT_RETIRE leaves the version gone, or RETIRING while it is pinned, and with VERSION 0
the ID names nothing.
R187, R199, R200, R205, R547, Table 7-5: OBJECT_MOVE pins, promotes, unpins and evicts a range, a promotion into DRAM without room waiting
for it; OBJECT_QUERY answers the object's record, or the lost-object list; OBJECT_DURABILITY changes the class; OBJECT_FLUSH waits for the
pages that were dirty at its admission. -/
def Obligations.ObjectCommandsTakeEffect : Prop :=
  ((∀ (s : State) (slot : Nat) (c : Slot), Handed s slot 0x20 true c → s.idHeld (c.arg 40 4) = false →
    let id := c.arg 40 4
    let kind := c.arg 46 1
    let tier := c.arg 47 1 / 4 % 4
    let durable := s.classOf kind (c.arg 47 1 % 4) tier
    (∀ st, s.createError kind (c.arg 48 8) tier durable = some st →
      exec (.objectCreate slot) s = .next (s.finish slot st 0 0)) ∧
    (s.createError kind (c.arg 48 8) tier durable = none → ∃ (t : State) (o : Obj) (v : Version),
      exec (.objectCreate slot) s = .next ((t.writeResult c 0 (leBytes 8 o.base ++ zeroBytes 8)).finish slot .ok 0 0) ∧
      t.obj? id = some o ∧ o.kind = kind ∧ o.size = c.arg 48 8 ∧ o.tier = tier ∧ o.durable = durable ∧ o.versions = [v] ∧
      v.num = c.arg 44 2 ∧ v.state = .current ∧ v.size = c.arg 48 8 ∧ v.data = [] ∧
      (s.tiers.flagsView = false → ∀ p ∈ s.tiers.objects, rangesMeet o.base (reserveOf kind (c.arg 48 8)) p.base p.span = false) ∧
      (∀ i, i ≠ id → t.obj? i = s.obj? i) ∧ t = { s with tiers := t.tiers, ftl := t.ftl })) ∧
  (∀ (s : State) (slot : Nat) (c : Slot) (id n : Nat) (ps : List (Nat × Nat)) (o : Obj) (v : Version),
    Handed s slot 0x22 true c → c.pins = (id, n) :: ps → s.tiers.objects.find? (·.id = id) = some o → o.ver? n = some v →
    let off := if bitAt (c.arg 46 1) 3 then c.arg 48 8 - o.base else c.arg 48 8
    let rs := s.flashReads id n [(off, c.resultLen)]
    (rs = [] → v.firstLost off c.resultLen = none → exec (.objectRead slot) s =
      .next (((s.touch id n off c.resultLen).writeResult c 0 (memRead v.data off c.resultLen)).finish slot .ok 0 0)) ∧
    (rs = [] → ∀ p, v.firstLost off c.resultLen = some p → exec (.objectRead slot) s =
      .next (((s.touch id n off c.resultLen).writeResult c 0 (memRead v.data off (p * 4096 - off))).finish slot .mediaUncorrectable
        (p * 4096 - off) 0)) ∧
    (rs ≠ [] → exec (.objectRead slot) s =
      .next ((s.updSlot slot fun d => { d with phase := .running, fetch := some rs }).pumpFetch))) ∧
  (∀ (s : State) (slot : Nat) (c : Slot) (id n off len : Nat) (o : Obj) (v : Version), Handed s slot 0x21 false c →
    s.writeAhead c = false → s.writeRange c = some (id, n, off, len) → s.tiers.objects.find? (·.id = id) = some o →
    (writeNew c.entry = true → ∀ x ∈ s.newVersionChecks o n o.size, x.1 = false) →
    (if writeNew c.entry then s.newVersion id n else s).version? id n = some v → (writeNew c.entry = false → v.impaired = false) →
    (s.protected = true → o.durable = false ∧ writeForce c.entry = false ∧ s.writesThrough o = false) →
    (o.durable = true → s.admitsDirty (4096 * (pagesOf off len).length) = true) →
    let b := s.dataBytes c
    let ps := pageList id n off b.length
    ∃ (w : State) (x : Version), w.version? id n = some x ∧ x.data = memWrite v.data off b ∧
      (∀ p ∈ pagesOf off b.length, ∃ d ∈ x.dirty, d.page = p) ∧
      (∀ i m, i ≠ id ∨ m ≠ n → (w.version? i m).map (fun y => (y.data, y.state)) = (s.version? i m).map fun y => (y.data, y.state)) ∧
      (writeCommit c.entry = false → exec (.objectWrite slot) s = .next (w.ackWrite slot o (writeForce c.entry) ps 0)) ∧
      (writeCommit c.entry = false → writeForce c.entry = false → w.writesThrough o = false →
        (o.durable = true → 4096 * ps.length ≤ w.tiers.budget ∧ ∀ p ∈ ps, w.unmirrored p = false) →
        exec (.objectWrite slot) s = .next ((w.finish slot .ok 0 0).issueStores)) ∧
      (writeCommit c.entry = true → x.state = .building → x.lost = [] → w.commitFault o x = none → ∃ (t : State) (y : Version),
        exec (.objectWrite slot) s = .next (t.ackWrite slot o (writeForce c.entry) ps 0) ∧
        t.version? id n = some y ∧ y.state = .current ∧ y.data = x.data) ∧
      (writeCommit c.entry = true → x.state = .building → x.lost ≠ [] →
        exec (.objectWrite slot) s = .next (w.finish slot .mediaUncorrectable 0 0))) ∧
  ∀ (s : State) (slot : Nat) (c : Slot) (o : Obj), Handed s slot 0x24 false c → s.obj? (c.arg 40 4) = some o →
    (c.arg 44 2 ≠ 0 → ∃ t, exec (.objectRetire slot) s = .next t ∧
      (∀ v, t.version? (c.arg 40 4) (c.arg 44 2) = some v → v.state = .retiring ∧ 0 < v.pins) ∧
      (∃ d, t.slot? slot = some d ∧ d.phase = .done)) ∧
    (c.arg 44 2 = 0 → ∃ t, exec (.objectRetire slot) s = .next t ∧ t.obj? (c.arg 40 4) = none ∧
      ∃ d, t.slot? slot = some d ∧ d.phase = .done)) ∧
  ((∀ (s : State) (slot : Nat) (c : Slot) (id n : Nat) (ps : List (Nat × Nat)) (o : Obj), Handed s slot 0x23 false c →
    c.pins = (id, n) :: ps → s.tiers.objects.find? (·.id = id) = some o →
    let tier := c.arg 47 1
    let us := unitsOf (c.arg 48 8) (c.arg 56 4)
    (c.arg 46 1 = 0 ∨ c.arg 46 1 = 2 →
      (tier = 2 → s.tier2Units + (us.filter fun u => !(o.inSlc n u)).length ≤ s.tier2Limit) →
      (c.arg 46 1 = 2 → tier = 1 → s.pinnedDram id n us * 65536 ≤ s.grade.dramBytes / 2) →
      (tier ≠ 1 ∨ (s.promoteUnits id n tier us).1 = true → ∃ (t : State) (p : Obj),
        (tier = 1 → exec (.objectMove slot) s = .next (t.finish slot .ok 0 0) ∧ t = { s with tiers := t.tiers }) ∧
        (tier ≠ 1 → exec (.objectMove slot) s = .next (t.awaitMoves slot [] (t.homeLuns id n us))) ∧
        t.tiers.objects.find? (·.id = id) = some p ∧
        (tier ≠ 1 → ∀ u ∈ us, p.inSlc n u = decide (tier = 2)) ∧
        (c.arg 46 1 = 2 → ∀ u ∈ us, ⟨.host, n, u, tier⟩ ∈ p.refs)) ∧
      (tier = 1 → (s.promoteUnits id n tier us).1 = false → exec (.objectMove slot) s =
        .next ((s.promoteUnits id n tier us).2.updSlot slot fun d => { d with phase := .running, work := .move s.bt }))) ∧
    (c.arg 46 1 = 0 ∨ c.arg 46 1 = 2 → tier = 2 → s.tier2Limit < s.tier2Units + (us.filter fun u => !(o.inSlc n u)).length →
      exec (.objectMove slot) s = .next (s.finish slot .capacityExhausted 0 0)) ∧
    (c.arg 46 1 = 3 → ∃ t : State, exec (.objectMove slot) s = .next (t.finish slot .ok 0 0) ∧
      ∀ p ∈ t.tiers.objects, p.id = id → ∀ r ∈ p.refs, ¬(r.who = .host ∧ r.ver = n ∧ r.tier = tier ∧ r.unit ∈ us)) ∧
    (c.arg 46 1 = 1 → ∃ t : State,
      exec (.objectMove slot) s = .next (t.awaitMoves slot (t.evictPages .host id n us) (t.homeLuns id n us)) ∧
      ∀ p ∈ t.tiers.objects, p.id = id → ∀ r ∈ p.refs, ¬(r.who = .host ∧ r.ver = n ∧ r.unit ∈ us))) ∧
  (∀ (s : State) (slot : Nat) (c : Slot), Handed s slot 0x25 true c →
    (c.arg 40 4 = 0 →
      let ids := s.tiers.lostList.take (c.resultLen / 4)
      exec (.objectQuery slot) s = .next ((s.writeResult c 0 (ids.flatMap (leBytes 4))).finish slot .ok ids.length 0)) ∧
    (∀ o, c.arg 40 4 ≠ 0 → s.obj? (c.arg 40 4) = some o →
      exec (.objectQuery slot) s = .next ((s.writeResult c 0 (s.objectRecord o)).finish slot .ok 0 0))) ∧
  (∀ (s : State) (o : Obj), (s.objectRecord o).length = 64 ∧ field (s.objectRecord o) 0 4 = o.id % 2 ^ 32 ∧
    field (s.objectRecord o) 4 1 = o.kind % 256 ∧ field (s.objectRecord o) 8 8 = o.size % 2 ^ 64) ∧
  (∀ (s : State) (slot : Nat) (c : Slot) (o : Obj), Handed s slot 0x26 false c → s.obj? (c.arg 40 4) = some o →
    (∀ v, o.current? = some v → v.impaired = false) →
    (c.arg 44 1 = 1 → o.durable = false → 4 * o.rewriteSize ≤ s.tiers.budget →
      s.admitsDirty (4096 * o.dirtyPages) = true →
      ∃ (t : State) (p : Obj), exec (.objectDurability slot) s = .next (t.ackWrite slot { o with durable := true } false o.dirtyList 0) ∧
        t.obj? (c.arg 40 4) = some p ∧ p = { o with durable := true, versions := p.versions } ∧
        p.versions.map (·.data) = o.versions.map (·.data) ∧ t = { s with tiers := t.tiers } ∧
        (t.writesThrough { o with durable := true } = false → 4096 * o.dirtyList.length ≤ s.tiers.budget →
          (∀ x ∈ o.dirtyList, t.unmirrored x = false) →
          exec (.objectDurability slot) s = .next ((t.finish slot .ok 0 0).issueStores))) ∧
    (c.arg 44 1 = 1 → o.durable = false → s.tiers.budget < 4 * o.rewriteSize →
      exec (.objectDurability slot) s = .next (s.finish slot .budgetExceeded 0 0)) ∧
    (c.arg 44 1 = 2 → o.durable = true → ∃ (t : State) (p : Obj),
      exec (.objectDurability slot) s = .next (t.finish slot .ok 0 0) ∧
      t.obj? (c.arg 40 4) = some p ∧ p = { o with durable := false, versions := p.versions } ∧
      p.versions.map (·.data) = o.versions.map (·.data) ∧ (∀ v ∈ p.versions, ∀ d ∈ v.dirty, d.place.mirror = none) ∧
      t = { s with tiers := t.tiers })) ∧
  (∀ (s : State) (n order : Nat) (e : Bytes) (sp : OpSpec), field e 0 1 = 0x27 → (s.newSlot n order e sp).work = .flush
    { pages := (s.tiers.objects.filter fun o => if field e 40 4 = 0 then o.durable else o.id = field e 40 4).flatMap Obj.dirtyList
      blocks := if field e 40 4 = 0 then s.block.dirty.map (·.block) else [] }) ∧
  ∀ (s : State) (slot : Nat) (c : Slot) (w : FlushWork), Handed s slot 0x27 false c → c.work = .flush w →
    let ps := s.stillDirty w.pages
    (ps = [] → w.blocks = [] → exec (.objectFlush slot) s = .next (s.finish slot .ok 0 0)) ∧
    (ps ≠ [] ∨ w.blocks ≠ [] → exec (.objectFlush slot) s = .next (((s.startWriteback ps).updSlot slot fun d =>
      { d with phase := .running, work := .flush { pages := ps, blocks := w.blocks } }).issueStores)))

/-- R150, R153, R154, R162, R163, R545: PROGRAM_LOAD of an image that fails a check of Table 5-11 answers the check and its offset and
stores nothing; of one that passes it stores the image as the object's CURRENT version, answers the load report, and completes as a write
of the version's pages does, or waits in its slot for room in D. The job of a JOB_RUN waits from the admission of its command, and with
the command's execution takes its program, bindings and parameters and can start. -/
def Obligations.ProgramsAreLoadedAndRun : Prop :=
  (∀ (s : State) (slot : Nat) (c : Slot), Handed s slot 0x30 true c →
    let b := s.dataBytes c
    let id := c.arg 40 4
    let n := c.arg 44 2
    (∀ k off, imageFault b = some (k, off) → exec (.programLoad slot) s =
      .next ((s.writeResult c 0 (loadReport k off 0 [])).finish slot (if k = 2 then .invalidLength else .invalidField)
        (if k = 2 then 24 else 16) 0)) ∧
    (∀ st r, imageFault b = none → s.programError id n (imageSize b.length) = some (st, r) →
      exec (.programLoad slot) s = .next (s.finish slot st r 0)) ∧
    (imageFault b = none → s.programError id n (imageSize b.length) = none →
      (s.obj? id = none ∨ ∃ o, s.obj? id = some o ∧ o.durable = true) → s.admitsDirty (imageSize b.length) = false →
      exec (.programLoad slot) s = .next (s.updSlot slot fun d =>
        { d with phase := .running, work := .held (imageSize b.length) })) ∧
    (imageFault b = none → s.programError id n (imageSize b.length) = none →
      (∀ o, s.obj? id = some o → o.durable = true → s.admitsDirty (imageSize b.length) = true) →
      (s.obj? id = none → s.admitsDirty (imageSize b.length) = true) →
      ∃ (t : State) (o : Obj) (v : Version),
        exec (.programLoad slot) s = .next (t.ackWrite slot o false (pageList id n 0 (imageSize b.length)) 0) ∧
        t.obj? id = some o ∧ o.ver? n = some v ∧ v.state = .current ∧
        v.size = imageSize b.length ∧ v.data = memWrite [] 0 (fitBytes (imageSize b.length) b) ∧ v.image = some (parseImage b) ∧
        (∀ i m, i ≠ id → (t.version? i m).map (fun y => (y.data, y.state)) = (s.version? i m).map fun y => (y.data, y.state)) ∧
        (t.writesThrough o = false → (o.durable = true → imageSize b.length ≤ t.tiers.budget ∧
            ∀ p ∈ pageList id n 0 (imageSize b.length), t.unmirrored p = false) →
          exec (.programLoad slot) s = .next ((t.finish slot .ok 0 0).issueStores)))) ∧
  (∀ k off save m, (loadReport k off save m).length = 64 ∧ field (loadReport k off save m) 0 4 = k % 2 ^ 32 ∧
    field (loadReport k off save m) 4 4 = off % 2 ^ 32 ∧ field (loadReport k off save m) 8 4 = save % 2 ^ 32) ∧
  (∀ (s : State) (n order : Nat) (e : Bytes) (sp : OpSpec), field e 0 1 = 0x31 → ∃ j ∈ (s.accept n order e sp).sched.jobs,
    j.id = s.sched.nextJob ∧ j.slot = s.atr.nextSlot ∧ j.kind = .run ∧ j.client = field e 8 2 ∧ j.order = order ∧
    j.need = field e 46 2 ∧ j.state = .waiting ∧ j.started = false ∧ j.ready = false ∧ j.waitSince = s.bt) ∧
  ∀ (s : State) (slot : Nat) (c : Slot) (p : Nat × Nat) (bound : List (Nat × Nat)) (g : Image) (j : Job), Handed s slot 0x31 true c →
    c.pins = p :: bound → s.image? p.1 p.2 = some g → s.jobOf? slot = some j → ∃ (t : State) (k : Job),
      exec (.jobRun slot) s = .next t ∧
      k = { j with prog := p.1, progVer := p.2, image := some g, bindings := k.bindings
                   params := slice (s.dataBytes c) (8 * g.slots) g.paramLen, syncBlocks := g.syncBlocks, ready := true } ∧
      k.bindings.map (fun b => (b.obj, b.ver)) = bound.take g.slots ∧
      t.sched.jobs = s.sched.jobs.map (fun x => if x.id = j.id then k else x) ∧
      t.slot? slot = some { c with phase := .running, work := .job } ∧
      t = { s with atr := t.atr, sched := t.sched, tiers := t.tiers, sec := t.sec }

/-- R216, R228, R229, R233, R274, Table 8-10: INDEX_CREATE and TABLE_CREATE make their object with a BUILDING version; ACCESSION of
entries that pass appends them to the current version's list with the next sequence numbers, and completes with the last of
them, its entries visible; INDEX_QUERY and TABLE_QUERY answer their records.
R221, R239, R241 to R249: a search whose queries come with it is answered in the step, each query by its class over the snapshot;
with an encoder, a reranker, or on the E grade, it goes on as a job; KERNEL_LOAD of a kernel that passes stores and measures it;
ACCESSION_MERGE begins a version and a job, and MERGE_COMMIT makes that version CURRENT with the later entries carried over. -/
def Obligations.SearchCommandsTakeEffect : Prop :=
  ((∀ r ∈ ([(Instr.indexCreate, 0x40, 3), (Instr.tableCreate, 0x50, 4)] : List ((Nat → Instr) × Nat × Nat)),
    ∀ (s : State) (slot : Nat) (c : Slot), Handed s slot r.2.1 true c → s.idHeld (c.arg 40 4) = false →
    let tier := c.arg 46 1 / 4 % 4
    let durable := s.classOf r.2.2 (c.arg 46 1 % 4) tier
    let many := (s.tiers.objects.filter fun o => o.kind = r.2.2).length
    (4096 ≤ many → exec (r.1 slot) s = .next (s.finish slot .capacityExhausted 0 0)) ∧
    (∀ st, many < 4096 → s.createError r.2.2 (c.arg 48 8) tier durable = some st →
      exec (r.1 slot) s = .next (s.finish slot st 0 0)) ∧
    (many < 4096 → s.createError r.2.2 (c.arg 48 8) tier durable = none → ∃ (t : State) (o : Obj) (v : Version),
      exec (r.1 slot) s = .next ((t.writeResult c 0 (leBytes 8 o.base ++ zeroBytes 8)).finish slot .ok 0 0) ∧
      t.obj? (c.arg 40 4) = some o ∧ o.kind = r.2.2 ∧ o.size = c.arg 48 8 ∧ o.durable = durable ∧ o.versions = [v] ∧
      v.num = c.arg 44 2 ∧ v.state = .building ∧ v.data = [] ∧ t = { s with tiers := t.tiers, ftl := t.ftl })) ∧
  (∀ (s : State) (slot : Nat) (c : Slot) (o : Obj) (v : Version), Handed s slot 0x41 false c → s.accessionAhead c = false →
    s.obj? (c.arg 40 4) = some o → o.current? = some v → v.impaired = false → c.dataLen = c.arg 46 2 * v.indexHdr.entryStride →
    (∀ b ∈ chunksOf v.indexHdr.entryStride (c.arg 46 2) (s.dataBytes c), entryOk v.indexHdr b = true) →
    v.index.entries.length + c.arg 46 2 ≤ 16777216 →
    ceilDiv (v.listBytes + c.arg 46 2 * v.indexHdr.entryStride) 65536 - ceilDiv v.listBytes 65536 ≤ s.freeUnits →
    (o.durable = false ∨ s.protected = false) →
    let es := (chunksOf v.indexHdr.entryStride (c.arg 46 2) (s.dataBytes c)).mapIdx fun i b =>
      decodeEntry v.indexHdr b (v.index.entries.length + i + 1)
    let bytes := (es.map AccEntry.bytes).foldl (· + ·) 0
    let pages := (pagesOf (v.listBase + v.listBytes) bytes).length
    (es.map (·.seq) = (List.range es.length).map (· + (v.index.entries.length + 1))) ∧
    (o.durable = true → s.admitsDirty (4096 * pages) = false → exec (.accession slot) s = .next (s.updSlot slot fun d =>
      { d with phase := .running, work := .held (4096 * pages) })) ∧
    ((o.durable = true → s.admitsDirty (4096 * pages) = true) → ∃ (t u : State) (p : Obj) (x : Version),
      t.obj? (c.arg 40 4) = some p ∧ p.accessing = some slot ∧ p.current? = some x ∧ x.index.entries = v.index.entries ++ es ∧
      x.index.committed = v.index.committed ∧
      x.data = memWrite v.data (v.listBase + v.listBytes) (es.flatMap AccEntry.store) ∧
      u = t.ackWrite slot p (p.durable && t.tiers.budget < 4 * p.rewriteSize)
        (pageList o.id v.num (v.listBase + v.listBytes) bytes) (v.index.entries.length + c.arg 46 2) ∧
      ((∀ d, u.slot? slot = some d → d.phase ≠ .done) → exec (.accession slot) s = .next u) ∧
      (∀ d, u.slot? slot = some d → d.phase = .done →
        exec (.accession slot) s = .next (u.accessionDone c (v.index.entries.length + c.arg 46 2))))) ∧
  (∀ (s : State) (c : Slot) (last : Nat) (o : Obj) (v : Version), c.opcode = 0x41 → s.obj? (c.arg 40 4) = some o →
    o.current? = some v → ∃ (p : Obj) (x : Version), (s.accessionDone c last).obj? (c.arg 40 4) = some p ∧ p.accessing = none ∧
      p.current? = some x ∧ x = { v with index := { v.index with committed := last } }) ∧
  (∀ (s : State) (slot : Nat) (c : Slot) (o : Obj), Handed s slot 0x46 true c → s.obj? (c.arg 40 4) = some o →
    exec (.indexQuery slot) s = .next ((s.writeResult c 0 (indexRecord o)).finish slot .ok 0 0)) ∧
  (∀ (s : State) (slot : Nat) (c : Slot) (o : Obj), Handed s slot 0x53 true c → s.obj? (c.arg 40 4) = some o →
    exec (.tableQuery slot) s = .next ((s.writeResult c 0 (s.tableRecord o)).finish slot .ok 0 0)) ∧
  (∀ o : Obj, (indexRecord o).length = 64) ∧ ∀ (s : State) (o : Obj), (s.tableRecord o).length = 64) ∧
  ((∀ r ∈ ([(Instr.searchD, 0x42), (Instr.searchX, 0x43)] : List ((Nat → Instr) × Nat)),
    ∀ (s : State) (slot : Nat) (c : Slot) (w : SearchWork) (x : SearchCtx), Handed s slot r.2 true c → c.work = .search w →
    let b := s.dataBytes c
    let p := decodeSearch b
    s.queriesRunning + p.nq ≤ 512 → s.searchCtx c p w = some x →
    let qs := (List.range p.nq).map fun i => slice b (64 + 16 * p.nterms + i * x.hdr.vecStride) x.hdr.vecStride
    let one := fun q : Bytes => if r.2 = 0x42 then x.classD p (x.hdr.codes q) else x.classX p (x.hdr.codes q)
    (p.encode = false → s.grade.hasDistance = true → x.ver.impaired = false → p.rerank = false →
      exec (r.1 slot) s =
        .next (s.finishSearch c p { w with queries := qs, results := qs.map one } (keyType x.kernel x.hdr.fmt))) ∧
    (p.encode = false → s.grade.hasDistance = true → x.ver.impaired = true →
      exec (r.1 slot) s = .next (s.failSearch c p { w with queries := qs } .objectImpaired)) ∧
    (p.encode = false → s.grade.hasDistance = true → x.ver.impaired = false → p.rerank = true → ∃ t,
      exec (r.1 slot) s = .next t ∧ t.slot? slot = some { c with
        phase := .running, work := .search { w with queries := qs, results := qs.map one, stage := 2 } }) ∧
    (p.encode = false → s.grade.hasDistance = false → ∃ (t : State) (j : Job), exec (r.1 slot) s = .next t ∧
      t.slot? slot = some { c with phase := .running, work := .search { w with queries := qs, stage := 1 } } ∧
      t.sched.jobs.getLast? = some j ∧ j.kind = .distance ∧ j.client = c.client ∧ j.slot = slot) ∧
    (p.encode = true → ∃ t, exec (r.1 slot) s = .next t ∧
      t.slot? slot = some { c with phase := .running, work := .search { w with stage := 0 } })) ∧
  (∀ (s : State) (slot : Nat) (c : Slot), Handed s slot 0x45 false c →
    let b := s.dataBytes c
    let n := c.arg 40 1
    (kernelLengthOk b = false → exec (.kernelLoad slot) s = .next (s.finish slot .invalidLength 24 0)) ∧
    (kernelLengthOk b = true → kernelFieldsOk b = false → exec (.kernelLoad slot) s = .next (s.finish slot .invalidField 16 0)) ∧
    (kernelLengthOk b = true → kernelFieldsOk b = true → s.kernelInUse n = true →
      exec (.kernelLoad slot) s = .next (s.finish slot .invalidField 40 0)) ∧
    (kernelLengthOk b = true → kernelFieldsOk b = true → s.kernelInUse n = false → n < 64 → ∃ t : State,
      exec (.kernelLoad slot) s = .next (t.finish slot .ok 0 0) ∧ t = { s with search := t.search, sec := t.sec } ∧
      t.search.kernels.length = 64 ∧ t.search.kernels.getD n [] = b ∧
      (∀ i, i ≠ n → i < 64 → t.search.kernels.getD i [] = s.search.kernels.getD i []) ∧
      t.sec.m = updAt 3 (fun m => extendM m 0x21 (digest64 b)) s.sec.m)) ∧
  (∀ (s : State) (slot q : Nat) (c : Slot) (ps : List (Nat × Nat)) (o : Obj) (v : Version), Handed s slot 0x44 false c →
    s.obj? (c.arg 40 4) = some o → c.pins = (c.arg 40 4, q) :: ps → o.ver? q = some v →
    let live := (v.liveVectors (v.snap v.index.committed)).length
    (v.state ≠ .current → exec (.accessionMerge slot) s = .next (s.finish slot .versionRetired 0 0)) ∧
    (v.state = .current → (∀ x ∈ s.newVersionChecks o (c.arg 44 2) o.size, x.1 = false) → v.impaired = false →
      (if v.indexHdr.graph then 2 else 1) ≤ live → (v.indexHdr.merged live []).end_ ≤ o.size →
      (o.durable = false ∨ s.protected = false) → ∃ (t : State) (j : Job) (p : Obj) (x : Version),
        exec (.accessionMerge slot) s = .next t ∧
        t.slot? slot = some { c with
          phase := .running, work := .merge (c.arg 44 2) v.index.committed .working
          pins := c.pins ++ [(c.arg 40 4, c.arg 44 2)] } ∧
        t.sched.jobs.getLast? = some j ∧ j.kind = .merge ∧ j.client = c.client ∧ j.slot = slot ∧
        t.obj? (c.arg 40 4) = some p ∧ p.merging = true ∧ p.ver? (c.arg 44 2) = some x ∧ x.state = .building ∧ x.pins = 1)) ∧
  ∀ (s : State) (slot n at_ : Nat) (c : Slot) (o : Obj) (v w : Version), s.slot? slot = some c → c.phase = .running →
    c.work = .merge n at_ .built → s.obj? (c.arg 40 4) = some o → o.current? = some v → o.ver? n = some w →
    o.accessing = none → w.dirty = [] → w.state = .building →
    let es := (v.index.entries.filter fun a => at_ < a.seq).mapIdx fun i a => { a with seq := i + 1 }
    let ps := pageList (c.arg 40 4) n w.listBase (es.flatMap AccEntry.store).length
    (w.impaired = false → w.lost = [] → (o.durable = true → s.admitsDirty (4096 * ps.length) = true) →
      ∃ (t : State) (p : Obj) (x : Version), exec (.mergeCommit slot) s = .next (t.ackWrite slot p false ps 0) ∧
        t.obj? (c.arg 40 4) = some p ∧ p.merging = false ∧ p.ver? n = some x ∧ x.state = .current ∧
        x.index = { entries := es, committed := es.length } ∧
        (t.writesThrough p = false → (p.durable = true → 4096 * ps.length ≤ t.tiers.budget ∧ ∀ q ∈ ps, t.unmirrored q = false) →
          exec (.mergeCommit slot) s = .next ((t.finish slot .ok 0 0).issueStores))) ∧
    (w.impaired = true ∨ w.lost ≠ [] → ∃ t, exec (.mergeCommit slot) s = .next t ∧
      ∃ d, t.slot? slot = some d ∧ d.phase = .done))

/-- R282 to R289: GATHER and GATHER_PREFETCH begin, while fewer than eight of their kind execute and none waits before them, with
their index list checked, and read the rows of their first batch step that DRAM does not hold; a step whose reads have ended takes
every distinct row once, and writes the positions of the step, after the last with the record; of a prefetch it stages them; HOT_DECAY
halves every count, and protection expires.
R253, R254, R258 to R260, R262, R268, R269: FOLIO_CREATE makes the folio with its header and no tokens; FOLIO_APPEND that fills no
block writes its tokens and the new count, one that fills a block has a job seal it first; FOLIO_TRUNCATE lowers the count;
FOLIO_ATTEND runs as a job on `ATT_CLUSTERS` clusters; FOLIO_RELOAD answers the rows or blocks of its range; both read first what lies on
flash alone. -/
def Obligations.GathersAndFoliosTakeEffect : Prop :=
  ((∀ r ∈ ([(Instr.gather, 0x51, true), (Instr.gatherPrefetch, 0x52, false)] : List ((Nat → Instr) × Nat × Bool)),
    ∀ (s : State) (slot : Nat) (c : Slot) (id n : Nat) (ps : List (Nat × Nat)) (v : Version), Handed s slot r.2.1 r.2.2 c →
    (s.atr.slots.filter fun d => d.opcode = r.2.1 && d.phase = .running).length < 8 →
    (∀ d ∈ s.atr.slots, d.opcode = r.2.1 → d.phase = .handed → c.order ≤ d.order) →
    c.pins = (id, n) :: ps → s.version? id n = some v → v.impaired = false →
    let ws := (chunksOf 8 (c.arg 48 4) (s.dataBytes c)).map leNat
    (∀ i, badIndex v.tableHdr.logical ws = some i → exec (r.1 slot) s = .next (s.finish slot .outOfRange i 0)) ∧
    (badIndex v.tableHdr.logical ws = none → exec (r.1 slot) s = .next (s.startStep slot id n v.tableHdr { indices := ws }))) ∧
  (∀ (s : State) (slot id n : Nat) (h : TableHdr) (w : GatherWork),
    let now := (w.indices.drop w.pos).take (stepLength [] (w.indices.drop w.pos))
    let cold := ((now.eraseDups.flatMap h.rowsOf).eraseDups).filter fun p => !(s.gather.copies.any (·.isRow id n p.1 p.2))
    s.startStep slot id n h w = (s.updSlot slot fun d =>
      { d with phase := .running, work := .gather w
               fetch := some ((s.setWork slot (.gather w)).flashReads id n
                 (cold.map fun p => (h.rowAt p.1 p.2, h.stride (h.region p.1).2))) }).pumpFetch) ∧
  (∀ (s : State) (slot id n : Nat) (c : Slot) (ps : List (Nat × Nat)) (v : Version) (w : GatherWork), s.slot? slot = some c →
    c.phase = .running → c.work = .gather w → c.pins = (id, n) :: ps → s.still = false → c.fetching = [] →
    s.haltedBy (.slot slot) = false → (c.opcode = 0x51 → s.reachable (s.ringOf c.sq) = true) → s.version? id n = some v → v.impaired = false →
    let h := v.tableHdr
    let now := (w.indices.drop w.pos).take (stepLength [] (w.indices.drop w.pos))
    let rows := (now.eraseDups.flatMap h.rowsOf).eraseDups
    let size := h.rowBytes (c.arg 46 1)
    (rows.all (fun p => (v.firstLost (h.rowAt p.1 p.2) (h.stride (h.region p.1).2)).isNone) = true → ∃ (u : State) (k : GatherWork),
      u = { s with gather := u.gather, tiers := u.tiers } ∧ k.indices = w.indices ∧ k.pos = w.pos + now.length ∧
      k.steps = w.steps + 1 ∧ k.fetched = w.fetched + rows.length ∧
      (c.opcode = 0x51 → k.pos < w.indices.length → exec (.gatherStepEnd slot) s =
        .next ((u.writeResult c (w.pos * size) (now.flatMap fun i => (h.deliver v (c.arg 46 1) i).1)).startStep slot id n h k)) ∧
      (c.opcode = 0x51 → w.indices.length ≤ k.pos → exec (.gatherStepEnd slot) s =
        .next (((u.writeResult c (w.pos * size) (now.flatMap fun i => (h.deliver v (c.arg 46 1) i).1)).writeResult c
          (k.pos * size) k.record).finish slot .ok k.pos 0)) ∧
      (c.opcode = 0x52 → w.indices.length ≤ k.pos → exec (.gatherStepEnd slot) s = .next (u.finish slot .ok k.staged 0)) ∧
      (c.opcode = 0x52 → k.pos < w.indices.length → exec (.gatherStepEnd slot) s = .next (u.startStep slot id n h k))) ∧
    (rows.any (fun p => (v.firstLost (h.rowAt p.1 p.2) (h.stride (h.region p.1).2)).isSome) = true → c.opcode = 0x51 →
      exec (.gatherStepEnd slot) s = .next ((s.impair id n).finish slot .objectImpaired w.pos 0))) ∧
  (∀ s : State, s.gather.decayed + 1000000 ≤ s.bt → exec .hotDecay s = .next { s with gather := { s.gather with
    decayed := s.gather.decayed + 1000000, tracker := s.gather.tracker.map fun t => { t with count := t.count / 2 } } }) ∧
  ∀ s : State, ∃ t, exec .prefetchProtectExpiry s = .next t ∧ t = { s with gather := { s.gather with copies := t.gather.copies } } ∧
    t.gather.copies.map (fun c => (c.table, c.ver, c.comp, c.row, c.bytes)) =
      s.gather.copies.map (fun c => (c.table, c.ver, c.comp, c.row, c.bytes)) ∧
    ∀ c ∈ t.gather.copies, ∀ g, c.guardUntil = some g → s.bt < g) ∧
  ((∀ (s : State) (slot : Nat) (c : Slot), Handed s slot 0x58 true c → s.idHeld (c.arg 40 4) = false →
    let f := folioOfArgs c.entry
    let tier := c.arg 47 1 / 4 % 4
    let durable := s.classOf 5 (c.arg 47 1 % 4) tier
    let many := (s.tiers.objects.filter fun o => o.kind = 5).length
    (∀ st, many < 16777216 → s.createError 5 f.size tier durable = some st →
      exec (.folioCreate slot) s = .next (s.finish slot st 0 0)) ∧
    (many < 16777216 → s.createError 5 f.size tier durable = none → durable = true → s.admitsDirty 4096 = false →
      exec (.folioCreate slot) s = .next (s.updSlot slot fun d => { d with phase := .running, work := .held 4096 })) ∧
    (many < 16777216 → s.createError 5 f.size tier durable = none → (durable = true → s.admitsDirty 4096 = true) →
      ∃ (t : State) (o : Obj) (v : Version), exec (.folioCreate slot) s =
        .next ((t.writeResult c 0 (leBytes 8 o.base ++ leBytes 8 f.size)).ackWrite slot o false
          (pageList (c.arg 40 4) 1 0 4096) 0) ∧
        t.obj? (c.arg 40 4) = some o ∧ o.kind = 5 ∧ o.size = f.size ∧ o.durable = durable ∧ o.versions = [v] ∧ v.num = 1 ∧
        v.state = .current ∧ v.data = memWrite [] 0 f.bytes ∧ (∃ d ∈ v.dirty, d.page = 0))) ∧
  (∀ (s : State) (slot id n : Nat) (c : Slot) (ps : List (Nat × Nat)) (o : Obj) (v : Version),
    c.pins = (id, n) :: ps → s.tiers.objects.find? (·.id = id) = some o → o.ver? n = some v → v.impaired = false →
    let f := v.folioHdr
    (Handed s slot 0x59 false c → 128 * f.blocks < f.tokens + c.arg 48 4 →
      exec (.folioAppend slot) s = .next (s.finish slot .outOfRange 0 0)) ∧
    (Handed s slot 0x59 false c → f.tokens + c.arg 48 4 ≤ 128 * f.blocks → (o.durable = false ∨ s.protected = false) →
      (f.tokens + c.arg 48 4) / 128 = f.tokens / 128 →
      let qs := f.appendPages id n (c.arg 48 4)
      let head := (FolioHdr.bytes { f with tokens := f.tokens + c.arg 48 4, nan := f.nan || anyNanBf16 (s.dataBytes c) }).take 64
      (o.durable = true → s.admitsDirty (4096 * (qs.length + 1)) = false → exec (.folioAppend slot) s =
        .next (s.updSlot slot fun d => { d with phase := .running, work := .held (4096 * (qs.length + 1)) })) ∧
      ((o.durable = true → s.admitsDirty (4096 * (qs.length + 1)) = true) → ∃ (t : State) (x y : Version),
        t.version? id n = some x ∧ (t.writeVersion id n 0 head).version? id n = some y ∧
        x.data = (f.appendRanges (c.arg 48 4)).foldl (fun m r =>
          memWrite m r.1 (memRead (f.appended (c.arg 48 4) (s.dataBytes c) v.data) r.1 r.2)) v.data ∧
        y.data = memWrite x.data 0 head ∧
        (t.writesThrough o = true → exec (.folioAppend slot) s =
          .next (t.awaitFlash slot qs [] [] (t.journalsFirst o) (f.tokens + c.arg 48 4))) ∧
        (t.writesThrough o = false → exec (.folioAppend slot) s =
          .next ((t.writeVersion id n 0 head).ackWrite slot o false ((id, n, 0) :: qs) (f.tokens + c.arg 48 4))))) ∧
    (Handed s slot 0x59 false c → f.tokens + c.arg 48 4 ≤ 128 * f.blocks → (o.durable = false ∨ s.protected = false) →
      (f.tokens + c.arg 48 4) / 128 ≠ f.tokens / 128 → ∃ (t : State) (j : Job), exec (.folioAppend slot) s = .next t ∧
        t.slot? slot = some { c with phase := .running, work := .folio (f.tokens + c.arg 48 4) } ∧
        t.sched.jobs.getLast? = some j ∧ j.kind = .seal ∧ j.client = c.client ∧ j.slot = slot) ∧
    (Handed s slot 0x5C false c → 0 < c.arg 48 4 → c.arg 48 4 ≤ f.tokens →
      c.arg 48 4 % 128 = 0 ∨ f.tokens / 128 * 128 ≤ c.arg 48 4 → (o.durable = false ∨ s.protected = false) →
      (o.durable = true → s.admitsDirty 4096 = true) → ∃ (t : State) (x : Version),
        exec (.folioTruncate slot) s = .next (t.ackWrite slot o false [(id, n, 0)] (c.arg 48 4)) ∧ t.version? id n = some x ∧
        x.data = memWrite v.data 20 (leBytes 4 (c.arg 48 4))) ∧
    (Handed s slot 0x5C false c → f.tokens < c.arg 48 4 →
      exec (.folioTruncate slot) s = .next (s.finish slot .invalidField 48 0)) ∧
    (Handed s slot 0x5A true c → f.tokens < c.arg 52 4 + c.arg 56 4 →
      exec (.folioAttend slot) s = .next (s.finish slot .outOfRange 0 0)) ∧
    (Handed s slot 0x5A true c → c.arg 52 4 + c.arg 56 4 ≤ f.tokens → s.attendsRunning < 64 →
      s.flashReads id n (f.reads c) ≠ [] → exec (.folioAttend slot) s = .next ((s.updSlot slot fun d =>
        { d with phase := .running, fetch := some (s.flashReads id n (f.reads c)) }).pumpFetch)) ∧
    (Handed s slot 0x5A true c → c.arg 52 4 + c.arg 56 4 ≤ f.tokens → s.attendsRunning < 64 →
      s.flashReads id n (f.reads c) = [] → ∃ (t : State) (j : Job), exec (.folioAttend slot) s = .next t ∧ t.slot? slot = some { c with phase := .running, work := .folio 0 } ∧
      t.sched.jobs.getLast? = some j ∧ j.kind = .attend ∧ j.need = s.attention.clusters ∧ j.client = c.client ∧ j.slot = slot) ∧
    (Handed s slot 0x5B true c → c.arg 52 4 + c.arg 56 4 ≤ f.tokens →
      (c.arg 50 1 = 1 → c.arg 52 4 + c.arg 56 4 ≤ f.tokens / 128 * 128) → s.attendsRunning < 64 →
      let parts := (List.range (c.arg 48 2)).flatMap fun l => (List.range f.heads).map fun h => (c.arg 46 2 + l, h)
      let out := parts.flatMap fun p =>
        if c.arg 50 1 = 1 then
          memRead v.data (f.blockAt p.1 p.2 (c.arg 52 4 / 128)) (c.arg 56 4 / 128 * f.blockBytes)
        else f.reloadRows v.data p.1 p.2 (c.arg 52 4) (c.arg 56 4)
      (s.flashReads id n (f.reads c) ≠ [] → exec (.folioReload slot) s = .next ((s.updSlot slot fun d =>
        { d with phase := .running, fetch := some (s.flashReads id n (f.reads c)) }).pumpFetch)) ∧
      (s.flashReads id n (f.reads c) = [] → ∃ t : State,
        exec (.folioReload slot) s = .next ((t.writeResult c 0 out).finish slot .ok (c.arg 56 4) 0) ∧
        t = { s with tiers := t.tiers }))) ∧
  ∀ f : FolioHdr, f.bytes.length = 4096 ∧ field f.bytes 0 4 = 0x494C4F46 ∧ field f.bytes 6 2 = f.layers % 65536 ∧
    field f.bytes 8 1 = f.heads % 256 ∧ field f.bytes 12 2 = f.dim % 65536 ∧ field f.bytes 16 4 = f.blocks % 2 ^ 32 ∧
    field f.bytes 20 4 = f.tokens % 2 ^ 32)

/-- R295 to R297, R299, R310, R311: DOMAIN_SET makes an EMPTY slot READY with the tree it is given, DOMAIN_CLEAR empties a READY one;
RESIDUAL_CREATE makes a store with its header, exponents and zero residuals; REDUCE waits for its round, which ROUND_START begins with
every chunk's contribution, sending at once where START_TICK allows and at START_TICK otherwise; a round without packets for
STALL_BT stalls with one record.
R301, R302, R307 to R309: a reduction packet of the round under way that its pass has not seen is added to the pass: its entries
to the words of their elements, its part's bitmap, its margin; one seen before is dropped and counted; one that disagrees with the
round is dropped, counted, and reported once a round; one of a round to come is held at the link. -/
def Obligations.ReductionRoundsRun : Prop :=
  ((∀ (s : State) (slot : Nat) (c : Slot), Handed s slot 0x60 false c → c.arg 40 1 < s.domains.length →
    (∀ x ∈ (s.specDomainSet c.entry).objects, x.1 = false) →
    (s.reductionClosed = true → exec (.domainSet slot) s = .next (s.finish slot .unitClosed 0 0)) ∧
    (s.reductionClosed = false → (∀ p ∈ s.link.ports, p.held = []) → exec (.domainSet slot) s =
      .next ((s.updDom (c.arg 40 1) fun _ =>
        { state := .ready, tag := c.arg 46 2, ranks := c.arg 42 2, rank := c.arg 44 2, parent := c.arg 48 4, left := c.arg 52 4
          right := c.arg 56 4, stallBt := c.arg 60 4, nextRound := 1 }).finish slot .ok 0 0)) ∧
    (s.reductionClosed = false → ∃ t, exec (.domainSet slot) s = .next t ∧ t.domains.length = s.domains.length ∧
      ∃ d, t.slot? slot = some d ∧ d.phase = .done)) ∧
  (∀ (s : State) (slot : Nat) (c : Slot), Handed s slot 0x61 false c →
    (∀ x ∈ (s.specDomainClear c.entry).objects, x.1 = false) → (∀ p ∈ s.link.ports, p.held = []) →
    exec (.domainClear slot) s = .next ((s.updDom (c.arg 40 1) fun _ => {}).finish slot .ok 0 0)) ∧
  (∀ (s : State) (slot : Nat) (c : Slot), Handed s slot 0x62 true c → s.idHeld (c.arg 40 4) = false → s.reductionClosed = false →
    let n := c.arg 48 4
    let durable := s.classOf 6 (c.arg 46 1) 3
    (∀ st, s.createError 6 (resSize n) 3 durable = some st → exec (.residualCreate slot) s = .next (s.finish slot st 0 0)) ∧
    let ps := pageList (c.arg 40 4) 1 0 32 ++ pageList (c.arg 40 4) 1 65536 (2 * n)
    (s.createError 6 (resSize n) 3 durable = none → durable = true → s.admitsDirty (4096 * ps.length) = false →
      exec (.residualCreate slot) s = .next (s.updSlot slot fun d =>
        { d with phase := .running, work := .held (4096 * ps.length) })) ∧
    (s.createError 6 (resSize n) 3 durable = none → (durable = true → s.admitsDirty (4096 * ps.length) = true) →
      ∃ (t : State) (o : Obj) (v : Version), exec (.residualCreate slot) s =
        .next ((t.writeResult c 0 (leBytes 8 o.base ++ zeroBytes 8)).ackWrite slot o false ps 0) ∧
        t.obj? (c.arg 40 4) = some o ∧ o.kind = 6 ∧ o.size = resSize n ∧ o.durable = durable ∧ o.versions = [v] ∧ v.num = 1 ∧
        v.state = .current ∧
        v.data = memWrite (memWrite [] 0 (resHeader n 0)) 65536 (List.replicate n (leBytes 2 (c.arg 52 2))).flatten)) ∧
  (∀ (s : State) (slot : Nat) (c : Slot), Handed s slot 0x63 false c → exec (.reduce slot) s = .next (s.updSlot slot fun d =>
    { d with phase := .running, work := .reduce (c.arg 40 1) false })) ∧
  (∀ (s : State) (slot d : Nat) (c : Slot) (v : Version), s.slot? slot = some c → c.work = .reduce d false →
    s.version? (c.pins.headD (0, 0)).1 (c.pins.headD (0, 0)).2 = some v → s.still = false → (s.dom d).round = none →
    s.earlierReduce d c.order = false → s.reductionClosed = false → s.workChunks + c.arg 42 2 ≤ 4096 →
    let r := s.makeRound c (s.dom d) v
    let p := c.pins.headD (0, 0)
    let t := (((s.setWork slot (.reduce d true)).updDom d fun m => { m with state := .reducing, round := some r })).updObj p.1 fun o =>
      { o with refs := if (o.ver? p.2).isSome then o.refs ++ (List.range (ceilDiv ((o.ver? p.2).elim 0 (·.size)) 65536)).map fun u =>
          { who := .round d, ver := p.2, unit := u, tier := o.tier } else o.refs }
    exec (.roundStart slot) s = .next (if s.startDue r.startTick then t.sendRound d else t).deliverHeld ∧
    r.num = c.arg 48 4 ∧ r.chunks.map (·.index) = (List.range (c.arg 42 2)).map (c.arg 52 4 + ·)) ∧
  (∀ (s : State) (d : Nat) (r : Round), (s.dom d).round = some r → r.sending = false →
    (s.startDue r.startTick = true → exec (.startTick d) s = .next (s.sendRound d)) ∧
    (s.startDue r.startTick = false → exec (.startTick d) s = .next s)) ∧
  ∀ (s : State) (d : Nat) (r : Round), d < s.domains.length → (s.dom d).round = some r → (s.dom d).state = .reducing →
    r.phase = 0 → r.lastPacket + (s.dom d).stallBt ≤ s.bt → s.unitIs .reduction 0 .draining = false →
    exec (.reductionStall d) s = .next ((s.updDom d fun m => { m with state := .stalled, stalls := sat32 (m.stalls + 1) }).raise
      { faultUnit 0x13 5 .reduction 0 0 with location := d, detail := r.num })) ∧
  (∀ (s : State) (port vc : Nat) (k : RedPacket), 3 ≤ vc → vc ≤ 6 → s.grade.hasReduction = true →
    (port = 0 ∧ s.portUsable 0 = true ∨ port = 1 ∧ s.portUsable 0 = false ∧ s.portUsable 1 = true) →
    let d := vc - 3
    let m := s.dom d
    (m.state = .empty ∨ m.tag ≠ k.tag → exec (.reductionPacket vc k) s =
      .next (s.updPort port fun p => { p with errPackets := sat32 (p.errPackets + 1) })) ∧
    (m.state ≠ .empty → m.tag = k.tag → m.round = none → m.pastRound k.round = false →
      exec (.reductionPacket vc k) s = .next (s.updPort port fun p => { p with held := p.held ++ [(vc, k)] })) ∧
    (m.state ≠ .empty → m.tag = k.tag → m.pastRound k.round = true → (∀ r, m.round = some r → r.num ≠ k.round) →
      ∃ t, exec (.reductionPacket vc k) s = .next t ∧ t = { s with domains := t.domains } ∧
        (d < s.domains.length → (t.dom d).dupDrops = sat32 (m.dupDrops + 1))) ∧
    ∀ (r : Round) (ch : Chunk), m.state ≠ .empty → m.tag = k.tag → m.round = some r → r.num = k.round →
      d < s.domains.length →
      (senderPart m k = none ∨ r.chunks.find? (·.index = k.chunk) = none → ∃ t, exec (.reductionPacket vc k) s = .next t ∧
        (t.dom d).mismatchDrops = sat32 (m.mismatchDrops + 1) ∧ t = { s with domains := t.domains, err := t.err } ∧
        (r.mismatched = true → t.err = s.err)) ∧
      (∀ right, senderPart m k = some right → r.chunks.find? (·.index = k.chunk) = some ch → k.k = r.k →
        k.chunkCount = r.chunkCount → ch.complete = false →
        let t := (s.updDom d fun m => { m with state := .reducing }).updRound d fun r => { r with lastPacket := s.bt }
        (∀ p0, k.kind = 0 → (if k.pass2 then ch.second else some ch.first) = some p0 →
          let part := if right then p0.right else p0.left
          (k.pktIndex ∈ part.seen → ∃ u, exec (.reductionPacket vc k) s = .next u ∧ u = { s with domains := u.domains } ∧
            (u.dom d).dupDrops = sat32 (m.dupDrops + 1)) ∧
          (k.pktIndex ∉ part.seen → ∃ p, p0.take right k = some p ∧ p.words = addEntries k.entries p0.words ∧
            (if right then p.right else p.left) = { seen := k.pktIndex :: part.seen, count := some k.pktCount } ∧
            exec (.reductionPacket vc k) s = .next (State.advanceChunk d k.chunk
              ((t.updChunk d k.chunk fun ch => if k.pass2 then { ch with second := some p } else { ch with first := p }).updRound d
                fun r => { r with entriesSummed := r.entriesSummed + k.entries.length })))) ∧
        (k.kind = 1 → exec (.reductionPacket vc k) s = .next (t.repassPacket d k ch)) ∧
        (k.kind = 2 → exec (.reductionPacket vc k) s = .next (t.downPacket d k ch))))

/-- R395, R396, R404, R406, R496: a port in service whose partner is detected trains; parameter exchange that ends with width 4 or 2 and
credit for at least 129 slots on VC0, VC1 and VC3 to VC6 brings the port UP with its sequence numbers afresh, a CLOSED port
passing to RETURNING; 100 ms without UP is a failed attempt, of which the third leaves the port DOWN as failed and closes it; while
no port is in service every DOWN port trains again once in 1,000,000 BT. -/
def Obligations.LinksTrain : Prop :=
  (∀ (s : State) (port : Nat), port < 2 → s.linkAlive = true → (s.port port).link = .down →
    s.unitIs .port port .inService = true → (s.port port).trainFailed = false →
    exec (.partnerDetected port) s = .next (s.updPort port fun p =>
      { p with link := .training, attempts := 0, trainSince := s.bt, trainFailed := false, partner := true })) ∧
  (∀ (s : State) (port : Nat) (p : LinkParams), port < 2 → (s.port port).link = .training → p.width = 4 ∨ p.width = 2 →
    p.credits.length = 7 →
    ((∀ v ∈ [0, 1, 3, 4, 5, 6], 129 ≤ p.credits.getD v 0) →
      ∃ u : State, u = { s with link := u.link, err := u.err } ∧ u.link.node = p.node ∧ (p.width = 4 → u.err = s.err) ∧
        (u.port port).link = .up ∧ (u.port port).width = p.width ∧ (u.port port).lanes = p.lanes ∧
        (u.port port).hostNode = p.hostNode ∧ (u.port port).credits = p.credits ∧ (u.port port).nextFseq = 0 ∧
        (u.port port).rxSeq = 65535 ∧ (u.port port).acked = 65535 ∧ (u.port port).replay = [] ∧
        u.port (1 - port) = s.port (1 - port) ∧
        (s.unitIs .port port .inService = true → exec (.trainingEnd port p) s = .next (u.portReady port)) ∧
        (s.unitIs .port port .closed = true → exec (.trainingEnd port p) s =
          .next (u.updUnit .port port fun q => { q with state := .returning }))) ∧
    ((∃ v ∈ [0, 1, 3, 4, 5, 6], p.credits.getD v 0 < 129) →
      exec (.trainingEnd port p) s = .next (s.attemptFailed port))) ∧
  (∀ (s : State) (port : Nat), (s.port port).link = .training → (s.port port).trainSince + 100000 ≤ s.bt →
    ((s.port port).attempts < 2 → exec (.trainingTimeout port) s = .next (s.updPort port fun p =>
      { p with attempts := p.attempts + 1, trainSince := s.bt })) ∧
    (2 ≤ (s.port port).attempts → s.unitIs .port port .inService = true →
      ∃ u : State, u = { s with link := u.link } ∧ (u.port port).link = .down ∧ (u.port port).trainFailed = true ∧
        u.port (1 - port) = s.port (1 - port) ∧
        exec (.trainingTimeout port) s = .next (u.closeFault 0x10 .port port))) ∧
  ∀ s : State, (∀ u ∈ s.units, u.kind = .port → u.state ≠ .inService) → s.linkAlive = true →
    s.link.lastRetry + 1000000 ≤ s.bt → ∃ t, exec .portRetry s = .next t ∧ t = { s with link := t.link } ∧
      t.link.ports = s.link.ports.map (fun p => if p.link = .down then
        { p with link := .training, attempts := 0, trainSince := s.bt, trainFailed := false } else p) ∧
      t.link.lastRetry = s.bt

/-- R397, R405, R408, R411, R485: a port that loses flit lock retrains; ACK_SEQ that stands still for 4 µs replays the unacknowledged
flits, and the fourth replay of one flit retrains; a retrain that ends well brings the port UP again, one that fails starts
another, and the third failure within 100 ms, as 100,000 BT without credit, is a port fault: the other port takes over. -/
def Obligations.LinksRetrainAndReplay : Prop :=
  (∀ (s : State) (port : Nat),
    ((s.port port).link = .up → exec (.flitLockLoss port) s = .next (s.updPort port fun p =>
      { p with link := .retraining, retrains := sat16 (p.retrains + 1), trainSince := s.bt, sameReplays := 0 })) ∧
    ((s.port port).link ≠ .up → exec (.flitLockLoss port) s = .next s)) ∧
  (∀ (s : State) (port : Nat), (s.port port).link = .up → (s.port port).lastAck + 4 ≤ s.bt → (s.port port).replay ≠ [] →
    ((s.port port).sameReplays < 3 → exec (.ackTimeout port) s = .next (s.updPort port fun p =>
      { p with replays := sat32 (p.replays + 1), sameReplays := p.sameReplays + 1, lastAck := s.bt })) ∧
    (3 ≤ (s.port port).sameReplays → exec (.ackTimeout port) s = .next (s.updPort port fun p =>
      { p with
        replays := sat32 (p.replays + 1), lastAck := s.bt, link := .retraining, retrains := sat16 (p.retrains + 1)
        trainSince := s.bt, sameReplays := 0 }))) ∧
  (∀ (s : State) (port : Nat), (s.port port).link = .retraining →
    (∃ t, exec (.retrainEnd port true) s = .next t ∧ t = { s with link := t.link } ∧ (t.port port).link = .up ∧
      (t.port port).lastAck = s.bt ∧ (t.port port).echoDue = false ∧
      ((s.port port).echoDue = true → (t.port port).echoAt = some (s.clk.cycle / 6)) ∧
      t.port (1 - port) = s.port (1 - port)) ∧
    let fails := (s.port port).failedRetrains.filter fun t => s.bt ≤ t + 100000
    (fails.length < 2 → exec (.retrainEnd port false) s = .next (s.updPort port fun p =>
      { p with failedRetrains := fails ++ [s.bt], retrains := sat16 (p.retrains + 1), trainSince := s.bt })) ∧
    (2 ≤ fails.length → exec (.retrainEnd port false) s =
      .next ((s.updPort port fun p => { p with failedRetrains := [] }).portFault port))) ∧
  ∀ (s : State) (port t0 : Nat), (s.port port).starvedSince = some t0 → s.portUsable port = true → t0 + 100000 ≤ s.bt →
    exec (.creditStarvation port) s = .next (s.portFault port)

/-- R398, R402 to R405, R407: a flit with a bad CRC and a DATA flit out of sequence are discarded, counted and answered by a NAK; a
flit in sequence advances the receive sequence, its acknowledgement and credits are taken, and its slots are cut into packets; a
NAK replays and a request retrains. A completion's bytes go where its read asked for them. -/
def Obligations.FlitsAndCompletionsArrive : Prop :=
  (∀ (s : State) (port : Nat) (f : Bytes), port < 2 → (s.port port).link = .up → s.silent = false →
    let bad := fun t : State => t.updPort port fun p => { p with errFlits := sat32 (p.errFlits + 1), nak := true }
    let rest := fun t : State =>
      let t := if bitAt (field f 5 1) 0 then t.replayFlits port else t
      if bitAt (field f 5 1) 1 then t.retrain port else t
    let due := ((s.port port).rxSeq + 1) % 65536
    exec (.flitReceive port f false) s = .next (bad s) ∧
    (field f 4 1 = 0 → field f 0 2 ≠ due → exec (.flitReceive port f true) s = .next (rest (bad (s.linkFields port f)))) ∧
    (field f 4 1 = 0 → field f 0 2 = due → exec (.flitReceive port f true) s = .next (rest
      (((s.linkFields port f).updPort port fun p => { p with rxSeq := due, nak := false }).takeSlots port (slice f 16 224)))) ∧
    (1 ≤ field f 4 1 → field f 4 1 ≤ 3 → exec (.flitReceive port f true) s = .next (rest (s.linkFields port f))) ∧
    (3 < field f 4 1 → exec (.flitReceive port f true) s = .next (rest (bad (s.linkFields port f))))) ∧
  ∀ (s : State) (port tag st offset : Nat) (last : Bool) (data : Bytes), s.portAccepts port = true →
    let of := fun c : Slot => c.reads.any fun m => m.port = port && m.tag = tag
    (s.atr.slots.find? of = none → exec (.cpl port tag st offset last data) s =
      .next (s.updPort port fun p => { p with errPackets := sat32 (p.errPackets + 1) })) ∧
    ∀ c m, s.atr.slots.find? of = some c → c.reads.find? (fun m => m.port = port && m.tag = tag) = some m →
      (st ≠ 0 → exec (.cpl port tag st offset last data) s =
        .next (s.finish c.id .hostAccessFault 0 0).pumpReads) ∧
      (st = 0 →
        let t : State := { s with hostMem := memWrite s.hostMem (m.addr + offset) (data.take (m.len - offset)) }
        exec (.cpl port tag st offset last data) s = .next
          (if last then t.updSlot c.id fun c => { c with reads := c.reads.filter (· ≠ m) } else t).pumpReads)

/-- R410 to R413, R415, R416: a valid beacon of the source that governs, three of which agree, locks an acquiring or degraded time base,
and the epoch is its tick placed by the port's delay; in LOCKED and HOLDOVER one within 1 BT of the epoch keeps the lock, another
is counted and ignored until the third in a row that agrees relocks with one record; an invalid beacon is counted. A frame of
AUX_TIME that follows the one before by 96 locks at once. -/
def Obligations.BeaconsSetTheTime : Prop :=
  (∀ (s : State) (port : Nat) (f : BeaconFlit), port < 2 → (s.port port).link = .up →
    let tick := f.tick + (s.port port).delay / 100
    let near := s.beacon.agreeTick + (s.bt - s.beacon.agreeBt)
    let follows := ∀ q, (s.port port).bseq = some q → f.bseq % 65536 = (q + 1) % 65536
    (f.crcOk = false → exec (.beacon port f) s =
      .next { s with beacon := { s.beacon with bad := sat16 (s.beacon.bad + 1) } }) ∧
    (f.crcOk = true → s.beacon.cfg ≠ 1 → f.refLocked = false ∨ ¬follows →
      ∃ t, exec (.beacon port f) s = .next t ∧ t = { s with link := t.link, beacon := t.beacon } ∧
        t.beacon.bad = sat16 (s.beacon.bad + 1) ∧ t.beacon.state = s.beacon.state ∧ t.epoch = s.epoch) ∧
    (f.crcOk = true → s.beacon.cfg ≠ 1 → f.refLocked = true → follows → s.beacon.supply = port →
      (s.beacon.state = .acquiring ∨ s.beacon.state = .degraded →
        (2 ≤ s.beacon.agree → tick ≤ near + 1 → near ≤ tick + 1 →
          ∃ t, exec (.beacon port f) s = .next t ∧ t.beacon.state = .locked ∧ t.epoch = tick ∧ t.beacon.lastValid = s.bt) ∧
        (s.beacon.agree = 0 ∨ near + 1 < tick ∨ tick + 1 < near →
          ∃ t, exec (.beacon port f) s = .next t ∧ t.beacon.state = s.beacon.state ∧ t.beacon.agree = 1 ∧
            t.beacon.agreeTick = tick ∧ t.epoch = s.epoch)) ∧
      (s.beacon.state = .locked ∨ s.beacon.state = .holdover →
        (tick ≤ s.epoch + 1 → s.epoch ≤ tick + 1 → ∃ t, exec (.beacon port f) s = .next t ∧ t.beacon.state = .locked ∧
          t.epoch = s.epoch ∧ t.beacon.lastValid = s.bt ∧ t.beacon.bad = s.beacon.bad) ∧
        (s.epoch + 1 < tick ∨ tick + 1 < s.epoch →
          (s.beacon.agree = 0 ∨ near + 1 < tick ∨ tick + 1 < near → ∃ t, exec (.beacon port f) s = .next t ∧
            t.beacon.state = s.beacon.state ∧ t.epoch = s.epoch ∧ t.beacon.bad = sat16 (s.beacon.bad + 1) ∧
            t.err = s.err) ∧
          (2 ≤ s.beacon.agree → tick ≤ near + 1 → near ≤ tick + 1 → ∃ t, exec (.beacon port f) s = .next t ∧
            t.beacon.state = .locked ∧ t.epoch = tick ∧ t.beacon.relocks = sat16 (s.beacon.relocks + 1) ∧
            ∃ u : State, u.err = s.err ∧ t = u.raise (faultOf 0x12 5)))))) ∧
  ∀ (s : State) (tick : Nat) (clean : Bool), s.beacon.cfg ≠ 0 →
    let follows := ∃ t0, s.beacon.aux = some (tick - 96, t0) ∧ 96 ≤ tick ∧ s.bt < t0 + 192
    (clean = false ∨ ¬follows → ∃ t, exec (.auxTimeFrame tick clean) s = .next t ∧ t = { s with beacon := t.beacon } ∧
      t.beacon.bad = sat16 (s.beacon.bad + 1) ∧ t.beacon.aux = (if clean then some (tick, s.bt) else none) ∧
      t.epoch = s.epoch) ∧
    (clean = true → follows → s.beacon.cfg = 1 → s.beacon.state = .acquiring ∨ s.beacon.state = .degraded →
      ∃ t, exec (.auxTimeFrame tick clean) s = .next t ∧ t.beacon.state = .locked ∧ t.epoch = tick ∧ t.beacon.supply = 2)

/-- R411, R414, R415, R418, R529: 192 BT after the last valid beacon LOCKED becomes HOLDOVER, 50,000 BT after it DEGRADED, with one
record; a source more than 100 ppm off over 65,536 BT is rejected, with one record; echoes leave every 1,000,000 BT and half
their round trip less TURN is the delay; the test pulse is driven where the epoch is a multiple of its period. -/
def Obligations.TheTimeBaseIsWatched : Prop :=
  (∀ s : State, s.beacon.state = .locked → s.beacon.lastValid + 192 ≤ s.bt → exec .beaconHoldover s =
    .next { s with beacon := { s.beacon with
      state := .holdover, holdovers := sat16 (s.beacon.holdovers + 1), agree := 0 } }) ∧
  (∀ s : State, s.beacon.state = .holdover → s.beacon.lastValid + 50000 ≤ s.bt → exec .beaconDegraded s =
    .next (({ s with beacon := { s.beacon with state := .degraded, agree := 0 } } : State).raise (faultOf 0x12 5))) ∧
  (∀ (s : State) (ppm : Int), s.beacon.checked + 65536 ≤ s.bt → s.beacon.supply < 3 →
    (-100 ≤ ppm → ppm ≤ 100 → exec (.beaconSourceCheck ppm) s =
      .next { s with beacon := { s.beacon with checked := s.bt } }) ∧
    (ppm < -100 ∨ 100 < ppm → ∃ u : State, exec (.beaconSourceCheck ppm) s = .next (u.raise (faultOf 0x12 5)) ∧
      u = { s with beacon := u.beacon, link := u.link } ∧ u.beacon.supply = 3 ∧
      u.beacon.rejected = sat16 (s.beacon.rejected + 1) ∧ u.beacon.state = s.beacon.state ∧
      u.supplying s.beacon.supply = false)) ∧
  (∀ s : State, s.link.lastEcho + 1000000 ≤ s.bt → ∃ t, exec .echo s = .next t ∧ t = { s with link := t.link } ∧
    t.link.lastEcho = s.bt ∧ ∀ p, p < s.link.ports.length →
      ((s.port p).link = .up → (t.port p).echoAt = some (s.clk.cycle / 6)) ∧
      ((s.port p).link = .retraining → (t.port p).echoDue = true) ∧
      ((s.port p).link = .down ∨ (s.port p).link = .training → t.port p = s.port p)) ∧
  (∀ (s : State) (port arrival turn t0 : Nat), (s.port port).echoAt = some t0 →
    exec (.echoReturn port arrival turn) s = .next (s.updPort port fun p =>
      { p with echoAt := none, delay := (arrival - t0 - turn) / 2 % 65536 })) ∧
  ∀ s : State, s.beacon.cfg = 0 → s.test.pulse = true →
    (s.epoch % (s.test.period + 1) = 0 →
      exec .testPulse s = .next { s with test := { s.test with pulses := s.test.pulses + 1 } }) ∧
    (s.epoch % (s.test.period + 1) ≠ 0 → exec .testPulse s = .next s)

/-- R425, R426, R429, R447, R487, R489 to R498, R505, R520: start-up passes FUSE, CONFIG, SRAM, DRAM, CORE and MOUNT to SERVICE, each
phase when its own work has succeeded; a fuse map without a good copy leaves the drive HALTED, a container that is not read or
not accepted takes it to RECOVERY, and a memory, identity, grade or mount failure to HELD, with its code and one record. -/
def Obligations.StartUpPassesItsPhases : Prop :=
  (∀ (s : State) (mj mv : Nat), s.power.state = .off → s.power.mated = true → s.power.overvoltage = false →
    30000 ≤ mv → mv ≤ 40000 → ∃ u : State, u.power.state = .starting ∧ u.power.phase = .fuse ∧ u.power.switchOpen = false ∧
      u.power.inVolt = mv / 10 ∧ (u.power.bleed = true ↔ 1000 < mj) ∧ u.err.log = [] ∧ u.hostMem = s.hostMem ∧
      exec (.powerGood mj mv) s = .next (if 1000 < mj then u.raise (faultOf 0x14 5) else u)) ∧
  (∀ (s : State) (a b : Option FuseMap), s.inPhase .fuse = true →
    (a = none → b = none → ∃ u : State, u.power.phase = .halted ∧ u.power.failure = .fuseMap ∧
      u.test = s.test ∧ exec (.fuseLoadEnd a b) s = .next (u.raise { faultOf 0x15 5 with detail := 1 })) ∧
    ∀ m, a = some m ∨ (a = none ∧ b = some m) → s.deadLink? = none → ∃ t, exec (.fuseLoadEnd a b) s = .next t ∧
      t.power.phase = .config ∧ t.units = fuseUnitsOf m ∧ t.clustersBuilt = m.builtClusters ∧
      t.sec.keyDigests = m.keyDigests ∧ (∀ k ∈ m.keyRevoke, k ∈ t.sec.revoked) ∧ (∀ k ∈ m.rollbackBits, k ∈ t.sec.rollback) ∧
      t.err = s.err) ∧
  (∀ (s : State) (c f : Option Bytes) (cert : Bytes), s.inPhase .config = true →
    let q := s.updSec fun q => { q with certificate := fitBytes 30112 cert }
    (c = none ∨ f = none → exec (.configLoadEnd c f cert) s = .next (q.enterRecovery .configRead)) ∧
    ∀ cb fb, c = some cb → f = some fb →
      let cb := s.sec.config.getD cb
      let fb := s.sec.firmware.getD fb
      ∃ v, exec (.configLoadEnd c f cert) s = .next v ∧
        match q.acceptContainer 2 s.sec.cfgInvalid cb with
        | none => v = q.enterRecovery .configAuth
        | some t => match t.acceptContainer 1 s.sec.fwInvalid fb with
          | none => v = t.enterRecovery .configAuth
          | some u => v.power.phase = .sram ∧ v.sec = u.sec ∧ v.err = u.err) ∧
  (∀ (s : State) (rep clu doc : List Nat), s.inPhase .sram = true →
    (∃ u : State, u = { s with power := { s.power with failure := .memory, phase := .held }, test := u.test } ∧
      exec (.sramFillEnd rep clu doc true) s = .next (u.raise { faultOf 0x15 5 with detail := 4 })) ∧
    ∃ t, exec (.sramFillEnd rep clu doc false) s = .next t ∧ t.power = { s.power with phase := .dram } ∧
      (∀ p ∈ clu, ∀ u, s.unit? .cluster p = some u → t.unitIs .cluster p .closed = true) ∧
      (∀ p ∈ doc, ∀ u, s.unit? .docent p = some u → t.unitIs .docent p .closed = true)) ∧
  (∀ (s : State) (failed : List Nat) (ids : List IdentityCopy) (bad : List (Die × Nat)), s.inPhase .dram = true →
    (chooseRow (ids.take 4) = none → ∃ t, exec (.dramFillEnd failed ⟨ids, bad⟩) s = .next t ∧ t.power.phase = .held ∧
      t.power.failure = .identity) ∧
    ∀ row, chooseRow (ids.take 4) = some row →
      (∀ g, gradeOf (field row 6 1) = some g → s.clustersBuilt = g.clustersBuilt →
        ∃ t, exec (.dramFillEnd failed ⟨ids, bad⟩) s = .next t ∧ t.power.phase = .mount ∧ t.grade = g ∧ t.sec.identity = row) ∧
      (gradeOf (field row 6 1) = none ∨ (∃ g, gradeOf (field row 6 1) = some g ∧ s.clustersBuilt ≠ g.clustersBuilt) →
        ∃ t, exec (.dramFillEnd failed ⟨ids, bad⟩) s = .next t ∧ t.power.phase = .held ∧ t.power.failure = .grade)) ∧
  ∀ (s : State) (a b c : Bool) (ps : List (Nat × Nat)) (ats : List (Nat × Nat × Nat)), s.inPhase .mount = true →
    (a = false ∧ b = false ∨ c = false → ∃ t, exec (.mountEnd a b c ps ats) s = .next t ∧ t.power.phase = .held ∧
      t.power.failure = .mount) ∧
    (a = true ∨ b = true → c = true →
      let t := (if a && b then s else s.raise (faultOf 0x15 0)).mountUnits
      (t.meetsMinimum = false → ∃ u, exec (.mountEnd a b c ps ats) s = .next u ∧ u.power.phase = .held ∧
        u.power.failure = .memory) ∧
      (t.meetsMinimum = true → (t.mountAll ps ats).power.shutdownHeld = false →
        ∃ u, exec (.mountEnd a b c ps ats) s = .next u ∧ u.power.phase = .service ∧ u.power.clean = false ∧
          u.power.state = (if (t.mountAll ps ats).power.cap < 720 then .capped else .active)))

/-- R425, R428, R432 to R436, R439, R441, R499: the loss of input, an open connector and RESET_N trigger the dusk flush in service and
stop a drive that starts up or is shut down; the flush freezes D, stops the Atrium, every job and every transfer, keeps the die
programs and reads already issued, lays every unit of D and every dirty map page between an index page and a trailer into dusk units, and
leads to OFF, to a restart, or to SHUTDOWN; SHDN_REQ_N starts a clean shutdown. -/
def Obligations.PowerLossFlushes : Prop :=
  (∀ (s : State) (mv : Nat), mv < 28000 ∨ 42000 < mv → s.power.state ≠ .off →
    exec (.powerFailure mv) s = .next (s.updPower fun p => { p with
      inVolt := mv / 10, tolerated := none, switchOpen := true, overvoltage := p.overvoltage || decide (42000 < mv) }).inputLost) ∧
  (∀ (s : State) (mv t0 : Nat), s.power.tolerated = some t0 → toleratedMv mv = true → t0 + 100000 ≤ s.bt →
    s.power.state ≠ .off →
    exec (.inputToleranceExpiry mv) s = .next (s.updPower fun p => { p with
      inVolt := mv / 10, tolerated := none, overvoltage := p.overvoltage || decide (40000 < mv) }).inputLost) ∧
  (∀ s : State, s.power.state ≠ .off →
    exec (.matedN true) s = .next (s.updPower fun p => { p with mated := false, switchOpen := true }).inputLost) ∧
  (∀ (s : State) (mv : Nat), s.power.state = .off → mv < 28000 ∨ 42000 < mv →
    exec (.matedN true) s = .next { s with power := { s.power with mated := false, switchOpen := true } } ∧
    exec (.powerFailure mv) s = .next { s with power := { s.power with
      inVolt := mv / 10, tolerated := none, switchOpen := true, overvoltage := s.power.overvoltage || decide (42000 < mv) } }) ∧
  (∀ s : State, exec (.matedN false) s = .next { s with power := { s.power with mated := true } }) ∧
  (∀ s : State,
    (s.power.state = .active ∨ s.power.state = .capped ∨ s.power.state = .quiescent ∨ s.power.state = .shuttingDown →
      ∃ t, s.inputLost = t ∧ t = { s with power := t.power, test := t.test } ∧ t.power.state = .dusk ∧
        t.power.flush = .triggered ∧ t.power.after = .off ∧ t.power.onInput = false ∧ t.power.switchOpen = true ∧
        t.test.holdsPins = false) ∧
    (s.power.state = .starting ∨ s.power.state = .shutdown → s.inputLost.power.state = .off) ∧
    (s.power.state = .dusk → s.inputLost = { s with power := { s.power with
      switchOpen := true, onInput := false, after := .off } })) ∧
  (∀ (s : State) (mv : Nat), s.power.overvoltage = true → s.power.state = .off → 30000 ≤ mv → mv ≤ 40000 →
    exec (.inputSwitchClose mv) s = .next { s with power := { s.power with
      overvoltage := false, switchOpen := false, inVolt := mv / 10 } }) ∧
  (∀ s : State,
    (s.power.state = .active ∨ s.power.state = .capped ∨ s.power.state = .quiescent →
      exec .resetN s = .next (s.trigger true .restart) ∧ exec .shdnReqN s = .next s.startShutdown) ∧
    (s.power.state = .starting ∨ s.power.state = .shutdown → exec .resetN s = .next s.restart) ∧
    (s.power.state = .starting → exec .shdnReqN s = .next { s with power := { s.power with shutdownHeld := true } }) ∧
    (s.power.state = .shuttingDown → exec .resetN s = .next { s with power := { s.power with resetHeld := true } })) ∧
  (∀ s : State, s.power.state ≠ .off → ∃ t, exec .aonLoss s = .next t ∧ t.power.state = .off ∧ t.hostMem = s.hostMem ∧
    t.atr.slots = [] ∧ t.sched.jobs = [] ∧ t.err.log = []) ∧
  (∀ s : State, s.power.flush = .triggered → ∃ t, exec .duskFlush s = .next t ∧ t.power.flush = .running ∧
    t.power.frozen = s.dirtyBytes ∧ t.power.flushSeq = s.power.flushSeq + 1 ∧ t.atr.slots = [] ∧ t.atr.stopped = true ∧
    t.sched.jobs = [] ∧ (∀ n, (t.cq n).ready = []) ∧ t.block = s.block ∧
    t.tiers = { s.tiers with objects := s.tiers.objects.map fun o => { o with appending := s.appendUnder o } } ∧
    (∀ o ∈ t.flash.ops, o.kind ≠ .erase ∧ (o.prio = .dusk ∨ ∃ q ∈ s.flash.ops, q.die = o.die ∧ q.kind = o.kind ∧
      q.unit = o.unit ∧ q.page = o.page ∧ q.st ≠ .held ∧ q.st ≠ .queued)) ∧
    (∀ x ∈ t.flash.dusk, ∃ (ps : List DuskPage) (ats : List (Nat × Nat × Nat)), x.pages =
      [.index (ps.flatMap DuskPage.entries)] ++ ps ++ [.trailer (s.power.flushSeq + 1) (ps.length + 2)
        (Config.crc32 ((ps.flatMap DuskPage.entries).flatMap DuskEntry.bytes)) ats s.err.repairs]) ∧
    ∀ p ∈ s.duskPages, ∃ x ∈ t.flash.dusk, p ∈ x.pages) ∧
  ∀ (s : State) (failed : Bool), s.power.flush = .running →
    (failed = true → s.power.onInput = false → exec (.duskFlushEnd failed) s = .next s.goOff ∧ s.goOff.power.state = .off) ∧
    (failed = false ∨ s.power.onInput = true → ∃ t : State, exec (.duskFlushEnd failed) s = .next t.afterFlush ∧
      t = { s with flash := t.flash, ftl := t.ftl, test := t.test, err := t.err } ∧
      (∀ o ∈ t.flash.ops, o.kind ≠ .program) ∧
      (s.power.after = .off → t.afterFlush = t.goOff) ∧ (s.power.after = .restart → t.afterFlush = t.restart) ∧
      (s.power.after = .shutdown → t.afterFlush = { t with power := { s.power with
        state := .shutdown, flush := .none, shdnDone := true } }))

/-- R37, R38, R206, R424, R430, R431, R443, R444: a holdup measurement within its bounds sets the energy, B and its registers, one
outside leaves none; a temperature of 105 °C or a flash case at 85 °C for a second trips the drive, 95 °C cuts the issue rate by
one sixteenth a sample up to fifteen, until 100 ms at 3 °C below; a window above a power limit, or the tenth in a row above a
continuous one, makes one more cut, one within them takes one back. The rounding of V_chg and the steps of the governor are the model's (assumption log 61, 62). -/
def Obligations.HoldupHeatAndPowerAreWatched : Prop :=
  (∀ s : State, s.power.state = .active → s.power.measuring = false →
    (s.power.measured = false → exec .holdupMeasure s = .next { s with power := { s.power with
      measuring := true, lastMeasure := s.bt } }) ∧
    (s.power.measured = true → s.power.lastMeasure + 86400000000 ≤ s.bt →
      let t : State := { s with tiers := { s.tiers with holdBack := true } }
      (s.dirtyBytes + 268435456 ≤ s.tiers.budget ∨ s.dirtyBytes = 0 → exec .holdupMeasure s =
        .next { t with power := { s.power with measuring := true, lastMeasure := s.bt } }) ∧
      (s.tiers.budget < s.dirtyBytes + 268435456 → s.dirtyBytes ≠ 0 → exec .holdupMeasure s = .next t))) ∧
  (∀ (s : State) (uf esr : Nat), s.power.measuring = true →
    (5000 ≤ uf → uf ≤ 25000 → esr ≤ 1000 → ∃ t, exec (.holdupMeasureEnd true uf esr) s = .next t ∧ t.power.valid = true ∧
      t.power.energy = holdupMj uf esr ∧ t.power.capUf = uf ∧ t.power.esr = esr ∧ t.power.measuring = false ∧
      t.power.count = sat16 (s.power.count + 1) ∧ t.tiers.holdBack = false ∧
      t.tiers.budget = duskBudget (holdupMj uf esr) s.grade.flushEnergy.1 s.grade.flushEnergy.2 s.pools) ∧
    (uf < 5000 ∨ 25000 < uf ∨ 1000 < esr → ∃ t, exec (.holdupMeasureEnd true uf esr) s = .next t ∧ t.power.valid = false ∧
      t.power.energy = s.power.energy ∧ t.tiers.budget = 0 ∧ t.tiers.writeThrough = true ∧ t.power.measuring = false)) ∧
  (∀ (s : State) (c f d : Int), s.power.state = .active →
    (c < 1050 → f < 850 → ∃ t, exec (.thermalSample c f d) s = .next t ∧ t.power.tempCompute = c ∧ t.power.tempFlash = f ∧
      t.power.tempDram = d ∧ t.power.state = .active ∧ t.err = s.err ∧
      (950 ≤ c → t.power.thermalCut = Nat.min 15 (s.power.thermalCut + 1) ∧ t.power.hotCompute = true) ∧
      (920 < c → c < 950 → s.power.hotCompute = true → t.power.thermalCut = s.power.thermalCut ∧ t.power.hotCompute = true) ∧
      (c ≤ 920 → ∀ t0, s.power.hotCompute = true → s.power.coolCompute = some t0 → t0 + 100000 ≤ s.bt →
        t.power.thermalCut = 0 ∧ t.power.hotCompute = false)) ∧
    (1050 ≤ c ∨ (850 ≤ f ∧ ∃ t0, s.power.flash85 = some t0 ∧ t0 + 1000000 ≤ s.bt) →
      ∃ t, exec (.thermalSample c f d) s = .next t ∧ t.power.state = .dusk ∧ t.power.flush = .triggered ∧
        t.power.after = .shutdown ∧ t.power.onInput = true ∧ t.power.trip = true)) ∧
  ∀ (s : State) (w1 w100 a1 a100 mv : Nat), s.power.state = .active ∨ s.power.state = .capped →
    let limit := Nat.min (Nat.min 720000 (s.power.cap * 1000)) (20 * mv)
    let above := limit < w100 ∨ 800000 < w1 ∨ 20000 < a100 ∨ 22200 < a1 ∨ (720000 < w1 ∧ 9 ≤ s.power.overPower) ∨
      (20000 < a1 ∧ 9 ≤ s.power.overCurrent)
    ∃ t, exec (.governorWindow w1 w100 a1 a100 mv) s = .next t ∧ t.power.inVolt = mv / 10 ∧ t.power.inAmp = a100 / 10 ∧
      t.power.inWatt = w100 / 100 ∧ t.power.overPower = (if 720000 < w1 then s.power.overPower + 1 else 0) ∧
      t.power.overCurrent = (if 20000 < a1 then s.power.overCurrent + 1 else 0) ∧
      (above → s.power.cutBackground = false → t.power.cutBackground = true ∧ t.power.cut = true) ∧
      (above → s.power.cutBackground = true → s.power.flashLimit ≤ s.power.cutForeground → s.power.governorCut < 15 →
        t.power.governorCut = s.power.governorCut + 1) ∧
      (¬above → s.power.cutReads = 0 → s.power.governorCut = 0 → s.power.cutForeground = 0 → t.power.cutBackground = false)

/-- R199, R208 to R210, R345 to R349, R353, R355, R365, R449: a durable page dirty for 1,000,000 BT is queued; what is due is stored oldest
first, every dirty page of a unit with it; a unit on flash has its map entry name where it was stored; a write-back that ends takes the
pages its store carried out of D, and what waited goes on; one MAP slot takes at most sixteen dirty map pages, which leave when it counts
as written; a background window opens 10,000 BT after the last; a closed unit that reads back at stage 1 or 2 is VERIFIED, one that does
not gives up its data. Where a store lands is free (assumption log 21). -/
def Obligations.WriteBackReachesFlash : Prop :=
  (∀ s : State, ∃ t : State, exec .writebackAge s = .next t.issueStores ∧
    t = { s with tiers := { s.tiers with objects := t.tiers.objects }, block := { s.block with dirty := t.block.dirty } } ∧
    t.block.dirty = s.block.dirty.map (fun b => if b.since + 1000000 ≤ s.bt then { b with writing := true } else b) ∧
    t.tiers.objects = s.tiers.objects.map (fun o => if o.durable then { o with versions := o.versions.map fun v =>
      { v with dirty := v.dirty.map fun d => if d.since + 1000000 ≤ s.bt then { d with writing := true } else d } } else o)) ∧
  (∀ l : List DirtyItem, (∀ x ∈ sortItems l, x ∈ l) ∧ (∀ x ∈ l, ∃ y ∈ sortItems l, y.same x = true) ∧
    (sortItems l).Pairwise fun x y => x.since ≤ y.since ∧ x.same y = false) ∧
  (∀ (s : State) (id n u : Nat) (v : Version), s.version? id n = some v → s.inFlight (v.lun + u) = false →
    let r := s.storeHost (.object id n u) (v.lun + u) (memRead v.data (u * 65536) 65536)
    (r.1 = none → s.storePages id n u = r.2) ∧
    (∀ q, r.1 = some q → q.item = .object id n u ∧ q.lun = v.lun + u ∧ q.slots ≠ [] ∧ q ∈ (s.storePages id n u).ftl.stores ∧
      ∃ w, (s.storePages id n u).version? id n = some w ∧
        w.dirty = v.dirty.map fun d => if d.page / 16 = u then { d with store := some q.id } else d)) ∧
  (∀ (s : State) (r : StoreRec) (id n u : Nat), r.item = .object id n u → 0 < s.storeLocation r →
    ((s.ownerOf? r.lun).isSome = true → (s.installStore r).mapEntry r.lun = s.storeLocation r) ∧
    ((s.ownerOf? r.lun).isSome = false → s.installStore r = s)) ∧
  (∀ (s : State) (n : Nat), s.still = false → exec (.writebackEnd n) s = .next
    ((s.retireData n).throttle.noteProtection.migrateFull.reclaimForeground.finishFlushes.resumeHeld).issueStores.tryShutdown) ∧
  (∀ (s : State) (r : StoreRec) (id n : Nat) (v : Version), s.version? id n = some v →
    ∃ w, (s.retirePages r id n).version? id n = some w ∧ w.dirty = v.dirty.filter (fun d => d.store ≠ some r.id) ∧
      (s.retirePages r id n).tiers.credit = s.tiers.credit + 2048 * (v.dirty.filter fun d => d.store = some r.id).length) ∧
  (∀ s : State, s.still = false → s.haltedBy .drive = false → s.mapSlot ≠ [] → s.mapSlot.length ≤ 16 ∧
    (∀ m ∈ s.mapSlot, ∃ d ∈ s.ftl.dirtyMaps, d.page = m ∧ d.store = none) ∧
    exec .mapPageJournal s = .next (s.storeMaps s.mapSlot []).serveFlash.goOnAll) ∧
  (∀ (s : State) (r : StoreRec) (ms ats : List Nat) (es : List (Nat × Nat)),
    (s.retireMaps r ms es ats).ftl.dirtyMaps = s.ftl.dirtyMaps.filter fun d => d.store ≠ some r.id) ∧
  (∀ s : State, s.power.phase = .service →
    (s.bt < s.ftl.nextWindow → exec .backgroundWindow s = .next s) ∧
    (s.ftl.nextWindow ≤ s.bt → ∃ u : State, exec .backgroundWindow s = .next u.patrol.issueStores ∧
      u.ftl.nextWindow = s.bt + 10000 ∧ u.ftl.windowEnd = s.bt + 2500 ∧ u.bt = s.bt ∧
      u.patrol.err.patrolLines =
        (if s.err.patrolSince + 604800000000 ≤ s.bt then 1 else s.err.patrolLines + 1))) ∧
  ∀ (s : State) (d : Die) (u s2 s3 f : Nat), (s.eunit d u).state = .closed → (s.eunit d u).failing = false →
    (s.eunit d u).waitMaps = none → poolRole d u = none →
    let rd := fun x : EraseUnit => if (if x.slc then 1000000 else 200000) ≤ x.reads then 0 else x.reads + x.n
    let w := s.updChannel d.channel fun k => { k with
      stage1 := k.stage1 + (16 * (s.eunit d u).n - (s2 + s3 + f)), stage2 := k.stage2 + s2, stage3 := k.stage3 + s3
      uncorrectable := sat32 (k.uncorrectable + f) }
    (s3 + f = 0 → exec (.verifyAfterClose d u ⟨s2, s3, f⟩) s =
      .next (w.updEunit d u fun x => { x with state := .verified, reads := rd x }).releaseParity.serveFlash) ∧
    (s3 + f ≠ 0 →
      let t := w.updEunit d u fun x =>
        { x with verifyFails := x.verifyFails + 1, failing := decide (1 ≤ x.verifyFails), reads := rd x }
      exec (.verifyAfterClose d u ⟨s2, s3, f⟩) s = .next (t.relocateOnce .foreground (t.eunit d u)))

/-- R319, R325, R330, R331, R333 to R336, R353, R366: the running operation of a die ends. A read counts its codewords by stage and serves
its owner; a blank check passes with its last page where every page was blank, and makes the unit BAD at the second failure; a program that passes
moves its unit's pointer, closing a full unit; an erase that passes leaves its unit empty with DONE journalled, one that fails
marks it to be BAD; the unit is FREE or BAD once DONE is durable; a suspend takes effect. -/
def Obligations.DieOperationsEnd : Prop :=
  (∀ (s : State) (d : Die) (stages : List Nat) (o : DieOp), s.runningOp? d .read = some o →
    let e := s.eunit d o.unit
    let after := fun t : State => t.refuseQueued.serveFlash.pumpFlash.markUrgent.serveReads
    (o.owner = .blank → e.state = .free → stages = [] → o.die = d → (s.endOp o).flash.ops.any (DieOp.checksBlank d o.unit) →
      exec (.dieReadEnd d stages) s = .next (after (s.endOp o))) ∧
    (o.owner = .blank → e.state = .free → stages = [] → o.die = d → (s.endOp o).flash.ops.any (DieOp.checksBlank d o.unit) = false →
      exec (.dieReadEnd d stages) s = .next (after ((s.endOp o).updEunit d o.unit fun x => { x with blankOk := true, blankFails := 0 }))) ∧
    (o.owner = .blank → e.state = .free → stages ≠ [] → 1 ≤ e.blankFails → o.die = d → poolRole d o.unit = none →
      exec (.dieReadEnd d stages) s = .next (after (((((s.endOp o).dropBlank d o.unit).updChannel d.channel fun k =>
        { k with blankFails := sat32 (k.blankFails + 1) }).leaveSet d o.unit).updEunit d o.unit fun x =>
        { x with state := .bad, blankFails := 2 }))) ∧
    (o.owner ≠ .blank →
      let t := ((s.endOp o).updEunit d o.unit fun x => { x with reads := x.reads + 1 }).updChannel d.channel
        fun k => k.addStages stages
      let lost := stages.any (3 ≤ ·) && !t.parityCovers d o.unit o.page
      (∀ slot lun, o.owner = .command slot lun → exec (.dieReadEnd d stages) s = .next
        (t.commandRead slot lun o stages lost).pumpFlash.serveReads) ∧
      (∀ slot lun, o.owner = .object slot lun → exec (.dieReadEnd d stages) s = .next
        (t.objectRead slot lun o stages lost).pumpFlash.serveReads) ∧
      (o.owner = .raw → o.die = d → exec (.dieReadEnd d stages) s = .next ({ t with test := { t.test with
        window := memWrite (memErase t.test.window 0 65536) 0 (t.pageData d o.unit o.page)
        stages := stages ++ List.replicate (16 - stages.length) 0, busy := none
        status := if stages.any (3 ≤ ·) then .mediaUncorrectable else .ok } } : State).pumpFlash.serveReads) ∧
      (o.owner = .scan → exec (.dieReadEnd d stages) s = .next (t.scanRead o stages).pumpFlash.serveReads))) ∧
  (∀ (e : EraseUnit) (q now : Nat), (e.programmed q now).n = e.n + 1 ∧
    ((e.programmed q now).state = .closed ↔ e.n + 1 = e.pages) ∧ (e.n + 1 ≠ e.pages → (e.programmed q now).state = .opened)) ∧
  (∀ (s : State) (d : Die) (o : DieOp), s.runningOp? d .program = some o →
    let after := fun t : State => t.refuseQueued.serveFlash.noteProtection.throttle.markUrgent.pumpFlash.goOnAll.serveReads
    exec (.dieProgramEnd d true) s = .next (after ((s.endOp o).programPass o)) ∧
    exec (.dieProgramEnd d false) s = .next (after ((s.endOp o).programFail o))) ∧
  (∀ (s : State) (o : DieOp) (p : PageImage), o.fill = some p → o.owner = .dusk →
    s.programPass o = (s.programImage o.die o.unit o.page p).updEunit o.die o.unit fun x => x.programmed o.seq s.bt) ∧
  (∀ (s : State) (d : Die) (o : DieOp), s.runningOp? d .erase = some o → poolRole d o.unit = none →
    let slc := decide (o.page = 1)
    let t := (s.endOp o).eraseData d o.unit
    exec (.dieEraseEnd d true) s =
      .next ((t.updEunit d o.unit fun x => { x.erased slc with failing := false }).journal .done slc d
        o.unit).refuseQueued.markUrgent.pumpFlash ∧
    exec (.dieEraseEnd d false) s = .next
      ((((t.updEunit d o.unit fun x => { x.erased slc with failing := true }).raise
        { faultOf 0x0A 0 with location := physAddr d o.unit 0 slc }).updEunit d o.unit fun x =>
          { x with wear := x.wear - (if slc then 1 else 4) }).journal .done slc d o.unit).refuseQueued.markUrgent.pumpFlash) ∧
  (∀ (s : State) (r : JournalRec), s.dueDone? = some r →
    ((∃ o ∈ s.recordOps r.seq, o.st ≠ .running) → exec .journalDoneDurable s = .next s) ∧
    (s.recordOps r.seq = [] → r.durableA = true → r.durableB = true → s.test.busy = none →
      exec .journalDoneDurable s = .next
        (s.updEunit r.die r.unit fun x => { x with
          state := if (s.eunit r.die r.unit).failing then .bad else .free, failing := false
          }).releaseErases.releaseParity.issueStores.serveFlash.noteProtection.markUrgent.pumpFlash)) ∧
  ∀ (s : State) (d : Die), exec (.dieSuspendEnd d) s = .next ({ s with flash := { s.flash with
    ops := s.flash.ops.map fun o => if o.die = d ∧ o.st = .suspending then { o with st := .suspended } else o
    } } : State).pumpFlash

/-- R446, R453, R459, R467, R470: a parity error on a path is counted and its words are sent again, the fourth in a row within 10 BT faults
the path; a channel halts on a failed line and is listed once; a docent core whose watchdog has not restarted for
1,000 BT, and one that faults, closes without draining, with one record. -/
def Obligations.PathsChannelsAndCoresFail : Prop :=
  (∀ (s : State) (p : Path), s.pathOpen p = true →
    (∀ e, s.err.paths.find? (fun e => e.path = p && s.bt ≤ e.first + 10) = some e →
      (e.count < 3 → exec (.transportParityError p) s = .next { s with err := { s.err with
        paths := s.err.paths.filter (fun e => e.path ≠ p) ++ [{ e with count := e.count + 1 }]
        resends := updAt (pathDie p) (fun n => sat32 (n + 1)) s.err.resends } }) ∧
      (3 ≤ e.count → exec (.transportParityError p) s = .next (({ s with err := { s.err with
        paths := s.err.paths.filter fun e => e.path ≠ p } } : State).pathFault p))) ∧
    (s.err.paths.find? (fun e => e.path = p && s.bt ≤ e.first + 10) = none →
      exec (.transportParityError p) s = .next { s with err := { s.err with
        paths := s.err.paths.filter (fun e => e.path ≠ p) ++ [{ path := p, first := s.bt, count := 1 }]
        resends := updAt (pathDie p) (fun n => sat32 (n + 1)) s.err.resends } })) ∧
  (∀ (s : State) (line : LineKind),
    ((DmaOwner.drive, line) ∉ s.err.halts → exec (.channelHalt .drive line) s =
      .next { s with err := { s.err with halts := s.err.halts ++ [(.drive, line)] } }) ∧
    ((DmaOwner.drive, line) ∈ s.err.halts → exec (.channelHalt .drive line) s = .next s) ∧
    (∀ id c, s.slot? id = some c → c.phase ≠ .done → (DmaOwner.slot id, line) ∉ s.err.halts →
      exec (.channelHalt (.slot id) line) s =
        .next { s with err := { s.err with halts := s.err.halts ++ [(.slot id, line)] } }) ∧
    ∀ id j, s.job? id = some j → j.state = .running → (DmaOwner.job id, line) ∉ s.err.halts →
      exec (.channelHalt (.job id) line) s =
        .next { s with err := { s.err with halts := s.err.halts ++ [(.job id, line)] } }) ∧
  ∀ (s : State) (core : Nat),
    (s.docent.restarted.getD core 0 + 1000 ≤ s.bt →
      exec (.docentWatchdog core) s = exec (.docentCoreFault core) s) ∧
    (s.bt < s.docent.restarted.getD core 0 + 1000 → exec (.docentWatchdog core) s = .next s) ∧
    ∀ u, s.unit? .docent core = some u → u.state = .inService → ∃ t, exec (.docentCoreFault core) s = .next t ∧
      t.unitIs .docent core .closed = true ∧ t.power = s.power ∧ t.tiers = s.tiers ∧ t.block = s.block

/-- R148, R176, R453, R456 to R458: a machine trap on state parity and an engine parity error replay their job from its last pause point,
with one record, and close the cluster at the second on it within a span; a fetch whose CRC fails refetches the line and the
thread goes on; a line that a source gives back is replaced and every channel halted on it goes on. That a fetch failure raises no
record is the model's reading (assumption log 57). -/
def Obligations.JobErrorsReplayAndLinesRecover : Prop :=
  (∀ (s : State) (h : Thr) (j : Job) (c : JobCluster) (t : Thread), s.job? h.job = some j → j.state = .running →
    j.ending = none → j.clusters[h.cluster]? = some c → c.threads[h.thread]? = some t → t.st ≠ .exited →
    let counted := { s with err := { s.err with
      cluCnt := updAt c.phys (fun k => (k.1, k.2.1, sat32 (k.2.2 + 1))) s.err.cluCnt } }
    (c.phys ∉ j.spanEvents →
      exec (.machineTrap h false) s = .next (((counted.updJob h.job fun k =>
        { k with spanEvents := c.phys :: k.spanEvents }).raise
          { faultUnit 0x05 1 .cluster c.phys 0 with detail := j.client }).replay h.job) ∧
      ∀ e : Nat, e < 4 → exec (.engineParityError { job := h.job, cluster := h.cluster, engine := e }) s =
        .next (((counted.updJob h.job fun k =>
          { k with spanEvents := c.phys :: k.spanEvents }).raise
            { faultUnit 0x06 1 .cluster c.phys 0 with detail := j.client }).replay h.job)) ∧
    (c.phys ∈ j.spanEvents → exec (.machineTrap h false) s = .next (counted.clusterFault 0x05 c.phys) ∧
      exec (.engineParityError { job := h.job, cluster := h.cluster, engine := 0 }) s =
        .next (counted.clusterFault 0x06 c.phys)) ∧
    ∃ u, exec (.machineTrap h true) s = .next u ∧ u = s.storeFailure c.phys (j.codeRegion.1 + t.pc) ∧
      ((∀ f ∈ s.err.lineFails, f.phys ≠ c.phys) → u.sched = s.sched ∧ u.err.log = s.err.log)) ∧
  ∀ (s : State) (line : LineKind) (phys loc : Nat) (good : List Bool),
    (∃ i, i < s.sources line ∧ good[i]? = some true) →
    exec (.lineRecoveryEnd line phys loc good) s = .next
      { s.countLine line phys loc with err := { (s.countLine line phys loc).err with
        halts := (s.countLine line phys loc).err.halts.filter fun h => h.2 ≠ line } }

/-- R479, R522 to R526, Table 21-5: where the sideband signals work, a boundary-scan instruction selects its register and its effect on the
pins: EXTEST and its pulse and train forms drive the boundary cells, CLAMP holds them and HIGHZ floats them where the pins are
free, and act as BYPASS elsewhere; IDCODE reads 0x196006B7, BOOT_STATUS a copy of PWR_BOOT_STATUS; SAMPLE drives nothing. Where
they do not work nothing changes. -/
def Obligations.BoundaryScanTakesEffect : Prop :=
  (∀ s : State, s.sideband = true →
    let off : Nat → Nat → Host.Outcome State Fault Refusal := fun code dr => .next { s with test := { s.test with
      ir := code, dr := dr, holdsPins := false, highZ := false } }
    exec .tapReset s = off 0x01 0x196006B7 ∧ exec .idcode s = off 0x01 0x196006B7 ∧
    exec .bootStatus s = off 0x10 (s.power.phase.code + 256 * s.power.failure.code) ∧ exec .bypass s = off 0xFF 0 ∧
    (∀ pins cells : List Bool, pins.length = 3191 → cells.length = 3191 → exec (.samplePreload pins cells) s = .next
      { s with test := { s.test with
        ir := 0x02, dr := 0, holdsPins := false, highZ := false, sampled := pins, boundary := cells } }) ∧
    (s.pinsFree = true →
      (∀ r ∈ ([(Instr.extest, 0x00), (Instr.extestPulse, 0x06), (Instr.extestTrain, 0x07)]
        : List ((List Bool → Instr) × Nat)), ∀ cells : List Bool, cells.length = 3191 →
        exec (r.1 cells) s = .next { s with test := { s.test with
          ir := r.2, dr := 0, boundary := cells, holdsPins := true, highZ := false } }) ∧
      exec .clamp s = .next { s with test := { s.test with ir := 0x04, dr := 0, holdsPins := true, highZ := false } } ∧
      exec .highz s = .next { s with test := { s.test with ir := 0x05, dr := 0, holdsPins := false, highZ := true } }) ∧
    (s.pinsFree = false →
      (∀ r ∈ ([(Instr.extest, 0x00), (Instr.extestPulse, 0x06), (Instr.extestTrain, 0x07)]
        : List ((List Bool → Instr) × Nat)), ∀ cells : List Bool, exec (r.1 cells) s = off r.2 0) ∧
      exec .clamp s = off 0x04 0 ∧ exec .highz s = off 0x05 0)) ∧
  ∀ s : State, s.power.state = .off → ∀ i ∈ ([.tapReset, .idcode, .clamp, .highz, .bootStatus, .bypass, .extest [],
    .samplePreload [] [], .extestPulse [], .extestTrain []] : List Instr), exec i s = .next s

/-- R422, R531, Table 21-4: each code of the management bus answers with its value, low byte first, in its size; the answer has the size of
its row; where the bus does not answer there is none. Nothing else changes. -/
def Obligations.ManagementBusAnswers : Prop :=
  (∀ s : State, s.sideband = true →
    ∀ r ∈ ([(.smbPowerState, leBytes 1 s.power.state.code),
        (.smbBootStatus, leBytes 4 (s.power.phase.code + 256 * s.power.failure.code)),
        (.smbInputVoltage, leBytes 2 s.power.inVolt), (.smbInputCurrent, leBytes 2 s.power.inAmp),
        (.smbInputPower, leBytes 2 s.power.inWatt),
        (.smbHoldupEnergy, leBytes 2 (if s.power.valid then s.power.energy else 0)),
        (.smbComputeTemp, leBytes 2 (s.power.tempCompute % 65536).toNat),
        (.smbFlashTemp, leBytes 2 (s.power.tempFlash % 65536).toNat),
        (.smbDramTemp, leBytes 2 (s.power.tempDram % 65536).toNat), (.smbDuskBudget, leBytes 8 s.tiers.budget),
        (.smbDirtyDurable, leBytes 8 s.dirtyBytes),
        (.smbUnreadFaults, leBytes 2 (s.err.log.filter fun q => !q.isRead).length),
        (.smbSerial, fitBytes 16 (slice s.sec.identity 8 16))] : List (Instr × Bytes)),
      exec r.1 s = .next { s with test := { s.test with smb := r.2 } }) ∧
  (∀ s : State, s.sideband = false → ∀ i ∈ ([.smbPowerState, .smbBootStatus, .smbInputVoltage, .smbInputCurrent,
      .smbInputPower, .smbHoldupEnergy, .smbComputeTemp, .smbFlashTemp, .smbDramTemp, .smbDuskBudget, .smbDirtyDurable,
      .smbUnreadFaults, .smbSerial] : List Instr),
    exec i s = .next { s with test := { s.test with smb := [] } }) ∧
  ∀ k n : Nat, (leBytes k n).length = k ∧ leNat (leBytes k n) = n % 256 ^ k

/-- R19 and the chapters of the commands: where a security, program, search, table, gather, folio or reduction command executes normally, as
its fields, its object and the drive's state alone decide, it answers a next state with its own effect; and so do the events of its
work. What each leaves alone, and what it does on every other path, the statements of its family say. -/
def Obligations.CommandsCompleteWithTheirEffect : Prop :=
  ((∀ (s : State) (slot : Nat) (c : Slot), Handed s slot 0x0A false c → s.updateLocked = false → s.sec.state ≠ .writing →
    ∃ t : State, exec (.fwStage slot) s = .next (t.finish slot .ok c.dataLen 0) ∧ t.sec.target = c.arg 40 1 ∧
      t.sec.staged = memWrite (if bitAt (c.arg 41 1) 0 then [] else s.sec.staged) (c.arg 44 4) (s.dataBytes c)) ∧
  (∀ (s : State) (slot : Nat) (c : Slot), Handed s slot 0x0B false c → s.sec.signing = none → s.activateFault c = none →
    ∃ t, exec (.fwActivate slot) s = .next t ∧ t.sec.state = .writing ∧
      t.sec.writing = some (c.arg 40 1, memRead s.sec.staged 0 (c.arg 44 4), 0, bitAt (c.arg 41 1) 0)) ∧
  (∀ (s : State) (target n : Nat) (b : Bytes) (restart : Bool), s.sec.writing = some (target, b, n, restart) → s.still = false →
    ∃ t, exec (.fwWriteEnd true) s = .next t ∧ t.sec.state = .pending ∧ t.sec.writing = none ∧
      (target = 1 → t.sec.firmware = some b) ∧ (target = 2 → t.sec.config = some b)) ∧
  (∀ (s : State) (slot : Nat) (stuck : List Nat) (c : Slot), Handed s slot 0x0C false c → s.updateLocked = false →
    s.sec.state ≠ .writing → s.sec.m.getD 0 [] = s.dataBytes c → ∃ t, exec (.rollbackAdvance slot stuck) s = .next t ∧
      t.sec.rollback = s.sec.rollback ++ ((List.range 256).filter fun i => i ∉ s.sec.rollback ∧ i ∉ stuck).take
        (s.sec.fwVersion - s.rollback) ∧
      ∀ i, i ∈ t.sec.revoked ↔ i ∈ s.sec.revoked ∨ i ∈ s.sec.fwRevoke) ∧
  (∀ (s : State) (slot : Nat) (c : Slot), Handed s slot 0x09 true c → s.sec.attestOk = true →
    exec (.attest slot) s = .next (s.setWork slot (.attest [])).signNext) ∧
  ∀ (s : State) (id : Nat) (c : Slot) (r : Bytes), s.sec.signing = some id → s.slot? id = some c → c.work = .attest r →
    s.still = false → s.reachable (s.ringOf c.sq) = true → exec .signatureEnd s = .next
      (({ (s.writeResult c 0 (r ++ fitBytes 35664 (Config.slhSign r))).finish id .ok 0 0 with
          sec := { s.sec with signing := none } } : State).signNext)) ∧
  ((∀ (s : State) (slot : Nat) (c : Slot), Handed s slot 0x30 true c →
    let b := s.dataBytes c
    let n := imageSize b.length
    imageFault b = none → s.obj? (c.arg 40 4) = none → s.programError (c.arg 40 4) (c.arg 44 2) n = none → s.admitsDirty n = true →
    ∃ (t : State) (o : Obj) (v : Version), exec (.programLoad slot) s =
        .next (t.ackWrite slot o false (pageList (c.arg 40 4) (c.arg 44 2) 0 n) 0) ∧
      t.obj? (c.arg 40 4) = some o ∧ o.ver? (c.arg 44 2) = some v ∧ v.state = .current ∧ v.image = some (parseImage b)) ∧
  (∀ (s : State) (slot : Nat) (c : Slot) (p : Nat × Nat) (bound : List (Nat × Nat)) (g : Image) (j : Job), Handed s slot 0x31 true c →
    c.pins = p :: bound → s.image? p.1 p.2 = some g → s.jobOf? slot = some j → ∃ t k, exec (.jobRun slot) s = .next t ∧
      k ∈ t.sched.jobs ∧ k.id = j.id ∧ k.image = some g ∧ k.ready = true) ∧
  (∀ r ∈ ([(Instr.indexCreate, 0x40, 3), (Instr.tableCreate, 0x50, 4)] : List ((Nat → Instr) × Nat × Nat)),
    ∀ (s : State) (slot : Nat) (c : Slot), Handed s slot r.2.1 true c → s.idHeld (c.arg 40 4) = false →
    (s.tiers.objects.filter fun o => o.kind = r.2.2).length < 4096 →
    s.createError r.2.2 (c.arg 48 8) (c.arg 46 1 / 4 % 4) (s.classOf r.2.2 (c.arg 46 1 % 4) (c.arg 46 1 / 4 % 4)) = none →
    ∃ (t : State) (o : Obj), exec (r.1 slot) s = .next ((t.writeResult c 0 (leBytes 8 o.base ++ zeroBytes 8)).finish slot .ok 0 0) ∧
      t.obj? (c.arg 40 4) = some o ∧ o.kind = r.2.2 ∧ o.size = c.arg 48 8) ∧
  (∀ (s : State) (slot : Nat) (c : Slot) (o : Obj), s.obj? (c.arg 40 4) = some o →
    (Handed s slot 0x46 true c → exec (.indexQuery slot) s = .next ((s.writeResult c 0 (indexRecord o)).finish slot .ok 0 0)) ∧
    (Handed s slot 0x53 true c → exec (.tableQuery slot) s = .next ((s.writeResult c 0 (s.tableRecord o)).finish slot .ok 0 0))) ∧
  (∀ (s : State) (slot : Nat) (c : Slot) (o : Obj) (v : Version), Handed s slot 0x41 false c → s.accessionAhead c = false →
    s.obj? (c.arg 40 4) = some o → o.current? = some v → v.impaired = false → c.dataLen = c.arg 46 2 * v.indexHdr.entryStride →
    (∀ b ∈ chunksOf v.indexHdr.entryStride (c.arg 46 2) (s.dataBytes c), entryOk v.indexHdr b = true) →
    v.index.entries.length + c.arg 46 2 ≤ 16777216 →
    ceilDiv (v.listBytes + c.arg 46 2 * v.indexHdr.entryStride) 65536 - ceilDiv v.listBytes 65536 ≤ s.freeUnits → o.durable = false →
    ∃ (t u : State) (p : Obj) (x : Version) (ps : List (Nat × Nat × Nat)), t.obj? (c.arg 40 4) = some p ∧ p.current? = some x ∧
      x.index.entries = v.index.entries ++ (chunksOf v.indexHdr.entryStride (c.arg 46 2) (s.dataBytes c)).mapIdx
        (fun i b => decodeEntry v.indexHdr b (v.index.entries.length + i + 1)) ∧
      u = t.ackWrite slot p false ps (v.index.entries.length + c.arg 46 2) ∧
      (exec (.accession slot) s = .next u ∨
        exec (.accession slot) s = .next (u.accessionDone c (v.index.entries.length + c.arg 46 2)))) ∧
  (∀ r ∈ ([(Instr.searchD, 0x42), (Instr.searchX, 0x43)] : List ((Nat → Instr) × Nat)),
    ∀ (s : State) (slot : Nat) (c : Slot) (w : SearchWork) (x : SearchCtx), Handed s slot r.2 true c → c.work = .search w →
    let p := decodeSearch (s.dataBytes c)
    s.queriesRunning + p.nq ≤ 512 → s.searchCtx c p w = some x → p.encode = false → p.rerank = false →
    s.grade.hasDistance = true → x.ver.impaired = false →
    let qs := (List.range p.nq).map fun i => slice (s.dataBytes c) (64 + 16 * p.nterms + i * x.hdr.vecStride) x.hdr.vecStride
    let one := fun q : Bytes => if r.2 = 0x42 then x.classD p (x.hdr.codes q) else x.classX p (x.hdr.codes q)
    exec (r.1 slot) s =
      .next (s.finishSearch c p { w with queries := qs, results := qs.map one } (keyType x.kernel x.hdr.fmt))) ∧
  (∀ (s : State) (slot : Nat) (c : Slot), Handed s slot 0x45 false c → kernelLengthOk (s.dataBytes c) = true →
    kernelFieldsOk (s.dataBytes c) = true → s.kernelInUse (c.arg 40 1) = false → c.arg 40 1 < 64 → ∃ t : State,
      exec (.kernelLoad slot) s = .next (t.finish slot .ok 0 0) ∧ t.search.kernels.getD (c.arg 40 1) [] = s.dataBytes c) ∧
  (∀ (s : State) (slot q : Nat) (c : Slot) (ps : List (Nat × Nat)) (o : Obj) (v : Version), Handed s slot 0x44 false c →
    s.obj? (c.arg 40 4) = some o → c.pins = (c.arg 40 4, q) :: ps → o.ver? q = some v → v.state = .current → v.impaired = false →
    (∀ x ∈ s.newVersionChecks o (c.arg 44 2) o.size, x.1 = false) →
    (if v.indexHdr.graph then 2 else 1) ≤ (v.liveVectors (v.snap v.index.committed)).length →
    (v.indexHdr.merged (v.liveVectors (v.snap v.index.committed)).length []).end_ ≤ o.size → o.durable = false →
    ∃ t j, exec (.accessionMerge slot) s = .next t ∧ t.sched.jobs.getLast? = some j ∧ j.kind = .merge ∧ j.slot = slot) ∧
  ∀ (s : State) (slot n at_ : Nat) (c : Slot) (o : Obj) (v w : Version), s.slot? slot = some c → c.phase = .running →
    c.work = .merge n at_ .built → s.obj? (c.arg 40 4) = some o → o.current? = some v → o.ver? n = some w → o.accessing = none →
    w.dirty = [] → w.state = .building → w.impaired = false → w.lost = [] → o.durable = false →
    ∃ (t : State) (p : Obj) (x : Version) (ps : List (Nat × Nat × Nat)),
      exec (.mergeCommit slot) s = .next (t.ackWrite slot p false ps 0) ∧ t.obj? (c.arg 40 4) = some p ∧ p.ver? n = some x ∧
      x.state = .current) ∧
  ((∀ r ∈ ([(Instr.gather, 0x51, true), (Instr.gatherPrefetch, 0x52, false)] : List ((Nat → Instr) × Nat × Bool)),
    ∀ (s : State) (slot : Nat) (c : Slot) (id n : Nat) (ps : List (Nat × Nat)) (v : Version), Handed s slot r.2.1 r.2.2 c →
    (s.atr.slots.filter fun d => d.opcode = r.2.1 && d.phase = .running).length < 8 →
    (∀ d ∈ s.atr.slots, d.opcode = r.2.1 → d.phase = .handed → c.order ≤ d.order) →
    c.pins = (id, n) :: ps → s.version? id n = some v → v.impaired = false →
    badIndex v.tableHdr.logical ((chunksOf 8 (c.arg 48 4) (s.dataBytes c)).map leNat) = none → exec (r.1 slot) s =
      .next (s.startStep slot id n v.tableHdr { indices := (chunksOf 8 (c.arg 48 4) (s.dataBytes c)).map leNat })) ∧
  (∀ (s : State) (slot id n : Nat) (c : Slot) (ps : List (Nat × Nat)) (v : Version) (w : GatherWork), s.slot? slot = some c →
    c.phase = .running → c.work = .gather w → c.pins = (id, n) :: ps → s.still = false → c.fetching = [] →
    s.haltedBy (.slot slot) = false → c.opcode = 0x51 → s.reachable (s.ringOf c.sq) = true → s.version? id n = some v →
    v.impaired = false → stepLength [] (w.indices.drop w.pos) = (w.indices.drop w.pos).length →
    (∀ i ∈ w.indices.drop w.pos, ∀ p ∈ v.tableHdr.rowsOf i,
      v.firstLost (v.tableHdr.rowAt p.1 p.2) (v.tableHdr.stride (v.tableHdr.region p.1).2) = none) →
    ∃ (u : State) (k : GatherWork), exec (.gatherStepEnd slot) s =
      .next (((u.writeResult c (w.pos * v.tableHdr.rowBytes (c.arg 46 1))
        ((w.indices.drop w.pos).flatMap fun i => (v.tableHdr.deliver v (c.arg 46 1) i).1)).writeResult c
          (k.pos * v.tableHdr.rowBytes (c.arg 46 1)) k.record).finish slot .ok k.pos 0)) ∧
  (∀ s : State, (s.gather.decayed + 1000000 ≤ s.bt → exec .hotDecay s = .next { s with gather := { s.gather with
      decayed := s.gather.decayed + 1000000, tracker := s.gather.tracker.map fun t => { t with count := t.count / 2 } } }) ∧
    ∃ t, exec .prefetchProtectExpiry s = .next t ∧ ∀ c ∈ t.gather.copies, ∀ g, c.guardUntil = some g → s.bt < g) ∧
  (∀ (s : State) (slot : Nat) (c : Slot), Handed s slot 0x58 true c → s.idHeld (c.arg 40 4) = false →
    (s.tiers.objects.filter fun o => o.kind = 5).length < 16777216 →
    s.createError 5 (folioOfArgs c.entry).size (c.arg 47 1 / 4 % 4) (s.classOf 5 (c.arg 47 1 % 4) (c.arg 47 1 / 4 % 4)) = none →
    s.classOf 5 (c.arg 47 1 % 4) (c.arg 47 1 / 4 % 4) = false → ∃ (t : State) (o : Obj) (v : Version), exec (.folioCreate slot) s =
      .next ((t.writeResult c 0 (leBytes 8 o.base ++ leBytes 8 (folioOfArgs c.entry).size)).ackWrite slot o false
        (pageList (c.arg 40 4) 1 0 4096) 0) ∧
      t.obj? (c.arg 40 4) = some o ∧ o.kind = 5 ∧ o.ver? 1 = some v ∧ v.data = memWrite [] 0 (folioOfArgs c.entry).bytes) ∧
  (∀ (s : State) (slot id n : Nat) (c : Slot) (ps : List (Nat × Nat)) (o : Obj) (v : Version),
    c.pins = (id, n) :: ps → s.tiers.objects.find? (·.id = id) = some o → o.ver? n = some v → v.impaired = false →
    let f := v.folioHdr
    let tokens := c.arg 48 4
    (Handed s slot 0x59 false c → f.tokens + tokens ≤ 128 * f.blocks → o.durable = false →
      (f.tokens + tokens) / 128 = f.tokens / 128 → s.writesThrough o = false → ∃ (t : State) (y : Version) (m : Mem),
        t.version? id n = some y ∧ y.data = memWrite m 0 ((FolioHdr.bytes { f with
          tokens := f.tokens + tokens, nan := f.nan || anyNanBf16 (s.dataBytes c) }).take 64) ∧
        exec (.folioAppend slot) s = .next (t.ackWrite slot o false ((id, n, 0) :: f.appendPages id n tokens) (f.tokens + tokens))) ∧
    (Handed s slot 0x5C false c → 0 < tokens → tokens ≤ f.tokens → tokens % 128 = 0 ∨ f.tokens / 128 * 128 ≤ tokens →
      o.durable = false → ∃ (t : State) (x : Version), exec (.folioTruncate slot) s =
        .next (t.ackWrite slot o false [(id, n, 0)] tokens) ∧ t.version? id n = some x ∧
        x.data = memWrite v.data 20 (leBytes 4 tokens)) ∧
    (Handed s slot 0x5A true c → c.arg 52 4 + c.arg 56 4 ≤ f.tokens → s.attendsRunning < 64 →
      s.flashReads id n (f.reads c) = [] → ∃ t j, exec (.folioAttend slot) s = .next t ∧
        t.sched.jobs.getLast? = some j ∧ j.kind = .attend ∧ j.slot = slot) ∧
    (Handed s slot 0x5B true c → c.arg 52 4 + c.arg 56 4 ≤ f.tokens → c.arg 50 1 ≠ 1 → s.attendsRunning < 64 →
      s.flashReads id n (f.reads c) = [] → ∃ t : State, exec (.folioReload slot) s = .next ((t.writeResult c 0
        (((List.range (c.arg 48 2)).flatMap fun l => (List.range f.heads).map fun h => (c.arg 46 2 + l, h)).flatMap fun p =>
          f.reloadRows v.data p.1 p.2 (c.arg 52 4) (c.arg 56 4))).finish slot .ok (c.arg 56 4) 0))) ∧
  (∀ (s : State) (slot : Nat) (c : Slot), (∀ p ∈ s.link.ports, p.held = []) →
    (Handed s slot 0x60 false c → (∀ x ∈ (s.specDomainSet c.entry).objects, x.1 = false) → s.reductionClosed = false →
      exec (.domainSet slot) s = .next ((s.updDom (c.arg 40 1) fun _ =>
        { state := .ready, tag := c.arg 46 2, ranks := c.arg 42 2, rank := c.arg 44 2, parent := c.arg 48 4, left := c.arg 52 4
          right := c.arg 56 4, stallBt := c.arg 60 4, nextRound := 1 }).finish slot .ok 0 0)) ∧
    (Handed s slot 0x61 false c → (∀ x ∈ (s.specDomainClear c.entry).objects, x.1 = false) →
      exec (.domainClear slot) s = .next ((s.updDom (c.arg 40 1) fun _ => {}).finish slot .ok 0 0))) ∧
  (∀ (s : State) (slot : Nat) (c : Slot), Handed s slot 0x62 true c → s.idHeld (c.arg 40 4) = false → s.reductionClosed = false →
    s.classOf 6 (c.arg 46 1) 3 = false → s.createError 6 (resSize (c.arg 48 4)) 3 false = none →
    ∃ (t : State) (o : Obj) (v : Version) (ps : List (Nat × Nat × Nat)), exec (.residualCreate slot) s =
        .next ((t.writeResult c 0 (leBytes 8 o.base ++ zeroBytes 8)).ackWrite slot o false ps 0) ∧
      t.obj? (c.arg 40 4) = some o ∧ o.kind = 6 ∧ o.versions = [v] ∧ v.data = memWrite (memWrite [] 0 (resHeader (c.arg 48 4) 0)) 65536
        (List.replicate (c.arg 48 4) (leBytes 2 (c.arg 52 2))).flatten) ∧
  (∀ (s : State) (slot : Nat) (c : Slot), Handed s slot 0x63 false c → exec (.reduce slot) s = .next (s.updSlot slot fun d =>
    { d with phase := .running, work := .reduce (c.arg 40 1) false })) ∧
  (∀ (s : State) (slot d : Nat) (c : Slot) (v : Version), s.slot? slot = some c → c.work = .reduce d false →
    s.version? (c.pins.headD (0, 0)).1 (c.pins.headD (0, 0)).2 = some v → s.still = false → (s.dom d).round = none →
    s.earlierReduce d c.order = false → s.reductionClosed = false → s.workChunks + c.arg 42 2 ≤ 4096 →
    s.startDue (s.makeRound c (s.dom d) v).startTick = false → d < s.domains.length → (∀ p ∈ s.link.ports, p.held = []) →
    ∃ t, exec (.roundStart slot) s = .next t ∧ (t.dom d).round = some (s.makeRound c (s.dom d) v)) ∧
  (∀ (s : State) (d : Nat) (r : Round), (s.dom d).round = some r → r.sending = false → s.startDue r.startTick = true →
    exec (.startTick d) s = .next (s.sendRound d)) ∧
  (∀ (s : State) (d : Nat) (r : Round), (s.dom d).round = some r → (s.dom d).state = .reducing → r.phase = 0 →
    r.lastPacket + (s.dom d).stallBt ≤ s.bt → s.unitIs .reduction 0 .draining = false → exec (.reductionStall d) s =
      .next ((s.updDom d fun m => { m with state := .stalled, stalls := sat32 (m.stalls + 1) }).raise
        { faultUnit 0x13 5 .reduction 0 0 with location := d, detail := r.num })) ∧
  ∀ (s : State) (vc : Nat) (k : RedPacket) (r : Round) (ch : Chunk) (p0 : Pass) (right : Bool), 3 ≤ vc → vc ≤ 6 →
    s.grade.hasReduction = true → s.portUsable 0 = true → vc - 3 < s.domains.length →
    (s.dom (vc - 3)).state ≠ .empty → (s.dom (vc - 3)).tag = k.tag → (s.dom (vc - 3)).round = some r → r.num = k.round →
    senderPart (s.dom (vc - 3)) k = some right → r.chunks.find? (·.index = k.chunk) = some ch → k.k = r.k →
    k.chunkCount = r.chunkCount → ch.complete = false → k.kind = 0 → (if k.pass2 then ch.second else some ch.first) = some p0 →
    k.pktIndex ∉ (if right then p0.right else p0.left).seen → ∃ (t : State) (p : Pass),
      exec (.reductionPacket vc k) s = .next (t.advanceChunk (vc - 3) k.chunk) ∧ p.words = addEntries k.entries p0.words ∧
      ∃ (q : Round) (x : Chunk), (t.dom (vc - 3)).round = some q ∧ q.chunks.find? (·.index = k.chunk) = some x ∧
        (if k.pass2 then x.second else some x.first) = some p)

/-- R19 and the chapters of the events: where an event of an engine, a job, the power, the start-up, the flash or an error has its occasion,
as the drive's state alone decides, it answers a next state with its own effect. What it does on every other path, the statements of its
family say. -/
def Obligations.EventsCompleteWithTheirEffect : Prop :=
  ((∀ (s : State) (e : Eng) (j : Job) (g : Engine) (o : EngOp), s.engine? e = some (j, g) →
    (g.ops.find? (fun o => o.kind = .pass && o.stepsDone) = some o → ∃ u : State, exec (.passEnd e) s =
      .next ((u.signalEnd (o.thr e) o.pc o.sig o.sync).startOps e)) ∧
    (∀ tile, g.ops.find? (fun o => o.kind = .drain && o.started && o.tile = tile) = some o → ∃ u : State, exec (.drainEnd e tile) s =
      .next ((u.signalEnd (o.thr e) o.pc o.sig o.sync).startOps e)) ∧
    (∀ tile, s.haltedBy (.job e.job) = false → g.ops.find? (fun o => o.kind = .accld && o.started && o.tile = tile) = some o →
      ∃ u : State, exec (.accldEnd e tile) s = .next ((u.signalEnd (o.thr e) o.pc o.sig o.sync).startOps e)) ∧
    (∀ d spec, s.haltedBy (.job e.job) = false → g.ops.find? (fun o => o.kind = .load && o.started) = some o → o.desc = some d →
      d.layout ≠ 2 → j.operand? d = some spec → ∃ u : State, exec (.loadEnd e) s =
        .next ((u.signalEnd (o.thr e) o.pc o.sig o.sync).judgeLoaded e o.half)) ∧
    ∀ t u, g.running? = none → j.streams.find? (fun t => t.dests.contains (e.cluster, e.engine) && j.canDeliver t) = some t →
      s.deliver e.job t = some u → exec (.groupStaged e) s = .next u) ∧
  (∀ (s : State) (job id : Nat) (j : Job) (x : Xfer), s.job? job = some j → s.haltedBy (.job job) = false →
    j.xfers.find? (fun y => y.id = id) = some x → x.written = false → x.desc.dstSpace = 0 → exec (.xferEnd job id) s =
      .next (((s.touchSource j x.desc [(x.desc.srcOffset, x.desc.length)]).updStore (j.phys x.cluster) fun m =>
        memWrite m x.desc.dstOffset (s.srcRead j x.cluster x.desc x.desc.srcOffset x.desc.length)).finishXfer job x)) ∧
  (∀ (s : State) (job handle : Nat) (j : Job) (x : Stream), s.job? job = some j → s.haltedBy (.job job) = false →
    j.streams.find? (fun t => t.handle = handle && t.live && !t.ended && t.delivered = t.desc.length) = some x → ∃ u : State,
    exec (.streamEnd job handle) s = .next ((u.signalEnd { job := job, cluster := x.cluster, thread := x.thread } x.pc x.desc.sig
      x.desc.sync).fillTree)) ∧
  (∀ (s : State) (job cycle n : Nat) (j : Job) (e : PauseEntry), s.job? job = some j → j.state = .running → j.ending = none →
    j.quiet = true → j.image.isSome = true → j.reached? = some n → j.pause? n = some e → e.layerEnd = false → e.layerStart = false →
    exec (.pausePointTaken job cycle) s = .next
      (((s.updJob job (Job.endRerun e)).savePoint job e).passPoint job (s.cycleAt cycle) e)) ∧
  (∀ (s : State) (job : Nat) (j : Job) (m : Move) (ms : List Move), s.job? job = some j → j.moves = m :: ms →
    (∀ t, s.carryOut j m.entry = (true, t) → exec (.placementMoveEnd (.job job)) s = .next (t.finishMove job)) ∧
    ((s.carryOut j m.entry).1 = false → m.entry.op = 0 ∨ m.entry.op = 2 → m.entry.tier = 1 → m.since + s.tiers.promoteWait ≤ s.bt →
      exec (.promoteWaitExpiry (.job job)) s =
        .next (({ s with tiers := { s.tiers with giveUps := sat16 (s.tiers.giveUps + 1) } } : State).finishMove job))) ∧
  (∀ (s : State) (cycle k : Nat) (j : Job) (g : Image) (ps : List Nat), s.still = false → s.tryStart = some (j, ps) →
    j.image = some g → k ≤ 1 → digest64 (g.code ++ g.const) = g.sections →
    exec (.jobStart ⟨cycle, k⟩) s = .next (s.startJob j ps (s.cycleAt cycle))) ∧
  ∀ (s : State) (job cycle : Nat) (j : Job) (st : Option Status) (c : Slot), s.job? job = some j → j.endNow = some st →
    s.slot? j.slot = some c → s.reachable (s.ringOf c.sq) = true →
    ∃ (k : Job) (u : State), exec (.jobEnd job cycle) s = .next (State.afterJob k u) ∧ k.id = j.id ∧ u.job? job = none) ∧
  ((∀ s : State, s.power.state = .active → s.power.measuring = false → s.power.measured = false →
    exec .holdupMeasure s = .next { s with power := { s.power with measuring := true, lastMeasure := s.bt } }) ∧
  (∀ (s : State) (uf esr : Nat), s.power.measuring = true → 5000 ≤ uf → uf ≤ 25000 → esr ≤ 1000 →
    ∃ t, exec (.holdupMeasureEnd true uf esr) s = .next t ∧ t.power.valid = true ∧ t.power.energy = holdupMj uf esr ∧
      t.power.measuring = false) ∧
  (∀ (s : State) (c f d : Int), s.power.state = .active → c < 1050 → f < 850 → ∃ t, exec (.thermalSample c f d) s = .next t ∧
    t.power.tempCompute = c ∧ t.power.tempFlash = f ∧ t.power.tempDram = d) ∧
  (∀ (s : State) (w1 w100 a1 a100 mv : Nat), s.power.state = .active ∨ s.power.state = .capped →
    ∃ t, exec (.governorWindow w1 w100 a1 a100 mv) s = .next t ∧ t.power.inVolt = mv / 10 ∧ t.power.inAmp = a100 / 10 ∧
      t.power.inWatt = w100 / 100) ∧
  (∀ (s : State) (p : Path), s.pathOpen p = true → s.err.paths.find? (fun e => e.path = p && s.bt ≤ e.first + 10) = none →
    exec (.transportParityError p) s = .next { s with err := { s.err with
      paths := s.err.paths.filter (fun e => e.path ≠ p) ++ [{ path := p, first := s.bt, count := 1 }]
      resends := updAt (pathDie p) (fun n => sat32 (n + 1)) s.err.resends } }) ∧
  (∀ (s : State) (line : LineKind), (DmaOwner.drive, line) ∉ s.err.halts → exec (.channelHalt .drive line) s =
    .next { s with err := { s.err with halts := s.err.halts ++ [(.drive, line)] } }) ∧
  (∀ (s : State) (core : Nat) (u : SvcUnit), s.unit? .docent core = some u → u.state = .inService →
    (∃ t, exec (.docentCoreFault core) s = .next t ∧ t.unitIs .docent core .closed = true) ∧
    (s.docent.restarted.getD core 0 + 1000 ≤ s.bt →
      ∃ t, exec (.docentWatchdog core) s = .next t ∧ t.unitIs .docent core .closed = true)) ∧
  (∀ (s : State) (line : LineKind) (phys loc : Nat) (good : List Bool), (∃ i, i < s.sources line ∧ good[i]? = some true) →
    ∃ t, exec (.lineRecoveryEnd line phys loc good) s = .next t ∧ ∀ h ∈ t.err.halts, h.2 ≠ line) ∧
  (∀ (s : State) (h : Thr) (j : Job) (c : JobCluster) (t : Thread), s.job? h.job = some j → j.state = .running → j.ending = none →
    j.clusters[h.cluster]? = some c → c.threads[h.thread]? = some t → t.st ≠ .exited → c.phys ∉ j.spanEvents →
    (∃ u : State, exec (.machineTrap h false) s = .next (u.replay h.job)) ∧
    ∃ u : State, exec (.engineParityError { job := h.job, cluster := h.cluster, engine := 0 }) s = .next (u.replay h.job))) ∧
  ((∀ s : State, ∃ t : State, exec .writebackAge s = .next t.issueStores ∧ t.block.dirty =
    s.block.dirty.map fun b => if b.since + 1000000 ≤ s.bt then { b with writing := true } else b) ∧
  (∀ (s : State) (n : Nat), s.still = false → exec (.writebackEnd n) s = .next
    ((s.retireData n).throttle.noteProtection.migrateFull.reclaimForeground.finishFlushes.resumeHeld).issueStores.tryShutdown) ∧
  (∀ s : State, s.still = false → s.haltedBy .drive = false → s.mapSlot ≠ [] →
    exec .mapPageJournal s = .next (s.storeMaps s.mapSlot []).serveFlash.goOnAll) ∧
  (∀ s : State, s.power.phase = .service → s.ftl.nextWindow ≤ s.bt → ∃ u : State,
    exec .backgroundWindow s = .next u.patrol.issueStores ∧ u.ftl.nextWindow = s.bt + 10000) ∧
  (∀ (s : State) (d : Die) (u s2 : Nat), (s.eunit d u).state = .closed → (s.eunit d u).failing = false →
    (s.eunit d u).waitMaps = none → poolRole d u = none → ∃ (w : State) (f : EraseUnit → EraseUnit),
    exec (.verifyAfterClose d u ⟨s2, 0, 0⟩) s = .next (w.updEunit d u f).releaseParity.serveFlash ∧ ∀ x, (f x).state = .verified) ∧
  (∀ (s : State) (d : Die) (stages : List Nat) (o : DieOp), s.runningOp? d .read = some o → o.owner = .raw →
    ∃ t : State, exec (.dieReadEnd d stages) s = .next t.pumpFlash.serveReads ∧ t.test.busy = none) ∧
  (∀ (s : State) (d : Die) (o : DieOp), s.runningOp? d .program = some o → ∀ good : Bool, exec (.dieProgramEnd d good) s = .next
    ((if good then (s.endOp o).programPass o else (s.endOp o).programFail
      o).refuseQueued.serveFlash.noteProtection.throttle.markUrgent.pumpFlash.goOnAll.serveReads)) ∧
  (∀ (s : State) (d : Die) (o : DieOp), s.runningOp? d .erase = some o → poolRole d o.unit = none →
    exec (.dieEraseEnd d true) s = .next (((((s.endOp o).eraseData d o.unit).updEunit d o.unit fun x =>
      { x.erased (decide (o.page = 1)) with failing := false }).journal .done (decide (o.page = 1)) d
        o.unit).refuseQueued.markUrgent.pumpFlash)) ∧
  (∀ (s : State) (r : JournalRec), s.dueDone? = some r → s.recordOps r.seq = [] → r.durableA = true → r.durableB = true →
    s.test.busy = none → exec .journalDoneDurable s = .next (s.updEunit r.die r.unit fun x => { x with
      state := if (s.eunit r.die r.unit).failing then .bad else .free, failing := false
      }).releaseErases.releaseParity.issueStores.serveFlash.noteProtection.markUrgent.pumpFlash) ∧
  ∀ (s : State) (d : Die), exec (.dieSuspendEnd d) s = .next ({ s with flash := { s.flash with
    ops := s.flash.ops.map fun o => if o.die = d ∧ o.st = .suspending then { o with st := .suspended } else o } } : State).pumpFlash) ∧
  ((∀ (s : State) (mj mv : Nat), s.power.state = .off → s.power.mated = true → s.power.overvoltage = false → 30000 ≤ mv →
    mv ≤ 40000 → ∃ t, exec (.powerGood mj mv) s = .next t ∧ t.power.state = .starting ∧ t.power.phase = .fuse) ∧
  (∀ (s : State) (m : FuseMap) (b : Option FuseMap), s.inPhase .fuse = true → s.deadLink? = none →
    ∃ t, exec (.fuseLoadEnd (some m) b) s = .next t ∧ t.power.phase = .config ∧ t.units = fuseUnitsOf m) ∧
  (∀ (s u v : State) (c f cert : Bytes), s.inPhase .config = true →
    (s.updSec fun q => { q with certificate := fitBytes 30112 cert }).acceptContainer 2 s.sec.cfgInvalid (s.sec.config.getD c) = some u →
    u.acceptContainer 1 s.sec.fwInvalid (s.sec.firmware.getD f) = some v →
    ∃ t, exec (.configLoadEnd (some c) (some f) cert) s = .next t ∧ t.power.phase = .sram ∧ t.sec = v.sec) ∧
  (∀ (s : State) (rep : List Nat), s.inPhase .sram = true →
    ∃ t, exec (.sramFillEnd rep [] [] false) s = .next t ∧ t.power = { s.power with phase := .dram }) ∧
  (∀ (s : State) (failed : List Nat) (ids : List IdentityCopy) (bad : List (Die × Nat)) (row : Bytes) (g : Grade),
    s.inPhase .dram = true → chooseRow (ids.take 4) = some row → gradeOf (field row 6 1) = some g →
    s.clustersBuilt = g.clustersBuilt → ∃ t, exec (.dramFillEnd failed ⟨ids, bad⟩) s = .next t ∧ t.power.phase = .mount ∧ t.grade = g) ∧
  (∀ (s : State) (ps : List (Nat × Nat)) (ats : List (Nat × Nat × Nat)), s.inPhase .mount = true →
    s.mountUnits.meetsMinimum = true → (s.mountUnits.mountAll ps ats).power.shutdownHeld = false →
    ∃ t, exec (.mountEnd true true true ps ats) s = .next t ∧ t.power.phase = .service) ∧
  (∀ (s : State) (mv : Nat), s.power.state ≠ .off → mv < 28000 ∨ 42000 < mv → exec (.powerFailure mv) s =
    .next (s.updPower fun p => { p with
      inVolt := mv / 10, tolerated := none, switchOpen := true, overvoltage := p.overvoltage || decide (42000 < mv) }).inputLost) ∧
  (∀ (s : State) (mv t0 : Nat), s.power.tolerated = some t0 → toleratedMv mv = true → t0 + 100000 ≤ s.bt → s.power.state ≠ .off →
    exec (.inputToleranceExpiry mv) s = .next (s.updPower fun p => { p with
      inVolt := mv / 10, tolerated := none, overvoltage := p.overvoltage || decide (40000 < mv) }).inputLost) ∧
  (∀ s : State, s.power.state = .active →
    exec (.matedN true) s = .next (s.updPower fun p => { p with mated := false, switchOpen := true }).inputLost ∧
    exec .resetN s = .next (s.trigger true .restart) ∧ exec .shdnReqN s = .next s.startShutdown) ∧
  (∀ (s : State) (mv : Nat), s.power.overvoltage = true → s.power.state = .off → 30000 ≤ mv → mv ≤ 40000 →
    exec (.inputSwitchClose mv) s = .next { s with power := { s.power with
      overvoltage := false, switchOpen := false, inVolt := mv / 10 } }) ∧
  (∀ s : State, s.power.state ≠ .off → ∃ t, exec .aonLoss s = .next t ∧ t.power.state = .off ∧ t.atr.slots = []) ∧
  (∀ s : State, s.power.flush = .triggered → ∃ t, exec .duskFlush s = .next t ∧ t.power.flush = .running ∧
    t.power.frozen = s.dirtyBytes ∧ t.power.flushSeq = s.power.flushSeq + 1) ∧
  ∀ s : State, s.power.flush = .running → ∃ t : State, exec (.duskFlushEnd false) s = .next t.afterFlush ∧ t.power = s.power)

/-- R39, R159, R342, R394, R437, R461 and the ranges of Tables 22-3, 22-5, 22-6: what Safety's Inv says of a state, every step keeps: the
sizes of the tables, the ranges of the set-up registers, the fault log's length and its rising numbers, the map's rising keys, and
the canonical form of the cluster stores, of the block range and of host memory. -/
def Obligations.EveryStepKeepsTheInvariant : Prop := ∀ s t : State, Inv s → step s = .next t → Inv t

/-- R39, R159, R412, R437, R462: Inv holds at reset. -/
def Obligations.TheInvariantHoldsAtReset : Prop := Inv State.reset

/-- R19 and the whole table: every command, in every state, answers a next state, and none touches the queue of commands that wait. -/
def Obligations.EveryCommandCompletes : Prop :=
  ∀ (c : Instr) (s : State), ∃ t, exec c s = .next t ∧ t.pending = s.pending

/-- R506, R516: no command clears a ROLLBACK bit or a revoked key slot once it is blown. -/
def Obligations.BlownFusesStayBlown : Prop :=
  ∀ (c : Instr) (s t : State), exec c s = .next t →
    (∀ i ∈ s.sec.rollback, i ∈ t.sec.rollback) ∧ ∀ i ∈ s.sec.revoked, i ∈ t.sec.revoked

/-- The model's own queue (assumption log 5): a step takes the command at the front and runs it with the queue's rest; with nothing
waiting the drive idles. -/
def Obligations.AStepRunsTheFrontCommand : Prop :=
  (∀ (c : Instr) (cs : List Instr) (s : State), step { s with pending := c :: cs } = exec c { s with pending := cs }) ∧
  ∀ s : State, step { s with pending := [] } = .next { s with pending := [] }
end

