-- ==== Sys2Proof/Laws/State.lean ====
section
/-! SUPPORT. One lemma per field per update: what an update of one part of the state leaves alone, and where it puts what
it writes. All are true by unfolding the update. -/
namespace Sys2Proof.Machine

/-! ### State.updSlot, which writes `atr` -/

@[simp] theorem State.updSlot_grade (id : Nat) (f : Slot → Slot) (s : State) :
    (s.updSlot id f).grade = s.grade := rfl
@[simp] theorem State.updSlot_units (id : Nat) (f : Slot → Slot) (s : State) :
    (s.updSlot id f).units = s.units := rfl
@[simp] theorem State.updSlot_clustersBuilt (id : Nat) (f : Slot → Slot) (s : State) :
    (s.updSlot id f).clustersBuilt = s.clustersBuilt := rfl
@[simp] theorem State.updSlot_clustersLogical (id : Nat) (f : Slot → Slot) (s : State) :
    (s.updSlot id f).clustersLogical = s.clustersLogical := rfl
@[simp] theorem State.updSlot_clk (id : Nat) (f : Slot → Slot) (s : State) :
    (s.updSlot id f).clk = s.clk := rfl
@[simp] theorem State.updSlot_locks (id : Nat) (f : Slot → Slot) (s : State) :
    (s.updSlot id f).locks = s.locks := rfl
@[simp] theorem State.updSlot_sched (id : Nat) (f : Slot → Slot) (s : State) :
    (s.updSlot id f).sched = s.sched := rfl
@[simp] theorem State.updSlot_tiers (id : Nat) (f : Slot → Slot) (s : State) :
    (s.updSlot id f).tiers = s.tiers := rfl
@[simp] theorem State.updSlot_search (id : Nat) (f : Slot → Slot) (s : State) :
    (s.updSlot id f).search = s.search := rfl
@[simp] theorem State.updSlot_gather (id : Nat) (f : Slot → Slot) (s : State) :
    (s.updSlot id f).gather = s.gather := rfl
@[simp] theorem State.updSlot_attention (id : Nat) (f : Slot → Slot) (s : State) :
    (s.updSlot id f).attention = s.attention := rfl
@[simp] theorem State.updSlot_domains (id : Nat) (f : Slot → Slot) (s : State) :
    (s.updSlot id f).domains = s.domains := rfl
@[simp] theorem State.updSlot_flash (id : Nat) (f : Slot → Slot) (s : State) :
    (s.updSlot id f).flash = s.flash := rfl
@[simp] theorem State.updSlot_ftl (id : Nat) (f : Slot → Slot) (s : State) :
    (s.updSlot id f).ftl = s.ftl := rfl
@[simp] theorem State.updSlot_block (id : Nat) (f : Slot → Slot) (s : State) :
    (s.updSlot id f).block = s.block := rfl
@[simp] theorem State.updSlot_link (id : Nat) (f : Slot → Slot) (s : State) :
    (s.updSlot id f).link = s.link := rfl
@[simp] theorem State.updSlot_beacon (id : Nat) (f : Slot → Slot) (s : State) :
    (s.updSlot id f).beacon = s.beacon := rfl
@[simp] theorem State.updSlot_power (id : Nat) (f : Slot → Slot) (s : State) :
    (s.updSlot id f).power = s.power := rfl
@[simp] theorem State.updSlot_sec (id : Nat) (f : Slot → Slot) (s : State) :
    (s.updSlot id f).sec = s.sec := rfl
@[simp] theorem State.updSlot_test (id : Nat) (f : Slot → Slot) (s : State) :
    (s.updSlot id f).test = s.test := rfl
@[simp] theorem State.updSlot_err (id : Nat) (f : Slot → Slot) (s : State) :
    (s.updSlot id f).err = s.err := rfl
@[simp] theorem State.updSlot_docent (id : Nat) (f : Slot → Slot) (s : State) :
    (s.updSlot id f).docent = s.docent := rfl
@[simp] theorem State.updSlot_hostMem (id : Nat) (f : Slot → Slot) (s : State) :
    (s.updSlot id f).hostMem = s.hostMem := rfl
@[simp] theorem State.updSlot_free (id : Nat) (f : Slot → Slot) (s : State) :
    (s.updSlot id f).free = s.free := rfl
@[simp] theorem State.updSlot_pending (id : Nat) (f : Slot → Slot) (s : State) :
    (s.updSlot id f).pending = s.pending := rfl

/-! ### State.setWork, which writes `atr` -/

@[simp] theorem State.setWork_grade (id : Nat) (w : Work) (s : State) :
    (s.setWork id w).grade = s.grade := rfl
@[simp] theorem State.setWork_units (id : Nat) (w : Work) (s : State) :
    (s.setWork id w).units = s.units := rfl
@[simp] theorem State.setWork_clustersBuilt (id : Nat) (w : Work) (s : State) :
    (s.setWork id w).clustersBuilt = s.clustersBuilt := rfl
@[simp] theorem State.setWork_clustersLogical (id : Nat) (w : Work) (s : State) :
    (s.setWork id w).clustersLogical = s.clustersLogical := rfl
@[simp] theorem State.setWork_clk (id : Nat) (w : Work) (s : State) :
    (s.setWork id w).clk = s.clk := rfl
@[simp] theorem State.setWork_locks (id : Nat) (w : Work) (s : State) :
    (s.setWork id w).locks = s.locks := rfl
@[simp] theorem State.setWork_sched (id : Nat) (w : Work) (s : State) :
    (s.setWork id w).sched = s.sched := rfl
@[simp] theorem State.setWork_tiers (id : Nat) (w : Work) (s : State) :
    (s.setWork id w).tiers = s.tiers := rfl
@[simp] theorem State.setWork_search (id : Nat) (w : Work) (s : State) :
    (s.setWork id w).search = s.search := rfl
@[simp] theorem State.setWork_gather (id : Nat) (w : Work) (s : State) :
    (s.setWork id w).gather = s.gather := rfl
@[simp] theorem State.setWork_attention (id : Nat) (w : Work) (s : State) :
    (s.setWork id w).attention = s.attention := rfl
@[simp] theorem State.setWork_domains (id : Nat) (w : Work) (s : State) :
    (s.setWork id w).domains = s.domains := rfl
@[simp] theorem State.setWork_flash (id : Nat) (w : Work) (s : State) :
    (s.setWork id w).flash = s.flash := rfl
@[simp] theorem State.setWork_ftl (id : Nat) (w : Work) (s : State) :
    (s.setWork id w).ftl = s.ftl := rfl
@[simp] theorem State.setWork_block (id : Nat) (w : Work) (s : State) :
    (s.setWork id w).block = s.block := rfl
@[simp] theorem State.setWork_link (id : Nat) (w : Work) (s : State) :
    (s.setWork id w).link = s.link := rfl
@[simp] theorem State.setWork_beacon (id : Nat) (w : Work) (s : State) :
    (s.setWork id w).beacon = s.beacon := rfl
@[simp] theorem State.setWork_power (id : Nat) (w : Work) (s : State) :
    (s.setWork id w).power = s.power := rfl
@[simp] theorem State.setWork_sec (id : Nat) (w : Work) (s : State) :
    (s.setWork id w).sec = s.sec := rfl
@[simp] theorem State.setWork_test (id : Nat) (w : Work) (s : State) :
    (s.setWork id w).test = s.test := rfl
@[simp] theorem State.setWork_err (id : Nat) (w : Work) (s : State) :
    (s.setWork id w).err = s.err := rfl
@[simp] theorem State.setWork_docent (id : Nat) (w : Work) (s : State) :
    (s.setWork id w).docent = s.docent := rfl
@[simp] theorem State.setWork_hostMem (id : Nat) (w : Work) (s : State) :
    (s.setWork id w).hostMem = s.hostMem := rfl
@[simp] theorem State.setWork_free (id : Nat) (w : Work) (s : State) :
    (s.setWork id w).free = s.free := rfl
@[simp] theorem State.setWork_pending (id : Nat) (w : Work) (s : State) :
    (s.setWork id w).pending = s.pending := rfl

/-! ### State.updSq, which writes `atr` -/

@[simp] theorem State.updSq_grade (n : Nat) (f : Sq → Sq) (s : State) :
    (s.updSq n f).grade = s.grade := rfl
@[simp] theorem State.updSq_units (n : Nat) (f : Sq → Sq) (s : State) :
    (s.updSq n f).units = s.units := rfl
@[simp] theorem State.updSq_clustersBuilt (n : Nat) (f : Sq → Sq) (s : State) :
    (s.updSq n f).clustersBuilt = s.clustersBuilt := rfl
@[simp] theorem State.updSq_clustersLogical (n : Nat) (f : Sq → Sq) (s : State) :
    (s.updSq n f).clustersLogical = s.clustersLogical := rfl
@[simp] theorem State.updSq_clk (n : Nat) (f : Sq → Sq) (s : State) :
    (s.updSq n f).clk = s.clk := rfl
@[simp] theorem State.updSq_locks (n : Nat) (f : Sq → Sq) (s : State) :
    (s.updSq n f).locks = s.locks := rfl
@[simp] theorem State.updSq_sched (n : Nat) (f : Sq → Sq) (s : State) :
    (s.updSq n f).sched = s.sched := rfl
@[simp] theorem State.updSq_tiers (n : Nat) (f : Sq → Sq) (s : State) :
    (s.updSq n f).tiers = s.tiers := rfl
@[simp] theorem State.updSq_search (n : Nat) (f : Sq → Sq) (s : State) :
    (s.updSq n f).search = s.search := rfl
@[simp] theorem State.updSq_gather (n : Nat) (f : Sq → Sq) (s : State) :
    (s.updSq n f).gather = s.gather := rfl
@[simp] theorem State.updSq_attention (n : Nat) (f : Sq → Sq) (s : State) :
    (s.updSq n f).attention = s.attention := rfl
@[simp] theorem State.updSq_domains (n : Nat) (f : Sq → Sq) (s : State) :
    (s.updSq n f).domains = s.domains := rfl
@[simp] theorem State.updSq_flash (n : Nat) (f : Sq → Sq) (s : State) :
    (s.updSq n f).flash = s.flash := rfl
@[simp] theorem State.updSq_ftl (n : Nat) (f : Sq → Sq) (s : State) :
    (s.updSq n f).ftl = s.ftl := rfl
@[simp] theorem State.updSq_block (n : Nat) (f : Sq → Sq) (s : State) :
    (s.updSq n f).block = s.block := rfl
@[simp] theorem State.updSq_link (n : Nat) (f : Sq → Sq) (s : State) :
    (s.updSq n f).link = s.link := rfl
@[simp] theorem State.updSq_beacon (n : Nat) (f : Sq → Sq) (s : State) :
    (s.updSq n f).beacon = s.beacon := rfl
@[simp] theorem State.updSq_power (n : Nat) (f : Sq → Sq) (s : State) :
    (s.updSq n f).power = s.power := rfl
@[simp] theorem State.updSq_sec (n : Nat) (f : Sq → Sq) (s : State) :
    (s.updSq n f).sec = s.sec := rfl
@[simp] theorem State.updSq_test (n : Nat) (f : Sq → Sq) (s : State) :
    (s.updSq n f).test = s.test := rfl
@[simp] theorem State.updSq_err (n : Nat) (f : Sq → Sq) (s : State) :
    (s.updSq n f).err = s.err := rfl
@[simp] theorem State.updSq_docent (n : Nat) (f : Sq → Sq) (s : State) :
    (s.updSq n f).docent = s.docent := rfl
@[simp] theorem State.updSq_hostMem (n : Nat) (f : Sq → Sq) (s : State) :
    (s.updSq n f).hostMem = s.hostMem := rfl
@[simp] theorem State.updSq_free (n : Nat) (f : Sq → Sq) (s : State) :
    (s.updSq n f).free = s.free := rfl
@[simp] theorem State.updSq_pending (n : Nat) (f : Sq → Sq) (s : State) :
    (s.updSq n f).pending = s.pending := rfl

/-! ### State.updCq, which writes `atr` -/

@[simp] theorem State.updCq_grade (n : Nat) (f : Cq → Cq) (s : State) :
    (s.updCq n f).grade = s.grade := rfl
@[simp] theorem State.updCq_units (n : Nat) (f : Cq → Cq) (s : State) :
    (s.updCq n f).units = s.units := rfl
@[simp] theorem State.updCq_clustersBuilt (n : Nat) (f : Cq → Cq) (s : State) :
    (s.updCq n f).clustersBuilt = s.clustersBuilt := rfl
@[simp] theorem State.updCq_clustersLogical (n : Nat) (f : Cq → Cq) (s : State) :
    (s.updCq n f).clustersLogical = s.clustersLogical := rfl
@[simp] theorem State.updCq_clk (n : Nat) (f : Cq → Cq) (s : State) :
    (s.updCq n f).clk = s.clk := rfl
@[simp] theorem State.updCq_locks (n : Nat) (f : Cq → Cq) (s : State) :
    (s.updCq n f).locks = s.locks := rfl
@[simp] theorem State.updCq_sched (n : Nat) (f : Cq → Cq) (s : State) :
    (s.updCq n f).sched = s.sched := rfl
@[simp] theorem State.updCq_tiers (n : Nat) (f : Cq → Cq) (s : State) :
    (s.updCq n f).tiers = s.tiers := rfl
@[simp] theorem State.updCq_search (n : Nat) (f : Cq → Cq) (s : State) :
    (s.updCq n f).search = s.search := rfl
@[simp] theorem State.updCq_gather (n : Nat) (f : Cq → Cq) (s : State) :
    (s.updCq n f).gather = s.gather := rfl
@[simp] theorem State.updCq_attention (n : Nat) (f : Cq → Cq) (s : State) :
    (s.updCq n f).attention = s.attention := rfl
@[simp] theorem State.updCq_domains (n : Nat) (f : Cq → Cq) (s : State) :
    (s.updCq n f).domains = s.domains := rfl
@[simp] theorem State.updCq_flash (n : Nat) (f : Cq → Cq) (s : State) :
    (s.updCq n f).flash = s.flash := rfl
@[simp] theorem State.updCq_ftl (n : Nat) (f : Cq → Cq) (s : State) :
    (s.updCq n f).ftl = s.ftl := rfl
@[simp] theorem State.updCq_block (n : Nat) (f : Cq → Cq) (s : State) :
    (s.updCq n f).block = s.block := rfl
@[simp] theorem State.updCq_link (n : Nat) (f : Cq → Cq) (s : State) :
    (s.updCq n f).link = s.link := rfl
@[simp] theorem State.updCq_beacon (n : Nat) (f : Cq → Cq) (s : State) :
    (s.updCq n f).beacon = s.beacon := rfl
@[simp] theorem State.updCq_power (n : Nat) (f : Cq → Cq) (s : State) :
    (s.updCq n f).power = s.power := rfl
@[simp] theorem State.updCq_sec (n : Nat) (f : Cq → Cq) (s : State) :
    (s.updCq n f).sec = s.sec := rfl
@[simp] theorem State.updCq_test (n : Nat) (f : Cq → Cq) (s : State) :
    (s.updCq n f).test = s.test := rfl
@[simp] theorem State.updCq_err (n : Nat) (f : Cq → Cq) (s : State) :
    (s.updCq n f).err = s.err := rfl
@[simp] theorem State.updCq_docent (n : Nat) (f : Cq → Cq) (s : State) :
    (s.updCq n f).docent = s.docent := rfl
@[simp] theorem State.updCq_hostMem (n : Nat) (f : Cq → Cq) (s : State) :
    (s.updCq n f).hostMem = s.hostMem := rfl
@[simp] theorem State.updCq_free (n : Nat) (f : Cq → Cq) (s : State) :
    (s.updCq n f).free = s.free := rfl
@[simp] theorem State.updCq_pending (n : Nat) (f : Cq → Cq) (s : State) :
    (s.updCq n f).pending = s.pending := rfl

/-! ### State.countErr, which writes `atr` -/

@[simp] theorem State.countErr_grade (i : Nat) (s : State) :
    (s.countErr i).grade = s.grade := rfl
@[simp] theorem State.countErr_units (i : Nat) (s : State) :
    (s.countErr i).units = s.units := rfl
@[simp] theorem State.countErr_clustersBuilt (i : Nat) (s : State) :
    (s.countErr i).clustersBuilt = s.clustersBuilt := rfl
@[simp] theorem State.countErr_clustersLogical (i : Nat) (s : State) :
    (s.countErr i).clustersLogical = s.clustersLogical := rfl
@[simp] theorem State.countErr_clk (i : Nat) (s : State) :
    (s.countErr i).clk = s.clk := rfl
@[simp] theorem State.countErr_locks (i : Nat) (s : State) :
    (s.countErr i).locks = s.locks := rfl
@[simp] theorem State.countErr_sched (i : Nat) (s : State) :
    (s.countErr i).sched = s.sched := rfl
@[simp] theorem State.countErr_tiers (i : Nat) (s : State) :
    (s.countErr i).tiers = s.tiers := rfl
@[simp] theorem State.countErr_search (i : Nat) (s : State) :
    (s.countErr i).search = s.search := rfl
@[simp] theorem State.countErr_gather (i : Nat) (s : State) :
    (s.countErr i).gather = s.gather := rfl
@[simp] theorem State.countErr_attention (i : Nat) (s : State) :
    (s.countErr i).attention = s.attention := rfl
@[simp] theorem State.countErr_domains (i : Nat) (s : State) :
    (s.countErr i).domains = s.domains := rfl
@[simp] theorem State.countErr_flash (i : Nat) (s : State) :
    (s.countErr i).flash = s.flash := rfl
@[simp] theorem State.countErr_ftl (i : Nat) (s : State) :
    (s.countErr i).ftl = s.ftl := rfl
@[simp] theorem State.countErr_block (i : Nat) (s : State) :
    (s.countErr i).block = s.block := rfl
@[simp] theorem State.countErr_link (i : Nat) (s : State) :
    (s.countErr i).link = s.link := rfl
@[simp] theorem State.countErr_beacon (i : Nat) (s : State) :
    (s.countErr i).beacon = s.beacon := rfl
@[simp] theorem State.countErr_power (i : Nat) (s : State) :
    (s.countErr i).power = s.power := rfl
@[simp] theorem State.countErr_sec (i : Nat) (s : State) :
    (s.countErr i).sec = s.sec := rfl
@[simp] theorem State.countErr_test (i : Nat) (s : State) :
    (s.countErr i).test = s.test := rfl
@[simp] theorem State.countErr_err (i : Nat) (s : State) :
    (s.countErr i).err = s.err := rfl
@[simp] theorem State.countErr_docent (i : Nat) (s : State) :
    (s.countErr i).docent = s.docent := rfl
@[simp] theorem State.countErr_hostMem (i : Nat) (s : State) :
    (s.countErr i).hostMem = s.hostMem := rfl
@[simp] theorem State.countErr_free (i : Nat) (s : State) :
    (s.countErr i).free = s.free := rfl
@[simp] theorem State.countErr_pending (i : Nat) (s : State) :
    (s.countErr i).pending = s.pending := rfl

/-! ### State.ready, which writes `atr` -/

@[simp] theorem State.ready_grade (k : Completion) (s : State) :
    (s.ready k).grade = s.grade := rfl
@[simp] theorem State.ready_units (k : Completion) (s : State) :
    (s.ready k).units = s.units := rfl
@[simp] theorem State.ready_clustersBuilt (k : Completion) (s : State) :
    (s.ready k).clustersBuilt = s.clustersBuilt := rfl
@[simp] theorem State.ready_clustersLogical (k : Completion) (s : State) :
    (s.ready k).clustersLogical = s.clustersLogical := rfl
@[simp] theorem State.ready_clk (k : Completion) (s : State) :
    (s.ready k).clk = s.clk := rfl
@[simp] theorem State.ready_locks (k : Completion) (s : State) :
    (s.ready k).locks = s.locks := rfl
@[simp] theorem State.ready_sched (k : Completion) (s : State) :
    (s.ready k).sched = s.sched := rfl
@[simp] theorem State.ready_tiers (k : Completion) (s : State) :
    (s.ready k).tiers = s.tiers := rfl
@[simp] theorem State.ready_search (k : Completion) (s : State) :
    (s.ready k).search = s.search := rfl
@[simp] theorem State.ready_gather (k : Completion) (s : State) :
    (s.ready k).gather = s.gather := rfl
@[simp] theorem State.ready_attention (k : Completion) (s : State) :
    (s.ready k).attention = s.attention := rfl
@[simp] theorem State.ready_domains (k : Completion) (s : State) :
    (s.ready k).domains = s.domains := rfl
@[simp] theorem State.ready_flash (k : Completion) (s : State) :
    (s.ready k).flash = s.flash := rfl
@[simp] theorem State.ready_ftl (k : Completion) (s : State) :
    (s.ready k).ftl = s.ftl := rfl
@[simp] theorem State.ready_block (k : Completion) (s : State) :
    (s.ready k).block = s.block := rfl
@[simp] theorem State.ready_link (k : Completion) (s : State) :
    (s.ready k).link = s.link := rfl
@[simp] theorem State.ready_beacon (k : Completion) (s : State) :
    (s.ready k).beacon = s.beacon := rfl
@[simp] theorem State.ready_power (k : Completion) (s : State) :
    (s.ready k).power = s.power := rfl
@[simp] theorem State.ready_sec (k : Completion) (s : State) :
    (s.ready k).sec = s.sec := rfl
@[simp] theorem State.ready_test (k : Completion) (s : State) :
    (s.ready k).test = s.test := rfl
@[simp] theorem State.ready_err (k : Completion) (s : State) :
    (s.ready k).err = s.err := rfl
@[simp] theorem State.ready_docent (k : Completion) (s : State) :
    (s.ready k).docent = s.docent := rfl
@[simp] theorem State.ready_hostMem (k : Completion) (s : State) :
    (s.ready k).hostMem = s.hostMem := rfl
@[simp] theorem State.ready_free (k : Completion) (s : State) :
    (s.ready k).free = s.free := rfl
@[simp] theorem State.ready_pending (k : Completion) (s : State) :
    (s.ready k).pending = s.pending := rfl

/-! ### State.updPort, which writes `link` -/

@[simp] theorem State.updPort_grade (p : Nat) (f : Port → Port) (s : State) :
    (s.updPort p f).grade = s.grade := rfl
@[simp] theorem State.updPort_units (p : Nat) (f : Port → Port) (s : State) :
    (s.updPort p f).units = s.units := rfl
@[simp] theorem State.updPort_clustersBuilt (p : Nat) (f : Port → Port) (s : State) :
    (s.updPort p f).clustersBuilt = s.clustersBuilt := rfl
@[simp] theorem State.updPort_clustersLogical (p : Nat) (f : Port → Port) (s : State) :
    (s.updPort p f).clustersLogical = s.clustersLogical := rfl
@[simp] theorem State.updPort_clk (p : Nat) (f : Port → Port) (s : State) :
    (s.updPort p f).clk = s.clk := rfl
@[simp] theorem State.updPort_atr (p : Nat) (f : Port → Port) (s : State) :
    (s.updPort p f).atr = s.atr := rfl
@[simp] theorem State.updPort_locks (p : Nat) (f : Port → Port) (s : State) :
    (s.updPort p f).locks = s.locks := rfl
@[simp] theorem State.updPort_sched (p : Nat) (f : Port → Port) (s : State) :
    (s.updPort p f).sched = s.sched := rfl
@[simp] theorem State.updPort_tiers (p : Nat) (f : Port → Port) (s : State) :
    (s.updPort p f).tiers = s.tiers := rfl
@[simp] theorem State.updPort_search (p : Nat) (f : Port → Port) (s : State) :
    (s.updPort p f).search = s.search := rfl
@[simp] theorem State.updPort_gather (p : Nat) (f : Port → Port) (s : State) :
    (s.updPort p f).gather = s.gather := rfl
@[simp] theorem State.updPort_attention (p : Nat) (f : Port → Port) (s : State) :
    (s.updPort p f).attention = s.attention := rfl
@[simp] theorem State.updPort_domains (p : Nat) (f : Port → Port) (s : State) :
    (s.updPort p f).domains = s.domains := rfl
@[simp] theorem State.updPort_flash (p : Nat) (f : Port → Port) (s : State) :
    (s.updPort p f).flash = s.flash := rfl
@[simp] theorem State.updPort_ftl (p : Nat) (f : Port → Port) (s : State) :
    (s.updPort p f).ftl = s.ftl := rfl
@[simp] theorem State.updPort_block (p : Nat) (f : Port → Port) (s : State) :
    (s.updPort p f).block = s.block := rfl
@[simp] theorem State.updPort_beacon (p : Nat) (f : Port → Port) (s : State) :
    (s.updPort p f).beacon = s.beacon := rfl
@[simp] theorem State.updPort_power (p : Nat) (f : Port → Port) (s : State) :
    (s.updPort p f).power = s.power := rfl
@[simp] theorem State.updPort_sec (p : Nat) (f : Port → Port) (s : State) :
    (s.updPort p f).sec = s.sec := rfl
@[simp] theorem State.updPort_test (p : Nat) (f : Port → Port) (s : State) :
    (s.updPort p f).test = s.test := rfl
@[simp] theorem State.updPort_err (p : Nat) (f : Port → Port) (s : State) :
    (s.updPort p f).err = s.err := rfl
@[simp] theorem State.updPort_docent (p : Nat) (f : Port → Port) (s : State) :
    (s.updPort p f).docent = s.docent := rfl
@[simp] theorem State.updPort_hostMem (p : Nat) (f : Port → Port) (s : State) :
    (s.updPort p f).hostMem = s.hostMem := rfl
@[simp] theorem State.updPort_free (p : Nat) (f : Port → Port) (s : State) :
    (s.updPort p f).free = s.free := rfl
@[simp] theorem State.updPort_pending (p : Nat) (f : Port → Port) (s : State) :
    (s.updPort p f).pending = s.pending := rfl

/-! ### State.updUnit, which writes `units` -/

@[simp] theorem State.updUnit_grade (k : UnitKind) (p : Nat) (f : SvcUnit → SvcUnit) (s : State) :
    (s.updUnit k p f).grade = s.grade := rfl
@[simp] theorem State.updUnit_clustersBuilt (k : UnitKind) (p : Nat) (f : SvcUnit → SvcUnit) (s : State) :
    (s.updUnit k p f).clustersBuilt = s.clustersBuilt := rfl
@[simp] theorem State.updUnit_clustersLogical (k : UnitKind) (p : Nat) (f : SvcUnit → SvcUnit) (s : State) :
    (s.updUnit k p f).clustersLogical = s.clustersLogical := rfl
@[simp] theorem State.updUnit_clk (k : UnitKind) (p : Nat) (f : SvcUnit → SvcUnit) (s : State) :
    (s.updUnit k p f).clk = s.clk := rfl
@[simp] theorem State.updUnit_atr (k : UnitKind) (p : Nat) (f : SvcUnit → SvcUnit) (s : State) :
    (s.updUnit k p f).atr = s.atr := rfl
@[simp] theorem State.updUnit_locks (k : UnitKind) (p : Nat) (f : SvcUnit → SvcUnit) (s : State) :
    (s.updUnit k p f).locks = s.locks := rfl
@[simp] theorem State.updUnit_tiers (k : UnitKind) (p : Nat) (f : SvcUnit → SvcUnit) (s : State) :
    (s.updUnit k p f).tiers = s.tiers := rfl
@[simp] theorem State.updUnit_search (k : UnitKind) (p : Nat) (f : SvcUnit → SvcUnit) (s : State) :
    (s.updUnit k p f).search = s.search := rfl
@[simp] theorem State.updUnit_gather (k : UnitKind) (p : Nat) (f : SvcUnit → SvcUnit) (s : State) :
    (s.updUnit k p f).gather = s.gather := rfl
@[simp] theorem State.updUnit_attention (k : UnitKind) (p : Nat) (f : SvcUnit → SvcUnit) (s : State) :
    (s.updUnit k p f).attention = s.attention := rfl
@[simp] theorem State.updUnit_domains (k : UnitKind) (p : Nat) (f : SvcUnit → SvcUnit) (s : State) :
    (s.updUnit k p f).domains = s.domains := rfl
@[simp] theorem State.updUnit_flash (k : UnitKind) (p : Nat) (f : SvcUnit → SvcUnit) (s : State) :
    (s.updUnit k p f).flash = s.flash := rfl
@[simp] theorem State.updUnit_ftl (k : UnitKind) (p : Nat) (f : SvcUnit → SvcUnit) (s : State) :
    (s.updUnit k p f).ftl = s.ftl := rfl
@[simp] theorem State.updUnit_block (k : UnitKind) (p : Nat) (f : SvcUnit → SvcUnit) (s : State) :
    (s.updUnit k p f).block = s.block := rfl
@[simp] theorem State.updUnit_link (k : UnitKind) (p : Nat) (f : SvcUnit → SvcUnit) (s : State) :
    (s.updUnit k p f).link = s.link := rfl
@[simp] theorem State.updUnit_beacon (k : UnitKind) (p : Nat) (f : SvcUnit → SvcUnit) (s : State) :
    (s.updUnit k p f).beacon = s.beacon := rfl
@[simp] theorem State.updUnit_power (k : UnitKind) (p : Nat) (f : SvcUnit → SvcUnit) (s : State) :
    (s.updUnit k p f).power = s.power := rfl
@[simp] theorem State.updUnit_sec (k : UnitKind) (p : Nat) (f : SvcUnit → SvcUnit) (s : State) :
    (s.updUnit k p f).sec = s.sec := rfl
@[simp] theorem State.updUnit_test (k : UnitKind) (p : Nat) (f : SvcUnit → SvcUnit) (s : State) :
    (s.updUnit k p f).test = s.test := rfl
@[simp] theorem State.updUnit_err (k : UnitKind) (p : Nat) (f : SvcUnit → SvcUnit) (s : State) :
    (s.updUnit k p f).err = s.err := rfl
@[simp] theorem State.updUnit_docent (k : UnitKind) (p : Nat) (f : SvcUnit → SvcUnit) (s : State) :
    (s.updUnit k p f).docent = s.docent := rfl
@[simp] theorem State.updUnit_hostMem (k : UnitKind) (p : Nat) (f : SvcUnit → SvcUnit) (s : State) :
    (s.updUnit k p f).hostMem = s.hostMem := rfl
@[simp] theorem State.updUnit_free (k : UnitKind) (p : Nat) (f : SvcUnit → SvcUnit) (s : State) :
    (s.updUnit k p f).free = s.free := rfl
@[simp] theorem State.updUnit_pending (k : UnitKind) (p : Nat) (f : SvcUnit → SvcUnit) (s : State) :
    (s.updUnit k p f).pending = s.pending := rfl

/-! ### State.updTst, which writes `test` -/

@[simp] theorem State.updTst_grade (f : TestBlock → TestBlock) (s : State) :
    (s.updTst f).grade = s.grade := rfl
@[simp] theorem State.updTst_units (f : TestBlock → TestBlock) (s : State) :
    (s.updTst f).units = s.units := rfl
@[simp] theorem State.updTst_clustersBuilt (f : TestBlock → TestBlock) (s : State) :
    (s.updTst f).clustersBuilt = s.clustersBuilt := rfl
@[simp] theorem State.updTst_clustersLogical (f : TestBlock → TestBlock) (s : State) :
    (s.updTst f).clustersLogical = s.clustersLogical := rfl
@[simp] theorem State.updTst_clk (f : TestBlock → TestBlock) (s : State) :
    (s.updTst f).clk = s.clk := rfl
@[simp] theorem State.updTst_atr (f : TestBlock → TestBlock) (s : State) :
    (s.updTst f).atr = s.atr := rfl
@[simp] theorem State.updTst_locks (f : TestBlock → TestBlock) (s : State) :
    (s.updTst f).locks = s.locks := rfl
@[simp] theorem State.updTst_sched (f : TestBlock → TestBlock) (s : State) :
    (s.updTst f).sched = s.sched := rfl
@[simp] theorem State.updTst_tiers (f : TestBlock → TestBlock) (s : State) :
    (s.updTst f).tiers = s.tiers := rfl
@[simp] theorem State.updTst_search (f : TestBlock → TestBlock) (s : State) :
    (s.updTst f).search = s.search := rfl
@[simp] theorem State.updTst_gather (f : TestBlock → TestBlock) (s : State) :
    (s.updTst f).gather = s.gather := rfl
@[simp] theorem State.updTst_attention (f : TestBlock → TestBlock) (s : State) :
    (s.updTst f).attention = s.attention := rfl
@[simp] theorem State.updTst_domains (f : TestBlock → TestBlock) (s : State) :
    (s.updTst f).domains = s.domains := rfl
@[simp] theorem State.updTst_flash (f : TestBlock → TestBlock) (s : State) :
    (s.updTst f).flash = s.flash := rfl
@[simp] theorem State.updTst_ftl (f : TestBlock → TestBlock) (s : State) :
    (s.updTst f).ftl = s.ftl := rfl
@[simp] theorem State.updTst_block (f : TestBlock → TestBlock) (s : State) :
    (s.updTst f).block = s.block := rfl
@[simp] theorem State.updTst_link (f : TestBlock → TestBlock) (s : State) :
    (s.updTst f).link = s.link := rfl
@[simp] theorem State.updTst_beacon (f : TestBlock → TestBlock) (s : State) :
    (s.updTst f).beacon = s.beacon := rfl
@[simp] theorem State.updTst_power (f : TestBlock → TestBlock) (s : State) :
    (s.updTst f).power = s.power := rfl
@[simp] theorem State.updTst_sec (f : TestBlock → TestBlock) (s : State) :
    (s.updTst f).sec = s.sec := rfl
@[simp] theorem State.updTst_err (f : TestBlock → TestBlock) (s : State) :
    (s.updTst f).err = s.err := rfl
@[simp] theorem State.updTst_docent (f : TestBlock → TestBlock) (s : State) :
    (s.updTst f).docent = s.docent := rfl
@[simp] theorem State.updTst_hostMem (f : TestBlock → TestBlock) (s : State) :
    (s.updTst f).hostMem = s.hostMem := rfl
@[simp] theorem State.updTst_free (f : TestBlock → TestBlock) (s : State) :
    (s.updTst f).free = s.free := rfl
@[simp] theorem State.updTst_pending (f : TestBlock → TestBlock) (s : State) :
    (s.updTst f).pending = s.pending := rfl

/-! ### State.updSec, which writes `sec` -/

@[simp] theorem State.updSec_grade (f : Security → Security) (s : State) :
    (s.updSec f).grade = s.grade := rfl
@[simp] theorem State.updSec_units (f : Security → Security) (s : State) :
    (s.updSec f).units = s.units := rfl
@[simp] theorem State.updSec_clustersBuilt (f : Security → Security) (s : State) :
    (s.updSec f).clustersBuilt = s.clustersBuilt := rfl
@[simp] theorem State.updSec_clustersLogical (f : Security → Security) (s : State) :
    (s.updSec f).clustersLogical = s.clustersLogical := rfl
@[simp] theorem State.updSec_clk (f : Security → Security) (s : State) :
    (s.updSec f).clk = s.clk := rfl
@[simp] theorem State.updSec_atr (f : Security → Security) (s : State) :
    (s.updSec f).atr = s.atr := rfl
@[simp] theorem State.updSec_locks (f : Security → Security) (s : State) :
    (s.updSec f).locks = s.locks := rfl
@[simp] theorem State.updSec_sched (f : Security → Security) (s : State) :
    (s.updSec f).sched = s.sched := rfl
@[simp] theorem State.updSec_tiers (f : Security → Security) (s : State) :
    (s.updSec f).tiers = s.tiers := rfl
@[simp] theorem State.updSec_search (f : Security → Security) (s : State) :
    (s.updSec f).search = s.search := rfl
@[simp] theorem State.updSec_gather (f : Security → Security) (s : State) :
    (s.updSec f).gather = s.gather := rfl
@[simp] theorem State.updSec_attention (f : Security → Security) (s : State) :
    (s.updSec f).attention = s.attention := rfl
@[simp] theorem State.updSec_domains (f : Security → Security) (s : State) :
    (s.updSec f).domains = s.domains := rfl
@[simp] theorem State.updSec_flash (f : Security → Security) (s : State) :
    (s.updSec f).flash = s.flash := rfl
@[simp] theorem State.updSec_ftl (f : Security → Security) (s : State) :
    (s.updSec f).ftl = s.ftl := rfl
@[simp] theorem State.updSec_block (f : Security → Security) (s : State) :
    (s.updSec f).block = s.block := rfl
@[simp] theorem State.updSec_link (f : Security → Security) (s : State) :
    (s.updSec f).link = s.link := rfl
@[simp] theorem State.updSec_beacon (f : Security → Security) (s : State) :
    (s.updSec f).beacon = s.beacon := rfl
@[simp] theorem State.updSec_power (f : Security → Security) (s : State) :
    (s.updSec f).power = s.power := rfl
@[simp] theorem State.updSec_test (f : Security → Security) (s : State) :
    (s.updSec f).test = s.test := rfl
@[simp] theorem State.updSec_err (f : Security → Security) (s : State) :
    (s.updSec f).err = s.err := rfl
@[simp] theorem State.updSec_docent (f : Security → Security) (s : State) :
    (s.updSec f).docent = s.docent := rfl
@[simp] theorem State.updSec_hostMem (f : Security → Security) (s : State) :
    (s.updSec f).hostMem = s.hostMem := rfl
@[simp] theorem State.updSec_free (f : Security → Security) (s : State) :
    (s.updSec f).free = s.free := rfl
@[simp] theorem State.updSec_pending (f : Security → Security) (s : State) :
    (s.updSec f).pending = s.pending := rfl

/-! ### State.updPower, which writes `power` -/

@[simp] theorem State.updPower_grade (f : Power → Power) (s : State) :
    (s.updPower f).grade = s.grade := rfl
@[simp] theorem State.updPower_units (f : Power → Power) (s : State) :
    (s.updPower f).units = s.units := rfl
@[simp] theorem State.updPower_clustersBuilt (f : Power → Power) (s : State) :
    (s.updPower f).clustersBuilt = s.clustersBuilt := rfl
@[simp] theorem State.updPower_clustersLogical (f : Power → Power) (s : State) :
    (s.updPower f).clustersLogical = s.clustersLogical := rfl
@[simp] theorem State.updPower_clk (f : Power → Power) (s : State) :
    (s.updPower f).clk = s.clk := rfl
@[simp] theorem State.updPower_atr (f : Power → Power) (s : State) :
    (s.updPower f).atr = s.atr := rfl
@[simp] theorem State.updPower_locks (f : Power → Power) (s : State) :
    (s.updPower f).locks = s.locks := rfl
@[simp] theorem State.updPower_sched (f : Power → Power) (s : State) :
    (s.updPower f).sched = s.sched := rfl
@[simp] theorem State.updPower_tiers (f : Power → Power) (s : State) :
    (s.updPower f).tiers = s.tiers := rfl
@[simp] theorem State.updPower_search (f : Power → Power) (s : State) :
    (s.updPower f).search = s.search := rfl
@[simp] theorem State.updPower_gather (f : Power → Power) (s : State) :
    (s.updPower f).gather = s.gather := rfl
@[simp] theorem State.updPower_attention (f : Power → Power) (s : State) :
    (s.updPower f).attention = s.attention := rfl
@[simp] theorem State.updPower_domains (f : Power → Power) (s : State) :
    (s.updPower f).domains = s.domains := rfl
@[simp] theorem State.updPower_flash (f : Power → Power) (s : State) :
    (s.updPower f).flash = s.flash := rfl
@[simp] theorem State.updPower_ftl (f : Power → Power) (s : State) :
    (s.updPower f).ftl = s.ftl := rfl
@[simp] theorem State.updPower_block (f : Power → Power) (s : State) :
    (s.updPower f).block = s.block := rfl
@[simp] theorem State.updPower_link (f : Power → Power) (s : State) :
    (s.updPower f).link = s.link := rfl
@[simp] theorem State.updPower_beacon (f : Power → Power) (s : State) :
    (s.updPower f).beacon = s.beacon := rfl
@[simp] theorem State.updPower_sec (f : Power → Power) (s : State) :
    (s.updPower f).sec = s.sec := rfl
@[simp] theorem State.updPower_test (f : Power → Power) (s : State) :
    (s.updPower f).test = s.test := rfl
@[simp] theorem State.updPower_err (f : Power → Power) (s : State) :
    (s.updPower f).err = s.err := rfl
@[simp] theorem State.updPower_docent (f : Power → Power) (s : State) :
    (s.updPower f).docent = s.docent := rfl
@[simp] theorem State.updPower_hostMem (f : Power → Power) (s : State) :
    (s.updPower f).hostMem = s.hostMem := rfl
@[simp] theorem State.updPower_free (f : Power → Power) (s : State) :
    (s.updPower f).free = s.free := rfl
@[simp] theorem State.updPower_pending (f : Power → Power) (s : State) :
    (s.updPower f).pending = s.pending := rfl

/-! ### State.updBeacon, which writes `beacon` -/

@[simp] theorem State.updBeacon_grade (f : Beacon → Beacon) (s : State) :
    (s.updBeacon f).grade = s.grade := rfl
@[simp] theorem State.updBeacon_units (f : Beacon → Beacon) (s : State) :
    (s.updBeacon f).units = s.units := rfl
@[simp] theorem State.updBeacon_clustersBuilt (f : Beacon → Beacon) (s : State) :
    (s.updBeacon f).clustersBuilt = s.clustersBuilt := rfl
@[simp] theorem State.updBeacon_clustersLogical (f : Beacon → Beacon) (s : State) :
    (s.updBeacon f).clustersLogical = s.clustersLogical := rfl
@[simp] theorem State.updBeacon_clk (f : Beacon → Beacon) (s : State) :
    (s.updBeacon f).clk = s.clk := rfl
@[simp] theorem State.updBeacon_atr (f : Beacon → Beacon) (s : State) :
    (s.updBeacon f).atr = s.atr := rfl
@[simp] theorem State.updBeacon_locks (f : Beacon → Beacon) (s : State) :
    (s.updBeacon f).locks = s.locks := rfl
@[simp] theorem State.updBeacon_sched (f : Beacon → Beacon) (s : State) :
    (s.updBeacon f).sched = s.sched := rfl
@[simp] theorem State.updBeacon_tiers (f : Beacon → Beacon) (s : State) :
    (s.updBeacon f).tiers = s.tiers := rfl
@[simp] theorem State.updBeacon_search (f : Beacon → Beacon) (s : State) :
    (s.updBeacon f).search = s.search := rfl
@[simp] theorem State.updBeacon_gather (f : Beacon → Beacon) (s : State) :
    (s.updBeacon f).gather = s.gather := rfl
@[simp] theorem State.updBeacon_attention (f : Beacon → Beacon) (s : State) :
    (s.updBeacon f).attention = s.attention := rfl
@[simp] theorem State.updBeacon_domains (f : Beacon → Beacon) (s : State) :
    (s.updBeacon f).domains = s.domains := rfl
@[simp] theorem State.updBeacon_flash (f : Beacon → Beacon) (s : State) :
    (s.updBeacon f).flash = s.flash := rfl
@[simp] theorem State.updBeacon_ftl (f : Beacon → Beacon) (s : State) :
    (s.updBeacon f).ftl = s.ftl := rfl
@[simp] theorem State.updBeacon_block (f : Beacon → Beacon) (s : State) :
    (s.updBeacon f).block = s.block := rfl
@[simp] theorem State.updBeacon_link (f : Beacon → Beacon) (s : State) :
    (s.updBeacon f).link = s.link := rfl
@[simp] theorem State.updBeacon_power (f : Beacon → Beacon) (s : State) :
    (s.updBeacon f).power = s.power := rfl
@[simp] theorem State.updBeacon_sec (f : Beacon → Beacon) (s : State) :
    (s.updBeacon f).sec = s.sec := rfl
@[simp] theorem State.updBeacon_test (f : Beacon → Beacon) (s : State) :
    (s.updBeacon f).test = s.test := rfl
@[simp] theorem State.updBeacon_err (f : Beacon → Beacon) (s : State) :
    (s.updBeacon f).err = s.err := rfl
@[simp] theorem State.updBeacon_docent (f : Beacon → Beacon) (s : State) :
    (s.updBeacon f).docent = s.docent := rfl
@[simp] theorem State.updBeacon_hostMem (f : Beacon → Beacon) (s : State) :
    (s.updBeacon f).hostMem = s.hostMem := rfl
@[simp] theorem State.updBeacon_free (f : Beacon → Beacon) (s : State) :
    (s.updBeacon f).free = s.free := rfl
@[simp] theorem State.updBeacon_pending (f : Beacon → Beacon) (s : State) :
    (s.updBeacon f).pending = s.pending := rfl

/-! ### State.updTest, which writes `block` -/

@[simp] theorem State.updTest_grade (f : SelfTestLog → SelfTestLog) (s : State) :
    (s.updTest f).grade = s.grade := rfl
@[simp] theorem State.updTest_units (f : SelfTestLog → SelfTestLog) (s : State) :
    (s.updTest f).units = s.units := rfl
@[simp] theorem State.updTest_clustersBuilt (f : SelfTestLog → SelfTestLog) (s : State) :
    (s.updTest f).clustersBuilt = s.clustersBuilt := rfl
@[simp] theorem State.updTest_clustersLogical (f : SelfTestLog → SelfTestLog) (s : State) :
    (s.updTest f).clustersLogical = s.clustersLogical := rfl
@[simp] theorem State.updTest_clk (f : SelfTestLog → SelfTestLog) (s : State) :
    (s.updTest f).clk = s.clk := rfl
@[simp] theorem State.updTest_atr (f : SelfTestLog → SelfTestLog) (s : State) :
    (s.updTest f).atr = s.atr := rfl
@[simp] theorem State.updTest_locks (f : SelfTestLog → SelfTestLog) (s : State) :
    (s.updTest f).locks = s.locks := rfl
@[simp] theorem State.updTest_sched (f : SelfTestLog → SelfTestLog) (s : State) :
    (s.updTest f).sched = s.sched := rfl
@[simp] theorem State.updTest_tiers (f : SelfTestLog → SelfTestLog) (s : State) :
    (s.updTest f).tiers = s.tiers := rfl
@[simp] theorem State.updTest_search (f : SelfTestLog → SelfTestLog) (s : State) :
    (s.updTest f).search = s.search := rfl
@[simp] theorem State.updTest_gather (f : SelfTestLog → SelfTestLog) (s : State) :
    (s.updTest f).gather = s.gather := rfl
@[simp] theorem State.updTest_attention (f : SelfTestLog → SelfTestLog) (s : State) :
    (s.updTest f).attention = s.attention := rfl
@[simp] theorem State.updTest_domains (f : SelfTestLog → SelfTestLog) (s : State) :
    (s.updTest f).domains = s.domains := rfl
@[simp] theorem State.updTest_flash (f : SelfTestLog → SelfTestLog) (s : State) :
    (s.updTest f).flash = s.flash := rfl
@[simp] theorem State.updTest_ftl (f : SelfTestLog → SelfTestLog) (s : State) :
    (s.updTest f).ftl = s.ftl := rfl
@[simp] theorem State.updTest_link (f : SelfTestLog → SelfTestLog) (s : State) :
    (s.updTest f).link = s.link := rfl
@[simp] theorem State.updTest_beacon (f : SelfTestLog → SelfTestLog) (s : State) :
    (s.updTest f).beacon = s.beacon := rfl
@[simp] theorem State.updTest_power (f : SelfTestLog → SelfTestLog) (s : State) :
    (s.updTest f).power = s.power := rfl
@[simp] theorem State.updTest_sec (f : SelfTestLog → SelfTestLog) (s : State) :
    (s.updTest f).sec = s.sec := rfl
@[simp] theorem State.updTest_test (f : SelfTestLog → SelfTestLog) (s : State) :
    (s.updTest f).test = s.test := rfl
@[simp] theorem State.updTest_err (f : SelfTestLog → SelfTestLog) (s : State) :
    (s.updTest f).err = s.err := rfl
@[simp] theorem State.updTest_docent (f : SelfTestLog → SelfTestLog) (s : State) :
    (s.updTest f).docent = s.docent := rfl
@[simp] theorem State.updTest_hostMem (f : SelfTestLog → SelfTestLog) (s : State) :
    (s.updTest f).hostMem = s.hostMem := rfl
@[simp] theorem State.updTest_free (f : SelfTestLog → SelfTestLog) (s : State) :
    (s.updTest f).free = s.free := rfl
@[simp] theorem State.updTest_pending (f : SelfTestLog → SelfTestLog) (s : State) :
    (s.updTest f).pending = s.pending := rfl

/-! ### State.updObj, which writes `tiers` -/

@[simp] theorem State.updObj_grade (id : Nat) (f : Obj → Obj) (s : State) :
    (s.updObj id f).grade = s.grade := rfl
@[simp] theorem State.updObj_units (id : Nat) (f : Obj → Obj) (s : State) :
    (s.updObj id f).units = s.units := rfl
@[simp] theorem State.updObj_clustersBuilt (id : Nat) (f : Obj → Obj) (s : State) :
    (s.updObj id f).clustersBuilt = s.clustersBuilt := rfl
@[simp] theorem State.updObj_clustersLogical (id : Nat) (f : Obj → Obj) (s : State) :
    (s.updObj id f).clustersLogical = s.clustersLogical := rfl
@[simp] theorem State.updObj_clk (id : Nat) (f : Obj → Obj) (s : State) :
    (s.updObj id f).clk = s.clk := rfl
@[simp] theorem State.updObj_atr (id : Nat) (f : Obj → Obj) (s : State) :
    (s.updObj id f).atr = s.atr := rfl
@[simp] theorem State.updObj_locks (id : Nat) (f : Obj → Obj) (s : State) :
    (s.updObj id f).locks = s.locks := rfl
@[simp] theorem State.updObj_sched (id : Nat) (f : Obj → Obj) (s : State) :
    (s.updObj id f).sched = s.sched := rfl
@[simp] theorem State.updObj_search (id : Nat) (f : Obj → Obj) (s : State) :
    (s.updObj id f).search = s.search := rfl
@[simp] theorem State.updObj_gather (id : Nat) (f : Obj → Obj) (s : State) :
    (s.updObj id f).gather = s.gather := rfl
@[simp] theorem State.updObj_attention (id : Nat) (f : Obj → Obj) (s : State) :
    (s.updObj id f).attention = s.attention := rfl
@[simp] theorem State.updObj_domains (id : Nat) (f : Obj → Obj) (s : State) :
    (s.updObj id f).domains = s.domains := rfl
@[simp] theorem State.updObj_flash (id : Nat) (f : Obj → Obj) (s : State) :
    (s.updObj id f).flash = s.flash := rfl
@[simp] theorem State.updObj_ftl (id : Nat) (f : Obj → Obj) (s : State) :
    (s.updObj id f).ftl = s.ftl := rfl
@[simp] theorem State.updObj_block (id : Nat) (f : Obj → Obj) (s : State) :
    (s.updObj id f).block = s.block := rfl
@[simp] theorem State.updObj_link (id : Nat) (f : Obj → Obj) (s : State) :
    (s.updObj id f).link = s.link := rfl
@[simp] theorem State.updObj_beacon (id : Nat) (f : Obj → Obj) (s : State) :
    (s.updObj id f).beacon = s.beacon := rfl
@[simp] theorem State.updObj_power (id : Nat) (f : Obj → Obj) (s : State) :
    (s.updObj id f).power = s.power := rfl
@[simp] theorem State.updObj_sec (id : Nat) (f : Obj → Obj) (s : State) :
    (s.updObj id f).sec = s.sec := rfl
@[simp] theorem State.updObj_test (id : Nat) (f : Obj → Obj) (s : State) :
    (s.updObj id f).test = s.test := rfl
@[simp] theorem State.updObj_err (id : Nat) (f : Obj → Obj) (s : State) :
    (s.updObj id f).err = s.err := rfl
@[simp] theorem State.updObj_docent (id : Nat) (f : Obj → Obj) (s : State) :
    (s.updObj id f).docent = s.docent := rfl
@[simp] theorem State.updObj_hostMem (id : Nat) (f : Obj → Obj) (s : State) :
    (s.updObj id f).hostMem = s.hostMem := rfl
@[simp] theorem State.updObj_free (id : Nat) (f : Obj → Obj) (s : State) :
    (s.updObj id f).free = s.free := rfl
@[simp] theorem State.updObj_pending (id : Nat) (f : Obj → Obj) (s : State) :
    (s.updObj id f).pending = s.pending := rfl

/-! ### State.updVer, which writes `tiers` -/

@[simp] theorem State.updVer_grade (id n : Nat) (f : Version → Version) (s : State) :
    (s.updVer id n f).grade = s.grade := rfl
@[simp] theorem State.updVer_units (id n : Nat) (f : Version → Version) (s : State) :
    (s.updVer id n f).units = s.units := rfl
@[simp] theorem State.updVer_clustersBuilt (id n : Nat) (f : Version → Version) (s : State) :
    (s.updVer id n f).clustersBuilt = s.clustersBuilt := rfl
@[simp] theorem State.updVer_clustersLogical (id n : Nat) (f : Version → Version) (s : State) :
    (s.updVer id n f).clustersLogical = s.clustersLogical := rfl
@[simp] theorem State.updVer_clk (id n : Nat) (f : Version → Version) (s : State) :
    (s.updVer id n f).clk = s.clk := rfl
@[simp] theorem State.updVer_atr (id n : Nat) (f : Version → Version) (s : State) :
    (s.updVer id n f).atr = s.atr := rfl
@[simp] theorem State.updVer_locks (id n : Nat) (f : Version → Version) (s : State) :
    (s.updVer id n f).locks = s.locks := rfl
@[simp] theorem State.updVer_sched (id n : Nat) (f : Version → Version) (s : State) :
    (s.updVer id n f).sched = s.sched := rfl
@[simp] theorem State.updVer_search (id n : Nat) (f : Version → Version) (s : State) :
    (s.updVer id n f).search = s.search := rfl
@[simp] theorem State.updVer_gather (id n : Nat) (f : Version → Version) (s : State) :
    (s.updVer id n f).gather = s.gather := rfl
@[simp] theorem State.updVer_attention (id n : Nat) (f : Version → Version) (s : State) :
    (s.updVer id n f).attention = s.attention := rfl
@[simp] theorem State.updVer_domains (id n : Nat) (f : Version → Version) (s : State) :
    (s.updVer id n f).domains = s.domains := rfl
@[simp] theorem State.updVer_flash (id n : Nat) (f : Version → Version) (s : State) :
    (s.updVer id n f).flash = s.flash := rfl
@[simp] theorem State.updVer_ftl (id n : Nat) (f : Version → Version) (s : State) :
    (s.updVer id n f).ftl = s.ftl := rfl
@[simp] theorem State.updVer_block (id n : Nat) (f : Version → Version) (s : State) :
    (s.updVer id n f).block = s.block := rfl
@[simp] theorem State.updVer_link (id n : Nat) (f : Version → Version) (s : State) :
    (s.updVer id n f).link = s.link := rfl
@[simp] theorem State.updVer_beacon (id n : Nat) (f : Version → Version) (s : State) :
    (s.updVer id n f).beacon = s.beacon := rfl
@[simp] theorem State.updVer_power (id n : Nat) (f : Version → Version) (s : State) :
    (s.updVer id n f).power = s.power := rfl
@[simp] theorem State.updVer_sec (id n : Nat) (f : Version → Version) (s : State) :
    (s.updVer id n f).sec = s.sec := rfl
@[simp] theorem State.updVer_test (id n : Nat) (f : Version → Version) (s : State) :
    (s.updVer id n f).test = s.test := rfl
@[simp] theorem State.updVer_err (id n : Nat) (f : Version → Version) (s : State) :
    (s.updVer id n f).err = s.err := rfl
@[simp] theorem State.updVer_docent (id n : Nat) (f : Version → Version) (s : State) :
    (s.updVer id n f).docent = s.docent := rfl
@[simp] theorem State.updVer_hostMem (id n : Nat) (f : Version → Version) (s : State) :
    (s.updVer id n f).hostMem = s.hostMem := rfl
@[simp] theorem State.updVer_free (id n : Nat) (f : Version → Version) (s : State) :
    (s.updVer id n f).free = s.free := rfl
@[simp] theorem State.updVer_pending (id n : Nat) (f : Version → Version) (s : State) :
    (s.updVer id n f).pending = s.pending := rfl

/-! ### State.updJob, which writes `sched` -/

@[simp] theorem State.updJob_grade (id : Nat) (f : Job → Job) (s : State) :
    (s.updJob id f).grade = s.grade := rfl
@[simp] theorem State.updJob_units (id : Nat) (f : Job → Job) (s : State) :
    (s.updJob id f).units = s.units := rfl
@[simp] theorem State.updJob_clustersBuilt (id : Nat) (f : Job → Job) (s : State) :
    (s.updJob id f).clustersBuilt = s.clustersBuilt := rfl
@[simp] theorem State.updJob_clustersLogical (id : Nat) (f : Job → Job) (s : State) :
    (s.updJob id f).clustersLogical = s.clustersLogical := rfl
@[simp] theorem State.updJob_clk (id : Nat) (f : Job → Job) (s : State) :
    (s.updJob id f).clk = s.clk := rfl
@[simp] theorem State.updJob_atr (id : Nat) (f : Job → Job) (s : State) :
    (s.updJob id f).atr = s.atr := rfl
@[simp] theorem State.updJob_locks (id : Nat) (f : Job → Job) (s : State) :
    (s.updJob id f).locks = s.locks := rfl
@[simp] theorem State.updJob_tiers (id : Nat) (f : Job → Job) (s : State) :
    (s.updJob id f).tiers = s.tiers := rfl
@[simp] theorem State.updJob_search (id : Nat) (f : Job → Job) (s : State) :
    (s.updJob id f).search = s.search := rfl
@[simp] theorem State.updJob_gather (id : Nat) (f : Job → Job) (s : State) :
    (s.updJob id f).gather = s.gather := rfl
@[simp] theorem State.updJob_attention (id : Nat) (f : Job → Job) (s : State) :
    (s.updJob id f).attention = s.attention := rfl
@[simp] theorem State.updJob_domains (id : Nat) (f : Job → Job) (s : State) :
    (s.updJob id f).domains = s.domains := rfl
@[simp] theorem State.updJob_flash (id : Nat) (f : Job → Job) (s : State) :
    (s.updJob id f).flash = s.flash := rfl
@[simp] theorem State.updJob_ftl (id : Nat) (f : Job → Job) (s : State) :
    (s.updJob id f).ftl = s.ftl := rfl
@[simp] theorem State.updJob_block (id : Nat) (f : Job → Job) (s : State) :
    (s.updJob id f).block = s.block := rfl
@[simp] theorem State.updJob_link (id : Nat) (f : Job → Job) (s : State) :
    (s.updJob id f).link = s.link := rfl
@[simp] theorem State.updJob_beacon (id : Nat) (f : Job → Job) (s : State) :
    (s.updJob id f).beacon = s.beacon := rfl
@[simp] theorem State.updJob_power (id : Nat) (f : Job → Job) (s : State) :
    (s.updJob id f).power = s.power := rfl
@[simp] theorem State.updJob_sec (id : Nat) (f : Job → Job) (s : State) :
    (s.updJob id f).sec = s.sec := rfl
@[simp] theorem State.updJob_test (id : Nat) (f : Job → Job) (s : State) :
    (s.updJob id f).test = s.test := rfl
@[simp] theorem State.updJob_err (id : Nat) (f : Job → Job) (s : State) :
    (s.updJob id f).err = s.err := rfl
@[simp] theorem State.updJob_docent (id : Nat) (f : Job → Job) (s : State) :
    (s.updJob id f).docent = s.docent := rfl
@[simp] theorem State.updJob_hostMem (id : Nat) (f : Job → Job) (s : State) :
    (s.updJob id f).hostMem = s.hostMem := rfl
@[simp] theorem State.updJob_free (id : Nat) (f : Job → Job) (s : State) :
    (s.updJob id f).free = s.free := rfl
@[simp] theorem State.updJob_pending (id : Nat) (f : Job → Job) (s : State) :
    (s.updJob id f).pending = s.pending := rfl

/-! ### State.updClient, which writes `sched` -/

@[simp] theorem State.updClient_grade (n : Nat) (f : Client → Client) (s : State) :
    (s.updClient n f).grade = s.grade := rfl
@[simp] theorem State.updClient_units (n : Nat) (f : Client → Client) (s : State) :
    (s.updClient n f).units = s.units := rfl
@[simp] theorem State.updClient_clustersBuilt (n : Nat) (f : Client → Client) (s : State) :
    (s.updClient n f).clustersBuilt = s.clustersBuilt := rfl
@[simp] theorem State.updClient_clustersLogical (n : Nat) (f : Client → Client) (s : State) :
    (s.updClient n f).clustersLogical = s.clustersLogical := rfl
@[simp] theorem State.updClient_clk (n : Nat) (f : Client → Client) (s : State) :
    (s.updClient n f).clk = s.clk := rfl
@[simp] theorem State.updClient_atr (n : Nat) (f : Client → Client) (s : State) :
    (s.updClient n f).atr = s.atr := rfl
@[simp] theorem State.updClient_locks (n : Nat) (f : Client → Client) (s : State) :
    (s.updClient n f).locks = s.locks := rfl
@[simp] theorem State.updClient_tiers (n : Nat) (f : Client → Client) (s : State) :
    (s.updClient n f).tiers = s.tiers := rfl
@[simp] theorem State.updClient_search (n : Nat) (f : Client → Client) (s : State) :
    (s.updClient n f).search = s.search := rfl
@[simp] theorem State.updClient_gather (n : Nat) (f : Client → Client) (s : State) :
    (s.updClient n f).gather = s.gather := rfl
@[simp] theorem State.updClient_attention (n : Nat) (f : Client → Client) (s : State) :
    (s.updClient n f).attention = s.attention := rfl
@[simp] theorem State.updClient_domains (n : Nat) (f : Client → Client) (s : State) :
    (s.updClient n f).domains = s.domains := rfl
@[simp] theorem State.updClient_flash (n : Nat) (f : Client → Client) (s : State) :
    (s.updClient n f).flash = s.flash := rfl
@[simp] theorem State.updClient_ftl (n : Nat) (f : Client → Client) (s : State) :
    (s.updClient n f).ftl = s.ftl := rfl
@[simp] theorem State.updClient_block (n : Nat) (f : Client → Client) (s : State) :
    (s.updClient n f).block = s.block := rfl
@[simp] theorem State.updClient_link (n : Nat) (f : Client → Client) (s : State) :
    (s.updClient n f).link = s.link := rfl
@[simp] theorem State.updClient_beacon (n : Nat) (f : Client → Client) (s : State) :
    (s.updClient n f).beacon = s.beacon := rfl
@[simp] theorem State.updClient_power (n : Nat) (f : Client → Client) (s : State) :
    (s.updClient n f).power = s.power := rfl
@[simp] theorem State.updClient_sec (n : Nat) (f : Client → Client) (s : State) :
    (s.updClient n f).sec = s.sec := rfl
@[simp] theorem State.updClient_test (n : Nat) (f : Client → Client) (s : State) :
    (s.updClient n f).test = s.test := rfl
@[simp] theorem State.updClient_err (n : Nat) (f : Client → Client) (s : State) :
    (s.updClient n f).err = s.err := rfl
@[simp] theorem State.updClient_docent (n : Nat) (f : Client → Client) (s : State) :
    (s.updClient n f).docent = s.docent := rfl
@[simp] theorem State.updClient_hostMem (n : Nat) (f : Client → Client) (s : State) :
    (s.updClient n f).hostMem = s.hostMem := rfl
@[simp] theorem State.updClient_free (n : Nat) (f : Client → Client) (s : State) :
    (s.updClient n f).free = s.free := rfl
@[simp] theorem State.updClient_pending (n : Nat) (f : Client → Client) (s : State) :
    (s.updClient n f).pending = s.pending := rfl

/-! ### State.updStore, which writes `sched` -/

@[simp] theorem State.updStore_grade (p : Nat) (f : Mem → Mem) (s : State) :
    (s.updStore p f).grade = s.grade := rfl
@[simp] theorem State.updStore_units (p : Nat) (f : Mem → Mem) (s : State) :
    (s.updStore p f).units = s.units := rfl
@[simp] theorem State.updStore_clustersBuilt (p : Nat) (f : Mem → Mem) (s : State) :
    (s.updStore p f).clustersBuilt = s.clustersBuilt := rfl
@[simp] theorem State.updStore_clustersLogical (p : Nat) (f : Mem → Mem) (s : State) :
    (s.updStore p f).clustersLogical = s.clustersLogical := rfl
@[simp] theorem State.updStore_clk (p : Nat) (f : Mem → Mem) (s : State) :
    (s.updStore p f).clk = s.clk := rfl
@[simp] theorem State.updStore_atr (p : Nat) (f : Mem → Mem) (s : State) :
    (s.updStore p f).atr = s.atr := rfl
@[simp] theorem State.updStore_locks (p : Nat) (f : Mem → Mem) (s : State) :
    (s.updStore p f).locks = s.locks := rfl
@[simp] theorem State.updStore_tiers (p : Nat) (f : Mem → Mem) (s : State) :
    (s.updStore p f).tiers = s.tiers := rfl
@[simp] theorem State.updStore_search (p : Nat) (f : Mem → Mem) (s : State) :
    (s.updStore p f).search = s.search := rfl
@[simp] theorem State.updStore_gather (p : Nat) (f : Mem → Mem) (s : State) :
    (s.updStore p f).gather = s.gather := rfl
@[simp] theorem State.updStore_attention (p : Nat) (f : Mem → Mem) (s : State) :
    (s.updStore p f).attention = s.attention := rfl
@[simp] theorem State.updStore_domains (p : Nat) (f : Mem → Mem) (s : State) :
    (s.updStore p f).domains = s.domains := rfl
@[simp] theorem State.updStore_flash (p : Nat) (f : Mem → Mem) (s : State) :
    (s.updStore p f).flash = s.flash := rfl
@[simp] theorem State.updStore_ftl (p : Nat) (f : Mem → Mem) (s : State) :
    (s.updStore p f).ftl = s.ftl := rfl
@[simp] theorem State.updStore_block (p : Nat) (f : Mem → Mem) (s : State) :
    (s.updStore p f).block = s.block := rfl
@[simp] theorem State.updStore_link (p : Nat) (f : Mem → Mem) (s : State) :
    (s.updStore p f).link = s.link := rfl
@[simp] theorem State.updStore_beacon (p : Nat) (f : Mem → Mem) (s : State) :
    (s.updStore p f).beacon = s.beacon := rfl
@[simp] theorem State.updStore_power (p : Nat) (f : Mem → Mem) (s : State) :
    (s.updStore p f).power = s.power := rfl
@[simp] theorem State.updStore_sec (p : Nat) (f : Mem → Mem) (s : State) :
    (s.updStore p f).sec = s.sec := rfl
@[simp] theorem State.updStore_test (p : Nat) (f : Mem → Mem) (s : State) :
    (s.updStore p f).test = s.test := rfl
@[simp] theorem State.updStore_err (p : Nat) (f : Mem → Mem) (s : State) :
    (s.updStore p f).err = s.err := rfl
@[simp] theorem State.updStore_docent (p : Nat) (f : Mem → Mem) (s : State) :
    (s.updStore p f).docent = s.docent := rfl
@[simp] theorem State.updStore_hostMem (p : Nat) (f : Mem → Mem) (s : State) :
    (s.updStore p f).hostMem = s.hostMem := rfl
@[simp] theorem State.updStore_free (p : Nat) (f : Mem → Mem) (s : State) :
    (s.updStore p f).free = s.free := rfl
@[simp] theorem State.updStore_pending (p : Nat) (f : Mem → Mem) (s : State) :
    (s.updStore p f).pending = s.pending := rfl

/-! ### State.updCluster, which writes `sched` -/

@[simp] theorem State.updCluster_grade (id c : Nat) (f : JobCluster → JobCluster) (s : State) :
    (s.updCluster id c f).grade = s.grade := rfl
@[simp] theorem State.updCluster_units (id c : Nat) (f : JobCluster → JobCluster) (s : State) :
    (s.updCluster id c f).units = s.units := rfl
@[simp] theorem State.updCluster_clustersBuilt (id c : Nat) (f : JobCluster → JobCluster) (s : State) :
    (s.updCluster id c f).clustersBuilt = s.clustersBuilt := rfl
@[simp] theorem State.updCluster_clustersLogical (id c : Nat) (f : JobCluster → JobCluster) (s : State) :
    (s.updCluster id c f).clustersLogical = s.clustersLogical := rfl
@[simp] theorem State.updCluster_clk (id c : Nat) (f : JobCluster → JobCluster) (s : State) :
    (s.updCluster id c f).clk = s.clk := rfl
@[simp] theorem State.updCluster_atr (id c : Nat) (f : JobCluster → JobCluster) (s : State) :
    (s.updCluster id c f).atr = s.atr := rfl
@[simp] theorem State.updCluster_locks (id c : Nat) (f : JobCluster → JobCluster) (s : State) :
    (s.updCluster id c f).locks = s.locks := rfl
@[simp] theorem State.updCluster_tiers (id c : Nat) (f : JobCluster → JobCluster) (s : State) :
    (s.updCluster id c f).tiers = s.tiers := rfl
@[simp] theorem State.updCluster_search (id c : Nat) (f : JobCluster → JobCluster) (s : State) :
    (s.updCluster id c f).search = s.search := rfl
@[simp] theorem State.updCluster_gather (id c : Nat) (f : JobCluster → JobCluster) (s : State) :
    (s.updCluster id c f).gather = s.gather := rfl
@[simp] theorem State.updCluster_attention (id c : Nat) (f : JobCluster → JobCluster) (s : State) :
    (s.updCluster id c f).attention = s.attention := rfl
@[simp] theorem State.updCluster_domains (id c : Nat) (f : JobCluster → JobCluster) (s : State) :
    (s.updCluster id c f).domains = s.domains := rfl
@[simp] theorem State.updCluster_flash (id c : Nat) (f : JobCluster → JobCluster) (s : State) :
    (s.updCluster id c f).flash = s.flash := rfl
@[simp] theorem State.updCluster_ftl (id c : Nat) (f : JobCluster → JobCluster) (s : State) :
    (s.updCluster id c f).ftl = s.ftl := rfl
@[simp] theorem State.updCluster_block (id c : Nat) (f : JobCluster → JobCluster) (s : State) :
    (s.updCluster id c f).block = s.block := rfl
@[simp] theorem State.updCluster_link (id c : Nat) (f : JobCluster → JobCluster) (s : State) :
    (s.updCluster id c f).link = s.link := rfl
@[simp] theorem State.updCluster_beacon (id c : Nat) (f : JobCluster → JobCluster) (s : State) :
    (s.updCluster id c f).beacon = s.beacon := rfl
@[simp] theorem State.updCluster_power (id c : Nat) (f : JobCluster → JobCluster) (s : State) :
    (s.updCluster id c f).power = s.power := rfl
@[simp] theorem State.updCluster_sec (id c : Nat) (f : JobCluster → JobCluster) (s : State) :
    (s.updCluster id c f).sec = s.sec := rfl
@[simp] theorem State.updCluster_test (id c : Nat) (f : JobCluster → JobCluster) (s : State) :
    (s.updCluster id c f).test = s.test := rfl
@[simp] theorem State.updCluster_err (id c : Nat) (f : JobCluster → JobCluster) (s : State) :
    (s.updCluster id c f).err = s.err := rfl
@[simp] theorem State.updCluster_docent (id c : Nat) (f : JobCluster → JobCluster) (s : State) :
    (s.updCluster id c f).docent = s.docent := rfl
@[simp] theorem State.updCluster_hostMem (id c : Nat) (f : JobCluster → JobCluster) (s : State) :
    (s.updCluster id c f).hostMem = s.hostMem := rfl
@[simp] theorem State.updCluster_free (id c : Nat) (f : JobCluster → JobCluster) (s : State) :
    (s.updCluster id c f).free = s.free := rfl
@[simp] theorem State.updCluster_pending (id c : Nat) (f : JobCluster → JobCluster) (s : State) :
    (s.updCluster id c f).pending = s.pending := rfl

/-! ### State.updThread, which writes `sched` -/

@[simp] theorem State.updThread_grade (h : Thr) (f : Thread → Thread) (s : State) :
    (s.updThread h f).grade = s.grade := rfl
@[simp] theorem State.updThread_units (h : Thr) (f : Thread → Thread) (s : State) :
    (s.updThread h f).units = s.units := rfl
@[simp] theorem State.updThread_clustersBuilt (h : Thr) (f : Thread → Thread) (s : State) :
    (s.updThread h f).clustersBuilt = s.clustersBuilt := rfl
@[simp] theorem State.updThread_clustersLogical (h : Thr) (f : Thread → Thread) (s : State) :
    (s.updThread h f).clustersLogical = s.clustersLogical := rfl
@[simp] theorem State.updThread_clk (h : Thr) (f : Thread → Thread) (s : State) :
    (s.updThread h f).clk = s.clk := rfl
@[simp] theorem State.updThread_atr (h : Thr) (f : Thread → Thread) (s : State) :
    (s.updThread h f).atr = s.atr := rfl
@[simp] theorem State.updThread_locks (h : Thr) (f : Thread → Thread) (s : State) :
    (s.updThread h f).locks = s.locks := rfl
@[simp] theorem State.updThread_tiers (h : Thr) (f : Thread → Thread) (s : State) :
    (s.updThread h f).tiers = s.tiers := rfl
@[simp] theorem State.updThread_search (h : Thr) (f : Thread → Thread) (s : State) :
    (s.updThread h f).search = s.search := rfl
@[simp] theorem State.updThread_gather (h : Thr) (f : Thread → Thread) (s : State) :
    (s.updThread h f).gather = s.gather := rfl
@[simp] theorem State.updThread_attention (h : Thr) (f : Thread → Thread) (s : State) :
    (s.updThread h f).attention = s.attention := rfl
@[simp] theorem State.updThread_domains (h : Thr) (f : Thread → Thread) (s : State) :
    (s.updThread h f).domains = s.domains := rfl
@[simp] theorem State.updThread_flash (h : Thr) (f : Thread → Thread) (s : State) :
    (s.updThread h f).flash = s.flash := rfl
@[simp] theorem State.updThread_ftl (h : Thr) (f : Thread → Thread) (s : State) :
    (s.updThread h f).ftl = s.ftl := rfl
@[simp] theorem State.updThread_block (h : Thr) (f : Thread → Thread) (s : State) :
    (s.updThread h f).block = s.block := rfl
@[simp] theorem State.updThread_link (h : Thr) (f : Thread → Thread) (s : State) :
    (s.updThread h f).link = s.link := rfl
@[simp] theorem State.updThread_beacon (h : Thr) (f : Thread → Thread) (s : State) :
    (s.updThread h f).beacon = s.beacon := rfl
@[simp] theorem State.updThread_power (h : Thr) (f : Thread → Thread) (s : State) :
    (s.updThread h f).power = s.power := rfl
@[simp] theorem State.updThread_sec (h : Thr) (f : Thread → Thread) (s : State) :
    (s.updThread h f).sec = s.sec := rfl
@[simp] theorem State.updThread_test (h : Thr) (f : Thread → Thread) (s : State) :
    (s.updThread h f).test = s.test := rfl
@[simp] theorem State.updThread_err (h : Thr) (f : Thread → Thread) (s : State) :
    (s.updThread h f).err = s.err := rfl
@[simp] theorem State.updThread_docent (h : Thr) (f : Thread → Thread) (s : State) :
    (s.updThread h f).docent = s.docent := rfl
@[simp] theorem State.updThread_hostMem (h : Thr) (f : Thread → Thread) (s : State) :
    (s.updThread h f).hostMem = s.hostMem := rfl
@[simp] theorem State.updThread_free (h : Thr) (f : Thread → Thread) (s : State) :
    (s.updThread h f).free = s.free := rfl
@[simp] theorem State.updThread_pending (h : Thr) (f : Thread → Thread) (s : State) :
    (s.updThread h f).pending = s.pending := rfl

/-! ### State.updEngine, which writes `sched` -/

@[simp] theorem State.updEngine_grade (e : Eng) (f : Engine → Engine) (s : State) :
    (s.updEngine e f).grade = s.grade := rfl
@[simp] theorem State.updEngine_units (e : Eng) (f : Engine → Engine) (s : State) :
    (s.updEngine e f).units = s.units := rfl
@[simp] theorem State.updEngine_clustersBuilt (e : Eng) (f : Engine → Engine) (s : State) :
    (s.updEngine e f).clustersBuilt = s.clustersBuilt := rfl
@[simp] theorem State.updEngine_clustersLogical (e : Eng) (f : Engine → Engine) (s : State) :
    (s.updEngine e f).clustersLogical = s.clustersLogical := rfl
@[simp] theorem State.updEngine_clk (e : Eng) (f : Engine → Engine) (s : State) :
    (s.updEngine e f).clk = s.clk := rfl
@[simp] theorem State.updEngine_atr (e : Eng) (f : Engine → Engine) (s : State) :
    (s.updEngine e f).atr = s.atr := rfl
@[simp] theorem State.updEngine_locks (e : Eng) (f : Engine → Engine) (s : State) :
    (s.updEngine e f).locks = s.locks := rfl
@[simp] theorem State.updEngine_tiers (e : Eng) (f : Engine → Engine) (s : State) :
    (s.updEngine e f).tiers = s.tiers := rfl
@[simp] theorem State.updEngine_search (e : Eng) (f : Engine → Engine) (s : State) :
    (s.updEngine e f).search = s.search := rfl
@[simp] theorem State.updEngine_gather (e : Eng) (f : Engine → Engine) (s : State) :
    (s.updEngine e f).gather = s.gather := rfl
@[simp] theorem State.updEngine_attention (e : Eng) (f : Engine → Engine) (s : State) :
    (s.updEngine e f).attention = s.attention := rfl
@[simp] theorem State.updEngine_domains (e : Eng) (f : Engine → Engine) (s : State) :
    (s.updEngine e f).domains = s.domains := rfl
@[simp] theorem State.updEngine_flash (e : Eng) (f : Engine → Engine) (s : State) :
    (s.updEngine e f).flash = s.flash := rfl
@[simp] theorem State.updEngine_ftl (e : Eng) (f : Engine → Engine) (s : State) :
    (s.updEngine e f).ftl = s.ftl := rfl
@[simp] theorem State.updEngine_block (e : Eng) (f : Engine → Engine) (s : State) :
    (s.updEngine e f).block = s.block := rfl
@[simp] theorem State.updEngine_link (e : Eng) (f : Engine → Engine) (s : State) :
    (s.updEngine e f).link = s.link := rfl
@[simp] theorem State.updEngine_beacon (e : Eng) (f : Engine → Engine) (s : State) :
    (s.updEngine e f).beacon = s.beacon := rfl
@[simp] theorem State.updEngine_power (e : Eng) (f : Engine → Engine) (s : State) :
    (s.updEngine e f).power = s.power := rfl
@[simp] theorem State.updEngine_sec (e : Eng) (f : Engine → Engine) (s : State) :
    (s.updEngine e f).sec = s.sec := rfl
@[simp] theorem State.updEngine_test (e : Eng) (f : Engine → Engine) (s : State) :
    (s.updEngine e f).test = s.test := rfl
@[simp] theorem State.updEngine_err (e : Eng) (f : Engine → Engine) (s : State) :
    (s.updEngine e f).err = s.err := rfl
@[simp] theorem State.updEngine_docent (e : Eng) (f : Engine → Engine) (s : State) :
    (s.updEngine e f).docent = s.docent := rfl
@[simp] theorem State.updEngine_hostMem (e : Eng) (f : Engine → Engine) (s : State) :
    (s.updEngine e f).hostMem = s.hostMem := rfl
@[simp] theorem State.updEngine_free (e : Eng) (f : Engine → Engine) (s : State) :
    (s.updEngine e f).free = s.free := rfl
@[simp] theorem State.updEngine_pending (e : Eng) (f : Engine → Engine) (s : State) :
    (s.updEngine e f).pending = s.pending := rfl

/-! ### State.updDom, which writes `domains` -/

@[simp] theorem State.updDom_grade (d : Nat) (f : Domain → Domain) (s : State) :
    (s.updDom d f).grade = s.grade := rfl
@[simp] theorem State.updDom_units (d : Nat) (f : Domain → Domain) (s : State) :
    (s.updDom d f).units = s.units := rfl
@[simp] theorem State.updDom_clustersBuilt (d : Nat) (f : Domain → Domain) (s : State) :
    (s.updDom d f).clustersBuilt = s.clustersBuilt := rfl
@[simp] theorem State.updDom_clustersLogical (d : Nat) (f : Domain → Domain) (s : State) :
    (s.updDom d f).clustersLogical = s.clustersLogical := rfl
@[simp] theorem State.updDom_clk (d : Nat) (f : Domain → Domain) (s : State) :
    (s.updDom d f).clk = s.clk := rfl
@[simp] theorem State.updDom_atr (d : Nat) (f : Domain → Domain) (s : State) :
    (s.updDom d f).atr = s.atr := rfl
@[simp] theorem State.updDom_locks (d : Nat) (f : Domain → Domain) (s : State) :
    (s.updDom d f).locks = s.locks := rfl
@[simp] theorem State.updDom_sched (d : Nat) (f : Domain → Domain) (s : State) :
    (s.updDom d f).sched = s.sched := rfl
@[simp] theorem State.updDom_tiers (d : Nat) (f : Domain → Domain) (s : State) :
    (s.updDom d f).tiers = s.tiers := rfl
@[simp] theorem State.updDom_search (d : Nat) (f : Domain → Domain) (s : State) :
    (s.updDom d f).search = s.search := rfl
@[simp] theorem State.updDom_gather (d : Nat) (f : Domain → Domain) (s : State) :
    (s.updDom d f).gather = s.gather := rfl
@[simp] theorem State.updDom_attention (d : Nat) (f : Domain → Domain) (s : State) :
    (s.updDom d f).attention = s.attention := rfl
@[simp] theorem State.updDom_flash (d : Nat) (f : Domain → Domain) (s : State) :
    (s.updDom d f).flash = s.flash := rfl
@[simp] theorem State.updDom_ftl (d : Nat) (f : Domain → Domain) (s : State) :
    (s.updDom d f).ftl = s.ftl := rfl
@[simp] theorem State.updDom_block (d : Nat) (f : Domain → Domain) (s : State) :
    (s.updDom d f).block = s.block := rfl
@[simp] theorem State.updDom_link (d : Nat) (f : Domain → Domain) (s : State) :
    (s.updDom d f).link = s.link := rfl
@[simp] theorem State.updDom_beacon (d : Nat) (f : Domain → Domain) (s : State) :
    (s.updDom d f).beacon = s.beacon := rfl
@[simp] theorem State.updDom_power (d : Nat) (f : Domain → Domain) (s : State) :
    (s.updDom d f).power = s.power := rfl
@[simp] theorem State.updDom_sec (d : Nat) (f : Domain → Domain) (s : State) :
    (s.updDom d f).sec = s.sec := rfl
@[simp] theorem State.updDom_test (d : Nat) (f : Domain → Domain) (s : State) :
    (s.updDom d f).test = s.test := rfl
@[simp] theorem State.updDom_err (d : Nat) (f : Domain → Domain) (s : State) :
    (s.updDom d f).err = s.err := rfl
@[simp] theorem State.updDom_docent (d : Nat) (f : Domain → Domain) (s : State) :
    (s.updDom d f).docent = s.docent := rfl
@[simp] theorem State.updDom_hostMem (d : Nat) (f : Domain → Domain) (s : State) :
    (s.updDom d f).hostMem = s.hostMem := rfl
@[simp] theorem State.updDom_free (d : Nat) (f : Domain → Domain) (s : State) :
    (s.updDom d f).free = s.free := rfl
@[simp] theorem State.updDom_pending (d : Nat) (f : Domain → Domain) (s : State) :
    (s.updDom d f).pending = s.pending := rfl

/-! ### State.updRound, which writes `domains` -/

@[simp] theorem State.updRound_grade (d : Nat) (f : Round → Round) (s : State) :
    (s.updRound d f).grade = s.grade := rfl
@[simp] theorem State.updRound_units (d : Nat) (f : Round → Round) (s : State) :
    (s.updRound d f).units = s.units := rfl
@[simp] theorem State.updRound_clustersBuilt (d : Nat) (f : Round → Round) (s : State) :
    (s.updRound d f).clustersBuilt = s.clustersBuilt := rfl
@[simp] theorem State.updRound_clustersLogical (d : Nat) (f : Round → Round) (s : State) :
    (s.updRound d f).clustersLogical = s.clustersLogical := rfl
@[simp] theorem State.updRound_clk (d : Nat) (f : Round → Round) (s : State) :
    (s.updRound d f).clk = s.clk := rfl
@[simp] theorem State.updRound_atr (d : Nat) (f : Round → Round) (s : State) :
    (s.updRound d f).atr = s.atr := rfl
@[simp] theorem State.updRound_locks (d : Nat) (f : Round → Round) (s : State) :
    (s.updRound d f).locks = s.locks := rfl
@[simp] theorem State.updRound_sched (d : Nat) (f : Round → Round) (s : State) :
    (s.updRound d f).sched = s.sched := rfl
@[simp] theorem State.updRound_tiers (d : Nat) (f : Round → Round) (s : State) :
    (s.updRound d f).tiers = s.tiers := rfl
@[simp] theorem State.updRound_search (d : Nat) (f : Round → Round) (s : State) :
    (s.updRound d f).search = s.search := rfl
@[simp] theorem State.updRound_gather (d : Nat) (f : Round → Round) (s : State) :
    (s.updRound d f).gather = s.gather := rfl
@[simp] theorem State.updRound_attention (d : Nat) (f : Round → Round) (s : State) :
    (s.updRound d f).attention = s.attention := rfl
@[simp] theorem State.updRound_flash (d : Nat) (f : Round → Round) (s : State) :
    (s.updRound d f).flash = s.flash := rfl
@[simp] theorem State.updRound_ftl (d : Nat) (f : Round → Round) (s : State) :
    (s.updRound d f).ftl = s.ftl := rfl
@[simp] theorem State.updRound_block (d : Nat) (f : Round → Round) (s : State) :
    (s.updRound d f).block = s.block := rfl
@[simp] theorem State.updRound_link (d : Nat) (f : Round → Round) (s : State) :
    (s.updRound d f).link = s.link := rfl
@[simp] theorem State.updRound_beacon (d : Nat) (f : Round → Round) (s : State) :
    (s.updRound d f).beacon = s.beacon := rfl
@[simp] theorem State.updRound_power (d : Nat) (f : Round → Round) (s : State) :
    (s.updRound d f).power = s.power := rfl
@[simp] theorem State.updRound_sec (d : Nat) (f : Round → Round) (s : State) :
    (s.updRound d f).sec = s.sec := rfl
@[simp] theorem State.updRound_test (d : Nat) (f : Round → Round) (s : State) :
    (s.updRound d f).test = s.test := rfl
@[simp] theorem State.updRound_err (d : Nat) (f : Round → Round) (s : State) :
    (s.updRound d f).err = s.err := rfl
@[simp] theorem State.updRound_docent (d : Nat) (f : Round → Round) (s : State) :
    (s.updRound d f).docent = s.docent := rfl
@[simp] theorem State.updRound_hostMem (d : Nat) (f : Round → Round) (s : State) :
    (s.updRound d f).hostMem = s.hostMem := rfl
@[simp] theorem State.updRound_free (d : Nat) (f : Round → Round) (s : State) :
    (s.updRound d f).free = s.free := rfl
@[simp] theorem State.updRound_pending (d : Nat) (f : Round → Round) (s : State) :
    (s.updRound d f).pending = s.pending := rfl

/-! ### State.updChunk, which writes `domains` -/

@[simp] theorem State.updChunk_grade (d c : Nat) (f : Chunk → Chunk) (s : State) :
    (s.updChunk d c f).grade = s.grade := rfl
@[simp] theorem State.updChunk_units (d c : Nat) (f : Chunk → Chunk) (s : State) :
    (s.updChunk d c f).units = s.units := rfl
@[simp] theorem State.updChunk_clustersBuilt (d c : Nat) (f : Chunk → Chunk) (s : State) :
    (s.updChunk d c f).clustersBuilt = s.clustersBuilt := rfl
@[simp] theorem State.updChunk_clustersLogical (d c : Nat) (f : Chunk → Chunk) (s : State) :
    (s.updChunk d c f).clustersLogical = s.clustersLogical := rfl
@[simp] theorem State.updChunk_clk (d c : Nat) (f : Chunk → Chunk) (s : State) :
    (s.updChunk d c f).clk = s.clk := rfl
@[simp] theorem State.updChunk_atr (d c : Nat) (f : Chunk → Chunk) (s : State) :
    (s.updChunk d c f).atr = s.atr := rfl
@[simp] theorem State.updChunk_locks (d c : Nat) (f : Chunk → Chunk) (s : State) :
    (s.updChunk d c f).locks = s.locks := rfl
@[simp] theorem State.updChunk_sched (d c : Nat) (f : Chunk → Chunk) (s : State) :
    (s.updChunk d c f).sched = s.sched := rfl
@[simp] theorem State.updChunk_tiers (d c : Nat) (f : Chunk → Chunk) (s : State) :
    (s.updChunk d c f).tiers = s.tiers := rfl
@[simp] theorem State.updChunk_search (d c : Nat) (f : Chunk → Chunk) (s : State) :
    (s.updChunk d c f).search = s.search := rfl
@[simp] theorem State.updChunk_gather (d c : Nat) (f : Chunk → Chunk) (s : State) :
    (s.updChunk d c f).gather = s.gather := rfl
@[simp] theorem State.updChunk_attention (d c : Nat) (f : Chunk → Chunk) (s : State) :
    (s.updChunk d c f).attention = s.attention := rfl
@[simp] theorem State.updChunk_flash (d c : Nat) (f : Chunk → Chunk) (s : State) :
    (s.updChunk d c f).flash = s.flash := rfl
@[simp] theorem State.updChunk_ftl (d c : Nat) (f : Chunk → Chunk) (s : State) :
    (s.updChunk d c f).ftl = s.ftl := rfl
@[simp] theorem State.updChunk_block (d c : Nat) (f : Chunk → Chunk) (s : State) :
    (s.updChunk d c f).block = s.block := rfl
@[simp] theorem State.updChunk_link (d c : Nat) (f : Chunk → Chunk) (s : State) :
    (s.updChunk d c f).link = s.link := rfl
@[simp] theorem State.updChunk_beacon (d c : Nat) (f : Chunk → Chunk) (s : State) :
    (s.updChunk d c f).beacon = s.beacon := rfl
@[simp] theorem State.updChunk_power (d c : Nat) (f : Chunk → Chunk) (s : State) :
    (s.updChunk d c f).power = s.power := rfl
@[simp] theorem State.updChunk_sec (d c : Nat) (f : Chunk → Chunk) (s : State) :
    (s.updChunk d c f).sec = s.sec := rfl
@[simp] theorem State.updChunk_test (d c : Nat) (f : Chunk → Chunk) (s : State) :
    (s.updChunk d c f).test = s.test := rfl
@[simp] theorem State.updChunk_err (d c : Nat) (f : Chunk → Chunk) (s : State) :
    (s.updChunk d c f).err = s.err := rfl
@[simp] theorem State.updChunk_docent (d c : Nat) (f : Chunk → Chunk) (s : State) :
    (s.updChunk d c f).docent = s.docent := rfl
@[simp] theorem State.updChunk_hostMem (d c : Nat) (f : Chunk → Chunk) (s : State) :
    (s.updChunk d c f).hostMem = s.hostMem := rfl
@[simp] theorem State.updChunk_free (d c : Nat) (f : Chunk → Chunk) (s : State) :
    (s.updChunk d c f).free = s.free := rfl
@[simp] theorem State.updChunk_pending (d c : Nat) (f : Chunk → Chunk) (s : State) :
    (s.updChunk d c f).pending = s.pending := rfl

/-! ### State.updEunit, which writes `flash` -/

@[simp] theorem State.updEunit_grade (d : Die) (u : Nat) (f : EraseUnit → EraseUnit) (s : State) :
    (s.updEunit d u f).grade = s.grade := rfl
@[simp] theorem State.updEunit_units (d : Die) (u : Nat) (f : EraseUnit → EraseUnit) (s : State) :
    (s.updEunit d u f).units = s.units := rfl
@[simp] theorem State.updEunit_clustersBuilt (d : Die) (u : Nat) (f : EraseUnit → EraseUnit) (s : State) :
    (s.updEunit d u f).clustersBuilt = s.clustersBuilt := rfl
@[simp] theorem State.updEunit_clustersLogical (d : Die) (u : Nat) (f : EraseUnit → EraseUnit) (s : State) :
    (s.updEunit d u f).clustersLogical = s.clustersLogical := rfl
@[simp] theorem State.updEunit_clk (d : Die) (u : Nat) (f : EraseUnit → EraseUnit) (s : State) :
    (s.updEunit d u f).clk = s.clk := rfl
@[simp] theorem State.updEunit_atr (d : Die) (u : Nat) (f : EraseUnit → EraseUnit) (s : State) :
    (s.updEunit d u f).atr = s.atr := rfl
@[simp] theorem State.updEunit_locks (d : Die) (u : Nat) (f : EraseUnit → EraseUnit) (s : State) :
    (s.updEunit d u f).locks = s.locks := rfl
@[simp] theorem State.updEunit_sched (d : Die) (u : Nat) (f : EraseUnit → EraseUnit) (s : State) :
    (s.updEunit d u f).sched = s.sched := rfl
@[simp] theorem State.updEunit_tiers (d : Die) (u : Nat) (f : EraseUnit → EraseUnit) (s : State) :
    (s.updEunit d u f).tiers = s.tiers := rfl
@[simp] theorem State.updEunit_search (d : Die) (u : Nat) (f : EraseUnit → EraseUnit) (s : State) :
    (s.updEunit d u f).search = s.search := rfl
@[simp] theorem State.updEunit_gather (d : Die) (u : Nat) (f : EraseUnit → EraseUnit) (s : State) :
    (s.updEunit d u f).gather = s.gather := rfl
@[simp] theorem State.updEunit_attention (d : Die) (u : Nat) (f : EraseUnit → EraseUnit) (s : State) :
    (s.updEunit d u f).attention = s.attention := rfl
@[simp] theorem State.updEunit_domains (d : Die) (u : Nat) (f : EraseUnit → EraseUnit) (s : State) :
    (s.updEunit d u f).domains = s.domains := rfl
@[simp] theorem State.updEunit_ftl (d : Die) (u : Nat) (f : EraseUnit → EraseUnit) (s : State) :
    (s.updEunit d u f).ftl = s.ftl := rfl
@[simp] theorem State.updEunit_block (d : Die) (u : Nat) (f : EraseUnit → EraseUnit) (s : State) :
    (s.updEunit d u f).block = s.block := rfl
@[simp] theorem State.updEunit_link (d : Die) (u : Nat) (f : EraseUnit → EraseUnit) (s : State) :
    (s.updEunit d u f).link = s.link := rfl
@[simp] theorem State.updEunit_beacon (d : Die) (u : Nat) (f : EraseUnit → EraseUnit) (s : State) :
    (s.updEunit d u f).beacon = s.beacon := rfl
@[simp] theorem State.updEunit_power (d : Die) (u : Nat) (f : EraseUnit → EraseUnit) (s : State) :
    (s.updEunit d u f).power = s.power := rfl
@[simp] theorem State.updEunit_sec (d : Die) (u : Nat) (f : EraseUnit → EraseUnit) (s : State) :
    (s.updEunit d u f).sec = s.sec := rfl
@[simp] theorem State.updEunit_test (d : Die) (u : Nat) (f : EraseUnit → EraseUnit) (s : State) :
    (s.updEunit d u f).test = s.test := rfl
@[simp] theorem State.updEunit_err (d : Die) (u : Nat) (f : EraseUnit → EraseUnit) (s : State) :
    (s.updEunit d u f).err = s.err := rfl
@[simp] theorem State.updEunit_docent (d : Die) (u : Nat) (f : EraseUnit → EraseUnit) (s : State) :
    (s.updEunit d u f).docent = s.docent := rfl
@[simp] theorem State.updEunit_hostMem (d : Die) (u : Nat) (f : EraseUnit → EraseUnit) (s : State) :
    (s.updEunit d u f).hostMem = s.hostMem := rfl
@[simp] theorem State.updEunit_free (d : Die) (u : Nat) (f : EraseUnit → EraseUnit) (s : State) :
    (s.updEunit d u f).free = s.free := rfl
@[simp] theorem State.updEunit_pending (d : Die) (u : Nat) (f : EraseUnit → EraseUnit) (s : State) :
    (s.updEunit d u f).pending = s.pending := rfl

/-! ### State.updChannel, which writes `flash` -/

@[simp] theorem State.updChannel_grade (c : Nat) (f : ChannelCnt → ChannelCnt) (s : State) :
    (s.updChannel c f).grade = s.grade := rfl
@[simp] theorem State.updChannel_units (c : Nat) (f : ChannelCnt → ChannelCnt) (s : State) :
    (s.updChannel c f).units = s.units := rfl
@[simp] theorem State.updChannel_clustersBuilt (c : Nat) (f : ChannelCnt → ChannelCnt) (s : State) :
    (s.updChannel c f).clustersBuilt = s.clustersBuilt := rfl
@[simp] theorem State.updChannel_clustersLogical (c : Nat) (f : ChannelCnt → ChannelCnt) (s : State) :
    (s.updChannel c f).clustersLogical = s.clustersLogical := rfl
@[simp] theorem State.updChannel_clk (c : Nat) (f : ChannelCnt → ChannelCnt) (s : State) :
    (s.updChannel c f).clk = s.clk := rfl
@[simp] theorem State.updChannel_atr (c : Nat) (f : ChannelCnt → ChannelCnt) (s : State) :
    (s.updChannel c f).atr = s.atr := rfl
@[simp] theorem State.updChannel_locks (c : Nat) (f : ChannelCnt → ChannelCnt) (s : State) :
    (s.updChannel c f).locks = s.locks := rfl
@[simp] theorem State.updChannel_sched (c : Nat) (f : ChannelCnt → ChannelCnt) (s : State) :
    (s.updChannel c f).sched = s.sched := rfl
@[simp] theorem State.updChannel_tiers (c : Nat) (f : ChannelCnt → ChannelCnt) (s : State) :
    (s.updChannel c f).tiers = s.tiers := rfl
@[simp] theorem State.updChannel_search (c : Nat) (f : ChannelCnt → ChannelCnt) (s : State) :
    (s.updChannel c f).search = s.search := rfl
@[simp] theorem State.updChannel_gather (c : Nat) (f : ChannelCnt → ChannelCnt) (s : State) :
    (s.updChannel c f).gather = s.gather := rfl
@[simp] theorem State.updChannel_attention (c : Nat) (f : ChannelCnt → ChannelCnt) (s : State) :
    (s.updChannel c f).attention = s.attention := rfl
@[simp] theorem State.updChannel_domains (c : Nat) (f : ChannelCnt → ChannelCnt) (s : State) :
    (s.updChannel c f).domains = s.domains := rfl
@[simp] theorem State.updChannel_ftl (c : Nat) (f : ChannelCnt → ChannelCnt) (s : State) :
    (s.updChannel c f).ftl = s.ftl := rfl
@[simp] theorem State.updChannel_block (c : Nat) (f : ChannelCnt → ChannelCnt) (s : State) :
    (s.updChannel c f).block = s.block := rfl
@[simp] theorem State.updChannel_link (c : Nat) (f : ChannelCnt → ChannelCnt) (s : State) :
    (s.updChannel c f).link = s.link := rfl
@[simp] theorem State.updChannel_beacon (c : Nat) (f : ChannelCnt → ChannelCnt) (s : State) :
    (s.updChannel c f).beacon = s.beacon := rfl
@[simp] theorem State.updChannel_power (c : Nat) (f : ChannelCnt → ChannelCnt) (s : State) :
    (s.updChannel c f).power = s.power := rfl
@[simp] theorem State.updChannel_sec (c : Nat) (f : ChannelCnt → ChannelCnt) (s : State) :
    (s.updChannel c f).sec = s.sec := rfl
@[simp] theorem State.updChannel_test (c : Nat) (f : ChannelCnt → ChannelCnt) (s : State) :
    (s.updChannel c f).test = s.test := rfl
@[simp] theorem State.updChannel_err (c : Nat) (f : ChannelCnt → ChannelCnt) (s : State) :
    (s.updChannel c f).err = s.err := rfl
@[simp] theorem State.updChannel_docent (c : Nat) (f : ChannelCnt → ChannelCnt) (s : State) :
    (s.updChannel c f).docent = s.docent := rfl
@[simp] theorem State.updChannel_hostMem (c : Nat) (f : ChannelCnt → ChannelCnt) (s : State) :
    (s.updChannel c f).hostMem = s.hostMem := rfl
@[simp] theorem State.updChannel_free (c : Nat) (f : ChannelCnt → ChannelCnt) (s : State) :
    (s.updChannel c f).free = s.free := rfl
@[simp] theorem State.updChannel_pending (c : Nat) (f : ChannelCnt → ChannelCnt) (s : State) :
    (s.updChannel c f).pending = s.pending := rfl

/-! ### Updates of a whole part, read back -/

@[simp] theorem State.updTst_test (f : TestBlock → TestBlock) (s : State) :
    (s.updTst f).test = f s.test := rfl
@[simp] theorem State.updSec_sec (f : Security → Security) (s : State) :
    (s.updSec f).sec = f s.sec := rfl
@[simp] theorem State.updPower_power (f : Power → Power) (s : State) :
    (s.updPower f).power = f s.power := rfl
@[simp] theorem State.updBeacon_beacon (f : Beacon → Beacon) (s : State) :
    (s.updBeacon f).beacon = f s.beacon := rfl

end Sys2Proof.Machine
end

