-- ==== Sys2Proof/Laws/Ops.lean ====
section
/-! SUPPORT. What the shared operations can do: each writes one or two parts of the state and leaves every other part
alone. -/
namespace Sys2Proof.Machine

/-! ### State.send -/

theorem State.send_only (p : Nat) (k : TxPkt) (s : State) :
    s.send p k = { s with link := (s.send p k).link } := rfl

@[simp] theorem State.send_grade (p : Nat) (k : TxPkt) (s : State) :
    (s.send p k).grade = s.grade := by rw [State.send_only]
@[simp] theorem State.send_units (p : Nat) (k : TxPkt) (s : State) :
    (s.send p k).units = s.units := by rw [State.send_only]
@[simp] theorem State.send_clustersBuilt (p : Nat) (k : TxPkt) (s : State) :
    (s.send p k).clustersBuilt = s.clustersBuilt := by rw [State.send_only]
@[simp] theorem State.send_clustersLogical (p : Nat) (k : TxPkt) (s : State) :
    (s.send p k).clustersLogical = s.clustersLogical := by rw [State.send_only]
@[simp] theorem State.send_clk (p : Nat) (k : TxPkt) (s : State) :
    (s.send p k).clk = s.clk := by rw [State.send_only]
@[simp] theorem State.send_atr (p : Nat) (k : TxPkt) (s : State) :
    (s.send p k).atr = s.atr := by rw [State.send_only]
@[simp] theorem State.send_locks (p : Nat) (k : TxPkt) (s : State) :
    (s.send p k).locks = s.locks := by rw [State.send_only]
@[simp] theorem State.send_sched (p : Nat) (k : TxPkt) (s : State) :
    (s.send p k).sched = s.sched := by rw [State.send_only]
@[simp] theorem State.send_tiers (p : Nat) (k : TxPkt) (s : State) :
    (s.send p k).tiers = s.tiers := by rw [State.send_only]
@[simp] theorem State.send_search (p : Nat) (k : TxPkt) (s : State) :
    (s.send p k).search = s.search := by rw [State.send_only]
@[simp] theorem State.send_gather (p : Nat) (k : TxPkt) (s : State) :
    (s.send p k).gather = s.gather := by rw [State.send_only]
@[simp] theorem State.send_attention (p : Nat) (k : TxPkt) (s : State) :
    (s.send p k).attention = s.attention := by rw [State.send_only]
@[simp] theorem State.send_domains (p : Nat) (k : TxPkt) (s : State) :
    (s.send p k).domains = s.domains := by rw [State.send_only]
@[simp] theorem State.send_flash (p : Nat) (k : TxPkt) (s : State) :
    (s.send p k).flash = s.flash := by rw [State.send_only]
@[simp] theorem State.send_ftl (p : Nat) (k : TxPkt) (s : State) :
    (s.send p k).ftl = s.ftl := by rw [State.send_only]
@[simp] theorem State.send_block (p : Nat) (k : TxPkt) (s : State) :
    (s.send p k).block = s.block := by rw [State.send_only]
@[simp] theorem State.send_beacon (p : Nat) (k : TxPkt) (s : State) :
    (s.send p k).beacon = s.beacon := by rw [State.send_only]
@[simp] theorem State.send_power (p : Nat) (k : TxPkt) (s : State) :
    (s.send p k).power = s.power := by rw [State.send_only]
@[simp] theorem State.send_sec (p : Nat) (k : TxPkt) (s : State) :
    (s.send p k).sec = s.sec := by rw [State.send_only]
@[simp] theorem State.send_test (p : Nat) (k : TxPkt) (s : State) :
    (s.send p k).test = s.test := by rw [State.send_only]
@[simp] theorem State.send_err (p : Nat) (k : TxPkt) (s : State) :
    (s.send p k).err = s.err := by rw [State.send_only]
@[simp] theorem State.send_docent (p : Nat) (k : TxPkt) (s : State) :
    (s.send p k).docent = s.docent := by rw [State.send_only]
@[simp] theorem State.send_hostMem (p : Nat) (k : TxPkt) (s : State) :
    (s.send p k).hostMem = s.hostMem := by rw [State.send_only]
@[simp] theorem State.send_free (p : Nat) (k : TxPkt) (s : State) :
    (s.send p k).free = s.free := by rw [State.send_only]
@[simp] theorem State.send_pending (p : Nat) (k : TxPkt) (s : State) :
    (s.send p k).pending = s.pending := by rw [State.send_only]

/-! ### State.sendAll -/

theorem State.sendAll_only (p : Nat) (ks : List TxPkt) (s : State) :
    s.sendAll p ks = { s with link := (s.sendAll p ks).link } := by
  suffices h : ∀ (ks : List TxPkt) (t : State), (t = { s with link := t.link }) →
      ks.foldl (fun t k => t.send p k) t = { s with link := (ks.foldl (fun t k => t.send p k) t).link } from h ks s rfl
  intro ks
  induction ks with
  | nil => intro t h; exact h
  | cons k ks ih => intro t h; exact ih (t.send p k) (by rw [h]; rfl)

@[simp] theorem State.sendAll_grade (p : Nat) (ks : List TxPkt) (s : State) :
    (s.sendAll p ks).grade = s.grade := by rw [State.sendAll_only]
@[simp] theorem State.sendAll_units (p : Nat) (ks : List TxPkt) (s : State) :
    (s.sendAll p ks).units = s.units := by rw [State.sendAll_only]
@[simp] theorem State.sendAll_clustersBuilt (p : Nat) (ks : List TxPkt) (s : State) :
    (s.sendAll p ks).clustersBuilt = s.clustersBuilt := by rw [State.sendAll_only]
@[simp] theorem State.sendAll_clustersLogical (p : Nat) (ks : List TxPkt) (s : State) :
    (s.sendAll p ks).clustersLogical = s.clustersLogical := by rw [State.sendAll_only]
@[simp] theorem State.sendAll_clk (p : Nat) (ks : List TxPkt) (s : State) :
    (s.sendAll p ks).clk = s.clk := by rw [State.sendAll_only]
@[simp] theorem State.sendAll_atr (p : Nat) (ks : List TxPkt) (s : State) :
    (s.sendAll p ks).atr = s.atr := by rw [State.sendAll_only]
@[simp] theorem State.sendAll_locks (p : Nat) (ks : List TxPkt) (s : State) :
    (s.sendAll p ks).locks = s.locks := by rw [State.sendAll_only]
@[simp] theorem State.sendAll_sched (p : Nat) (ks : List TxPkt) (s : State) :
    (s.sendAll p ks).sched = s.sched := by rw [State.sendAll_only]
@[simp] theorem State.sendAll_tiers (p : Nat) (ks : List TxPkt) (s : State) :
    (s.sendAll p ks).tiers = s.tiers := by rw [State.sendAll_only]
@[simp] theorem State.sendAll_search (p : Nat) (ks : List TxPkt) (s : State) :
    (s.sendAll p ks).search = s.search := by rw [State.sendAll_only]
@[simp] theorem State.sendAll_gather (p : Nat) (ks : List TxPkt) (s : State) :
    (s.sendAll p ks).gather = s.gather := by rw [State.sendAll_only]
@[simp] theorem State.sendAll_attention (p : Nat) (ks : List TxPkt) (s : State) :
    (s.sendAll p ks).attention = s.attention := by rw [State.sendAll_only]
@[simp] theorem State.sendAll_domains (p : Nat) (ks : List TxPkt) (s : State) :
    (s.sendAll p ks).domains = s.domains := by rw [State.sendAll_only]
@[simp] theorem State.sendAll_flash (p : Nat) (ks : List TxPkt) (s : State) :
    (s.sendAll p ks).flash = s.flash := by rw [State.sendAll_only]
@[simp] theorem State.sendAll_ftl (p : Nat) (ks : List TxPkt) (s : State) :
    (s.sendAll p ks).ftl = s.ftl := by rw [State.sendAll_only]
@[simp] theorem State.sendAll_block (p : Nat) (ks : List TxPkt) (s : State) :
    (s.sendAll p ks).block = s.block := by rw [State.sendAll_only]
@[simp] theorem State.sendAll_beacon (p : Nat) (ks : List TxPkt) (s : State) :
    (s.sendAll p ks).beacon = s.beacon := by rw [State.sendAll_only]
@[simp] theorem State.sendAll_power (p : Nat) (ks : List TxPkt) (s : State) :
    (s.sendAll p ks).power = s.power := by rw [State.sendAll_only]
@[simp] theorem State.sendAll_sec (p : Nat) (ks : List TxPkt) (s : State) :
    (s.sendAll p ks).sec = s.sec := by rw [State.sendAll_only]
@[simp] theorem State.sendAll_test (p : Nat) (ks : List TxPkt) (s : State) :
    (s.sendAll p ks).test = s.test := by rw [State.sendAll_only]
@[simp] theorem State.sendAll_err (p : Nat) (ks : List TxPkt) (s : State) :
    (s.sendAll p ks).err = s.err := by rw [State.sendAll_only]
@[simp] theorem State.sendAll_docent (p : Nat) (ks : List TxPkt) (s : State) :
    (s.sendAll p ks).docent = s.docent := by rw [State.sendAll_only]
@[simp] theorem State.sendAll_hostMem (p : Nat) (ks : List TxPkt) (s : State) :
    (s.sendAll p ks).hostMem = s.hostMem := by rw [State.sendAll_only]
@[simp] theorem State.sendAll_free (p : Nat) (ks : List TxPkt) (s : State) :
    (s.sendAll p ks).free = s.free := by rw [State.sendAll_only]
@[simp] theorem State.sendAll_pending (p : Nat) (ks : List TxPkt) (s : State) :
    (s.sendAll p ks).pending = s.pending := by rw [State.sendAll_only]

/-! ### State.hostWrite -/

theorem State.hostWrite_only (ring addr : Nat) (bs : Bytes) (s : State) :
    s.hostWrite ring addr bs =
      { s with
        atr := (s.hostWrite ring addr bs).atr, hostMem := (s.hostWrite ring addr bs).hostMem
        link := (s.hostWrite ring addr bs).link } := by
  unfold State.hostWrite
  split
  · rfl
  · rw [State.sendAll_only]

@[simp] theorem State.hostWrite_grade (ring addr : Nat) (bs : Bytes) (s : State) :
    (s.hostWrite ring addr bs).grade = s.grade := by rw [State.hostWrite_only]
@[simp] theorem State.hostWrite_units (ring addr : Nat) (bs : Bytes) (s : State) :
    (s.hostWrite ring addr bs).units = s.units := by rw [State.hostWrite_only]
@[simp] theorem State.hostWrite_clustersBuilt (ring addr : Nat) (bs : Bytes) (s : State) :
    (s.hostWrite ring addr bs).clustersBuilt = s.clustersBuilt := by rw [State.hostWrite_only]
@[simp] theorem State.hostWrite_clustersLogical (ring addr : Nat) (bs : Bytes) (s : State) :
    (s.hostWrite ring addr bs).clustersLogical = s.clustersLogical := by rw [State.hostWrite_only]
@[simp] theorem State.hostWrite_clk (ring addr : Nat) (bs : Bytes) (s : State) :
    (s.hostWrite ring addr bs).clk = s.clk := by rw [State.hostWrite_only]
@[simp] theorem State.hostWrite_locks (ring addr : Nat) (bs : Bytes) (s : State) :
    (s.hostWrite ring addr bs).locks = s.locks := by rw [State.hostWrite_only]
@[simp] theorem State.hostWrite_sched (ring addr : Nat) (bs : Bytes) (s : State) :
    (s.hostWrite ring addr bs).sched = s.sched := by rw [State.hostWrite_only]
@[simp] theorem State.hostWrite_tiers (ring addr : Nat) (bs : Bytes) (s : State) :
    (s.hostWrite ring addr bs).tiers = s.tiers := by rw [State.hostWrite_only]
@[simp] theorem State.hostWrite_search (ring addr : Nat) (bs : Bytes) (s : State) :
    (s.hostWrite ring addr bs).search = s.search := by rw [State.hostWrite_only]
@[simp] theorem State.hostWrite_gather (ring addr : Nat) (bs : Bytes) (s : State) :
    (s.hostWrite ring addr bs).gather = s.gather := by rw [State.hostWrite_only]
@[simp] theorem State.hostWrite_attention (ring addr : Nat) (bs : Bytes) (s : State) :
    (s.hostWrite ring addr bs).attention = s.attention := by rw [State.hostWrite_only]
@[simp] theorem State.hostWrite_domains (ring addr : Nat) (bs : Bytes) (s : State) :
    (s.hostWrite ring addr bs).domains = s.domains := by rw [State.hostWrite_only]
@[simp] theorem State.hostWrite_flash (ring addr : Nat) (bs : Bytes) (s : State) :
    (s.hostWrite ring addr bs).flash = s.flash := by rw [State.hostWrite_only]
@[simp] theorem State.hostWrite_ftl (ring addr : Nat) (bs : Bytes) (s : State) :
    (s.hostWrite ring addr bs).ftl = s.ftl := by rw [State.hostWrite_only]
@[simp] theorem State.hostWrite_block (ring addr : Nat) (bs : Bytes) (s : State) :
    (s.hostWrite ring addr bs).block = s.block := by rw [State.hostWrite_only]
@[simp] theorem State.hostWrite_beacon (ring addr : Nat) (bs : Bytes) (s : State) :
    (s.hostWrite ring addr bs).beacon = s.beacon := by rw [State.hostWrite_only]
@[simp] theorem State.hostWrite_power (ring addr : Nat) (bs : Bytes) (s : State) :
    (s.hostWrite ring addr bs).power = s.power := by rw [State.hostWrite_only]
@[simp] theorem State.hostWrite_sec (ring addr : Nat) (bs : Bytes) (s : State) :
    (s.hostWrite ring addr bs).sec = s.sec := by rw [State.hostWrite_only]
@[simp] theorem State.hostWrite_test (ring addr : Nat) (bs : Bytes) (s : State) :
    (s.hostWrite ring addr bs).test = s.test := by rw [State.hostWrite_only]
@[simp] theorem State.hostWrite_err (ring addr : Nat) (bs : Bytes) (s : State) :
    (s.hostWrite ring addr bs).err = s.err := by rw [State.hostWrite_only]
@[simp] theorem State.hostWrite_docent (ring addr : Nat) (bs : Bytes) (s : State) :
    (s.hostWrite ring addr bs).docent = s.docent := by rw [State.hostWrite_only]
@[simp] theorem State.hostWrite_free (ring addr : Nat) (bs : Bytes) (s : State) :
    (s.hostWrite ring addr bs).free = s.free := by rw [State.hostWrite_only]
@[simp] theorem State.hostWrite_pending (ring addr : Nat) (bs : Bytes) (s : State) :
    (s.hostWrite ring addr bs).pending = s.pending := by rw [State.hostWrite_only]

/-! ### State.writeResult -/

theorem State.writeResult_only (c : Slot) (off : Nat) (bs : Bytes) (s : State) :
    s.writeResult c off bs =
      { s with
        atr := (s.writeResult c off bs).atr, hostMem := (s.writeResult c off bs).hostMem
        link := (s.writeResult c off bs).link } := by
  unfold State.writeResult
  generalize segPieces c.result off (bs.take (c.resultLen - off)) = ps
  suffices h : ∀ (ps : List (Nat × Bytes)) (t : State), (t = { s with atr := t.atr, hostMem := t.hostMem, link := t.link }) →
      ps.foldl (fun t p => t.hostWrite (t.ringOf c.sq) p.1 p.2) t =
        { s with
          atr := (ps.foldl (fun t p => t.hostWrite (t.ringOf c.sq) p.1 p.2) t).atr
          hostMem := (ps.foldl (fun t p => t.hostWrite (t.ringOf c.sq) p.1 p.2) t).hostMem
          link := (ps.foldl (fun t p => t.hostWrite (t.ringOf c.sq) p.1 p.2) t).link } from h ps s rfl
  intro ps
  induction ps with
  | nil => intro t h; exact h
  | cons k ks ih => intro t h; exact ih (t.hostWrite (t.ringOf c.sq) k.1 k.2) (by rw [State.hostWrite_only, h])

@[simp] theorem State.writeResult_grade (c : Slot) (off : Nat) (bs : Bytes) (s : State) :
    (s.writeResult c off bs).grade = s.grade := by rw [State.writeResult_only]
@[simp] theorem State.writeResult_units (c : Slot) (off : Nat) (bs : Bytes) (s : State) :
    (s.writeResult c off bs).units = s.units := by rw [State.writeResult_only]
@[simp] theorem State.writeResult_clustersBuilt (c : Slot) (off : Nat) (bs : Bytes) (s : State) :
    (s.writeResult c off bs).clustersBuilt = s.clustersBuilt := by rw [State.writeResult_only]
@[simp] theorem State.writeResult_clustersLogical (c : Slot) (off : Nat) (bs : Bytes) (s : State) :
    (s.writeResult c off bs).clustersLogical = s.clustersLogical := by rw [State.writeResult_only]
@[simp] theorem State.writeResult_clk (c : Slot) (off : Nat) (bs : Bytes) (s : State) :
    (s.writeResult c off bs).clk = s.clk := by rw [State.writeResult_only]
@[simp] theorem State.writeResult_locks (c : Slot) (off : Nat) (bs : Bytes) (s : State) :
    (s.writeResult c off bs).locks = s.locks := by rw [State.writeResult_only]
@[simp] theorem State.writeResult_sched (c : Slot) (off : Nat) (bs : Bytes) (s : State) :
    (s.writeResult c off bs).sched = s.sched := by rw [State.writeResult_only]
@[simp] theorem State.writeResult_tiers (c : Slot) (off : Nat) (bs : Bytes) (s : State) :
    (s.writeResult c off bs).tiers = s.tiers := by rw [State.writeResult_only]
@[simp] theorem State.writeResult_search (c : Slot) (off : Nat) (bs : Bytes) (s : State) :
    (s.writeResult c off bs).search = s.search := by rw [State.writeResult_only]
@[simp] theorem State.writeResult_gather (c : Slot) (off : Nat) (bs : Bytes) (s : State) :
    (s.writeResult c off bs).gather = s.gather := by rw [State.writeResult_only]
@[simp] theorem State.writeResult_attention (c : Slot) (off : Nat) (bs : Bytes) (s : State) :
    (s.writeResult c off bs).attention = s.attention := by rw [State.writeResult_only]
@[simp] theorem State.writeResult_domains (c : Slot) (off : Nat) (bs : Bytes) (s : State) :
    (s.writeResult c off bs).domains = s.domains := by rw [State.writeResult_only]
@[simp] theorem State.writeResult_flash (c : Slot) (off : Nat) (bs : Bytes) (s : State) :
    (s.writeResult c off bs).flash = s.flash := by rw [State.writeResult_only]
@[simp] theorem State.writeResult_ftl (c : Slot) (off : Nat) (bs : Bytes) (s : State) :
    (s.writeResult c off bs).ftl = s.ftl := by rw [State.writeResult_only]
@[simp] theorem State.writeResult_block (c : Slot) (off : Nat) (bs : Bytes) (s : State) :
    (s.writeResult c off bs).block = s.block := by rw [State.writeResult_only]
@[simp] theorem State.writeResult_beacon (c : Slot) (off : Nat) (bs : Bytes) (s : State) :
    (s.writeResult c off bs).beacon = s.beacon := by rw [State.writeResult_only]
@[simp] theorem State.writeResult_power (c : Slot) (off : Nat) (bs : Bytes) (s : State) :
    (s.writeResult c off bs).power = s.power := by rw [State.writeResult_only]
@[simp] theorem State.writeResult_sec (c : Slot) (off : Nat) (bs : Bytes) (s : State) :
    (s.writeResult c off bs).sec = s.sec := by rw [State.writeResult_only]
@[simp] theorem State.writeResult_test (c : Slot) (off : Nat) (bs : Bytes) (s : State) :
    (s.writeResult c off bs).test = s.test := by rw [State.writeResult_only]
@[simp] theorem State.writeResult_err (c : Slot) (off : Nat) (bs : Bytes) (s : State) :
    (s.writeResult c off bs).err = s.err := by rw [State.writeResult_only]
@[simp] theorem State.writeResult_docent (c : Slot) (off : Nat) (bs : Bytes) (s : State) :
    (s.writeResult c off bs).docent = s.docent := by rw [State.writeResult_only]
@[simp] theorem State.writeResult_free (c : Slot) (off : Nat) (bs : Bytes) (s : State) :
    (s.writeResult c off bs).free = s.free := by rw [State.writeResult_only]
@[simp] theorem State.writeResult_pending (c : Slot) (off : Nat) (bs : Bytes) (s : State) :
    (s.writeResult c off bs).pending = s.pending := by rw [State.writeResult_only]

/-! ### State.raise -/

theorem State.raise_only (r : FaultRec) (s : State) :
    s.raise r = { s with err := (s.raise r).err } := by
  unfold State.raise
  dsimp only
  split <;> rfl

@[simp] theorem State.raise_grade (r : FaultRec) (s : State) :
    (s.raise r).grade = s.grade := by rw [State.raise_only]
@[simp] theorem State.raise_units (r : FaultRec) (s : State) :
    (s.raise r).units = s.units := by rw [State.raise_only]
@[simp] theorem State.raise_clustersBuilt (r : FaultRec) (s : State) :
    (s.raise r).clustersBuilt = s.clustersBuilt := by rw [State.raise_only]
@[simp] theorem State.raise_clustersLogical (r : FaultRec) (s : State) :
    (s.raise r).clustersLogical = s.clustersLogical := by rw [State.raise_only]
@[simp] theorem State.raise_clk (r : FaultRec) (s : State) :
    (s.raise r).clk = s.clk := by rw [State.raise_only]
@[simp] theorem State.raise_atr (r : FaultRec) (s : State) :
    (s.raise r).atr = s.atr := by rw [State.raise_only]
@[simp] theorem State.raise_locks (r : FaultRec) (s : State) :
    (s.raise r).locks = s.locks := by rw [State.raise_only]
@[simp] theorem State.raise_sched (r : FaultRec) (s : State) :
    (s.raise r).sched = s.sched := by rw [State.raise_only]
@[simp] theorem State.raise_tiers (r : FaultRec) (s : State) :
    (s.raise r).tiers = s.tiers := by rw [State.raise_only]
@[simp] theorem State.raise_search (r : FaultRec) (s : State) :
    (s.raise r).search = s.search := by rw [State.raise_only]
@[simp] theorem State.raise_gather (r : FaultRec) (s : State) :
    (s.raise r).gather = s.gather := by rw [State.raise_only]
@[simp] theorem State.raise_attention (r : FaultRec) (s : State) :
    (s.raise r).attention = s.attention := by rw [State.raise_only]
@[simp] theorem State.raise_domains (r : FaultRec) (s : State) :
    (s.raise r).domains = s.domains := by rw [State.raise_only]
@[simp] theorem State.raise_flash (r : FaultRec) (s : State) :
    (s.raise r).flash = s.flash := by rw [State.raise_only]
@[simp] theorem State.raise_ftl (r : FaultRec) (s : State) :
    (s.raise r).ftl = s.ftl := by rw [State.raise_only]
@[simp] theorem State.raise_block (r : FaultRec) (s : State) :
    (s.raise r).block = s.block := by rw [State.raise_only]
@[simp] theorem State.raise_link (r : FaultRec) (s : State) :
    (s.raise r).link = s.link := by rw [State.raise_only]
@[simp] theorem State.raise_beacon (r : FaultRec) (s : State) :
    (s.raise r).beacon = s.beacon := by rw [State.raise_only]
@[simp] theorem State.raise_power (r : FaultRec) (s : State) :
    (s.raise r).power = s.power := by rw [State.raise_only]
@[simp] theorem State.raise_sec (r : FaultRec) (s : State) :
    (s.raise r).sec = s.sec := by rw [State.raise_only]
@[simp] theorem State.raise_test (r : FaultRec) (s : State) :
    (s.raise r).test = s.test := by rw [State.raise_only]
@[simp] theorem State.raise_docent (r : FaultRec) (s : State) :
    (s.raise r).docent = s.docent := by rw [State.raise_only]
@[simp] theorem State.raise_hostMem (r : FaultRec) (s : State) :
    (s.raise r).hostMem = s.hostMem := by rw [State.raise_only]
@[simp] theorem State.raise_free (r : FaultRec) (s : State) :
    (s.raise r).free = s.free := by rw [State.raise_only]
@[simp] theorem State.raise_pending (r : FaultRec) (s : State) :
    (s.raise r).pending = s.pending := by rw [State.raise_only]

/-! ### State.finish -/

theorem State.finish_only (id : Nat) (st : Status) (result info : Nat) (s : State) :
    s.finish id st result info = { s with atr := (s.finish id st result info).atr } := by
  unfold State.finish
  split
  · rfl
  · split
    · rfl
    · rfl

@[simp] theorem State.finish_grade (id : Nat) (st : Status) (result info : Nat) (s : State) :
    (s.finish id st result info).grade = s.grade := by rw [State.finish_only]
@[simp] theorem State.finish_units (id : Nat) (st : Status) (result info : Nat) (s : State) :
    (s.finish id st result info).units = s.units := by rw [State.finish_only]
@[simp] theorem State.finish_clustersBuilt (id : Nat) (st : Status) (result info : Nat) (s : State) :
    (s.finish id st result info).clustersBuilt = s.clustersBuilt := by rw [State.finish_only]
@[simp] theorem State.finish_clustersLogical (id : Nat) (st : Status) (result info : Nat) (s : State) :
    (s.finish id st result info).clustersLogical = s.clustersLogical := by rw [State.finish_only]
@[simp] theorem State.finish_clk (id : Nat) (st : Status) (result info : Nat) (s : State) :
    (s.finish id st result info).clk = s.clk := by rw [State.finish_only]
@[simp] theorem State.finish_locks (id : Nat) (st : Status) (result info : Nat) (s : State) :
    (s.finish id st result info).locks = s.locks := by rw [State.finish_only]
@[simp] theorem State.finish_sched (id : Nat) (st : Status) (result info : Nat) (s : State) :
    (s.finish id st result info).sched = s.sched := by rw [State.finish_only]
@[simp] theorem State.finish_tiers (id : Nat) (st : Status) (result info : Nat) (s : State) :
    (s.finish id st result info).tiers = s.tiers := by rw [State.finish_only]
@[simp] theorem State.finish_search (id : Nat) (st : Status) (result info : Nat) (s : State) :
    (s.finish id st result info).search = s.search := by rw [State.finish_only]
@[simp] theorem State.finish_gather (id : Nat) (st : Status) (result info : Nat) (s : State) :
    (s.finish id st result info).gather = s.gather := by rw [State.finish_only]
@[simp] theorem State.finish_attention (id : Nat) (st : Status) (result info : Nat) (s : State) :
    (s.finish id st result info).attention = s.attention := by rw [State.finish_only]
@[simp] theorem State.finish_domains (id : Nat) (st : Status) (result info : Nat) (s : State) :
    (s.finish id st result info).domains = s.domains := by rw [State.finish_only]
@[simp] theorem State.finish_flash (id : Nat) (st : Status) (result info : Nat) (s : State) :
    (s.finish id st result info).flash = s.flash := by rw [State.finish_only]
@[simp] theorem State.finish_ftl (id : Nat) (st : Status) (result info : Nat) (s : State) :
    (s.finish id st result info).ftl = s.ftl := by rw [State.finish_only]
@[simp] theorem State.finish_block (id : Nat) (st : Status) (result info : Nat) (s : State) :
    (s.finish id st result info).block = s.block := by rw [State.finish_only]
@[simp] theorem State.finish_link (id : Nat) (st : Status) (result info : Nat) (s : State) :
    (s.finish id st result info).link = s.link := by rw [State.finish_only]
@[simp] theorem State.finish_beacon (id : Nat) (st : Status) (result info : Nat) (s : State) :
    (s.finish id st result info).beacon = s.beacon := by rw [State.finish_only]
@[simp] theorem State.finish_power (id : Nat) (st : Status) (result info : Nat) (s : State) :
    (s.finish id st result info).power = s.power := by rw [State.finish_only]
@[simp] theorem State.finish_sec (id : Nat) (st : Status) (result info : Nat) (s : State) :
    (s.finish id st result info).sec = s.sec := by rw [State.finish_only]
@[simp] theorem State.finish_test (id : Nat) (st : Status) (result info : Nat) (s : State) :
    (s.finish id st result info).test = s.test := by rw [State.finish_only]
@[simp] theorem State.finish_err (id : Nat) (st : Status) (result info : Nat) (s : State) :
    (s.finish id st result info).err = s.err := by rw [State.finish_only]
@[simp] theorem State.finish_docent (id : Nat) (st : Status) (result info : Nat) (s : State) :
    (s.finish id st result info).docent = s.docent := by rw [State.finish_only]
@[simp] theorem State.finish_hostMem (id : Nat) (st : Status) (result info : Nat) (s : State) :
    (s.finish id st result info).hostMem = s.hostMem := by rw [State.finish_only]
@[simp] theorem State.finish_free (id : Nat) (st : Status) (result info : Nat) (s : State) :
    (s.finish id st result info).free = s.free := by rw [State.finish_only]
@[simp] theorem State.finish_pending (id : Nat) (st : Status) (result info : Nat) (s : State) :
    (s.finish id st result info).pending = s.pending := by rw [State.finish_only]

/-! ### State.done -/

theorem State.done_only (id result : Nat) (s : State) :
    s.done id result = { s with atr := (s.done id result).atr } := State.finish_only id .ok result 0 s

@[simp] theorem State.done_grade (id result : Nat) (s : State) :
    (s.done id result).grade = s.grade := by rw [State.done_only]
@[simp] theorem State.done_units (id result : Nat) (s : State) :
    (s.done id result).units = s.units := by rw [State.done_only]
@[simp] theorem State.done_clustersBuilt (id result : Nat) (s : State) :
    (s.done id result).clustersBuilt = s.clustersBuilt := by rw [State.done_only]
@[simp] theorem State.done_clustersLogical (id result : Nat) (s : State) :
    (s.done id result).clustersLogical = s.clustersLogical := by rw [State.done_only]
@[simp] theorem State.done_clk (id result : Nat) (s : State) :
    (s.done id result).clk = s.clk := by rw [State.done_only]
@[simp] theorem State.done_locks (id result : Nat) (s : State) :
    (s.done id result).locks = s.locks := by rw [State.done_only]
@[simp] theorem State.done_sched (id result : Nat) (s : State) :
    (s.done id result).sched = s.sched := by rw [State.done_only]
@[simp] theorem State.done_tiers (id result : Nat) (s : State) :
    (s.done id result).tiers = s.tiers := by rw [State.done_only]
@[simp] theorem State.done_search (id result : Nat) (s : State) :
    (s.done id result).search = s.search := by rw [State.done_only]
@[simp] theorem State.done_gather (id result : Nat) (s : State) :
    (s.done id result).gather = s.gather := by rw [State.done_only]
@[simp] theorem State.done_attention (id result : Nat) (s : State) :
    (s.done id result).attention = s.attention := by rw [State.done_only]
@[simp] theorem State.done_domains (id result : Nat) (s : State) :
    (s.done id result).domains = s.domains := by rw [State.done_only]
@[simp] theorem State.done_flash (id result : Nat) (s : State) :
    (s.done id result).flash = s.flash := by rw [State.done_only]
@[simp] theorem State.done_ftl (id result : Nat) (s : State) :
    (s.done id result).ftl = s.ftl := by rw [State.done_only]
@[simp] theorem State.done_block (id result : Nat) (s : State) :
    (s.done id result).block = s.block := by rw [State.done_only]
@[simp] theorem State.done_link (id result : Nat) (s : State) :
    (s.done id result).link = s.link := by rw [State.done_only]
@[simp] theorem State.done_beacon (id result : Nat) (s : State) :
    (s.done id result).beacon = s.beacon := by rw [State.done_only]
@[simp] theorem State.done_power (id result : Nat) (s : State) :
    (s.done id result).power = s.power := by rw [State.done_only]
@[simp] theorem State.done_sec (id result : Nat) (s : State) :
    (s.done id result).sec = s.sec := by rw [State.done_only]
@[simp] theorem State.done_test (id result : Nat) (s : State) :
    (s.done id result).test = s.test := by rw [State.done_only]
@[simp] theorem State.done_err (id result : Nat) (s : State) :
    (s.done id result).err = s.err := by rw [State.done_only]
@[simp] theorem State.done_docent (id result : Nat) (s : State) :
    (s.done id result).docent = s.docent := by rw [State.done_only]
@[simp] theorem State.done_hostMem (id result : Nat) (s : State) :
    (s.done id result).hostMem = s.hostMem := by rw [State.done_only]
@[simp] theorem State.done_free (id result : Nat) (s : State) :
    (s.done id result).free = s.free := by rw [State.done_only]
@[simp] theorem State.done_pending (id result : Nat) (s : State) :
    (s.done id result).pending = s.pending := by rw [State.done_only]

/-! ### State.fail -/

theorem State.fail_only (id : Nat) (st : Status) (result : Nat) (s : State) :
    s.fail id st result = { s with atr := (s.fail id st result).atr } := State.finish_only id st result 0 s

@[simp] theorem State.fail_grade (id : Nat) (st : Status) (result : Nat) (s : State) :
    (s.fail id st result).grade = s.grade := by rw [State.fail_only]
@[simp] theorem State.fail_units (id : Nat) (st : Status) (result : Nat) (s : State) :
    (s.fail id st result).units = s.units := by rw [State.fail_only]
@[simp] theorem State.fail_clustersBuilt (id : Nat) (st : Status) (result : Nat) (s : State) :
    (s.fail id st result).clustersBuilt = s.clustersBuilt := by rw [State.fail_only]
@[simp] theorem State.fail_clustersLogical (id : Nat) (st : Status) (result : Nat) (s : State) :
    (s.fail id st result).clustersLogical = s.clustersLogical := by rw [State.fail_only]
@[simp] theorem State.fail_clk (id : Nat) (st : Status) (result : Nat) (s : State) :
    (s.fail id st result).clk = s.clk := by rw [State.fail_only]
@[simp] theorem State.fail_locks (id : Nat) (st : Status) (result : Nat) (s : State) :
    (s.fail id st result).locks = s.locks := by rw [State.fail_only]
@[simp] theorem State.fail_sched (id : Nat) (st : Status) (result : Nat) (s : State) :
    (s.fail id st result).sched = s.sched := by rw [State.fail_only]
@[simp] theorem State.fail_tiers (id : Nat) (st : Status) (result : Nat) (s : State) :
    (s.fail id st result).tiers = s.tiers := by rw [State.fail_only]
@[simp] theorem State.fail_search (id : Nat) (st : Status) (result : Nat) (s : State) :
    (s.fail id st result).search = s.search := by rw [State.fail_only]
@[simp] theorem State.fail_gather (id : Nat) (st : Status) (result : Nat) (s : State) :
    (s.fail id st result).gather = s.gather := by rw [State.fail_only]
@[simp] theorem State.fail_attention (id : Nat) (st : Status) (result : Nat) (s : State) :
    (s.fail id st result).attention = s.attention := by rw [State.fail_only]
@[simp] theorem State.fail_domains (id : Nat) (st : Status) (result : Nat) (s : State) :
    (s.fail id st result).domains = s.domains := by rw [State.fail_only]
@[simp] theorem State.fail_flash (id : Nat) (st : Status) (result : Nat) (s : State) :
    (s.fail id st result).flash = s.flash := by rw [State.fail_only]
@[simp] theorem State.fail_ftl (id : Nat) (st : Status) (result : Nat) (s : State) :
    (s.fail id st result).ftl = s.ftl := by rw [State.fail_only]
@[simp] theorem State.fail_block (id : Nat) (st : Status) (result : Nat) (s : State) :
    (s.fail id st result).block = s.block := by rw [State.fail_only]
@[simp] theorem State.fail_link (id : Nat) (st : Status) (result : Nat) (s : State) :
    (s.fail id st result).link = s.link := by rw [State.fail_only]
@[simp] theorem State.fail_beacon (id : Nat) (st : Status) (result : Nat) (s : State) :
    (s.fail id st result).beacon = s.beacon := by rw [State.fail_only]
@[simp] theorem State.fail_power (id : Nat) (st : Status) (result : Nat) (s : State) :
    (s.fail id st result).power = s.power := by rw [State.fail_only]
@[simp] theorem State.fail_sec (id : Nat) (st : Status) (result : Nat) (s : State) :
    (s.fail id st result).sec = s.sec := by rw [State.fail_only]
@[simp] theorem State.fail_test (id : Nat) (st : Status) (result : Nat) (s : State) :
    (s.fail id st result).test = s.test := by rw [State.fail_only]
@[simp] theorem State.fail_err (id : Nat) (st : Status) (result : Nat) (s : State) :
    (s.fail id st result).err = s.err := by rw [State.fail_only]
@[simp] theorem State.fail_docent (id : Nat) (st : Status) (result : Nat) (s : State) :
    (s.fail id st result).docent = s.docent := by rw [State.fail_only]
@[simp] theorem State.fail_hostMem (id : Nat) (st : Status) (result : Nat) (s : State) :
    (s.fail id st result).hostMem = s.hostMem := by rw [State.fail_only]
@[simp] theorem State.fail_free (id : Nat) (st : Status) (result : Nat) (s : State) :
    (s.fail id st result).free = s.free := by rw [State.fail_only]
@[simp] theorem State.fail_pending (id : Nat) (st : Status) (result : Nat) (s : State) :
    (s.fail id st result).pending = s.pending := by rw [State.fail_only]

/-! ### State.stick -/

theorem State.stick_only (id : Nat) (nan sat : Bool) (s : State) :
    s.stick id nan sat = { s with sched := (s.stick id nan sat).sched } := rfl

@[simp] theorem State.stick_grade (id : Nat) (nan sat : Bool) (s : State) :
    (s.stick id nan sat).grade = s.grade := by rw [State.stick_only]
@[simp] theorem State.stick_units (id : Nat) (nan sat : Bool) (s : State) :
    (s.stick id nan sat).units = s.units := by rw [State.stick_only]
@[simp] theorem State.stick_clustersBuilt (id : Nat) (nan sat : Bool) (s : State) :
    (s.stick id nan sat).clustersBuilt = s.clustersBuilt := by rw [State.stick_only]
@[simp] theorem State.stick_clustersLogical (id : Nat) (nan sat : Bool) (s : State) :
    (s.stick id nan sat).clustersLogical = s.clustersLogical := by rw [State.stick_only]
@[simp] theorem State.stick_clk (id : Nat) (nan sat : Bool) (s : State) :
    (s.stick id nan sat).clk = s.clk := by rw [State.stick_only]
@[simp] theorem State.stick_atr (id : Nat) (nan sat : Bool) (s : State) :
    (s.stick id nan sat).atr = s.atr := by rw [State.stick_only]
@[simp] theorem State.stick_locks (id : Nat) (nan sat : Bool) (s : State) :
    (s.stick id nan sat).locks = s.locks := by rw [State.stick_only]
@[simp] theorem State.stick_tiers (id : Nat) (nan sat : Bool) (s : State) :
    (s.stick id nan sat).tiers = s.tiers := by rw [State.stick_only]
@[simp] theorem State.stick_search (id : Nat) (nan sat : Bool) (s : State) :
    (s.stick id nan sat).search = s.search := by rw [State.stick_only]
@[simp] theorem State.stick_gather (id : Nat) (nan sat : Bool) (s : State) :
    (s.stick id nan sat).gather = s.gather := by rw [State.stick_only]
@[simp] theorem State.stick_attention (id : Nat) (nan sat : Bool) (s : State) :
    (s.stick id nan sat).attention = s.attention := by rw [State.stick_only]
@[simp] theorem State.stick_domains (id : Nat) (nan sat : Bool) (s : State) :
    (s.stick id nan sat).domains = s.domains := by rw [State.stick_only]
@[simp] theorem State.stick_flash (id : Nat) (nan sat : Bool) (s : State) :
    (s.stick id nan sat).flash = s.flash := by rw [State.stick_only]
@[simp] theorem State.stick_ftl (id : Nat) (nan sat : Bool) (s : State) :
    (s.stick id nan sat).ftl = s.ftl := by rw [State.stick_only]
@[simp] theorem State.stick_block (id : Nat) (nan sat : Bool) (s : State) :
    (s.stick id nan sat).block = s.block := by rw [State.stick_only]
@[simp] theorem State.stick_link (id : Nat) (nan sat : Bool) (s : State) :
    (s.stick id nan sat).link = s.link := by rw [State.stick_only]
@[simp] theorem State.stick_beacon (id : Nat) (nan sat : Bool) (s : State) :
    (s.stick id nan sat).beacon = s.beacon := by rw [State.stick_only]
@[simp] theorem State.stick_power (id : Nat) (nan sat : Bool) (s : State) :
    (s.stick id nan sat).power = s.power := by rw [State.stick_only]
@[simp] theorem State.stick_sec (id : Nat) (nan sat : Bool) (s : State) :
    (s.stick id nan sat).sec = s.sec := by rw [State.stick_only]
@[simp] theorem State.stick_test (id : Nat) (nan sat : Bool) (s : State) :
    (s.stick id nan sat).test = s.test := by rw [State.stick_only]
@[simp] theorem State.stick_err (id : Nat) (nan sat : Bool) (s : State) :
    (s.stick id nan sat).err = s.err := by rw [State.stick_only]
@[simp] theorem State.stick_docent (id : Nat) (nan sat : Bool) (s : State) :
    (s.stick id nan sat).docent = s.docent := by rw [State.stick_only]
@[simp] theorem State.stick_hostMem (id : Nat) (nan sat : Bool) (s : State) :
    (s.stick id nan sat).hostMem = s.hostMem := by rw [State.stick_only]
@[simp] theorem State.stick_free (id : Nat) (nan sat : Bool) (s : State) :
    (s.stick id nan sat).free = s.free := by rw [State.stick_only]
@[simp] theorem State.stick_pending (id : Nat) (nan sat : Bool) (s : State) :
    (s.stick id nan sat).pending = s.pending := by rw [State.stick_only]

/-! ### State.progTrap -/

theorem State.progTrap_only (h : Thr) (pc cause data : Nat) (s : State) :
    s.progTrap h pc cause data = { s with sched := (s.progTrap h pc cause data).sched, err := (s.progTrap h pc cause data).err } := by
  unfold State.progTrap
  split
  · rfl
  · split
    · rfl
    · dsimp only
      rw [State.raise_only]
      rfl

@[simp] theorem State.progTrap_grade (h : Thr) (pc cause data : Nat) (s : State) :
    (s.progTrap h pc cause data).grade = s.grade := by rw [State.progTrap_only]
@[simp] theorem State.progTrap_units (h : Thr) (pc cause data : Nat) (s : State) :
    (s.progTrap h pc cause data).units = s.units := by rw [State.progTrap_only]
@[simp] theorem State.progTrap_clustersBuilt (h : Thr) (pc cause data : Nat) (s : State) :
    (s.progTrap h pc cause data).clustersBuilt = s.clustersBuilt := by rw [State.progTrap_only]
@[simp] theorem State.progTrap_clustersLogical (h : Thr) (pc cause data : Nat) (s : State) :
    (s.progTrap h pc cause data).clustersLogical = s.clustersLogical := by rw [State.progTrap_only]
@[simp] theorem State.progTrap_clk (h : Thr) (pc cause data : Nat) (s : State) :
    (s.progTrap h pc cause data).clk = s.clk := by rw [State.progTrap_only]
@[simp] theorem State.progTrap_atr (h : Thr) (pc cause data : Nat) (s : State) :
    (s.progTrap h pc cause data).atr = s.atr := by rw [State.progTrap_only]
@[simp] theorem State.progTrap_locks (h : Thr) (pc cause data : Nat) (s : State) :
    (s.progTrap h pc cause data).locks = s.locks := by rw [State.progTrap_only]
@[simp] theorem State.progTrap_tiers (h : Thr) (pc cause data : Nat) (s : State) :
    (s.progTrap h pc cause data).tiers = s.tiers := by rw [State.progTrap_only]
@[simp] theorem State.progTrap_search (h : Thr) (pc cause data : Nat) (s : State) :
    (s.progTrap h pc cause data).search = s.search := by rw [State.progTrap_only]
@[simp] theorem State.progTrap_gather (h : Thr) (pc cause data : Nat) (s : State) :
    (s.progTrap h pc cause data).gather = s.gather := by rw [State.progTrap_only]
@[simp] theorem State.progTrap_attention (h : Thr) (pc cause data : Nat) (s : State) :
    (s.progTrap h pc cause data).attention = s.attention := by rw [State.progTrap_only]
@[simp] theorem State.progTrap_domains (h : Thr) (pc cause data : Nat) (s : State) :
    (s.progTrap h pc cause data).domains = s.domains := by rw [State.progTrap_only]
@[simp] theorem State.progTrap_flash (h : Thr) (pc cause data : Nat) (s : State) :
    (s.progTrap h pc cause data).flash = s.flash := by rw [State.progTrap_only]
@[simp] theorem State.progTrap_ftl (h : Thr) (pc cause data : Nat) (s : State) :
    (s.progTrap h pc cause data).ftl = s.ftl := by rw [State.progTrap_only]
@[simp] theorem State.progTrap_block (h : Thr) (pc cause data : Nat) (s : State) :
    (s.progTrap h pc cause data).block = s.block := by rw [State.progTrap_only]
@[simp] theorem State.progTrap_link (h : Thr) (pc cause data : Nat) (s : State) :
    (s.progTrap h pc cause data).link = s.link := by rw [State.progTrap_only]
@[simp] theorem State.progTrap_beacon (h : Thr) (pc cause data : Nat) (s : State) :
    (s.progTrap h pc cause data).beacon = s.beacon := by rw [State.progTrap_only]
@[simp] theorem State.progTrap_power (h : Thr) (pc cause data : Nat) (s : State) :
    (s.progTrap h pc cause data).power = s.power := by rw [State.progTrap_only]
@[simp] theorem State.progTrap_sec (h : Thr) (pc cause data : Nat) (s : State) :
    (s.progTrap h pc cause data).sec = s.sec := by rw [State.progTrap_only]
@[simp] theorem State.progTrap_test (h : Thr) (pc cause data : Nat) (s : State) :
    (s.progTrap h pc cause data).test = s.test := by rw [State.progTrap_only]
@[simp] theorem State.progTrap_docent (h : Thr) (pc cause data : Nat) (s : State) :
    (s.progTrap h pc cause data).docent = s.docent := by rw [State.progTrap_only]
@[simp] theorem State.progTrap_hostMem (h : Thr) (pc cause data : Nat) (s : State) :
    (s.progTrap h pc cause data).hostMem = s.hostMem := by rw [State.progTrap_only]
@[simp] theorem State.progTrap_free (h : Thr) (pc cause data : Nat) (s : State) :
    (s.progTrap h pc cause data).free = s.free := by rw [State.progTrap_only]
@[simp] theorem State.progTrap_pending (h : Thr) (pc cause data : Nat) (s : State) :
    (s.progTrap h pc cause data).pending = s.pending := by rw [State.progTrap_only]

/-! ### State.goTo -/

theorem State.goTo_only (h : Thr) (pc : Nat) (s : State) :
    s.goTo h pc = { s with sched := (s.goTo h pc).sched, err := (s.goTo h pc).err } := by
  unfold State.goTo
  split
  · rfl
  · split
    · rfl
    · dsimp only
      split
      · rfl
      · rw [State.progTrap_only]
        rfl

@[simp] theorem State.goTo_grade (h : Thr) (pc : Nat) (s : State) :
    (s.goTo h pc).grade = s.grade := by rw [State.goTo_only]
@[simp] theorem State.goTo_units (h : Thr) (pc : Nat) (s : State) :
    (s.goTo h pc).units = s.units := by rw [State.goTo_only]
@[simp] theorem State.goTo_clustersBuilt (h : Thr) (pc : Nat) (s : State) :
    (s.goTo h pc).clustersBuilt = s.clustersBuilt := by rw [State.goTo_only]
@[simp] theorem State.goTo_clustersLogical (h : Thr) (pc : Nat) (s : State) :
    (s.goTo h pc).clustersLogical = s.clustersLogical := by rw [State.goTo_only]
@[simp] theorem State.goTo_clk (h : Thr) (pc : Nat) (s : State) :
    (s.goTo h pc).clk = s.clk := by rw [State.goTo_only]
@[simp] theorem State.goTo_atr (h : Thr) (pc : Nat) (s : State) :
    (s.goTo h pc).atr = s.atr := by rw [State.goTo_only]
@[simp] theorem State.goTo_locks (h : Thr) (pc : Nat) (s : State) :
    (s.goTo h pc).locks = s.locks := by rw [State.goTo_only]
@[simp] theorem State.goTo_tiers (h : Thr) (pc : Nat) (s : State) :
    (s.goTo h pc).tiers = s.tiers := by rw [State.goTo_only]
@[simp] theorem State.goTo_search (h : Thr) (pc : Nat) (s : State) :
    (s.goTo h pc).search = s.search := by rw [State.goTo_only]
@[simp] theorem State.goTo_gather (h : Thr) (pc : Nat) (s : State) :
    (s.goTo h pc).gather = s.gather := by rw [State.goTo_only]
@[simp] theorem State.goTo_attention (h : Thr) (pc : Nat) (s : State) :
    (s.goTo h pc).attention = s.attention := by rw [State.goTo_only]
@[simp] theorem State.goTo_domains (h : Thr) (pc : Nat) (s : State) :
    (s.goTo h pc).domains = s.domains := by rw [State.goTo_only]
@[simp] theorem State.goTo_flash (h : Thr) (pc : Nat) (s : State) :
    (s.goTo h pc).flash = s.flash := by rw [State.goTo_only]
@[simp] theorem State.goTo_ftl (h : Thr) (pc : Nat) (s : State) :
    (s.goTo h pc).ftl = s.ftl := by rw [State.goTo_only]
@[simp] theorem State.goTo_block (h : Thr) (pc : Nat) (s : State) :
    (s.goTo h pc).block = s.block := by rw [State.goTo_only]
@[simp] theorem State.goTo_link (h : Thr) (pc : Nat) (s : State) :
    (s.goTo h pc).link = s.link := by rw [State.goTo_only]
@[simp] theorem State.goTo_beacon (h : Thr) (pc : Nat) (s : State) :
    (s.goTo h pc).beacon = s.beacon := by rw [State.goTo_only]
@[simp] theorem State.goTo_power (h : Thr) (pc : Nat) (s : State) :
    (s.goTo h pc).power = s.power := by rw [State.goTo_only]
@[simp] theorem State.goTo_sec (h : Thr) (pc : Nat) (s : State) :
    (s.goTo h pc).sec = s.sec := by rw [State.goTo_only]
@[simp] theorem State.goTo_test (h : Thr) (pc : Nat) (s : State) :
    (s.goTo h pc).test = s.test := by rw [State.goTo_only]
@[simp] theorem State.goTo_docent (h : Thr) (pc : Nat) (s : State) :
    (s.goTo h pc).docent = s.docent := by rw [State.goTo_only]
@[simp] theorem State.goTo_hostMem (h : Thr) (pc : Nat) (s : State) :
    (s.goTo h pc).hostMem = s.hostMem := by rw [State.goTo_only]
@[simp] theorem State.goTo_free (h : Thr) (pc : Nat) (s : State) :
    (s.goTo h pc).free = s.free := by rw [State.goTo_only]
@[simp] theorem State.goTo_pending (h : Thr) (pc : Nat) (s : State) :
    (s.goTo h pc).pending = s.pending := by rw [State.goTo_only]

end Sys2Proof.Machine
end

