-- ==== Sys2Proof/Laws/Thread.lean ====
section
/-! SUPPORT. Issue and retirement of thread instructions: what the shared forms do to a thread that stands at its word. -/
namespace Sys2Proof.Machine

/-! ### Lists changed where a key matches -/

theorem find?_updWhere_key {α : Type} (p : α → Bool) (f : α → α) (hf : ∀ x, p (f x) = p x) (l : List α) :
    (updWhere p f l).find? p = (l.find? p).map f := by
  induction l with
  | nil => rfl
  | cons x l ih =>
    simp only [updWhere, List.map_cons, List.find?_cons]
    by_cases h : p x = true
    · simp [h, hf]
    · simp only [h, if_false, Bool.false_eq_true]
      exact ih

theorem find?_updWhere_ne {α : Type} (p q : α → Bool) (f : α → α) (hq : ∀ x, p x = true → q x = false)
    (hf : ∀ x, p x = true → q (f x) = false) (l : List α) :
    (updWhere p f l).find? q = l.find? q := by
  induction l with
  | nil => rfl
  | cons x l ih =>
    simp only [updWhere, List.map_cons, List.find?_cons]
    by_cases h : p x = true
    · simp only [h, if_true, hf x h, hq x h]
      exact ih
    · simp only [h, if_false, Bool.false_eq_true]
      split
      · rfl
      · exact ih

theorem updWhere_updWhere {α : Type} (p : α → Bool) (f g : α → α) (hf : ∀ x, p x = true → p (f x) = true) (l : List α) :
    updWhere p g (updWhere p f l) = updWhere p (fun x => g (f x)) l := by
  simp only [updWhere, List.map_map]
  apply List.map_congr_left
  intro x _
  by_cases h : p x = true
  · simp [h, hf]
  · simp [h]

theorem updAt_updAt {α : Type} (i : Nat) (f g : α → α) (l : List α) :
    updAt i g (updAt i f l) = updAt i (fun x => g (f x)) l := by
  unfold updAt
  rw [List.modify_modify_eq]
  rfl

/-! ### A job and its threads -/

theorem State.job?_updJob (s : State) (id : Nat) (f : Job → Job) (hf : ∀ j, (f j).id = j.id) :
    (s.updJob id f).job? id = (s.job? id).map f :=
  find?_updWhere_key _ f (fun j => by rw [hf]) s.sched.jobs

theorem State.job?_updJob_ne (s : State) (id n : Nat) (f : Job → Job) (hf : ∀ j, (f j).id = j.id) (hn : n ≠ id) :
    (s.updJob id f).job? n = s.job? n :=
  find?_updWhere_ne _ _ f (fun j h => by simp at h ⊢; omega) (fun j h => by rw [hf]; simp at h ⊢; omega) s.sched.jobs

theorem State.updJob_updJob (s : State) (id : Nat) (f g : Job → Job) (hf : ∀ j, (f j).id = j.id) :
    (s.updJob id f).updJob id g = s.updJob id fun j => g (f j) := by
  simp only [State.updJob]
  rw [updWhere_updWhere]
  intro x h
  rw [hf]
  exact h

theorem State.updCluster_updCluster (s : State) (id c : Nat) (f g : JobCluster → JobCluster) :
    (s.updCluster id c f).updCluster id c g = s.updCluster id c fun k => g (f k) := by
  unfold State.updCluster
  rw [State.updJob_updJob]
  · simp only [updAt_updAt]
  · intro j; rfl

theorem State.updThread_updThread (s : State) (h : Thr) (f g : Thread → Thread) :
    (s.updThread h f).updThread h g = s.updThread h fun t => g (f t) := by
  unfold State.updThread
  rw [State.updCluster_updCluster]
  simp only [updAt_updAt]

theorem State.job?_updThread (s : State) (h : Thr) (f : Thread → Thread) :
    (s.updThread h f).job? h.job = (s.job? h.job).map fun j =>
      { j with clusters := updAt h.cluster (fun c => { c with threads := updAt h.thread f c.threads }) j.clusters } :=
  State.job?_updJob s h.job _ fun _ => rfl

/-! ### Issue -/

theorem AtWord.fetch {s : State} {h : Thr} {w : Nat} {j : Job} {t : Thread} (k : AtWord s h w j t) :
    s.fetch? h w = some (j, t) := by
  obtain ⟨c, hc, ht, hw⟩ := k.thread
  unfold State.fetch?
  simp [k.job, hc, ht, hw, k.running, k.going, k.awake, k.ready]

theorem AtWord.issue {s : State} {h : Thr} {w : Nat} {j : Job} {t : Thread} (k : AtWord s h w j t)
    (f : Job → Thread → State) : s.issue h w f = f j t := by
  unfold State.issue
  rw [k.fetch]

theorem Issues.issueIf {s : State} {h : Thr} {w : Nat} {gp : BitVec 3} {gn : BitVec 1} {j : Job} {t : Thread}
    (k : Issues s h w gp gn j t) (f : Job → Thread → State) : s.issueIf h gp gn w f = f j t := by
  unfold State.issueIf
  rw [k.stands.issue, if_pos k.guard]

/-- A thread of a job that has not trapped goes on at a PC of the code region. -/
theorem State.goTo_ok {s : State} {h : Thr} {pc : Nat} {j : Job} (hj : s.job? h.job = some j)
    (ht : j.trapped = false) (hp : j.pcOk pc = true) : s.goTo h pc = s.goesTo h pc := by
  unfold State.goTo
  simp only [hj, ht, hp, if_true, Bool.false_eq_true, if_false]
  rfl

/-- A thread changes as `g` says and goes on at a PC of the code region. -/
theorem State.updThread_goTo {s : State} {h : Thr} {pc : Nat} {j : Job} (hj : s.job? h.job = some j)
    (ht : j.trapped = false) (hp : j.pcOk pc = true) (g : Thread → Thread) :
    (s.updThread h g).goTo h pc = s.updThread h fun u => { g u with pc := pc } := by
  have e : (s.updThread h g).job? h.job = some
      { j with clusters := updAt h.cluster (fun c => { c with threads := updAt h.thread g c.threads }) j.clusters } := by
    rw [State.job?_updThread, hj]
    rfl
  rw [State.goTo_ok e ht hp]
  exact State.updThread_updThread s h g _

theorem State.retire_ok {s : State} {h : Thr} {j : Job} {t : Thread} (hj : s.job? h.job = some j)
    (ht : j.trapped = false) (hp : j.pcOk (t.pc + 4) = true) (g : Thread → Thread) :
    s.retire_ h t g = s.updThread h fun u => { g u with pc := t.pc + 4 } :=
  State.updThread_goTo hj ht hp g

/-- A job changes in something other than its code and its trap, and the thread goes on. -/
theorem State.updJob_goTo {s : State} {h : Thr} {pc : Nat} {j : Job} {f : Job → Job} (hj : s.job? h.job = some j)
    (hid : ∀ j, (f j).id = j.id) (ht : (f j).trapped = false) (hp : (f j).pcOk pc = true) :
    (s.updJob h.job f).goTo h pc = (s.updJob h.job f).goesTo h pc :=
  State.goTo_ok ((State.job?_updJob s h.job f hid).trans (by rw [hj]; rfl)) ht hp

/-- Stopping a job leaves its number and its code alone. -/
theorem Job.endWith_id (st : Status) (j : Job) : (Job.endWith st j).id = j.id := by
  unfold Job.endWith
  split <;> rfl

theorem State.job?_raise (r : FaultRec) (s : State) (n : Nat) : (s.raise r).job? n = s.job? n := by
  unfold State.job?
  rw [State.raise_sched]

/-- After a trap no thread of the job goes on. -/
theorem State.progTrap_goTo {s : State} {h : Thr} {pc cause data : Nat} (h' : Thr) (hh : h'.job = h.job) (pc' : Nat) :
    (s.progTrap h pc cause data).goTo h' pc' = s.progTrap h pc cause data := by
  unfold State.progTrap
  split
  · rename_i e
    unfold State.goTo
    rw [hh, e]
  · rename_i j e
    split
    · rename_i ht
      unfold State.goTo
      rw [hh, e]
      simp only [ht, if_true]
    · dsimp only
      generalize hg : (fun k : Job => ({ ({ k with ending := none } : Job).endWith .jobFault with
        trapped := true
        trap := some { cause := cause, thread := h.thread, cluster := s.logicalOf (j.phys h.cluster)
                       phys := j.phys h.cluster, pc := pc, data := BitVec.ofNat 64 data } } : Job)) = g
      have hid : ∀ k, (g k).id = k.id := fun k => by rw [← hg]; rfl
      have ht : (g j).trapped = true := by rw [← hg]
      have e' : ((s.updJob h.job g).raise { faultUnit 0x0D 4 .cluster (j.phys h.cluster) 0 with
          detail := cause, location := pc }).job? h'.job = some (g j) := by
        rw [State.job?_raise, hh, State.job?_updJob s h.job g hid, e]
        rfl
      unfold State.goTo
      rw [e']
      simp only [ht, if_true]

/-- The sticky flags of a job leave its place in the list, its trap state and its code alone. -/
theorem State.job?_stick {s : State} {id : Nat} {j : Job} (hj : s.job? id = some j) (nan sat : Bool) :
    (s.stick id nan sat).job? id = some { j with nan := j.nan || nan, accSat := j.accSat || sat } := by
  exact (State.job?_updJob s id (fun j => { j with nan := j.nan || nan, accSat := j.accSat || sat }) fun _ => rfl).trans
    (by rw [hj]; rfl)

/-- An instruction that writes a register of a thread that issues it. -/
theorem Issues.putsReg {s : State} {h : Thr} {w : Nat} {gp : BitVec 3} {gn : BitVec 1} {j : Job} {t : Thread}
    (k : Issues s h w gp gn j t) (rd : BitVec 6) (v : Word) :
    s.retire_ h t (fun u => u.setReg rd v) = s.putsReg h t rd v :=
  State.retire_ok k.stands.job k.stands.untrapped k.follows _

end Sys2Proof.Machine
end

