-- ==== Sys2Proof/Laws/Commands.lean ====
section
/-! SUPPORT. What the step of a command that has been handed over comes to. -/
namespace Sys2Proof.Machine

/-- A command that has been handed over takes its step. -/
theorem Handed.run {s : State} {id op : Nat} {w : Bool} {c : Slot} (k : Handed s id op w c) (f : Slot → State) :
    s.runCmd id op w f = f c := by
  have h8 : w = false ∨ s.reachable (s.ringOf c.sq) = true := by
    cases w with
    | false => exact .inl rfl
    | true => exact .inr (k.carried rfl)
  simp only [State.runCmd, k.held, k.phase, k.opcode, k.reads, k.toRead, k.awake, k.going, k.unordered]
  rcases h8 with h | h <;> simp [h]

/-- The slot found under a number has that number. -/
theorem Handed.id_eq {s : State} {id op : Nat} {w : Bool} {c : Slot} (k : Handed s id op w c) : c.id = id := by
  have h := List.find?_some k.held
  simpa using h

/-- A command that goes on executing has its work in its slot. -/
theorem State.slot?_setWork {s : State} {id : Nat} {c : Slot} (w : Work) (h : s.slot? id = some c) :
    (s.setWork id w).slot? id = some { c with phase := .running, work := w } := by
  simp only [State.slot?, State.setWork, State.updSlot] at *
  rw [find?_updWhere_key (fun c : Slot => decide (c.id = id)) _ (by intro x; rfl), h]; rfl

end Sys2Proof.Machine
end

