-- ==== Sys2Proof/Laws/Evolves.lean ====
section
/-! SUPPORT. How Evolves composes: it is reflexive and transitive, it follows a fold, and it holds of an update of one part
of the state where that part keeps its condition. -/
namespace Sys2Proof.Machine

@[simp] theorem updAt_length {α : Type} (i : Nat) (f : α → α) (l : List α) : (updAt i f l).length = l.length := by
  simp [updAt]

@[simp] theorem updWhere_length {α : Type} (p : α → Bool) (f : α → α) (l : List α) :
    (updWhere p f l).length = l.length := by simp [updWhere]

theorem Evolves.refl (s : State) : Evolves s s := ⟨rfl, id, fun _ h => h, fun _ h => h⟩

theorem Evolves.trans {s t u : State} (h : Evolves s t) (k : Evolves t u) : Evolves s u :=
  ⟨k.pending.trans h.pending, fun i => k.inv (h.inv i), fun _ x => k.rollback (h.rollback x),
    fun _ x => k.revoked (h.revoked x)⟩

/-- Maps that are left alone stay in order. -/
theorem Ftl.Ok.of_map {f g : Ftl} (h : f.Ok) (e : g.map = f.map) (k : g.flashMap = f.flashMap := by rfl) : g.Ok := by
  unfold Ftl.Ok; rw [e, k]; exact h

/-- Contents that are left alone stay in canonical form. -/
theorem BlockRange.Ok.of_data {b d : BlockRange} (h : b.Ok) (e : d.data = b.data) : d.Ok := by
  unfold BlockRange.Ok; rw [e]; exact h

/-- A state whose parts each keep their own condition. -/
theorem Evolves.parts {t u : State} (hp : u.pending = t.pending)
    (atr : t.atr.Ok → u.atr.Ok) (sched : t.sched.Ok → u.sched.Ok) (gather : t.gather.Ok → u.gather.Ok)
    (attention : t.attention.Ok → u.attention.Ok) (tiers : t.tiers.Ok → u.tiers.Ok)
    (beacon : t.beacon.Ok → u.beacon.Ok) (power : t.power.Ok → u.power.Ok) (link : t.link.Ok → u.link.Ok)
    (flash : t.flash.Ok → u.flash.Ok) (err : t.err.Ok → u.err.Ok)
    (ftl : t.ftl.Ok → u.ftl.Ok) (block : t.block.Ok → u.block.Ok)
    (domains : t.domains.length = 4 → u.domains.length = 4) (hostMem : Mem.Ok t.hostMem → Mem.Ok u.hostMem)
    (rollback : t.sec.rollback ⊆ u.sec.rollback) (revoked : t.sec.revoked ⊆ u.sec.revoked) : Evolves t u :=
  ⟨hp, fun i => ⟨atr i.atr, sched i.sched, gather i.gather, attention i.attention, tiers i.tiers, beacon i.beacon,
    power i.power, link i.link, flash i.flash, err i.err,
    ftl i.ftl, block i.block, domains i.domains, hostMem i.hostMem⟩, rollback, revoked⟩

/-- A state is named by a fact about it. -/
theorem Evolves.cut {s t : State} {p : Prop} (h : Evolves s t) (k : Evolves s t → p) : p := k h

theorem Evolves.foldl {α : Type} {s t : State} {f : State → α → State} {l : List α} (h : Evolves s t)
    (hf : ∀ u a, Evolves s u → Evolves s (f u a)) : Evolves s (l.foldl f t) := by
  induction l generalizing t with
  | nil => exact h
  | cons a l ih => exact ih (hf _ _ h)

theorem Evolves.ite {s t u : State} {p : Prop} [Decidable p] (ht : Evolves s t) (hu : Evolves s u) : Evolves s (if p then t else u) := by
  split <;> assumption

theorem Evolves.with_grade {s t : State} {x} (h : Evolves s t) :
    Evolves s { t with grade := x } :=
  h.trans ⟨rfl, fun i => ⟨i.atr, i.sched, i.gather, i.attention, i.tiers,
    i.beacon, i.power, i.link, i.flash, i.err, i.ftl, i.block, i.domains, i.hostMem⟩,
    fun _ y => y, fun _ y => y⟩

theorem Evolves.with_units {s t : State} {x} (h : Evolves s t) :
    Evolves s { t with units := x } :=
  h.trans ⟨rfl, fun i => ⟨i.atr, i.sched, i.gather, i.attention, i.tiers,
    i.beacon, i.power, i.link, i.flash, i.err, i.ftl, i.block, i.domains, i.hostMem⟩,
    fun _ y => y, fun _ y => y⟩

theorem Evolves.with_clustersBuilt {s t : State} {x} (h : Evolves s t) :
    Evolves s { t with clustersBuilt := x } :=
  h.trans ⟨rfl, fun i => ⟨i.atr, i.sched, i.gather, i.attention, i.tiers,
    i.beacon, i.power, i.link, i.flash, i.err, i.ftl, i.block, i.domains, i.hostMem⟩,
    fun _ y => y, fun _ y => y⟩

theorem Evolves.with_clustersLogical {s t : State} {x} (h : Evolves s t) :
    Evolves s { t with clustersLogical := x } :=
  h.trans ⟨rfl, fun i => ⟨i.atr, i.sched, i.gather, i.attention, i.tiers,
    i.beacon, i.power, i.link, i.flash, i.err, i.ftl, i.block, i.domains, i.hostMem⟩,
    fun _ y => y, fun _ y => y⟩

theorem Evolves.with_clk {s t : State} {x} (h : Evolves s t) :
    Evolves s { t with clk := x } :=
  h.trans ⟨rfl, fun i => ⟨i.atr, i.sched, i.gather, i.attention, i.tiers,
    i.beacon, i.power, i.link, i.flash, i.err, i.ftl, i.block, i.domains, i.hostMem⟩,
    fun _ y => y, fun _ y => y⟩

theorem Evolves.with_atr {s t : State} {x} (h : Evolves s t) (k : t.atr.Ok → Atrium.Ok x) :
    Evolves s { t with atr := x } :=
  h.trans ⟨rfl, fun i => ⟨k i.atr, i.sched, i.gather, i.attention, i.tiers,
    i.beacon, i.power, i.link, i.flash, i.err, i.ftl, i.block, i.domains, i.hostMem⟩,
    fun _ y => y, fun _ y => y⟩

theorem Evolves.with_locks {s t : State} {x} (h : Evolves s t) :
    Evolves s { t with locks := x } :=
  h.trans ⟨rfl, fun i => ⟨i.atr, i.sched, i.gather, i.attention, i.tiers,
    i.beacon, i.power, i.link, i.flash, i.err, i.ftl, i.block, i.domains, i.hostMem⟩,
    fun _ y => y, fun _ y => y⟩

theorem Evolves.with_sched {s t : State} {x} (h : Evolves s t) (k : t.sched.Ok → Sched.Ok x) :
    Evolves s { t with sched := x } :=
  h.trans ⟨rfl, fun i => ⟨i.atr, k i.sched, i.gather, i.attention, i.tiers,
    i.beacon, i.power, i.link, i.flash, i.err, i.ftl, i.block, i.domains, i.hostMem⟩,
    fun _ y => y, fun _ y => y⟩

theorem Evolves.with_tiers {s t : State} {x} (h : Evolves s t) (k : t.tiers.Ok → Tiers.Ok x) :
    Evolves s { t with tiers := x } :=
  h.trans ⟨rfl, fun i => ⟨i.atr, i.sched, i.gather, i.attention, k i.tiers,
    i.beacon, i.power, i.link, i.flash, i.err, i.ftl, i.block, i.domains, i.hostMem⟩,
    fun _ y => y, fun _ y => y⟩

theorem Evolves.with_search {s t : State} {x} (h : Evolves s t) :
    Evolves s { t with search := x } :=
  h.trans ⟨rfl, fun i => ⟨i.atr, i.sched, i.gather, i.attention, i.tiers,
    i.beacon, i.power, i.link, i.flash, i.err, i.ftl, i.block, i.domains, i.hostMem⟩,
    fun _ y => y, fun _ y => y⟩

theorem Evolves.with_gather {s t : State} {x} (h : Evolves s t) (k : t.gather.Ok → GatherEngine.Ok x) :
    Evolves s { t with gather := x } :=
  h.trans ⟨rfl, fun i => ⟨i.atr, i.sched, k i.gather, i.attention, i.tiers,
    i.beacon, i.power, i.link, i.flash, i.err, i.ftl, i.block, i.domains, i.hostMem⟩,
    fun _ y => y, fun _ y => y⟩

theorem Evolves.with_attention {s t : State} {x} (h : Evolves s t) (k : t.attention.Ok → Attention.Ok x) :
    Evolves s { t with attention := x } :=
  h.trans ⟨rfl, fun i => ⟨i.atr, i.sched, i.gather, k i.attention, i.tiers,
    i.beacon, i.power, i.link, i.flash, i.err, i.ftl, i.block, i.domains, i.hostMem⟩,
    fun _ y => y, fun _ y => y⟩

theorem Evolves.with_domains {s t : State} {x} (h : Evolves s t) (k : t.domains.length = 4 → x.length = 4) :
    Evolves s { t with domains := x } :=
  h.trans ⟨rfl, fun i => ⟨i.atr, i.sched, i.gather, i.attention, i.tiers,
    i.beacon, i.power, i.link, i.flash, i.err, i.ftl, i.block, k i.domains, i.hostMem⟩,
    fun _ y => y, fun _ y => y⟩

theorem Evolves.with_flash {s t : State} {x} (h : Evolves s t) (k : t.flash.Ok → Flash.Ok x) :
    Evolves s { t with flash := x } :=
  h.trans ⟨rfl, fun i => ⟨i.atr, i.sched, i.gather, i.attention, i.tiers,
    i.beacon, i.power, i.link, k i.flash, i.err, i.ftl, i.block, i.domains, i.hostMem⟩,
    fun _ y => y, fun _ y => y⟩

theorem Evolves.with_ftl {s t : State} {x} (h : Evolves s t) (k : t.ftl.Ok → Ftl.Ok x) :
    Evolves s { t with ftl := x } :=
  h.trans ⟨rfl, fun i => ⟨i.atr, i.sched, i.gather, i.attention, i.tiers,
    i.beacon, i.power, i.link, i.flash, i.err, k i.ftl, i.block, i.domains, i.hostMem⟩,
    fun _ y => y, fun _ y => y⟩

theorem Evolves.with_block {s t : State} {x} (h : Evolves s t) (k : t.block.Ok → BlockRange.Ok x) :
    Evolves s { t with block := x } :=
  h.trans ⟨rfl, fun i => ⟨i.atr, i.sched, i.gather, i.attention, i.tiers,
    i.beacon, i.power, i.link, i.flash, i.err, i.ftl, k i.block, i.domains, i.hostMem⟩,
    fun _ y => y, fun _ y => y⟩

theorem Evolves.with_link {s t : State} {x} (h : Evolves s t) (k : t.link.Ok → LinkBlock.Ok x) :
    Evolves s { t with link := x } :=
  h.trans ⟨rfl, fun i => ⟨i.atr, i.sched, i.gather, i.attention, i.tiers,
    i.beacon, i.power, k i.link, i.flash, i.err, i.ftl, i.block, i.domains, i.hostMem⟩,
    fun _ y => y, fun _ y => y⟩

theorem Evolves.with_beacon {s t : State} {x} (h : Evolves s t) (k : t.beacon.Ok → Beacon.Ok x) :
    Evolves s { t with beacon := x } :=
  h.trans ⟨rfl, fun i => ⟨i.atr, i.sched, i.gather, i.attention, i.tiers,
    k i.beacon, i.power, i.link, i.flash, i.err, i.ftl, i.block, i.domains, i.hostMem⟩,
    fun _ y => y, fun _ y => y⟩

theorem Evolves.with_power {s t : State} {x} (h : Evolves s t) (k : t.power.Ok → Power.Ok x) :
    Evolves s { t with power := x } :=
  h.trans ⟨rfl, fun i => ⟨i.atr, i.sched, i.gather, i.attention, i.tiers,
    i.beacon, k i.power, i.link, i.flash, i.err, i.ftl, i.block, i.domains, i.hostMem⟩,
    fun _ y => y, fun _ y => y⟩

theorem Evolves.with_sec {s t : State} {x} (h : Evolves s t) (k : t.sec.rollback ⊆ x.rollback) (l : t.sec.revoked ⊆ x.revoked) :
    Evolves s { t with sec := x } :=
  h.trans ⟨rfl, fun i => ⟨i.atr, i.sched, i.gather, i.attention, i.tiers,
    i.beacon, i.power, i.link, i.flash, i.err, i.ftl, i.block, i.domains, i.hostMem⟩,
    k, l⟩

theorem Evolves.with_test {s t : State} {x} (h : Evolves s t) :
    Evolves s { t with test := x } :=
  h.trans ⟨rfl, fun i => ⟨i.atr, i.sched, i.gather, i.attention, i.tiers,
    i.beacon, i.power, i.link, i.flash, i.err, i.ftl, i.block, i.domains, i.hostMem⟩,
    fun _ y => y, fun _ y => y⟩

theorem Evolves.with_err {s t : State} {x} (h : Evolves s t) (k : t.err.Ok → ErrState.Ok x) :
    Evolves s { t with err := x } :=
  h.trans ⟨rfl, fun i => ⟨i.atr, i.sched, i.gather, i.attention, i.tiers,
    i.beacon, i.power, i.link, i.flash, k i.err, i.ftl, i.block, i.domains, i.hostMem⟩,
    fun _ y => y, fun _ y => y⟩

theorem Evolves.with_docent {s t : State} {x} (h : Evolves s t) :
    Evolves s { t with docent := x } :=
  h.trans ⟨rfl, fun i => ⟨i.atr, i.sched, i.gather, i.attention, i.tiers,
    i.beacon, i.power, i.link, i.flash, i.err, i.ftl, i.block, i.domains, i.hostMem⟩,
    fun _ y => y, fun _ y => y⟩

theorem Evolves.with_hostMem {s t : State} {x} (h : Evolves s t) (k : Mem.Ok t.hostMem → Mem.Ok x) :
    Evolves s { t with hostMem := x } :=
  h.trans ⟨rfl, fun i => ⟨i.atr, i.sched, i.gather, i.attention, i.tiers,
    i.beacon, i.power, i.link, i.flash, i.err, i.ftl, i.block, i.domains, k i.hostMem⟩,
    fun _ y => y, fun _ y => y⟩

theorem Evolves.with_free {s t : State} {x} (h : Evolves s t) :
    Evolves s { t with free := x } :=
  h.trans ⟨rfl, fun i => ⟨i.atr, i.sched, i.gather, i.attention, i.tiers,
    i.beacon, i.power, i.link, i.flash, i.err, i.ftl, i.block, i.domains, i.hostMem⟩,
    fun _ y => y, fun _ y => y⟩

theorem Evolves.with_atr_err {s t : State} {atr_ err_}
    (h : Evolves s t)
    (k_atr : t.atr.Ok → Atrium.Ok atr_)
    (k_err : t.err.Ok → ErrState.Ok err_) :
    Evolves s { t with atr := atr_, err := err_ } :=
  h.trans ⟨rfl, fun i => ⟨k_atr i.atr, i.sched, i.gather, i.attention, i.tiers, i.beacon, i.power, i.link, i.flash, k_err i.err, i.ftl, i.block, i.domains, i.hostMem⟩,
    fun _ y => y, fun _ y => y⟩

theorem Evolves.with_atr_locks {s t : State} {atr_ locks_}
    (h : Evolves s t)
    (k_atr : t.atr.Ok → Atrium.Ok atr_) :
    Evolves s { t with atr := atr_, locks := locks_ } :=
  h.trans ⟨rfl, fun i => ⟨k_atr i.atr, i.sched, i.gather, i.attention, i.tiers, i.beacon, i.power, i.link, i.flash, i.err, i.ftl, i.block, i.domains, i.hostMem⟩,
    fun _ y => y, fun _ y => y⟩

theorem Evolves.with_atr_locks_sched_tiers_domains_flash_power_sec_test_err {s t : State} {atr_ locks_ sched_ tiers_ domains_ flash_ power_ sec_ test_ err_}
    (h : Evolves s t)
    (k_atr : t.atr.Ok → Atrium.Ok atr_)
    (k_sched : t.sched.Ok → Sched.Ok sched_)
    (k_tiers : t.tiers.Ok → Tiers.Ok tiers_)
    (k_domains : t.domains.length = 4 → domains_.length = 4)
    (k_flash : t.flash.Ok → Flash.Ok flash_)
    (k_power : t.power.Ok → Power.Ok power_)
    (k_sec : t.sec.rollback ⊆ sec_.rollback) (l_sec : t.sec.revoked ⊆ sec_.revoked)
    (k_err : t.err.Ok → ErrState.Ok err_) :
    Evolves s { t with atr := atr_, locks := locks_, sched := sched_, tiers := tiers_, domains := domains_, flash := flash_, power := power_, sec := sec_, test := test_, err := err_ } :=
  h.trans ⟨rfl, fun i => ⟨k_atr i.atr, k_sched i.sched, i.gather, i.attention, k_tiers i.tiers, i.beacon, k_power i.power, i.link, k_flash i.flash, k_err i.err, i.ftl, i.block, k_domains i.domains, i.hostMem⟩,
    k_sec, l_sec⟩

theorem Evolves.with_atr_sched_ftl_power {s t : State} {atr_ sched_ ftl_ power_}
    (h : Evolves s t)
    (k_atr : t.atr.Ok → Atrium.Ok atr_)
    (k_sched : t.sched.Ok → Sched.Ok sched_)
    (k_ftl : t.ftl.Ok → Ftl.Ok ftl_)
    (k_power : t.power.Ok → Power.Ok power_) :
    Evolves s { t with atr := atr_, sched := sched_, ftl := ftl_, power := power_ } :=
  h.trans ⟨rfl, fun i => ⟨k_atr i.atr, k_sched i.sched, i.gather, i.attention, i.tiers, i.beacon, k_power i.power, i.link, i.flash, i.err, k_ftl i.ftl, i.block, i.domains, i.hostMem⟩,
    fun _ y => y, fun _ y => y⟩

theorem Evolves.with_clk_sched_beacon {s t : State} {clk_ sched_ beacon_}
    (h : Evolves s t)
    (k_sched : t.sched.Ok → Sched.Ok sched_)
    (k_beacon : t.beacon.Ok → Beacon.Ok beacon_) :
    Evolves s { t with clk := clk_, sched := sched_, beacon := beacon_ } :=
  h.trans ⟨rfl, fun i => ⟨i.atr, k_sched i.sched, i.gather, i.attention, i.tiers, k_beacon i.beacon, i.power, i.link, i.flash, i.err, i.ftl, i.block, i.domains, i.hostMem⟩,
    fun _ y => y, fun _ y => y⟩

theorem Evolves.with_domains_link {s t : State} {domains_ link_}
    (h : Evolves s t)
    (k_domains : t.domains.length = 4 → domains_.length = 4)
    (k_link : t.link.Ok → LinkBlock.Ok link_) :
    Evolves s { t with domains := domains_, link := link_ } :=
  h.trans ⟨rfl, fun i => ⟨i.atr, i.sched, i.gather, i.attention, i.tiers, i.beacon, i.power, k_link i.link, i.flash, i.err, i.ftl, i.block, k_domains i.domains, i.hostMem⟩,
    fun _ y => y, fun _ y => y⟩

theorem Evolves.with_flash_ftl {s t : State} {flash_ ftl_}
    (h : Evolves s t)
    (k_flash : t.flash.Ok → Flash.Ok flash_)
    (k_ftl : t.ftl.Ok → Ftl.Ok ftl_) :
    Evolves s { t with flash := flash_, ftl := ftl_ } :=
  h.trans ⟨rfl, fun i => ⟨i.atr, i.sched, i.gather, i.attention, i.tiers, i.beacon, i.power, i.link, k_flash i.flash, i.err, k_ftl i.ftl, i.block, i.domains, i.hostMem⟩,
    fun _ y => y, fun _ y => y⟩

theorem Evolves.with_grade_units_power {s t : State} {grade_ units_ power_}
    (h : Evolves s t)
    (k_power : t.power.Ok → Power.Ok power_) :
    Evolves s { t with grade := grade_, units := units_, power := power_ } :=
  h.trans ⟨rfl, fun i => ⟨i.atr, i.sched, i.gather, i.attention, i.tiers, i.beacon, k_power i.power, i.link, i.flash, i.err, i.ftl, i.block, i.domains, i.hostMem⟩,
    fun _ y => y, fun _ y => y⟩

theorem Evolves.with_power_test {s t : State} {power_ test_}
    (h : Evolves s t)
    (k_power : t.power.Ok → Power.Ok power_) :
    Evolves s { t with power := power_, test := test_ } :=
  h.trans ⟨rfl, fun i => ⟨i.atr, i.sched, i.gather, i.attention, i.tiers, i.beacon, k_power i.power, i.link, i.flash, i.err, i.ftl, i.block, i.domains, i.hostMem⟩,
    fun _ y => y, fun _ y => y⟩

theorem Evolves.with_sched_gather_domains {s t : State} {sched_ gather_ domains_}
    (h : Evolves s t)
    (k_sched : t.sched.Ok → Sched.Ok sched_)
    (k_gather : t.gather.Ok → GatherEngine.Ok gather_)
    (k_domains : t.domains.length = 4 → domains_.length = 4) :
    Evolves s { t with sched := sched_, gather := gather_, domains := domains_ } :=
  h.trans ⟨rfl, fun i => ⟨i.atr, k_sched i.sched, k_gather i.gather, i.attention, i.tiers, i.beacon, i.power, i.link, i.flash, i.err, i.ftl, i.block, k_domains i.domains, i.hostMem⟩,
    fun _ y => y, fun _ y => y⟩

theorem Evolves.with_tiers_block {s t : State} {tiers_ block_}
    (h : Evolves s t)
    (k_tiers : t.tiers.Ok → Tiers.Ok tiers_)
    (k_block : t.block.Ok → BlockRange.Ok block_) :
    Evolves s { t with tiers := tiers_, block := block_ } :=
  h.trans ⟨rfl, fun i => ⟨i.atr, i.sched, i.gather, i.attention, k_tiers i.tiers, i.beacon, i.power, i.link, i.flash, i.err, i.ftl, k_block i.block, i.domains, i.hostMem⟩,
    fun _ y => y, fun _ y => y⟩

theorem Evolves.with_tiers_err {s t : State} {tiers_ err_}
    (h : Evolves s t)
    (k_tiers : t.tiers.Ok → Tiers.Ok tiers_)
    (k_err : t.err.Ok → ErrState.Ok err_) :
    Evolves s { t with tiers := tiers_, err := err_ } :=
  h.trans ⟨rfl, fun i => ⟨i.atr, i.sched, i.gather, i.attention, k_tiers i.tiers, i.beacon, i.power, i.link, i.flash, k_err i.err, i.ftl, i.block, i.domains, i.hostMem⟩,
    fun _ y => y, fun _ y => y⟩

theorem Evolves.with_tiers_ftl_block {s t : State} {tiers_ ftl_ block_}
    (h : Evolves s t)
    (k_tiers : t.tiers.Ok → Tiers.Ok tiers_)
    (k_ftl : t.ftl.Ok → Ftl.Ok ftl_)
    (k_block : t.block.Ok → BlockRange.Ok block_) :
    Evolves s { t with tiers := tiers_, ftl := ftl_, block := block_ } :=
  h.trans ⟨rfl, fun i => ⟨i.atr, i.sched, i.gather, i.attention, k_tiers i.tiers, i.beacon, i.power, i.link, i.flash, i.err, k_ftl i.ftl, k_block i.block, i.domains, i.hostMem⟩,
    fun _ y => y, fun _ y => y⟩

theorem Evolves.with_units_clustersBuilt_clustersLogical_sec {s t : State} {units_ clustersBuilt_ clustersLogical_ sec_}
    (h : Evolves s t)
    (k_sec : t.sec.rollback ⊆ sec_.rollback) (l_sec : t.sec.revoked ⊆ sec_.revoked) :
    Evolves s { t with units := units_, clustersBuilt := clustersBuilt_, clustersLogical := clustersLogical_, sec := sec_ } :=
  h.trans ⟨rfl, fun i => ⟨i.atr, i.sched, i.gather, i.attention, i.tiers, i.beacon, i.power, i.link, i.flash, i.err, i.ftl, i.block, i.domains, i.hostMem⟩,
    k_sec, l_sec⟩

end Sys2Proof.Machine
end

