-- ==== Sys2Proof/Laws/Mem.lean ====
section
/-! SUPPORT. Laws of sparse byte memories: every operation keeps the canonical form, a byte written reads back, and every
other byte reads as before. -/
namespace Sys2Proof.Machine

/-- The canonical form, said of the list as a whole. -/
theorem memWf_iff (m : Mem) : memWf m = true ↔ m.Pairwise (fun c d => c.1 < d.1) ∧ ∀ c ∈ m, c.2 ≠ memDefault := by
  induction m with
  | nil => simp [memWf]
  | cons c m ih =>
    cases m with
    | nil => simp [memWf]
    | cons d m =>
      simp only [memWf, Bool.and_eq_true, bne_iff_ne, ne_eq, decide_eq_true_eq, ih, List.pairwise_cons, List.mem_cons,
        forall_eq_or_imp]
      constructor
      · rintro ⟨⟨hc, hlt⟩, ⟨hd, hp⟩, hd0, h0⟩
        exact ⟨⟨⟨hlt, fun x hx => Nat.lt_trans hlt (hd x hx)⟩, hd, hp⟩, hc, hd0, h0⟩
      · rintro ⟨⟨⟨hlt, -⟩, hd, hp⟩, hc, hd0, h0⟩
        exact ⟨⟨hc, hlt⟩, ⟨hd, hp⟩, hd0, h0⟩

/-- What memSet lists: the new byte, or a byte of the old list at another address. -/
theorem mem_memSet {m : Mem} (h : m.Pairwise fun c d => c.1 < d.1) {a : Nat} {b : Byte} {c : Nat × Byte}
    (hc : c ∈ memSet m a b) : (c = (a, b) ∧ b ≠ memDefault) ∨ (c ∈ m ∧ c.1 ≠ a) := by
  induction m with
  | nil =>
    simp only [memSet] at hc
    split at hc <;> simp_all
  | cons d m ih =>
    have hd := (List.pairwise_cons.mp h).1
    simp only [memSet] at hc
    split at hc
    · rename_i hlt
      have hne : c ∈ d :: m → c.1 ≠ a := fun hc => by
        rcases List.mem_cons.mp hc with rfl | hc
        · omega
        · have := hd c hc; omega
      split at hc
      · exact .inr ⟨hc, hne hc⟩
      · rcases List.mem_cons.mp hc with rfl | hc
        · exact .inl ⟨rfl, ‹_›⟩
        · exact .inr ⟨hc, hne hc⟩
    · split at hc
      · subst a
        have hne : c ∈ m → c.1 ≠ d.1 := fun hc => by have := hd c hc; omega
        split at hc
        · exact .inr ⟨List.mem_cons_of_mem _ hc, hne hc⟩
        · rcases List.mem_cons.mp hc with rfl | hc
          · exact .inl ⟨rfl, ‹_›⟩
          · exact .inr ⟨List.mem_cons_of_mem _ hc, hne hc⟩
      · rcases List.mem_cons.mp hc with rfl | hc
        · exact .inr ⟨List.mem_cons_self, by omega⟩
        · rcases ih (List.pairwise_cons.mp h).2 hc with hc | hc
          · exact .inl hc
          · exact .inr ⟨List.mem_cons_of_mem _ hc.1, hc.2⟩

/-- A byte written keeps the canonical form. -/
theorem memSet_wf {m : Mem} (h : memWf m = true) (a : Nat) (b : Byte) : memWf (memSet m a b) = true := by
  rw [memWf_iff] at h ⊢
  refine ⟨?_, fun c hc => ?_⟩
  · have hp := h.1
    clear h
    induction m with
    | nil => simp only [memSet]; split <;> simp
    | cons d m ih =>
      have hd := List.pairwise_cons.mp hp
      simp only [memSet]
      split
      · split
        · exact hp
        · exact List.pairwise_cons.mpr ⟨fun x hx => by
            rcases List.mem_cons.mp hx with rfl | hx
            · assumption
            · have := hd.1 x hx; simp only; omega, hp⟩
      · split
        · split
          · exact hd.2
          · subst a; exact List.pairwise_cons.mpr hd
        · refine List.pairwise_cons.mpr ⟨fun x hx => ?_, ih hd.2⟩
          rcases mem_memSet hd.2 hx with ⟨rfl, -⟩ | hx
          · simp only; omega
          · exact hd.1 x hx.1
  · rcases mem_memSet h.1 hc with ⟨rfl, hb⟩ | hc
    · exact hb
    · exact h.2 c hc.1

/-- Bytes written keep the canonical form. -/
theorem memWrite_wf {m : Mem} (h : memWf m = true) (a : Nat) (bs : Bytes) : memWf (memWrite m a bs) = true := by
  induction bs generalizing m a with
  | nil => exact h
  | cons b bs ih => exact ih (memSet_wf h a b) (a + 1)

/-- A part of a memory is in canonical form. -/
theorem filter_wf {m : Mem} (h : memWf m = true) (p : Nat × Byte → Bool) : memWf (m.filter p) = true := by
  rw [memWf_iff] at h ⊢
  exact ⟨h.1.filter p, fun c hc => h.2 c ((List.mem_filter.mp hc).1)⟩

/-- Erasing keeps the canonical form. -/
theorem memErase_wf {m : Mem} (h : memWf m = true) (a n : Nat) : memWf (memErase m a n) = true := filter_wf h _

/-- A range of a memory moved to another address is in canonical form. -/
theorem memCut_wf {m : Mem} (h : memWf m = true) (a n b : Nat) : memWf (memCut m a n b) = true := by
  have hf := filter_wf h fun c => a ≤ c.1 && c.1 < a + n
  rw [memWf_iff] at hf ⊢
  refine ⟨List.pairwise_map.mpr (hf.1.imp_of_mem fun {c d} hc hd hlt => ?_), fun c hc => ?_⟩
  · have := (List.mem_filter.mp hc).2
    have := (List.mem_filter.mp hd).2
    simp only [Bool.and_eq_true, decide_eq_true_eq] at *
    omega
  · obtain ⟨d, hd, rfl⟩ := List.mem_map.mp hc
    exact hf.2 d hd

/-- A range copied from one memory into another keeps the canonical form. -/
theorem memCopy_wf {dst src : Mem} (h : memWf dst = true) (k : memWf src = true) (a b n : Nat) :
    memWf (memCopy dst b src a n) = true := by
  have h1 := (memWf_iff _).mp (filter_wf h fun c => decide (c.1 < b))
  have h2 := (memWf_iff _).mp (memCut_wf k a n b)
  have h3 := (memWf_iff _).mp (filter_wf h fun c => decide (b + n ≤ c.1))
  have m1 : ∀ c ∈ dst.filter (fun c => decide (c.1 < b)), c.1 < b := fun c hc => by
    simpa using (List.mem_filter.mp hc).2
  have m2 : ∀ c ∈ memCut src a n b, b ≤ c.1 ∧ c.1 < b + n := fun c hc => by
    obtain ⟨d, hd, rfl⟩ := List.mem_map.mp hc
    have := (List.mem_filter.mp hd).2
    simp only [Bool.and_eq_true, decide_eq_true_eq] at *
    omega
  have m3 : ∀ c ∈ dst.filter (fun c => decide (b + n ≤ c.1)), b + n ≤ c.1 := fun c hc => by
    simpa using (List.mem_filter.mp hc).2
  rw [memWf_iff]
  unfold memCopy
  refine ⟨List.pairwise_append.mpr ⟨List.pairwise_append.mpr ⟨h1.1, h2.1, fun x hx y hy => ?_⟩, h3.1, fun x hx y hy => ?_⟩,
    fun c hc => ?_⟩
  · have := m1 x hx; have := m2 y hy; omega
  · have := m3 y hy
    rcases List.mem_append.mp hx with hx | hx
    · have := m1 x hx; omega
    · have := m2 x hx; omega
  · rcases List.mem_append.mp hc with hc | hc
    · rcases List.mem_append.mp hc with hc | hc
      · exact h1.2 c hc
      · exact h2.2 c hc
    · exact h3.2 c hc

/-- A byte above a listed address that no lower entry reaches reads as unlisted. -/
theorem memGet_of_forall_ne {m : Mem} {a : Nat} (h : ∀ c ∈ m, c.1 ≠ a) : memGet m a = memDefault := by
  induction m with
  | nil => rfl
  | cons c m ih =>
    simp only [memGet, h c List.mem_cons_self, if_false]
    exact ih fun d hd => h d (List.mem_cons_of_mem _ hd)

/-- A byte written reads back. -/
theorem memGet_memSet_self {m : Mem} (h : memWf m = true) (a : Nat) (b : Byte) : memGet (memSet m a b) a = b := by
  have hp := ((memWf_iff m).mp h).1
  clear h
  induction m with
  | nil => simp only [memSet]; split <;> simp_all [memGet]
  | cons c m ih =>
    have hc := List.pairwise_cons.mp hp
    simp only [memSet]
    split
    · split
      · subst b
        refine memGet_of_forall_ne fun d hd => ?_
        rcases List.mem_cons.mp hd with rfl | hd
        · omega
        · have := hc.1 d hd; omega
      · simp [memGet]
    · split
      · split
        · subst a b
          exact memGet_of_forall_ne fun d hd => by have := hc.1 d hd; omega
        · simp [memGet]
      · rw [memGet, if_neg (by omega)]
        exact ih hc.2

/-- Every other byte reads as before. -/
theorem memGet_memSet_ne (m : Mem) {a x : Nat} (b : Byte) (hx : x ≠ a) : memGet (memSet m a b) x = memGet m x := by
  induction m with
  | nil => simp only [memSet]; split <;> simp [memGet, hx.symm]
  | cons c m ih =>
    simp only [memSet]
    split
    · split
      · rfl
      · rw [memGet, if_neg (fun h => hx h.symm)]
    · split
      · split
        · subst a; rw [memGet, if_neg (fun h => hx h.symm)]
        · subst a; rw [memGet, if_neg (fun h => hx h.symm), memGet, if_neg (fun h => hx h.symm)]
      · rw [memGet, memGet, ih]

/-- A byte outside the range written reads as before. -/
theorem memGet_memWrite_of_not_mem (m : Mem) (a : Nat) (bs : Bytes) {x : Nat} (hx : x < a ∨ a + bs.length ≤ x) :
    memGet (memWrite m a bs) x = memGet m x := by
  induction bs generalizing m a with
  | nil => rfl
  | cons b bs ih =>
    simp only [List.length_cons] at hx
    rw [memWrite, ih _ _ (by omega), memGet_memSet_ne m b (by omega)]

/-- Bytes written read back. -/
theorem memRead_memWrite {m : Mem} (h : memWf m = true) (a : Nat) (bs : Bytes) :
    memRead (memWrite m a bs) a bs.length = bs := by
  induction bs generalizing m a with
  | nil => rfl
  | cons b bs ih =>
    rw [List.length_cons, memWrite, memRead, ih (memSet_wf h a b),
      memGet_memWrite_of_not_mem _ _ _ (.inl (Nat.lt_succ_self a)), memGet_memSet_self h]

/-- Bytes outside the range written read as before. -/
theorem memRead_memWrite_of_disjoint (m : Mem) (a : Nat) (bs : Bytes) {x n : Nat}
    (hx : x + n ≤ a ∨ a + bs.length ≤ x) : memRead (memWrite m a bs) x n = memRead m x n := by
  induction n generalizing x with
  | zero => rfl
  | succ n ih =>
    rw [memRead, memRead, ih (by omega), memGet_memWrite_of_not_mem m a bs (by omega)]

end Sys2Proof.Machine
end

