-- ==== Sys2Proof/Laws/EvolvesBase.lean ====
section
/-! SUPPORT. Every operation on operations every part shares: the state it gives evolves from the state
it is given (Safety.lean). One lemma per operation, citing the lemmas of the operations it calls. The proofs are elaborated in turn: in
parallel they wait for each other, in more threads than there is memory for. -/
namespace Sys2Proof.Machine

set_option Elab.async false

/-! ### Machine/Send.lean -/

theorem State.updPort_evolves {s0 s : State} (p : Nat) (f : Port → Port) (hs : Evolves s0 s) :
    Evolves s0 (State.updPort p f s) := by
  unfold State.updPort
  repeat' (first
      | with_reducible assumption | exact fun k_ => k_ | (intro k_; simpa [LinkBlock.Ok] using k_)
      | (intro _ _ _; (try dsimp -zeta only)) | (intro _; (try dsimp -zeta only)) | split
      | with_reducible apply Evolves.with_link)

theorem State.renewRounds_evolves {s0 before s : State} (hbefore : Evolves s0 before) (hs : Evolves s0 s) :
    Evolves s0 (State.renewRounds before s) := by
  unfold State.renewRounds
  repeat' (first
      | with_reducible assumption | exact fun k_ => k_ | (intro k_; simpa using k_)
      | (intro _ _ _; (try dsimp -zeta only)) | (intro _; (try dsimp -zeta only)) | split
      | with_reducible apply Evolves.with_domains)

theorem State.send_evolves {s0 s : State} (p : Nat) (k : TxPkt) (hs : Evolves s0 s) :
    Evolves s0 (State.send p k s) := by
  unfold State.send
  repeat' (first
      | with_reducible assumption | with_reducible apply State.updPort_evolves | (intro _ _ _; (try dsimp -zeta only))
      | (intro _; (try dsimp -zeta only)) | split)

theorem State.sendRedNow_evolves {s0 s : State} (k : TxPkt) (hs : Evolves s0 s) :
    Evolves s0 (State.sendRedNow k s) := by
  unfold State.sendRedNow
  repeat' (first
      | with_reducible assumption | with_reducible apply State.send_evolves | exact fun k_ => k_
      | (intro k_; simpa using k_) | (intro _ _ _; (try dsimp -zeta only)) | (intro _; (try dsimp -zeta only)) | split
      | with_reducible apply Evolves.with_domains)

theorem State.pumpRed_evolves {s0 s : State} (hs : Evolves s0 s) :
    Evolves s0 (State.pumpRed s) := by
  unfold State.pumpRed
  repeat' (first
      | with_reducible assumption | with_reducible apply State.sendRedNow_evolves | with_reducible apply Evolves.foldl
      | exact fun k_ => k_ | (intro k_; simpa [LinkBlock.Ok] using k_) | (intro _ _ _; (try dsimp -zeta only))
      | (intro _; (try dsimp -zeta only)) | split | with_reducible apply Evolves.with_link)

theorem State.sendAll_evolves {s0 s : State} (p : Nat) (ks : List TxPkt) (hs : Evolves s0 s) :
    Evolves s0 (State.sendAll p ks s) := by
  unfold State.sendAll
  repeat' (first
      | with_reducible assumption | with_reducible apply State.send_evolves | with_reducible apply Evolves.foldl
      | (intro _ _ _; (try dsimp -zeta only)) | (intro _; (try dsimp -zeta only)) | split)

/-! ### Machine/Ops.lean -/

theorem State.takeFree_evolves {s0 s : State} (hs : Evolves s0 s) :
    Evolves s0 (State.takeFree s).2 := by
  unfold State.takeFree
  repeat' (first
      | with_reducible assumption | (intro _ _ _; (try dsimp -zeta only)) | (intro _; (try dsimp -zeta only)) | split
      | with_reducible apply Evolves.with_free)

theorem State.takeFree_evolves_of {s0 s : State}  {k_} {r_} (e_ : State.takeFree s = (k_, r_)) (hs : Evolves s0 s) :
    Evolves s0 r_ := by
  have := State.takeFree_evolves hs
  rwa [e_] at this

theorem dropOldestRead_sublist (l : List FaultRec) : (dropOldestRead l).Sublist l := by
  induction l with
  | nil => exact List.Sublist.slnil
  | cons q l ih =>
    simp only [dropOldestRead]
    split
    · exact List.sublist_cons_self q l
    · exact ih.cons_cons q

theorem dropOldestRead_length {l : List FaultRec} (h : l.any (·.isRead) = true) :
    (dropOldestRead l).length + 1 = l.length := by
  induction l with
  | nil => simp at h
  | cons q l ih =>
    simp only [dropOldestRead]
    split
    · rfl
    · rename_i hq
      simp only [List.any_cons, hq, Bool.false_or] at h
      simp [ih h]

/-- A list of records below a number, with one record of that number after them, counts on. -/
theorem log_snoc {l k : List FaultRec} {n : Nat} (hs : k.Sublist l) {r : FaultRec} (hr : r.seq = n)
    (hp : (l.map (·.seq)).Pairwise (· < ·)) (hl : ∀ q ∈ l, q.seq < n) :
    ((k ++ [r]).map (·.seq)).Pairwise (· < ·) ∧ ∀ q ∈ k ++ [r], q.seq < n + 1 := by
  have hk : ∀ q ∈ k, q.seq < n := fun q hq => hl q (hs.subset hq)
  refine ⟨?_, fun q hq => ?_⟩
  · rw [List.map_append, List.pairwise_append]
    refine ⟨hp.sublist (hs.map _), by simp, fun a ha b hb => ?_⟩
    obtain ⟨q, hq, rfl⟩ := List.mem_map.mp ha
    simp only [List.map_cons, List.map_nil, List.mem_singleton] at hb
    rw [hb, hr]; exact hk q hq
  · rcases List.mem_append.mp hq with hq | hq
    · exact Nat.lt_succ_of_lt (hk q hq)
    · rw [List.mem_singleton.mp hq, hr]; exact Nat.lt_succ_self n

/-- A new record keeps the fault log's order and bound (R461, R462). -/
theorem ErrState.append_ok {e : ErrState} (h : e.Ok) {r : FaultRec} (hr : r.seq = e.nextSeq) : (e.append r).Ok := by
  obtain ⟨hl, hp, hb⟩ := h
  unfold ErrState.append
  split
  · exact ⟨by simp only [List.length_append, List.length_singleton]; omega, log_snoc (.refl _) hr hp hb⟩
  · split
    · rename_i hr'
      have := dropOldestRead_length hr'
      exact ⟨by simp only [List.length_append, List.length_singleton]; omega,
        log_snoc (dropOldestRead_sublist _) hr hp hb⟩
    · exact ⟨by simp only [List.length_append, List.length_drop, List.length_singleton]; omega,
        log_snoc (List.drop_sublist 1 _) hr hp hb⟩

/-- Changing records without their numbers keeps the log's order and bound. -/
theorem ErrState.Ok.of_map {e d : ErrState} (h : e.Ok) {f : FaultRec → FaultRec} (hf : ∀ q, (f q).seq = q.seq)
    (hl : d.log = e.log.map f) (hn : d.nextSeq = e.nextSeq) : d.Ok := by
  obtain ⟨h1, h2, h3⟩ := h
  refine ⟨by simpa [hl] using h1, ?_, fun q hq => ?_⟩
  · rw [hl, List.map_map, show (fun q : FaultRec => q.seq) ∘ f = (·.seq) from funext hf]; exact h2
  · rw [hl] at hq
    obtain ⟨p, hp, rfl⟩ := List.mem_map.mp hq
    rw [hf, hn]; exact h3 p hp

theorem State.raise_evolves {s0 s : State} (r : FaultRec) (hs : Evolves s0 s) : Evolves s0 (State.raise r s) := by
  unfold State.raise
  extract_lets old q
  split
  · refine hs.with_err fun k => k.of_map (f := fun q => if (r.sameFault q && decide (s.bt ≤ q.firstBt + 1000000)) = true
      then r.merge q s.bt else q) (fun q => ?_) rfl rfl
    split <;> rfl
  · exact hs.with_err fun k => ErrState.append_ok k rfl

theorem State.updSlot_evolves {s0 s : State} (id : Nat) (f : Slot → Slot) (hs : Evolves s0 s) :
    Evolves s0 (State.updSlot id f s) := by
  unfold State.updSlot
  repeat' (first
      | with_reducible assumption | exact fun k_ => k_ | (intro k_; simpa [Atrium.Ok] using k_)
      | (intro _ _ _; (try dsimp -zeta only)) | (intro _; (try dsimp -zeta only)) | split
      | with_reducible apply Evolves.with_atr)

theorem State.updSq_evolves {s0 s : State} (n : Nat) (f : Sq → Sq) (hs : Evolves s0 s) :
    Evolves s0 (State.updSq n f s) := by
  unfold State.updSq
  repeat' (first
      | with_reducible assumption | exact fun k_ => k_ | (intro k_; simpa [Atrium.Ok] using k_)
      | (intro _ _ _; (try dsimp -zeta only)) | (intro _; (try dsimp -zeta only)) | split
      | with_reducible apply Evolves.with_atr)

theorem State.updCq_evolves {s0 s : State} (n : Nat) (f : Cq → Cq) (hs : Evolves s0 s) :
    Evolves s0 (State.updCq n f s) := by
  unfold State.updCq
  repeat' (first
      | with_reducible assumption | exact fun k_ => k_ | (intro k_; simpa [Atrium.Ok] using k_)
      | (intro _ _ _; (try dsimp -zeta only)) | (intro _; (try dsimp -zeta only)) | split
      | with_reducible apply Evolves.with_atr)

theorem State.countErr_evolves {s0 s : State} (i : Nat) (hs : Evolves s0 s) :
    Evolves s0 (State.countErr i s) := by
  unfold State.countErr
  repeat' (first
      | with_reducible assumption | exact fun k_ => k_ | (intro k_; simpa [Atrium.Ok] using k_)
      | (intro _ _ _; (try dsimp -zeta only)) | (intro _; (try dsimp -zeta only)) | split
      | with_reducible apply Evolves.with_atr)

theorem State.ready_evolves {s0 s : State} (k : Completion) (hs : Evolves s0 s) :
    Evolves s0 (State.ready k s) := by
  unfold State.ready
  repeat' (first
      | with_reducible assumption | with_reducible apply State.updCq_evolves | (intro _ _ _; (try dsimp -zeta only))
      | (intro _; (try dsimp -zeta only)) | split)

theorem State.finish_evolves {s0 s : State} (id : Nat) (st : Status) (result : Nat) (info : Nat) (hs : Evolves s0 s) :
    Evolves s0 (State.finish id st result info s) := by
  unfold State.finish
  repeat' (first
      | with_reducible assumption | with_reducible apply State.updSlot_evolves
      | with_reducible apply State.ready_evolves | (intro _ _ _; (try dsimp -zeta only))
      | (intro _; (try dsimp -zeta only)) | split)

theorem State.endWait_evolves {s0 s : State} (j : Job) (hs : Evolves s0 s) :
    Evolves s0 (State.endWait j s) := by
  unfold State.endWait
  repeat' (first
      | with_reducible assumption | exact fun k_ => k_ | (intro k_; simpa [Sched.Ok] using k_)
      | (intro _ _ _; (try dsimp -zeta only)) | (intro _; (try dsimp -zeta only)) | split
      | with_reducible apply Evolves.with_sched)

theorem State.dropUnready_evolves {s0 s : State} (slot : Nat) (hs : Evolves s0 s) :
    Evolves s0 (State.dropUnready slot s) := by
  unfold State.dropUnready
  repeat' (first
      | with_reducible assumption | with_reducible apply State.ready_evolves
      | with_reducible apply State.endWait_evolves | exact fun k_ => k_ | (intro k_; simpa [Sched.Ok] using k_)
      | (intro _ _ _; (try dsimp -zeta only)) | (intro _; (try dsimp -zeta only)) | split
      | with_reducible apply Evolves.with_sched)

theorem State.hostWrite_evolves {s0 s : State} (ring : Nat) (addr : Nat) (bs : Bytes) (hs : Evolves s0 s) :
    Evolves s0 (State.hostWrite ring addr bs s) := by
  unfold State.hostWrite
  repeat' (first
      | with_reducible assumption | with_reducible apply State.sendAll_evolves | exact fun k_ => k_
      | (intro k_; simpa [Atrium.Ok] using k_) | (intro k_; exact memWrite_wf k_ _ _)
      | (intro _ _ _; (try dsimp -zeta only)) | (intro _; (try dsimp -zeta only)) | split
      | with_reducible apply Evolves.with_atr | with_reducible apply Evolves.with_hostMem)

theorem State.unpark_evolves {s0 s : State} (ring : Nat) (hs : Evolves s0 s) :
    Evolves s0 (State.unpark ring s) := by
  unfold State.unpark
  repeat' (first
      | with_reducible assumption | with_reducible apply State.hostWrite_evolves | with_reducible apply Evolves.foldl
      | exact fun k_ => k_ | (intro k_; simpa [Atrium.Ok] using k_) | (intro _ _ _; (try dsimp -zeta only))
      | (intro _; (try dsimp -zeta only)) | split | with_reducible apply Evolves.with_atr)

theorem State.writeResult_evolves {s0 s : State} (c : Slot) (off : Nat) (bs : Bytes) (hs : Evolves s0 s) :
    Evolves s0 (State.writeResult c off bs s) := by
  unfold State.writeResult
  repeat' (first
      | with_reducible assumption | with_reducible apply State.hostWrite_evolves | with_reducible apply Evolves.foldl
      | (intro _ _ _; (try dsimp -zeta only)) | (intro _; (try dsimp -zeta only)) | split)

end Sys2Proof.Machine
end

