-- ==== Sys2Proof/Laws/EvolvesFlash.lean ====
section
/-! SUPPORT. Every operation on the flash array and flash translation: the state it gives evolves from the state
it is given (Safety.lean). One lemma per operation, citing the lemmas of the operations it calls. The proofs are elaborated in turn: in
parallel they wait for each other, in more threads than there is memory for. -/
namespace Sys2Proof.Machine

set_option Elab.async false

/-! ### Machine/Flash.lean -/

theorem State.updEunit_evolves {s0 s : State} (d : Die) (u : Nat) (f : EraseUnit → EraseUnit) (hs : Evolves s0 s) :
    Evolves s0 (State.updEunit d u f s) := by
  unfold State.updEunit
  repeat' (first
      | with_reducible assumption | exact fun k_ => k_ | (intro k_; simpa [Flash.Ok] using k_)
      | (intro _ _ _; (try dsimp -zeta only)) | (intro _; (try dsimp -zeta only)) | split
      | with_reducible apply Evolves.with_flash)

theorem State.programImage_evolves {s0 s : State} (d : Die) (u : Nat) (n : Nat) (img : PageImage) (hs : Evolves s0 s)
    :
    Evolves s0 (State.programImage d u n img s) := by
  unfold State.programImage
  repeat' (first
      | with_reducible assumption | exact fun k_ => k_ | (intro k_; simpa [Flash.Ok] using k_)
      | (intro _ _ _; (try dsimp -zeta only)) | (intro _; (try dsimp -zeta only)) | split
      | with_reducible apply Evolves.with_flash)

theorem State.eraseData_evolves {s0 s : State} (d : Die) (u : Nat) (hs : Evolves s0 s) :
    Evolves s0 (State.eraseData d u s) := by
  unfold State.eraseData
  repeat' (first
      | with_reducible assumption | exact fun k_ => k_ | (intro k_; simpa [Flash.Ok] using k_)
      | (intro _ _ _; (try dsimp -zeta only)) | (intro _; (try dsimp -zeta only)) | split
      | with_reducible apply Evolves.with_flash)

theorem State.updChannel_evolves {s0 s : State} (c : Nat) (f : ChannelCnt → ChannelCnt) (hs : Evolves s0 s) :
    Evolves s0 (State.updChannel c f s) := by
  unfold State.updChannel
  repeat' (first
      | with_reducible assumption | exact fun k_ => k_ | (intro k_; simpa [Flash.Ok] using k_)
      | (intro _ _ _; (try dsimp -zeta only)) | (intro _; (try dsimp -zeta only)) | split
      | with_reducible apply Evolves.with_flash)

theorem State.pumpFlash_evolves {s0 s : State} (hs : Evolves s0 s) : Evolves s0 (State.pumpFlash s) := by
  unfold State.pumpFlash
  extract_lets +onlyGivenNames slcOf legal ops0 ops1 ops2 t
  clear_value ops2
  exact Evolves.foldl (Evolves.with_flash hs fun k => k) fun _ _ k => State.updChannel_evolves _ _ k

theorem State.queueOp_evolves {s0 s : State} (o : DieOp) (hs : Evolves s0 s) :
    Evolves s0 (State.queueOp o s) := by
  unfold State.queueOp
  repeat' (first
      | with_reducible assumption | with_reducible apply State.pumpFlash_evolves | exact fun k_ => k_
      | (intro k_; simpa [Flash.Ok] using k_) | (intro _ _ _; (try dsimp -zeta only))
      | (intro _; (try dsimp -zeta only)) | split | with_reducible apply Evolves.with_flash)

theorem State.handOps_evolves {s0 s : State} (p : Nat) (all : Bool) (hs : Evolves s0 s) :
    Evolves s0 (State.handOps p all s) := by
  unfold State.handOps
  repeat' (first
      | with_reducible assumption | exact fun k_ => k_ | (intro k_; simpa [Flash.Ok] using k_)
      | (intro _ _ _; (try dsimp -zeta only)) | (intro _; (try dsimp -zeta only)) | split
      | with_reducible apply Evolves.with_flash)

theorem State.endOp_evolves {s0 s : State} (o : DieOp) (hs : Evolves s0 s) :
    Evolves s0 (State.endOp o s) := by
  unfold State.endOp
  repeat' (first
      | with_reducible assumption | exact fun k_ => k_ | (intro k_; simpa [Flash.Ok] using k_)
      | (intro _ _ _; (try dsimp -zeta only)) | (intro _; (try dsimp -zeta only)) | split
      | with_reducible apply Evolves.with_flash)

theorem State.markUrgent_evolves {s0 s : State} (hs : Evolves s0 s) :
    Evolves s0 (State.markUrgent s) := by
  unfold State.markUrgent
  repeat' (first
      | with_reducible assumption | with_reducible apply State.updChannel_evolves
      | with_reducible apply State.pumpFlash_evolves | with_reducible apply Evolves.foldl | exact fun k_ => k_
      | (intro k_; simpa [Flash.Ok] using k_) | (intro _ _ _; (try dsimp -zeta only))
      | (intro _; (try dsimp -zeta only)) | split | with_reducible apply Evolves.with_flash)

theorem State.queueBlank_evolves {s0 s : State} (prio : DiePrio) (d : Die) (e : EraseUnit) (hs : Evolves s0 s) :
    Evolves s0 (State.queueBlank prio d e s) := by
  unfold State.queueBlank
  repeat' (first
      | with_reducible assumption | with_reducible apply State.queueOp_evolves | with_reducible apply Evolves.foldl
      | (intro _ _ _; (try dsimp -zeta only)) | (intro _; (try dsimp -zeta only)) | split)

theorem State.dropBlank_evolves {s0 s : State} (d : Die) (u : Nat) (hs : Evolves s0 s) :
    Evolves s0 (State.dropBlank d u s) := by
  unfold State.dropBlank
  repeat' (first
      | with_reducible assumption | exact fun k_ => k_ | (intro k_; simpa [Flash.Ok] using k_)
      | (intro _ _ _; (try dsimp -zeta only)) | (intro _; (try dsimp -zeta only)) | split
      | with_reducible apply Evolves.with_flash)

theorem State.queueJournal_evolves {s0 s : State} (seq : Nat) (hs : Evolves s0 s) :
    Evolves s0 (State.queueJournal seq s) := by
  unfold State.queueJournal
  repeat' (first
      | with_reducible assumption | with_reducible apply State.queueOp_evolves
      | with_reducible apply State.queueBlank_evolves | with_reducible apply Evolves.foldl
      | (intro _ _ _; (try dsimp -zeta only)) | (intro _; (try dsimp -zeta only)) | split)

theorem State.journal_evolves {s0 s : State} (typ : JournalType) (slc : Bool) (d : Die) (u : Nat) (hs : Evolves s0 s)
    :
    Evolves s0 (State.journal typ slc d u s) := by
  unfold State.journal
  repeat' (first
      | with_reducible assumption | with_reducible apply State.queueJournal_evolves | exact fun k_ => k_
      | (intro k_; simpa [Flash.Ok] using k_) | (intro _ _ _; (try dsimp -zeta only))
      | (intro _; (try dsimp -zeta only)) | split | with_reducible apply Evolves.with_flash)

theorem State.startErase_evolves {s0 s : State} (owner : DieOpOwner) (role : UnitRole) (slc : Bool) (d : Die)
    (u : Nat) (hs : Evolves s0 s) :
    Evolves s0 (State.startErase owner role slc d u s) := by
  unfold State.startErase
  repeat' (first
      | with_reducible assumption | with_reducible apply State.updEunit_evolves
      | with_reducible apply State.queueOp_evolves | with_reducible apply State.markUrgent_evolves
      | with_reducible apply State.journal_evolves | (intro _ _ _; (try dsimp -zeta only))
      | (intro _; (try dsimp -zeta only)) | split)

theorem State.journalCopy_evolves {s0 s : State} (seq : Nat) (copyA : Bool) (hs : Evolves s0 s) :
    Evolves s0 (State.journalCopy seq copyA s) := by
  unfold State.journalCopy
  repeat' (first
      | with_reducible assumption | with_reducible apply State.journal_evolves | exact fun k_ => k_
      | (intro k_; simpa [Flash.Ok] using k_) | (intro _ _ _; (try dsimp -zeta only))
      | (intro _; (try dsimp -zeta only)) | split | with_reducible apply Evolves.with_flash)

theorem State.releaseErases_evolves {s0 s : State} (hs : Evolves s0 s) :
    Evolves s0 (State.releaseErases s) := by
  unfold State.releaseErases
  repeat' (first
      | with_reducible assumption | with_reducible apply State.pumpFlash_evolves
      | with_reducible apply State.journal_evolves | exact fun k_ => k_ | (intro k_; simpa [Flash.Ok] using k_)
      | (intro _ _ _; (try dsimp -zeta only)) | (intro _; (try dsimp -zeta only)) | split
      | with_reducible apply Evolves.with_flash)

/-! ### Machine/Mirror.lean -/

theorem State.mapPlaces_evolves {s0 s : State} (f : PlaceMap) (hs : Evolves s0 s) :
    Evolves s0 (State.mapPlaces f s) := by
  unfold State.mapPlaces
  repeat' (first
      | with_reducible assumption | exact fun k_ => k_.of_map rfl | exact fun k_ => k_.of_data rfl
      | exact fun k_ => k_ | (intro k_; simpa [Tiers.Ok] using k_) | (intro k_; simpa [Ftl.Ok] using k_)
      | (intro k_; simpa [BlockRange.Ok] using k_) | (intro _ _ _; (try dsimp -zeta only))
      | (intro _; (try dsimp -zeta only)) | split | with_reducible apply Evolves.with_tiers_ftl_block)

theorem State.leaveAreas_evolves {s0 s : State} (p : Nat) (hs : Evolves s0 s) :
    Evolves s0 (State.leaveAreas p s) := by
  unfold State.leaveAreas
  repeat' (first
      | with_reducible assumption | exact fun k_ => k_ | (intro k_; simpa [Sched.Ok] using k_)
      | (intro k_; simpa [GatherEngine.Ok] using k_) | (intro k_; simpa using k_)
      | (intro _ _ _; (try dsimp -zeta only)) | (intro _; (try dsimp -zeta only)) | split
      | with_reducible apply Evolves.with_sched_gather_domains)

/-! ### Machine/Ftl.lean -/

/-- The keys of a list after a pair was put: what is below and above every key stays so. -/
theorem mem_putPair {k v : Nat} {l : List (Nat × Nat)} {p : Nat × Nat} (h : p ∈ putPair k v l) : p ∈ l ∨ p.1 = k := by
  induction l with
  | nil =>
    simp only [putPair] at h
    split at h <;> simp_all
  | cons q l ih =>
    simp only [putPair] at h
    have put : ∀ r, p ∈ (if v = 0 then r else (k, v) :: r) → p ∈ r ∨ p.1 = k := by
      intro r hr
      split at hr
      · exact .inl hr
      · rcases List.mem_cons.mp hr with hr | hr
        · exact .inr (by rw [hr])
        · exact .inl hr
    split at h
    · exact put _ h
    · split at h
      · rcases put _ h with h | h
        · exact .inl (List.mem_cons_of_mem _ h)
        · exact .inr h
      · rcases List.mem_cons.mp h with h | h
        · exact .inl (List.mem_cons.mpr (.inl h))
        · rcases ih h with h | h
          · exact .inl (List.mem_cons_of_mem _ h)
          · exact .inr h

/-- Putting a pair keeps the keys rising. -/
theorem putPair_rising (k v : Nat) {l : List (Nat × Nat)} (h : (l.map (·.1)).Pairwise (· < ·)) :
    ((putPair k v l).map (·.1)).Pairwise (· < ·) := by
  induction l with
  | nil => simp only [putPair]; split <;> simp
  | cons q l ih =>
    rw [List.map_cons, List.pairwise_cons] at h
    obtain ⟨h1, h2⟩ := h
    simp only [putPair]
    split
    · rename_i hk
      split
      · rw [List.map_cons, List.pairwise_cons]; exact ⟨h1, h2⟩
      · rw [List.map_cons, List.map_cons, List.pairwise_cons, List.pairwise_cons]
        refine ⟨fun x hx => ?_, h1, h2⟩
        rcases List.mem_cons.mp hx with rfl | hx
        · exact hk
        · exact Nat.lt_trans hk (h1 x hx)
    · split
      · rename_i hk
        split
        · exact h2
        · rw [List.map_cons, List.pairwise_cons]
          exact ⟨fun x hx => by rw [hk]; exact h1 x hx, h2⟩
      · rename_i hk hk2
        rw [List.map_cons, List.pairwise_cons]
        refine ⟨fun x hx => ?_, ih h2⟩
        obtain ⟨p, hp, rfl⟩ := List.mem_map.mp hx
        rcases mem_putPair hp with hp | hp
        · exact h1 _ (List.mem_map.mpr ⟨p, hp, rfl⟩)
        · rw [hp]; omega

/-- Putting pairs one after another keeps the keys rising. -/
theorem foldl_putPair_rising {es l : List (Nat × Nat)} (h : (l.map (·.1)).Pairwise (· < ·)) :
    ((es.foldl (fun l e => putPair e.1 e.2 l) l).map (·.1)).Pairwise (· < ·) := by
  induction es generalizing l with
  | nil => exact h
  | cons e es ih => exact ih (putPair_rising e.1 e.2 h)

/-- What is left of a rising list is rising. -/
theorem filter_rising {p : Nat × Nat → Bool} {l : List (Nat × Nat)} (h : (l.map (·.1)).Pairwise (· < ·)) :
    ((l.filter p).map (·.1)).Pairwise (· < ·) := h.sublist (List.filter_sublist.map _)

theorem State.setMap_evolves {s0 s : State} (lun v : Nat) (hs : Evolves s0 s) : Evolves s0 (State.setMap lun v s) :=
  hs.with_ftl fun k => ⟨putPair_rising lun v k.1, k.2⟩

theorem State.bindUnit_evolves {s0 s : State} (die : Nat) (unit : Nat) (hs : Evolves s0 s) :
    Evolves s0 (State.bindUnit die unit s) := by
  unfold State.bindUnit
  repeat' (first
      | with_reducible assumption | exact fun k_ => k_.of_map rfl | exact fun k_ => k_
      | (intro k_; simpa [Ftl.Ok] using k_) | (intro _ _ _; (try dsimp -zeta only))
      | (intro _; (try dsimp -zeta only)) | split | with_reducible apply Evolves.with_ftl)

theorem State.unbindUnit_evolves {s0 s : State} (die : Nat) (unit : Nat) (hs : Evolves s0 s) :
    Evolves s0 (State.unbindUnit die unit s) := by
  unfold State.unbindUnit
  repeat' (first
      | with_reducible assumption | exact fun k_ => k_.of_map rfl | exact fun k_ => k_
      | (intro k_; simpa [Ftl.Ok] using k_) | (intro _ _ _; (try dsimp -zeta only))
      | (intro _; (try dsimp -zeta only)) | split | with_reducible apply Evolves.with_ftl)

theorem State.updSet_evolves {s0 s : State} (gen : Nat) (f : OpenSet → OpenSet) (hs : Evolves s0 s) :
    Evolves s0 (State.updSet gen f s) := by
  unfold State.updSet
  repeat' (first
      | with_reducible assumption | exact fun k_ => k_.of_map rfl | exact fun k_ => k_
      | (intro k_; simpa [Ftl.Ok] using k_) | (intro _ _ _; (try dsimp -zeta only))
      | (intro _; (try dsimp -zeta only)) | split | with_reducible apply Evolves.with_ftl)

theorem State.openSet_evolves {s0 s : State} (g : Nat) (st : Nat) (slc : Bool) (hs : Evolves s0 s) :
    Evolves s0 (State.openSet g st slc s) := by
  unfold State.openSet
  repeat' (first
      | with_reducible assumption | with_reducible apply State.updEunit_evolves
      | with_reducible apply State.bindUnit_evolves | with_reducible apply Evolves.foldl
      | exact fun k_ => k_.of_map rfl | exact fun k_ => k_ | (intro k_; simpa [Ftl.Ok] using k_)
      | (intro _ _ _; (try dsimp -zeta only)) | (intro _; (try dsimp -zeta only)) | split
      | with_reducible apply Evolves.with_ftl)

theorem State.readySet_evolves {s0 s : State} (g : Nat) (st : Nat) (slc : Bool) (hs : Evolves s0 s) :
    Evolves s0 (State.readySet g st slc s) := by
  unfold State.readySet
  repeat' (first
      | with_reducible assumption | with_reducible apply State.updSet_evolves
      | with_reducible apply State.openSet_evolves | (intro _ _ _; (try dsimp -zeta only))
      | (intro _; (try dsimp -zeta only)) | split)

theorem State.queuePage_evolves {s0 s : State} (prio : DiePrio) (owner : DieOpOwner) (img : PageImage) (e : EraseUnit)
    (hs : Evolves s0 s) :
    Evolves s0 (State.queuePage prio owner img e s).2 := by
  unfold State.queuePage
  repeat' (first
      | with_reducible assumption | with_reducible apply State.queueOp_evolves
      | with_reducible apply State.queueBlank_evolves | (intro _ _ _; (try dsimp -zeta only))
      | (intro _; (try dsimp -zeta only)) | split)

theorem State.queuePage_evolves_of {s0 s : State} {prio : DiePrio} {owner : DieOpOwner} {img : PageImage}
    {e : EraseUnit} {k_} {r_} (e_ : State.queuePage prio owner img e s = (k_, r_)) (hs : Evolves s0 s) : Evolves s0
    r_ := by
  have := State.queuePage_evolves prio owner img e hs
  rwa [e_] at this

theorem State.flushPart_evolves {s0 s : State} (prio : DiePrio) (gen : Nat) (hs : Evolves s0 s) :
    Evolves s0 (State.flushPart prio gen s) := by
  unfold State.flushPart
  repeat' (first
      | with_reducible assumption | with_reducible apply State.updSet_evolves
      | with_reducible apply State.queuePage_evolves
      | refine State.queuePage_evolves_of (by with_reducible assumption) ?_ | (intro _ _ _; (try dsimp -zeta only))
      | (intro _; (try dsimp -zeta only)) | split)

theorem State.placePage_evolves {s0 s : State} (prio : DiePrio) (g : Nat) (st : Nat) (slc : Bool) (owner : DieOpOwner)
    (img : PageImage) (hs : Evolves s0 s) :
    Evolves s0 (State.placePage prio g st slc owner img s).2 := by
  unfold State.placePage
  repeat' (first
      | with_reducible assumption | (have : Evolves _ t_ := h_; clear_value t_)
      | with_reducible apply State.readySet_evolves | with_reducible apply State.queuePage_evolves
      | with_reducible apply State.flushPart_evolves
      | refine State.queuePage_evolves_of (by with_reducible assumption) ?_ | (intro _ _ _; (try dsimp -zeta only))
      | (intro _; (try dsimp -zeta only))
      | (extract_lets +onlyGivenNames t_; (refine_lift have h_ : Evolves s0 t_ := ?_; ?_); rotate_left; dsimp -zeta only [t_])
      | (extract_lets +onlyGivenNames t_; (refine_lift have h_ : Evolves s0 t_.2 := ?_; ?_); rotate_left; dsimp -zeta only [t_])
      | (extract_lets +onlyGivenNames t_) | split)

theorem State.placePage_evolves_of {s0 s : State} {prio : DiePrio} {g : Nat} {st : Nat} {slc : Bool}
    {owner : DieOpOwner} {img : PageImage} {k_} {r_} (e_ : State.placePage prio g st slc owner img s = (k_, r_))
    (hs : Evolves s0 s) : Evolves s0 r_ := by
  have := State.placePage_evolves prio g st slc owner img hs
  rwa [e_] at this

theorem State.pack_evolves {s0 s : State} (prio : DiePrio) (gen : Nat) (id : Nat) (metas : List SectorMeta)
    (bs : Bytes) (n0_ : Nat) (hs : Evolves s0 s) :
    Evolves s0 (State.pack prio gen id metas bs n0_ s).2 := by
  induction n0_ generalizing prio gen id metas bs s with
  | zero => unfold State.pack; exact hs
  | succ k_ ih_ =>
  unfold State.pack
  repeat' (first
      | with_reducible assumption | with_reducible apply ih_ | (have : Evolves _ t_ := h_; clear_value t_)
      | with_reducible apply State.updSet_evolves | with_reducible apply State.flushPart_evolves
      | (intro k_; simpa +zetaDelta using k_) | (intro _ _ _; (try dsimp -zeta only))
      | (intro _; (try dsimp -zeta only))
      | (extract_lets +onlyGivenNames t_; (refine_lift have h_ : Evolves s0 t_ := ?_; ?_); rotate_left; dsimp -zeta only [t_])
      | (extract_lets +onlyGivenNames t_; (refine_lift have h_ : Evolves s0 t_.2 := ?_; ?_); rotate_left; dsimp -zeta only [t_])
      | (extract_lets +onlyGivenNames t_) | split | (clear_value *; split) | exact List.Subset.refl _
      | (simp +zetaDelta; done))

theorem State.pack_evolves_of {s0 s : State} {prio : DiePrio} {gen : Nat} {id : Nat} {metas : List SectorMeta}
    {bs : Bytes} {n0_ : Nat} {k_} {r_} (e_ : State.pack prio gen id metas bs n0_ s = (k_, r_)) (hs : Evolves s0 s) :
    Evolves s0 r_ := by
  have := State.pack_evolves prio gen id metas bs n0_ hs
  rwa [e_] at this

theorem State.placeUnit_evolves {s0 s : State} (prio : DiePrio) (g : Nat) (st : Nat) (slc : Bool) (id : Nat)
    (lun : Nat) (wseq : Nat) (bs : Bytes) (packed : Bool) (hs : Evolves s0 s) :
    Evolves s0 (State.placeUnit prio g st slc id lun wseq bs packed s).2 := by
  unfold State.placeUnit
  repeat' (first
      | with_reducible assumption | (have : Evolves _ t_ := h_; clear_value t_)
      | with_reducible apply State.readySet_evolves | with_reducible apply State.placePage_evolves
      | with_reducible apply State.pack_evolves | refine State.placePage_evolves_of (by with_reducible assumption) ?_
      | refine State.pack_evolves_of (by with_reducible assumption) ?_ | (intro _ _ _; (try dsimp -zeta only))
      | (intro _; (try dsimp -zeta only))
      | (extract_lets +onlyGivenNames t_; (refine_lift have h_ : Evolves s0 t_ := ?_; ?_); rotate_left; dsimp -zeta only [t_])
      | (extract_lets +onlyGivenNames t_; (refine_lift have h_ : Evolves s0 t_.2 := ?_; ?_); rotate_left; dsimp -zeta only [t_])
      | (extract_lets +onlyGivenNames t_) | split)

theorem State.placeUnit_evolves_of {s0 s : State} {prio : DiePrio} {g : Nat} {st : Nat} {slc : Bool} {id : Nat}
    {lun : Nat} {wseq : Nat} {bs : Bytes} {packed : Bool} {k_} {r_}
    (e_ : State.placeUnit prio g st slc id lun wseq bs packed s = (k_, r_)) (hs : Evolves s0 s) : Evolves s0 r_ :=
    by
  have := State.placeUnit_evolves prio g st slc id lun wseq bs packed hs
  rwa [e_] at this

theorem State.refillParity_evolves {s0 s : State} (d : Die) (hs : Evolves s0 s) :
    Evolves s0 (State.refillParity d s) := by
  unfold State.refillParity
  repeat' (first
      | with_reducible assumption | with_reducible apply State.startErase_evolves
      | (intro _ _ _; (try dsimp -zeta only)) | (intro _; (try dsimp -zeta only)) | split)

theorem State.askParity_evolves {s0 s : State} (r : Row) (hs : Evolves s0 s) : Evolves s0 (State.askParity r s) := by
  unfold State.askParity
  dsimp only
  split
  · exact State.refillParity_evolves _ hs
  · exact State.refillParity_evolves _ ((State.queuePage_evolves _ _ _ _ hs).with_ftl fun k => k)

theorem State.issueParity_evolves {s0 s : State} (hs : Evolves s0 s) :
    Evolves s0 (State.issueParity s) := by
  unfold State.issueParity
  repeat' (first
      | with_reducible assumption | with_reducible apply State.askParity_evolves | with_reducible apply Evolves.foldl
      | (intro _ _ _; (try dsimp -zeta only)) | (intro _; (try dsimp -zeta only)) | split)

theorem State.closeUnit_evolves {s0 s : State} (e : EraseUnit) (hs : Evolves s0 s) :
    Evolves s0 (State.closeUnit e s) := by
  unfold State.closeUnit
  repeat' (first
      | with_reducible assumption | with_reducible apply State.updEunit_evolves
      | with_reducible apply State.unbindUnit_evolves | (intro _ _ _; (try dsimp -zeta only))
      | (intro _; (try dsimp -zeta only)) | split)

theorem State.closeSet_evolves {s0 s : State} (o : OpenSet) (hs : Evolves s0 s) :
    Evolves s0 (State.closeSet o s) := by
  unfold State.closeSet
  repeat' (first
      | with_reducible assumption | with_reducible apply State.queuePage_evolves
      | with_reducible apply State.flushPart_evolves | with_reducible apply State.closeUnit_evolves
      | refine State.queuePage_evolves_of (by with_reducible assumption) ?_ | with_reducible apply Evolves.foldl
      | exact fun k_ => k_.of_map rfl | exact fun k_ => k_ | (intro k_; simpa [Ftl.Ok] using k_)
      | (intro _ _ _; (try dsimp -zeta only)) | (intro _; (try dsimp -zeta only)) | split
      | with_reducible apply Evolves.with_ftl)

theorem State.closeSets_evolves {s0 s : State} (hs : Evolves s0 s) :
    Evolves s0 (State.closeSets s) := by
  unfold State.closeSets
  repeat' (first
      | with_reducible assumption | with_reducible apply State.closeSet_evolves | with_reducible apply Evolves.foldl
      | (intro _ _ _; (try dsimp -zeta only)) | (intro _; (try dsimp -zeta only)) | split)

theorem State.leaveSet_evolves {s0 s : State} (d : Die) (u : Nat) (hs : Evolves s0 s) :
    Evolves s0 (State.leaveSet d u s) := by
  unfold State.leaveSet
  repeat' (first
      | with_reducible assumption | exact fun k_ => k_.of_map rfl | exact fun k_ => k_
      | (intro k_; simpa [Ftl.Ok] using k_) | (intro _ _ _; (try dsimp -zeta only))
      | (intro _; (try dsimp -zeta only)) | split | with_reducible apply Evolves.with_ftl)

theorem State.closeSetOf_evolves {s0 s : State} (e : EraseUnit) (hs : Evolves s0 s) :
    Evolves s0 (State.closeSetOf e s) := by
  unfold State.closeSetOf
  repeat' (first
      | with_reducible assumption | with_reducible apply State.updSet_evolves | (intro _ _ _; (try dsimp -zeta only))
      | (intro _; (try dsimp -zeta only)) | split)

theorem State.noteWritten_evolves {s0 s : State} (hs : Evolves s0 s) :
    Evolves s0 (State.noteWritten s) := by
  unfold State.noteWritten
  repeat' (first
      | with_reducible assumption | exact fun k_ => k_.of_map rfl | exact fun k_ => k_
      | (intro k_; simpa [Ftl.Ok] using k_) | (intro _ _ _; (try dsimp -zeta only))
      | (intro _; (try dsimp -zeta only)) | split | with_reducible apply Evolves.with_ftl)

theorem State.sendUnit_evolves {s0 s : State} (prio : DiePrio) (item : StoreItem) (g st : Nat) (slc : Bool) (lun : Nat)
    (bs : Bytes) (packed : Bool) (hs : Evolves s0 s) :
    Evolves s0 (State.sendUnit prio item g st slc lun bs packed s).2 := by
  have hp := fun o i => State.placePage_evolves prio g st slc o i hs
  have hu := fun i w => State.placeUnit_evolves prio g st slc i lun w bs packed hs
  unfold State.sendUnit
  cases item <;> dsimp only <;> split
  all_goals first
    | exact hp _ _
    | exact hu _ _
    | exact (hp _ _).with_ftl fun k => k.of_map rfl
    | exact (hu _ _).with_ftl fun k => k.of_map rfl

theorem State.sendUnit_evolves_of {s0 s : State} {prio : DiePrio} {item : StoreItem} {g st : Nat} {slc : Bool} {lun : Nat}
    {bs : Bytes} {packed : Bool} {k_} {r_} (e_ : State.sendUnit prio item g st slc lun bs packed s = (k_, r_))
    (hs : Evolves s0 s) : Evolves s0 r_ := by
  have := State.sendUnit_evolves prio item g st slc lun bs packed hs
  rwa [e_] at this

theorem State.dropStores_evolves {s0 s : State} (p : StoreRec → Bool) (hs : Evolves s0 s) :
    Evolves s0 (State.dropStores p s) := by
  unfold State.dropStores
  repeat' (first
      | with_reducible assumption | exact fun k_ => k_.of_map rfl | exact fun k_ => k_
      | (intro k_; simpa [Ftl.Ok] using k_) | (intro _ _ _; (try dsimp -zeta only))
      | (intro _; (try dsimp -zeta only)) | split | with_reducible apply Evolves.with_ftl)

theorem State.storeMove_evolves {s0 s : State} (prio : DiePrio) (g : Nat) (lun : Nat) (hs : Evolves s0 s) :
    Evolves s0 (State.storeMove prio g lun s) := by
  unfold State.storeMove
  repeat' (first
      | with_reducible assumption | with_reducible apply State.sendUnit_evolves
      | refine State.sendUnit_evolves_of (by with_reducible assumption) ?_ | (intro _ _ _; (try dsimp -zeta only))
      | (intro _; (try dsimp -zeta only)) | split)

theorem State.rehome_evolves {s0 s : State} (lun : Nat) (hs : Evolves s0 s) :
    Evolves s0 (State.rehome lun s) := by
  unfold State.rehome
  repeat' (first
      | with_reducible assumption | with_reducible apply State.storeMove_evolves
      | (intro _ _ _; (try dsimp -zeta only)) | (intro _; (try dsimp -zeta only)) | split)

theorem State.installStore_evolves {s0 s : State} (r : StoreRec) (hs : Evolves s0 s) :
    Evolves s0 (State.installStore r s) := by
  unfold State.installStore
  repeat' (first
      | with_reducible assumption | with_reducible apply State.setMap_evolves | exact fun k_ => k_.of_map rfl
      | exact fun k_ => k_ | (intro k_; simpa [Ftl.Ok] using k_) | (intro _ _ _; (try dsimp -zeta only))
      | (intro _; (try dsimp -zeta only)) | split | with_reducible apply Evolves.with_ftl)

theorem State.memberPass_evolves {s0 s : State} (o : DieOp) (hs : Evolves s0 s) :
    Evolves s0 (State.memberPass o s) := by
  unfold State.memberPass
  repeat' (first
      | with_reducible assumption | with_reducible apply Evolves.foldl | exact fun k_ => k_.of_map rfl
      | exact fun k_ => k_ | (intro k_; simpa [Ftl.Ok] using k_) | (intro _ _ _; (try dsimp -zeta only))
      | (intro _; (try dsimp -zeta only)) | split | with_reducible apply Evolves.with_ftl)

theorem State.storePass_evolves {s0 s : State} (o : DieOp) (hs : Evolves s0 s) :
    Evolves s0 (State.storePass o s) := by
  unfold State.storePass
  repeat' (first
      | with_reducible assumption | with_reducible apply State.installStore_evolves
      | with_reducible apply State.memberPass_evolves | with_reducible apply Evolves.foldl
      | (intro _ _ _; (try dsimp -zeta only)) | (intro _; (try dsimp -zeta only)) | split)

theorem State.replace_evolves {s0 s : State} (prio : DiePrio) (r : StoreRec) (hs : Evolves s0 s) :
    Evolves s0 (State.replace prio r s) := by
  unfold State.replace
  dsimp only
  have hd := State.dropStores_evolves (·.id = r.id) hs
  split
  · split
    · exact hd
    · split
      · exact hd
      · exact (State.placeUnit_evolves _ _ _ _ _ _ _ _ _ hd).with_ftl fun k => k.of_map rfl
  · exact (State.placePage_evolves _ _ _ _ _ _ hd).with_ftl fun k => k.of_map rfl
  · exact (State.placeUnit_evolves _ _ _ _ _ _ _ _ _ hd).with_ftl fun k => k.of_map rfl

theorem State.replaceIn_evolves {s0 s : State} (prio : DiePrio) (d : Die) (u : Nat) (hs : Evolves s0 s) :
    Evolves s0 (State.replaceIn prio d u s) := by
  unfold State.replaceIn
  repeat' (first
      | with_reducible assumption | with_reducible apply State.replace_evolves | with_reducible apply Evolves.foldl
      | (intro _ _ _; (try dsimp -zeta only)) | (intro _; (try dsimp -zeta only)) | split)

theorem State.retryStores_evolves {s0 s : State} (hs : Evolves s0 s) :
    Evolves s0 (State.retryStores s) := by
  unfold State.retryStores
  repeat' (first
      | with_reducible assumption | with_reducible apply State.replace_evolves | with_reducible apply Evolves.foldl
      | (intro _ _ _; (try dsimp -zeta only)) | (intro _; (try dsimp -zeta only)) | split)

theorem State.fitSlc_evolves {s0 s : State} (hs : Evolves s0 s) :
    Evolves s0 (State.fitSlc s) := by
  unfold State.fitSlc
  repeat' (first
      | with_reducible assumption | exact fun k_ => k_.of_map rfl | exact fun k_ => k_
      | (intro k_; simpa [Ftl.Ok] using k_) | (intro _ _ _; (try dsimp -zeta only))
      | (intro _; (try dsimp -zeta only)) | split | with_reducible apply Evolves.with_ftl)

theorem State.fitRegion_evolves {s0 s : State} (d : Die) (hs : Evolves s0 s) :
    Evolves s0 (State.fitRegion d s) := by
  unfold State.fitRegion
  repeat' (first
      | with_reducible assumption | (have : Evolves _ t_ := h_; clear_value t_)
      | with_reducible apply State.startErase_evolves | (intro _ _ _; (try dsimp -zeta only))
      | (intro _; (try dsimp -zeta only))
      | (extract_lets +onlyGivenNames t_; (refine_lift have h_ : Evolves s0 t_ := ?_; ?_); rotate_left; dsimp -zeta only [t_])
      | (extract_lets +onlyGivenNames t_; (refine_lift have h_ : Evolves s0 t_.2 := ?_; ?_); rotate_left; dsimp -zeta only [t_])
      | (extract_lets +onlyGivenNames t_) | split)

theorem State.noteProtection_evolves {s0 s : State} (hs : Evolves s0 s) :
    Evolves s0 (State.noteProtection s) := by
  unfold State.noteProtection
  repeat' (first
      | with_reducible assumption | with_reducible apply State.raise_evolves | exact fun k_ => k_.of_map rfl
      | exact fun k_ => k_ | (intro k_; simpa [Ftl.Ok] using k_) | (intro _ _ _; (try dsimp -zeta only))
      | (intro _; (try dsimp -zeta only)) | split | with_reducible apply Evolves.with_ftl)

theorem State.admitUnit_evolves {s0 s : State} (g : Nat) (hs : Evolves s0 s) :
    Evolves s0 (State.admitUnit g s) := by
  unfold State.admitUnit
  repeat' (first
      | with_reducible assumption | exact fun k_ => k_.of_map rfl | exact fun k_ => k_
      | (intro k_; simpa [Ftl.Ok] using k_) | (intro _ _ _; (try dsimp -zeta only))
      | (intro _; (try dsimp -zeta only)) | split | with_reducible apply Evolves.with_ftl)

theorem State.someGroup_evolves {s0 s : State} (hs : Evolves s0 s) :
    Evolves s0 (State.someGroup s).2 := by
  unfold State.someGroup
  repeat' (first
      | with_reducible assumption | with_reducible apply State.takeFree_evolves
      | refine State.takeFree_evolves_of (by with_reducible assumption) ?_ | (intro _ _ _; (try dsimp -zeta only))
      | (intro _; (try dsimp -zeta only)) | split)

theorem State.someGroup_evolves_of {s0 s : State}  {k_} {r_} (e_ : State.someGroup s = (k_, r_)) (hs : Evolves s0 s)
    : Evolves s0 r_ := by
  have := State.someGroup_evolves hs
  rwa [e_] at this

theorem State.storeHost_evolves {s0 s : State} (item : StoreItem) (lun : Nat) (bs : Bytes) (hs : Evolves s0 s) :
    Evolves s0 (State.storeHost item lun bs s).2 := by
  unfold State.storeHost
  repeat' (first
      | with_reducible assumption | (have : Evolves _ t_ := h_; clear_value t_)
      | with_reducible apply State.sendUnit_evolves | with_reducible apply State.admitUnit_evolves
      | with_reducible apply State.someGroup_evolves
      | refine State.sendUnit_evolves_of (by with_reducible assumption) ?_
      | refine State.someGroup_evolves_of (by with_reducible assumption) ?_ | (intro _ _ _; (try dsimp -zeta only))
      | (intro _; (try dsimp -zeta only))
      | (extract_lets +onlyGivenNames t_; (refine_lift have h_ : Evolves s0 t_ := ?_; ?_); rotate_left; dsimp -zeta only [t_])
      | (extract_lets +onlyGivenNames t_; (refine_lift have h_ : Evolves s0 t_.2 := ?_; ?_); rotate_left; dsimp -zeta only [t_])
      | (extract_lets +onlyGivenNames t_) | split)

theorem State.storeHost_evolves_of {s0 s : State} {item : StoreItem} {lun : Nat} {bs : Bytes} {k_} {r_}
    (e_ : State.storeHost item lun bs s = (k_, r_)) (hs : Evolves s0 s) : Evolves s0 r_ := by
  have := State.storeHost_evolves item lun bs hs
  rwa [e_] at this

theorem State.rejournal_evolves {s0 s : State} (ms : List Nat) (hs : Evolves s0 s) :
    Evolves s0 (State.rejournal ms s) := by
  unfold State.rejournal
  repeat' (first
      | with_reducible assumption | with_reducible apply Evolves.foldl | exact fun k_ => k_.of_map rfl
      | exact fun k_ => k_ | (intro k_; simpa [Ftl.Ok] using k_) | (intro _ _ _; (try dsimp -zeta only))
      | (intro _; (try dsimp -zeta only)) | split | with_reducible apply Evolves.with_ftl)

theorem State.relocateUnit_evolves {s0 s : State} (prio : DiePrio) (e : EraseUnit) (hs : Evolves s0 s) :
    Evolves s0 (State.relocateUnit prio e s) := by
  unfold State.relocateUnit
  repeat' (first
      | with_reducible assumption | with_reducible apply State.updEunit_evolves
      | with_reducible apply State.storeMove_evolves | with_reducible apply State.rejournal_evolves
      | with_reducible apply Evolves.foldl | (intro _ _ _; (try dsimp -zeta only)) | (intro _; (try dsimp -zeta only))
      | split)

theorem State.retryMoves_evolves {s0 s : State} (hs : Evolves s0 s) :
    Evolves s0 (State.retryMoves s) := by
  unfold State.retryMoves
  repeat' (first
      | with_reducible assumption | with_reducible apply State.storeMove_evolves | with_reducible apply Evolves.foldl
      | (intro _ _ _; (try dsimp -zeta only)) | (intro _; (try dsimp -zeta only)) | split)

theorem State.eraseReclaimed_evolves {s0 s : State} (hs : Evolves s0 s) :
    Evolves s0 (State.eraseReclaimed s) := by
  unfold State.eraseReclaimed
  repeat' (first
      | with_reducible assumption | with_reducible apply State.updEunit_evolves
      | with_reducible apply State.startErase_evolves | with_reducible apply State.unbindUnit_evolves
      | with_reducible apply Evolves.foldl | (intro _ _ _; (try dsimp -zeta only)) | (intro _; (try dsimp -zeta only))
      | split)

theorem State.twoCopies_evolves {s0 s : State} (owner : DieOpOwner) (hs : Evolves s0 s) :
    Evolves s0 (State.twoCopies owner s) := by
  unfold State.twoCopies
  repeat' (first
      | with_reducible assumption | with_reducible apply State.placePage_evolves
      | refine State.placePage_evolves_of (by with_reducible assumption) ?_ | with_reducible apply Evolves.foldl
      | exact fun k_ => k_.of_map rfl | exact fun k_ => k_ | (intro k_; simpa [Ftl.Ok] using k_)
      | (intro _ _ _; (try dsimp -zeta only)) | (intro _; (try dsimp -zeta only)) | split
      | with_reducible apply Evolves.with_ftl)

theorem State.checkpoint_evolves {s0 s : State} (hs : Evolves s0 s) :
    Evolves s0 (State.checkpoint s) := by
  unfold State.checkpoint
  repeat' (first
      | with_reducible assumption | with_reducible apply State.twoCopies_evolves | exact fun k_ => k_.of_map rfl
      | exact fun k_ => k_ | (intro k_; simpa [Ftl.Ok] using k_) | (intro _ _ _; (try dsimp -zeta only))
      | (intro _; (try dsimp -zeta only)) | split | with_reducible apply Evolves.with_ftl)

theorem State.swapDusk_evolves {s0 s : State} (hs : Evolves s0 s) :
    Evolves s0 (State.swapDusk s) := by
  unfold State.swapDusk
  repeat' (first
      | with_reducible assumption | with_reducible apply State.updEunit_evolves
      | with_reducible apply State.queueBlank_evolves | exact fun k_ => k_.of_map rfl | exact fun k_ => k_
      | (intro k_; simpa [Ftl.Ok] using k_) | (intro _ _ _; (try dsimp -zeta only))
      | (intro _; (try dsimp -zeta only)) | split | with_reducible apply Evolves.with_ftl)

theorem State.settleCheckpoint_evolves {s0 s : State} (hs : Evolves s0 s) :
    Evolves s0 (State.settleCheckpoint s) := by
  unfold State.settleCheckpoint
  repeat' (first
      | with_reducible assumption | with_reducible apply State.checkpoint_evolves
      | with_reducible apply State.swapDusk_evolves | exact fun k_ => k_.of_map rfl | exact fun k_ => k_
      | (intro k_; simpa [Ftl.Ok] using k_) | (intro _ _ _; (try dsimp -zeta only))
      | (intro _; (try dsimp -zeta only)) | split | with_reducible apply Evolves.with_ftl)

theorem State.checkpointDue_evolves {s0 s : State} (hs : Evolves s0 s) : Evolves s0 (State.checkpointDue s) := by
  unfold State.checkpointDue
  split
  · extract_lets t
    have ht : Evolves s0 t := State.checkpoint_evolves hs
    clear_value t
    exact ht.with_ftl fun k => k.of_map rfl
  · exact hs

theorem State.writeRepairs_evolves {s0 s : State} (hs : Evolves s0 s) :
    Evolves s0 (State.writeRepairs s) := by
  unfold State.writeRepairs
  repeat' (first
      | with_reducible assumption | with_reducible apply State.twoCopies_evolves | exact fun k_ => k_
      | (intro k_; simpa [ErrState.Ok] using k_) | (intro _ _ _; (try dsimp -zeta only))
      | (intro _; (try dsimp -zeta only)) | split | with_reducible apply Evolves.with_err)

end Sys2Proof.Machine
end

