-- ==== Sys2Proof/Laws/EvolvesTier.lean ====
section
/-! SUPPORT. Every operation on service units, the tiers and write-back: the state it gives evolves from the state
it is given (Safety.lean). One lemma per operation, citing the lemmas of the operations it calls. The proofs are elaborated in turn: in
parallel they wait for each other, in more threads than there is memory for. -/
namespace Sys2Proof.Machine

set_option Elab.async false

/-! ### Machine/Units.lean -/

theorem State.noteShort_evolves {s0 s : State} (hs : Evolves s0 s) :
    Evolves s0 (State.noteShort s) := by
  unfold State.noteShort
  repeat' (first
      | with_reducible assumption | exact fun k_ => k_ | (intro k_; simpa [Sched.Ok] using k_)
      | (intro _ _ _; (try dsimp -zeta only)) | (intro _; (try dsimp -zeta only)) | split
      | with_reducible apply Evolves.with_sched)

theorem State.updUnit_evolves {s0 s : State} (k : UnitKind) (p : Nat) (f : SvcUnit → SvcUnit) (hs : Evolves s0 s) :
    Evolves s0 (State.updUnit k p f s) := by
  unfold State.updUnit
  repeat' (first
      | with_reducible assumption | with_reducible apply State.noteShort_evolves
      | (intro _ _ _; (try dsimp -zeta only)) | (intro _; (try dsimp -zeta only)) | split
      | with_reducible apply Evolves.with_units)

theorem State.takeClosure_evolves {s0 s : State} (hs : Evolves s0 s) :
    Evolves s0 (State.takeClosure s) := by
  unfold State.takeClosure
  repeat' (first
      | with_reducible assumption | exact fun k_ => k_ | (intro k_; simpa [ErrState.Ok] using k_)
      | (intro _ _ _; (try dsimp -zeta only)) | (intro _; (try dsimp -zeta only)) | split
      | with_reducible apply Evolves.with_err)

theorem State.noteUnits_evolves {s0 s : State} (hs : Evolves s0 s) :
    Evolves s0 (State.noteUnits s) := by
  unfold State.noteUnits
  repeat' (first
      | with_reducible assumption | with_reducible apply State.writeRepairs_evolves | exact fun k_ => k_
      | (intro k_; simpa [ErrState.Ok] using k_) | (intro _ _ _; (try dsimp -zeta only))
      | (intro _; (try dsimp -zeta only)) | split | with_reducible apply Evolves.with_err)

theorem State.vacate_evolves {s0 s : State} (k : UnitKind) (n : Nat) (hs : Evolves s0 s) :
    Evolves s0 (State.vacate k n s) := by
  unfold State.vacate
  repeat' (first
      | with_reducible assumption | with_reducible apply State.updUnit_evolves | (intro _ _ _; (try dsimp -zeta only))
      | (intro _; (try dsimp -zeta only)) | split)

theorem State.takeNumber_evolves {s0 s : State} (p : Nat) (hs : Evolves s0 s) :
    Evolves s0 (State.takeNumber p s) := by
  unfold State.takeNumber
  repeat' (first
      | with_reducible assumption | with_reducible apply State.updUnit_evolves | (intro _ _ _; (try dsimp -zeta only))
      | (intro _; (try dsimp -zeta only)) | split)

theorem State.settleNumbers_evolves {s0 s : State} (hs : Evolves s0 s) :
    Evolves s0 (State.settleNumbers s) := by
  unfold State.settleNumbers
  repeat' (first
      | with_reducible assumption | with_reducible apply State.takeNumber_evolves | with_reducible apply Evolves.foldl
      | (intro _ _ _; (try dsimp -zeta only)) | (intro _; (try dsimp -zeta only)) | split)

theorem State.moveServices_evolves {s0 s : State} (p : Nat) (spare : Option Nat) (hs : Evolves s0 s) :
    Evolves s0 (State.moveServices p spare s) := by
  unfold State.moveServices
  repeat' (first
      | with_reducible assumption | (intro _ _ _; (try dsimp -zeta only)) | (intro _; (try dsimp -zeta only)) | split
      | with_reducible apply Evolves.with_docent)

theorem State.closeNumber_evolves {s0 s : State} (k : UnitKind) (p : Nat) (hs : Evolves s0 s) :
    Evolves s0 (State.closeNumber k p s) := by
  unfold State.closeNumber
  repeat' (first
      | with_reducible assumption | (have : Evolves _ t_ := h_; clear_value t_)
      | with_reducible apply State.updUnit_evolves | with_reducible apply State.vacate_evolves
      | with_reducible apply State.moveServices_evolves | (intro k_; simpa +zetaDelta using k_)
      | (intro _ _ _; (try dsimp -zeta only)) | (intro _; (try dsimp -zeta only))
      | (extract_lets +onlyGivenNames t_; (refine_lift have h_ : Evolves s0 t_ := ?_; ?_); rotate_left; dsimp -zeta only [t_])
      | (extract_lets +onlyGivenNames t_; (refine_lift have h_ : Evolves s0 t_.2 := ?_; ?_); rotate_left; dsimp -zeta only [t_])
      | (extract_lets +onlyGivenNames t_) | split | (clear_value *; split) | exact List.Subset.refl _
      | (simp +zetaDelta; done))

theorem State.finishUnitCmds_evolves {s0 s : State} (k : UnitKind) (p : Nat) (opcode : Nat) (st : Status)
    (result : Nat) (hs : Evolves s0 s) :
    Evolves s0 (State.finishUnitCmds k p opcode st result s) := by
  unfold State.finishUnitCmds
  repeat' (first
      | with_reducible assumption | with_reducible apply State.updSlot_evolves
      | with_reducible apply State.finish_evolves | with_reducible apply Evolves.foldl
      | (intro _ _ _; (try dsimp -zeta only)) | (intro _; (try dsimp -zeta only)) | split)

theorem State.finishListed_evolves {s0 s : State} (hs : Evolves s0 s) :
    Evolves s0 (State.finishListed s) := by
  unfold State.finishListed
  repeat' (first
      | with_reducible assumption | with_reducible apply State.finish_evolves | with_reducible apply Evolves.foldl
      | (intro _ _ _; (try dsimp -zeta only)) | (intro _; (try dsimp -zeta only)) | split)

theorem State.setBudget_evolves {s0 s : State} (hs : Evolves s0 s) :
    Evolves s0 (State.setBudget s) := by
  unfold State.setBudget
  repeat' (first
      | with_reducible assumption | exact fun k_ => k_ | (intro k_; simpa [Tiers.Ok] using k_)
      | (intro _ _ _; (try dsimp -zeta only)) | (intro _; (try dsimp -zeta only)) | split
      | with_reducible apply Evolves.with_tiers)

theorem State.deriveBudget_evolves {s0 s : State} (hs : Evolves s0 s) :
    Evolves s0 (State.deriveBudget s) := by
  unfold State.deriveBudget
  repeat' (first
      | with_reducible assumption | with_reducible apply State.raise_evolves
      | with_reducible apply State.setBudget_evolves | exact fun k_ => k_ | (intro k_; simpa [Tiers.Ok] using k_)
      | (intro _ _ _; (try dsimp -zeta only)) | (intro _; (try dsimp -zeta only)) | split
      | with_reducible apply Evolves.with_tiers)

theorem State.closed_evolves {s0 s : State} (k : UnitKind) (p : Nat) (hs : Evolves s0 s) :
    Evolves s0 (State.closed k p s) := by
  unfold State.closed
  repeat' (first
      | with_reducible assumption | (have : Evolves _ t_ := h_; clear_value t_)
      | with_reducible apply State.handOps_evolves | with_reducible apply State.noteUnits_evolves
      | with_reducible apply State.closeNumber_evolves | with_reducible apply State.finishUnitCmds_evolves
      | with_reducible apply State.deriveBudget_evolves | (intro _ _ _; (try dsimp -zeta only))
      | (intro _; (try dsimp -zeta only))
      | (extract_lets +onlyGivenNames t_; (refine_lift have h_ : Evolves s0 t_ := ?_; ?_); rotate_left; dsimp -zeta only [t_])
      | (extract_lets +onlyGivenNames t_; (refine_lift have h_ : Evolves s0 t_.2 := ?_; ?_); rotate_left; dsimp -zeta only [t_])
      | (extract_lets +onlyGivenNames t_) | split)

theorem State.startDrain_evolves {s0 s : State} (k : UnitKind) (p : Nat) (hs : Evolves s0 s) :
    Evolves s0 (State.startDrain k p s) := by
  unfold State.startDrain
  repeat' (first
      | with_reducible assumption | with_reducible apply State.handOps_evolves
      | with_reducible apply State.updUnit_evolves | with_reducible apply State.takeClosure_evolves
      | with_reducible apply State.noteUnits_evolves | with_reducible apply State.deriveBudget_evolves
      | (intro _ _ _; (try dsimp -zeta only)) | (intro _; (try dsimp -zeta only)) | split)

theorem State.closeFault_evolves {s0 s : State} (cls : Nat) (k : UnitKind) (p : Nat) (hs : Evolves s0 s) :
    Evolves s0 (State.closeFault cls k p s) := by
  unfold State.closeFault
  repeat' (first
      | with_reducible assumption | with_reducible apply State.raise_evolves
      | with_reducible apply State.updUnit_evolves | with_reducible apply State.takeClosure_evolves
      | with_reducible apply State.closed_evolves | (intro _ _ _; (try dsimp -zeta only))
      | (intro _; (try dsimp -zeta only)) | split)

theorem State.drainFault_evolves {s0 s : State} (cls : Nat) (k : UnitKind) (p : Nat) (hs : Evolves s0 s) :
    Evolves s0 (State.drainFault cls k p s) := by
  unfold State.drainFault
  repeat' (first
      | with_reducible assumption | with_reducible apply State.raise_evolves
      | with_reducible apply State.startDrain_evolves | with_reducible apply State.closeFault_evolves
      | (intro _ _ _; (try dsimp -zeta only)) | (intro _; (try dsimp -zeta only)) | split)

theorem State.takeOps_evolves {s0 s : State} (p : Nat) (hs : Evolves s0 s) :
    Evolves s0 (State.takeOps p s) := by
  unfold State.takeOps
  repeat' (first
      | with_reducible assumption | exact fun k_ => k_ | (intro k_; simpa [Flash.Ok] using k_)
      | (intro _ _ _; (try dsimp -zeta only)) | (intro _; (try dsimp -zeta only)) | split
      | with_reducible apply Evolves.with_flash)

theorem State.rejoin_evolves {s0 s : State} (k : UnitKind) (p : Nat) (hs : Evolves s0 s) :
    Evolves s0 (State.rejoin k p s) := by
  unfold State.rejoin
  repeat' (first
      | with_reducible assumption | with_reducible apply State.updUnit_evolves
      | with_reducible apply State.noteUnits_evolves | with_reducible apply State.deriveBudget_evolves
      | with_reducible apply State.takeOps_evolves | (intro _ _ _; (try dsimp -zeta only))
      | (intro _; (try dsimp -zeta only)) | split | with_reducible apply Evolves.with_docent)

/-! ### Machine/Check.lean -/

theorem State.runCmd_evolves {s0 s : State} (id : Nat) (opcode : Nat) (writes : Bool) (f : Slot → State)
    (hs : Evolves s0 s) (hf : ∀ x0, Evolves s0 (f x0)) :
    Evolves s0 (State.runCmd s id opcode writes f) := by
  unfold State.runCmd
  repeat' (first
      | with_reducible assumption | with_reducible apply hf | (intro _ _ _; (try dsimp -zeta only))
      | (intro _; (try dsimp -zeta only)) | split)

theorem State.setWork_evolves {s0 s : State} (id : Nat) (w : Work) (hs : Evolves s0 s) :
    Evolves s0 (State.setWork id w s) := by
  unfold State.setWork
  repeat' (first
      | with_reducible assumption | with_reducible apply State.updSlot_evolves | (intro _ _ _; (try dsimp -zeta only))
      | (intro _; (try dsimp -zeta only)) | split)

theorem State.done_evolves {s0 s : State} (id : Nat) (result : Nat) (hs : Evolves s0 s) :
    Evolves s0 (State.done id result s) := by
  unfold State.done
  repeat' (first
      | with_reducible assumption | with_reducible apply State.finish_evolves | (intro _ _ _; (try dsimp -zeta only))
      | (intro _; (try dsimp -zeta only)) | split)

theorem State.fail_evolves {s0 s : State} (id : Nat) (st : Status) (result : Nat) (hs : Evolves s0 s) :
    Evolves s0 (State.fail id st result s) := by
  unfold State.fail
  repeat' (first
      | with_reducible assumption | with_reducible apply State.finish_evolves | (intro _ _ _; (try dsimp -zeta only))
      | (intro _; (try dsimp -zeta only)) | split)

/-! ### Machine/Tier.lean -/

theorem State.updObj_evolves {s0 s : State} (id : Nat) (f : Obj → Obj) (hs : Evolves s0 s) :
    Evolves s0 (State.updObj id f s) := by
  unfold State.updObj
  repeat' (first
      | with_reducible assumption | exact fun k_ => k_ | (intro k_; simpa [Tiers.Ok] using k_)
      | (intro _ _ _; (try dsimp -zeta only)) | (intro _; (try dsimp -zeta only)) | split
      | with_reducible apply Evolves.with_tiers)

theorem State.updVer_evolves {s0 s : State} (id : Nat) (n : Nat) (f : Version → Version) (hs : Evolves s0 s) :
    Evolves s0 (State.updVer id n f s) := by
  unfold State.updVer
  repeat' (first
      | with_reducible assumption | with_reducible apply State.updObj_evolves | (intro _ _ _; (try dsimp -zeta only))
      | (intro _; (try dsimp -zeta only)) | split)

theorem State.purgeHot_evolves {s0 s : State} (hs : Evolves s0 s) :
    Evolves s0 (State.purgeHot s) := by
  unfold State.purgeHot
  repeat' (first
      | with_reducible assumption | exact fun k_ => k_ | (intro k_; simpa [GatherEngine.Ok] using k_)
      | (intro _ _ _; (try dsimp -zeta only)) | (intro _; (try dsimp -zeta only)) | split
      | with_reducible apply Evolves.with_gather)

theorem State.unmapHome_evolves {s0 s : State} (lun : Nat) (n : Nat) (hs : Evolves s0 s) :
    Evolves s0 (State.unmapHome lun n s) := by
  unfold State.unmapHome
  repeat' (first
      | with_reducible assumption | with_reducible apply State.setMap_evolves
      | with_reducible apply State.dropStores_evolves | with_reducible apply Evolves.foldl
      | (intro _ _ _; (try dsimp -zeta only)) | (intro _; (try dsimp -zeta only)) | split)

theorem State.settleObj_evolves {s0 s : State} (id : Nat) (hs : Evolves s0 s) :
    Evolves s0 (State.settleObj id s) := by
  unfold State.settleObj
  repeat' (first
      | with_reducible assumption | with_reducible apply State.updObj_evolves
      | with_reducible apply State.purgeHot_evolves | with_reducible apply State.unmapHome_evolves
      | with_reducible apply Evolves.foldl | exact fun k_ => k_ | (intro k_; simpa [Tiers.Ok] using k_)
      | (intro _ _ _; (try dsimp -zeta only)) | (intro _; (try dsimp -zeta only)) | split
      | with_reducible apply Evolves.with_tiers)

theorem State.pin_evolves {s0 s : State} (p : Nat × Nat) (hs : Evolves s0 s) :
    Evolves s0 (State.pin p s) := by
  unfold State.pin
  repeat' (first
      | with_reducible assumption | with_reducible apply State.updVer_evolves | (intro _ _ _; (try dsimp -zeta only))
      | (intro _; (try dsimp -zeta only)) | split)

theorem State.unpin_evolves {s0 s : State} (p : Nat × Nat) (hs : Evolves s0 s) :
    Evolves s0 (State.unpin p s) := by
  unfold State.unpin
  repeat' (first
      | with_reducible assumption | with_reducible apply State.updVer_evolves
      | with_reducible apply State.settleObj_evolves | (intro _ _ _; (try dsimp -zeta only))
      | (intro _; (try dsimp -zeta only)) | split)

theorem State.pinAll_evolves {s0 s : State} (ps : List (Nat × Nat)) (hs : Evolves s0 s) :
    Evolves s0 (State.pinAll ps s) := by
  unfold State.pinAll
  repeat' (first
      | with_reducible assumption | with_reducible apply State.pin_evolves | with_reducible apply Evolves.foldl
      | (intro _ _ _; (try dsimp -zeta only)) | (intro _; (try dsimp -zeta only)) | split)

theorem State.unpinAll_evolves {s0 s : State} (ps : List (Nat × Nat)) (hs : Evolves s0 s) :
    Evolves s0 (State.unpinAll ps s) := by
  unfold State.unpinAll
  repeat' (first
      | with_reducible assumption | with_reducible apply State.unpin_evolves | with_reducible apply Evolves.foldl
      | (intro _ _ _; (try dsimp -zeta only)) | (intro _; (try dsimp -zeta only)) | split)

theorem State.retire_evolves {s0 s : State} (id : Nat) (n : Nat) (hs : Evolves s0 s) :
    Evolves s0 (State.retire id n s) := by
  unfold State.retire
  repeat' (first
      | with_reducible assumption | with_reducible apply State.updVer_evolves
      | with_reducible apply State.settleObj_evolves | (intro _ _ _; (try dsimp -zeta only))
      | (intro _; (try dsimp -zeta only)) | split)

theorem State.commit_evolves {s0 s : State} (id : Nat) (n : Nat) (hs : Evolves s0 s) :
    Evolves s0 (State.commit id n s) := by
  unfold State.commit
  repeat' (first
      | with_reducible assumption | with_reducible apply State.updObj_evolves
      | with_reducible apply State.settleObj_evolves | (intro _ _ _; (try dsimp -zeta only))
      | (intro _; (try dsimp -zeta only)) | split)

theorem State.holdVersion_evolves {s0 s : State} (slot : Nat) (id : Nat) (n : Nat) (hs : Evolves s0 s) :
    Evolves s0 (State.holdVersion slot id n s) := by
  unfold State.holdVersion
  repeat' (first
      | with_reducible assumption | with_reducible apply State.updSlot_evolves
      | with_reducible apply State.pin_evolves | (intro _ _ _; (try dsimp -zeta only))
      | (intro _; (try dsimp -zeta only)) | split)

theorem State.takeLuns_evolves {s0 s : State} (size : Nat) (hs : Evolves s0 s) : Evolves s0 (State.takeLuns size s).2 := by
  unfold State.takeLuns
  exact Evolves.with_tiers hs fun k => ⟨k.1, k.2⟩

theorem State.takeLuns_evolves_of {s0 s : State} {size : Nat} {k_} {r_} (e_ : State.takeLuns size s = (k_, r_))
    (hs : Evolves s0 s) : Evolves s0 r_ := by
  have := State.takeLuns_evolves size hs
  rwa [e_] at this

theorem State.newVersion_evolves {s0 s : State} (id : Nat) (n : Nat) (hs : Evolves s0 s) :
    Evolves s0 (State.newVersion id n s) := by
  unfold State.newVersion
  repeat' (first
      | with_reducible assumption | with_reducible apply State.fitSlc_evolves
      | with_reducible apply State.updObj_evolves | with_reducible apply State.takeLuns_evolves
      | refine State.takeLuns_evolves_of (by with_reducible assumption) ?_ | (intro _ _ _; (try dsimp -zeta only))
      | (intro _; (try dsimp -zeta only)) | split)

theorem State.throttle_evolves {s0 s : State} (hs : Evolves s0 s) :
    Evolves s0 (State.throttle s) := by
  unfold State.throttle
  repeat' (first
      | with_reducible assumption | exact fun k_ => k_ | (intro k_; simpa [Tiers.Ok] using k_)
      | (intro _ _ _; (try dsimp -zeta only)) | (intro _; (try dsimp -zeta only)) | split
      | with_reducible apply Evolves.with_tiers)

theorem State.takeCredit_evolves {s0 s : State} (n : Nat) (hs : Evolves s0 s) :
    Evolves s0 (State.takeCredit n s) := by
  unfold State.takeCredit
  repeat' (first
      | with_reducible assumption | with_reducible apply State.throttle_evolves | exact fun k_ => k_
      | (intro k_; simpa [Tiers.Ok] using k_) | (intro _ _ _; (try dsimp -zeta only))
      | (intro _; (try dsimp -zeta only)) | split | with_reducible apply Evolves.with_tiers)

theorem State.startWriteback_evolves {s0 s : State} (ps : List (Nat × Nat × Nat)) (hs : Evolves s0 s) :
    Evolves s0 (State.startWriteback ps s) := by
  unfold State.startWriteback
  repeat' (first
      | with_reducible assumption | with_reducible apply State.updVer_evolves | with_reducible apply Evolves.foldl
      | (intro _ _ _; (try dsimp -zeta only)) | (intro _; (try dsimp -zeta only)) | split)

theorem State.dropCopy_evolves {s0 s : State} (x : Nat × Nat × Nat) (hs : Evolves s0 s) :
    Evolves s0 (State.dropCopy x s) := by
  unfold State.dropCopy
  repeat' (first
      | with_reducible assumption | with_reducible apply State.updObj_evolves | (intro _ _ _; (try dsimp -zeta only))
      | (intro _; (try dsimp -zeta only)) | split)

theorem State.makeRoom_evolves {s0 s : State} (keep : List (Nat × Nat × Nat)) (n0_ : Nat) (n1_ : Nat)
    (hs : Evolves s0 s) :
    Evolves s0 (State.makeRoom keep n0_ n1_ s).2 := by
  induction n0_ generalizing keep n1_ s with
  | zero => unfold State.makeRoom; exact hs
  | succ k_ ih_ =>
  unfold State.makeRoom
  repeat' (first
      | with_reducible assumption | with_reducible apply ih_ | (have : Evolves _ t_ := h_; clear_value t_)
      | with_reducible apply State.startWriteback_evolves | with_reducible apply State.dropCopy_evolves
      | (intro _ _ _; (try dsimp -zeta only)) | (intro _; (try dsimp -zeta only))
      | (extract_lets +onlyGivenNames t_; (refine_lift have h_ : Evolves s0 t_ := ?_; ?_); rotate_left; dsimp -zeta only [t_])
      | (extract_lets +onlyGivenNames t_; (refine_lift have h_ : Evolves s0 t_.2 := ?_; ?_); rotate_left; dsimp -zeta only [t_])
      | (extract_lets +onlyGivenNames t_) | split)

theorem State.makeRoom_evolves_of {s0 s : State} {keep : List (Nat × Nat × Nat)} {n0_ : Nat} {n1_ : Nat} {k_} {r_}
    (e_ : State.makeRoom keep n0_ n1_ s = (k_, r_)) (hs : Evolves s0 s) : Evolves s0 r_ := by
  have := State.makeRoom_evolves keep n0_ n1_ hs
  rwa [e_] at this

theorem State.copyUnits_evolves {s0 s : State} (id : Nat) (n : Nat) (us : List Nat) (hs : Evolves s0 s) :
    Evolves s0 (State.copyUnits id n us s).2 := by
  unfold State.copyUnits
  repeat' (first
      | with_reducible assumption | (have : Evolves _ t_ := h_; clear_value t_)
      | with_reducible apply State.updObj_evolves | with_reducible apply State.makeRoom_evolves
      | refine State.makeRoom_evolves_of (by with_reducible assumption) ?_ | with_reducible apply Evolves.foldl
      | (intro _ _ _; (try dsimp -zeta only)) | (intro _; (try dsimp -zeta only))
      | (extract_lets +onlyGivenNames t_; (refine_lift have h_ : Evolves s0 t_ := ?_; ?_); rotate_left; dsimp -zeta only [t_])
      | (extract_lets +onlyGivenNames t_; (refine_lift have h_ : Evolves s0 t_.2 := ?_; ?_); rotate_left; dsimp -zeta only [t_])
      | (extract_lets +onlyGivenNames t_) | split)

theorem State.copyUnits_evolves_of {s0 s : State} {id : Nat} {n : Nat} {us : List Nat} {k_} {r_}
    (e_ : State.copyUnits id n us s = (k_, r_)) (hs : Evolves s0 s) : Evolves s0 r_ := by
  have := State.copyUnits_evolves id n us hs
  rwa [e_] at this

theorem State.touchUnit_evolves {s0 s : State} (id : Nat) (n : Nat) (u : Nat) (hs : Evolves s0 s) :
    Evolves s0 (State.touchUnit id n u s) := by
  unfold State.touchUnit
  repeat' (first
      | with_reducible assumption | (have : Evolves _ t_ := h_; clear_value t_)
      | with_reducible apply State.updObj_evolves | with_reducible apply State.copyUnits_evolves
      | refine State.copyUnits_evolves_of (by with_reducible assumption) ?_ | (intro _ _ _; (try dsimp -zeta only))
      | (intro _; (try dsimp -zeta only))
      | (extract_lets +onlyGivenNames t_; (refine_lift have h_ : Evolves s0 t_ := ?_; ?_); rotate_left; dsimp -zeta only [t_])
      | (extract_lets +onlyGivenNames t_; (refine_lift have h_ : Evolves s0 t_.2 := ?_; ?_); rotate_left; dsimp -zeta only [t_])
      | (extract_lets +onlyGivenNames t_) | split)

theorem State.touch_evolves {s0 s : State} (id : Nat) (n : Nat) (off : Nat) (len : Nat) (hs : Evolves s0 s) :
    Evolves s0 (State.touch id n off len s) := by
  unfold State.touch
  repeat' (first
      | with_reducible assumption | with_reducible apply State.touchUnit_evolves | with_reducible apply Evolves.foldl
      | (intro _ _ _; (try dsimp -zeta only)) | (intro _; (try dsimp -zeta only)) | split)

theorem State.dirtyPage_evolves {s0 s : State} (id : Nat) (n : Nat) (p : Nat) (hs : Evolves s0 s) :
    Evolves s0 (State.dirtyPage id n p s) := by
  unfold State.dirtyPage
  repeat' (first
      | with_reducible assumption | with_reducible apply State.updVer_evolves | (intro _ _ _; (try dsimp -zeta only))
      | (intro _; (try dsimp -zeta only)) | split)

theorem State.writeVersion_evolves {s0 s : State} (id : Nat) (n : Nat) (off : Nat) (bs : Bytes) (hs : Evolves s0 s) :
    Evolves s0 (State.writeVersion id n off bs s) := by
  unfold State.writeVersion
  repeat' (first
      | with_reducible assumption | with_reducible apply State.updVer_evolves
      | with_reducible apply State.throttle_evolves | with_reducible apply State.touch_evolves
      | with_reducible apply State.dirtyPage_evolves | with_reducible apply Evolves.foldl
      | (intro _ _ _; (try dsimp -zeta only)) | (intro _; (try dsimp -zeta only)) | split)

theorem State.accessionDone_evolves {s0 s : State} (c : Slot) (last : Nat) (hs : Evolves s0 s) :
    Evolves s0 (State.accessionDone c last s) := by
  unfold State.accessionDone
  repeat' (first
      | with_reducible assumption | with_reducible apply State.updObj_evolves | (intro _ _ _; (try dsimp -zeta only))
      | (intro _; (try dsimp -zeta only)) | split)

theorem State.moveDown_evolves {s0 s : State} (id : Nat) (n : Nat) (u : Nat) (tier : Nat) (hs : Evolves s0 s) :
    Evolves s0 (State.moveDown id n u tier s) := by
  unfold State.moveDown
  repeat' (first
      | with_reducible assumption | with_reducible apply State.updObj_evolves
      | with_reducible apply State.startWriteback_evolves | (intro _ _ _; (try dsimp -zeta only))
      | (intro _; (try dsimp -zeta only)) | split)

theorem State.bringHome_evolves {s0 s : State} (id : Nat) (n : Nat) (u : Nat) (hs : Evolves s0 s) :
    Evolves s0 (State.bringHome id n u s) := by
  unfold State.bringHome
  repeat' (first
      | with_reducible assumption | with_reducible apply State.rehome_evolves | (intro _ _ _; (try dsimp -zeta only))
      | (intro _; (try dsimp -zeta only)) | split)

theorem State.evictUnit_evolves {s0 s : State} (who : Holder) (id : Nat) (n : Nat) (u : Nat) (tier : Nat)
    (hs : Evolves s0 s) :
    Evolves s0 (State.evictUnit who id n u tier s) := by
  unfold State.evictUnit
  repeat' (first
      | with_reducible assumption | with_reducible apply State.updObj_evolves
      | with_reducible apply State.moveDown_evolves | with_reducible apply State.bringHome_evolves
      | (intro _ _ _; (try dsimp -zeta only)) | (intro _; (try dsimp -zeta only)) | split)

theorem State.dropRefs_evolves {s0 s : State} (p : Obj → Ref → Bool) (hs : Evolves s0 s) :
    Evolves s0 (State.dropRefs p s) := by
  unfold State.dropRefs
  repeat' (first
      | with_reducible assumption | with_reducible apply State.updObj_evolves
      | with_reducible apply State.moveDown_evolves | with_reducible apply State.bringHome_evolves
      | with_reducible apply Evolves.foldl | exact fun k_ => k_ | (intro k_; simpa [Tiers.Ok] using k_)
      | (intro _ _ _; (try dsimp -zeta only)) | (intro _; (try dsimp -zeta only)) | split
      | with_reducible apply Evolves.with_tiers)

theorem State.cancelEvicts_evolves {s0 s : State} (id : Nat) (n : Nat) (us : List Nat) (hs : Evolves s0 s) :
    Evolves s0 (State.cancelEvicts id n us s) := by
  unfold State.cancelEvicts
  repeat' (first
      | with_reducible assumption | with_reducible apply State.updObj_evolves | (intro _ _ _; (try dsimp -zeta only))
      | (intro _; (try dsimp -zeta only)) | split)

theorem State.promoteUnits_evolves {s0 s : State} (id : Nat) (n : Nat) (tier : Nat) (us : List Nat)
    (hs : Evolves s0 s) :
    Evolves s0 (State.promoteUnits id n tier us s).2 := by
  unfold State.promoteUnits
  repeat' (first
      | with_reducible assumption | with_reducible apply State.updObj_evolves
      | with_reducible apply State.copyUnits_evolves | with_reducible apply State.bringHome_evolves
      | with_reducible apply State.cancelEvicts_evolves
      | refine State.copyUnits_evolves_of (by with_reducible assumption) ?_ | with_reducible apply Evolves.foldl
      | (intro _ _ _; (try dsimp -zeta only)) | (intro _; (try dsimp -zeta only)) | split)

theorem State.promoteUnits_evolves_of {s0 s : State} {id : Nat} {n : Nat} {tier : Nat} {us : List Nat} {k_} {r_}
    (e_ : State.promoteUnits id n tier us s = (k_, r_)) (hs : Evolves s0 s) : Evolves s0 r_ := by
  have := State.promoteUnits_evolves id n tier us hs
  rwa [e_] at this

theorem State.impair_evolves {s0 s : State} (id : Nat) (n : Nat) (hs : Evolves s0 s) :
    Evolves s0 (State.impair id n s) := by
  unfold State.impair
  repeat' (first
      | with_reducible assumption | with_reducible apply State.raise_evolves
      | with_reducible apply State.updVer_evolves | exact fun k_ => k_ | (intro k_; simpa [Sched.Ok] using k_)
      | (intro _ _ _; (try dsimp -zeta only)) | (intro _; (try dsimp -zeta only)) | split
      | with_reducible apply Evolves.with_sched)

theorem State.losePages_evolves {s0 s : State} (id : Nat) (n : Nat) (ps : List Nat) (hs : Evolves s0 s) :
    Evolves s0 (State.losePages id n ps s) := by
  unfold State.losePages
  repeat' (first
      | with_reducible assumption | with_reducible apply State.updVer_evolves
      | with_reducible apply State.impair_evolves | with_reducible apply Evolves.foldl
      | (intro _ _ _; (try dsimp -zeta only)) | (intro _; (try dsimp -zeta only)) | split)

theorem State.losePage_evolves {s0 s : State} (id : Nat) (n : Nat) (p : Nat) (hs : Evolves s0 s) :
    Evolves s0 (State.losePage id n p s) := by
  unfold State.losePage
  repeat' (first
      | with_reducible assumption | with_reducible apply State.losePages_evolves
      | (intro _ _ _; (try dsimp -zeta only)) | (intro _; (try dsimp -zeta only)) | split)

/-! ### Machine/Writeback.lean -/

theorem State.storePages_evolves {s0 s : State} (id : Nat) (n : Nat) (u : Nat) (hs : Evolves s0 s) :
    Evolves s0 (State.storePages id n u s) := by
  unfold State.storePages
  repeat' (first
      | with_reducible assumption | (have : Evolves _ t_ := h_; clear_value t_)
      | with_reducible apply State.storeHost_evolves | with_reducible apply State.updVer_evolves
      | refine State.storeHost_evolves_of (by with_reducible assumption) ?_ | (intro _ _ _; (try dsimp -zeta only))
      | (intro _; (try dsimp -zeta only))
      | (extract_lets +onlyGivenNames t_; (refine_lift have h_ : Evolves s0 t_ := ?_; ?_); rotate_left; dsimp -zeta only [t_])
      | (extract_lets +onlyGivenNames t_; (refine_lift have h_ : Evolves s0 t_.2 := ?_; ?_); rotate_left; dsimp -zeta only [t_])
      | (extract_lets +onlyGivenNames t_) | split)

theorem State.storeBlocks_evolves {s0 s : State} (u : Nat) (hs : Evolves s0 s) :
    Evolves s0 (State.storeBlocks u s) := by
  unfold State.storeBlocks
  repeat' (first
      | with_reducible assumption | with_reducible apply State.storeHost_evolves
      | refine State.storeHost_evolves_of (by with_reducible assumption) ?_ | exact fun k_ => k_.of_data rfl
      | exact fun k_ => k_ | (intro k_; simpa [BlockRange.Ok] using k_) | (intro _ _ _; (try dsimp -zeta only))
      | (intro _; (try dsimp -zeta only)) | split | with_reducible apply Evolves.with_block)

theorem State.storeDirty_evolves {s0 s : State} (x : DirtyItem) (hs : Evolves s0 s) :
    Evolves s0 (State.storeDirty x s) := by
  unfold State.storeDirty
  repeat' (first
      | with_reducible assumption | with_reducible apply State.storePages_evolves
      | with_reducible apply State.storeBlocks_evolves | (intro _ _ _; (try dsimp -zeta only))
      | (intro _; (try dsimp -zeta only)) | split)

theorem State.storeMaps_evolves {s0 s : State} (ms : List Nat) (atomics : List Nat) (hs : Evolves s0 s) :
    Evolves s0 (State.storeMaps ms atomics s) := by
  unfold State.storeMaps
  repeat' (first
      | with_reducible assumption | with_reducible apply State.sendUnit_evolves
      | with_reducible apply State.someGroup_evolves
      | refine State.sendUnit_evolves_of (by with_reducible assumption) ?_
      | refine State.someGroup_evolves_of (by with_reducible assumption) ?_ | exact fun k_ => k_.of_map rfl
      | exact fun k_ => k_ | (intro k_; simpa [Ftl.Ok] using k_) | (intro _ _ _; (try dsimp -zeta only))
      | (intro _; (try dsimp -zeta only)) | split | with_reducible apply Evolves.with_ftl)

theorem State.installAtomic_evolves {s0 s : State} (id : Nat) (hs : Evolves s0 s) :
    Evolves s0 (State.installAtomic id s) := by
  unfold State.installAtomic
  repeat' (first
      | with_reducible assumption | with_reducible apply State.setMap_evolves
      | with_reducible apply State.storeMaps_evolves | with_reducible apply Evolves.foldl
      | exact fun k_ => k_.of_data rfl | exact fun k_ => k_ | (intro k_; simpa [BlockRange.Ok] using k_)
      | (intro _ _ _; (try dsimp -zeta only)) | (intro _; (try dsimp -zeta only)) | split
      | with_reducible apply Evolves.with_block)

theorem State.installAtomics_evolves {s0 s : State} (hs : Evolves s0 s) :
    Evolves s0 (State.installAtomics s) := by
  unfold State.installAtomics
  repeat' (first
      | with_reducible assumption | with_reducible apply State.installAtomic_evolves
      | with_reducible apply Evolves.foldl | (intro _ _ _; (try dsimp -zeta only)) | (intro _; (try dsimp -zeta only))
      | split)

theorem State.updFlushes_evolves {s0 s : State} (f : FlushWork → FlushWork) (hs : Evolves s0 s) :
    Evolves s0 (State.updFlushes f s) := by
  unfold State.updFlushes
  repeat' (first
      | with_reducible assumption | exact fun k_ => k_ | (intro k_; simpa [Atrium.Ok] using k_)
      | (intro _ _ _; (try dsimp -zeta only)) | (intro _; (try dsimp -zeta only)) | split
      | with_reducible apply Evolves.with_atr)

theorem State.earnCredit_evolves {s0 s : State} (n : Nat) (hs : Evolves s0 s) :
    Evolves s0 (State.earnCredit n s) := by
  unfold State.earnCredit
  repeat' (first
      | with_reducible assumption | exact fun k_ => k_ | (intro k_; simpa [Tiers.Ok] using k_)
      | (intro _ _ _; (try dsimp -zeta only)) | (intro _; (try dsimp -zeta only)) | split
      | with_reducible apply Evolves.with_tiers)

theorem State.retirePages_evolves {s0 s : State} (r : StoreRec) (id : Nat) (n : Nat) (hs : Evolves s0 s) :
    Evolves s0 (State.retirePages r id n s) := by
  unfold State.retirePages
  repeat' (first
      | with_reducible assumption | with_reducible apply State.updVer_evolves
      | with_reducible apply State.updFlushes_evolves | with_reducible apply State.earnCredit_evolves
      | with_reducible apply Evolves.foldl | (intro _ _ _; (try dsimp -zeta only)) | (intro _; (try dsimp -zeta only))
      | split)

theorem State.retireBlocks_evolves {s0 s : State} (p : DirtyBlock → Bool) (hs : Evolves s0 s) :
    Evolves s0 (State.retireBlocks p s) := by
  unfold State.retireBlocks
  repeat' (first
      | with_reducible assumption | with_reducible apply State.updFlushes_evolves
      | with_reducible apply State.earnCredit_evolves | with_reducible apply Evolves.foldl
      | exact fun k_ => k_.of_data rfl | exact fun k_ => k_ | (intro k_; simpa [BlockRange.Ok] using k_)
      | (intro _ _ _; (try dsimp -zeta only)) | (intro _; (try dsimp -zeta only)) | split
      | with_reducible apply Evolves.with_block)

theorem State.retireMaps_evolves {s0 s : State} (r : StoreRec) (ms : List Nat) (entries : List (Nat × Nat))
    (atomics : List Nat) (hs : Evolves s0 s) :
    Evolves s0 (State.retireMaps r ms entries atomics s) := by
  unfold State.retireMaps
  repeat' (first
      | with_reducible assumption | with_reducible apply State.dropStores_evolves
      | with_reducible apply State.updFlushes_evolves | with_reducible apply State.earnCredit_evolves
      | with_reducible apply State.retireBlocks_evolves | with_reducible apply Evolves.foldl
      | (intro k_; exact ⟨k_.1, foldl_putPair_rising (filter_rising k_.2)⟩) | exact fun k_ => k_.of_map rfl
      | exact fun k_ => k_.of_data rfl | exact fun k_ => k_ | (intro k_; simpa [BlockRange.Ok] using k_)
      | (intro k_; simpa [Ftl.Ok] using k_) | (intro _ _ _; (try dsimp -zeta only))
      | (intro _; (try dsimp -zeta only)) | split | with_reducible apply Evolves.with_block
      | with_reducible apply Evolves.with_ftl)

theorem State.retireStore_evolves {s0 s : State} (r : StoreRec) (hs : Evolves s0 s) :
    Evolves s0 (State.retireStore r s) := by
  unfold State.retireStore
  repeat' (first
      | with_reducible assumption | with_reducible apply State.dropStores_evolves
      | with_reducible apply State.retirePages_evolves | with_reducible apply State.retireBlocks_evolves
      | with_reducible apply State.retireMaps_evolves | (intro _ _ _; (try dsimp -zeta only))
      | (intro _; (try dsimp -zeta only)) | split)

theorem State.retireMoves_evolves {s0 s : State} (hs : Evolves s0 s) :
    Evolves s0 (State.retireMoves s) := by
  unfold State.retireMoves
  repeat' (first
      | with_reducible assumption | with_reducible apply State.noteWritten_evolves
      | with_reducible apply State.retireStore_evolves | with_reducible apply Evolves.foldl
      | (intro _ _ _; (try dsimp -zeta only)) | (intro _; (try dsimp -zeta only)) | split)

theorem State.retireData_evolves {s0 s : State} (count : Nat) (hs : Evolves s0 s) :
    Evolves s0 (State.retireData count s) := by
  unfold State.retireData
  repeat' (first
      | with_reducible assumption | with_reducible apply State.noteWritten_evolves
      | with_reducible apply State.retireStore_evolves | with_reducible apply Evolves.foldl
      | (intro _ _ _; (try dsimp -zeta only)) | (intro _; (try dsimp -zeta only)) | split)

theorem State.closeWaiting_evolves {s0 s : State} (hs : Evolves s0 s) :
    Evolves s0 (State.closeWaiting s) := by
  unfold State.closeWaiting
  repeat' (first
      | with_reducible assumption | with_reducible apply State.updSet_evolves | with_reducible apply Evolves.foldl
      | (intro _ _ _; (try dsimp -zeta only)) | (intro _; (try dsimp -zeta only)) | split)

theorem State.serveFlash_evolves {s0 s : State} (hs : Evolves s0 s) :
    Evolves s0 (State.serveFlash s) := by
  unfold State.serveFlash
  repeat' (first
      | with_reducible assumption | with_reducible apply State.issueParity_evolves
      | with_reducible apply State.closeSets_evolves | with_reducible apply State.retryStores_evolves
      | with_reducible apply State.eraseReclaimed_evolves | with_reducible apply State.settleCheckpoint_evolves
      | with_reducible apply State.checkpointDue_evolves | with_reducible apply State.installAtomics_evolves
      | with_reducible apply State.retireMoves_evolves | with_reducible apply State.closeWaiting_evolves
      | (intro _ _ _; (try dsimp -zeta only)) | (intro _; (try dsimp -zeta only)) | split)

theorem State.issueStores_evolves {s0 s : State} (hs : Evolves s0 s) :
    Evolves s0 (State.issueStores s) := by
  unfold State.issueStores
  repeat' (first
      | with_reducible assumption | with_reducible apply State.storeDirty_evolves
      | with_reducible apply State.serveFlash_evolves | with_reducible apply Evolves.foldl
      | (intro _ _ _; (try dsimp -zeta only)) | (intro _; (try dsimp -zeta only)) | split)

theorem State.awaitFlash_evolves {s0 s : State} (id : Nat) (ps : List (Nat × Nat × Nat)) (bs : List Nat)
    (maps : List Nat) (journal : Bool) (result : Nat) (hs : Evolves s0 s) :
    Evolves s0 (State.awaitFlash id ps bs maps journal result s) := by
  unfold State.awaitFlash
  repeat' (first
      | with_reducible assumption | (have : Evolves _ t_ := h_; clear_value t_)
      | with_reducible apply State.setWork_evolves | with_reducible apply State.done_evolves
      | with_reducible apply State.startWriteback_evolves | with_reducible apply State.issueStores_evolves
      | (intro _ _ _; (try dsimp -zeta only)) | (intro _; (try dsimp -zeta only))
      | (extract_lets +onlyGivenNames t_; (refine_lift have h_ : Evolves s0 t_ := ?_; ?_); rotate_left; dsimp -zeta only [t_])
      | (extract_lets +onlyGivenNames t_; (refine_lift have h_ : Evolves s0 t_.2 := ?_; ?_); rotate_left; dsimp -zeta only [t_])
      | (extract_lets +onlyGivenNames t_) | split)

theorem State.awaitMoves_evolves {s0 s : State} (id : Nat) (ps : List (Nat × Nat × Nat)) (luns : List Nat)
    (hs : Evolves s0 s) :
    Evolves s0 (State.awaitMoves id ps luns s) := by
  unfold State.awaitMoves
  repeat' (first
      | with_reducible assumption | (have : Evolves _ t_ := h_; clear_value t_)
      | with_reducible apply State.setWork_evolves | with_reducible apply State.done_evolves
      | with_reducible apply State.startWriteback_evolves | with_reducible apply State.issueStores_evolves
      | (intro _ _ _; (try dsimp -zeta only)) | (intro _; (try dsimp -zeta only))
      | (extract_lets +onlyGivenNames t_; (refine_lift have h_ : Evolves s0 t_ := ?_; ?_); rotate_left; dsimp -zeta only [t_])
      | (extract_lets +onlyGivenNames t_; (refine_lift have h_ : Evolves s0 t_.2 := ?_; ?_); rotate_left; dsimp -zeta only [t_])
      | (extract_lets +onlyGivenNames t_) | split)

theorem State.ackWrite_evolves {s0 s : State} (id : Nat) (o : Obj) (force : Bool) (ps : List (Nat × Nat × Nat))
    (result : Nat) (hs : Evolves s0 s) :
    Evolves s0 (State.ackWrite id o force ps result s) := by
  unfold State.ackWrite
  repeat' (first
      | with_reducible assumption | with_reducible apply State.done_evolves
      | with_reducible apply State.issueStores_evolves | with_reducible apply State.awaitFlash_evolves
      | (intro _ _ _; (try dsimp -zeta only)) | (intro _; (try dsimp -zeta only)) | split)

theorem State.folioHeader_evolves {s0 s : State} (c : Slot) (tokens : Nat) (journal : Bool) (hs : Evolves s0 s) :
    ∀ r_, State.folioHeader c tokens journal s = some r_ → Evolves s0 r_ := by
  unfold State.folioHeader
  (try dsimp only)
  repeat' (first
      | with_reducible assumption | with_reducible apply State.writeVersion_evolves
      | with_reducible apply State.awaitFlash_evolves
      | (simp only [Option.some.injEq, reduceCtorEq, forall_eq, forall_eq', false_implies, implies_true]) | split
      | (intro _ _ _; (try dsimp -zeta only)) | (intro _; (try dsimp -zeta only)))

theorem State.folioHeader_evolves_of {s0 s : State} {c : Slot} {tokens : Nat} {journal : Bool} {r_}
    (e_ : State.folioHeader c tokens journal s = some r_) (hs : Evolves s0 s) : Evolves s0 r_ :=
  State.folioHeader_evolves c tokens journal hs _ e_

theorem execWritebackAge_evolves {s0 s : State} (hs : Evolves s0 s) :
    ∃ r_, execWritebackAge s = .next r_ ∧ Evolves s0 r_ := by
  refine ⟨_, rfl, ?_⟩
  repeat' (first
      | with_reducible assumption | with_reducible apply State.issueStores_evolves | exact fun k_ => k_.of_data rfl
      | exact fun k_ => k_ | (intro k_; simpa [Tiers.Ok] using k_) | (intro k_; simpa [BlockRange.Ok] using k_)
      | (intro _ _ _; (try dsimp -zeta only)) | (intro _; (try dsimp -zeta only)) | split
      | with_reducible apply Evolves.with_tiers_block)

end Sys2Proof.Machine
end

