-- ==== Sys2Proof/Laws/EvolvesJob.lean ====
section
/-! SUPPORT. Every operation on jobs, threads, engines and streams: the state it gives evolves from the state
it is given (Safety.lean). One lemma per operation, citing the lemmas of the operations it calls. The proofs are elaborated in turn: in
parallel they wait for each other, in more threads than there is memory for. -/
namespace Sys2Proof.Machine

set_option Elab.async false

/-! ### Machine/Job.lean -/

theorem State.updJob_evolves {s0 s : State} (id : Nat) (f : Job → Job) (hs : Evolves s0 s) :
    Evolves s0 (State.updJob id f s) := by
  unfold State.updJob
  repeat' (first
      | with_reducible assumption | exact fun k_ => k_ | (intro k_; simpa [Sched.Ok] using k_)
      | (intro _ _ _; (try dsimp -zeta only)) | (intro _; (try dsimp -zeta only)) | split
      | with_reducible apply Evolves.with_sched)

theorem State.updClient_evolves {s0 s : State} (n : Nat) (f : Client → Client) (hs : Evolves s0 s) :
    Evolves s0 (State.updClient n f s) := by
  unfold State.updClient
  repeat' (first
      | with_reducible assumption | exact fun k_ => k_ | (intro k_; simpa [Sched.Ok] using k_)
      | (intro _ _ _; (try dsimp -zeta only)) | (intro _; (try dsimp -zeta only)) | split
      | with_reducible apply Evolves.with_sched)

theorem State.updStore_evolves {s0 s : State} (phys : Nat) (f : Mem → Mem) (hs : Evolves s0 s)
    (hf : ∀ m, memWf m = true → memWf (f m) = true) : Evolves s0 (State.updStore phys f s) := by
  refine hs.with_sched fun k => ⟨k.1, by simpa using k.2.1, k.2.2.1, k.2.2.2.1, fun m hm => ?_⟩
  obtain ⟨i, hi, rfl⟩ := List.mem_iff_getElem.mp hm
  simp only [updAt, List.getElem_modify]
  split
  · exact hf _ (k.2.2.2.2 _ (List.getElem_mem _))
  · exact k.2.2.2.2 _ (List.getElem_mem _)

/-- Writes one after another keep the canonical form. -/
theorem foldl_memWrite_wf {ws : List (Nat × Bytes)} {m : Mem} (h : memWf m = true) :
    memWf (ws.foldl (fun m w => memWrite m w.1 w.2) m) = true := by
  induction ws generalizing m with
  | nil => exact h
  | cons w ws ih => exact ih (memWrite_wf h _ _)

theorem State.updCluster_evolves {s0 s : State} (id : Nat) (c : Nat) (f : JobCluster → JobCluster) (hs : Evolves s0 s)
    :
    Evolves s0 (State.updCluster id c f s) := by
  unfold State.updCluster
  repeat' (first
      | with_reducible assumption | with_reducible apply State.updJob_evolves | (intro _ _ _; (try dsimp -zeta only))
      | (intro _; (try dsimp -zeta only)) | split)

theorem State.updThread_evolves {s0 s : State} (h : Thr) (f : Thread → Thread) (hs : Evolves s0 s) :
    Evolves s0 (State.updThread h f s) := by
  unfold State.updThread
  repeat' (first
      | with_reducible assumption | with_reducible apply State.updCluster_evolves
      | (intro _ _ _; (try dsimp -zeta only)) | (intro _; (try dsimp -zeta only)) | split)

theorem State.updEngine_evolves {s0 s : State} (e : Eng) (f : Engine → Engine) (hs : Evolves s0 s) :
    Evolves s0 (State.updEngine e f s) := by
  unfold State.updEngine
  repeat' (first
      | with_reducible assumption | with_reducible apply State.updCluster_evolves
      | (intro _ _ _; (try dsimp -zeta only)) | (intro _; (try dsimp -zeta only)) | split)

theorem State.chargeJob_evolves {s0 s : State} (id : Nat) (cyc : Nat) (hs : Evolves s0 s) :
    Evolves s0 (State.chargeJob id cyc s) := by
  unfold State.chargeJob
  repeat' (first
      | with_reducible assumption | with_reducible apply State.updJob_evolves
      | with_reducible apply State.updClient_evolves | (intro _ _ _; (try dsimp -zeta only))
      | (intro _; (try dsimp -zeta only)) | split)

theorem State.eventCycle_evolves {s0 s : State} (hs : Evolves s0 s) :
    Evolves s0 (State.eventCycle s).2 := by
  unfold State.eventCycle
  repeat' (first
      | with_reducible assumption | with_reducible apply State.takeFree_evolves
      | refine State.takeFree_evolves_of (by with_reducible assumption) ?_ | (intro _ _ _; (try dsimp -zeta only))
      | (intro _; (try dsimp -zeta only)) | split)

theorem State.eventCycle_evolves_of {s0 s : State}  {k_} {r_} (e_ : State.eventCycle s = (k_, r_))
    (hs : Evolves s0 s) : Evolves s0 r_ := by
  have := State.eventCycle_evolves hs
  rwa [e_] at this

theorem State.fillTreeN_evolves {s0 s : State} (n0_ : Nat) (hs : Evolves s0 s) :
    Evolves s0 (State.fillTreeN n0_ s) := by
  induction n0_ generalizing s with
  | zero => unfold State.fillTreeN; exact hs
  | succ k_ ih_ =>
  unfold State.fillTreeN
  repeat' (first
      | with_reducible assumption | with_reducible apply ih_ | exact fun k_ => k_
      | (intro k_; simpa [Sched.Ok] using k_) | (intro _ _ _; (try dsimp -zeta only))
      | (intro _; (try dsimp -zeta only)) | split | with_reducible apply Evolves.with_sched)

theorem State.fillTree_evolves {s0 s : State} (hs : Evolves s0 s) :
    Evolves s0 (State.fillTree s) := by
  unfold State.fillTree
  repeat' (first
      | with_reducible assumption | with_reducible apply State.fillTreeN_evolves
      | (intro _ _ _; (try dsimp -zeta only)) | (intro _; (try dsimp -zeta only)) | split)

theorem State.closeIdle_evolves {s0 s : State} (hs : Evolves s0 s) :
    Evolves s0 (State.closeIdle s) := by
  unfold State.closeIdle
  repeat' (first
      | with_reducible assumption | with_reducible apply State.settleNumbers_evolves
      | with_reducible apply State.closed_evolves | with_reducible apply Evolves.foldl
      | (intro _ _ _; (try dsimp -zeta only)) | (intro _; (try dsimp -zeta only)) | split)

theorem State.releaseClusters_evolves {s0 s : State} (id : Nat) (cyc : Nat) (hs : Evolves s0 s) :
    Evolves s0 (State.releaseClusters id cyc s) := by
  unfold State.releaseClusters
  repeat' (first
      | with_reducible assumption | with_reducible apply State.updJob_evolves
      | with_reducible apply State.chargeJob_evolves | with_reducible apply State.fillTree_evolves
      | with_reducible apply State.closeIdle_evolves | (intro _ _ _; (try dsimp -zeta only))
      | (intro _; (try dsimp -zeta only)) | split)

theorem State.progTrap_evolves {s0 s : State} (h : Thr) (pc : Nat) (cause : Nat) (data : Nat) (hs : Evolves s0 s) :
    Evolves s0 (State.progTrap h pc cause data s) := by
  unfold State.progTrap
  repeat' (first
      | with_reducible assumption | with_reducible apply State.raise_evolves
      | with_reducible apply State.updJob_evolves | (intro _ _ _; (try dsimp -zeta only))
      | (intro _; (try dsimp -zeta only)) | split)

theorem State.setCounter_evolves {s0 s : State} (id : Nat) (obj : Nat) (v : Word) (hs : Evolves s0 s) :
    Evolves s0 (State.setCounter id obj v s) := by
  unfold State.setCounter
  repeat' (first
      | with_reducible assumption | with_reducible apply State.updJob_evolves | (intro _ _ _; (try dsimp -zeta only))
      | (intro _; (try dsimp -zeta only)) | split)

theorem State.signal_evolves {s0 s : State} (h : Thr) (pc : Nat) (obj : Nat) (inc : Nat) (hs : Evolves s0 s) :
    Evolves s0 (State.signal h pc obj inc s) := by
  unfold State.signal
  repeat' (first
      | with_reducible assumption | (have : Evolves _ t_ := h_; clear_value t_)
      | with_reducible apply State.progTrap_evolves | with_reducible apply State.setCounter_evolves
      | (intro _ _ _; (try dsimp -zeta only)) | (intro _; (try dsimp -zeta only))
      | (extract_lets +onlyGivenNames t_; (refine_lift have h_ : Evolves s0 t_ := ?_; ?_); rotate_left; dsimp -zeta only [t_])
      | (extract_lets +onlyGivenNames t_; (refine_lift have h_ : Evolves s0 t_.2 := ?_; ?_); rotate_left; dsimp -zeta only [t_])
      | (extract_lets +onlyGivenNames t_) | split)

theorem State.signalEnd_evolves {s0 s : State} (h : Thr) (pc : Nat) (sig : Bool) (obj : Nat) (hs : Evolves s0 s) :
    Evolves s0 (State.signalEnd h pc sig obj s) := by
  unfold State.signalEnd
  repeat' (first
      | with_reducible assumption | with_reducible apply State.signal_evolves | (intro _ _ _; (try dsimp -zeta only))
      | (intro _; (try dsimp -zeta only)) | split)

theorem State.loadImage_evolves {s0 s : State} (j : Job) (phys : Nat) (hs : Evolves s0 s) :
    Evolves s0 (State.loadImage j phys s) := by
  unfold State.loadImage
  repeat' (first
      | with_reducible assumption | with_reducible apply State.updStore_evolves | with_reducible apply memWrite_wf
      | with_reducible apply foldl_memWrite_wf | (intro _ _ _; (try dsimp -zeta only))
      | (intro _; (try dsimp -zeta only)) | split)

theorem Job.fillStore_wf {m : Mem} (h : memWf m = true) (j : Job) (off : Nat) (bs : Bytes) :
    memWf (j.fillStore off bs m) = true := memWrite_wf (memWrite_wf h _ _) _ _

theorem State.placeTier0_evolves {s0 s : State} (id : Nat) (on : List Nat) (p : PlaceEntry) (hs : Evolves s0 s) :
    Evolves s0 (State.placeTier0 id on p s) := by
  unfold State.placeTier0
  repeat' (first
      | with_reducible assumption | with_reducible apply State.updStore_evolves | with_reducible apply memWrite_wf
      | with_reducible apply foldl_memWrite_wf | with_reducible apply Job.fillStore_wf
      | with_reducible apply Evolves.foldl | (intro _ _ _; (try dsimp -zeta only)) | (intro _; (try dsimp -zeta only))
      | split)

theorem State.restore_evolves {s0 s : State} (id : Nat) (v : Save) (fresh : List Nat) (live : Bool)
    (hs : Evolves s0 s) :
    Evolves s0 (State.restore id v fresh live s) := by
  unfold State.restore
  repeat' (first
      | with_reducible assumption | with_reducible apply State.ready_evolves
      | with_reducible apply State.updJob_evolves | with_reducible apply State.updStore_evolves
      | with_reducible apply State.fillTree_evolves | with_reducible apply State.loadImage_evolves
      | with_reducible apply State.placeTier0_evolves | with_reducible apply memWrite_wf
      | with_reducible apply foldl_memWrite_wf | with_reducible apply Evolves.foldl
      | (intro _ _ _; (try dsimp -zeta only)) | (intro _; (try dsimp -zeta only)) | split)

theorem State.startFresh_evolves {s0 s : State} (id : Nat) (hs : Evolves s0 s) :
    Evolves s0 (State.startFresh id s) := by
  unfold State.startFresh
  repeat' (first
      | with_reducible assumption | with_reducible apply State.updJob_evolves
      | with_reducible apply State.fillTree_evolves | with_reducible apply State.loadImage_evolves
      | with_reducible apply Evolves.foldl | (intro _ _ _; (try dsimp -zeta only)) | (intro _; (try dsimp -zeta only))
      | split)

theorem State.replayJob_evolves {s0 s : State} (id : Nat) (hs : Evolves s0 s) :
    Evolves s0 (State.replayJob id s) := by
  unfold State.replayJob
  repeat' (first
      | with_reducible assumption | with_reducible apply State.updJob_evolves
      | with_reducible apply State.restore_evolves | with_reducible apply State.startFresh_evolves
      | (intro _ _ _; (try dsimp -zeta only)) | (intro _; (try dsimp -zeta only)) | split)

theorem State.moveOne_evolves {s0 s : State} (id : Nat) (i : Nat) (close : State → State) (hs : Evolves s0 s)
    (hclose : ∀ x0, Evolves s0 x0 → Evolves s0 (close x0)) :
    ∀ r_, State.moveOne id i close s = some r_ → Evolves s0 r_ := by
  unfold State.moveOne
  (try dsimp only)
  repeat' (first
      | with_reducible assumption | with_reducible apply State.closed_evolves
      | with_reducible apply State.updCluster_evolves | with_reducible apply hclose
      | (simp only [Option.some.injEq, reduceCtorEq, forall_eq, forall_eq', false_implies, implies_true]) | split
      | (intro _ _ _; (try dsimp -zeta only)) | (intro _; (try dsimp -zeta only)))

theorem State.moveOne_evolves_of {s0 s : State} {id : Nat} {i : Nat} {close : State → State} {r_}
    (e_ : State.moveOne id i close s = some r_) (hs : Evolves s0 s)
    (hclose : ∀ x0, Evolves s0 x0 → Evolves s0 (close x0)) : Evolves s0 r_ :=
  State.moveOne_evolves id i close hs hclose _ e_

theorem State.closeLeft_evolves {s0 s : State} (p : Nat) (hs : Evolves s0 s) :
    Evolves s0 (State.closeLeft p s) := by
  unfold State.closeLeft
  repeat' (first
      | with_reducible assumption | with_reducible apply State.closed_evolves | (intro _ _ _; (try dsimp -zeta only))
      | (intro _; (try dsimp -zeta only)) | split)

theorem State.moveAll_evolves_of {s0 : State} {id : Nat} {is : List Nat} {s r : State} (e : State.moveAll id is s = some r)
    (hs : Evolves s0 s) : Evolves s0 r := by
  induction is generalizing s with
  | nil => exact Option.some.inj e ▸ hs
  | cons i is ih =>
    unfold State.moveAll at e
    dsimp only at e
    split at e
    · rename_i h
      exact ih e (State.moveOne_evolves_of h hs fun _ k => State.closeLeft_evolves _ k)
    · exact nomatch e

theorem State.suspend_evolves {s0 s : State} (id : Nat) (cyc : Nat) (hs : Evolves s0 s) :
    Evolves s0 (State.suspend id cyc s) := by
  unfold State.suspend
  repeat' (first
      | with_reducible assumption | with_reducible apply State.updJob_evolves
      | with_reducible apply State.updClient_evolves | with_reducible apply State.releaseClusters_evolves
      | (intro _ _ _; (try dsimp -zeta only)) | (intro _; (try dsimp -zeta only)) | split)

theorem State.moveJob_evolves {s0 s : State} (id : Nat) (cyc : Nat) (hs : Evolves s0 s) :
    Evolves s0 (State.moveJob id cyc s) := by
  unfold State.moveJob
  repeat' (first
      | with_reducible assumption | with_reducible apply State.closeIdle_evolves
      | with_reducible apply State.restore_evolves | with_reducible apply State.startFresh_evolves
      | with_reducible apply State.suspend_evolves | refine State.moveAll_evolves_of (by with_reducible assumption) ?_
      | (intro _ _ _; (try dsimp -zeta only)) | (intro _; (try dsimp -zeta only)) | split)

theorem State.preempt_evolves {s0 s : State} (id : Nat) (cyc : Nat) (hs : Evolves s0 s) :
    Evolves s0 (State.preempt id cyc s) := by
  unfold State.preempt
  repeat' (first
      | with_reducible assumption | with_reducible apply State.updJob_evolves
      | with_reducible apply State.updClient_evolves | with_reducible apply State.releaseClusters_evolves
      | (intro _ _ _; (try dsimp -zeta only)) | (intro _; (try dsimp -zeta only)) | split)

theorem State.takeNumbers_evolves {s0 s : State} (j : Job) (hs : Evolves s0 s) :
    Evolves s0 (State.takeNumbers j s) := by
  unfold State.takeNumbers
  repeat' (first
      | with_reducible assumption | with_reducible apply State.takeNumber_evolves | with_reducible apply Evolves.foldl
      | (intro _ _ _; (try dsimp -zeta only)) | (intro _; (try dsimp -zeta only)) | split)

theorem State.decideAt_evolves {s0 s : State} (also : Bool) (id : Nat) (cyc : Nat) (hs : Evolves s0 s) :
    Evolves s0 (State.decideAt also id cyc s) := by
  unfold State.decideAt
  repeat' (first
      | with_reducible assumption | (have : Evolves _ t_ := h_; clear_value t_)
      | with_reducible apply State.updJob_evolves | with_reducible apply State.moveJob_evolves
      | with_reducible apply State.preempt_evolves | with_reducible apply State.takeNumbers_evolves
      | (intro _ _ _; (try dsimp -zeta only)) | (intro _; (try dsimp -zeta only))
      | (extract_lets +onlyGivenNames t_; (refine_lift have h_ : Evolves s0 t_ := ?_; ?_); rotate_left; dsimp -zeta only [t_])
      | (extract_lets +onlyGivenNames t_; (refine_lift have h_ : Evolves s0 t_.2 := ?_; ?_); rotate_left; dsimp -zeta only [t_])
      | (extract_lets +onlyGivenNames t_) | split)

theorem State.decideStop_evolves {s0 s : State} (id : Nat) (cyc : Nat) (hs : Evolves s0 s) :
    Evolves s0 (State.decideStop id cyc s) := by
  unfold State.decideStop
  repeat' (first
      | with_reducible assumption | with_reducible apply State.decideAt_evolves
      | (intro _ _ _; (try dsimp -zeta only)) | (intro _; (try dsimp -zeta only)) | split)

theorem State.decideNow_evolves {s0 s : State} (id : Nat) (hs : Evolves s0 s) :
    Evolves s0 (State.decideNow id s) := by
  unfold State.decideNow
  repeat' (first
      | with_reducible assumption | with_reducible apply State.eventCycle_evolves
      | with_reducible apply State.decideStop_evolves
      | refine State.eventCycle_evolves_of (by with_reducible assumption) ?_ | (intro _ _ _; (try dsimp -zeta only))
      | (intro _; (try dsimp -zeta only)) | split)

theorem State.replay_evolves {s0 s : State} (id : Nat) (hs : Evolves s0 s) :
    Evolves s0 (State.replay id s) := by
  unfold State.replay
  repeat' (first
      | with_reducible assumption | with_reducible apply State.replayJob_evolves
      | with_reducible apply State.decideNow_evolves | (intro _ _ _; (try dsimp -zeta only))
      | (intro _; (try dsimp -zeta only)) | split)

theorem State.endStreams_evolves {s0 s : State} (id : Nat) (hs : Evolves s0 s) :
    Evolves s0 (State.endStreams id s) := by
  unfold State.endStreams
  repeat' (first
      | with_reducible assumption | with_reducible apply State.updJob_evolves
      | with_reducible apply State.fillTree_evolves | (intro _ _ _; (try dsimp -zeta only))
      | (intro _; (try dsimp -zeta only)) | split)

theorem State.alignFault_evolves {s0 s : State} (id : Nat) (cluster : Nat) (hs : Evolves s0 s) :
    Evolves s0 (State.alignFault id cluster s) := by
  unfold State.alignFault
  repeat' (first
      | with_reducible assumption | (have : Evolves _ t_ := h_; clear_value t_)
      | with_reducible apply State.raise_evolves | with_reducible apply State.updJob_evolves
      | with_reducible apply State.replay_evolves | with_reducible apply State.endStreams_evolves
      | (intro _ _ _; (try dsimp -zeta only)) | (intro _; (try dsimp -zeta only))
      | (extract_lets +onlyGivenNames t_; (refine_lift have h_ : Evolves s0 t_ := ?_; ?_); rotate_left; dsimp -zeta only [t_])
      | (extract_lets +onlyGivenNames t_; (refine_lift have h_ : Evolves s0 t_.2 := ?_; ?_); rotate_left; dsimp -zeta only [t_])
      | (extract_lets +onlyGivenNames t_) | split)

/-! ### Machine/Thread.lean -/

theorem State.goTo_evolves {s0 s : State} (h : Thr) (pc : Nat) (hs : Evolves s0 s) :
    Evolves s0 (State.goTo h pc s) := by
  unfold State.goTo
  repeat' (first
      | with_reducible assumption | with_reducible apply State.updThread_evolves
      | with_reducible apply State.progTrap_evolves | (intro _ _ _; (try dsimp -zeta only))
      | (intro _; (try dsimp -zeta only)) | split)

theorem State.issue_evolves {s0 s : State} (h : Thr) (word : Nat) (f : Job → Thread → State) (hs : Evolves s0 s)
    (hf : ∀ x0 x1, Evolves s0 (f x0 x1)) :
    Evolves s0 (State.issue s h word f) := by
  unfold State.issue
  repeat' (first
      | with_reducible assumption | with_reducible apply hf | (intro _ _ _; (try dsimp -zeta only))
      | (intro _; (try dsimp -zeta only)) | split)

theorem State.issueIf_evolves {s0 s : State} (h : Thr) (gp : BitVec 3) (gn : BitVec 1) (word : Nat)
    (f : Job → Thread → State) (hs : Evolves s0 s) (hf : ∀ x0 x1, Evolves s0 (f x0 x1)) :
    Evolves s0 (State.issueIf s h gp gn word f) := by
  unfold State.issueIf
  repeat' (first
      | with_reducible assumption | with_reducible apply State.goTo_evolves | with_reducible apply State.issue_evolves
      | with_reducible apply hf | (intro _ _ _; (try dsimp -zeta only)) | (intro _; (try dsimp -zeta only)) | split)

theorem State.publish_evolves {s0 s : State} (h : Thr) (hs : Evolves s0 s) :
    Evolves s0 (State.publish h s) := by
  unfold State.publish
  repeat' (first
      | with_reducible assumption | with_reducible apply State.updStore_evolves
      | with_reducible apply State.updThread_evolves | with_reducible apply memWrite_wf
      | with_reducible apply foldl_memWrite_wf | with_reducible apply Evolves.foldl
      | (intro _ _ _; (try dsimp -zeta only)) | (intro _; (try dsimp -zeta only)) | split)

theorem State.retire__evolves {s0 s : State} (h : Thr) (t : Thread) (g : Thread → Thread) (hs : Evolves s0 s) :
    Evolves s0 (State.retire_ s h t g) := by
  unfold State.retire_
  repeat' (first
      | with_reducible assumption | with_reducible apply State.updThread_evolves
      | with_reducible apply State.goTo_evolves | (intro _ _ _; (try dsimp -zeta only))
      | (intro _; (try dsimp -zeta only)) | split)

theorem State.stick_evolves {s0 s : State} (id : Nat) (nan : Bool) (sat : Bool) (hs : Evolves s0 s) :
    Evolves s0 (State.stick id nan sat s) := by
  unfold State.stick
  repeat' (first
      | with_reducible assumption | with_reducible apply State.updJob_evolves | (intro _ _ _; (try dsimp -zeta only))
      | (intro _; (try dsimp -zeta only)) | split)

theorem State.intR_evolves {s0 s : State} (fn : Nat) (h : Thr) (f : RForm) (hs : Evolves s0 s) :
    Evolves s0 (State.intR fn h f s) := by
  unfold State.intR
  repeat' (first
      | with_reducible assumption | with_reducible apply State.issueIf_evolves
      | with_reducible apply State.retire__evolves | (intro _ _ _; (try dsimp -zeta only))
      | (intro _; (try dsimp -zeta only)) | split)

theorem State.intI_evolves {s0 s : State} (major : Nat) (op : Word → Word) (h : Thr) (f : IForm) (hs : Evolves s0 s) :
    Evolves s0 (State.intI major op h f s) := by
  unfold State.intI
  repeat' (first
      | with_reducible assumption | with_reducible apply State.issue_evolves
      | with_reducible apply State.retire__evolves | (intro _ _ _; (try dsimp -zeta only))
      | (intro _; (try dsimp -zeta only)) | split)

theorem State.flagR_evolves {s0 s : State} (major : Nat) (fn : Nat) (op : Word → Word → Word → Flagged) (h : Thr)
    (f : RForm) (hs : Evolves s0 s) :
    Evolves s0 (State.flagR major fn op h f s) := by
  unfold State.flagR
  repeat' (first
      | with_reducible assumption | with_reducible apply State.issueIf_evolves
      | with_reducible apply State.retire__evolves | with_reducible apply State.stick_evolves
      | (intro _ _ _; (try dsimp -zeta only)) | (intro _; (try dsimp -zeta only)) | split)

theorem State.cmpR_evolves {s0 s : State} (fn : Nat) (h : Thr) (f : RForm) (hs : Evolves s0 s) :
    Evolves s0 (State.cmpR fn h f s) := by
  unfold State.cmpR
  repeat' (first
      | with_reducible assumption | with_reducible apply State.issueIf_evolves
      | with_reducible apply State.retire__evolves | with_reducible apply State.stick_evolves
      | (intro _ _ _; (try dsimp -zeta only)) | (intro _; (try dsimp -zeta only)) | split)

theorem State.predR_evolves {s0 s : State} (fn : Nat) (h : Thr) (f : RForm) (hs : Evolves s0 s) :
    Evolves s0 (State.predR fn h f s) := by
  unfold State.predR
  repeat' (first
      | with_reducible assumption | with_reducible apply State.issueIf_evolves
      | with_reducible apply State.retire__evolves | (intro _ _ _; (try dsimp -zeta only))
      | (intro _; (try dsimp -zeta only)) | split)

theorem State.loadI_evolves {s0 s : State} (major : Nat) (n : Nat) (h : Thr) (f : IForm) (hs : Evolves s0 s) :
    Evolves s0 (State.loadI major n h f s) := by
  unfold State.loadI
  repeat' (first
      | with_reducible assumption | (have : Evolves _ t_ := h_; clear_value t_)
      | with_reducible apply State.progTrap_evolves | with_reducible apply State.issue_evolves
      | with_reducible apply State.retire__evolves | (intro _ _ _; (try dsimp -zeta only))
      | (intro _; (try dsimp -zeta only))
      | (extract_lets +onlyGivenNames t_; (refine_lift have h_ : Evolves s0 t_ := ?_; ?_); rotate_left; dsimp -zeta only [t_])
      | (extract_lets +onlyGivenNames t_; (refine_lift have h_ : Evolves s0 t_.2 := ?_; ?_); rotate_left; dsimp -zeta only [t_])
      | (extract_lets +onlyGivenNames t_) | split)

theorem State.storeI_evolves {s0 s : State} (major : Nat) (n : Nat) (h : Thr) (f : IForm) (hs : Evolves s0 s) :
    Evolves s0 (State.storeI major n h f s) := by
  unfold State.storeI
  repeat' (first
      | with_reducible assumption | (have : Evolves _ t_ := h_; clear_value t_)
      | with_reducible apply State.updThread_evolves | with_reducible apply State.progTrap_evolves
      | with_reducible apply State.goTo_evolves | with_reducible apply State.issue_evolves
      | (intro _ _ _; (try dsimp -zeta only)) | (intro _; (try dsimp -zeta only))
      | (extract_lets +onlyGivenNames t_; (refine_lift have h_ : Evolves s0 t_ := ?_; ?_); rotate_left; dsimp -zeta only [t_])
      | (extract_lets +onlyGivenNames t_; (refine_lift have h_ : Evolves s0 t_.2 := ?_; ?_); rotate_left; dsimp -zeta only [t_])
      | (extract_lets +onlyGivenNames t_) | split)

theorem State.sysR_evolves {s0 s : State} (fn : Nat) (op : Job → Thread → Word) (h : Thr) (f : RForm)
    (hs : Evolves s0 s) :
    Evolves s0 (State.sysR fn op h f s) := by
  unfold State.sysR
  repeat' (first
      | with_reducible assumption | with_reducible apply State.issueIf_evolves
      | with_reducible apply State.retire__evolves | (intro _ _ _; (try dsimp -zeta only))
      | (intro _; (try dsimp -zeta only)) | split)

theorem execAdd_evolves {s0 s : State} (h : Thr) (f : RForm) (hs : Evolves s0 s) :
    ∃ r_, execAdd h f s = .next r_ ∧ Evolves s0 r_ := by
  refine ⟨_, rfl, ?_⟩
  repeat' (first
      | with_reducible assumption | with_reducible apply State.intR_evolves | (intro _ _ _; (try dsimp -zeta only))
      | (intro _; (try dsimp -zeta only)) | split)

theorem execSub_evolves {s0 s : State} (h : Thr) (f : RForm) (hs : Evolves s0 s) :
    ∃ r_, execSub h f s = .next r_ ∧ Evolves s0 r_ := by
  refine ⟨_, rfl, ?_⟩
  repeat' (first
      | with_reducible assumption | with_reducible apply State.intR_evolves | (intro _ _ _; (try dsimp -zeta only))
      | (intro _; (try dsimp -zeta only)) | split)

theorem execAnd_evolves {s0 s : State} (h : Thr) (f : RForm) (hs : Evolves s0 s) :
    ∃ r_, execAnd h f s = .next r_ ∧ Evolves s0 r_ := by
  refine ⟨_, rfl, ?_⟩
  repeat' (first
      | with_reducible assumption | with_reducible apply State.intR_evolves | (intro _ _ _; (try dsimp -zeta only))
      | (intro _; (try dsimp -zeta only)) | split)

theorem execOr_evolves {s0 s : State} (h : Thr) (f : RForm) (hs : Evolves s0 s) :
    ∃ r_, execOr h f s = .next r_ ∧ Evolves s0 r_ := by
  refine ⟨_, rfl, ?_⟩
  repeat' (first
      | with_reducible assumption | with_reducible apply State.intR_evolves | (intro _ _ _; (try dsimp -zeta only))
      | (intro _; (try dsimp -zeta only)) | split)

theorem execXor_evolves {s0 s : State} (h : Thr) (f : RForm) (hs : Evolves s0 s) :
    ∃ r_, execXor h f s = .next r_ ∧ Evolves s0 r_ := by
  refine ⟨_, rfl, ?_⟩
  repeat' (first
      | with_reducible assumption | with_reducible apply State.intR_evolves | (intro _ _ _; (try dsimp -zeta only))
      | (intro _; (try dsimp -zeta only)) | split)

theorem execSll_evolves {s0 s : State} (h : Thr) (f : RForm) (hs : Evolves s0 s) :
    ∃ r_, execSll h f s = .next r_ ∧ Evolves s0 r_ := by
  refine ⟨_, rfl, ?_⟩
  repeat' (first
      | with_reducible assumption | with_reducible apply State.intR_evolves | (intro _ _ _; (try dsimp -zeta only))
      | (intro _; (try dsimp -zeta only)) | split)

theorem execSrl_evolves {s0 s : State} (h : Thr) (f : RForm) (hs : Evolves s0 s) :
    ∃ r_, execSrl h f s = .next r_ ∧ Evolves s0 r_ := by
  refine ⟨_, rfl, ?_⟩
  repeat' (first
      | with_reducible assumption | with_reducible apply State.intR_evolves | (intro _ _ _; (try dsimp -zeta only))
      | (intro _; (try dsimp -zeta only)) | split)

theorem execSra_evolves {s0 s : State} (h : Thr) (f : RForm) (hs : Evolves s0 s) :
    ∃ r_, execSra h f s = .next r_ ∧ Evolves s0 r_ := by
  refine ⟨_, rfl, ?_⟩
  repeat' (first
      | with_reducible assumption | with_reducible apply State.intR_evolves | (intro _ _ _; (try dsimp -zeta only))
      | (intro _; (try dsimp -zeta only)) | split)

theorem execSlt_evolves {s0 s : State} (h : Thr) (f : RForm) (hs : Evolves s0 s) :
    ∃ r_, execSlt h f s = .next r_ ∧ Evolves s0 r_ := by
  refine ⟨_, rfl, ?_⟩
  repeat' (first
      | with_reducible assumption | with_reducible apply State.intR_evolves | (intro _ _ _; (try dsimp -zeta only))
      | (intro _; (try dsimp -zeta only)) | split)

theorem execSltu_evolves {s0 s : State} (h : Thr) (f : RForm) (hs : Evolves s0 s) :
    ∃ r_, execSltu h f s = .next r_ ∧ Evolves s0 r_ := by
  refine ⟨_, rfl, ?_⟩
  repeat' (first
      | with_reducible assumption | with_reducible apply State.intR_evolves | (intro _ _ _; (try dsimp -zeta only))
      | (intro _; (try dsimp -zeta only)) | split)

theorem execMin_evolves {s0 s : State} (h : Thr) (f : RForm) (hs : Evolves s0 s) :
    ∃ r_, execMin h f s = .next r_ ∧ Evolves s0 r_ := by
  refine ⟨_, rfl, ?_⟩
  repeat' (first
      | with_reducible assumption | with_reducible apply State.intR_evolves | (intro _ _ _; (try dsimp -zeta only))
      | (intro _; (try dsimp -zeta only)) | split)

theorem execMax_evolves {s0 s : State} (h : Thr) (f : RForm) (hs : Evolves s0 s) :
    ∃ r_, execMax h f s = .next r_ ∧ Evolves s0 r_ := by
  refine ⟨_, rfl, ?_⟩
  repeat' (first
      | with_reducible assumption | with_reducible apply State.intR_evolves | (intro _ _ _; (try dsimp -zeta only))
      | (intro _; (try dsimp -zeta only)) | split)

theorem execMinu_evolves {s0 s : State} (h : Thr) (f : RForm) (hs : Evolves s0 s) :
    ∃ r_, execMinu h f s = .next r_ ∧ Evolves s0 r_ := by
  refine ⟨_, rfl, ?_⟩
  repeat' (first
      | with_reducible assumption | with_reducible apply State.intR_evolves | (intro _ _ _; (try dsimp -zeta only))
      | (intro _; (try dsimp -zeta only)) | split)

theorem execMaxu_evolves {s0 s : State} (h : Thr) (f : RForm) (hs : Evolves s0 s) :
    ∃ r_, execMaxu h f s = .next r_ ∧ Evolves s0 r_ := by
  refine ⟨_, rfl, ?_⟩
  repeat' (first
      | with_reducible assumption | with_reducible apply State.intR_evolves | (intro _ _ _; (try dsimp -zeta only))
      | (intro _; (try dsimp -zeta only)) | split)

theorem execMul_evolves {s0 s : State} (h : Thr) (f : RForm) (hs : Evolves s0 s) :
    ∃ r_, execMul h f s = .next r_ ∧ Evolves s0 r_ := by
  refine ⟨_, rfl, ?_⟩
  repeat' (first
      | with_reducible assumption | with_reducible apply State.intR_evolves | (intro _ _ _; (try dsimp -zeta only))
      | (intro _; (try dsimp -zeta only)) | split)

theorem execMulhu_evolves {s0 s : State} (h : Thr) (f : RForm) (hs : Evolves s0 s) :
    ∃ r_, execMulhu h f s = .next r_ ∧ Evolves s0 r_ := by
  refine ⟨_, rfl, ?_⟩
  repeat' (first
      | with_reducible assumption | with_reducible apply State.intR_evolves | (intro _ _ _; (try dsimp -zeta only))
      | (intro _; (try dsimp -zeta only)) | split)

theorem execAddi_evolves {s0 s : State} (h : Thr) (f : IForm) (hs : Evolves s0 s) :
    ∃ r_, execAddi h f s = .next r_ ∧ Evolves s0 r_ := by
  refine ⟨_, rfl, ?_⟩
  repeat' (first
      | with_reducible assumption | with_reducible apply State.intI_evolves | (intro _ _ _; (try dsimp -zeta only))
      | (intro _; (try dsimp -zeta only)) | split)

theorem execAndi_evolves {s0 s : State} (h : Thr) (f : IForm) (hs : Evolves s0 s) :
    ∃ r_, execAndi h f s = .next r_ ∧ Evolves s0 r_ := by
  refine ⟨_, rfl, ?_⟩
  repeat' (first
      | with_reducible assumption | with_reducible apply State.intI_evolves | (intro _ _ _; (try dsimp -zeta only))
      | (intro _; (try dsimp -zeta only)) | split)

theorem execOri_evolves {s0 s : State} (h : Thr) (f : IForm) (hs : Evolves s0 s) :
    ∃ r_, execOri h f s = .next r_ ∧ Evolves s0 r_ := by
  refine ⟨_, rfl, ?_⟩
  repeat' (first
      | with_reducible assumption | with_reducible apply State.intI_evolves | (intro _ _ _; (try dsimp -zeta only))
      | (intro _; (try dsimp -zeta only)) | split)

theorem execXori_evolves {s0 s : State} (h : Thr) (f : IForm) (hs : Evolves s0 s) :
    ∃ r_, execXori h f s = .next r_ ∧ Evolves s0 r_ := by
  refine ⟨_, rfl, ?_⟩
  repeat' (first
      | with_reducible assumption | with_reducible apply State.intI_evolves | (intro _ _ _; (try dsimp -zeta only))
      | (intro _; (try dsimp -zeta only)) | split)

theorem execShi_evolves {s0 s : State} (h : Thr) (f : IForm) (hs : Evolves s0 s) :
    ∃ r_, execShi h f s = .next r_ ∧ Evolves s0 r_ := by
  refine ⟨_, rfl, ?_⟩
  repeat' (first
      | with_reducible assumption | with_reducible apply State.intI_evolves | (intro _ _ _; (try dsimp -zeta only))
      | (intro _; (try dsimp -zeta only)) | split)

theorem execLui_evolves {s0 s : State} (h : Thr) (f : UForm) (hs : Evolves s0 s) :
    ∃ r_, execLui h f s = .next r_ ∧ Evolves s0 r_ := by
  refine ⟨_, rfl, ?_⟩
  repeat' (first
      | with_reducible assumption | with_reducible apply State.issue_evolves
      | with_reducible apply State.retire__evolves | (intro _ _ _; (try dsimp -zeta only))
      | (intro _; (try dsimp -zeta only)) | split)

theorem execFadd_evolves {s0 s : State} (h : Thr) (f : RForm) (hs : Evolves s0 s) :
    ∃ r_, execFadd h f s = .next r_ ∧ Evolves s0 r_ := by
  refine ⟨_, rfl, ?_⟩
  repeat' (first
      | with_reducible assumption | with_reducible apply State.flagR_evolves | (intro _ _ _; (try dsimp -zeta only))
      | (intro _; (try dsimp -zeta only)) | split)

theorem execFsub_evolves {s0 s : State} (h : Thr) (f : RForm) (hs : Evolves s0 s) :
    ∃ r_, execFsub h f s = .next r_ ∧ Evolves s0 r_ := by
  refine ⟨_, rfl, ?_⟩
  repeat' (first
      | with_reducible assumption | with_reducible apply State.flagR_evolves | (intro _ _ _; (try dsimp -zeta only))
      | (intro _; (try dsimp -zeta only)) | split)

theorem execFmul_evolves {s0 s : State} (h : Thr) (f : RForm) (hs : Evolves s0 s) :
    ∃ r_, execFmul h f s = .next r_ ∧ Evolves s0 r_ := by
  refine ⟨_, rfl, ?_⟩
  repeat' (first
      | with_reducible assumption | with_reducible apply State.flagR_evolves | (intro _ _ _; (try dsimp -zeta only))
      | (intro _; (try dsimp -zeta only)) | split)

theorem execFma_evolves {s0 s : State} (h : Thr) (f : RForm) (hs : Evolves s0 s) :
    ∃ r_, execFma h f s = .next r_ ∧ Evolves s0 r_ := by
  refine ⟨_, rfl, ?_⟩
  repeat' (first
      | with_reducible assumption | with_reducible apply State.flagR_evolves | (intro _ _ _; (try dsimp -zeta only))
      | (intro _; (try dsimp -zeta only)) | split)

theorem execFmin_evolves {s0 s : State} (h : Thr) (f : RForm) (hs : Evolves s0 s) :
    ∃ r_, execFmin h f s = .next r_ ∧ Evolves s0 r_ := by
  refine ⟨_, rfl, ?_⟩
  repeat' (first
      | with_reducible assumption | with_reducible apply State.flagR_evolves | (intro _ _ _; (try dsimp -zeta only))
      | (intro _; (try dsimp -zeta only)) | split)

theorem execFmax_evolves {s0 s : State} (h : Thr) (f : RForm) (hs : Evolves s0 s) :
    ∃ r_, execFmax h f s = .next r_ ∧ Evolves s0 r_ := by
  refine ⟨_, rfl, ?_⟩
  repeat' (first
      | with_reducible assumption | with_reducible apply State.flagR_evolves | (intro _ _ _; (try dsimp -zeta only))
      | (intro _; (try dsimp -zeta only)) | split)

theorem execFabs_evolves {s0 s : State} (h : Thr) (f : RForm) (hs : Evolves s0 s) :
    ∃ r_, execFabs h f s = .next r_ ∧ Evolves s0 r_ := by
  refine ⟨_, rfl, ?_⟩
  repeat' (first
      | with_reducible assumption | with_reducible apply State.flagR_evolves | (intro _ _ _; (try dsimp -zeta only))
      | (intro _; (try dsimp -zeta only)) | split)

theorem execFneg_evolves {s0 s : State} (h : Thr) (f : RForm) (hs : Evolves s0 s) :
    ∃ r_, execFneg h f s = .next r_ ∧ Evolves s0 r_ := by
  refine ⟨_, rfl, ?_⟩
  repeat' (first
      | with_reducible assumption | with_reducible apply State.flagR_evolves | (intro _ _ _; (try dsimp -zeta only))
      | (intro _; (try dsimp -zeta only)) | split)

theorem execFcvtSW_evolves {s0 s : State} (h : Thr) (f : RForm) (hs : Evolves s0 s) :
    ∃ r_, execFcvtSW h f s = .next r_ ∧ Evolves s0 r_ := by
  refine ⟨_, rfl, ?_⟩
  repeat' (first
      | with_reducible assumption | with_reducible apply State.flagR_evolves | (intro _ _ _; (try dsimp -zeta only))
      | (intro _; (try dsimp -zeta only)) | split)

theorem execFcvtWS_evolves {s0 s : State} (h : Thr) (f : RForm) (hs : Evolves s0 s) :
    ∃ r_, execFcvtWS h f s = .next r_ ∧ Evolves s0 r_ := by
  refine ⟨_, rfl, ?_⟩
  repeat' (first
      | with_reducible assumption | with_reducible apply State.flagR_evolves | (intro _ _ _; (try dsimp -zeta only))
      | (intro _; (try dsimp -zeta only)) | split)

theorem execFexp2_evolves {s0 s : State} (h : Thr) (f : RForm) (hs : Evolves s0 s) :
    ∃ r_, execFexp2 h f s = .next r_ ∧ Evolves s0 r_ := by
  refine ⟨_, rfl, ?_⟩
  repeat' (first
      | with_reducible assumption | with_reducible apply State.flagR_evolves | (intro _ _ _; (try dsimp -zeta only))
      | (intro _; (try dsimp -zeta only)) | split)

theorem execFlog2_evolves {s0 s : State} (h : Thr) (f : RForm) (hs : Evolves s0 s) :
    ∃ r_, execFlog2 h f s = .next r_ ∧ Evolves s0 r_ := by
  refine ⟨_, rfl, ?_⟩
  repeat' (first
      | with_reducible assumption | with_reducible apply State.flagR_evolves | (intro _ _ _; (try dsimp -zeta only))
      | (intro _; (try dsimp -zeta only)) | split)

theorem execFrcp_evolves {s0 s : State} (h : Thr) (f : RForm) (hs : Evolves s0 s) :
    ∃ r_, execFrcp h f s = .next r_ ∧ Evolves s0 r_ := by
  refine ⟨_, rfl, ?_⟩
  repeat' (first
      | with_reducible assumption | with_reducible apply State.flagR_evolves | (intro _ _ _; (try dsimp -zeta only))
      | (intro _; (try dsimp -zeta only)) | split)

theorem execFrsq_evolves {s0 s : State} (h : Thr) (f : RForm) (hs : Evolves s0 s) :
    ∃ r_, execFrsq h f s = .next r_ ∧ Evolves s0 r_ := by
  refine ⟨_, rfl, ?_⟩
  repeat' (first
      | with_reducible assumption | with_reducible apply State.flagR_evolves | (intro _ _ _; (try dsimp -zeta only))
      | (intro _; (try dsimp -zeta only)) | split)

theorem execBadd2_evolves {s0 s : State} (h : Thr) (f : RForm) (hs : Evolves s0 s) :
    ∃ r_, execBadd2 h f s = .next r_ ∧ Evolves s0 r_ := by
  refine ⟨_, rfl, ?_⟩
  repeat' (first
      | with_reducible assumption | with_reducible apply State.flagR_evolves | (intro _ _ _; (try dsimp -zeta only))
      | (intro _; (try dsimp -zeta only)) | split)

theorem execBmul2_evolves {s0 s : State} (h : Thr) (f : RForm) (hs : Evolves s0 s) :
    ∃ r_, execBmul2 h f s = .next r_ ∧ Evolves s0 r_ := by
  refine ⟨_, rfl, ?_⟩
  repeat' (first
      | with_reducible assumption | with_reducible apply State.flagR_evolves | (intro _ _ _; (try dsimp -zeta only))
      | (intro _; (try dsimp -zeta only)) | split)

theorem execBfma2_evolves {s0 s : State} (h : Thr) (f : RForm) (hs : Evolves s0 s) :
    ∃ r_, execBfma2 h f s = .next r_ ∧ Evolves s0 r_ := by
  refine ⟨_, rfl, ?_⟩
  repeat' (first
      | with_reducible assumption | with_reducible apply State.flagR_evolves | (intro _ _ _; (try dsimp -zeta only))
      | (intro _; (try dsimp -zeta only)) | split)

theorem execBmax2_evolves {s0 s : State} (h : Thr) (f : RForm) (hs : Evolves s0 s) :
    ∃ r_, execBmax2 h f s = .next r_ ∧ Evolves s0 r_ := by
  refine ⟨_, rfl, ?_⟩
  repeat' (first
      | with_reducible assumption | with_reducible apply State.flagR_evolves | (intro _ _ _; (try dsimp -zeta only))
      | (intro _; (try dsimp -zeta only)) | split)

theorem execBpack_evolves {s0 s : State} (h : Thr) (f : RForm) (hs : Evolves s0 s) :
    ∃ r_, execBpack h f s = .next r_ ∧ Evolves s0 r_ := by
  refine ⟨_, rfl, ?_⟩
  repeat' (first
      | with_reducible assumption | with_reducible apply State.flagR_evolves | (intro _ _ _; (try dsimp -zeta only))
      | (intro _; (try dsimp -zeta only)) | split)

theorem execBlo_evolves {s0 s : State} (h : Thr) (f : RForm) (hs : Evolves s0 s) :
    ∃ r_, execBlo h f s = .next r_ ∧ Evolves s0 r_ := by
  refine ⟨_, rfl, ?_⟩
  repeat' (first
      | with_reducible assumption | with_reducible apply State.flagR_evolves | (intro _ _ _; (try dsimp -zeta only))
      | (intro _; (try dsimp -zeta only)) | split)

theorem execBhi_evolves {s0 s : State} (h : Thr) (f : RForm) (hs : Evolves s0 s) :
    ∃ r_, execBhi h f s = .next r_ ∧ Evolves s0 r_ := by
  refine ⟨_, rfl, ?_⟩
  repeat' (first
      | with_reducible assumption | with_reducible apply State.flagR_evolves | (intro _ _ _; (try dsimp -zeta only))
      | (intro _; (try dsimp -zeta only)) | split)

theorem execEq_evolves {s0 s : State} (h : Thr) (f : RForm) (hs : Evolves s0 s) :
    ∃ r_, execEq h f s = .next r_ ∧ Evolves s0 r_ := by
  refine ⟨_, rfl, ?_⟩
  repeat' (first
      | with_reducible assumption | with_reducible apply State.cmpR_evolves | (intro _ _ _; (try dsimp -zeta only))
      | (intro _; (try dsimp -zeta only)) | split)

theorem execNe_evolves {s0 s : State} (h : Thr) (f : RForm) (hs : Evolves s0 s) :
    ∃ r_, execNe h f s = .next r_ ∧ Evolves s0 r_ := by
  refine ⟨_, rfl, ?_⟩
  repeat' (first
      | with_reducible assumption | with_reducible apply State.cmpR_evolves | (intro _ _ _; (try dsimp -zeta only))
      | (intro _; (try dsimp -zeta only)) | split)

theorem execLt_evolves {s0 s : State} (h : Thr) (f : RForm) (hs : Evolves s0 s) :
    ∃ r_, execLt h f s = .next r_ ∧ Evolves s0 r_ := by
  refine ⟨_, rfl, ?_⟩
  repeat' (first
      | with_reducible assumption | with_reducible apply State.cmpR_evolves | (intro _ _ _; (try dsimp -zeta only))
      | (intro _; (try dsimp -zeta only)) | split)

theorem execLtu_evolves {s0 s : State} (h : Thr) (f : RForm) (hs : Evolves s0 s) :
    ∃ r_, execLtu h f s = .next r_ ∧ Evolves s0 r_ := by
  refine ⟨_, rfl, ?_⟩
  repeat' (first
      | with_reducible assumption | with_reducible apply State.cmpR_evolves | (intro _ _ _; (try dsimp -zeta only))
      | (intro _; (try dsimp -zeta only)) | split)

theorem execGe_evolves {s0 s : State} (h : Thr) (f : RForm) (hs : Evolves s0 s) :
    ∃ r_, execGe h f s = .next r_ ∧ Evolves s0 r_ := by
  refine ⟨_, rfl, ?_⟩
  repeat' (first
      | with_reducible assumption | with_reducible apply State.cmpR_evolves | (intro _ _ _; (try dsimp -zeta only))
      | (intro _; (try dsimp -zeta only)) | split)

theorem execGeu_evolves {s0 s : State} (h : Thr) (f : RForm) (hs : Evolves s0 s) :
    ∃ r_, execGeu h f s = .next r_ ∧ Evolves s0 r_ := by
  refine ⟨_, rfl, ?_⟩
  repeat' (first
      | with_reducible assumption | with_reducible apply State.cmpR_evolves | (intro _ _ _; (try dsimp -zeta only))
      | (intro _; (try dsimp -zeta only)) | split)

theorem execFeq_evolves {s0 s : State} (h : Thr) (f : RForm) (hs : Evolves s0 s) :
    ∃ r_, execFeq h f s = .next r_ ∧ Evolves s0 r_ := by
  refine ⟨_, rfl, ?_⟩
  repeat' (first
      | with_reducible assumption | with_reducible apply State.cmpR_evolves | (intro _ _ _; (try dsimp -zeta only))
      | (intro _; (try dsimp -zeta only)) | split)

theorem execFlt_evolves {s0 s : State} (h : Thr) (f : RForm) (hs : Evolves s0 s) :
    ∃ r_, execFlt h f s = .next r_ ∧ Evolves s0 r_ := by
  refine ⟨_, rfl, ?_⟩
  repeat' (first
      | with_reducible assumption | with_reducible apply State.cmpR_evolves | (intro _ _ _; (try dsimp -zeta only))
      | (intro _; (try dsimp -zeta only)) | split)

theorem execFle_evolves {s0 s : State} (h : Thr) (f : RForm) (hs : Evolves s0 s) :
    ∃ r_, execFle h f s = .next r_ ∧ Evolves s0 r_ := by
  refine ⟨_, rfl, ?_⟩
  repeat' (first
      | with_reducible assumption | with_reducible apply State.cmpR_evolves | (intro _ _ _; (try dsimp -zeta only))
      | (intro _; (try dsimp -zeta only)) | split)

theorem execPand_evolves {s0 s : State} (h : Thr) (f : RForm) (hs : Evolves s0 s) :
    ∃ r_, execPand h f s = .next r_ ∧ Evolves s0 r_ := by
  refine ⟨_, rfl, ?_⟩
  repeat' (first
      | with_reducible assumption | with_reducible apply State.predR_evolves | (intro _ _ _; (try dsimp -zeta only))
      | (intro _; (try dsimp -zeta only)) | split)

theorem execPor_evolves {s0 s : State} (h : Thr) (f : RForm) (hs : Evolves s0 s) :
    ∃ r_, execPor h f s = .next r_ ∧ Evolves s0 r_ := by
  refine ⟨_, rfl, ?_⟩
  repeat' (first
      | with_reducible assumption | with_reducible apply State.predR_evolves | (intro _ _ _; (try dsimp -zeta only))
      | (intro _; (try dsimp -zeta only)) | split)

theorem execPxor_evolves {s0 s : State} (h : Thr) (f : RForm) (hs : Evolves s0 s) :
    ∃ r_, execPxor h f s = .next r_ ∧ Evolves s0 r_ := by
  refine ⟨_, rfl, ?_⟩
  repeat' (first
      | with_reducible assumption | with_reducible apply State.predR_evolves | (intro _ _ _; (try dsimp -zeta only))
      | (intro _; (try dsimp -zeta only)) | split)

theorem execPnot_evolves {s0 s : State} (h : Thr) (f : RForm) (hs : Evolves s0 s) :
    ∃ r_, execPnot h f s = .next r_ ∧ Evolves s0 r_ := by
  refine ⟨_, rfl, ?_⟩
  repeat' (first
      | with_reducible assumption | with_reducible apply State.predR_evolves | (intro _ _ _; (try dsimp -zeta only))
      | (intro _; (try dsimp -zeta only)) | split)

theorem execPtos_evolves {s0 s : State} (h : Thr) (f : RForm) (hs : Evolves s0 s) :
    ∃ r_, execPtos h f s = .next r_ ∧ Evolves s0 r_ := by
  refine ⟨_, rfl, ?_⟩
  repeat' (first
      | with_reducible assumption | with_reducible apply State.issueIf_evolves
      | with_reducible apply State.retire__evolves | (intro _ _ _; (try dsimp -zeta only))
      | (intro _; (try dsimp -zeta only)) | split)

theorem execStop_evolves {s0 s : State} (h : Thr) (f : RForm) (hs : Evolves s0 s) :
    ∃ r_, execStop h f s = .next r_ ∧ Evolves s0 r_ := by
  refine ⟨_, rfl, ?_⟩
  repeat' (first
      | with_reducible assumption | with_reducible apply State.issueIf_evolves
      | with_reducible apply State.retire__evolves | (intro _ _ _; (try dsimp -zeta only))
      | (intro _; (try dsimp -zeta only)) | split)

theorem execLdb_evolves {s0 s : State} (h : Thr) (f : IForm) (hs : Evolves s0 s) :
    ∃ r_, execLdb h f s = .next r_ ∧ Evolves s0 r_ := by
  refine ⟨_, rfl, ?_⟩
  repeat' (first
      | with_reducible assumption | with_reducible apply State.loadI_evolves | (intro _ _ _; (try dsimp -zeta only))
      | (intro _; (try dsimp -zeta only)) | split)

theorem execLdh_evolves {s0 s : State} (h : Thr) (f : IForm) (hs : Evolves s0 s) :
    ∃ r_, execLdh h f s = .next r_ ∧ Evolves s0 r_ := by
  refine ⟨_, rfl, ?_⟩
  repeat' (first
      | with_reducible assumption | with_reducible apply State.loadI_evolves | (intro _ _ _; (try dsimp -zeta only))
      | (intro _; (try dsimp -zeta only)) | split)

theorem execLdw_evolves {s0 s : State} (h : Thr) (f : IForm) (hs : Evolves s0 s) :
    ∃ r_, execLdw h f s = .next r_ ∧ Evolves s0 r_ := by
  refine ⟨_, rfl, ?_⟩
  repeat' (first
      | with_reducible assumption | with_reducible apply State.loadI_evolves | (intro _ _ _; (try dsimp -zeta only))
      | (intro _; (try dsimp -zeta only)) | split)

theorem execLdq_evolves {s0 s : State} (h : Thr) (f : IForm) (hs : Evolves s0 s) :
    ∃ r_, execLdq h f s = .next r_ ∧ Evolves s0 r_ := by
  refine ⟨_, rfl, ?_⟩
  repeat' (first
      | with_reducible assumption | with_reducible apply State.loadI_evolves | (intro _ _ _; (try dsimp -zeta only))
      | (intro _; (try dsimp -zeta only)) | split)

theorem execStb_evolves {s0 s : State} (h : Thr) (f : IForm) (hs : Evolves s0 s) :
    ∃ r_, execStb h f s = .next r_ ∧ Evolves s0 r_ := by
  refine ⟨_, rfl, ?_⟩
  repeat' (first
      | with_reducible assumption | with_reducible apply State.storeI_evolves | (intro _ _ _; (try dsimp -zeta only))
      | (intro _; (try dsimp -zeta only)) | split)

theorem execSth_evolves {s0 s : State} (h : Thr) (f : IForm) (hs : Evolves s0 s) :
    ∃ r_, execSth h f s = .next r_ ∧ Evolves s0 r_ := by
  refine ⟨_, rfl, ?_⟩
  repeat' (first
      | with_reducible assumption | with_reducible apply State.storeI_evolves | (intro _ _ _; (try dsimp -zeta only))
      | (intro _; (try dsimp -zeta only)) | split)

theorem execStw_evolves {s0 s : State} (h : Thr) (f : IForm) (hs : Evolves s0 s) :
    ∃ r_, execStw h f s = .next r_ ∧ Evolves s0 r_ := by
  refine ⟨_, rfl, ?_⟩
  repeat' (first
      | with_reducible assumption | with_reducible apply State.storeI_evolves | (intro _ _ _; (try dsimp -zeta only))
      | (intro _; (try dsimp -zeta only)) | split)

theorem execStq_evolves {s0 s : State} (h : Thr) (f : IForm) (hs : Evolves s0 s) :
    ∃ r_, execStq h f s = .next r_ ∧ Evolves s0 r_ := by
  refine ⟨_, rfl, ?_⟩
  repeat' (first
      | with_reducible assumption | with_reducible apply State.storeI_evolves | (intro _ _ _; (try dsimp -zeta only))
      | (intro _; (try dsimp -zeta only)) | split)

theorem execBr_evolves {s0 s : State} (h : Thr) (f : BForm) (hs : Evolves s0 s) :
    ∃ r_, execBr h f s = .next r_ ∧ Evolves s0 r_ := by
  refine ⟨_, rfl, ?_⟩
  repeat' (first
      | with_reducible assumption | with_reducible apply State.goTo_evolves | with_reducible apply State.issue_evolves
      | (intro _ _ _; (try dsimp -zeta only)) | (intro _; (try dsimp -zeta only)) | split)

theorem execJal_evolves {s0 s : State} (h : Thr) (f : UForm) (hs : Evolves s0 s) :
    ∃ r_, execJal h f s = .next r_ ∧ Evolves s0 r_ := by
  refine ⟨_, rfl, ?_⟩
  repeat' (first
      | with_reducible assumption | with_reducible apply State.updThread_evolves
      | with_reducible apply State.goTo_evolves | with_reducible apply State.issue_evolves
      | (intro _ _ _; (try dsimp -zeta only)) | (intro _; (try dsimp -zeta only)) | split)

theorem execJr_evolves {s0 s : State} (h : Thr) (f : RForm) (hs : Evolves s0 s) :
    ∃ r_, execJr h f s = .next r_ ∧ Evolves s0 r_ := by
  refine ⟨_, rfl, ?_⟩
  repeat' (first
      | with_reducible assumption | with_reducible apply State.goTo_evolves
      | with_reducible apply State.issueIf_evolves | (intro _ _ _; (try dsimp -zeta only))
      | (intro _; (try dsimp -zeta only)) | split)

theorem execExit_evolves {s0 s : State} (h : Thr) (f : RForm) (hs : Evolves s0 s) :
    ∃ r_, execExit h f s = .next r_ ∧ Evolves s0 r_ := by
  refine ⟨_, rfl, ?_⟩
  repeat' (first
      | with_reducible assumption | with_reducible apply State.updThread_evolves
      | with_reducible apply State.issueIf_evolves | with_reducible apply State.publish_evolves
      | (intro _ _ _; (try dsimp -zeta only)) | (intro _; (try dsimp -zeta only)) | split)

theorem execTid_evolves {s0 s : State} (h : Thr) (f : RForm) (hs : Evolves s0 s) :
    ∃ r_, execTid h f s = .next r_ ∧ Evolves s0 r_ := by
  refine ⟨_, rfl, ?_⟩
  repeat' (first
      | with_reducible assumption | with_reducible apply State.sysR_evolves | (intro _ _ _; (try dsimp -zeta only))
      | (intro _; (try dsimp -zeta only)) | split)

theorem execCid_evolves {s0 s : State} (h : Thr) (f : RForm) (hs : Evolves s0 s) :
    ∃ r_, execCid h f s = .next r_ ∧ Evolves s0 r_ := by
  refine ⟨_, rfl, ?_⟩
  repeat' (first
      | with_reducible assumption | with_reducible apply State.sysR_evolves | (intro _ _ _; (try dsimp -zeta only))
      | (intro _; (try dsimp -zeta only)) | split)

theorem execNcl_evolves {s0 s : State} (h : Thr) (f : RForm) (hs : Evolves s0 s) :
    ∃ r_, execNcl h f s = .next r_ ∧ Evolves s0 r_ := by
  refine ⟨_, rfl, ?_⟩
  repeat' (first
      | with_reducible assumption | with_reducible apply State.sysR_evolves | (intro _ _ _; (try dsimp -zeta only))
      | (intro _; (try dsimp -zeta only)) | split)

theorem execFlags_evolves {s0 s : State} (h : Thr) (f : RForm) (hs : Evolves s0 s) :
    ∃ r_, execFlags h f s = .next r_ ∧ Evolves s0 r_ := by
  refine ⟨_, rfl, ?_⟩
  repeat' (first
      | with_reducible assumption | with_reducible apply State.sysR_evolves | (intro _ _ _; (try dsimp -zeta only))
      | (intro _; (try dsimp -zeta only)) | split)

theorem execTrap_evolves {s0 s : State} (h : Thr) (f : RForm) (hs : Evolves s0 s) :
    ∃ r_, execTrap h f s = .next r_ ∧ Evolves s0 r_ := by
  refine ⟨_, rfl, ?_⟩
  repeat' (first
      | with_reducible assumption | with_reducible apply State.progTrap_evolves
      | with_reducible apply State.issueIf_evolves | (intro _ _ _; (try dsimp -zeta only))
      | (intro _; (try dsimp -zeta only)) | split)

theorem execBtime_evolves {s0 s : State} (h : Thr) (f : RForm) (hs : Evolves s0 s) :
    ∃ r_, execBtime h f s = .next r_ ∧ Evolves s0 r_ := by
  refine ⟨_, rfl, ?_⟩
  repeat' (first
      | with_reducible assumption | with_reducible apply State.sysR_evolves | (intro _ _ _; (try dsimp -zeta only))
      | (intro _; (try dsimp -zeta only)) | split)

theorem execWide_evolves {s0 s : State} (h : Thr) (f : RForm) (hs : Evolves s0 s) :
    ∃ r_, execWide h f s = .next r_ ∧ Evolves s0 r_ := by
  refine ⟨_, rfl, ?_⟩
  repeat' (first
      | with_reducible assumption | with_reducible apply State.sysR_evolves | (intro _ _ _; (try dsimp -zeta only))
      | (intro _; (try dsimp -zeta only)) | split)

/-! ### Machine/Stream.lean -/

theorem State.touchSource_evolves {s0 s : State} (j : Job) (d : StreamDesc) (rs : List (Nat × Nat))
    (hs : Evolves s0 s) :
    Evolves s0 (State.touchSource j d rs s) := by
  unfold State.touchSource
  repeat' (first
      | with_reducible assumption | with_reducible apply State.touch_evolves | with_reducible apply Evolves.foldl
      | (intro _ _ _; (try dsimp -zeta only)) | (intro _; (try dsimp -zeta only)) | split)

/-! ### Machine/Engine.lean -/

theorem State.pumpEngine_evolves {s0 s : State} (e : Eng) (n0_ : Nat) (hs : Evolves s0 s) :
    Evolves s0 (State.pumpEngine e n0_ s) := by
  induction n0_ generalizing e s with
  | zero => unfold State.pumpEngine; exact hs
  | succ k_ ih_ =>
  unfold State.pumpEngine
  repeat' (first
      | with_reducible assumption | with_reducible apply ih_ | with_reducible apply State.updEngine_evolves
      | with_reducible apply State.progTrap_evolves | (intro _ _ _; (try dsimp -zeta only))
      | (intro _; (try dsimp -zeta only)) | split)

theorem State.startOps_evolves {s0 s : State} (e : Eng) (hs : Evolves s0 s) :
    Evolves s0 (State.startOps e s) := by
  unfold State.startOps
  repeat' (first
      | with_reducible assumption | with_reducible apply State.pumpEngine_evolves
      | (intro _ _ _; (try dsimp -zeta only)) | (intro _; (try dsimp -zeta only)) | split)

theorem State.judgeLoaded_evolves {s0 s : State} (e : Eng) (half : Nat) (hs : Evolves s0 s) :
    Evolves s0 (State.judgeLoaded e half s) := by
  unfold State.judgeLoaded
  repeat' (first
      | with_reducible assumption | with_reducible apply State.progTrap_evolves
      | with_reducible apply State.startOps_evolves | (intro _ _ _; (try dsimp -zeta only))
      | (intro _; (try dsimp -zeta only)) | split)

theorem State.queueEngOp_evolves {s0 s : State} (e : Eng) (o : EngOp) (hs : Evolves s0 s) :
    Evolves s0 (State.queueEngOp e o s) := by
  unfold State.queueEngOp
  repeat' (first
      | with_reducible assumption | with_reducible apply State.updEngine_evolves
      | with_reducible apply State.startOps_evolves | (intro _ _ _; (try dsimp -zeta only))
      | (intro _; (try dsimp -zeta only)) | split)

theorem State.takeIndices_evolves {s0 s : State} (id : Nat) (c : Nat) (rec_ : Nat) (n : Nat) (hs : Evolves s0 s) :
    Evolves s0 (State.takeIndices id c rec_ n s).2 := by
  unfold State.takeIndices
  repeat' (first
      | with_reducible assumption | with_reducible apply State.updCluster_evolves
      | (intro _ _ _; (try dsimp -zeta only)) | (intro _; (try dsimp -zeta only)) | split)

theorem State.takeIndices_evolves_of {s0 s : State} {id : Nat} {c : Nat} {rec_ : Nat} {n : Nat} {k_} {r_}
    (e_ : State.takeIndices id c rec_ n s = (k_, r_)) (hs : Evolves s0 s) : Evolves s0 r_ := by
  have := State.takeIndices_evolves id c rec_ n hs
  rwa [e_] at this

theorem State.deliver_evolves {s0 s : State} (id : Nat) (t : Stream) (hs : Evolves s0 s) :
    ∀ r_, State.deliver id t s = some r_ → Evolves s0 r_ := by
  unfold State.deliver
  (try dsimp only)
  repeat' (first
      | with_reducible assumption | with_reducible apply State.updJob_evolves
      | with_reducible apply State.updCluster_evolves | with_reducible apply State.touchSource_evolves
      | (simp only [Option.some.injEq, reduceCtorEq, forall_eq, forall_eq', false_implies, implies_true]) | split
      | (intro _ _ _; (try dsimp -zeta only)) | (intro _; (try dsimp -zeta only)))

theorem State.deliver_evolves_of {s0 s : State} {id : Nat} {t : Stream} {r_} (e_ : State.deliver id t s = some r_)
    (hs : Evolves s0 s) : Evolves s0 r_ :=
  State.deliver_evolves id t hs _ e_

theorem State.issueStaged_evolves {s0 s : State} (e : Eng) (o : EngOp) (r : Resident) (t : Stream)
    (spec : OperandSpec) (hs : Evolves s0 s) :
    Evolves s0 (State.issueStaged e o r t spec s) := by
  unfold State.issueStaged
  repeat' (first
      | with_reducible assumption | with_reducible apply State.updJob_evolves
      | with_reducible apply State.updEngine_evolves | with_reducible apply State.progTrap_evolves
      | with_reducible apply State.alignFault_evolves | with_reducible apply State.startOps_evolves
      | (intro _ _ _; (try dsimp -zeta only)) | (intro _; (try dsimp -zeta only)) | split)

theorem State.stageAhead_evolves {s0 s : State} (e : Eng) (j : Job) (hs : Evolves s0 s) :
    Evolves s0 (State.stageAhead e j s) := by
  unfold State.stageAhead
  split
  · rename_i t _
    cases h : s.deliver e.job t with
    | none => exact hs
    | some u => exact State.deliver_evolves _ _ hs u h
  · exact hs

theorem execGroupStaged_evolves {s0 s : State} (e : Eng) (hs : Evolves s0 s) :
    ∃ r_, execGroupStaged e s = .next r_ ∧ Evolves s0 r_ := by
  refine ⟨_, rfl, ?_⟩
  repeat' (first
      | with_reducible assumption | with_reducible apply State.issueStaged_evolves
      | with_reducible apply State.stageAhead_evolves
      | refine State.deliver_evolves_of (by with_reducible assumption) ?_ | (intro _ _ _; (try dsimp -zeta only))
      | (intro _; (try dsimp -zeta only)) | split)

theorem execPassEnd_evolves {s0 s : State} (e : Eng) (hs : Evolves s0 s) :
    ∃ r_, execPassEnd e s = .next r_ ∧ Evolves s0 r_ := by
  refine ⟨_, rfl, ?_⟩
  repeat' (first
      | with_reducible assumption | with_reducible apply State.updJob_evolves
      | with_reducible apply State.updEngine_evolves | with_reducible apply State.signalEnd_evolves
      | with_reducible apply State.startOps_evolves | (intro _ _ _; (try dsimp -zeta only))
      | (intro _; (try dsimp -zeta only)) | split)

theorem execDrainEnd_evolves {s0 s : State} (e : Eng) (tile : Nat) (hs : Evolves s0 s) :
    ∃ r_, execDrainEnd e tile s = .next r_ ∧ Evolves s0 r_ := by
  refine ⟨_, rfl, ?_⟩
  repeat' (first
      | with_reducible assumption | with_reducible apply State.updJob_evolves
      | with_reducible apply State.updStore_evolves | with_reducible apply State.updCluster_evolves
      | with_reducible apply State.updEngine_evolves | with_reducible apply State.signalEnd_evolves
      | with_reducible apply State.startOps_evolves | with_reducible apply memWrite_wf
      | with_reducible apply foldl_memWrite_wf | with_reducible apply Evolves.foldl
      | (intro _ _ _; (try dsimp -zeta only)) | (intro _; (try dsimp -zeta only)) | split)

theorem execAccldEnd_evolves {s0 s : State} (e : Eng) (tile : Nat) (hs : Evolves s0 s) :
    ∃ r_, execAccldEnd e tile s = .next r_ ∧ Evolves s0 r_ := by
  refine ⟨_, rfl, ?_⟩
  repeat' (first
      | with_reducible assumption | with_reducible apply State.updJob_evolves
      | with_reducible apply State.updEngine_evolves | with_reducible apply State.signalEnd_evolves
      | with_reducible apply State.startOps_evolves | (intro _ _ _; (try dsimp -zeta only))
      | (intro _; (try dsimp -zeta only)) | split)

theorem execLoadEnd_evolves {s0 s : State} (e : Eng) (hs : Evolves s0 s) :
    ∃ r_, execLoadEnd e s = .next r_ ∧ Evolves s0 r_ := by
  refine ⟨_, rfl, ?_⟩
  repeat' (first
      | with_reducible assumption | (have : Evolves _ t_ := h_; clear_value t_)
      | with_reducible apply State.updJob_evolves | with_reducible apply State.updCluster_evolves
      | with_reducible apply State.updEngine_evolves | with_reducible apply State.signalEnd_evolves
      | with_reducible apply State.alignFault_evolves | with_reducible apply State.touchSource_evolves
      | with_reducible apply State.judgeLoaded_evolves | (intro k_; simpa +zetaDelta using k_)
      | (intro _ _ _; (try dsimp -zeta only)) | (intro _; (try dsimp -zeta only))
      | (extract_lets +onlyGivenNames t_; (refine_lift have h_ : Evolves s0 t_ := ?_; ?_); rotate_left; dsimp -zeta only [t_])
      | (extract_lets +onlyGivenNames t_; (refine_lift have h_ : Evolves s0 t_.2 := ?_; ?_); rotate_left; dsimp -zeta only [t_])
      | (extract_lets +onlyGivenNames t_) | split | (clear_value *; split) | exact List.Subset.refl _
      | (simp +zetaDelta; done))

/-! ### Machine/Async.lean -/

theorem State.trapOr_evolves {s0 s f : State} (h : Thr) (pc : Nat) (c : IssueTrap) (hs : Evolves s0 s)
    (hf : Evolves s0 f) :
    Evolves s0 (State.trapOr s h pc c f) := by
  unfold State.trapOr
  repeat' (first
      | with_reducible assumption | with_reducible apply State.progTrap_evolves
      | (intro _ _ _; (try dsimp -zeta only)) | (intro _; (try dsimp -zeta only)) | split)

theorem State.streamOp_evolves {s0 s : State} (fn : Nat) (h : Thr) (f : SForm)
    (check : Job → Nat → StreamDesc → IssueTrap) (run : Job → Thread → StreamDesc → State → State) (hs : Evolves s0 s)
    (hrun : ∀ x0 x1 x2 x3, Evolves s0 x3 → Evolves s0 (run x0 x1 x2 x3)) :
    Evolves s0 (State.streamOp s fn h f check run) := by
  unfold State.streamOp
  repeat' (first
      | with_reducible assumption | with_reducible apply State.goTo_evolves
      | with_reducible apply State.issueIf_evolves | with_reducible apply State.publish_evolves
      | with_reducible apply State.trapOr_evolves | with_reducible apply hrun | (intro _ _ _; (try dsimp -zeta only))
      | (intro _; (try dsimp -zeta only)) | split)

theorem execXfer_evolves {s0 s : State} (h : Thr) (f : SForm) (hs : Evolves s0 s) :
    ∃ r_, execXfer h f s = .next r_ ∧ Evolves s0 r_ := by
  refine ⟨_, rfl, ?_⟩
  repeat' (first
      | with_reducible assumption | with_reducible apply State.updJob_evolves
      | with_reducible apply State.streamOp_evolves | (intro _ _ _; (try dsimp -zeta only))
      | (intro _; (try dsimp -zeta only)) | split)

theorem execLdin_evolves {s0 s : State} (h : Thr) (f : SForm) (hs : Evolves s0 s) :
    ∃ r_, execLdin h f s = .next r_ ∧ Evolves s0 r_ := by
  refine ⟨_, rfl, ?_⟩
  repeat' (first
      | with_reducible assumption | with_reducible apply State.queueEngOp_evolves
      | with_reducible apply State.takeIndices_evolves | with_reducible apply State.streamOp_evolves
      | refine State.takeIndices_evolves_of (by with_reducible assumption) ?_ | (intro _ _ _; (try dsimp -zeta only))
      | (intro _; (try dsimp -zeta only)) | split)

theorem execWstr_evolves {s0 s : State} (h : Thr) (f : SForm) (hs : Evolves s0 s) :
    ∃ r_, execWstr h f s = .next r_ ∧ Evolves s0 r_ := by
  refine ⟨_, rfl, ?_⟩
  repeat' (first
      | with_reducible assumption | with_reducible apply State.updJob_evolves
      | with_reducible apply State.takeIndices_evolves | with_reducible apply State.streamOp_evolves
      | refine State.takeIndices_evolves_of (by with_reducible assumption) ?_ | (intro _ _ _; (try dsimp -zeta only))
      | (intro _; (try dsimp -zeta only)) | split)

theorem State.engineOp_evolves {s0 s : State} (fn : Nat) (h : Thr) (f : SForm)
    (run : Job → Thread → Eng → Engine → Word → Word → Word → State → State) (hs : Evolves s0 s)
    (hrun : ∀ x0 x1 x2 x3 x4 x5 x6 x7, Evolves s0 x7 → Evolves s0 (run x0 x1 x2 x3 x4 x5 x6 x7)) :
    Evolves s0 (State.engineOp s fn h f run) := by
  unfold State.engineOp
  repeat' (first
      | with_reducible assumption | (have : Evolves _ t_ := h_; clear_value t_)
      | with_reducible apply State.issueIf_evolves | with_reducible apply State.publish_evolves
      | with_reducible apply hrun | (intro _ _ _; (try dsimp -zeta only)) | (intro _; (try dsimp -zeta only))
      | (extract_lets +onlyGivenNames t_; (refine_lift have h_ : Evolves s0 t_ := ?_; ?_); rotate_left; dsimp -zeta only [t_])
      | (extract_lets +onlyGivenNames t_; (refine_lift have h_ : Evolves s0 t_.2 := ?_; ?_); rotate_left; dsimp -zeta only [t_])
      | (extract_lets +onlyGivenNames t_) | split)

theorem execPass_evolves {s0 s : State} (h : Thr) (f : SForm) (hs : Evolves s0 s) :
    ∃ r_, execPass h f s = .next r_ ∧ Evolves s0 r_ := by
  refine ⟨_, rfl, ?_⟩
  repeat' (first
      | with_reducible assumption | with_reducible apply State.goTo_evolves
      | with_reducible apply State.queueEngOp_evolves | with_reducible apply State.trapOr_evolves
      | with_reducible apply State.engineOp_evolves | (intro _ _ _; (try dsimp -zeta only))
      | (intro _; (try dsimp -zeta only)) | split)

theorem execDrain_evolves {s0 s : State} (h : Thr) (f : SForm) (hs : Evolves s0 s) :
    ∃ r_, execDrain h f s = .next r_ ∧ Evolves s0 r_ := by
  refine ⟨_, rfl, ?_⟩
  repeat' (first
      | with_reducible assumption | with_reducible apply State.goTo_evolves
      | with_reducible apply State.queueEngOp_evolves | with_reducible apply State.takeIndices_evolves
      | with_reducible apply State.trapOr_evolves | with_reducible apply State.engineOp_evolves
      | refine State.takeIndices_evolves_of (by with_reducible assumption) ?_ | (intro _ _ _; (try dsimp -zeta only))
      | (intro _; (try dsimp -zeta only)) | split)

theorem execAccld_evolves {s0 s : State} (h : Thr) (f : SForm) (hs : Evolves s0 s) :
    ∃ r_, execAccld h f s = .next r_ ∧ Evolves s0 r_ := by
  refine ⟨_, rfl, ?_⟩
  repeat' (first
      | with_reducible assumption | with_reducible apply State.goTo_evolves
      | with_reducible apply State.queueEngOp_evolves | with_reducible apply State.trapOr_evolves
      | with_reducible apply State.engineOp_evolves | (intro _ _ _; (try dsimp -zeta only))
      | (intro _; (try dsimp -zeta only)) | split)

theorem execDiscard_evolves {s0 s : State} (h : Thr) (f : SForm) (hs : Evolves s0 s) :
    ∃ r_, execDiscard h f s = .next r_ ∧ Evolves s0 r_ := by
  refine ⟨_, rfl, ?_⟩
  repeat' (first
      | with_reducible assumption | (have : Evolves _ t_ := h_; clear_value t_)
      | with_reducible apply State.updEngine_evolves | with_reducible apply State.goTo_evolves
      | with_reducible apply State.engineOp_evolves | (intro _ _ _; (try dsimp -zeta only))
      | (intro _; (try dsimp -zeta only))
      | (extract_lets +onlyGivenNames t_; (refine_lift have h_ : Evolves s0 t_ := ?_; ?_); rotate_left; dsimp -zeta only [t_])
      | (extract_lets +onlyGivenNames t_; (refine_lift have h_ : Evolves s0 t_.2 := ?_; ?_); rotate_left; dsimp -zeta only [t_])
      | (extract_lets +onlyGivenNames t_) | split)

theorem State.syncOp_evolves {s0 s : State} (fn : Nat) (h : Thr) (f : SForm) (run : Job → Thread → Nat → Word → State)
    (hs : Evolves s0 s) (hrun : ∀ x0 x1 x2 x3, Evolves s0 (run x0 x1 x2 x3)) :
    Evolves s0 (State.syncOp s fn h f run) := by
  unfold State.syncOp
  repeat' (first
      | with_reducible assumption | (have : Evolves _ t_ := h_; clear_value t_)
      | with_reducible apply State.progTrap_evolves | with_reducible apply State.issueIf_evolves
      | with_reducible apply hrun | (intro _ _ _; (try dsimp -zeta only)) | (intro _; (try dsimp -zeta only))
      | (extract_lets +onlyGivenNames t_; (refine_lift have h_ : Evolves s0 t_ := ?_; ?_); rotate_left; dsimp -zeta only [t_])
      | (extract_lets +onlyGivenNames t_; (refine_lift have h_ : Evolves s0 t_.2 := ?_; ?_); rotate_left; dsimp -zeta only [t_])
      | (extract_lets +onlyGivenNames t_) | split)

theorem execSignal_evolves {s0 s : State} (h : Thr) (f : SForm) (hs : Evolves s0 s) :
    ∃ r_, execSignal h f s = .next r_ ∧ Evolves s0 r_ := by
  refine ⟨_, rfl, ?_⟩
  repeat' (first
      | with_reducible assumption | with_reducible apply State.progTrap_evolves
      | with_reducible apply State.signal_evolves | with_reducible apply State.goTo_evolves
      | with_reducible apply State.publish_evolves | with_reducible apply State.syncOp_evolves
      | (intro _ _ _; (try dsimp -zeta only)) | (intro _; (try dsimp -zeta only)) | split)

theorem execWait_evolves {s0 s : State} (h : Thr) (f : SForm) (hs : Evolves s0 s) :
    ∃ r_, execWait h f s = .next r_ ∧ Evolves s0 r_ := by
  refine ⟨_, rfl, ?_⟩
  repeat' (first
      | with_reducible assumption | with_reducible apply State.updThread_evolves
      | with_reducible apply State.goTo_evolves | with_reducible apply State.syncOp_evolves
      | (intro _ _ _; (try dsimp -zeta only)) | (intro _; (try dsimp -zeta only)) | split)

theorem execSet_evolves {s0 s : State} (h : Thr) (f : SForm) (hs : Evolves s0 s) :
    ∃ r_, execSet h f s = .next r_ ∧ Evolves s0 r_ := by
  refine ⟨_, rfl, ?_⟩
  repeat' (first
      | with_reducible assumption | with_reducible apply State.setCounter_evolves
      | with_reducible apply State.goTo_evolves | with_reducible apply State.syncOp_evolves
      | (intro _ _ _; (try dsimp -zeta only)) | (intro _; (try dsimp -zeta only)) | split)

theorem execRead_evolves {s0 s : State} (h : Thr) (f : SForm) (hs : Evolves s0 s) :
    ∃ r_, execRead h f s = .next r_ ∧ Evolves s0 r_ := by
  refine ⟨_, rfl, ?_⟩
  repeat' (first
      | with_reducible assumption | with_reducible apply State.retire__evolves
      | with_reducible apply State.syncOp_evolves | (intro _ _ _; (try dsimp -zeta only))
      | (intro _; (try dsimp -zeta only)) | split)

theorem execPause_evolves {s0 s : State} (h : Thr) (index : BitVec 16) (hs : Evolves s0 s) :
    ∃ r_, execPause h index s = .next r_ ∧ Evolves s0 r_ := by
  refine ⟨_, rfl, ?_⟩
  repeat' (first
      | with_reducible assumption | (have : Evolves _ t_ := h_; clear_value t_)
      | with_reducible apply State.updThread_evolves | with_reducible apply State.progTrap_evolves
      | with_reducible apply State.issue_evolves | with_reducible apply State.publish_evolves
      | (intro _ _ _; (try dsimp -zeta only)) | (intro _; (try dsimp -zeta only))
      | (extract_lets +onlyGivenNames t_; (refine_lift have h_ : Evolves s0 t_ := ?_; ?_); rotate_left; dsimp -zeta only [t_])
      | (extract_lets +onlyGivenNames t_; (refine_lift have h_ : Evolves s0 t_.2 := ?_; ?_); rotate_left; dsimp -zeta only [t_])
      | (extract_lets +onlyGivenNames t_) | split)

theorem State.finishXfer_evolves {s0 s : State} (id : Nat) (x : Xfer) (hs : Evolves s0 s) :
    Evolves s0 (State.finishXfer id x s) := by
  unfold State.finishXfer
  repeat' (first
      | with_reducible assumption | with_reducible apply State.updJob_evolves
      | with_reducible apply State.signalEnd_evolves | (intro _ _ _; (try dsimp -zeta only))
      | (intro _; (try dsimp -zeta only)) | split)

theorem State.xferToObject_evolves {s0 s : State} (j : Job) (x : Xfer) (bs : Bytes) (hs : Evolves s0 s) :
    Evolves s0 (State.xferToObject j x bs s) := by
  unfold State.xferToObject
  repeat' (first
      | with_reducible assumption | (have : Evolves _ t_ := h_; clear_value t_)
      | with_reducible apply State.takeCredit_evolves | with_reducible apply State.startWriteback_evolves
      | with_reducible apply State.writeVersion_evolves | with_reducible apply State.updJob_evolves
      | with_reducible apply State.touchSource_evolves | with_reducible apply State.finishXfer_evolves
      | (intro _ _ _; (try dsimp -zeta only)) | (intro _; (try dsimp -zeta only))
      | (extract_lets +onlyGivenNames t_; (refine_lift have h_ : Evolves s0 t_ := ?_; ?_); rotate_left; dsimp -zeta only [t_])
      | (extract_lets +onlyGivenNames t_; (refine_lift have h_ : Evolves s0 t_.2 := ?_; ?_); rotate_left; dsimp -zeta only [t_])
      | (extract_lets +onlyGivenNames t_) | split)

theorem execXferEnd_evolves {s0 s : State} (job : Nat) (id : Nat) (hs : Evolves s0 s) :
    ∃ r_, execXferEnd job id s = .next r_ ∧ Evolves s0 r_ := by
  refine ⟨_, rfl, ?_⟩
  repeat' (first
      | with_reducible assumption | (have : Evolves _ t_ := h_; clear_value t_)
      | with_reducible apply State.updJob_evolves | with_reducible apply State.updStore_evolves
      | with_reducible apply State.touchSource_evolves | with_reducible apply State.finishXfer_evolves
      | with_reducible apply State.xferToObject_evolves | with_reducible apply memWrite_wf
      | with_reducible apply foldl_memWrite_wf | (intro _ _ _; (try dsimp -zeta only))
      | (intro _; (try dsimp -zeta only))
      | (extract_lets +onlyGivenNames t_; (refine_lift have h_ : Evolves s0 t_ := ?_; ?_); rotate_left; dsimp -zeta only [t_])
      | (extract_lets +onlyGivenNames t_; (refine_lift have h_ : Evolves s0 t_.2 := ?_; ?_); rotate_left; dsimp -zeta only [t_])
      | (extract_lets +onlyGivenNames t_) | split)

theorem execStreamEnd_evolves {s0 s : State} (job : Nat) (handle : Nat) (hs : Evolves s0 s) :
    ∃ r_, execStreamEnd job handle s = .next r_ ∧ Evolves s0 r_ := by
  refine ⟨_, rfl, ?_⟩
  repeat' (first
      | with_reducible assumption | with_reducible apply State.updJob_evolves
      | with_reducible apply State.fillTree_evolves | with_reducible apply State.signalEnd_evolves
      | (intro _ _ _; (try dsimp -zeta only)) | (intro _; (try dsimp -zeta only)) | split)

end Sys2Proof.Machine
end

