-- ==== Sys2Proof/Laws/EvolvesObject.lean ====
section
/-! SUPPORT. Every operation on objects, the block range and raw media: the state it gives evolves from the state
it is given (Safety.lean). One lemma per operation, citing the lemmas of the operations it calls. The proofs are elaborated in turn: in
parallel they wait for each other, in more threads than there is memory for. -/
namespace Sys2Proof.Machine

set_option Elab.async false

/-! ### Machine/Media.lean -/

theorem State.updTst_evolves {s0 s : State} (f : TestBlock → TestBlock) (hs : Evolves s0 s) :
    Evolves s0 (State.updTst f s) := by
  unfold State.updTst
  repeat' (first
      | with_reducible assumption | (intro _ _ _; (try dsimp -zeta only)) | (intro _; (try dsimp -zeta only)) | split
      | with_reducible apply Evolves.with_test)

theorem State.rawDone_evolves {s0 s : State} (st : Status) (hs : Evolves s0 s) :
    Evolves s0 (State.rawDone st s) := by
  unfold State.rawDone
  repeat' (first
      | with_reducible assumption | with_reducible apply State.updTst_evolves | (intro _ _ _; (try dsimp -zeta only))
      | (intro _; (try dsimp -zeta only)) | split)

theorem State.rawFail_evolves {s0 s : State} (hs : Evolves s0 s) :
    Evolves s0 (State.rawFail s) := by
  unfold State.rawFail
  repeat' (first
      | with_reducible assumption | with_reducible apply State.takeFree_evolves
      | with_reducible apply State.rawDone_evolves
      | refine State.takeFree_evolves_of (by with_reducible assumption) ?_ | (intro _ _ _; (try dsimp -zeta only))
      | (intro _; (try dsimp -zeta only)) | split)

theorem State.rawOp_evolves {s0 s : State} (port : Nat) (f : Die → EraseUnit → State) (hs : Evolves s0 s)
    (hf : ∀ x0 x1, Evolves s0 (f x0 x1)) :
    Evolves s0 (State.rawOp port s f) := by
  unfold State.rawOp
  repeat' (first
      | with_reducible assumption | with_reducible apply State.updTst_evolves
      | with_reducible apply State.rawDone_evolves | with_reducible apply hf | exact fun k_ => k_
      | (intro k_; simpa [ErrState.Ok] using k_) | (intro _ _ _; (try dsimp -zeta only))
      | (intro _; (try dsimp -zeta only)) | split | with_reducible apply Evolves.with_err)

theorem execMediaRead_evolves {s0 s : State} (port : Nat) (hs : Evolves s0 s) :
    ∃ r_, execMediaRead port s = .next r_ ∧ Evolves s0 r_ := by
  refine ⟨_, rfl, ?_⟩
  repeat' (first
      | with_reducible assumption | with_reducible apply State.queueOp_evolves
      | with_reducible apply State.updTst_evolves | with_reducible apply State.rawOp_evolves
      | (intro _ _ _; (try dsimp -zeta only)) | (intro _; (try dsimp -zeta only)) | split)

theorem execMediaLend_evolves {s0 s : State} (port : Nat) (hs : Evolves s0 s) :
    ∃ r_, execMediaLend port s = .next r_ ∧ Evolves s0 r_ := by
  refine ⟨_, rfl, ?_⟩
  repeat' (first
      | with_reducible assumption | with_reducible apply State.updEunit_evolves
      | with_reducible apply State.noteProtection_evolves | with_reducible apply State.rawDone_evolves
      | with_reducible apply State.rawOp_evolves | (intro _ _ _; (try dsimp -zeta only))
      | (intro _; (try dsimp -zeta only)) | split)

theorem State.refuseProgram_evolves {s0 s : State} (d : Die) (u : Nat) (n : Nat) (slc : Bool) (hs : Evolves s0 s) :
    Evolves s0 (State.refuseProgram d u n slc s) := by
  unfold State.refuseProgram
  repeat' (first
      | with_reducible assumption | with_reducible apply State.raise_evolves | (intro _ _ _; (try dsimp -zeta only))
      | (intro _; (try dsimp -zeta only)) | split)

theorem execMediaProgram_evolves {s0 s : State} (port : Nat) (hs : Evolves s0 s) :
    ∃ r_, execMediaProgram port s = .next r_ ∧ Evolves s0 r_ := by
  refine ⟨_, rfl, ?_⟩
  repeat' (first
      | with_reducible assumption | (have : Evolves _ t_ := h_; clear_value t_)
      | with_reducible apply State.queueOp_evolves | with_reducible apply State.queueBlank_evolves
      | with_reducible apply State.updTst_evolves | with_reducible apply State.rawDone_evolves
      | with_reducible apply State.rawOp_evolves | with_reducible apply State.refuseProgram_evolves
      | (intro _ _ _; (try dsimp -zeta only)) | (intro _; (try dsimp -zeta only))
      | (extract_lets +onlyGivenNames t_; (refine_lift have h_ : Evolves s0 t_ := ?_; ?_); rotate_left; dsimp -zeta only [t_])
      | (extract_lets +onlyGivenNames t_; (refine_lift have h_ : Evolves s0 t_.2 := ?_; ?_); rotate_left; dsimp -zeta only [t_])
      | (extract_lets +onlyGivenNames t_) | split)

theorem execMediaErase_evolves {s0 s : State} (port : Nat) (hs : Evolves s0 s) :
    ∃ r_, execMediaErase port s = .next r_ ∧ Evolves s0 r_ := by
  refine ⟨_, rfl, ?_⟩
  repeat' (first
      | with_reducible assumption | with_reducible apply State.startErase_evolves
      | with_reducible apply State.updTst_evolves | with_reducible apply State.rawDone_evolves
      | with_reducible apply State.rawOp_evolves | (intro _ _ _; (try dsimp -zeta only))
      | (intro _; (try dsimp -zeta only)) | split)

theorem execMediaReturn_evolves {s0 s : State} (port : Nat) (hs : Evolves s0 s) :
    ∃ r_, execMediaReturn port s = .next r_ ∧ Evolves s0 r_ := by
  refine ⟨_, rfl, ?_⟩
  repeat' (first
      | with_reducible assumption | with_reducible apply State.updEunit_evolves
      | with_reducible apply State.startErase_evolves | with_reducible apply State.noteProtection_evolves
      | with_reducible apply State.closed_evolves | with_reducible apply State.rawDone_evolves
      | with_reducible apply State.rawOp_evolves | (intro _ _ _; (try dsimp -zeta only))
      | (intro _; (try dsimp -zeta only)) | split)

theorem State.eraseJournal_evolves {s0 s : State} (e : EraseUnit) (hs : Evolves s0 s) :
    Evolves s0 (State.eraseJournal e s) := by
  unfold State.eraseJournal
  repeat' (first
      | with_reducible assumption | with_reducible apply State.updEunit_evolves
      | with_reducible apply State.queueOp_evolves | (intro _ _ _; (try dsimp -zeta only))
      | (intro _; (try dsimp -zeta only)) | split)

theorem State.recycleJournal_evolves {s0 s : State} (hs : Evolves s0 s) :
    Evolves s0 (State.recycleJournal s) := by
  unfold State.recycleJournal
  repeat' (first
      | with_reducible assumption | with_reducible apply State.journal_evolves
      | with_reducible apply State.closed_evolves | with_reducible apply State.eraseJournal_evolves
      | with_reducible apply Evolves.foldl | (intro _ _ _; (try dsimp -zeta only)) | (intro _; (try dsimp -zeta only))
      | split)

theorem State.poolBad_evolves {s0 s : State} (d : Die) (u : Nat) (hs : Evolves s0 s) :
    Evolves s0 (State.poolBad d u s) := by
  unfold State.poolBad
  repeat' (first
      | with_reducible assumption | with_reducible apply State.raise_evolves
      | with_reducible apply State.updEunit_evolves | with_reducible apply State.journal_evolves
      | (intro _ _ _; (try dsimp -zeta only)) | (intro _; (try dsimp -zeta only)) | split)

theorem State.relocateOnce_evolves {s0 s : State} (prio : DiePrio) (e : EraseUnit) (hs : Evolves s0 s) :
    Evolves s0 (State.relocateOnce prio e s) := by
  unfold State.relocateOnce
  repeat' (first
      | with_reducible assumption | (have : Evolves _ t_ := h_; clear_value t_)
      | with_reducible apply State.closeSets_evolves | with_reducible apply State.closeSetOf_evolves
      | with_reducible apply State.relocateUnit_evolves | with_reducible apply State.eraseReclaimed_evolves
      | (intro _ _ _; (try dsimp -zeta only)) | (intro _; (try dsimp -zeta only))
      | (extract_lets +onlyGivenNames t_; (refine_lift have h_ : Evolves s0 t_ := ?_; ?_); rotate_left; dsimp -zeta only [t_])
      | (extract_lets +onlyGivenNames t_; (refine_lift have h_ : Evolves s0 t_.2 := ?_; ?_); rotate_left; dsimp -zeta only [t_])
      | (extract_lets +onlyGivenNames t_) | split)

theorem State.reclaimDie_evolves {s0 s : State} (prio : DiePrio) (d : Die) (hs : Evolves s0 s) :
    Evolves s0 (State.reclaimDie prio d s) := by
  unfold State.reclaimDie
  repeat' (first
      | with_reducible assumption | with_reducible apply State.relocateOnce_evolves
      | (intro _ _ _; (try dsimp -zeta only)) | (intro _; (try dsimp -zeta only)) | split)

theorem State.reclaimForeground_evolves {s0 s : State} (hs : Evolves s0 s) :
    Evolves s0 (State.reclaimForeground s) := by
  unfold State.reclaimForeground
  repeat' (first
      | with_reducible assumption | with_reducible apply State.reclaimDie_evolves | with_reducible apply Evolves.foldl
      | (intro _ _ _; (try dsimp -zeta only)) | (intro _; (try dsimp -zeta only)) | split)

theorem State.reclaimBackground_evolves {s0 s : State} (d : Die) (hs : Evolves s0 s) :
    Evolves s0 (State.reclaimBackground d s) := by
  unfold State.reclaimBackground
  repeat' (first
      | with_reducible assumption | with_reducible apply State.reclaimDie_evolves | exact fun k_ => k_.of_map rfl
      | exact fun k_ => k_ | (intro k_; simpa [Ftl.Ok] using k_) | (intro _ _ _; (try dsimp -zeta only))
      | (intro _; (try dsimp -zeta only)) | split | with_reducible apply Evolves.with_ftl)

theorem State.migrateDie_evolves {s0 s : State} (prio : DiePrio) (d : Die) (hs : Evolves s0 s) :
    Evolves s0 (State.migrateDie prio d s) := by
  unfold State.migrateDie
  repeat' (first
      | with_reducible assumption | with_reducible apply State.relocateOnce_evolves
      | (intro _ _ _; (try dsimp -zeta only)) | (intro _; (try dsimp -zeta only)) | split)

theorem State.migrateFull_evolves {s0 s : State} (hs : Evolves s0 s) :
    Evolves s0 (State.migrateFull s) := by
  unfold State.migrateFull
  repeat' (first
      | with_reducible assumption | with_reducible apply State.migrateDie_evolves | with_reducible apply Evolves.foldl
      | (intro _ _ _; (try dsimp -zeta only)) | (intro _; (try dsimp -zeta only)) | split)

theorem State.scanUnit_evolves {s0 s : State} (e : EraseUnit) (hs : Evolves s0 s) :
    Evolves s0 (State.scanUnit e s) := by
  unfold State.scanUnit
  repeat' (first
      | with_reducible assumption | with_reducible apply State.updEunit_evolves
      | with_reducible apply State.queueOp_evolves | with_reducible apply Evolves.foldl
      | (intro _ _ _; (try dsimp -zeta only)) | (intro _; (try dsimp -zeta only)) | split)

theorem State.visitUnit_evolves {s0 s : State} (e : EraseUnit) (hs : Evolves s0 s) :
    Evolves s0 (State.visitUnit e s) := by
  unfold State.visitUnit
  repeat' (first
      | with_reducible assumption | with_reducible apply State.updEunit_evolves
      | with_reducible apply State.queueOp_evolves | with_reducible apply Evolves.foldl
      | (intro _ _ _; (try dsimp -zeta only)) | (intro _; (try dsimp -zeta only)) | split)

theorem State.endPass_evolves {s0 s : State} (hs : Evolves s0 s) :
    Evolves s0 (State.endPass s) := by
  unfold State.endPass
  repeat' (first
      | with_reducible assumption | with_reducible apply State.closed_evolves | exact fun k_ => k_.of_map rfl
      | exact fun k_ => k_ | (intro k_; simpa [Ftl.Ok] using k_) | (intro _ _ _; (try dsimp -zeta only))
      | (intro _; (try dsimp -zeta only)) | split | with_reducible apply Evolves.with_ftl)

theorem State.levelWear_evolves {s0 s : State} (hs : Evolves s0 s) :
    Evolves s0 (State.levelWear s) := by
  unfold State.levelWear
  repeat' (first
      | with_reducible assumption | with_reducible apply State.checkpoint_evolves
      | with_reducible apply State.relocateOnce_evolves | with_reducible apply Evolves.foldl
      | exact fun k_ => k_.of_map rfl | exact fun k_ => k_ | (intro k_; simpa [Ftl.Ok] using k_)
      | (intro _ _ _; (try dsimp -zeta only)) | (intro _; (try dsimp -zeta only)) | split
      | with_reducible apply Evolves.with_ftl)

theorem State.patrol_evolves {s0 s : State} (hs : Evolves s0 s) :
    Evolves s0 (State.patrol s) := by
  unfold State.patrol
  repeat' (first
      | with_reducible assumption | (have : Evolves _ t_ := h_; clear_value t_) | exact fun k_ => k_
      | (intro k_; simpa [ErrState.Ok] using k_) | (intro _ _ _; (try dsimp -zeta only))
      | (intro _; (try dsimp -zeta only))
      | (extract_lets +onlyGivenNames t_; (refine_lift have h_ : Evolves s0 t_ := ?_; ?_); rotate_left; dsimp -zeta only [t_])
      | (extract_lets +onlyGivenNames t_; (refine_lift have h_ : Evolves s0 t_.2 := ?_; ?_); rotate_left; dsimp -zeta only [t_])
      | (extract_lets +onlyGivenNames t_) | split | with_reducible apply Evolves.with_err)

theorem execBackgroundWindow_evolves {s0 s : State} (hs : Evolves s0 s) :
    ∃ r_, execBackgroundWindow s = .next r_ ∧ Evolves s0 r_ := by
  refine ⟨_, rfl, ?_⟩
  repeat' (first
      | with_reducible assumption | with_reducible apply State.fitRegion_evolves
      | with_reducible apply State.retryMoves_evolves | with_reducible apply State.closed_evolves
      | with_reducible apply State.issueStores_evolves | with_reducible apply State.reclaimBackground_evolves
      | with_reducible apply State.migrateDie_evolves | with_reducible apply State.scanUnit_evolves
      | with_reducible apply State.visitUnit_evolves | with_reducible apply State.endPass_evolves
      | with_reducible apply State.levelWear_evolves | with_reducible apply State.patrol_evolves
      | with_reducible apply Evolves.foldl | exact fun k_ => k_.of_map rfl | exact fun k_ => k_
      | (intro k_; simpa [Ftl.Ok] using k_) | (intro _ _ _; (try dsimp -zeta only))
      | (intro _; (try dsimp -zeta only)) | split | with_reducible apply Evolves.with_ftl)

theorem State.releaseParity_evolves {s0 s : State} (hs : Evolves s0 s) :
    Evolves s0 (State.releaseParity s) := by
  unfold State.releaseParity
  repeat' (first
      | with_reducible assumption | with_reducible apply State.startErase_evolves
      | with_reducible apply State.closed_evolves | with_reducible apply Evolves.foldl | exact fun k_ => k_.of_map rfl
      | exact fun k_ => k_ | (intro k_; simpa [Ftl.Ok] using k_) | (intro _ _ _; (try dsimp -zeta only))
      | (intro _; (try dsimp -zeta only)) | split | with_reducible apply Evolves.with_ftl)

theorem execVerifyAfterClose_evolves {s0 s : State} (d : Die) (unit : Nat) (stages : StageCounts) (hs : Evolves s0 s)
    :
    ∃ r_, execVerifyAfterClose d unit stages s = .next r_ ∧ Evolves s0 r_ := by
  refine ⟨_, rfl, ?_⟩
  repeat' (first
      | with_reducible assumption | (have : Evolves _ t_ := h_; clear_value t_)
      | with_reducible apply State.updEunit_evolves | with_reducible apply State.updChannel_evolves
      | with_reducible apply State.closed_evolves | with_reducible apply State.serveFlash_evolves
      | with_reducible apply State.relocateOnce_evolves | with_reducible apply State.releaseParity_evolves
      | (intro _ _ _; (try dsimp -zeta only)) | (intro _; (try dsimp -zeta only))
      | (extract_lets +onlyGivenNames t_; (refine_lift have h_ : Evolves s0 t_ := ?_; ?_); rotate_left; dsimp -zeta only [t_])
      | (extract_lets +onlyGivenNames t_; (refine_lift have h_ : Evolves s0 t_.2 := ?_; ?_); rotate_left; dsimp -zeta only [t_])
      | (extract_lets +onlyGivenNames t_) | split)

/-! ### Machine/Fetch.lean -/

theorem State.queueRead_evolves {s0 s : State} (owner : DieOpOwner) (lun : Nat) (hs : Evolves s0 s) :
    Evolves s0 (State.queueRead owner lun s) := by
  unfold State.queueRead
  repeat' (first
      | with_reducible assumption | with_reducible apply State.queueOp_evolves | with_reducible apply Evolves.foldl
      | (intro _ _ _; (try dsimp -zeta only)) | (intro _; (try dsimp -zeta only)) | split)

theorem State.updFetch_evolves {s0 s : State} (slot : Nat) (f : List FlashRead → List FlashRead) (hs : Evolves s0 s) :
    Evolves s0 (State.updFetch slot f s) := by
  unfold State.updFetch
  repeat' (first
      | with_reducible assumption | with_reducible apply State.updSlot_evolves | (intro _ _ _; (try dsimp -zeta only))
      | (intro _; (try dsimp -zeta only)) | split)

theorem State.fetchOne_evolves {s0 s : State} (slot : Nat) (op : Nat) (r : FlashRead) (hs : Evolves s0 s) :
    Evolves s0 (State.fetchOne slot op s r) := by
  unfold State.fetchOne
  repeat' (first
      | with_reducible assumption | with_reducible apply State.queueRead_evolves
      | with_reducible apply State.updFetch_evolves | (intro _ _ _; (try dsimp -zeta only))
      | (intro _; (try dsimp -zeta only)) | split)

theorem State.pumpFetch_evolves {s0 s : State} (hs : Evolves s0 s) :
    Evolves s0 (State.pumpFetch s) := by
  unfold State.pumpFetch
  repeat' (first
      | with_reducible assumption | with_reducible apply State.fetchOne_evolves | with_reducible apply Evolves.foldl
      | (intro _ _ _; (try dsimp -zeta only)) | (intro _; (try dsimp -zeta only)) | split)

theorem State.startReads_evolves {s0 s : State} (slot : Nat) (rs : List FlashRead) (hs : Evolves s0 s) :
    Evolves s0 (State.startReads slot rs s) := by
  unfold State.startReads
  repeat' (first
      | with_reducible assumption | with_reducible apply State.updSlot_evolves
      | with_reducible apply State.pumpFetch_evolves | (intro _ _ _; (try dsimp -zeta only))
      | (intro _; (try dsimp -zeta only)) | split)

theorem State.loseHome_evolves {s0 s : State} (o : DieOp) (lun : Nat) (stages : List Nat) (hs : Evolves s0 s) :
    Evolves s0 (State.loseHome o lun stages s) := by
  unfold State.loseHome
  repeat' (first
      | with_reducible assumption | with_reducible apply State.losePages_evolves
      | (intro _ _ _; (try dsimp -zeta only)) | (intro _; (try dsimp -zeta only)) | split)

theorem State.objectRead_evolves {s0 s : State} (slot : Nat) (lun : Nat) (o : DieOp) (stages : List Nat) (lost : Bool)
    (hs : Evolves s0 s) :
    Evolves s0 (State.objectRead slot lun o stages lost s) := by
  unfold State.objectRead
  repeat' (first
      | with_reducible assumption | (have : Evolves _ t_ := h_; clear_value t_)
      | with_reducible apply State.updFetch_evolves | with_reducible apply State.loseHome_evolves
      | (intro _ _ _; (try dsimp -zeta only)) | (intro _; (try dsimp -zeta only))
      | (extract_lets +onlyGivenNames t_; (refine_lift have h_ : Evolves s0 t_ := ?_; ?_); rotate_left; dsimp -zeta only [t_])
      | (extract_lets +onlyGivenNames t_; (refine_lift have h_ : Evolves s0 t_.2 := ?_; ?_); rotate_left; dsimp -zeta only [t_])
      | (extract_lets +onlyGivenNames t_) | split)

/-! ### Machine/Object.lean -/

theorem State.createObj_evolves {s0 s : State} (id : Nat) (kind : Nat) (tier : Nat) (size : Nat) (ver : Nat) (durable : Bool)
    (building : Bool) (hs : Evolves s0 s) : Evolves s0 (State.createObj id kind tier size ver durable building s) := by
  unfold State.createObj
  extract_lets base
  split
  rename_i l t e
  have ht := State.takeLuns_evolves_of e hs
  extract_lets v o
  exact State.fitSlc_evolves (Evolves.with_tiers ht fun k => k)

theorem execObjectCreate_evolves {s0 s : State} (slot : Nat) (hs : Evolves s0 s) :
    ∃ r_, execObjectCreate slot s = .next r_ ∧ Evolves s0 r_ := by
  refine ⟨_, rfl, State.runCmd_evolves _ _ _ _ hs fun c => ?_⟩
  extract_lets +onlyGivenNames id kind tier size durable
  split
  · exact State.fail_evolves _ _ _ hs
  split
  · exact State.fail_evolves _ _ _ hs
  exact State.done_evolves _ _ (State.writeResult_evolves _ _ _ (State.createObj_evolves _ _ _ _ _ _ _ hs))

theorem State.readVersion_evolves {s0 s : State} (c : Slot) (id : Nat) (n : Nat) (off : Nat) (len : Nat)
    (hs : Evolves s0 s) :
    Evolves s0 (State.readVersion c id n off len s) := by
  unfold State.readVersion
  repeat' (first
      | with_reducible assumption | with_reducible apply State.writeResult_evolves
      | with_reducible apply State.done_evolves | with_reducible apply State.fail_evolves
      | with_reducible apply State.touch_evolves | (intro _ _ _; (try dsimp -zeta only))
      | (intro _; (try dsimp -zeta only)) | split)

theorem State.endObjectRead_evolves {s0 s : State} (c : Slot) (hs : Evolves s0 s) :
    Evolves s0 (State.endObjectRead c s) := by
  unfold State.endObjectRead
  repeat' (first
      | with_reducible assumption | with_reducible apply State.fail_evolves
      | with_reducible apply State.readVersion_evolves | (intro _ _ _; (try dsimp -zeta only))
      | (intro _; (try dsimp -zeta only)) | split)

theorem execObjectRead_evolves {s0 s : State} (slot : Nat) (hs : Evolves s0 s) :
    ∃ r_, execObjectRead slot s = .next r_ ∧ Evolves s0 r_ := by
  refine ⟨_, rfl, ?_⟩
  repeat' (first
      | with_reducible assumption | (have : Evolves _ t_ := h_; clear_value t_)
      | with_reducible apply State.runCmd_evolves | with_reducible apply State.fail_evolves
      | with_reducible apply State.startReads_evolves | with_reducible apply State.endObjectRead_evolves
      | (intro _ _ _; (try dsimp -zeta only)) | (intro _; (try dsimp -zeta only))
      | (extract_lets +onlyGivenNames t_; (refine_lift have h_ : Evolves s0 t_ := ?_; ?_); rotate_left; dsimp -zeta only [t_])
      | (extract_lets +onlyGivenNames t_; (refine_lift have h_ : Evolves s0 t_.2 := ?_; ?_); rotate_left; dsimp -zeta only [t_])
      | (extract_lets +onlyGivenNames t_) | split)

theorem State.hostPromote_evolves {s0 s : State} (c : Slot) (since : Nat) (hs : Evolves s0 s) :
    Evolves s0 (State.hostPromote c since s).2 := by
  unfold State.hostPromote
  repeat' (first
      | with_reducible assumption | (have : Evolves _ t_ := h_; clear_value t_)
      | with_reducible apply State.setWork_evolves | with_reducible apply State.done_evolves
      | with_reducible apply State.fail_evolves | with_reducible apply State.updObj_evolves
      | with_reducible apply State.promoteUnits_evolves | with_reducible apply State.awaitMoves_evolves
      | refine State.promoteUnits_evolves_of (by with_reducible assumption) ?_ | with_reducible apply Evolves.foldl
      | (intro _ _ _; (try dsimp -zeta only)) | (intro _; (try dsimp -zeta only))
      | (extract_lets +onlyGivenNames t_; (refine_lift have h_ : Evolves s0 t_ := ?_; ?_); rotate_left; dsimp -zeta only [t_])
      | (extract_lets +onlyGivenNames t_; (refine_lift have h_ : Evolves s0 t_.2 := ?_; ?_); rotate_left; dsimp -zeta only [t_])
      | (extract_lets +onlyGivenNames t_) | split)

theorem State.hostPromote_evolves_of {s0 s : State} {c : Slot} {since : Nat} {k_} {r_}
    (e_ : State.hostPromote c since s = (k_, r_)) (hs : Evolves s0 s) : Evolves s0 r_ := by
  have := State.hostPromote_evolves c since hs
  rwa [e_] at this

theorem execObjectMove_evolves {s0 s : State} (slot : Nat) (hs : Evolves s0 s) :
    ∃ r_, execObjectMove slot s = .next r_ ∧ Evolves s0 r_ := by
  refine ⟨_, rfl, ?_⟩
  repeat' (first
      | with_reducible assumption | (have : Evolves _ t_ := h_; clear_value t_)
      | with_reducible apply State.runCmd_evolves | with_reducible apply State.done_evolves
      | with_reducible apply State.fail_evolves | with_reducible apply State.evictUnit_evolves
      | with_reducible apply State.dropRefs_evolves | with_reducible apply State.awaitMoves_evolves
      | with_reducible apply State.hostPromote_evolves
      | refine State.hostPromote_evolves_of (by with_reducible assumption) ?_ | with_reducible apply Evolves.foldl
      | (intro _ _ _; (try dsimp -zeta only)) | (intro _; (try dsimp -zeta only))
      | (extract_lets +onlyGivenNames t_; (refine_lift have h_ : Evolves s0 t_ := ?_; ?_); rotate_left; dsimp -zeta only [t_])
      | (extract_lets +onlyGivenNames t_; (refine_lift have h_ : Evolves s0 t_.2 := ?_; ?_); rotate_left; dsimp -zeta only [t_])
      | (extract_lets +onlyGivenNames t_) | split)

theorem execObjectRetire_evolves {s0 s : State} (slot : Nat) (hs : Evolves s0 s) :
    ∃ r_, execObjectRetire slot s = .next r_ ∧ Evolves s0 r_ := by
  refine ⟨_, rfl, ?_⟩
  repeat' (first
      | with_reducible assumption | (have : Evolves _ t_ := h_; clear_value t_)
      | with_reducible apply State.fitSlc_evolves | with_reducible apply State.runCmd_evolves
      | with_reducible apply State.done_evolves | with_reducible apply State.fail_evolves
      | with_reducible apply State.updObj_evolves | with_reducible apply State.settleObj_evolves
      | with_reducible apply State.retire_evolves | (intro _ _ _; (try dsimp -zeta only))
      | (intro _; (try dsimp -zeta only))
      | (extract_lets +onlyGivenNames t_; (refine_lift have h_ : Evolves s0 t_ := ?_; ?_); rotate_left; dsimp -zeta only [t_])
      | (extract_lets +onlyGivenNames t_; (refine_lift have h_ : Evolves s0 t_.2 := ?_; ?_); rotate_left; dsimp -zeta only [t_])
      | (extract_lets +onlyGivenNames t_) | split)

theorem execObjectQuery_evolves {s0 s : State} (slot : Nat) (hs : Evolves s0 s) :
    ∃ r_, execObjectQuery slot s = .next r_ ∧ Evolves s0 r_ := by
  refine ⟨_, rfl, ?_⟩
  repeat' (first
      | with_reducible assumption | (have : Evolves _ t_ := h_; clear_value t_)
      | with_reducible apply State.writeResult_evolves | with_reducible apply State.runCmd_evolves
      | with_reducible apply State.done_evolves | with_reducible apply State.fail_evolves
      | (intro _ _ _; (try dsimp -zeta only)) | (intro _; (try dsimp -zeta only))
      | (extract_lets +onlyGivenNames t_; (refine_lift have h_ : Evolves s0 t_ := ?_; ?_); rotate_left; dsimp -zeta only [t_])
      | (extract_lets +onlyGivenNames t_; (refine_lift have h_ : Evolves s0 t_.2 := ?_; ?_); rotate_left; dsimp -zeta only [t_])
      | (extract_lets +onlyGivenNames t_) | split)

theorem State.mirrorPages_evolves {s0 s : State} (ps : List (Nat × Nat × Nat)) (hs : Evolves s0 s) :
    Evolves s0 (State.mirrorPages ps s) := by
  unfold State.mirrorPages
  repeat' (first
      | with_reducible assumption | with_reducible apply State.updVer_evolves | with_reducible apply Evolves.foldl
      | (intro _ _ _; (try dsimp -zeta only)) | (intro _; (try dsimp -zeta only)) | split)

theorem State.makeDurable_evolves {s0 s : State} (c : Slot) (o : Obj) (hs : Evolves s0 s) :
    Evolves s0 (State.makeDurable c o s) := by
  unfold State.makeDurable
  repeat' (first
      | with_reducible assumption | with_reducible apply State.setWork_evolves
      | with_reducible apply State.fail_evolves | with_reducible apply State.updObj_evolves
      | with_reducible apply State.takeCredit_evolves | with_reducible apply State.ackWrite_evolves
      | with_reducible apply State.mirrorPages_evolves | (intro _ _ _; (try dsimp -zeta only))
      | (intro _; (try dsimp -zeta only)) | split)

theorem State.doDurability_evolves {s0 s : State} (c : Slot) (hs : Evolves s0 s) :
    Evolves s0 (State.doDurability c s) := by
  unfold State.doDurability
  repeat' (first
      | with_reducible assumption | with_reducible apply State.done_evolves | with_reducible apply State.fail_evolves
      | with_reducible apply State.updObj_evolves | with_reducible apply State.throttle_evolves
      | with_reducible apply State.makeDurable_evolves | (intro _ _ _; (try dsimp -zeta only))
      | (intro _; (try dsimp -zeta only)) | split)

theorem execObjectDurability_evolves {s0 s : State} (slot : Nat) (hs : Evolves s0 s) :
    ∃ r_, execObjectDurability slot s = .next r_ ∧ Evolves s0 r_ := by
  refine ⟨_, rfl, ?_⟩
  repeat' (first
      | with_reducible assumption | with_reducible apply State.runCmd_evolves
      | with_reducible apply State.doDurability_evolves | (intro _ _ _; (try dsimp -zeta only))
      | (intro _; (try dsimp -zeta only)) | split)

theorem execObjectFlush_evolves {s0 s : State} (slot : Nat) (hs : Evolves s0 s) :
    ∃ r_, execObjectFlush slot s = .next r_ ∧ Evolves s0 r_ := by
  refine ⟨_, rfl, ?_⟩
  repeat' (first
      | with_reducible assumption | with_reducible apply State.runCmd_evolves
      | with_reducible apply State.done_evolves | with_reducible apply State.awaitFlash_evolves
      | (intro _ _ _; (try dsimp -zeta only)) | (intro _; (try dsimp -zeta only)) | split)

/-! ### Machine/Block.lean -/

theorem State.takeLocks_evolves {s0 s : State} (hs : Evolves s0 s) :
    Evolves s0 (State.takeLocks s) := by
  unfold State.takeLocks
  repeat' (first
      | with_reducible assumption | with_reducible apply Evolves.foldl | (intro _ _ _; (try dsimp -zeta only))
      | (intro _; (try dsimp -zeta only)) | split | with_reducible apply Evolves.with_locks)

theorem State.runBlock_evolves {s0 s : State} (id : Nat) (op : Nat) (writes : Bool) (f : Slot → State)
    (hs : Evolves s0 s) (hf : ∀ x0, Evolves s0 (f x0)) :
    Evolves s0 (State.runBlock s id op writes f) := by
  unfold State.runBlock
  repeat' (first
      | with_reducible assumption | with_reducible apply State.runCmd_evolves | with_reducible apply hf
      | (intro _ _ _; (try dsimp -zeta only)) | (intro _; (try dsimp -zeta only)) | split)

theorem State.answerRead_evolves {s0 s : State} (c : Slot) (failed : List Nat) (hs : Evolves s0 s) :
    Evolves s0 (State.answerRead c failed s) := by
  unfold State.answerRead
  repeat' (first
      | with_reducible assumption | with_reducible apply State.writeResult_evolves
      | with_reducible apply State.done_evolves | with_reducible apply State.fail_evolves
      | (intro _ _ _; (try dsimp -zeta only)) | (intro _; (try dsimp -zeta only)) | split)

theorem execBlockRead_evolves {s0 s : State} (slot : Nat) (hs : Evolves s0 s) :
    ∃ r_, execBlockRead slot s = .next r_ ∧ Evolves s0 r_ := by
  refine ⟨_, rfl, ?_⟩
  repeat' (first
      | with_reducible assumption | (have : Evolves _ t_ := h_; clear_value t_)
      | with_reducible apply State.setWork_evolves | with_reducible apply State.queueRead_evolves
      | with_reducible apply State.runBlock_evolves | with_reducible apply State.answerRead_evolves
      | with_reducible apply Evolves.foldl | (intro _ _ _; (try dsimp -zeta only)) | (intro _; (try dsimp -zeta only))
      | (extract_lets +onlyGivenNames t_; (refine_lift have h_ : Evolves s0 t_ := ?_; ?_); rotate_left; dsimp -zeta only [t_])
      | (extract_lets +onlyGivenNames t_; (refine_lift have h_ : Evolves s0 t_.2 := ?_; ?_); rotate_left; dsimp -zeta only [t_])
      | (extract_lets +onlyGivenNames t_) | split)

theorem State.dirtyBlock_evolves {s0 s : State} (order : Nat) (atomic : Option Nat) (b : Nat) (hs : Evolves s0 s) :
    Evolves s0 (State.dirtyBlock order atomic s b) := by
  unfold State.dirtyBlock
  repeat' (first
      | with_reducible assumption | exact fun k_ => k_.of_data rfl | exact fun k_ => k_
      | (intro k_; simpa [BlockRange.Ok] using k_) | (intro _ _ _; (try dsimp -zeta only))
      | (intro _; (try dsimp -zeta only)) | split | with_reducible apply Evolves.with_block)

theorem State.putBlocks_evolves {s0 s : State} (lba : Nat) (bs : Bytes) (n : Nat) (order : Nat) (atomic : Option Nat)
    (hs : Evolves s0 s) :
    Evolves s0 (State.putBlocks lba bs n order atomic s) := by
  unfold State.putBlocks
  repeat' (first
      | with_reducible assumption | with_reducible apply State.setMap_evolves
      | with_reducible apply State.fitSlc_evolves | with_reducible apply State.throttle_evolves
      | with_reducible apply State.dirtyBlock_evolves | with_reducible apply Evolves.foldl
      | exact fun k_ => k_.of_data rfl | (intro (k_ : memWf _ = true); show memWf _ = true; exact memWrite_wf k_ _ _)
      | exact fun k_ => k_ | (intro k_; simpa [BlockRange.Ok] using k_) | (intro _ _ _; (try dsimp -zeta only))
      | (intro _; (try dsimp -zeta only)) | split | with_reducible apply Evolves.with_block)

theorem State.ackBlocks_evolves {s0 s : State} (c : Slot) (blocks : List Nat) (maps : List Nat) (hs : Evolves s0 s) :
    Evolves s0 (State.ackBlocks c blocks maps s) := by
  unfold State.ackBlocks
  repeat' (first
      | with_reducible assumption | with_reducible apply State.done_evolves
      | with_reducible apply State.issueStores_evolves | with_reducible apply State.awaitFlash_evolves
      | (intro _ _ _; (try dsimp -zeta only)) | (intro _; (try dsimp -zeta only)) | split)

theorem State.doBlockWrite_evolves {s0 s : State} (c : Slot) (hs : Evolves s0 s) :
    Evolves s0 (State.doBlockWrite c s) := by
  unfold State.doBlockWrite
  repeat' (first
      | with_reducible assumption | with_reducible apply State.setWork_evolves
      | with_reducible apply State.fail_evolves | with_reducible apply State.takeCredit_evolves
      | with_reducible apply State.putBlocks_evolves | with_reducible apply State.ackBlocks_evolves
      | (intro _ _ _; (try dsimp -zeta only)) | (intro _; (try dsimp -zeta only)) | split)

theorem State.doBlockAtomic_evolves {s0 s : State} (c : Slot) (hs : Evolves s0 s) :
    Evolves s0 (State.doBlockAtomic c s) := by
  unfold State.doBlockAtomic
  repeat' (first
      | with_reducible assumption | with_reducible apply State.setWork_evolves
      | with_reducible apply State.fail_evolves | with_reducible apply State.takeCredit_evolves
      | with_reducible apply State.putBlocks_evolves | with_reducible apply State.ackBlocks_evolves
      | exact fun k_ => k_.of_data rfl | exact fun k_ => k_ | (intro k_; simpa [BlockRange.Ok] using k_)
      | (intro _ _ _; (try dsimp -zeta only)) | (intro _; (try dsimp -zeta only)) | split
      | with_reducible apply Evolves.with_block)

theorem execBlockWrite_evolves {s0 s : State} (slot : Nat) (hs : Evolves s0 s) :
    ∃ r_, execBlockWrite slot s = .next r_ ∧ Evolves s0 r_ := by
  refine ⟨_, rfl, ?_⟩
  repeat' (first
      | with_reducible assumption | with_reducible apply State.runBlock_evolves
      | with_reducible apply State.doBlockWrite_evolves | (intro _ _ _; (try dsimp -zeta only))
      | (intro _; (try dsimp -zeta only)) | split)

theorem execBlockAtomic_evolves {s0 s : State} (slot : Nat) (hs : Evolves s0 s) :
    ∃ r_, execBlockAtomic slot s = .next r_ ∧ Evolves s0 r_ := by
  refine ⟨_, rfl, ?_⟩
  repeat' (first
      | with_reducible assumption | with_reducible apply State.runBlock_evolves
      | with_reducible apply State.doBlockAtomic_evolves | (intro _ _ _; (try dsimp -zeta only))
      | (intro _; (try dsimp -zeta only)) | split)

theorem State.unmapUnits_evolves {s0 s : State} (lo : Nat) (hi : Nat) (hs : Evolves s0 s) :
    Evolves s0 (State.unmapUnits lo hi s) := by
  unfold State.unmapUnits
  repeat' (first
      | with_reducible assumption | with_reducible apply State.setMap_evolves
      | with_reducible apply State.dropStores_evolves | with_reducible apply Evolves.foldl
      | exact fun k_ => k_.of_data rfl | (intro (k_ : memWf _ = true); show memWf _ = true; exact memErase_wf k_ _ _)
      | exact fun k_ => k_ | (intro k_; simpa [BlockRange.Ok] using k_) | (intro _ _ _; (try dsimp -zeta only))
      | (intro _; (try dsimp -zeta only)) | split | with_reducible apply Evolves.with_block)

theorem State.doBlockTrim_evolves {s0 s : State} (c : Slot) (hs : Evolves s0 s) :
    Evolves s0 (State.doBlockTrim c s) := by
  unfold State.doBlockTrim
  repeat' (first
      | with_reducible assumption | (have : Evolves _ t_ := h_; clear_value t_)
      | with_reducible apply State.fitSlc_evolves | with_reducible apply State.setWork_evolves
      | with_reducible apply State.fail_evolves | with_reducible apply State.throttle_evolves
      | with_reducible apply State.takeCredit_evolves | with_reducible apply State.putBlocks_evolves
      | with_reducible apply State.ackBlocks_evolves | with_reducible apply State.unmapUnits_evolves
      | with_reducible apply Evolves.foldl | (intro _ _ _; (try dsimp -zeta only)) | (intro _; (try dsimp -zeta only))
      | (extract_lets +onlyGivenNames t_; (refine_lift have h_ : Evolves s0 t_ := ?_; ?_); rotate_left; dsimp -zeta only [t_])
      | (extract_lets +onlyGivenNames t_; (refine_lift have h_ : Evolves s0 t_.2 := ?_; ?_); rotate_left; dsimp -zeta only [t_])
      | (extract_lets +onlyGivenNames t_) | split)

theorem execBlockTrim_evolves {s0 s : State} (slot : Nat) (hs : Evolves s0 s) :
    ∃ r_, execBlockTrim slot s = .next r_ ∧ Evolves s0 r_ := by
  refine ⟨_, rfl, ?_⟩
  repeat' (first
      | with_reducible assumption | with_reducible apply State.runBlock_evolves
      | with_reducible apply State.doBlockTrim_evolves | (intro _ _ _; (try dsimp -zeta only))
      | (intro _; (try dsimp -zeta only)) | split)

theorem execBlockFlush_evolves {s0 s : State} (slot : Nat) (hs : Evolves s0 s) :
    ∃ r_, execBlockFlush slot s = .next r_ ∧ Evolves s0 r_ := by
  refine ⟨_, rfl, ?_⟩
  repeat' (first
      | with_reducible assumption | with_reducible apply State.runCmd_evolves
      | with_reducible apply State.awaitFlash_evolves | (intro _ _ _; (try dsimp -zeta only))
      | (intro _; (try dsimp -zeta only)) | split)

theorem execLockWaitDeadline_evolves {s0 s : State} (slot : Nat) (hs : Evolves s0 s) :
    ∃ r_, execLockWaitDeadline slot s = .next r_ ∧ Evolves s0 r_ := by
  refine ⟨_, rfl, ?_⟩
  repeat' (first
      | with_reducible assumption | with_reducible apply State.fail_evolves
      | with_reducible apply State.takeLocks_evolves | (intro _ _ _; (try dsimp -zeta only))
      | (intro _; (try dsimp -zeta only)) | split | with_reducible apply Evolves.with_locks)

theorem State.updTest_evolves {s0 s : State} (f : SelfTestLog → SelfTestLog) (hs : Evolves s0 s) :
    Evolves s0 (State.updTest f s) := by
  unfold State.updTest
  repeat' (first
      | with_reducible assumption | exact fun k_ => k_.of_data rfl | exact fun k_ => k_
      | (intro k_; simpa [BlockRange.Ok] using k_) | (intro _ _ _; (try dsimp -zeta only))
      | (intro _; (try dsimp -zeta only)) | split | with_reducible apply Evolves.with_block)

theorem execSelfTest_evolves {s0 s : State} (slot : Nat) (hs : Evolves s0 s) :
    ∃ r_, execSelfTest slot s = .next r_ ∧ Evolves s0 r_ := by
  refine ⟨_, rfl, ?_⟩
  repeat' (first
      | with_reducible assumption | (have : Evolves _ t_ := h_; clear_value t_)
      | with_reducible apply State.writeResult_evolves | with_reducible apply State.runCmd_evolves
      | with_reducible apply State.setWork_evolves | with_reducible apply State.done_evolves
      | with_reducible apply State.fail_evolves | with_reducible apply State.updTest_evolves
      | (intro _ _ _; (try dsimp -zeta only)) | (intro _; (try dsimp -zeta only))
      | (extract_lets +onlyGivenNames t_; (refine_lift have h_ : Evolves s0 t_ := ?_; ?_); rotate_left; dsimp -zeta only [t_])
      | (extract_lets +onlyGivenNames t_; (refine_lift have h_ : Evolves s0 t_.2 := ?_; ?_); rotate_left; dsimp -zeta only [t_])
      | (extract_lets +onlyGivenNames t_) | split)

theorem State.endTest_evolves {s0 s : State} (st : Nat) (hs : Evolves s0 s) :
    Evolves s0 (State.endTest st s) := by
  unfold State.endTest
  repeat' (first
      | with_reducible assumption | with_reducible apply State.done_evolves
      | with_reducible apply State.updTest_evolves | (intro _ _ _; (try dsimp -zeta only))
      | (intro _; (try dsimp -zeta only)) | split)

theorem execSelfTestStep_evolves {s0 s : State} (idle : Bool) (found : Option (Nat × Nat))
    (relocate : Option (Die × Nat)) (hs : Evolves s0 s) :
    ∃ r_, execSelfTestStep idle found relocate s = .next r_ ∧ Evolves s0 r_ := by
  refine ⟨_, rfl, ?_⟩
  repeat' (first
      | with_reducible assumption | (have : Evolves _ t_ := h_; clear_value t_)
      | with_reducible apply State.raise_evolves | with_reducible apply State.relocateOnce_evolves
      | with_reducible apply State.updTest_evolves | with_reducible apply State.endTest_evolves
      | (intro _ _ _; (try dsimp -zeta only)) | (intro _; (try dsimp -zeta only))
      | (extract_lets +onlyGivenNames t_; (refine_lift have h_ : Evolves s0 t_ := ?_; ?_); rotate_left; dsimp -zeta only [t_])
      | (extract_lets +onlyGivenNames t_; (refine_lift have h_ : Evolves s0 t_.2 := ?_; ?_); rotate_left; dsimp -zeta only [t_])
      | (extract_lets +onlyGivenNames t_) | split)

/-! ### Machine/DieEvents.lean -/

theorem State.commandRead_evolves {s0 s : State} (slot : Nat) (lun : Nat) (o : DieOp) (stages : List Nat)
    (lost : Bool) (hs : Evolves s0 s) :
    Evolves s0 (State.commandRead slot lun o stages lost s) := by
  unfold State.commandRead
  repeat' (first
      | with_reducible assumption | (have : Evolves _ t_ := h_; clear_value t_)
      | with_reducible apply State.raise_evolves | with_reducible apply State.setWork_evolves
      | with_reducible apply State.answerRead_evolves | (intro _ _ _; (try dsimp -zeta only))
      | (intro _; (try dsimp -zeta only))
      | (extract_lets +onlyGivenNames t_; (refine_lift have h_ : Evolves s0 t_ := ?_; ?_); rotate_left; dsimp -zeta only [t_])
      | (extract_lets +onlyGivenNames t_; (refine_lift have h_ : Evolves s0 t_.2 := ?_; ?_); rotate_left; dsimp -zeta only [t_])
      | (extract_lets +onlyGivenNames t_) | split)

theorem State.blankCheckEnd_evolves {s0 s : State} (o : DieOp) (pass : Bool) (hs : Evolves s0 s) :
    Evolves s0 (State.blankCheckEnd o pass s) := by
  unfold State.blankCheckEnd
  repeat' (first
      | with_reducible assumption | (have : Evolves _ t_ := h_; clear_value t_)
      | with_reducible apply State.updEunit_evolves | with_reducible apply State.updChannel_evolves
      | with_reducible apply State.dropBlank_evolves | with_reducible apply State.startErase_evolves
      | with_reducible apply State.leaveSet_evolves | with_reducible apply State.eraseJournal_evolves
      | with_reducible apply State.poolBad_evolves | (intro _ _ _; (try dsimp -zeta only))
      | (intro _; (try dsimp -zeta only))
      | (extract_lets +onlyGivenNames t_; (refine_lift have h_ : Evolves s0 t_ := ?_; ?_); rotate_left; dsimp -zeta only [t_])
      | (extract_lets +onlyGivenNames t_; (refine_lift have h_ : Evolves s0 t_.2 := ?_; ?_); rotate_left; dsimp -zeta only [t_])
      | (extract_lets +onlyGivenNames t_) | split)

theorem State.reaskParity_evolves {s0 s : State} (p : Row → Bool) (hs : Evolves s0 s) :
    Evolves s0 (State.reaskParity p s) := by
  unfold State.reaskParity
  repeat' (first
      | with_reducible assumption | exact fun k_ => k_.of_map rfl | exact fun k_ => k_
      | (intro k_; simpa [Ftl.Ok] using k_) | (intro _ _ _; (try dsimp -zeta only))
      | (intro _; (try dsimp -zeta only)) | split | with_reducible apply Evolves.with_ftl)

theorem State.redirectOp_evolves {s0 s : State} (o : DieOp) (hs : Evolves s0 s) :
    Evolves s0 (State.redirectOp o s) := by
  unfold State.redirectOp
  repeat' (first
      | with_reducible assumption | with_reducible apply State.queueJournal_evolves
      | with_reducible apply State.journal_evolves | with_reducible apply State.placePage_evolves
      | with_reducible apply State.checkpoint_evolves | with_reducible apply State.rawDone_evolves
      | with_reducible apply State.reaskParity_evolves
      | refine State.placePage_evolves_of (by with_reducible assumption) ?_ | (intro _ _ _; (try dsimp -zeta only))
      | (intro _; (try dsimp -zeta only)) | split)

theorem State.redirect_evolves {s0 s : State} (d : Die) (u : Nat) (hs : Evolves s0 s) :
    Evolves s0 (State.redirect d u s) := by
  unfold State.redirect
  repeat' (first
      | with_reducible assumption | with_reducible apply State.leaveSet_evolves
      | with_reducible apply State.replaceIn_evolves | with_reducible apply State.redirectOp_evolves
      | with_reducible apply Evolves.foldl | exact fun k_ => k_ | (intro k_; simpa [Flash.Ok] using k_)
      | (intro _ _ _; (try dsimp -zeta only)) | (intro _; (try dsimp -zeta only)) | split
      | with_reducible apply Evolves.with_flash)

theorem State.refuseQueued_evolves {s0 s : State} (hs : Evolves s0 s) :
    Evolves s0 (State.refuseQueued s) := by
  unfold State.refuseQueued
  repeat' (first
      | with_reducible assumption | with_reducible apply State.refuseProgram_evolves
      | with_reducible apply State.redirect_evolves | with_reducible apply Evolves.foldl
      | (intro _ _ _; (try dsimp -zeta only)) | (intro _; (try dsimp -zeta only)) | split)

theorem State.scanRead_evolves {s0 s : State} (o : DieOp) (stages : List Nat) (hs : Evolves s0 s) :
    Evolves s0 (State.scanRead o stages s) := by
  unfold State.scanRead
  repeat' (first
      | with_reducible assumption | with_reducible apply State.updEunit_evolves
      | with_reducible apply State.relocateOnce_evolves | exact fun k_ => k_ | (intro k_; simpa [Flash.Ok] using k_)
      | (intro _ _ _; (try dsimp -zeta only)) | (intro _; (try dsimp -zeta only)) | split
      | with_reducible apply Evolves.with_flash)

theorem State.rawRead_evolves {s0 s : State} (o : DieOp) (stages : List Nat) (hs : Evolves s0 s) :
    Evolves s0 (State.rawRead o stages s) := by
  unfold State.rawRead
  repeat' (first
      | with_reducible assumption | with_reducible apply State.updTst_evolves
      | with_reducible apply State.rawDone_evolves | (intro _ _ _; (try dsimp -zeta only))
      | (intro _; (try dsimp -zeta only)) | split)

theorem execDieSuspendEnd_evolves {s0 s : State} (d : Die) (hs : Evolves s0 s) :
    ∃ r_, execDieSuspendEnd d s = .next r_ ∧ Evolves s0 r_ := by
  refine ⟨_, rfl, ?_⟩
  repeat' (first
      | with_reducible assumption | with_reducible apply State.pumpFlash_evolves | exact fun k_ => k_
      | (intro k_; simpa [Flash.Ok] using k_) | (intro _ _ _; (try dsimp -zeta only))
      | (intro _; (try dsimp -zeta only)) | split | with_reducible apply Evolves.with_flash)

theorem State.programPass_evolves {s0 s : State} (o : DieOp) (hs : Evolves s0 s) :
    Evolves s0 (State.programPass o s) := by
  unfold State.programPass
  repeat' (first
      | with_reducible assumption | with_reducible apply State.updEunit_evolves
      | with_reducible apply State.programImage_evolves | with_reducible apply State.journal_evolves
      | with_reducible apply State.journalCopy_evolves | with_reducible apply State.releaseErases_evolves
      | with_reducible apply State.memberPass_evolves | with_reducible apply State.storePass_evolves
      | with_reducible apply State.rawDone_evolves | with_reducible apply State.recycleJournal_evolves
      | exact fun k_ => k_.of_map rfl | exact fun k_ => k_ | (intro k_; simpa [Ftl.Ok] using k_)
      | (intro _ _ _; (try dsimp -zeta only)) | (intro _; (try dsimp -zeta only)) | split
      | with_reducible apply Evolves.with_ftl)

theorem State.programFail_evolves {s0 s : State} (o : DieOp) (hs : Evolves s0 s) :
    Evolves s0 (State.programFail o s) := by
  unfold State.programFail
  repeat' (first
      | with_reducible assumption | with_reducible apply State.raise_evolves
      | with_reducible apply State.updEunit_evolves | with_reducible apply State.queueJournal_evolves
      | with_reducible apply State.journal_evolves | with_reducible apply State.closed_evolves
      | with_reducible apply State.rawFail_evolves | with_reducible apply State.poolBad_evolves
      | with_reducible apply State.relocateOnce_evolves | with_reducible apply State.reaskParity_evolves
      | with_reducible apply State.redirectOp_evolves | with_reducible apply State.redirect_evolves
      | exact fun k_ => k_ | (intro k_; simpa [Flash.Ok] using k_) | (intro _ _ _; (try dsimp -zeta only))
      | (intro _; (try dsimp -zeta only)) | split | with_reducible apply Evolves.with_flash)

theorem execDieEraseEnd_evolves {s0 s : State} (d : Die) (good : Bool) (hs : Evolves s0 s) :
    ∃ r_, execDieEraseEnd d good s = .next r_ ∧ Evolves s0 r_ := by
  refine ⟨_, rfl, ?_⟩
  repeat' (first
      | with_reducible assumption | with_reducible apply State.raise_evolves
      | with_reducible apply State.updEunit_evolves | with_reducible apply State.eraseData_evolves
      | with_reducible apply State.pumpFlash_evolves | with_reducible apply State.endOp_evolves
      | with_reducible apply State.markUrgent_evolves | with_reducible apply State.journal_evolves
      | with_reducible apply State.done_evolves | with_reducible apply State.poolBad_evolves
      | with_reducible apply State.refuseQueued_evolves | (intro _ _ _; (try dsimp -zeta only))
      | (intro _; (try dsimp -zeta only)) | split)

theorem execJournalDoneDurable_evolves {s0 s : State} (hs : Evolves s0 s) :
    ∃ r_, execJournalDoneDurable s = .next r_ ∧ Evolves s0 r_ := by
  refine ⟨_, rfl, ?_⟩
  repeat' (first
      | with_reducible assumption | (have : Evolves _ t_ := h_; clear_value t_)
      | with_reducible apply State.updEunit_evolves | with_reducible apply State.pumpFlash_evolves
      | with_reducible apply State.endOp_evolves | with_reducible apply State.markUrgent_evolves
      | with_reducible apply State.journal_evolves | with_reducible apply State.releaseErases_evolves
      | with_reducible apply State.noteProtection_evolves | with_reducible apply State.serveFlash_evolves
      | with_reducible apply State.issueStores_evolves | with_reducible apply State.rawDone_evolves
      | with_reducible apply State.rawFail_evolves | with_reducible apply State.releaseParity_evolves
      | with_reducible apply State.programPass_evolves | with_reducible apply Evolves.foldl
      | (intro _ _ _; (try dsimp -zeta only)) | (intro _; (try dsimp -zeta only))
      | (extract_lets +onlyGivenNames t_; (refine_lift have h_ : Evolves s0 t_ := ?_; ?_); rotate_left; dsimp -zeta only [t_])
      | (extract_lets +onlyGivenNames t_; (refine_lift have h_ : Evolves s0 t_.2 := ?_; ?_); rotate_left; dsimp -zeta only [t_])
      | (extract_lets +onlyGivenNames t_) | split)

end Sys2Proof.Machine
end

