-- ==== Sys2Proof/Laws/EvolvesLink.lean ====
section
/-! SUPPORT. Every operation on rings, links and the time base: the state it gives evolves from the state
it is given (Safety.lean). One lemma per operation, citing the lemmas of the operations it calls. The proofs are elaborated in turn: in
parallel they wait for each other, in more threads than there is memory for. -/
namespace Sys2Proof.Machine

set_option Elab.async false

/-! ### Machine/Atrium.lean -/

theorem State.writeSqCfg_evolves {s0 s : State} (n : Nat) (v : Nat) (hs : Evolves s0 s) :
    Evolves s0 (State.writeSqCfg n v s) := by
  unfold State.writeSqCfg
  repeat' (first
      | with_reducible assumption | with_reducible apply State.updSq_evolves
      | with_reducible apply State.countErr_evolves | exact fun k_ => k_ | (intro k_; simpa [ErrState.Ok] using k_)
      | (intro _ _ _; (try dsimp -zeta only)) | (intro _; (try dsimp -zeta only)) | split
      | with_reducible apply Evolves.with_err)

theorem State.writeCqCfg_evolves {s0 s : State} (n : Nat) (v : Nat) (hs : Evolves s0 s) :
    Evolves s0 (State.writeCqCfg n v s) := by
  unfold State.writeCqCfg
  repeat' (first
      | with_reducible assumption | with_reducible apply State.updCq_evolves
      | with_reducible apply State.countErr_evolves | exact fun k_ => k_ | (intro k_; simpa [ErrState.Ok] using k_)
      | (intro _ _ _; (try dsimp -zeta only)) | (intro _; (try dsimp -zeta only)) | split
      | with_reducible apply Evolves.with_err)

theorem State.writeSqDb_evolves {s0 s : State} (n : Nat) (v : Nat) (hs : Evolves s0 s) :
    Evolves s0 (State.writeSqDb n v s) := by
  unfold State.writeSqDb
  repeat' (first
      | with_reducible assumption | (have : Evolves _ t_ := h_; clear_value t_)
      | with_reducible apply State.raise_evolves | with_reducible apply State.updSq_evolves
      | with_reducible apply State.countErr_evolves | (intro _ _ _; (try dsimp -zeta only))
      | (intro _; (try dsimp -zeta only))
      | (extract_lets +onlyGivenNames t_; (refine_lift have h_ : Evolves s0 t_ := ?_; ?_); rotate_left; dsimp -zeta only [t_])
      | (extract_lets +onlyGivenNames t_; (refine_lift have h_ : Evolves s0 t_.2 := ?_; ?_); rotate_left; dsimp -zeta only [t_])
      | (extract_lets +onlyGivenNames t_) | split)

theorem State.writeCqDb_evolves {s0 s : State} (n : Nat) (v : Nat) (hs : Evolves s0 s) :
    Evolves s0 (State.writeCqDb n v s) := by
  unfold State.writeCqDb
  repeat' (first
      | with_reducible assumption | (have : Evolves _ t_ := h_; clear_value t_)
      | with_reducible apply State.raise_evolves | with_reducible apply State.updCq_evolves
      | with_reducible apply State.countErr_evolves | (intro _ _ _; (try dsimp -zeta only))
      | (intro _; (try dsimp -zeta only))
      | (extract_lets +onlyGivenNames t_; (refine_lift have h_ : Evolves s0 t_ := ?_; ?_); rotate_left; dsimp -zeta only [t_])
      | (extract_lets +onlyGivenNames t_; (refine_lift have h_ : Evolves s0 t_.2 := ?_; ?_); rotate_left; dsimp -zeta only [t_])
      | (extract_lets +onlyGivenNames t_) | split)

theorem execSqEnable_evolves {s0 s : State} (port : Nat) (n : Nat) (value : Word) (hs : Evolves s0 s) :
    ∃ r_, execSqEnable port n value s = .next r_ ∧ Evolves s0 r_ := by
  refine ⟨_, rfl, ?_⟩
  repeat' (first
      | with_reducible assumption | with_reducible apply State.writeSqCfg_evolves
      | (intro _ _ _; (try dsimp -zeta only)) | (intro _; (try dsimp -zeta only)) | split)

theorem execSqDisable_evolves {s0 s : State} (port : Nat) (n : Nat) (value : Word) (hs : Evolves s0 s) :
    ∃ r_, execSqDisable port n value s = .next r_ ∧ Evolves s0 r_ := by
  refine ⟨_, rfl, ?_⟩
  repeat' (first
      | with_reducible assumption | with_reducible apply State.writeSqCfg_evolves
      | (intro _ _ _; (try dsimp -zeta only)) | (intro _; (try dsimp -zeta only)) | split)

theorem execCqEnable_evolves {s0 s : State} (port : Nat) (n : Nat) (value : Word) (hs : Evolves s0 s) :
    ∃ r_, execCqEnable port n value s = .next r_ ∧ Evolves s0 r_ := by
  refine ⟨_, rfl, ?_⟩
  repeat' (first
      | with_reducible assumption | with_reducible apply State.writeCqCfg_evolves
      | (intro _ _ _; (try dsimp -zeta only)) | (intro _; (try dsimp -zeta only)) | split)

theorem execCqDisable_evolves {s0 s : State} (port : Nat) (n : Nat) (value : Word) (hs : Evolves s0 s) :
    ∃ r_, execCqDisable port n value s = .next r_ ∧ Evolves s0 r_ := by
  refine ⟨_, rfl, ?_⟩
  repeat' (first
      | with_reducible assumption | with_reducible apply State.writeCqCfg_evolves
      | (intro _ _ _; (try dsimp -zeta only)) | (intro _; (try dsimp -zeta only)) | split)

theorem execAtrSqDb_evolves {s0 s : State} (port : Nat) (n : Nat) (value : Word) (hs : Evolves s0 s) :
    ∃ r_, execAtrSqDb port n value s = .next r_ ∧ Evolves s0 r_ := by
  refine ⟨_, rfl, ?_⟩
  repeat' (first
      | with_reducible assumption | with_reducible apply State.writeSqDb_evolves
      | (intro _ _ _; (try dsimp -zeta only)) | (intro _; (try dsimp -zeta only)) | split)

theorem execAtrCqDb_evolves {s0 s : State} (port : Nat) (n : Nat) (value : Word) (hs : Evolves s0 s) :
    ∃ r_, execAtrCqDb port n value s = .next r_ ∧ Evolves s0 r_ := by
  refine ⟨_, rfl, ?_⟩
  repeat' (first
      | with_reducible assumption | with_reducible apply State.writeCqDb_evolves
      | (intro _ _ _; (try dsimp -zeta only)) | (intro _; (try dsimp -zeta only)) | split)

theorem State.issueRead_evolves {s0 s : State} (id : Nat) (p : Nat) (g : Seg) (hs : Evolves s0 s) :
    Evolves s0 (State.issueRead id p g s) := by
  unfold State.issueRead
  repeat' (first
      | with_reducible assumption | with_reducible apply State.send_evolves
      | with_reducible apply State.updSlot_evolves | (intro _ _ _; (try dsimp -zeta only))
      | (intro _; (try dsimp -zeta only)) | split)

theorem State.pumpSlot_evolves {s0 s : State} (id : Nat) (n0_ : Nat) (hs : Evolves s0 s) :
    Evolves s0 (State.pumpSlot id n0_ s) := by
  induction n0_ generalizing id s with
  | zero => unfold State.pumpSlot; exact hs
  | succ k_ ih_ =>
  unfold State.pumpSlot
  repeat' (first
      | with_reducible assumption | with_reducible apply ih_ | with_reducible apply State.updSlot_evolves
      | with_reducible apply State.issueRead_evolves | (intro _ _ _; (try dsimp -zeta only))
      | (intro _; (try dsimp -zeta only)) | split)

theorem State.pumpReads_evolves {s0 s : State} (hs : Evolves s0 s) :
    Evolves s0 (State.pumpReads s) := by
  unfold State.pumpReads
  repeat' (first
      | with_reducible assumption | with_reducible apply State.pumpSlot_evolves | with_reducible apply Evolves.foldl
      | (intro _ _ _; (try dsimp -zeta only)) | (intro _; (try dsimp -zeta only)) | split)

theorem State.takeCpl_evolves {s0 s : State} (p tag cstatus offset : Nat) (last : Bool) (data : Bytes)
    (hs : Evolves s0 s) :
    Evolves s0 (State.takeCpl p tag cstatus offset last data s) := by
  unfold State.takeCpl
  split
  · exact State.updPort_evolves _ _ hs
  · split
    · exact State.pumpReads_evolves (State.finish_evolves _ _ _ _ hs)
    · split
      · exact hs
      · extract_lets t u
        have ht : Evolves s0 t := hs.with_hostMem fun k => memWrite_wf k _ _
        clear_value t
        refine State.pumpReads_evolves ?_
        simp only [u]
        split
        · exact State.updSlot_evolves _ _ ht
        · exact ht

theorem State.handOver_evolves {s0 s : State} (id : Nat) (hs : Evolves s0 s) :
    Evolves s0 (State.handOver id s) := by
  unfold State.handOver
  repeat' (first
      | with_reducible assumption | with_reducible apply State.updSlot_evolves
      | with_reducible apply State.fail_evolves | with_reducible apply State.takeLocks_evolves
      | with_reducible apply State.pumpReads_evolves | (intro _ _ _; (try dsimp -zeta only))
      | (intro _; (try dsimp -zeta only)) | split)

theorem State.unfence_evolves {s0 s : State} (hs : Evolves s0 s) :
    Evolves s0 (State.unfence s) := by
  unfold State.unfence
  repeat' (first
      | with_reducible assumption | with_reducible apply State.handOver_evolves | with_reducible apply Evolves.foldl
      | (intro _ _ _; (try dsimp -zeta only)) | (intro _; (try dsimp -zeta only)) | split)

theorem State.notify_evolves {s0 s : State} (n : Nat) (hs : Evolves s0 s) : Evolves s0 (State.notify n s) := by
  unfold State.notify
  split
  · exact hs
  · exact State.send_evolves _ _ (State.updCq_evolves _ _ (hs.with_hostMem fun k => memWrite_wf k _ _))

theorem State.wantNotify_evolves {s0 s : State} (n : Nat) (want : Bool) (hs : Evolves s0 s) :
    Evolves s0 (State.wantNotify n want s) := by
  unfold State.wantNotify
  repeat' (first
      | with_reducible assumption | (have : Evolves _ t_ := h_; clear_value t_)
      | with_reducible apply State.updCq_evolves | with_reducible apply State.notify_evolves
      | (intro _ _ _; (try dsimp -zeta only)) | (intro _; (try dsimp -zeta only))
      | (extract_lets +onlyGivenNames t_; (refine_lift have h_ : Evolves s0 t_ := ?_; ?_); rotate_left; dsimp -zeta only [t_])
      | (extract_lets +onlyGivenNames t_; (refine_lift have h_ : Evolves s0 t_.2 := ?_; ?_); rotate_left; dsimp -zeta only [t_])
      | (extract_lets +onlyGivenNames t_) | split)

theorem State.release_evolves {s0 s : State} (id : Option Nat) (hs : Evolves s0 s) :
    Evolves s0 (State.release id s) := by
  unfold State.release
  repeat' (first
      | with_reducible assumption | with_reducible apply State.dropUnready_evolves
      | with_reducible apply State.unpinAll_evolves | exact fun k_ => k_ | (intro k_; simpa [Atrium.Ok] using k_)
      | (intro _ _ _; (try dsimp -zeta only)) | (intro _; (try dsimp -zeta only)) | split
      | with_reducible apply Evolves.with_atr_locks)

theorem State.post_evolves {s0 s : State} (n : Nat) (hs : Evolves s0 s) :
    Evolves s0 (State.post n s) := by
  unfold State.post
  repeat' (first
      | with_reducible assumption | (have : Evolves _ t_ := h_; clear_value t_)
      | with_reducible apply State.updSq_evolves | with_reducible apply State.updCq_evolves
      | with_reducible apply State.ready_evolves | with_reducible apply State.hostWrite_evolves
      | with_reducible apply State.unpark_evolves | with_reducible apply State.takeLocks_evolves
      | with_reducible apply State.unfence_evolves | with_reducible apply State.notify_evolves
      | with_reducible apply State.wantNotify_evolves | with_reducible apply State.release_evolves
      | (intro _ _ _; (try dsimp -zeta only)) | (intro _; (try dsimp -zeta only))
      | (extract_lets +onlyGivenNames t_; (refine_lift have h_ : Evolves s0 t_ := ?_; ?_); rotate_left; dsimp -zeta only [t_])
      | (extract_lets +onlyGivenNames t_; (refine_lift have h_ : Evolves s0 t_.2 := ?_; ?_); rotate_left; dsimp -zeta only [t_])
      | (extract_lets +onlyGivenNames t_) | split)

theorem execNotifyTimeout_evolves {s0 s : State} (cq : Nat) (hs : Evolves s0 s) :
    ∃ r_, execNotifyTimeout cq s = .next r_ ∧ Evolves s0 r_ := by
  refine ⟨_, rfl, ?_⟩
  repeat' (first
      | with_reducible assumption | (have : Evolves _ t_ := h_; clear_value t_)
      | with_reducible apply State.notify_evolves | (intro _ _ _; (try dsimp -zeta only))
      | (intro _; (try dsimp -zeta only))
      | (extract_lets +onlyGivenNames t_; (refine_lift have h_ : Evolves s0 t_ := ?_; ?_); rotate_left; dsimp -zeta only [t_])
      | (extract_lets +onlyGivenNames t_; (refine_lift have h_ : Evolves s0 t_.2 := ?_; ?_); rotate_left; dsimp -zeta only [t_])
      | (extract_lets +onlyGivenNames t_) | split)

/-! ### Machine/Link.lean -/

theorem State.returnFailed_evolves {s0 s : State} (k : UnitKind) (p : Nat) (hs : Evolves s0 s) :
    Evolves s0 (State.returnFailed k p s) := by
  unfold State.returnFailed
  repeat' (first
      | with_reducible assumption | with_reducible apply State.raise_evolves
      | with_reducible apply State.updUnit_evolves | with_reducible apply State.finishUnitCmds_evolves
      | with_reducible apply State.closed_evolves | (intro _ _ _; (try dsimp -zeta only))
      | (intro _; (try dsimp -zeta only)) | split)

theorem State.settleHomes_evolves {s0 s : State} (hs : Evolves s0 s) :
    Evolves s0 (State.settleHomes s) := by
  unfold State.settleHomes
  repeat' (first
      | with_reducible assumption | with_reducible apply State.replay_evolves | exact fun k_ => k_
      | (intro k_; simpa [LinkBlock.Ok] using k_) | (intro _ _ _; (try dsimp -zeta only))
      | (intro _; (try dsimp -zeta only)) | split | with_reducible apply Evolves.with_link)

theorem State.reissueReads_evolves {s0 s : State} (p : Nat) (q : Nat) (hs : Evolves s0 s) :
    Evolves s0 (State.reissueReads p q s) := by
  unfold State.reissueReads
  repeat' (first
      | with_reducible assumption | with_reducible apply State.updSlot_evolves
      | with_reducible apply State.issueRead_evolves | with_reducible apply Evolves.foldl
      | (intro _ _ _; (try dsimp -zeta only)) | (intro _; (try dsimp -zeta only)) | split)

theorem State.failover_evolves {s0 s : State} (p : Nat) (hs : Evolves s0 s) :
    Evolves s0 (State.failover p s) := by
  unfold State.failover
  repeat' (first
      | with_reducible assumption | with_reducible apply State.updPort_evolves
      | with_reducible apply State.reissueReads_evolves | exact fun k_ => k_
      | (intro k_; simpa [LinkBlock.Ok] using k_) | (intro _ _ _; (try dsimp -zeta only))
      | (intro _; (try dsimp -zeta only)) | split | with_reducible apply Evolves.with_link)

theorem State.portFault_evolves {s0 s : State} (p : Nat) (hs : Evolves s0 s) :
    Evolves s0 (State.portFault p s) := by
  unfold State.portFault
  repeat' (first
      | with_reducible assumption | (have : Evolves _ t_ := h_; clear_value t_)
      | with_reducible apply State.closed_evolves | with_reducible apply State.drainFault_evolves
      | with_reducible apply State.failover_evolves | (intro _ _ _; (try dsimp -zeta only))
      | (intro _; (try dsimp -zeta only))
      | (extract_lets +onlyGivenNames t_; (refine_lift have h_ : Evolves s0 t_ := ?_; ?_); rotate_left; dsimp -zeta only [t_])
      | (extract_lets +onlyGivenNames t_; (refine_lift have h_ : Evolves s0 t_.2 := ?_; ?_); rotate_left; dsimp -zeta only [t_])
      | (extract_lets +onlyGivenNames t_) | split)

theorem State.portReady_evolves {s0 s : State} (p : Nat) (hs : Evolves s0 s) :
    Evolves s0 (State.portReady p s) := by
  unfold State.portReady
  repeat' (first
      | with_reducible assumption | with_reducible apply State.updPort_evolves
      | with_reducible apply State.renewRounds_evolves | with_reducible apply State.pumpRed_evolves
      | with_reducible apply State.pumpReads_evolves | with_reducible apply State.reissueReads_evolves
      | exact fun k_ => k_ | (intro k_; simpa [LinkBlock.Ok] using k_) | (intro _ _ _; (try dsimp -zeta only))
      | (intro _; (try dsimp -zeta only)) | split | with_reducible apply Evolves.with_link)

theorem execPartnerDetected_evolves {s0 s : State} (port : Nat) (hs : Evolves s0 s) :
    ∃ r_, execPartnerDetected port s = .next r_ ∧ Evolves s0 r_ := by
  refine ⟨_, rfl, ?_⟩
  repeat' (first
      | with_reducible assumption | (have : Evolves _ t_ := h_; clear_value t_)
      | with_reducible apply State.updPort_evolves | (intro _ _ _; (try dsimp -zeta only))
      | (intro _; (try dsimp -zeta only))
      | (extract_lets +onlyGivenNames t_; (refine_lift have h_ : Evolves s0 t_ := ?_; ?_); rotate_left; dsimp -zeta only [t_])
      | (extract_lets +onlyGivenNames t_; (refine_lift have h_ : Evolves s0 t_.2 := ?_; ?_); rotate_left; dsimp -zeta only [t_])
      | (extract_lets +onlyGivenNames t_) | split)

theorem State.trainingFailed_evolves {s0 s : State} (port : Nat) (hs : Evolves s0 s) :
    Evolves s0 (State.trainingFailed port s) := by
  unfold State.trainingFailed
  repeat' (first
      | with_reducible assumption | (have : Evolves _ t_ := h_; clear_value t_)
      | with_reducible apply State.updPort_evolves | with_reducible apply State.raise_evolves
      | with_reducible apply State.closed_evolves | with_reducible apply State.closeFault_evolves
      | with_reducible apply State.returnFailed_evolves | (intro _ _ _; (try dsimp -zeta only))
      | (intro _; (try dsimp -zeta only))
      | (extract_lets +onlyGivenNames t_; (refine_lift have h_ : Evolves s0 t_ := ?_; ?_); rotate_left; dsimp -zeta only [t_])
      | (extract_lets +onlyGivenNames t_; (refine_lift have h_ : Evolves s0 t_.2 := ?_; ?_); rotate_left; dsimp -zeta only [t_])
      | (extract_lets +onlyGivenNames t_) | split)

theorem State.attemptFailed_evolves {s0 s : State} (port : Nat) (hs : Evolves s0 s) :
    Evolves s0 (State.attemptFailed port s) := by
  unfold State.attemptFailed
  repeat' (first
      | with_reducible assumption | with_reducible apply State.updPort_evolves
      | with_reducible apply State.trainingFailed_evolves | (intro _ _ _; (try dsimp -zeta only))
      | (intro _; (try dsimp -zeta only)) | split)

theorem execTrainingTimeout_evolves {s0 s : State} (port : Nat) (hs : Evolves s0 s) :
    ∃ r_, execTrainingTimeout port s = .next r_ ∧ Evolves s0 r_ := by
  refine ⟨_, rfl, ?_⟩
  repeat' (first
      | with_reducible assumption | (have : Evolves _ t_ := h_; clear_value t_)
      | with_reducible apply State.attemptFailed_evolves | (intro _ _ _; (try dsimp -zeta only))
      | (intro _; (try dsimp -zeta only))
      | (extract_lets +onlyGivenNames t_; (refine_lift have h_ : Evolves s0 t_ := ?_; ?_); rotate_left; dsimp -zeta only [t_])
      | (extract_lets +onlyGivenNames t_; (refine_lift have h_ : Evolves s0 t_.2 := ?_; ?_); rotate_left; dsimp -zeta only [t_])
      | (extract_lets +onlyGivenNames t_) | split)

theorem execTrainingEnd_evolves {s0 s : State} (port : Nat) (p : LinkParams) (hs : Evolves s0 s) :
    ∃ r_, execTrainingEnd port p s = .next r_ ∧ Evolves s0 r_ := by
  refine ⟨_, rfl, ?_⟩
  repeat' (first
      | with_reducible assumption | with_reducible apply State.updPort_evolves
      | with_reducible apply State.raise_evolves | with_reducible apply State.updUnit_evolves
      | with_reducible apply State.closed_evolves | with_reducible apply State.portReady_evolves
      | with_reducible apply State.attemptFailed_evolves | exact fun k_ => k_
      | (intro k_; simpa [LinkBlock.Ok] using k_) | (intro _ _ _; (try dsimp -zeta only))
      | (intro _; (try dsimp -zeta only)) | split | with_reducible apply Evolves.with_link)

theorem execPortRetry_evolves {s0 s : State} (hs : Evolves s0 s) :
    ∃ r_, execPortRetry s = .next r_ ∧ Evolves s0 r_ := by
  refine ⟨_, rfl, ?_⟩
  repeat' (first
      | with_reducible assumption | exact fun k_ => k_ | (intro k_; simpa [LinkBlock.Ok] using k_)
      | (intro _ _ _; (try dsimp -zeta only)) | (intro _; (try dsimp -zeta only)) | split
      | with_reducible apply Evolves.with_link)

theorem State.retrain_evolves {s0 s : State} (port : Nat) (hs : Evolves s0 s) :
    Evolves s0 (State.retrain port s) := by
  unfold State.retrain
  repeat' (first
      | with_reducible assumption | with_reducible apply State.updPort_evolves | (intro _ _ _; (try dsimp -zeta only))
      | (intro _; (try dsimp -zeta only)) | split)

theorem execFlitLockLoss_evolves {s0 s : State} (port : Nat) (hs : Evolves s0 s) :
    ∃ r_, execFlitLockLoss port s = .next r_ ∧ Evolves s0 r_ := by
  refine ⟨_, rfl, ?_⟩
  repeat' (first
      | with_reducible assumption | with_reducible apply State.retrain_evolves | (intro _ _ _; (try dsimp -zeta only))
      | (intro _; (try dsimp -zeta only)) | split)

theorem State.replayFlits_evolves {s0 s : State} (port : Nat) (hs : Evolves s0 s) :
    Evolves s0 (State.replayFlits port s) := by
  unfold State.replayFlits
  repeat' (first
      | with_reducible assumption | (have : Evolves _ t_ := h_; clear_value t_)
      | with_reducible apply State.updPort_evolves | with_reducible apply State.replay_evolves
      | with_reducible apply State.retrain_evolves | (intro _ _ _; (try dsimp -zeta only))
      | (intro _; (try dsimp -zeta only))
      | (extract_lets +onlyGivenNames t_; (refine_lift have h_ : Evolves s0 t_ := ?_; ?_); rotate_left; dsimp -zeta only [t_])
      | (extract_lets +onlyGivenNames t_; (refine_lift have h_ : Evolves s0 t_.2 := ?_; ?_); rotate_left; dsimp -zeta only [t_])
      | (extract_lets +onlyGivenNames t_) | split)

theorem execAckTimeout_evolves {s0 s : State} (port : Nat) (hs : Evolves s0 s) :
    ∃ r_, execAckTimeout port s = .next r_ ∧ Evolves s0 r_ := by
  refine ⟨_, rfl, ?_⟩
  repeat' (first
      | with_reducible assumption | (have : Evolves _ t_ := h_; clear_value t_)
      | with_reducible apply State.replayFlits_evolves | (intro _ _ _; (try dsimp -zeta only))
      | (intro _; (try dsimp -zeta only))
      | (extract_lets +onlyGivenNames t_; (refine_lift have h_ : Evolves s0 t_ := ?_; ?_); rotate_left; dsimp -zeta only [t_])
      | (extract_lets +onlyGivenNames t_; (refine_lift have h_ : Evolves s0 t_.2 := ?_; ?_); rotate_left; dsimp -zeta only [t_])
      | (extract_lets +onlyGivenNames t_) | split)

theorem execRetrainEnd_evolves {s0 s : State} (port : Nat) (good : Bool) (hs : Evolves s0 s) :
    ∃ r_, execRetrainEnd port good s = .next r_ ∧ Evolves s0 r_ := by
  refine ⟨_, rfl, ?_⟩
  repeat' (first
      | with_reducible assumption | (have : Evolves _ t_ := h_; clear_value t_)
      | with_reducible apply State.updPort_evolves | with_reducible apply State.renewRounds_evolves
      | with_reducible apply State.portFault_evolves | (intro _ _ _; (try dsimp -zeta only))
      | (intro _; (try dsimp -zeta only))
      | (extract_lets +onlyGivenNames t_; (refine_lift have h_ : Evolves s0 t_ := ?_; ?_); rotate_left; dsimp -zeta only [t_])
      | (extract_lets +onlyGivenNames t_; (refine_lift have h_ : Evolves s0 t_.2 := ?_; ?_); rotate_left; dsimp -zeta only [t_])
      | (extract_lets +onlyGivenNames t_) | split)

theorem execCreditStarvation_evolves {s0 s : State} (port : Nat) (hs : Evolves s0 s) :
    ∃ r_, execCreditStarvation port s = .next r_ ∧ Evolves s0 r_ := by
  refine ⟨_, rfl, ?_⟩
  repeat' (first
      | with_reducible assumption | with_reducible apply State.portFault_evolves
      | (intro _ _ _; (try dsimp -zeta only)) | (intro _; (try dsimp -zeta only)) | split)

theorem execCpl_evolves {s0 s : State} (port : Nat) (tag : Nat) (cstatus : Nat) (offset : Nat) (last : Bool)
    (data : List Byte) (hs : Evolves s0 s) :
    ∃ r_, execCpl port tag cstatus offset last data s = .next r_ ∧ Evolves s0 r_ := by
  refine ⟨_, rfl, ?_⟩
  repeat' (first
      | with_reducible assumption | with_reducible apply State.takeCpl_evolves | (intro _ _ _; (try dsimp -zeta only))
      | (intro _; (try dsimp -zeta only)) | split)

/-! ### Machine/Beacon.lean -/

theorem State.updBeacon_evolves {s0 s : State} (f : Beacon → Beacon) (hs : Evolves s0 s)
    (hf : s.beacon.Ok → (f s.beacon).Ok) : Evolves s0 (State.updBeacon f s) := hs.with_beacon hf

theorem State.compareEpoch_evolves {s0 s : State} (hs : Evolves s0 s) :
    Evolves s0 (State.compareEpoch s) := by
  unfold State.compareEpoch
  repeat' (first
      | with_reducible assumption | exact fun k_ => k_.of_map rfl | exact fun k_ => k_
      | (intro k_; simpa [Ftl.Ok] using k_) | (intro _ _ _; (try dsimp -zeta only))
      | (intro _; (try dsimp -zeta only)) | split | with_reducible apply Evolves.with_ftl)

theorem State.lock_evolves {s0 s : State} (tick : Nat) (hs : Evolves s0 s) :
    Evolves s0 (State.lock tick s) := by
  unfold State.lock
  repeat' (first
      | with_reducible assumption | with_reducible apply State.updBeacon_evolves
      | with_reducible apply State.compareEpoch_evolves | exact fun k_ => k_ | (intro k_; simpa [Beacon.Ok] using k_)
      | (intro k_; dsimp only; split <;> exact k_) | (intro _ _ _; (try dsimp -zeta only))
      | (intro _; (try dsimp -zeta only)) | split)

theorem State.runOf_evolves {s0 s : State} (tick : Nat) (hs : Evolves s0 s) :
    Evolves s0 (State.runOf tick s) := by
  unfold State.runOf
  repeat' (first
      | with_reducible assumption | with_reducible apply State.updBeacon_evolves | exact fun k_ => k_
      | (intro k_; simpa [Beacon.Ok] using k_) | (intro k_; dsimp only; split <;> exact k_)
      | (intro _ _ _; (try dsimp -zeta only)) | (intro _; (try dsimp -zeta only)) | split)

theorem State.applyBeacon_evolves {s0 s : State} (tick : Nat) (frame : Bool) (hs : Evolves s0 s) :
    Evolves s0 (State.applyBeacon tick frame s) := by
  unfold State.applyBeacon
  repeat' (first
      | with_reducible assumption | (have : Evolves _ t_ := h_; clear_value t_)
      | with_reducible apply State.raise_evolves | with_reducible apply State.updBeacon_evolves
      | with_reducible apply State.lock_evolves | with_reducible apply State.runOf_evolves | exact fun k_ => k_
      | (intro k_; simpa [Beacon.Ok] using k_) | (intro k_; dsimp only; split <;> exact k_)
      | (intro _ _ _; (try dsimp -zeta only)) | (intro _; (try dsimp -zeta only))
      | (extract_lets +onlyGivenNames t_; (refine_lift have h_ : Evolves s0 t_ := ?_; ?_); rotate_left; dsimp -zeta only [t_])
      | (extract_lets +onlyGivenNames t_; (refine_lift have h_ : Evolves s0 t_.2 := ?_; ?_); rotate_left; dsimp -zeta only [t_])
      | (extract_lets +onlyGivenNames t_) | split)

theorem State.monitorBeacon_evolves {s0 s : State} (tick : Nat) (hs : Evolves s0 s) :
    Evolves s0 (State.monitorBeacon tick s) := by
  unfold State.monitorBeacon
  repeat' (first
      | with_reducible assumption | with_reducible apply State.updBeacon_evolves | exact fun k_ => k_
      | (intro k_; simpa [Beacon.Ok] using k_) | (intro k_; dsimp only; split <;> exact k_)
      | (intro _ _ _; (try dsimp -zeta only)) | (intro _; (try dsimp -zeta only)) | split)

theorem State.takeOver_evolves {s0 s : State} (port : Nat) (tick : Nat) (hs : Evolves s0 s) :
    Evolves s0 (State.takeOver port tick s) := by
  unfold State.takeOver
  repeat' (first
      | with_reducible assumption | (have : Evolves _ t_ := h_; clear_value t_)
      | with_reducible apply State.updBeacon_evolves | with_reducible apply State.lock_evolves
      | with_reducible apply State.runOf_evolves | exact fun k_ => k_ | (intro k_; simpa [Beacon.Ok] using k_)
      | (intro k_; dsimp only; split <;> exact k_) | (intro _ _ _; (try dsimp -zeta only))
      | (intro _; (try dsimp -zeta only))
      | (extract_lets +onlyGivenNames t_; (refine_lift have h_ : Evolves s0 t_ := ?_; ?_); rotate_left; dsimp -zeta only [t_])
      | (extract_lets +onlyGivenNames t_; (refine_lift have h_ : Evolves s0 t_.2 := ?_; ?_); rotate_left; dsimp -zeta only [t_])
      | (extract_lets +onlyGivenNames t_) | split)

theorem State.linkBeacon_evolves {s0 s : State} (port : Nat) (tick : Nat) (hs : Evolves s0 s) :
    Evolves s0 (State.linkBeacon port tick s) := by
  unfold State.linkBeacon
  repeat' (first
      | with_reducible assumption | (have : Evolves _ t_ := h_; clear_value t_)
      | with_reducible apply State.updPort_evolves | with_reducible apply State.raise_evolves
      | with_reducible apply State.updBeacon_evolves | with_reducible apply State.applyBeacon_evolves
      | with_reducible apply State.monitorBeacon_evolves | with_reducible apply State.takeOver_evolves
      | exact fun k_ => k_ | (intro k_; simpa [Beacon.Ok] using k_) | (intro k_; dsimp only; split <;> exact k_)
      | (intro _ _ _; (try dsimp -zeta only)) | (intro _; (try dsimp -zeta only))
      | (extract_lets +onlyGivenNames t_; (refine_lift have h_ : Evolves s0 t_ := ?_; ?_); rotate_left; dsimp -zeta only [t_])
      | (extract_lets +onlyGivenNames t_; (refine_lift have h_ : Evolves s0 t_.2 := ?_; ?_); rotate_left; dsimp -zeta only [t_])
      | (extract_lets +onlyGivenNames t_) | split)

theorem execBeacon_evolves {s0 s : State} (port : Nat) (flit : BeaconFlit) (hs : Evolves s0 s) :
    ∃ r_, execBeacon port flit s = .next r_ ∧ Evolves s0 r_ := by
  refine ⟨_, rfl, ?_⟩
  repeat' (first
      | with_reducible assumption | (have : Evolves _ t_ := h_; clear_value t_)
      | with_reducible apply State.updPort_evolves | with_reducible apply State.updBeacon_evolves
      | with_reducible apply State.linkBeacon_evolves | exact fun k_ => k_ | (intro k_; simpa [Beacon.Ok] using k_)
      | (intro k_; dsimp only; split <;> exact k_) | (intro _ _ _; (try dsimp -zeta only))
      | (intro _; (try dsimp -zeta only))
      | (extract_lets +onlyGivenNames t_; (refine_lift have h_ : Evolves s0 t_ := ?_; ?_); rotate_left; dsimp -zeta only [t_])
      | (extract_lets +onlyGivenNames t_; (refine_lift have h_ : Evolves s0 t_.2 := ?_; ?_); rotate_left; dsimp -zeta only [t_])
      | (extract_lets +onlyGivenNames t_) | split)

theorem execAuxTimeFrame_evolves {s0 s : State} (tick : Nat) (clean : Bool) (hs : Evolves s0 s) :
    ∃ r_, execAuxTimeFrame tick clean s = .next r_ ∧ Evolves s0 r_ := by
  refine ⟨_, rfl, ?_⟩
  repeat' (first
      | with_reducible assumption | (have : Evolves _ t_ := h_; clear_value t_)
      | with_reducible apply State.updBeacon_evolves | with_reducible apply State.applyBeacon_evolves
      | with_reducible apply State.monitorBeacon_evolves | exact fun k_ => k_ | (intro k_; simpa [Beacon.Ok] using k_)
      | (intro k_; dsimp only; split <;> exact k_) | (intro _ _ _; (try dsimp -zeta only))
      | (intro _; (try dsimp -zeta only))
      | (extract_lets +onlyGivenNames t_; (refine_lift have h_ : Evolves s0 t_ := ?_; ?_); rotate_left; dsimp -zeta only [t_])
      | (extract_lets +onlyGivenNames t_; (refine_lift have h_ : Evolves s0 t_.2 := ?_; ?_); rotate_left; dsimp -zeta only [t_])
      | (extract_lets +onlyGivenNames t_) | split)

theorem execBeaconHoldover_evolves {s0 s : State} (hs : Evolves s0 s) :
    ∃ r_, execBeaconHoldover s = .next r_ ∧ Evolves s0 r_ := by
  refine ⟨_, rfl, ?_⟩
  repeat' (first
      | with_reducible assumption | (have : Evolves _ t_ := h_; clear_value t_)
      | with_reducible apply State.updBeacon_evolves | exact fun k_ => k_ | (intro k_; simpa [Beacon.Ok] using k_)
      | (intro k_; dsimp only; split <;> exact k_) | (intro _ _ _; (try dsimp -zeta only))
      | (intro _; (try dsimp -zeta only))
      | (extract_lets +onlyGivenNames t_; (refine_lift have h_ : Evolves s0 t_ := ?_; ?_); rotate_left; dsimp -zeta only [t_])
      | (extract_lets +onlyGivenNames t_; (refine_lift have h_ : Evolves s0 t_.2 := ?_; ?_); rotate_left; dsimp -zeta only [t_])
      | (extract_lets +onlyGivenNames t_) | split)

theorem execBeaconDegraded_evolves {s0 s : State} (hs : Evolves s0 s) :
    ∃ r_, execBeaconDegraded s = .next r_ ∧ Evolves s0 r_ := by
  refine ⟨_, rfl, ?_⟩
  repeat' (first
      | with_reducible assumption | (have : Evolves _ t_ := h_; clear_value t_)
      | with_reducible apply State.raise_evolves | with_reducible apply State.updBeacon_evolves | exact fun k_ => k_
      | (intro k_; simpa [Beacon.Ok] using k_) | (intro k_; dsimp only; split <;> exact k_)
      | (intro _ _ _; (try dsimp -zeta only)) | (intro _; (try dsimp -zeta only))
      | (extract_lets +onlyGivenNames t_; (refine_lift have h_ : Evolves s0 t_ := ?_; ?_); rotate_left; dsimp -zeta only [t_])
      | (extract_lets +onlyGivenNames t_; (refine_lift have h_ : Evolves s0 t_.2 := ?_; ?_); rotate_left; dsimp -zeta only [t_])
      | (extract_lets +onlyGivenNames t_) | split)

theorem execBeaconSourceCheck_evolves {s0 s : State} (ppm : Int) (hs : Evolves s0 s) :
    ∃ r_, execBeaconSourceCheck ppm s = .next r_ ∧ Evolves s0 r_ := by
  refine ⟨_, rfl, ?_⟩
  repeat' (first
      | with_reducible assumption | (have : Evolves _ t_ := h_; clear_value t_)
      | with_reducible apply State.updPort_evolves | with_reducible apply State.raise_evolves
      | with_reducible apply State.updBeacon_evolves | exact fun k_ => k_ | (intro k_; simpa [Beacon.Ok] using k_)
      | (intro k_; dsimp only; split <;> exact k_) | (intro _ _ _; (try dsimp -zeta only))
      | (intro _; (try dsimp -zeta only))
      | (extract_lets +onlyGivenNames t_; (refine_lift have h_ : Evolves s0 t_ := ?_; ?_); rotate_left; dsimp -zeta only [t_])
      | (extract_lets +onlyGivenNames t_; (refine_lift have h_ : Evolves s0 t_.2 := ?_; ?_); rotate_left; dsimp -zeta only [t_])
      | (extract_lets +onlyGivenNames t_) | split)

theorem execEcho_evolves {s0 s : State} (hs : Evolves s0 s) :
    ∃ r_, execEcho s = .next r_ ∧ Evolves s0 r_ := by
  refine ⟨_, rfl, ?_⟩
  repeat' (first
      | with_reducible assumption | exact fun k_ => k_ | (intro k_; simpa [LinkBlock.Ok] using k_)
      | (intro _ _ _; (try dsimp -zeta only)) | (intro _; (try dsimp -zeta only)) | split
      | with_reducible apply Evolves.with_link)

theorem execEchoReturn_evolves {s0 s : State} (port : Nat) (arrival : Nat) (turn : Nat) (hs : Evolves s0 s) :
    ∃ r_, execEchoReturn port arrival turn s = .next r_ ∧ Evolves s0 r_ := by
  refine ⟨_, rfl, ?_⟩
  repeat' (first
      | with_reducible assumption | with_reducible apply State.updPort_evolves | (intro _ _ _; (try dsimp -zeta only))
      | (intro _; (try dsimp -zeta only)) | split)

theorem State.writeBcnCfg_evolves {s0 s : State} (v : Nat) (hs : Evolves s0 s) : Evolves s0 (State.writeBcnCfg v s)
    := by
  unfold State.writeBcnCfg
  extract_lets c t
  split
  · exact State.updBeacon_evolves _ hs id
  · have ht : Evolves s0 t := by
      simp only [t]
      split
      · exact hs
      · exact State.updBeacon_evolves _ hs fun _ => by
          have : c < 4 := Nat.mod_lt _ (by decide)
          simp only [Beacon.Ok]; omega
    clear_value t
    split
    · exact ht
    · exact ht.with_test

theorem execBcnCfg_evolves {s0 s : State} (port : Nat) (value : Word) (hs : Evolves s0 s) :
    ∃ r_, execBcnCfg port value s = .next r_ ∧ Evolves s0 r_ := by
  refine ⟨_, rfl, ?_⟩
  repeat' (first
      | with_reducible assumption | with_reducible apply State.writeBcnCfg_evolves
      | (intro _ _ _; (try dsimp -zeta only)) | (intro _; (try dsimp -zeta only)) | split)

theorem execTestPulse_evolves {s0 s : State} (hs : Evolves s0 s) :
    ∃ r_, execTestPulse s = .next r_ ∧ Evolves s0 r_ := by
  refine ⟨_, rfl, ?_⟩
  repeat' (first
      | with_reducible assumption | (intro _ _ _; (try dsimp -zeta only)) | (intro _; (try dsimp -zeta only)) | split
      | with_reducible apply Evolves.with_test)

theorem State.writePulseCfg_evolves {s0 s : State} (v : Nat) (hs : Evolves s0 s) :
    Evolves s0 (State.writePulseCfg v s) := by
  unfold State.writePulseCfg
  repeat' (first
      | with_reducible assumption | (intro _ _ _; (try dsimp -zeta only)) | (intro _; (try dsimp -zeta only)) | split
      | with_reducible apply Evolves.with_test)

theorem execTstPulseCfg_evolves {s0 s : State} (port : Nat) (value : Word) (hs : Evolves s0 s) :
    ∃ r_, execTstPulseCfg port value s = .next r_ ∧ Evolves s0 r_ := by
  refine ⟨_, rfl, ?_⟩
  repeat' (first
      | with_reducible assumption | with_reducible apply State.writePulseCfg_evolves
      | (intro _ _ _; (try dsimp -zeta only)) | (intro _; (try dsimp -zeta only)) | split)

/-! ### Machine/Measure.lean -/

theorem State.extend_evolves {s0 s : State} (reg : Nat) (typ : Nat) (obj : Nat) (ver : Nat) (digest : Bytes)
    (hs : Evolves s0 s) :
    Evolves s0 (State.extend reg typ obj ver digest s) := by
  unfold State.extend
  repeat' (first
      | with_reducible assumption | exact fun k_ => k_ | (intro _ _ _; (try dsimp -zeta only))
      | (intro _; (try dsimp -zeta only)) | split | with_reducible apply Evolves.with_sec)

/-! ### Machine/Kernel.lean -/

theorem execKernelLoad_evolves {s0 s : State} (slot : Nat) (hs : Evolves s0 s) :
    ∃ r_, execKernelLoad slot s = .next r_ ∧ Evolves s0 r_ := by
  refine ⟨_, rfl, ?_⟩
  repeat' (first
      | with_reducible assumption | with_reducible apply State.runCmd_evolves
      | with_reducible apply State.done_evolves | with_reducible apply State.fail_evolves
      | with_reducible apply State.extend_evolves | (intro _ _ _; (try dsimp -zeta only))
      | (intro _; (try dsimp -zeta only)) | split | with_reducible apply Evolves.with_search)

end Sys2Proof.Machine
end

