-- ==== Sys2Proof/Laws/EvolvesService.lean ====
section
/-! SUPPORT. Every operation on the scheduler and the services: the state it gives evolves from the state
it is given (Safety.lean). One lemma per operation, citing the lemmas of the operations it calls. The proofs are elaborated in turn: in
parallel they wait for each other, in more threads than there is memory for. -/
namespace Sys2Proof.Machine

set_option Elab.async false

/-! ### Machine/Index.lean -/

theorem State.createFor_evolves {s0 s : State} (c : Slot) (kind cls tier size ver : Nat) (building : Bool)
    (hs : Evolves s0 s) : Evolves s0 (State.createFor c kind cls tier size ver building s) := by
  unfold State.createFor
  extract_lets +onlyGivenNames id durable
  split
  · exact State.fail_evolves _ _ _ hs
  split
  · exact State.fail_evolves _ _ _ hs
  exact State.done_evolves _ _ (State.writeResult_evolves _ _ _ (State.createObj_evolves _ _ _ _ _ _ _ hs))

theorem execIndexCreate_evolves {s0 s : State} (slot : Nat) (hs : Evolves s0 s) :
    ∃ r_, execIndexCreate slot s = .next r_ ∧ Evolves s0 r_ := by
  refine ⟨_, rfl, ?_⟩
  repeat' (first
      | with_reducible assumption | with_reducible apply State.runCmd_evolves
      | with_reducible apply State.fail_evolves | with_reducible apply State.createFor_evolves
      | (intro _ _ _; (try dsimp -zeta only)) | (intro _; (try dsimp -zeta only)) | split)

theorem State.appendEntries_evolves {s0 s : State} (c : Slot) (o : Obj) (v : Version) (es : List AccEntry)
    (hs : Evolves s0 s) :
    Evolves s0 (State.appendEntries c o v es s) := by
  unfold State.appendEntries
  repeat' (first
      | with_reducible assumption | (have : Evolves _ t_ := h_; clear_value t_)
      | with_reducible apply State.fitSlc_evolves | with_reducible apply State.setWork_evolves
      | with_reducible apply State.done_evolves | with_reducible apply State.updObj_evolves
      | with_reducible apply State.updVer_evolves | with_reducible apply State.takeCredit_evolves
      | with_reducible apply State.writeVersion_evolves | with_reducible apply State.accessionDone_evolves
      | with_reducible apply State.ackWrite_evolves | with_reducible apply Evolves.foldl
      | (intro _ _ _; (try dsimp -zeta only)) | (intro _; (try dsimp -zeta only))
      | (extract_lets +onlyGivenNames t_; (refine_lift have h_ : Evolves s0 t_ := ?_; ?_); rotate_left; dsimp -zeta only [t_])
      | (extract_lets +onlyGivenNames t_; (refine_lift have h_ : Evolves s0 t_.2 := ?_; ?_); rotate_left; dsimp -zeta only [t_])
      | (extract_lets +onlyGivenNames t_) | split)

theorem State.doAccession_evolves {s0 s : State} (c : Slot) (hs : Evolves s0 s) :
    Evolves s0 (State.doAccession c s) := by
  unfold State.doAccession
  repeat' (first
      | with_reducible assumption | (have : Evolves _ t_ := h_; clear_value t_)
      | with_reducible apply State.fail_evolves | with_reducible apply State.appendEntries_evolves
      | (intro _ _ _; (try dsimp -zeta only)) | (intro _; (try dsimp -zeta only))
      | (extract_lets +onlyGivenNames t_; (refine_lift have h_ : Evolves s0 t_ := ?_; ?_); rotate_left; dsimp -zeta only [t_])
      | (extract_lets +onlyGivenNames t_; (refine_lift have h_ : Evolves s0 t_.2 := ?_; ?_); rotate_left; dsimp -zeta only [t_])
      | (extract_lets +onlyGivenNames t_) | split)

theorem execAccession_evolves {s0 s : State} (slot : Nat) (hs : Evolves s0 s) :
    ∃ r_, execAccession slot s = .next r_ ∧ Evolves s0 r_ := by
  refine ⟨_, rfl, ?_⟩
  repeat' (first
      | with_reducible assumption | with_reducible apply State.runCmd_evolves
      | with_reducible apply State.doAccession_evolves | (intro _ _ _; (try dsimp -zeta only))
      | (intro _; (try dsimp -zeta only)) | split)

theorem execIndexQuery_evolves {s0 s : State} (slot : Nat) (hs : Evolves s0 s) :
    ∃ r_, execIndexQuery slot s = .next r_ ∧ Evolves s0 r_ := by
  refine ⟨_, rfl, ?_⟩
  repeat' (first
      | with_reducible assumption | with_reducible apply State.writeResult_evolves
      | with_reducible apply State.runCmd_evolves | with_reducible apply State.done_evolves
      | with_reducible apply State.fail_evolves | (intro _ _ _; (try dsimp -zeta only))
      | (intro _; (try dsimp -zeta only)) | split)

/-! ### Machine/Image.lean -/

theorem State.putImage_evolves {s0 s : State} (id : Nat) (n : Nat) (b : Bytes) (hs : Evolves s0 s) :
    Evolves s0 (State.putImage id n b s) := by
  unfold State.putImage
  repeat' (first
      | with_reducible assumption | with_reducible apply State.fitSlc_evolves
      | with_reducible apply State.updObj_evolves | with_reducible apply State.updVer_evolves
      | with_reducible apply State.commit_evolves | with_reducible apply State.writeVersion_evolves
      | with_reducible apply State.extend_evolves | (intro _ _ _; (try dsimp -zeta only))
      | (intro _; (try dsimp -zeta only)) | split)

theorem State.storeImage_evolves {s0 s : State} (c : Slot) (b : Bytes) (hs : Evolves s0 s) :
    Evolves s0 (State.storeImage c b s) := by
  unfold State.storeImage
  (try dsimp only)
  repeat' (first
      | with_reducible assumption | with_reducible apply State.writeResult_evolves
      | with_reducible apply State.setWork_evolves | with_reducible apply State.done_evolves
      | with_reducible apply State.fail_evolves | with_reducible apply State.holdVersion_evolves
      | with_reducible apply State.newVersion_evolves | with_reducible apply State.takeCredit_evolves
      | with_reducible apply State.ackWrite_evolves | with_reducible apply State.createObj_evolves
      | with_reducible apply State.putImage_evolves | split | (intro _ _ _; (try dsimp -zeta only))
      | (intro _; (try dsimp -zeta only)))

theorem State.doProgramLoad_evolves {s0 s : State} (c : Slot) (hs : Evolves s0 s) :
    Evolves s0 (State.doProgramLoad c s) := by
  unfold State.doProgramLoad
  repeat' (first
      | with_reducible assumption | (have : Evolves _ t_ := h_; clear_value t_)
      | with_reducible apply State.writeResult_evolves | with_reducible apply State.fail_evolves
      | with_reducible apply State.storeImage_evolves | (intro _ _ _; (try dsimp -zeta only))
      | (intro _; (try dsimp -zeta only))
      | (extract_lets +onlyGivenNames t_; (refine_lift have h_ : Evolves s0 t_ := ?_; ?_); rotate_left; dsimp -zeta only [t_])
      | (extract_lets +onlyGivenNames t_; (refine_lift have h_ : Evolves s0 t_.2 := ?_; ?_); rotate_left; dsimp -zeta only [t_])
      | (extract_lets +onlyGivenNames t_) | split)

theorem execProgramLoad_evolves {s0 s : State} (slot : Nat) (hs : Evolves s0 s) :
    ∃ r_, execProgramLoad slot s = .next r_ ∧ Evolves s0 r_ := by
  refine ⟨_, rfl, ?_⟩
  repeat' (first
      | with_reducible assumption | with_reducible apply State.runCmd_evolves
      | with_reducible apply State.doProgramLoad_evolves | (intro _ _ _; (try dsimp -zeta only))
      | (intro _; (try dsimp -zeta only)) | split)

/-! ### Machine/Sched.lean -/

theorem State.measureRun_evolves {s0 s : State} (j : Job) (hs : Evolves s0 s) :
    Evolves s0 (State.measureRun j s) := by
  unfold State.measureRun
  repeat' (first
      | with_reducible assumption | with_reducible apply State.updVer_evolves
      | with_reducible apply State.extend_evolves | (intro _ _ _; (try dsimp -zeta only))
      | (intro _; (try dsimp -zeta only)) | split)

theorem State.newJob_evolves {s0 s : State} (c : Slot) (kind : JobKind) (need : Nat) (f : Job → Job)
    (hs : Evolves s0 s) :
    Evolves s0 (State.newJob c kind need f s).2 := by
  unfold State.newJob
  repeat' (first
      | with_reducible assumption | with_reducible apply State.noteShort_evolves
      | with_reducible apply State.updClient_evolves | exact fun k_ => k_ | (intro k_; simpa [Sched.Ok] using k_)
      | (intro _ _ _; (try dsimp -zeta only)) | (intro _; (try dsimp -zeta only)) | split
      | with_reducible apply Evolves.with_sched)

theorem State.newJob_evolves_of {s0 s : State} {c : Slot} {kind : JobKind} {need : Nat} {f : Job → Job} {k_} {r_}
    (e_ : State.newJob c kind need f s = (k_, r_)) (hs : Evolves s0 s) : Evolves s0 r_ := by
  have := State.newJob_evolves c kind need f hs
  rwa [e_] at this

theorem State.admitJob_evolves {s0 s : State} (c : Slot) (kind : JobKind) (need : Nat) (f : Job → Job)
    (hs : Evolves s0 s) :
    Evolves s0 (State.admitJob c kind need f s) := by
  unfold State.admitJob
  repeat' (first
      | with_reducible assumption | with_reducible apply State.measureRun_evolves
      | with_reducible apply State.newJob_evolves | refine State.newJob_evolves_of (by with_reducible assumption) ?_
      | (intro _ _ _; (try dsimp -zeta only)) | (intro _; (try dsimp -zeta only)) | split)

theorem State.admitRun_evolves {s0 s : State} (c : Slot) (hs : Evolves s0 s) :
    Evolves s0 (State.admitRun c s) := by
  unfold State.admitRun
  repeat' (first
      | with_reducible assumption | with_reducible apply State.newJob_evolves
      | refine State.newJob_evolves_of (by with_reducible assumption) ?_ | (intro _ _ _; (try dsimp -zeta only))
      | (intro _; (try dsimp -zeta only)) | split)

theorem execJobRun_evolves {s0 s : State} (slot : Nat) (hs : Evolves s0 s) :
    ∃ r_, execJobRun slot s = .next r_ ∧ Evolves s0 r_ := by
  refine ⟨_, rfl, ?_⟩
  repeat' (first
      | with_reducible assumption | with_reducible apply State.runCmd_evolves
      | with_reducible apply State.setWork_evolves | with_reducible apply State.fail_evolves
      | with_reducible apply State.updJob_evolves | with_reducible apply State.measureRun_evolves
      | (intro _ _ _; (try dsimp -zeta only)) | (intro _; (try dsimp -zeta only)) | split)

theorem State.checkPcs_evolves {s0 s : State} (id : Nat) (hs : Evolves s0 s) :
    Evolves s0 (State.checkPcs id s) := by
  unfold State.checkPcs
  repeat' (first
      | with_reducible assumption | (have : Evolves _ t_ := h_; clear_value t_)
      | with_reducible apply State.ready_evolves | with_reducible apply State.progTrap_evolves
      | (intro k_; simpa +zetaDelta using k_) | (intro _ _ _; (try dsimp -zeta only))
      | (intro _; (try dsimp -zeta only))
      | (extract_lets +onlyGivenNames t_; (refine_lift have h_ : Evolves s0 t_ := ?_; ?_); rotate_left; dsimp -zeta only [t_])
      | (extract_lets +onlyGivenNames t_; (refine_lift have h_ : Evolves s0 t_.2 := ?_; ?_); rotate_left; dsimp -zeta only [t_])
      | (extract_lets +onlyGivenNames t_) | split | (clear_value *; split) | exact List.Subset.refl _
      | (simp +zetaDelta; done))

theorem State.takeGrant_evolves {s0 s : State} (j : Job) (hs : Evolves s0 s) :
    Evolves s0 (State.takeGrant j s) := by
  unfold State.takeGrant
  repeat' (first
      | with_reducible assumption | with_reducible apply State.updJob_evolves | (intro _ _ _; (try dsimp -zeta only))
      | (intro _; (try dsimp -zeta only)) | split)

theorem State.enter_evolves {s0 s : State} (id : Nat) (hs : Evolves s0 s) :
    Evolves s0 (State.enter id s) := by
  unfold State.enter
  repeat' (first
      | with_reducible assumption | with_reducible apply State.restore_evolves
      | with_reducible apply State.startFresh_evolves | with_reducible apply State.checkPcs_evolves
      | (intro _ _ _; (try dsimp -zeta only)) | (intro _; (try dsimp -zeta only)) | split)

theorem State.startJob_evolves {s0 s : State} (j : Job) (phys : List Nat) (cyc : Nat) (hs : Evolves s0 s) :
    Evolves s0 (State.startJob j phys cyc s) := by
  unfold State.startJob
  repeat' (first
      | with_reducible assumption | with_reducible apply State.endWait_evolves
      | with_reducible apply State.updJob_evolves | with_reducible apply State.updClient_evolves
      | with_reducible apply State.takeGrant_evolves | with_reducible apply State.enter_evolves
      | (intro _ _ _; (try dsimp -zeta only)) | (intro _; (try dsimp -zeta only)) | split)

theorem State.hashImage_evolves {s0 s : State} (j : Job) (mismatches : Nat) (hs : Evolves s0 s) :
    Evolves s0 (State.hashImage j mismatches s) := by
  unfold State.hashImage
  repeat' (first
      | with_reducible assumption | with_reducible apply State.impair_evolves | (intro _ _ _; (try dsimp -zeta only))
      | (intro _; (try dsimp -zeta only)) | split)

theorem execJobStart_evolves {s0 s : State} (start : HashedStart) (hs : Evolves s0 s) :
    ∃ r_, execJobStart start s = .next r_ ∧ Evolves s0 r_ := by
  refine ⟨_, rfl, ?_⟩
  repeat' (first
      | with_reducible assumption | with_reducible apply State.startJob_evolves
      | with_reducible apply State.hashImage_evolves | (intro _ _ _; (try dsimp -zeta only))
      | (intro _; (try dsimp -zeta only)) | split)

theorem State.savePoint_evolves {s0 s : State} (id : Nat) (e : PauseEntry) (hs : Evolves s0 s) :
    Evolves s0 (State.savePoint id e s) := by
  unfold State.savePoint
  repeat' (first
      | with_reducible assumption | with_reducible apply State.updJob_evolves | with_reducible apply Evolves.foldl
      | (intro _ _ _; (try dsimp -zeta only)) | (intro _; (try dsimp -zeta only)) | split)

theorem State.passPoint_evolves {s0 s : State} (id : Nat) (cyc : Nat) (e : PauseEntry) (hs : Evolves s0 s) :
    Evolves s0 (State.passPoint id cyc e s) := by
  unfold State.passPoint
  repeat' (first
      | with_reducible assumption | with_reducible apply State.updJob_evolves
      | with_reducible apply State.decideStop_evolves | with_reducible apply State.release_evolves
      | with_reducible apply State.checkPcs_evolves | (intro _ _ _; (try dsimp -zeta only))
      | (intro _; (try dsimp -zeta only)) | split)

theorem State.rerunLayer_evolves {s0 s : State} (id : Nat) (cyc : Nat) (e : PauseEntry) (v : Save) (hs : Evolves s0 s)
    :
    Evolves s0 (State.rerunLayer id cyc e v s) := by
  unfold State.rerunLayer
  repeat' (first
      | with_reducible assumption | with_reducible apply State.updJob_evolves
      | with_reducible apply State.restore_evolves | with_reducible apply State.decideAt_evolves
      | with_reducible apply State.checkPcs_evolves | (intro _ _ _; (try dsimp -zeta only))
      | (intro _; (try dsimp -zeta only)) | split)

theorem execPausePointTaken_evolves {s0 s : State} (job : Nat) (cycle : Nat) (hs : Evolves s0 s) :
    ∃ r_, execPausePointTaken job cycle s = .next r_ ∧ Evolves s0 r_ := by
  refine ⟨_, rfl, ?_⟩
  repeat' (first
      | with_reducible assumption | with_reducible apply State.updJob_evolves
      | with_reducible apply State.decideAt_evolves | with_reducible apply State.savePoint_evolves
      | with_reducible apply State.passPoint_evolves | with_reducible apply State.rerunLayer_evolves
      | (intro _ _ _; (try dsimp -zeta only)) | (intro _; (try dsimp -zeta only)) | split)

theorem State.takeRefs_evolves {s0 s : State} (job : Nat) (id : Nat) (n : Nat) (tier : Nat) (us : List Nat)
    (hs : Evolves s0 s) :
    Evolves s0 (State.takeRefs job id n tier us s) := by
  unfold State.takeRefs
  repeat' (first
      | with_reducible assumption | with_reducible apply State.updObj_evolves | (intro _ _ _; (try dsimp -zeta only))
      | (intro _; (try dsimp -zeta only)) | split)

theorem State.dropJobRefs_evolves {s0 s : State} (job : Nat) (id : Nat) (n : Nat) (tier : Option Nat) (us : List Nat)
    (hs : Evolves s0 s) :
    Evolves s0 (State.dropJobRefs job id n tier us s) := by
  unfold State.dropJobRefs
  repeat' (first
      | with_reducible assumption | with_reducible apply State.dropRefs_evolves
      | (intro _ _ _; (try dsimp -zeta only)) | (intro _; (try dsimp -zeta only)) | split)

theorem State.promoteMove_evolves {s0 s : State} (job : Nat) (id : Nat) (n : Nat) (tier : Nat) (us : List Nat)
    (hs : Evolves s0 s) :
    Evolves s0 (State.promoteMove job id n tier us s).2 := by
  unfold State.promoteMove
  repeat' (first
      | with_reducible assumption | (have : Evolves _ t_ := h_; clear_value t_)
      | with_reducible apply State.cancelEvicts_evolves | with_reducible apply State.promoteUnits_evolves
      | with_reducible apply State.takeRefs_evolves
      | refine State.promoteUnits_evolves_of (by with_reducible assumption) ?_ | (intro _ _ _; (try dsimp -zeta only))
      | (intro _; (try dsimp -zeta only))
      | (extract_lets +onlyGivenNames t_; (refine_lift have h_ : Evolves s0 t_ := ?_; ?_); rotate_left; dsimp -zeta only [t_])
      | (extract_lets +onlyGivenNames t_; (refine_lift have h_ : Evolves s0 t_.2 := ?_; ?_); rotate_left; dsimp -zeta only [t_])
      | (extract_lets +onlyGivenNames t_) | split)

theorem State.promoteMove_evolves_of {s0 s : State} {job : Nat} {id : Nat} {n : Nat} {tier : Nat} {us : List Nat}
    {k_} {r_} (e_ : State.promoteMove job id n tier us s = (k_, r_)) (hs : Evolves s0 s) : Evolves s0 r_ := by
  have := State.promoteMove_evolves job id n tier us hs
  rwa [e_] at this

theorem State.evictMove_evolves {s0 s : State} (job : Nat) (id : Nat) (n : Nat) (tier : Nat) (us : List Nat)
    (hs : Evolves s0 s) :
    Evolves s0 (State.evictMove job id n tier us s).2 := by
  unfold State.evictMove
  repeat' (first
      | with_reducible assumption | (have : Evolves _ t_ := h_; clear_value t_)
      | with_reducible apply State.startWriteback_evolves | with_reducible apply State.evictUnit_evolves
      | with_reducible apply State.dropJobRefs_evolves | with_reducible apply Evolves.foldl
      | (intro _ _ _; (try dsimp -zeta only)) | (intro _; (try dsimp -zeta only))
      | (extract_lets +onlyGivenNames t_; (refine_lift have h_ : Evolves s0 t_ := ?_; ?_); rotate_left; dsimp -zeta only [t_])
      | (extract_lets +onlyGivenNames t_; (refine_lift have h_ : Evolves s0 t_.2 := ?_; ?_); rotate_left; dsimp -zeta only [t_])
      | (extract_lets +onlyGivenNames t_) | split)

theorem State.evictMove_evolves_of {s0 s : State} {job : Nat} {id : Nat} {n : Nat} {tier : Nat} {us : List Nat} {k_}
    {r_} (e_ : State.evictMove job id n tier us s = (k_, r_)) (hs : Evolves s0 s) : Evolves s0 r_ := by
  have := State.evictMove_evolves job id n tier us hs
  rwa [e_] at this

theorem State.carryOut_evolves {s0 s : State} (j : Job) (p : PlaceEntry) (hs : Evolves s0 s) :
    Evolves s0 (State.carryOut j p s).2 := by
  unfold State.carryOut
  repeat' (first
      | with_reducible assumption | with_reducible apply State.updJob_evolves
      | with_reducible apply State.placeTier0_evolves | with_reducible apply State.dropJobRefs_evolves
      | with_reducible apply State.promoteMove_evolves | with_reducible apply State.evictMove_evolves
      | refine State.promoteMove_evolves_of (by with_reducible assumption) ?_
      | refine State.evictMove_evolves_of (by with_reducible assumption) ?_ | (intro _ _ _; (try dsimp -zeta only))
      | (intro _; (try dsimp -zeta only)) | split)

theorem State.carryOut_evolves_of {s0 s : State} {j : Job} {p : PlaceEntry} {k_} {r_}
    (e_ : State.carryOut j p s = (k_, r_)) (hs : Evolves s0 s) : Evolves s0 r_ := by
  have := State.carryOut_evolves j p hs
  rwa [e_] at this

theorem State.finishMove_evolves {s0 s : State} (job : Nat) (hs : Evolves s0 s) :
    Evolves s0 (State.finishMove job s) := by
  unfold State.finishMove
  repeat' (first
      | with_reducible assumption | with_reducible apply State.updJob_evolves
      | with_reducible apply State.checkPcs_evolves | (intro _ _ _; (try dsimp -zeta only))
      | (intro _; (try dsimp -zeta only)) | split)

theorem execPlacementMoveEnd_evolves {s0 s : State} (owner : DmaOwner) (hs : Evolves s0 s) :
    ∃ r_, execPlacementMoveEnd owner s = .next r_ ∧ Evolves s0 r_ := by
  refine ⟨_, rfl, ?_⟩
  repeat' (first
      | with_reducible assumption | (have : Evolves _ t_ := h_; clear_value t_)
      | with_reducible apply State.hostPromote_evolves | with_reducible apply State.carryOut_evolves
      | with_reducible apply State.finishMove_evolves
      | refine State.hostPromote_evolves_of (by with_reducible assumption) ?_
      | refine State.carryOut_evolves_of (by with_reducible assumption) ?_ | (intro _ _ _; (try dsimp -zeta only))
      | (intro _; (try dsimp -zeta only))
      | (extract_lets +onlyGivenNames t_; (refine_lift have h_ : Evolves s0 t_ := ?_; ?_); rotate_left; dsimp -zeta only [t_])
      | (extract_lets +onlyGivenNames t_; (refine_lift have h_ : Evolves s0 t_.2 := ?_; ?_); rotate_left; dsimp -zeta only [t_])
      | (extract_lets +onlyGivenNames t_) | split)

theorem State.giveUp_evolves {s0 s : State} (hs : Evolves s0 s) :
    Evolves s0 (State.giveUp s) := by
  unfold State.giveUp
  repeat' (first
      | with_reducible assumption | exact fun k_ => k_ | (intro k_; simpa [Tiers.Ok] using k_)
      | (intro _ _ _; (try dsimp -zeta only)) | (intro _; (try dsimp -zeta only)) | split
      | with_reducible apply Evolves.with_tiers)

theorem execPromoteWaitExpiry_evolves {s0 s : State} (owner : DmaOwner) (hs : Evolves s0 s) :
    ∃ r_, execPromoteWaitExpiry owner s = .next r_ ∧ Evolves s0 r_ := by
  refine ⟨_, rfl, ?_⟩
  repeat' (first
      | with_reducible assumption | with_reducible apply State.done_evolves
      | with_reducible apply State.hostPromote_evolves | with_reducible apply State.carryOut_evolves
      | with_reducible apply State.finishMove_evolves | with_reducible apply State.giveUp_evolves
      | refine State.hostPromote_evolves_of (by with_reducible assumption) ?_
      | refine State.carryOut_evolves_of (by with_reducible assumption) ?_ | (intro _ _ _; (try dsimp -zeta only))
      | (intro _; (try dsimp -zeta only)) | split)

theorem execPostCharge_evolves {s0 s : State} (n : Nat) (hs : Evolves s0 s) :
    ∃ r_, execPostCharge n s = .next r_ ∧ Evolves s0 r_ := by
  refine ⟨_, rfl, ?_⟩
  repeat' (first
      | with_reducible assumption | with_reducible apply State.chargeJob_evolves | with_reducible apply Evolves.foldl
      | exact fun k_ => k_ | (intro k_; simpa [Sched.Ok] using k_) | (intro k_; simpa [Beacon.Ok] using k_)
      | (intro _ _ _; (try dsimp -zeta only)) | (intro _; (try dsimp -zeta only)) | split
      | with_reducible apply Evolves.with_clk_sched_beacon)

theorem execSliceEnd_evolves {s0 s : State} (job : Nat) (hs : Evolves s0 s) :
    ∃ r_, execSliceEnd job s = .next r_ ∧ Evolves s0 r_ := by
  refine ⟨_, rfl, ?_⟩
  repeat' (first
      | with_reducible assumption | with_reducible apply State.updJob_evolves | (intro _ _ _; (try dsimp -zeta only))
      | (intro _; (try dsimp -zeta only)) | split)

theorem execSliceWatchdog_evolves {s0 s : State} (job : Nat) (ucycle_ : Nat) (hs : Evolves s0 s) :
    ∃ r_, execSliceWatchdog job ucycle_ s = .next r_ ∧ Evolves s0 r_ := by
  refine ⟨_, rfl, ?_⟩
  repeat' (first
      | with_reducible assumption | with_reducible apply State.raise_evolves
      | with_reducible apply State.updJob_evolves | with_reducible apply State.updClient_evolves
      | (intro _ _ _; (try dsimp -zeta only)) | (intro _; (try dsimp -zeta only)) | split)

theorem execClusterWaitTimeout_evolves {s0 s : State} (job : Nat) (hs : Evolves s0 s) :
    ∃ r_, execClusterWaitTimeout job s = .next r_ ∧ Evolves s0 r_ := by
  refine ⟨_, rfl, ?_⟩
  repeat' (first
      | with_reducible assumption | with_reducible apply State.updJob_evolves | (intro _ _ _; (try dsimp -zeta only))
      | (intro _; (try dsimp -zeta only)) | split)

theorem execJobDeadline_evolves {s0 s : State} (job : Nat) (hs : Evolves s0 s) :
    ∃ r_, execJobDeadline job s = .next r_ ∧ Evolves s0 r_ := by
  refine ⟨_, rfl, ?_⟩
  repeat' (first
      | with_reducible assumption | with_reducible apply State.updJob_evolves | (intro _ _ _; (try dsimp -zeta only))
      | (intro _; (try dsimp -zeta only)) | split)

/-! ### Machine/Search.lean -/

theorem State.finishSearch_evolves {s0 s : State} (c : Slot) (p : SearchBlock) (w : SearchWork) (typ : Nat)
    (hs : Evolves s0 s) :
    Evolves s0 (State.finishSearch c p w typ s) := by
  unfold State.finishSearch
  repeat' (first
      | with_reducible assumption | with_reducible apply State.finish_evolves
      | with_reducible apply State.writeResult_evolves | with_reducible apply Evolves.foldl
      | (intro _ _ _; (try dsimp -zeta only)) | (intro _; (try dsimp -zeta only)) | split)

theorem State.failSearch_evolves {s0 s : State} (c : Slot) (p : SearchBlock) (w : SearchWork) (st : Status)
    (hs : Evolves s0 s) :
    Evolves s0 (State.failSearch c p w st s) := by
  unfold State.failSearch
  repeat' (first
      | with_reducible assumption | with_reducible apply State.finish_evolves
      | with_reducible apply State.writeResult_evolves | (intro _ _ _; (try dsimp -zeta only))
      | (intro _; (try dsimp -zeta only)) | split)

theorem State.admitChained_evolves {s0 s : State} (c : Slot) (kind : JobKind) (clusters : Nat)
    (pins : List (Nat × Nat)) (b : Bytes) (params : Bytes) (hs : Evolves s0 s) :
    Evolves s0 (State.admitChained c kind clusters pins b params s) := by
  unfold State.admitChained
  repeat' (first
      | with_reducible assumption | with_reducible apply State.admitJob_evolves
      | (intro _ _ _; (try dsimp -zeta only)) | (intro _; (try dsimp -zeta only)) | split)

theorem State.searchScored_evolves {s0 s : State} (c : Slot) (b : Bytes) (p : SearchBlock) (x : SearchCtx)
    (w : SearchWork) (hs : Evolves s0 s) :
    Evolves s0 (State.searchScored c b p x w s) := by
  unfold State.searchScored
  repeat' (first
      | with_reducible assumption | with_reducible apply State.setWork_evolves
      | with_reducible apply State.finishSearch_evolves | with_reducible apply State.admitChained_evolves
      | (intro _ _ _; (try dsimp -zeta only)) | (intro _; (try dsimp -zeta only)) | split)

theorem State.searchRun_evolves {s0 s : State} (c : Slot) (b : Bytes) (w : SearchWork) (hs : Evolves s0 s) :
    Evolves s0 (State.searchRun c b w s) := by
  unfold State.searchRun
  repeat' (first
      | with_reducible assumption | (have : Evolves _ t_ := h_; clear_value t_)
      | with_reducible apply State.failSearch_evolves | with_reducible apply State.searchScored_evolves
      | (intro _ _ _; (try dsimp -zeta only)) | (intro _; (try dsimp -zeta only))
      | (extract_lets +onlyGivenNames t_; (refine_lift have h_ : Evolves s0 t_ := ?_; ?_); rotate_left; dsimp -zeta only [t_])
      | (extract_lets +onlyGivenNames t_; (refine_lift have h_ : Evolves s0 t_.2 := ?_; ?_); rotate_left; dsimp -zeta only [t_])
      | (extract_lets +onlyGivenNames t_) | split)

theorem State.searchDistances_evolves {s0 s : State} (c : Slot) (b : Bytes) (w : SearchWork) (hs : Evolves s0 s) :
    Evolves s0 (State.searchDistances c b w s) := by
  unfold State.searchDistances
  repeat' (first
      | with_reducible assumption | with_reducible apply State.setWork_evolves
      | with_reducible apply State.admitJob_evolves | with_reducible apply State.searchRun_evolves
      | (intro _ _ _; (try dsimp -zeta only)) | (intro _; (try dsimp -zeta only)) | split)

theorem State.searchStart_evolves {s0 s : State} (c : Slot) (hs : Evolves s0 s) :
    Evolves s0 (State.searchStart c s) := by
  unfold State.searchStart
  repeat' (first
      | with_reducible assumption | (have : Evolves _ t_ := h_; clear_value t_)
      | with_reducible apply State.setWork_evolves | with_reducible apply State.fail_evolves
      | with_reducible apply State.admitChained_evolves | with_reducible apply State.searchDistances_evolves
      | (intro _ _ _; (try dsimp -zeta only)) | (intro _; (try dsimp -zeta only))
      | (extract_lets +onlyGivenNames t_; (refine_lift have h_ : Evolves s0 t_ := ?_; ?_); rotate_left; dsimp -zeta only [t_])
      | (extract_lets +onlyGivenNames t_; (refine_lift have h_ : Evolves s0 t_.2 := ?_; ?_); rotate_left; dsimp -zeta only [t_])
      | (extract_lets +onlyGivenNames t_) | split)

theorem execSearchD_evolves {s0 s : State} (slot : Nat) (hs : Evolves s0 s) :
    ∃ r_, execSearchD slot s = .next r_ ∧ Evolves s0 r_ := by
  refine ⟨_, rfl, ?_⟩
  repeat' (first
      | with_reducible assumption | with_reducible apply State.runCmd_evolves
      | with_reducible apply State.searchStart_evolves | (intro _ _ _; (try dsimp -zeta only))
      | (intro _; (try dsimp -zeta only)) | split)

theorem execSearchX_evolves {s0 s : State} (slot : Nat) (hs : Evolves s0 s) :
    ∃ r_, execSearchX slot s = .next r_ ∧ Evolves s0 r_ := by
  refine ⟨_, rfl, ?_⟩
  repeat' (first
      | with_reducible assumption | with_reducible apply State.runCmd_evolves
      | with_reducible apply State.searchStart_evolves | (intro _ _ _; (try dsimp -zeta only))
      | (intro _; (try dsimp -zeta only)) | split)

theorem State.searchJobEnd_evolves {s0 s : State} (c : Slot) (j : Job) (w : SearchWork) (hs : Evolves s0 s) :
    Evolves s0 (State.searchJobEnd c j w s) := by
  unfold State.searchJobEnd
  repeat' (first
      | with_reducible assumption | (have : Evolves _ t_ := h_; clear_value t_)
      | with_reducible apply State.finishSearch_evolves | with_reducible apply State.failSearch_evolves
      | with_reducible apply State.searchRun_evolves | with_reducible apply State.searchDistances_evolves
      | (intro _ _ _; (try dsimp -zeta only)) | (intro _; (try dsimp -zeta only))
      | (extract_lets +onlyGivenNames t_; (refine_lift have h_ : Evolves s0 t_ := ?_; ?_); rotate_left; dsimp -zeta only [t_])
      | (extract_lets +onlyGivenNames t_; (refine_lift have h_ : Evolves s0 t_.2 := ?_; ?_); rotate_left; dsimp -zeta only [t_])
      | (extract_lets +onlyGivenNames t_) | split)

/-! ### Machine/Merge.lean -/

theorem State.startMerge_evolves {s0 s : State} (c : Slot) (o : Obj) (v : Version) (hs : Evolves s0 s) :
    Evolves s0 (State.startMerge c o v s) := by
  unfold State.startMerge
  repeat' (first
      | with_reducible assumption | (have : Evolves _ t_ := h_; clear_value t_)
      | with_reducible apply State.setWork_evolves | with_reducible apply State.fail_evolves
      | with_reducible apply State.updObj_evolves | with_reducible apply State.holdVersion_evolves
      | with_reducible apply State.newVersion_evolves | with_reducible apply State.admitJob_evolves
      | (intro _ _ _; (try dsimp -zeta only)) | (intro _; (try dsimp -zeta only))
      | (extract_lets +onlyGivenNames t_; (refine_lift have h_ : Evolves s0 t_ := ?_; ?_); rotate_left; dsimp -zeta only [t_])
      | (extract_lets +onlyGivenNames t_; (refine_lift have h_ : Evolves s0 t_.2 := ?_; ?_); rotate_left; dsimp -zeta only [t_])
      | (extract_lets +onlyGivenNames t_) | split)

theorem execAccessionMerge_evolves {s0 s : State} (slot : Nat) (hs : Evolves s0 s) :
    ∃ r_, execAccessionMerge slot s = .next r_ ∧ Evolves s0 r_ := by
  refine ⟨_, rfl, ?_⟩
  repeat' (first
      | with_reducible assumption | with_reducible apply State.runCmd_evolves
      | with_reducible apply State.fail_evolves | with_reducible apply State.startMerge_evolves
      | (intro _ _ _; (try dsimp -zeta only)) | (intro _; (try dsimp -zeta only)) | split)

theorem State.dropMerge_evolves {s0 s : State} (c : Slot) (newVer : Nat) (st : Status) (hs : Evolves s0 s) :
    Evolves s0 (State.dropMerge c newVer st s) := by
  unfold State.dropMerge
  repeat' (first
      | with_reducible assumption | with_reducible apply State.fail_evolves
      | with_reducible apply State.updObj_evolves | with_reducible apply State.retire_evolves
      | (intro _ _ _; (try dsimp -zeta only)) | (intro _; (try dsimp -zeta only)) | split)

theorem State.writeMerge_evolves {s0 s : State} (c : Slot) (newVer : Nat) (snapshot : Nat) (hs : Evolves s0 s) :
    Evolves s0 (State.writeMerge c newVer snapshot s) := by
  unfold State.writeMerge
  repeat' (first
      | with_reducible assumption | (have : Evolves _ t_ := h_; clear_value t_)
      | with_reducible apply State.setWork_evolves | with_reducible apply State.takeCredit_evolves
      | with_reducible apply State.startWriteback_evolves | with_reducible apply State.writeVersion_evolves
      | with_reducible apply State.dropMerge_evolves | (intro _ _ _; (try dsimp -zeta only))
      | (intro _; (try dsimp -zeta only))
      | (extract_lets +onlyGivenNames t_; (refine_lift have h_ : Evolves s0 t_ := ?_; ?_); rotate_left; dsimp -zeta only [t_])
      | (extract_lets +onlyGivenNames t_; (refine_lift have h_ : Evolves s0 t_.2 := ?_; ?_); rotate_left; dsimp -zeta only [t_])
      | (extract_lets +onlyGivenNames t_) | split)

theorem State.goOnMerge_evolves {s0 s : State} (c : Slot) (hs : Evolves s0 s) :
    Evolves s0 (State.goOnMerge c s) := by
  unfold State.goOnMerge
  repeat' (first
      | with_reducible assumption | with_reducible apply State.writeMerge_evolves
      | (intro _ _ _; (try dsimp -zeta only)) | (intro _; (try dsimp -zeta only)) | split)

theorem State.mergeJobEnd_evolves {s0 s : State} (c : Slot) (j : Job) (newVer : Nat) (snapshot : Nat)
    (hs : Evolves s0 s) :
    Evolves s0 (State.mergeJobEnd c j newVer snapshot s) := by
  unfold State.mergeJobEnd
  repeat' (first
      | with_reducible assumption | with_reducible apply State.dropMerge_evolves
      | with_reducible apply State.writeMerge_evolves | (intro _ _ _; (try dsimp -zeta only))
      | (intro _; (try dsimp -zeta only)) | split)

theorem State.commitMerge_evolves {s0 s : State} (c : Slot) (o : Obj) (v : Version) (w : Version) (snapshot : Nat)
    (hs : Evolves s0 s) :
    Evolves s0 (State.commitMerge c o v w snapshot s) := by
  unfold State.commitMerge
  (try dsimp only)
  repeat' (first
      | with_reducible assumption | with_reducible apply State.fitSlc_evolves
      | with_reducible apply State.done_evolves | with_reducible apply State.updObj_evolves
      | with_reducible apply State.updVer_evolves | with_reducible apply State.commit_evolves
      | with_reducible apply State.takeCredit_evolves | with_reducible apply State.writeVersion_evolves
      | with_reducible apply State.ackWrite_evolves | split | (intro _ _ _; (try dsimp -zeta only))
      | (intro _; (try dsimp -zeta only)))

theorem execMergeCommit_evolves {s0 s : State} (slot : Nat) (hs : Evolves s0 s) :
    ∃ r_, execMergeCommit slot s = .next r_ ∧ Evolves s0 r_ := by
  refine ⟨_, rfl, ?_⟩
  repeat' (first
      | with_reducible assumption | with_reducible apply State.dropMerge_evolves
      | with_reducible apply State.commitMerge_evolves | (intro _ _ _; (try dsimp -zeta only))
      | (intro _; (try dsimp -zeta only)) | split)

/-! ### Machine/Folio.lean -/

theorem State.doFolioCreate_evolves {s0 s : State} (c : Slot) (hs : Evolves s0 s) : Evolves s0 (State.doFolioCreate c s) := by
  unfold State.doFolioCreate
  extract_lets +onlyGivenNames id f tier durable
  clear_value id f tier durable
  refine Evolves.ite (State.fail_evolves _ _ _ hs) (Evolves.ite (State.fail_evolves _ _ _ hs) ?_)
  split
  · exact State.fail_evolves _ _ _ hs
  refine Evolves.ite (State.setWork_evolves _ _ hs) ?_
  extract_lets +onlyGivenNames t u
  have ht : Evolves s0 t := State.createObj_evolves _ _ _ _ _ _ _ (Evolves.ite (State.takeCredit_evolves _ hs) hs)
  clear_value t
  have hu : Evolves s0 u := State.writeVersion_evolves _ _ _ _ ht
  clear_value u
  split
  · exact State.done_evolves _ _ hu
  · exact State.ackWrite_evolves _ _ _ _ _ (State.writeResult_evolves _ _ _ hu)

theorem execFolioCreate_evolves {s0 s : State} (slot : Nat) (hs : Evolves s0 s) :
    ∃ r_, execFolioCreate slot s = .next r_ ∧ Evolves s0 r_ := by
  refine ⟨_, rfl, ?_⟩
  repeat' (first
      | with_reducible assumption | with_reducible apply State.runCmd_evolves
      | with_reducible apply State.doFolioCreate_evolves | (intro _ _ _; (try dsimp -zeta only))
      | (intro _; (try dsimp -zeta only)) | split)

theorem State.folioRun_evolves {s0 s : State} (c : Slot) (f : Nat → Nat → Version → State) (hs : Evolves s0 s)
    (hf : ∀ x0 x1 x2, Evolves s0 (f x0 x1 x2)) :
    Evolves s0 (State.folioRun c f s) := by
  unfold State.folioRun
  repeat' (first
      | with_reducible assumption | with_reducible apply State.fail_evolves | with_reducible apply hf
      | (intro _ _ _; (try dsimp -zeta only)) | (intro _; (try dsimp -zeta only)) | split)

theorem State.writeRanges_evolves {s0 s : State} (id : Nat) (n : Nat) (rs : List (Nat × Nat)) (m : Mem)
    (hs : Evolves s0 s) :
    Evolves s0 (State.writeRanges id n rs m s) := by
  unfold State.writeRanges
  repeat' (first
      | with_reducible assumption | with_reducible apply State.writeVersion_evolves
      | with_reducible apply Evolves.foldl | (intro _ _ _; (try dsimp -zeta only)) | (intro _; (try dsimp -zeta only))
      | split)

theorem State.writeTokens_evolves {s0 s : State} (c : Slot) (o : Obj) (n : Nat) (v : Version)
    (ps : List (Nat × Nat × Nat)) (hs : Evolves s0 s) :
    Evolves s0 (State.writeTokens c o n v ps s) := by
  unfold State.writeTokens
  repeat' (first
      | with_reducible assumption | (have : Evolves _ t_ := h_; clear_value t_)
      | with_reducible apply State.writeVersion_evolves | with_reducible apply State.awaitFlash_evolves
      | with_reducible apply State.ackWrite_evolves | with_reducible apply State.writeRanges_evolves
      | (intro _ _ _; (try dsimp -zeta only)) | (intro _; (try dsimp -zeta only))
      | (extract_lets +onlyGivenNames t_; (refine_lift have h_ : Evolves s0 t_ := ?_; ?_); rotate_left; dsimp -zeta only [t_])
      | (extract_lets +onlyGivenNames t_; (refine_lift have h_ : Evolves s0 t_.2 := ?_; ?_); rotate_left; dsimp -zeta only [t_])
      | (extract_lets +onlyGivenNames t_) | split)

theorem State.appendTokens_evolves {s0 s : State} (c : Slot) (hs : Evolves s0 s) :
    Evolves s0 (State.appendTokens c s) := by
  unfold State.appendTokens
  repeat' (first
      | with_reducible assumption | (have : Evolves _ t_ := h_; clear_value t_)
      | with_reducible apply State.setWork_evolves | with_reducible apply State.fail_evolves
      | with_reducible apply State.takeCredit_evolves | with_reducible apply State.writeTokens_evolves
      | (intro _ _ _; (try dsimp -zeta only)) | (intro _; (try dsimp -zeta only))
      | (extract_lets +onlyGivenNames t_; (refine_lift have h_ : Evolves s0 t_ := ?_; ?_); rotate_left; dsimp -zeta only [t_])
      | (extract_lets +onlyGivenNames t_; (refine_lift have h_ : Evolves s0 t_.2 := ?_; ?_); rotate_left; dsimp -zeta only [t_])
      | (extract_lets +onlyGivenNames t_) | split)

theorem execFolioAppend_evolves {s0 s : State} (slot : Nat) (hs : Evolves s0 s) :
    ∃ r_, execFolioAppend slot s = .next r_ ∧ Evolves s0 r_ := by
  refine ⟨_, rfl, ?_⟩
  repeat' (first
      | with_reducible assumption | (have : Evolves _ t_ := h_; clear_value t_)
      | with_reducible apply State.runCmd_evolves | with_reducible apply State.setWork_evolves
      | with_reducible apply State.fail_evolves | with_reducible apply State.admitJob_evolves
      | with_reducible apply State.folioRun_evolves | with_reducible apply State.appendTokens_evolves
      | (intro _ _ _; (try dsimp -zeta only)) | (intro _; (try dsimp -zeta only))
      | (extract_lets +onlyGivenNames t_; (refine_lift have h_ : Evolves s0 t_ := ?_; ?_); rotate_left; dsimp -zeta only [t_])
      | (extract_lets +onlyGivenNames t_; (refine_lift have h_ : Evolves s0 t_.2 := ?_; ?_); rotate_left; dsimp -zeta only [t_])
      | (extract_lets +onlyGivenNames t_) | split)

theorem State.truncate_evolves {s0 s : State} (c : Slot) (hs : Evolves s0 s) : Evolves s0 (State.truncate c s) := by
  unfold State.truncate
  split
  · exact State.fail_evolves _ _ _ hs
  · split
    · exact State.fail_evolves _ _ _ hs
    · extract_lets n t
      split
      · exact State.setWork_evolves _ _ hs
      · refine State.ackWrite_evolves _ _ _ _ _ (State.writeVersion_evolves _ _ _ _ ?_)
        split
        · exact State.takeCredit_evolves _ hs
        · exact hs

theorem execFolioTruncate_evolves {s0 s : State} (slot : Nat) (hs : Evolves s0 s) :
    ∃ r_, execFolioTruncate slot s = .next r_ ∧ Evolves s0 r_ := by
  refine ⟨_, rfl, ?_⟩
  repeat' (first
      | with_reducible assumption | (have : Evolves _ t_ := h_; clear_value t_)
      | with_reducible apply State.runCmd_evolves | with_reducible apply State.fail_evolves
      | with_reducible apply State.folioRun_evolves | with_reducible apply State.truncate_evolves
      | (intro _ _ _; (try dsimp -zeta only)) | (intro _; (try dsimp -zeta only))
      | (extract_lets +onlyGivenNames t_; (refine_lift have h_ : Evolves s0 t_ := ?_; ?_); rotate_left; dsimp -zeta only [t_])
      | (extract_lets +onlyGivenNames t_; (refine_lift have h_ : Evolves s0 t_.2 := ?_; ?_); rotate_left; dsimp -zeta only [t_])
      | (extract_lets +onlyGivenNames t_) | split)

theorem State.touchAll_evolves {s0 s : State} (id : Nat) (n : Nat) (rs : List (Nat × Nat)) (hs : Evolves s0 s) :
    Evolves s0 (State.touchAll id n rs s) := by
  unfold State.touchAll
  repeat' (first
      | with_reducible assumption | with_reducible apply State.touch_evolves | with_reducible apply Evolves.foldl
      | (intro _ _ _; (try dsimp -zeta only)) | (intro _; (try dsimp -zeta only)) | split)

theorem State.attendJob_evolves {s0 s : State} (c : Slot) (id : Nat) (n : Nat) (v : Version) (hs : Evolves s0 s) :
    Evolves s0 (State.attendJob c id n v s) := by
  unfold State.attendJob
  repeat' (first
      | with_reducible assumption | with_reducible apply State.setWork_evolves
      | with_reducible apply State.admitJob_evolves | with_reducible apply State.touchAll_evolves
      | (intro _ _ _; (try dsimp -zeta only)) | (intro _; (try dsimp -zeta only)) | split)

theorem execFolioAttend_evolves {s0 s : State} (slot : Nat) (hs : Evolves s0 s) :
    ∃ r_, execFolioAttend slot s = .next r_ ∧ Evolves s0 r_ := by
  refine ⟨_, rfl, ?_⟩
  repeat' (first
      | with_reducible assumption | (have : Evolves _ t_ := h_; clear_value t_)
      | with_reducible apply State.runCmd_evolves | with_reducible apply State.fail_evolves
      | with_reducible apply State.startReads_evolves | with_reducible apply State.folioRun_evolves
      | with_reducible apply State.attendJob_evolves | (intro _ _ _; (try dsimp -zeta only))
      | (intro _; (try dsimp -zeta only))
      | (extract_lets +onlyGivenNames t_; (refine_lift have h_ : Evolves s0 t_ := ?_; ?_); rotate_left; dsimp -zeta only [t_])
      | (extract_lets +onlyGivenNames t_; (refine_lift have h_ : Evolves s0 t_.2 := ?_; ?_); rotate_left; dsimp -zeta only [t_])
      | (extract_lets +onlyGivenNames t_) | split)

theorem State.folioJobEnd_evolves {s0 s : State} (c : Slot) (j : Job) (hs : Evolves s0 s) :
    Evolves s0 (State.folioJobEnd c j s) := by
  unfold State.folioJobEnd
  repeat' (first
      | with_reducible assumption | with_reducible apply State.writeResult_evolves
      | with_reducible apply State.done_evolves | with_reducible apply State.fail_evolves
      | with_reducible apply State.appendTokens_evolves | (intro _ _ _; (try dsimp -zeta only))
      | (intro _; (try dsimp -zeta only)) | split)

theorem State.reload_evolves {s0 s : State} (c : Slot) (id : Nat) (n : Nat) (v : Version) (hs : Evolves s0 s) :
    Evolves s0 (State.reload c id n v s) := by
  unfold State.reload
  repeat' (first
      | with_reducible assumption | with_reducible apply State.writeResult_evolves
      | with_reducible apply State.done_evolves | with_reducible apply State.touchAll_evolves
      | (intro _ _ _; (try dsimp -zeta only)) | (intro _; (try dsimp -zeta only)) | split)

theorem State.endFolioReads_evolves {s0 s : State} (c : Slot) (hs : Evolves s0 s) :
    Evolves s0 (State.endFolioReads c s) := by
  unfold State.endFolioReads
  repeat' (first
      | with_reducible assumption | with_reducible apply State.folioRun_evolves
      | with_reducible apply State.attendJob_evolves | with_reducible apply State.reload_evolves
      | (intro _ _ _; (try dsimp -zeta only)) | (intro _; (try dsimp -zeta only)) | split)

theorem execFolioReload_evolves {s0 s : State} (slot : Nat) (hs : Evolves s0 s) :
    ∃ r_, execFolioReload slot s = .next r_ ∧ Evolves s0 r_ := by
  refine ⟨_, rfl, ?_⟩
  repeat' (first
      | with_reducible assumption | (have : Evolves _ t_ := h_; clear_value t_)
      | with_reducible apply State.runCmd_evolves | with_reducible apply State.fail_evolves
      | with_reducible apply State.startReads_evolves | with_reducible apply State.folioRun_evolves
      | with_reducible apply State.reload_evolves | (intro _ _ _; (try dsimp -zeta only))
      | (intro _; (try dsimp -zeta only))
      | (extract_lets +onlyGivenNames t_; (refine_lift have h_ : Evolves s0 t_ := ?_; ?_); rotate_left; dsimp -zeta only [t_])
      | (extract_lets +onlyGivenNames t_; (refine_lift have h_ : Evolves s0 t_.2 := ?_; ?_); rotate_left; dsimp -zeta only [t_])
      | (extract_lets +onlyGivenNames t_) | split)

/-! ### Machine/JobEnd.lean -/

theorem State.runJobEnd_evolves {s0 s : State} (c : Slot) (j : Job) (hs : Evolves s0 s) :
    Evolves s0 (State.runJobEnd c j s) := by
  unfold State.runJobEnd
  repeat' (first
      | with_reducible assumption | with_reducible apply State.finish_evolves
      | with_reducible apply State.writeResult_evolves | (intro _ _ _; (try dsimp -zeta only))
      | (intro _; (try dsimp -zeta only)) | split)

theorem State.afterJob_evolves {s0 s : State} (j : Job) (hs : Evolves s0 s) :
    Evolves s0 (State.afterJob j s) := by
  unfold State.afterJob
  repeat' (first
      | with_reducible assumption | with_reducible apply State.searchJobEnd_evolves
      | with_reducible apply State.mergeJobEnd_evolves | with_reducible apply State.folioJobEnd_evolves
      | with_reducible apply State.runJobEnd_evolves | (intro _ _ _; (try dsimp -zeta only))
      | (intro _; (try dsimp -zeta only)) | split)

theorem execJobEnd_evolves {s0 s : State} (job : Nat) (cycle : Nat) (hs : Evolves s0 s) :
    ∃ r_, execJobEnd job cycle s = .next r_ ∧ Evolves s0 r_ := by
  refine ⟨_, rfl, ?_⟩
  repeat' (first
      | with_reducible assumption | (have : Evolves _ t_ := h_; clear_value t_)
      | with_reducible apply State.endWait_evolves | with_reducible apply State.dropRefs_evolves
      | with_reducible apply State.releaseClusters_evolves | with_reducible apply State.afterJob_evolves
      | exact fun k_ => k_ | (intro k_; simpa [Sched.Ok] using k_) | (intro _ _ _; (try dsimp -zeta only))
      | (intro _; (try dsimp -zeta only))
      | (extract_lets +onlyGivenNames t_; (refine_lift have h_ : Evolves s0 t_ := ?_; ?_); rotate_left; dsimp -zeta only [t_])
      | (extract_lets +onlyGivenNames t_; (refine_lift have h_ : Evolves s0 t_.2 := ?_; ?_); rotate_left; dsimp -zeta only [t_])
      | (extract_lets +onlyGivenNames t_) | split | with_reducible apply Evolves.with_sched)

/-! ### Machine/Gather.lean -/

theorem execHotDecay_evolves {s0 s : State} (hs : Evolves s0 s) :
    ∃ r_, execHotDecay s = .next r_ ∧ Evolves s0 r_ := by
  refine ⟨_, rfl, ?_⟩
  repeat' (first
      | with_reducible assumption | exact fun k_ => k_ | (intro k_; simpa [GatherEngine.Ok] using k_)
      | (intro _ _ _; (try dsimp -zeta only)) | (intro _; (try dsimp -zeta only)) | split
      | with_reducible apply Evolves.with_gather)

theorem execPrefetchProtectExpiry_evolves {s0 s : State} (hs : Evolves s0 s) :
    ∃ r_, execPrefetchProtectExpiry s = .next r_ ∧ Evolves s0 r_ := by
  refine ⟨_, rfl, ?_⟩
  repeat' (first
      | with_reducible assumption | exact fun k_ => k_ | (intro k_; simpa [GatherEngine.Ok] using k_)
      | (intro _ _ _; (try dsimp -zeta only)) | (intro _; (try dsimp -zeta only)) | split
      | with_reducible apply Evolves.with_gather)

theorem execTableCreate_evolves {s0 s : State} (slot : Nat) (hs : Evolves s0 s) :
    ∃ r_, execTableCreate slot s = .next r_ ∧ Evolves s0 r_ := by
  refine ⟨_, rfl, ?_⟩
  repeat' (first
      | with_reducible assumption | with_reducible apply State.runCmd_evolves
      | with_reducible apply State.fail_evolves | with_reducible apply State.createFor_evolves
      | (intro _ _ _; (try dsimp -zeta only)) | (intro _; (try dsimp -zeta only)) | split)

theorem State.startStep_evolves {s0 s : State} (slot : Nat) (id : Nat) (n : Nat) (h : TableHdr) (w : GatherWork)
    (hs : Evolves s0 s) :
    Evolves s0 (State.startStep slot id n h w s) := by
  unfold State.startStep
  repeat' (first
      | with_reducible assumption | with_reducible apply State.setWork_evolves
      | with_reducible apply State.startReads_evolves | (intro _ _ _; (try dsimp -zeta only))
      | (intro _; (try dsimp -zeta only)) | split)

theorem State.beginGather_evolves {s0 s : State} (c : Slot) (hs : Evolves s0 s) :
    Evolves s0 (State.beginGather c s) := by
  unfold State.beginGather
  repeat' (first
      | with_reducible assumption | (have : Evolves _ t_ := h_; clear_value t_)
      | with_reducible apply State.fail_evolves | with_reducible apply State.startStep_evolves
      | (intro _ _ _; (try dsimp -zeta only)) | (intro _; (try dsimp -zeta only))
      | (extract_lets +onlyGivenNames t_; (refine_lift have h_ : Evolves s0 t_ := ?_; ?_); rotate_left; dsimp -zeta only [t_])
      | (extract_lets +onlyGivenNames t_; (refine_lift have h_ : Evolves s0 t_.2 := ?_; ?_); rotate_left; dsimp -zeta only [t_])
      | (extract_lets +onlyGivenNames t_) | split)

theorem execGather_evolves {s0 s : State} (slot : Nat) (hs : Evolves s0 s) :
    ∃ r_, execGather slot s = .next r_ ∧ Evolves s0 r_ := by
  refine ⟨_, rfl, ?_⟩
  repeat' (first
      | with_reducible assumption | with_reducible apply State.runCmd_evolves
      | with_reducible apply State.beginGather_evolves | (intro _ _ _; (try dsimp -zeta only))
      | (intro _; (try dsimp -zeta only)) | split)

theorem execGatherPrefetch_evolves {s0 s : State} (slot : Nat) (hs : Evolves s0 s) :
    ∃ r_, execGatherPrefetch slot s = .next r_ ∧ Evolves s0 r_ := by
  refine ⟨_, rfl, ?_⟩
  repeat' (first
      | with_reducible assumption | with_reducible apply State.runCmd_evolves
      | with_reducible apply State.beginGather_evolves | (intro _ _ _; (try dsimp -zeta only))
      | (intro _; (try dsimp -zeta only)) | split)

theorem GatherEngine.evict_ok {now need : Nat} {force : Bool} {fuel : Nat} {g : GatherEngine} (h : g.Ok) :
    (GatherEngine.evict now need force fuel g).2.Ok := by
  induction fuel generalizing g with
  | zero => exact h
  | succ k ih =>
    unfold GatherEngine.evict
    split
    · exact h
    · split
      · exact ih h
      · split
        · exact ih h
        · exact h

theorem GatherEngine.put_ok {now id n j r stride : Nat} {ps : List Nat} {guard_ : Option Nat} {g : GatherEngine} (h : g.Ok) :
    (GatherEngine.put now id n j r stride ps guard_ g).2.Ok := by
  unfold GatherEngine.put
  split
  · exact h
  · split
    · exact h
    · have := GatherEngine.evict_ok (now := now) (need := stride * ps.length) (force := false) (fuel := g.copies.length + 1) h
      split <;> rename_i e <;> rw [e] at this <;> exact this

theorem GatherEngine.hit_ok {now id n j r stride : Nat} {ps : List Nat} {g : GatherEngine} (h : g.Ok) :
    (GatherEngine.hit now id n j r stride ps g).Ok := by
  unfold GatherEngine.hit
  extract_lets is l g1 count
  have h1 : GatherEngine.Ok g1 := by
    simp only [g1]
    split <;> exact h
  clear_value g1
  split
  · exact GatherEngine.put_ok h1
  · exact h1

theorem State.readRow_evolves {s0 : State} (pre : Bool) (id n : Nat) (h : TableHdr) (x : GatherWork × State)
    (p : Nat × Nat)
    (hs : Evolves s0 x.2) : Evolves s0 (State.readRow pre id n h x p).2 := by
  unfold State.readRow
  extract_lets w s stride off copy dram w1 src s1 w2 r
  clear_value copy
  have h1 : Evolves s0 s1 := by
    simp only [s1]
    split
    · exact Evolves.with_gather (t := s) hs fun k => k
    · exact State.touch_evolves _ _ _ _ hs
  clear_value s1
  split
  · exact h1.with_gather fun k => GatherEngine.put_ok k
  · split
    · exact h1
    · exact h1.with_gather fun k => GatherEngine.hit_ok k

theorem State.readRows_evolves {s0 : State} (pre : Bool) (id n : Nat) (h : TableHdr) (l : List (Nat × Nat))
    (x : GatherWork × State) (hs : Evolves s0 x.2) : Evolves s0 (l.foldl (State.readRow pre id n h) x).2 := by
  induction l generalizing x with
  | nil => exact hs
  | cons p l ih => exact ih _ (State.readRow_evolves pre id n h x p hs)

theorem State.gatherStep_evolves {s0 s : State} (c : Slot) (id n : Nat) (v : Version) (w : GatherWork)
    (hs : Evolves s0 s) : Evolves s0 (State.gatherStep c id n v w s) := by
  unfold State.gatherStep
  dsimp only
  split
  · exact State.fail_evolves _ _ _ (State.impair_evolves _ _ hs)
  · have hx := fun x => State.readRows_evolves (decide (c.opcode = 0x52)) id n v.tableHdr (v.tableHdr.stepRows w) (x, s) hs
    split
    · split
      · exact State.done_evolves _ _ (hx _)
      · exact State.startStep_evolves _ _ _ _ _ (hx _)
    · split
      · exact State.done_evolves _ _ (State.writeResult_evolves _ _ _ (State.writeResult_evolves _ _ _ (hx _)))
      · exact State.startStep_evolves _ _ _ _ _ (State.writeResult_evolves _ _ _ (hx _))

theorem execGatherStepEnd_evolves {s0 s : State} (slot : Nat) (hs : Evolves s0 s) :
    ∃ r_, execGatherStepEnd slot s = .next r_ ∧ Evolves s0 r_ := by
  refine ⟨_, rfl, ?_⟩
  repeat' (first
      | with_reducible assumption | with_reducible apply State.fail_evolves
      | with_reducible apply State.gatherStep_evolves | (intro _ _ _; (try dsimp -zeta only))
      | (intro _; (try dsimp -zeta only)) | split)

theorem execTableQuery_evolves {s0 s : State} (slot : Nat) (hs : Evolves s0 s) :
    ∃ r_, execTableQuery slot s = .next r_ ∧ Evolves s0 r_ := by
  refine ⟨_, rfl, ?_⟩
  repeat' (first
      | with_reducible assumption | with_reducible apply State.writeResult_evolves
      | with_reducible apply State.runCmd_evolves | with_reducible apply State.done_evolves
      | with_reducible apply State.fail_evolves | (intro _ _ _; (try dsimp -zeta only))
      | (intro _; (try dsimp -zeta only)) | split)

/-! ### Machine/Reduce.lean -/

theorem State.updDom_evolves {s0 s : State} (d : Nat) (f : Domain → Domain) (hs : Evolves s0 s) :
    Evolves s0 (State.updDom d f s) := by
  unfold State.updDom
  repeat' (first
      | with_reducible assumption | exact fun k_ => k_ | (intro k_; simpa using k_)
      | (intro _ _ _; (try dsimp -zeta only)) | (intro _; (try dsimp -zeta only)) | split
      | with_reducible apply Evolves.with_domains)

theorem State.doResidualCreate_evolves {s0 s : State} (c : Slot) (hs : Evolves s0 s) : Evolves s0 (State.doResidualCreate c s) := by
  unfold State.doResidualCreate
  extract_lets +onlyGivenNames id n durable ps
  clear_value id n durable ps
  refine Evolves.ite (State.fail_evolves _ _ _ hs) (Evolves.ite (State.fail_evolves _ _ _ hs) ?_)
  split
  · exact State.fail_evolves _ _ _ hs
  refine Evolves.ite (State.setWork_evolves _ _ hs) ?_
  extract_lets +onlyGivenNames t exps u
  have ht : Evolves s0 t := State.createObj_evolves _ _ _ _ _ _ _ (Evolves.ite (State.takeCredit_evolves _ hs) hs)
  clear_value t exps
  have hu : Evolves s0 u := State.writeVersion_evolves _ _ _ _ (State.writeVersion_evolves _ _ _ _ ht)
  clear_value u
  split
  · exact State.ackWrite_evolves _ _ _ _ _ (State.writeResult_evolves _ _ _ hu)
  · exact State.done_evolves _ _ hu

theorem execResidualCreate_evolves {s0 s : State} (slot : Nat) (hs : Evolves s0 s) :
    ∃ r_, execResidualCreate slot s = .next r_ ∧ Evolves s0 r_ := by
  refine ⟨_, rfl, ?_⟩
  repeat' (first
      | with_reducible assumption | with_reducible apply State.runCmd_evolves
      | with_reducible apply State.doResidualCreate_evolves | (intro _ _ _; (try dsimp -zeta only))
      | (intro _; (try dsimp -zeta only)) | split)

theorem execDomainQuery_evolves {s0 s : State} (slot : Nat) (hs : Evolves s0 s) :
    ∃ r_, execDomainQuery slot s = .next r_ ∧ Evolves s0 r_ := by
  refine ⟨_, rfl, ?_⟩
  repeat' (first
      | with_reducible assumption | with_reducible apply State.writeResult_evolves
      | with_reducible apply State.runCmd_evolves | with_reducible apply State.done_evolves
      | (intro _ _ _; (try dsimp -zeta only)) | (intro _; (try dsimp -zeta only)) | split)

theorem execReduce_evolves {s0 s : State} (slot : Nat) (hs : Evolves s0 s) :
    ∃ r_, execReduce slot s = .next r_ ∧ Evolves s0 r_ := by
  refine ⟨_, rfl, ?_⟩
  repeat' (first
      | with_reducible assumption | with_reducible apply State.runCmd_evolves
      | with_reducible apply State.setWork_evolves | (intro _ _ _; (try dsimp -zeta only))
      | (intro _; (try dsimp -zeta only)) | split)

theorem State.sendRed_evolves {s0 s : State} (d : Nat) (dst : Nat) (k : RedPacket) (hs : Evolves s0 s) :
    Evolves s0 (State.sendRed d dst k s) := by
  unfold State.sendRed
  repeat' (first
      | with_reducible assumption | with_reducible apply State.pumpRed_evolves | exact fun k_ => k_
      | (intro k_; simpa [LinkBlock.Ok] using k_) | (intro _ _ _; (try dsimp -zeta only))
      | (intro _; (try dsimp -zeta only)) | split | with_reducible apply Evolves.with_link)

theorem State.sendPart_evolves {s0 s : State} (d : Nat) (dst : Nat) (ks : List RedPacket) (hs : Evolves s0 s) :
    Evolves s0 (State.sendPart d dst ks s) := by
  unfold State.sendPart
  repeat' (first
      | with_reducible assumption | with_reducible apply State.sendRed_evolves | with_reducible apply Evolves.foldl
      | (intro _ _ _; (try dsimp -zeta only)) | (intro _; (try dsimp -zeta only)) | split)

theorem State.updRound_evolves {s0 s : State} (d : Nat) (f : Round → Round) (hs : Evolves s0 s) :
    Evolves s0 (State.updRound d f s) := by
  unfold State.updRound
  repeat' (first
      | with_reducible assumption | with_reducible apply State.updDom_evolves | (intro _ _ _; (try dsimp -zeta only))
      | (intro _; (try dsimp -zeta only)) | split)

theorem State.updChunk_evolves {s0 s : State} (d : Nat) (c : Nat) (f : Chunk → Chunk) (hs : Evolves s0 s) :
    Evolves s0 (State.updChunk d c f s) := by
  unfold State.updChunk
  repeat' (first
      | with_reducible assumption | with_reducible apply State.updRound_evolves
      | (intro _ _ _; (try dsimp -zeta only)) | (intro _; (try dsimp -zeta only)) | split)

theorem State.storeRound_evolves {s0 s : State} (r : Round) (id : Nat) (n : Nat) (hs : Evolves s0 s) :
    Evolves s0 (State.storeRound r id n s) := by
  unfold State.storeRound
  repeat' (first
      | with_reducible assumption | with_reducible apply State.writeVersion_evolves
      | with_reducible apply Evolves.foldl | (intro _ _ _; (try dsimp -zeta only)) | (intro _; (try dsimp -zeta only))
      | split)

theorem State.leaveRound_evolves {s0 s : State} (d : Nat) (hs : Evolves s0 s) :
    Evolves s0 (State.leaveRound d s) := by
  unfold State.leaveRound
  repeat' (first
      | with_reducible assumption | with_reducible apply State.ready_evolves
      | with_reducible apply State.dropRefs_evolves | with_reducible apply State.updDom_evolves
      | (intro _ _ _; (try dsimp -zeta only)) | (intro _; (try dsimp -zeta only)) | split)

theorem State.completeRound_evolves {s0 s : State} (d : Nat) (hs : Evolves s0 s) :
    Evolves s0 (State.completeRound d s) := by
  unfold State.completeRound
  repeat' (first
      | with_reducible assumption | with_reducible apply State.finish_evolves
      | with_reducible apply State.writeResult_evolves | with_reducible apply State.updDom_evolves
      | with_reducible apply State.leaveRound_evolves | (intro _ _ _; (try dsimp -zeta only))
      | (intro _; (try dsimp -zeta only)) | split)

theorem State.awaitRound_evolves {s0 s : State} (d : Nat) (phase : Nat) (c : Slot) (ps : List (Nat × Nat × Nat))
    (hs : Evolves s0 s) :
    Evolves s0 (State.awaitRound d phase c ps s) := by
  unfold State.awaitRound
  repeat' (first
      | with_reducible assumption | with_reducible apply State.setWork_evolves
      | with_reducible apply State.startWriteback_evolves | with_reducible apply State.updRound_evolves
      | (intro _ _ _; (try dsimp -zeta only)) | (intro _; (try dsimp -zeta only)) | split)

theorem State.roundStep_evolves {s0 s : State} (d : Nat) (hs : Evolves s0 s) :
    Evolves s0 (State.roundStep d s) := by
  unfold State.roundStep
  repeat' (first
      | with_reducible assumption | with_reducible apply State.writeVersion_evolves
      | with_reducible apply State.storeRound_evolves | with_reducible apply State.completeRound_evolves
      | with_reducible apply State.awaitRound_evolves | (intro _ _ _; (try dsimp -zeta only))
      | (intro _; (try dsimp -zeta only)) | split)

theorem State.endRound_evolves {s0 s : State} (d : Nat) (hs : Evolves s0 s) :
    Evolves s0 (State.endRound d s) := by
  unfold State.endRound
  repeat' (first
      | with_reducible assumption | (have : Evolves _ t_ := h_; clear_value t_)
      | with_reducible apply State.takeCredit_evolves | with_reducible apply State.writeVersion_evolves
      | with_reducible apply State.storeRound_evolves | with_reducible apply State.completeRound_evolves
      | with_reducible apply State.awaitRound_evolves | (intro _ _ _; (try dsimp -zeta only))
      | (intro _; (try dsimp -zeta only))
      | (extract_lets +onlyGivenNames t_; (refine_lift have h_ : Evolves s0 t_ := ?_; ?_); rotate_left; dsimp -zeta only [t_])
      | (extract_lets +onlyGivenNames t_; (refine_lift have h_ : Evolves s0 t_.2 := ?_; ?_); rotate_left; dsimp -zeta only [t_])
      | (extract_lets +onlyGivenNames t_) | split)

theorem State.finishChunk_evolves {s0 s : State} (d : Nat) (c : Nat) (es : List (Nat × Int)) (e : Int) (second : Bool)
    (hs : Evolves s0 s) :
    Evolves s0 (State.finishChunk d c es e second s) := by
  unfold State.finishChunk
  repeat' (first
      | with_reducible assumption | with_reducible apply State.updChunk_evolves
      | with_reducible apply State.endRound_evolves | (intro _ _ _; (try dsimp -zeta only))
      | (intro _; (try dsimp -zeta only)) | split)

theorem State.passDone_evolves {s0 s : State} (d : Nat) (c : Nat) (second : Bool) (hs : Evolves s0 s) :
    Evolves s0 (State.passDone d c second s) := by
  unfold State.passDone
  repeat' (first
      | with_reducible assumption | (have : Evolves _ t_ := h_; clear_value t_)
      | with_reducible apply State.sendPart_evolves | with_reducible apply State.updRound_evolves
      | with_reducible apply State.updChunk_evolves | with_reducible apply State.finishChunk_evolves
      | (intro _ _ _; (try dsimp -zeta only)) | (intro _; (try dsimp -zeta only))
      | (extract_lets +onlyGivenNames t_; (refine_lift have h_ : Evolves s0 t_ := ?_; ?_); rotate_left; dsimp -zeta only [t_])
      | (extract_lets +onlyGivenNames t_; (refine_lift have h_ : Evolves s0 t_.2 := ?_; ?_); rotate_left; dsimp -zeta only [t_])
      | (extract_lets +onlyGivenNames t_) | split)

theorem State.advanceChunk_evolves {s0 s : State} (d : Nat) (c : Nat) (hs : Evolves s0 s) :
    Evolves s0 (State.advanceChunk d c s) := by
  unfold State.advanceChunk
  repeat' (first
      | with_reducible assumption | with_reducible apply State.passDone_evolves
      | (intro _ _ _; (try dsimp -zeta only)) | (intro _; (try dsimp -zeta only)) | split)

theorem State.sendRound_evolves {s0 s : State} (d : Nat) (hs : Evolves s0 s) :
    Evolves s0 (State.sendRound d s) := by
  unfold State.sendRound
  repeat' (first
      | with_reducible assumption | (have : Evolves _ t_ := h_; clear_value t_)
      | with_reducible apply State.updRound_evolves | with_reducible apply State.advanceChunk_evolves
      | with_reducible apply Evolves.foldl | (intro _ _ _; (try dsimp -zeta only)) | (intro _; (try dsimp -zeta only))
      | (extract_lets +onlyGivenNames t_; (refine_lift have h_ : Evolves s0 t_ := ?_; ?_); rotate_left; dsimp -zeta only [t_])
      | (extract_lets +onlyGivenNames t_; (refine_lift have h_ : Evolves s0 t_.2 := ?_; ?_); rotate_left; dsimp -zeta only [t_])
      | (extract_lets +onlyGivenNames t_) | split)

theorem execStartTick_evolves {s0 s : State} (domain : Nat) (hs : Evolves s0 s) :
    ∃ r_, execStartTick domain s = .next r_ ∧ Evolves s0 r_ := by
  refine ⟨_, rfl, ?_⟩
  repeat' (first
      | with_reducible assumption | with_reducible apply State.sendRound_evolves
      | (intro _ _ _; (try dsimp -zeta only)) | (intro _; (try dsimp -zeta only)) | split)

theorem State.dupDrop_evolves {s0 s : State} (d : Nat) (hs : Evolves s0 s) :
    Evolves s0 (State.dupDrop d s) := by
  unfold State.dupDrop
  repeat' (first
      | with_reducible assumption | with_reducible apply State.updDom_evolves
      | with_reducible apply State.updRound_evolves | (intro _ _ _; (try dsimp -zeta only))
      | (intro _; (try dsimp -zeta only)) | split)

theorem State.mismatchDrop_evolves {s0 s : State} (d : Nat) (hs : Evolves s0 s) :
    Evolves s0 (State.mismatchDrop d s) := by
  unfold State.mismatchDrop
  repeat' (first
      | with_reducible assumption | with_reducible apply State.raise_evolves
      | with_reducible apply State.updDom_evolves | with_reducible apply State.updRound_evolves
      | (intro _ _ _; (try dsimp -zeta only)) | (intro _; (try dsimp -zeta only)) | split)

theorem State.upPacket_evolves {s0 s : State} (d : Nat) (k : RedPacket) (ch : Chunk) (right : Bool)
    (hs : Evolves s0 s) :
    Evolves s0 (State.upPacket d k ch right s) := by
  unfold State.upPacket
  repeat' (first
      | with_reducible assumption | with_reducible apply State.updRound_evolves
      | with_reducible apply State.updChunk_evolves | with_reducible apply State.advanceChunk_evolves
      | with_reducible apply State.dupDrop_evolves | with_reducible apply State.mismatchDrop_evolves
      | (intro _ _ _; (try dsimp -zeta only)) | (intro _; (try dsimp -zeta only)) | split)

theorem State.repassPacket_evolves {s0 s : State} (d : Nat) (k : RedPacket) (ch : Chunk) (hs : Evolves s0 s) :
    Evolves s0 (State.repassPacket d k ch s) := by
  unfold State.repassPacket
  repeat' (first
      | with_reducible assumption | with_reducible apply State.sendPart_evolves
      | with_reducible apply State.updRound_evolves | with_reducible apply State.updChunk_evolves
      | with_reducible apply State.advanceChunk_evolves | with_reducible apply State.dupDrop_evolves
      | (intro _ _ _; (try dsimp -zeta only)) | (intro _; (try dsimp -zeta only)) | split)

theorem State.downPacket_evolves {s0 s : State} (d : Nat) (k : RedPacket) (ch : Chunk) (hs : Evolves s0 s) :
    Evolves s0 (State.downPacket d k ch s) := by
  unfold State.downPacket
  repeat' (first
      | with_reducible assumption | with_reducible apply State.sendPart_evolves
      | with_reducible apply State.updChunk_evolves | with_reducible apply State.finishChunk_evolves
      | with_reducible apply State.dupDrop_evolves | (intro _ _ _; (try dsimp -zeta only))
      | (intro _; (try dsimp -zeta only)) | split)

theorem State.takeRed_evolves {s0 s : State} (port : Nat) (vc : Nat) (k : RedPacket) (hs : Evolves s0 s) :
    Evolves s0 (State.takeRed port vc k s) := by
  unfold State.takeRed
  repeat' (first
      | with_reducible assumption | (have : Evolves _ t_ := h_; clear_value t_)
      | with_reducible apply State.updPort_evolves | with_reducible apply State.updDom_evolves
      | with_reducible apply State.updRound_evolves | with_reducible apply State.dupDrop_evolves
      | with_reducible apply State.mismatchDrop_evolves | with_reducible apply State.upPacket_evolves
      | with_reducible apply State.repassPacket_evolves | with_reducible apply State.downPacket_evolves
      | (intro _ _ _; (try dsimp -zeta only)) | (intro _; (try dsimp -zeta only))
      | (extract_lets +onlyGivenNames t_; (refine_lift have h_ : Evolves s0 t_ := ?_; ?_); rotate_left; dsimp -zeta only [t_])
      | (extract_lets +onlyGivenNames t_; (refine_lift have h_ : Evolves s0 t_.2 := ?_; ?_); rotate_left; dsimp -zeta only [t_])
      | (extract_lets +onlyGivenNames t_) | split)

theorem State.arriveRed_evolves {s0 s : State} (port : Nat) (vc : Nat) (k : RedPacket) (hs : Evolves s0 s) :
    Evolves s0 (State.arriveRed port vc k s) := by
  unfold State.arriveRed
  repeat' (first
      | with_reducible assumption | with_reducible apply State.updPort_evolves
      | with_reducible apply State.takeRed_evolves | (intro _ _ _; (try dsimp -zeta only))
      | (intro _; (try dsimp -zeta only)) | split)

theorem State.deliverHeld_evolves {s0 s : State} (hs : Evolves s0 s) :
    Evolves s0 (State.deliverHeld s) := by
  unfold State.deliverHeld
  repeat' (first
      | with_reducible assumption | with_reducible apply State.updPort_evolves
      | with_reducible apply State.arriveRed_evolves | with_reducible apply Evolves.foldl
      | (intro _ _ _; (try dsimp -zeta only)) | (intro _; (try dsimp -zeta only)) | split)

theorem execReductionPacket_evolves {s0 s : State} (vc : Nat) (p : RedPacket) (hs : Evolves s0 s) :
    ∃ r_, execReductionPacket vc p s = .next r_ ∧ Evolves s0 r_ := by
  refine ⟨_, rfl, ?_⟩
  repeat' (first
      | with_reducible assumption | with_reducible apply State.arriveRed_evolves
      | (intro _ _ _; (try dsimp -zeta only)) | (intro _; (try dsimp -zeta only)) | split)

theorem execDomainSet_evolves {s0 s : State} (slot : Nat) (hs : Evolves s0 s) :
    ∃ r_, execDomainSet slot s = .next r_ ∧ Evolves s0 r_ := by
  refine ⟨_, rfl, ?_⟩
  repeat' (first
      | with_reducible assumption | (have : Evolves _ t_ := h_; clear_value t_)
      | with_reducible apply State.ready_evolves | with_reducible apply State.closed_evolves
      | with_reducible apply State.runCmd_evolves | with_reducible apply State.done_evolves
      | with_reducible apply State.fail_evolves | with_reducible apply State.updDom_evolves
      | with_reducible apply State.deliverHeld_evolves | (intro _ _ _; (try dsimp -zeta only))
      | (intro _; (try dsimp -zeta only))
      | (extract_lets +onlyGivenNames t_; (refine_lift have h_ : Evolves s0 t_ := ?_; ?_); rotate_left; dsimp -zeta only [t_])
      | (extract_lets +onlyGivenNames t_; (refine_lift have h_ : Evolves s0 t_.2 := ?_; ?_); rotate_left; dsimp -zeta only [t_])
      | (extract_lets +onlyGivenNames t_) | split)

theorem execDomainClear_evolves {s0 s : State} (slot : Nat) (hs : Evolves s0 s) :
    ∃ r_, execDomainClear slot s = .next r_ ∧ Evolves s0 r_ := by
  refine ⟨_, rfl, ?_⟩
  repeat' (first
      | with_reducible assumption | (have : Evolves _ t_ := h_; clear_value t_)
      | with_reducible apply State.runCmd_evolves | with_reducible apply State.done_evolves
      | with_reducible apply State.fail_evolves | with_reducible apply State.updDom_evolves
      | with_reducible apply State.deliverHeld_evolves | (intro _ _ _; (try dsimp -zeta only))
      | (intro _; (try dsimp -zeta only))
      | (extract_lets +onlyGivenNames t_; (refine_lift have h_ : Evolves s0 t_ := ?_; ?_); rotate_left; dsimp -zeta only [t_])
      | (extract_lets +onlyGivenNames t_; (refine_lift have h_ : Evolves s0 t_.2 := ?_; ?_); rotate_left; dsimp -zeta only [t_])
      | (extract_lets +onlyGivenNames t_) | split)

theorem State.holdStore_evolves {s0 s : State} (d : Nat) (id : Nat) (n : Nat) (hs : Evolves s0 s) :
    Evolves s0 (State.holdStore d id n s) := by
  unfold State.holdStore
  repeat' (first
      | with_reducible assumption | with_reducible apply State.updObj_evolves | (intro _ _ _; (try dsimp -zeta only))
      | (intro _; (try dsimp -zeta only)) | split)

theorem execRoundStart_evolves {s0 s : State} (slot : Nat) (hs : Evolves s0 s) :
    ∃ r_, execRoundStart slot s = .next r_ ∧ Evolves s0 r_ := by
  refine ⟨_, rfl, ?_⟩
  repeat' (first
      | with_reducible assumption | (have : Evolves _ t_ := h_; clear_value t_)
      | with_reducible apply State.setWork_evolves | with_reducible apply State.updDom_evolves
      | with_reducible apply State.sendRound_evolves | with_reducible apply State.deliverHeld_evolves
      | with_reducible apply State.holdStore_evolves | (intro _ _ _; (try dsimp -zeta only))
      | (intro _; (try dsimp -zeta only))
      | (extract_lets +onlyGivenNames t_; (refine_lift have h_ : Evolves s0 t_ := ?_; ?_); rotate_left; dsimp -zeta only [t_])
      | (extract_lets +onlyGivenNames t_; (refine_lift have h_ : Evolves s0 t_.2 := ?_; ?_); rotate_left; dsimp -zeta only [t_])
      | (extract_lets +onlyGivenNames t_) | split)

theorem State.endReduces_evolves {s0 s : State} (info : Nat → Nat) (hs : Evolves s0 s) :
    Evolves s0 (State.endReduces info s) := by
  unfold State.endReduces
  repeat' (first
      | with_reducible assumption | with_reducible apply State.finish_evolves
      | with_reducible apply State.done_evolves | with_reducible apply Evolves.foldl
      | (intro _ _ _; (try dsimp -zeta only)) | (intro _; (try dsimp -zeta only)) | split)

theorem State.emptyDomains_evolves {s0 s : State} (hs : Evolves s0 s) :
    Evolves s0 (State.emptyDomains s) := by
  unfold State.emptyDomains
  repeat' (first
      | with_reducible assumption | with_reducible apply State.dropRefs_evolves
      | with_reducible apply State.deliverHeld_evolves | with_reducible apply State.endReduces_evolves
      | exact fun k_ => k_ | (intro k_; simpa [LinkBlock.Ok] using k_) | (intro k_; simpa using k_)
      | (intro _ _ _; (try dsimp -zeta only)) | (intro _; (try dsimp -zeta only)) | split
      | with_reducible apply Evolves.with_domains_link)

theorem execReductionStall_evolves {s0 s : State} (domain : Nat) (hs : Evolves s0 s) :
    ∃ r_, execReductionStall domain s = .next r_ ∧ Evolves s0 r_ := by
  refine ⟨_, rfl, ?_⟩
  repeat' (first
      | with_reducible assumption | (have : Evolves _ t_ := h_; clear_value t_)
      | with_reducible apply State.raise_evolves | with_reducible apply State.closed_evolves
      | with_reducible apply State.updDom_evolves | with_reducible apply State.emptyDomains_evolves
      | (intro _ _ _; (try dsimp -zeta only)) | (intro _; (try dsimp -zeta only))
      | (extract_lets +onlyGivenNames t_; (refine_lift have h_ : Evolves s0 t_ := ?_; ?_); rotate_left; dsimp -zeta only [t_])
      | (extract_lets +onlyGivenNames t_; (refine_lift have h_ : Evolves s0 t_.2 := ?_; ?_); rotate_left; dsimp -zeta only [t_])
      | (extract_lets +onlyGivenNames t_) | split)

end Sys2Proof.Machine
end

