-- ==== Sys2Proof/Laws/EvolvesSystem.lean ====
section
/-! SUPPORT. Every operation on service units on command, faults, power and security: the state it gives evolves from the state
it is given (Safety.lean). One lemma per operation, citing the lemmas of the operations it calls. The proofs are elaborated in turn: in
parallel they wait for each other, in more threads than there is memory for. -/
namespace Sys2Proof.Machine

set_option Elab.async false

/-! ### Machine/UnitCmds.lean -/

theorem State.closeReduction_evolves {s0 s : State} (hs : Evolves s0 s) :
    Evolves s0 (State.closeReduction s) := by
  unfold State.closeReduction
  repeat' (first
      | with_reducible assumption | (have : Evolves _ t_ := h_; clear_value t_)
      | with_reducible apply State.raise_evolves | with_reducible apply State.closed_evolves
      | with_reducible apply State.emptyDomains_evolves | (intro k_; simpa +zetaDelta using k_)
      | (intro _ _ _; (try dsimp -zeta only)) | (intro _; (try dsimp -zeta only))
      | (extract_lets +onlyGivenNames t_; (refine_lift have h_ : Evolves s0 t_ := ?_; ?_); rotate_left; dsimp -zeta only [t_])
      | (extract_lets +onlyGivenNames t_; (refine_lift have h_ : Evolves s0 t_.2 := ?_; ?_); rotate_left; dsimp -zeta only [t_])
      | (extract_lets +onlyGivenNames t_) | split | (clear_value *; split) | exact List.Subset.refl _
      | (simp +zetaDelta; done))

theorem State.dropClean_evolves {s0 s : State} (p : Nat) (hs : Evolves s0 s) :
    Evolves s0 (State.dropClean p s) := by
  unfold State.dropClean
  repeat' (first
      | with_reducible assumption | exact fun k_ => k_ | (intro k_; simpa [Tiers.Ok] using k_)
      | (intro _ _ _; (try dsimp -zeta only)) | (intro _; (try dsimp -zeta only)) | split
      | with_reducible apply Evolves.with_tiers)

theorem State.leavePackage_evolves {s0 s : State} (p : Nat) (hs : Evolves s0 s) :
    Evolves s0 (State.leavePackage p s) := by
  unfold State.leavePackage
  repeat' (first
      | with_reducible assumption | with_reducible apply State.mapPlaces_evolves
      | with_reducible apply State.leaveAreas_evolves | with_reducible apply State.makeRoom_evolves
      | with_reducible apply State.dropClean_evolves
      | refine State.makeRoom_evolves_of (by with_reducible assumption) ?_ | (intro _ _ _; (try dsimp -zeta only))
      | (intro _; (try dsimp -zeta only)) | split)

theorem State.losePackage_evolves {s0 s : State} (p : Nat) (hs : Evolves s0 s) :
    Evolves s0 (State.losePackage p s) := by
  unfold State.losePackage
  repeat' (first
      | with_reducible assumption | with_reducible apply State.mapPlaces_evolves
      | with_reducible apply State.leaveAreas_evolves | with_reducible apply State.losePage_evolves
      | with_reducible apply State.dropClean_evolves | with_reducible apply Evolves.foldl
      | (intro _ _ _; (try dsimp -zeta only)) | (intro _; (try dsimp -zeta only)) | split)

theorem State.drained_evolves {s0 s : State} (k : UnitKind) (p : Nat) (hs : Evolves s0 s) :
    Evolves s0 (State.drained k p s) := by
  unfold State.drained
  repeat' (first
      | with_reducible assumption | with_reducible apply State.closed_evolves
      | with_reducible apply State.failover_evolves | with_reducible apply State.closeReduction_evolves
      | (intro _ _ _; (try dsimp -zeta only)) | (intro _; (try dsimp -zeta only)) | split)

theorem State.hostClose_evolves {s0 s : State} (slot : Nat) (k : UnitKind) (p : Nat) (hs : Evolves s0 s) :
    Evolves s0 (State.hostClose slot k p s) := by
  unfold State.hostClose
  repeat' (first
      | with_reducible assumption | (have : Evolves _ t_ := h_; clear_value t_)
      | with_reducible apply State.startDrain_evolves | with_reducible apply State.setWork_evolves
      | with_reducible apply State.leavePackage_evolves | with_reducible apply State.drained_evolves
      | (intro _ _ _; (try dsimp -zeta only)) | (intro _; (try dsimp -zeta only))
      | (extract_lets +onlyGivenNames t_; (refine_lift have h_ : Evolves s0 t_ := ?_; ?_); rotate_left; dsimp -zeta only [t_])
      | (extract_lets +onlyGivenNames t_; (refine_lift have h_ : Evolves s0 t_.2 := ?_; ?_); rotate_left; dsimp -zeta only [t_])
      | (extract_lets +onlyGivenNames t_) | split)

theorem State.stopReturn_evolves {s0 s : State} (k : UnitKind) (p : Nat) (hs : Evolves s0 s) :
    Evolves s0 (State.stopReturn k p s) := by
  unfold State.stopReturn
  repeat' (first
      | with_reducible assumption | with_reducible apply State.updPort_evolves
      | with_reducible apply State.updUnit_evolves | with_reducible apply State.finishUnitCmds_evolves
      | with_reducible apply State.closed_evolves | (intro _ _ _; (try dsimp -zeta only))
      | (intro _; (try dsimp -zeta only)) | split)

theorem execUnitClose_evolves {s0 s : State} (slot : Nat) (hs : Evolves s0 s) :
    ∃ r_, execUnitClose slot s = .next r_ ∧ Evolves s0 r_ := by
  refine ⟨_, rfl, ?_⟩
  repeat' (first
      | with_reducible assumption | with_reducible apply State.closed_evolves
      | with_reducible apply State.runCmd_evolves | with_reducible apply State.setWork_evolves
      | with_reducible apply State.done_evolves | with_reducible apply State.fail_evolves
      | with_reducible apply State.hostClose_evolves | with_reducible apply State.stopReturn_evolves
      | (intro _ _ _; (try dsimp -zeta only)) | (intro _; (try dsimp -zeta only)) | split)

theorem State.startReturn_evolves {s0 s : State} (k : UnitKind) (p : Nat) (hs : Evolves s0 s) :
    Evolves s0 (State.startReturn k p s) := by
  unfold State.startReturn
  repeat' (first
      | with_reducible assumption | with_reducible apply State.updPort_evolves
      | with_reducible apply State.updUnit_evolves | (intro _ _ _; (try dsimp -zeta only))
      | (intro _; (try dsimp -zeta only)) | split)

theorem execUnitReturn_evolves {s0 s : State} (slot : Nat) (hs : Evolves s0 s) :
    ∃ r_, execUnitReturn slot s = .next r_ ∧ Evolves s0 r_ := by
  refine ⟨_, rfl, ?_⟩
  repeat' (first
      | with_reducible assumption | with_reducible apply State.closed_evolves
      | with_reducible apply State.runCmd_evolves | with_reducible apply State.setWork_evolves
      | with_reducible apply State.done_evolves | with_reducible apply State.fail_evolves
      | with_reducible apply State.startReturn_evolves | (intro _ _ _; (try dsimp -zeta only))
      | (intro _; (try dsimp -zeta only)) | split)

theorem execUnitQuery_evolves {s0 s : State} (slot : Nat) (hs : Evolves s0 s) :
    ∃ r_, execUnitQuery slot s = .next r_ ∧ Evolves s0 r_ := by
  refine ⟨_, rfl, ?_⟩
  repeat' (first
      | with_reducible assumption | with_reducible apply State.writeResult_evolves
      | with_reducible apply State.runCmd_evolves | with_reducible apply State.done_evolves
      | (intro _ _ _; (try dsimp -zeta only)) | (intro _; (try dsimp -zeta only)) | split)

theorem markRead_seq (n : Nat) (l : List FaultRec) : (markRead n l).map (·.seq) = l.map (·.seq) := by
  induction n, l using markRead.induct with
  | case1 l => simp [markRead]
  | case2 n => simp [markRead]
  | case3 n r rs h ih => simp [markRead, h, ih]
  | case4 n r rs h ih => simp [markRead, h, ih]

/-- Marking records read keeps the log's order and bound (R462). -/
theorem ErrState.markRead_ok {e : ErrState} (h : e.Ok) (n : Nat) : ErrState.Ok { e with log := markRead n e.log } :=
    by
  have hm := markRead_seq n e.log
  obtain ⟨h1, h2, h3⟩ := h
  refine ⟨?_, by rw [hm]; exact h2, fun q hq => ?_⟩
  · have := congrArg List.length hm
    simp only [List.length_map] at this
    simp only; omega
  · have : q.seq ∈ e.log.map (·.seq) := hm ▸ List.mem_map.mpr ⟨q, hq, rfl⟩
    obtain ⟨p, hp, hpq⟩ := List.mem_map.mp this
    exact hpq ▸ h3 p hp

theorem execFaultRead_evolves {s0 s : State} (slot : Nat) (hs : Evolves s0 s) :
    ∃ r_, execFaultRead slot s = .next r_ ∧ Evolves s0 r_ :=
  ⟨_, rfl, State.runCmd_evolves _ _ _ _ hs fun _ => State.done_evolves _ _ (State.writeResult_evolves _ _ _
    (hs.with_err fun k => ErrState.markRead_ok k _))⟩

theorem execDrainComplete_evolves {s0 s : State} (kind : Nat) (phys : Nat) (hs : Evolves s0 s) :
    ∃ r_, execDrainComplete kind phys s = .next r_ ∧ Evolves s0 r_ := by
  refine ⟨_, rfl, ?_⟩
  repeat' (first
      | with_reducible assumption | with_reducible apply State.drained_evolves | (intro _ _ _; (try dsimp -zeta only))
      | (intro _; (try dsimp -zeta only)) | split)

theorem State.repairRow_evolves {s0 s : State} (p : Nat) (r : Repair) (hs : Evolves s0 s) :
    Evolves s0 (State.repairRow p r s) := by
  unfold State.repairRow
  repeat' (first
      | with_reducible assumption | with_reducible apply State.takeFree_evolves
      | with_reducible apply State.writeRepairs_evolves
      | refine State.takeFree_evolves_of (by with_reducible assumption) ?_ | exact fun k_ => k_
      | (intro k_; simpa [Tiers.Ok] using k_) | (intro k_; simpa [ErrState.Ok] using k_)
      | (intro _ _ _; (try dsimp -zeta only)) | (intro _; (try dsimp -zeta only)) | split
      | with_reducible apply Evolves.with_tiers_err)

theorem State.repairRows_evolves {s0 s : State} (p : Nat) (hs : Evolves s0 s) :
    Evolves s0 (State.repairRows p s) := by
  unfold State.repairRows
  repeat' (first
      | with_reducible assumption | with_reducible apply State.repairRow_evolves | with_reducible apply Evolves.foldl
      | (intro _ _ _; (try dsimp -zeta only)) | (intro _; (try dsimp -zeta only)) | split)

theorem execReturnSelfTestEnd_evolves {s0 s : State} (kind : Nat) (phys : Nat) (good : Bool) (hs : Evolves s0 s) :
    ∃ r_, execReturnSelfTestEnd kind phys good s = .next r_ ∧ Evolves s0 r_ := by
  refine ⟨_, rfl, ?_⟩
  repeat' (first
      | with_reducible assumption | with_reducible apply State.updPort_evolves
      | with_reducible apply State.finishUnitCmds_evolves | with_reducible apply State.rejoin_evolves
      | with_reducible apply State.returnFailed_evolves | with_reducible apply State.portReady_evolves
      | with_reducible apply State.repairRows_evolves | (intro _ _ _; (try dsimp -zeta only))
      | (intro _; (try dsimp -zeta only)) | split)

/-! ### Machine/Errors.lean -/

theorem State.countReplay_evolves {s0 s : State} (p : Nat) (hs : Evolves s0 s) :
    Evolves s0 (State.countReplay p s) := by
  unfold State.countReplay
  repeat' (first
      | with_reducible assumption | exact fun k_ => k_ | (intro k_; simpa [ErrState.Ok] using k_)
      | (intro _ _ _; (try dsimp -zeta only)) | (intro _; (try dsimp -zeta only)) | split
      | with_reducible apply Evolves.with_err)

theorem State.closeHeld_evolves {s0 s : State} (cls : Nat) (p : Nat) (hs : Evolves s0 s) :
    Evolves s0 (State.closeHeld cls p s) := by
  unfold State.closeHeld
  repeat' (first
      | with_reducible assumption | with_reducible apply State.closeFault_evolves
      | with_reducible apply State.closeLeft_evolves | (intro _ _ _; (try dsimp -zeta only))
      | (intro _; (try dsimp -zeta only)) | split)

theorem State.replayMoved_evolves {s0 s : State} (cls : Nat) (p : Nat) (j : Job) (i : Nat) (hs : Evolves s0 s) :
    Evolves s0 (State.replayMoved cls p j i s) := by
  unfold State.replayMoved
  repeat' (first
      | with_reducible assumption | (have : Evolves _ t_ := h_; clear_value t_)
      | with_reducible apply State.updJob_evolves | with_reducible apply State.closeIdle_evolves
      | with_reducible apply State.restore_evolves | with_reducible apply State.startFresh_evolves
      | with_reducible apply State.decideNow_evolves | with_reducible apply State.closeHeld_evolves
      | refine State.moveOne_evolves_of (by with_reducible assumption) ?_ ?_ | (intro _ _ _; (try dsimp -zeta only))
      | (intro _; (try dsimp -zeta only))
      | (extract_lets +onlyGivenNames t_; (refine_lift have h_ : Evolves s0 t_ := ?_; ?_); rotate_left; dsimp -zeta only [t_])
      | (extract_lets +onlyGivenNames t_; (refine_lift have h_ : Evolves s0 t_.2 := ?_; ?_); rotate_left; dsimp -zeta only [t_])
      | (extract_lets +onlyGivenNames t_) | split)

theorem State.clusterFault_evolves {s0 s : State} (cls : Nat) (p : Nat) (hs : Evolves s0 s) :
    Evolves s0 (State.clusterFault cls p s) := by
  unfold State.clusterFault
  repeat' (first
      | with_reducible assumption | with_reducible apply State.closeFault_evolves
      | with_reducible apply State.updJob_evolves | with_reducible apply State.replayMoved_evolves
      | (intro _ _ _; (try dsimp -zeta only)) | (intro _; (try dsimp -zeta only)) | split)

theorem State.jobEvent_evolves {s0 s : State} (cls : Nat) (record : Bool) (id : Nat) (i : Nat) (hs : Evolves s0 s) :
    Evolves s0 (State.jobEvent cls record id i s) := by
  unfold State.jobEvent
  repeat' (first
      | with_reducible assumption | (have : Evolves _ t_ := h_; clear_value t_)
      | with_reducible apply State.raise_evolves | with_reducible apply State.updJob_evolves
      | with_reducible apply State.replay_evolves | with_reducible apply State.countReplay_evolves
      | with_reducible apply State.clusterFault_evolves | (intro _ _ _; (try dsimp -zeta only))
      | (intro _; (try dsimp -zeta only))
      | (extract_lets +onlyGivenNames t_; (refine_lift have h_ : Evolves s0 t_ := ?_; ?_); rotate_left; dsimp -zeta only [t_])
      | (extract_lets +onlyGivenNames t_; (refine_lift have h_ : Evolves s0 t_.2 := ?_; ?_); rotate_left; dsimp -zeta only [t_])
      | (extract_lets +onlyGivenNames t_) | split)

theorem State.repairRowOf_evolves {s0 s : State} (p : Nat) (loc : Nat) (hs : Evolves s0 s) :
    Evolves s0 (State.repairRowOf p loc s) := by
  unfold State.repairRowOf
  repeat' (first
      | with_reducible assumption | with_reducible apply State.raise_evolves
      | with_reducible apply State.writeRepairs_evolves | with_reducible apply State.closed_evolves
      | with_reducible apply State.drainFault_evolves | exact fun k_ => k_ | (intro k_; simpa [ErrState.Ok] using k_)
      | (intro _ _ _; (try dsimp -zeta only)) | (intro _; (try dsimp -zeta only)) | split
      | with_reducible apply Evolves.with_err)

theorem State.withdraw_evolves {s0 s : State} (p : Nat) (loc : Nat) (hs : Evolves s0 s) :
    Evolves s0 (State.withdraw p loc s) := by
  unfold State.withdraw
  repeat' (first
      | with_reducible assumption | with_reducible apply State.raise_evolves
      | with_reducible apply State.writeRepairs_evolves | with_reducible apply State.makeRoom_evolves
      | refine State.makeRoom_evolves_of (by with_reducible assumption) ?_ | exact fun k_ => k_
      | (intro k_; simpa [Tiers.Ok] using k_) | (intro k_; simpa [ErrState.Ok] using k_)
      | (intro _ _ _; (try dsimp -zeta only)) | (intro _; (try dsimp -zeta only)) | split
      | with_reducible apply Evolves.with_tiers_err)

theorem State.lineFailure_evolves {s0 s : State} (k : UnitKind) (p : Nat) (at_ : Nat) (hs : Evolves s0 s) :
    Evolves s0 (State.lineFailure k p at_ s) := by
  unfold State.lineFailure
  repeat' (first
      | with_reducible assumption | with_reducible apply State.repairRowOf_evolves
      | with_reducible apply State.withdraw_evolves | exact fun k_ => k_ | (intro k_; simpa [ErrState.Ok] using k_)
      | (intro _ _ _; (try dsimp -zeta only)) | (intro _; (try dsimp -zeta only)) | split
      | with_reducible apply Evolves.with_err)

theorem State.storeFailure_evolves {s0 s : State} (p : Nat) (loc : Nat) (hs : Evolves s0 s) :
    Evolves s0 (State.storeFailure p loc s) := by
  unfold State.storeFailure
  repeat' (first
      | with_reducible assumption | with_reducible apply State.lineFailure_evolves | exact fun k_ => k_
      | (intro k_; simpa [ErrState.Ok] using k_) | (intro _ _ _; (try dsimp -zeta only))
      | (intro _; (try dsimp -zeta only)) | split | with_reducible apply Evolves.with_err)

theorem State.dramFailure_evolves {s0 s : State} (patrol : Bool) (p : Nat) (loc : Nat) (hs : Evolves s0 s) :
    Evolves s0 (State.dramFailure patrol p loc s) := by
  unfold State.dramFailure
  repeat' (first
      | with_reducible assumption | with_reducible apply State.lineFailure_evolves | exact fun k_ => k_
      | (intro k_; simpa [ErrState.Ok] using k_) | (intro _ _ _; (try dsimp -zeta only))
      | (intro _; (try dsimp -zeta only)) | split | with_reducible apply Evolves.with_err)

theorem execMachineTrap_evolves {s0 s : State} (h : Thr) (fetchCrc : Bool) (hs : Evolves s0 s) :
    ∃ r_, execMachineTrap h fetchCrc s = .next r_ ∧ Evolves s0 r_ := by
  refine ⟨_, rfl, ?_⟩
  repeat' (first
      | with_reducible assumption | with_reducible apply State.jobEvent_evolves
      | with_reducible apply State.storeFailure_evolves | (intro _ _ _; (try dsimp -zeta only))
      | (intro _; (try dsimp -zeta only)) | split)

theorem execEngineParityError_evolves {s0 s : State} (e : Eng) (hs : Evolves s0 s) :
    ∃ r_, execEngineParityError e s = .next r_ ∧ Evolves s0 r_ := by
  refine ⟨_, rfl, ?_⟩
  repeat' (first
      | with_reducible assumption | with_reducible apply State.jobEvent_evolves
      | (intro _ _ _; (try dsimp -zeta only)) | (intro _; (try dsimp -zeta only)) | split)

theorem State.docentFault_evolves {s0 s : State} (core : Nat) (hs : Evolves s0 s) :
    Evolves s0 (State.docentFault core s) := by
  unfold State.docentFault
  repeat' (first
      | with_reducible assumption | with_reducible apply State.closeFault_evolves
      | (intro _ _ _; (try dsimp -zeta only)) | (intro _; (try dsimp -zeta only)) | split)

theorem execDocentWatchdog_evolves {s0 s : State} (core : Nat) (hs : Evolves s0 s) :
    ∃ r_, execDocentWatchdog core s = .next r_ ∧ Evolves s0 r_ := by
  refine ⟨_, rfl, ?_⟩
  repeat' (first
      | with_reducible assumption | with_reducible apply State.docentFault_evolves
      | (intro _ _ _; (try dsimp -zeta only)) | (intro _; (try dsimp -zeta only)) | split)

theorem execDocentCoreFault_evolves {s0 s : State} (core : Nat) (hs : Evolves s0 s) :
    ∃ r_, execDocentCoreFault core s = .next r_ ∧ Evolves s0 r_ := by
  refine ⟨_, rfl, ?_⟩
  repeat' (first
      | with_reducible assumption | with_reducible apply State.docentFault_evolves
      | (intro _ _ _; (try dsimp -zeta only)) | (intro _; (try dsimp -zeta only)) | split)

theorem State.reductionFault_evolves {s0 s : State} (cls : Nat) (n : Nat) (hs : Evolves s0 s) :
    Evolves s0 (State.reductionFault cls n s) := by
  unfold State.reductionFault
  repeat' (first
      | with_reducible assumption | with_reducible apply State.closeFault_evolves
      | with_reducible apply State.emptyDomains_evolves | (intro _ _ _; (try dsimp -zeta only))
      | (intro _; (try dsimp -zeta only)) | split)

theorem State.packageFault_evolves {s0 s : State} (cls : Nat) (p : Nat) (hs : Evolves s0 s) :
    Evolves s0 (State.packageFault cls p s) := by
  unfold State.packageFault
  repeat' (first
      | with_reducible assumption | with_reducible apply State.closeFault_evolves
      | with_reducible apply State.losePackage_evolves | (intro _ _ _; (try dsimp -zeta only))
      | (intro _; (try dsimp -zeta only)) | split)

theorem State.laneFault_evolves {s0 s : State} (iface : Nat) (group : Nat) (hs : Evolves s0 s) :
    Evolves s0 (State.laneFault iface group s) := by
  unfold State.laneFault
  repeat' (first
      | with_reducible assumption | with_reducible apply State.raise_evolves | exact fun k_ => k_
      | (intro k_; simpa [Atrium.Ok] using k_) | (intro k_; simpa [ErrState.Ok] using k_)
      | (intro _ _ _; (try dsimp -zeta only)) | (intro _; (try dsimp -zeta only)) | split
      | with_reducible apply Evolves.with_atr_err)

theorem State.pathFault_evolves {s0 s : State} (p : Path) (hs : Evolves s0 s) :
    Evolves s0 (State.pathFault p s) := by
  unfold State.pathFault
  repeat' (first
      | with_reducible assumption | with_reducible apply State.closeFault_evolves
      | with_reducible apply State.failover_evolves | with_reducible apply State.clusterFault_evolves
      | with_reducible apply State.reductionFault_evolves | with_reducible apply State.packageFault_evolves
      | with_reducible apply State.laneFault_evolves | (intro _ _ _; (try dsimp -zeta only))
      | (intro _; (try dsimp -zeta only)) | split)

theorem execTransportParityError_evolves {s0 s : State} (p : Path) (hs : Evolves s0 s) :
    ∃ r_, execTransportParityError p s = .next r_ ∧ Evolves s0 r_ := by
  refine ⟨_, rfl, ?_⟩
  repeat' (first
      | with_reducible assumption | with_reducible apply State.pathFault_evolves | exact fun k_ => k_
      | (intro k_; simpa [ErrState.Ok] using k_) | (intro _ _ _; (try dsimp -zeta only))
      | (intro _; (try dsimp -zeta only)) | split | with_reducible apply Evolves.with_err)

theorem execChannelHalt_evolves {s0 s : State} (owner : DmaOwner) (line : LineKind) (hs : Evolves s0 s) :
    ∃ r_, execChannelHalt owner line s = .next r_ ∧ Evolves s0 r_ := by
  refine ⟨_, rfl, ?_⟩
  repeat' (first
      | with_reducible assumption | with_reducible apply State.done_evolves | exact fun k_ => k_
      | (intro k_; simpa [ErrState.Ok] using k_) | (intro _ _ _; (try dsimp -zeta only))
      | (intro _; (try dsimp -zeta only)) | split | with_reducible apply Evolves.with_err)

theorem State.loseUnits_evolves {s0 s : State} (lo : Nat) (n : Nat) (hs : Evolves s0 s) :
    Evolves s0 (State.loseUnits lo n s) := by
  unfold State.loseUnits
  repeat' (first
      | with_reducible assumption | with_reducible apply State.setMap_evolves
      | with_reducible apply State.losePage_evolves | with_reducible apply Evolves.foldl
      | (intro _ _ _; (try dsimp -zeta only)) | (intro _; (try dsimp -zeta only)) | split)

theorem State.markJob_evolves {s0 s : State} (id : Nat) (hs : Evolves s0 s) :
    Evolves s0 (State.markJob id s) := by
  unfold State.markJob
  repeat' (first
      | with_reducible assumption | with_reducible apply State.raise_evolves
      | with_reducible apply State.updJob_evolves | (intro _ _ _; (try dsimp -zeta only))
      | (intro _; (try dsimp -zeta only)) | split)

theorem State.impairPins_evolves {s0 s : State} (slot : Nat) (hs : Evolves s0 s) :
    Evolves s0 (State.impairPins slot s) := by
  unfold State.impairPins
  repeat' (first
      | with_reducible assumption | with_reducible apply State.impair_evolves | (intro _ _ _; (try dsimp -zeta only))
      | (intro _; (try dsimp -zeta only)) | split)

theorem State.loseGradient_evolves {s0 s : State} (d : Nat) (hs : Evolves s0 s) :
    Evolves s0 (State.loseGradient d s) := by
  unfold State.loseGradient
  repeat' (first
      | with_reducible assumption | with_reducible apply State.finish_evolves
      | with_reducible apply State.impair_evolves | with_reducible apply State.leaveRound_evolves
      | with_reducible apply State.deliverHeld_evolves | (intro _ _ _; (try dsimp -zeta only))
      | (intro _; (try dsimp -zeta only)) | split)

theorem State.loseLive_evolves {s0 s : State} (id : Nat) (hs : Evolves s0 s) :
    Evolves s0 (State.loseLive id s) := by
  unfold State.loseLive
  repeat' (first
      | with_reducible assumption | with_reducible apply State.updJob_evolves
      | with_reducible apply State.restore_evolves | with_reducible apply State.startFresh_evolves
      | with_reducible apply State.decideNow_evolves | (intro _ _ _; (try dsimp -zeta only))
      | (intro _; (try dsimp -zeta only)) | split)

theorem State.lineLost_evolves {s0 s : State} (l : LineKind) (loc : Nat) (hs : Evolves s0 s) :
    Evolves s0 (State.lineLost l loc s) := by
  unfold State.lineLost
  repeat' (first
      | with_reducible assumption | with_reducible apply State.raise_evolves
      | with_reducible apply State.impair_evolves | with_reducible apply State.losePage_evolves
      | with_reducible apply State.dirtyBlock_evolves | with_reducible apply State.jobEvent_evolves
      | with_reducible apply State.reductionFault_evolves | with_reducible apply State.loseUnits_evolves
      | with_reducible apply State.markJob_evolves | with_reducible apply State.impairPins_evolves
      | with_reducible apply State.loseGradient_evolves | with_reducible apply State.loseLive_evolves
      | (intro _ _ _; (try dsimp -zeta only)) | (intro _; (try dsimp -zeta only)) | split)

theorem State.countLine_evolves {s0 s : State} (l : LineKind) (phys : Nat) (loc : Nat) (hs : Evolves s0 s) :
    Evolves s0 (State.countLine l phys loc s) := by
  unfold State.countLine
  repeat' (first
      | with_reducible assumption | with_reducible apply State.storeFailure_evolves
      | with_reducible apply State.dramFailure_evolves | (intro _ _ _; (try dsimp -zeta only))
      | (intro _; (try dsimp -zeta only)) | split)

theorem State.endHalted_evolves {s0 s : State} (l : LineKind) (id : Nat) (hs : Evolves s0 s) :
    Evolves s0 (State.endHalted l id s) := by
  unfold State.endHalted
  repeat' (first
      | with_reducible assumption | (have : Evolves _ t_ := h_; clear_value t_)
      | with_reducible apply State.setWork_evolves | with_reducible apply State.fail_evolves
      | with_reducible apply State.answerRead_evolves | with_reducible apply State.dirtyBlock_evolves
      | (intro _ _ _; (try dsimp -zeta only)) | (intro _; (try dsimp -zeta only))
      | (extract_lets +onlyGivenNames t_; (refine_lift have h_ : Evolves s0 t_ := ?_; ?_); rotate_left; dsimp -zeta only [t_])
      | (extract_lets +onlyGivenNames t_; (refine_lift have h_ : Evolves s0 t_.2 := ?_; ?_); rotate_left; dsimp -zeta only [t_])
      | (extract_lets +onlyGivenNames t_) | split)

theorem State.markHalted_evolves {s0 s : State} (l : LineKind) (hs : Evolves s0 s) :
    Evolves s0 (State.markHalted l s) := by
  unfold State.markHalted
  repeat' (first
      | with_reducible assumption | with_reducible apply State.updJob_evolves
      | with_reducible apply State.endHalted_evolves | with_reducible apply Evolves.foldl
      | (intro _ _ _; (try dsimp -zeta only)) | (intro _; (try dsimp -zeta only)) | split)

theorem execLineRecoveryEnd_evolves {s0 s : State} (line : LineKind) (phys : Nat) (location : Nat) (good : List Bool)
    (hs : Evolves s0 s) :
    ∃ r_, execLineRecoveryEnd line phys location good s = .next r_ ∧ Evolves s0 r_ := by
  refine ⟨_, rfl, ?_⟩
  repeat' (first
      | with_reducible assumption | with_reducible apply State.lineLost_evolves
      | with_reducible apply State.countLine_evolves | with_reducible apply State.markHalted_evolves
      | exact fun k_ => k_ | (intro k_; simpa [ErrState.Ok] using k_) | (intro _ _ _; (try dsimp -zeta only))
      | (intro _; (try dsimp -zeta only)) | split | with_reducible apply Evolves.with_err)

/-! ### Machine/Power.lean -/

theorem State.updPower_evolves {s0 s : State} (f : Power → Power) (hs : Evolves s0 s)
    (hf : s.power.Ok → (f s.power).Ok) : Evolves s0 (State.updPower f s) := hs.with_power hf

theorem State.restart_evolves {s0 s : State} (hs : Evolves s0 s) : Evolves s0 (State.restart s) :=
  hs.trans (Evolves.parts rfl (fun _ => ⟨List.length_replicate, List.length_replicate, List.length_replicate⟩)
    (fun _ => ⟨List.length_replicate, List.length_replicate, Nat.le_of_ble_eq_true rfl, Nat.le_of_ble_eq_true rfl,
      fun _ h => by rw [List.eq_of_mem_replicate h]; rfl⟩)
    (fun _ => ⟨Nat.le_of_ble_eq_true rfl, Nat.le_of_ble_eq_true rfl, Nat.le_of_ble_eq_true rfl⟩)
    (fun _ => ⟨Nat.le_of_ble_eq_true rfl, Nat.le_of_ble_eq_true rfl⟩)
    (fun _ => ⟨Nat.le_of_ble_eq_true rfl, Nat.le_of_ble_eq_true rfl⟩)
    (fun _ => Nat.le_refl 2) (fun _ => ⟨Nat.le_of_ble_eq_true rfl, Nat.le_of_ble_eq_true rfl⟩) (fun _ => rfl)
    (fun _ => List.length_replicate) (fun _ => ⟨Nat.zero_le _, List.Pairwise.nil, fun _ h => nomatch h⟩)
    (fun k => ⟨k.2, k.2⟩) (fun k => BlockRange.Ok.of_data k rfl) (fun _ => rfl) id
    (fun _ h => h) (fun _ h => h))

theorem State.goOff_evolves {s0 s : State} (hs : Evolves s0 s) :
    Evolves s0 (State.goOff s) := by
  unfold State.goOff
  repeat' (first
      | with_reducible assumption | with_reducible apply State.updPower_evolves
      | with_reducible apply State.restart_evolves | exact fun k_ => k_ | (intro k_; simpa [Power.Ok] using k_)
      | (intro k_; dsimp only; split <;> exact k_) | (intro _ _ _; (try dsimp -zeta only))
      | (intro _; (try dsimp -zeta only)) | split)

theorem State.trigger_evolves {s0 s : State} (onInput : Bool) (after : AfterFlush) (hs : Evolves s0 s) :
    Evolves s0 (State.trigger onInput after s) := by
  unfold State.trigger
  repeat' (first
      | with_reducible assumption | exact fun k_ => k_ | (intro k_; simpa [Power.Ok] using k_)
      | (intro _ _ _; (try dsimp -zeta only)) | (intro _; (try dsimp -zeta only)) | split
      | with_reducible apply Evolves.with_power_test)

theorem State.inputLost_evolves {s0 s : State} (hs : Evolves s0 s) :
    Evolves s0 (State.inputLost s) := by
  unfold State.inputLost
  repeat' (first
      | with_reducible assumption | with_reducible apply State.updPower_evolves
      | with_reducible apply State.goOff_evolves | with_reducible apply State.trigger_evolves | exact fun k_ => k_
      | (intro k_; simpa [Power.Ok] using k_) | (intro k_; dsimp only; split <;> exact k_)
      | (intro _ _ _; (try dsimp -zeta only)) | (intro _; (try dsimp -zeta only)) | split)

theorem State.planDusk_evolves {s0 : State} (ps : List DuskPage) (l : List (Nat × List DuskPage)) {s : State}
    (hs : Evolves s0 s) : Evolves s0 (State.planDusk ps l s).2 := by
  induction ps generalizing l s with
  | nil => exact hs
  | cons p ps ih => exact ih _ (State.takeFree_evolves hs)

theorem State.queueDusk_evolves {s0 s : State} (x : DuskDie) (hs : Evolves s0 s) :
    Evolves s0 (State.queueDusk x s) := by
  unfold State.queueDusk
  repeat' (first
      | with_reducible assumption | with_reducible apply State.queueOp_evolves | with_reducible apply Evolves.foldl
      | exact fun k_ => k_.of_map rfl | exact fun k_ => k_ | (intro k_; simpa [Ftl.Ok] using k_)
      | (intro _ _ _; (try dsimp -zeta only)) | (intro _; (try dsimp -zeta only)) | split
      | with_reducible apply Evolves.with_ftl)

theorem State.duskParityPage_evolves {s0 s : State} (g : Nat) (slot : Nat) (hs : Evolves s0 s) :
    Evolves s0 (State.duskParityPage g slot s) := by
  unfold State.duskParityPage
  repeat' (first
      | with_reducible assumption | with_reducible apply State.queuePage_evolves
      | refine State.queuePage_evolves_of (by with_reducible assumption) ?_ | with_reducible apply Evolves.foldl
      | exact fun k_ => k_ | (intro k_; simpa [Flash.Ok] using k_) | (intro _ _ _; (try dsimp -zeta only))
      | (intro _; (try dsimp -zeta only)) | split | with_reducible apply Evolves.with_flash)

theorem State.shareDusk_evolves {s0 s : State} (hs : Evolves s0 s) : Evolves s0 (State.shareDusk s) :=
  (State.planDusk_evolves _ _ hs).with_flash fun k => k

theorem State.queueShares_evolves {s0 s : State} (hs : Evolves s0 s) :
    Evolves s0 (State.queueShares s) := by
  unfold State.queueShares
  repeat' (first
      | with_reducible assumption | with_reducible apply State.queueDusk_evolves | with_reducible apply Evolves.foldl
      | (intro _ _ _; (try dsimp -zeta only)) | (intro _; (try dsimp -zeta only)) | split)

theorem State.layDusk_evolves {s0 s : State} (hs : Evolves s0 s) :
    Evolves s0 (State.layDusk s) := by
  unfold State.layDusk
  repeat' (first
      | with_reducible assumption | with_reducible apply State.duskParityPage_evolves
      | with_reducible apply State.shareDusk_evolves | with_reducible apply State.queueShares_evolves
      | with_reducible apply Evolves.foldl | (intro _ _ _; (try dsimp -zeta only)) | (intro _; (try dsimp -zeta only))
      | split)

theorem execDuskFlush_evolves {s0 s : State} (hs : Evolves s0 s) :
    ∃ r_, execDuskFlush s = .next r_ ∧ Evolves s0 r_ := by
  refine ⟨_, rfl, ?_⟩
  dsimp only
  repeat' (first
      | with_reducible assumption | with_reducible apply State.layDusk_evolves | exact fun k_ => k_
      | (intro k_; simpa [Atrium.Ok] using k_) | (intro k_; simpa [Sched.Ok] using k_)
      | (intro k_; simpa [Tiers.Ok] using k_) | (intro k_; simpa [Flash.Ok] using k_)
      | (intro k_; simpa [Power.Ok] using k_) | (intro k_; simpa [ErrState.Ok] using k_) | (intro k_; simpa using k_)
      | split | (intro _ _ _; (try dsimp -zeta only)) | (intro _; (try dsimp -zeta only))
      | with_reducible apply Evolves.with_atr_locks_sched_tiers_domains_flash_power_sec_test_err)

theorem State.afterFlush_evolves {s0 s : State} (hs : Evolves s0 s) :
    Evolves s0 (State.afterFlush s) := by
  unfold State.afterFlush
  repeat' (first
      | with_reducible assumption | with_reducible apply State.updPower_evolves
      | with_reducible apply State.restart_evolves | with_reducible apply State.goOff_evolves | exact fun k_ => k_
      | (intro k_; simpa [Power.Ok] using k_) | (intro k_; dsimp only; split <;> exact k_)
      | (intro _ _ _; (try dsimp -zeta only)) | (intro _; (try dsimp -zeta only)) | split)

theorem State.finishPrograms_evolves {s0 s : State} (hs : Evolves s0 s) :
    Evolves s0 (State.finishPrograms s) := by
  unfold State.finishPrograms
  repeat' (first
      | with_reducible assumption | with_reducible apply State.programPass_evolves
      | with_reducible apply Evolves.foldl | exact fun k_ => k_ | (intro k_; simpa [Flash.Ok] using k_)
      | (intro _ _ _; (try dsimp -zeta only)) | (intro _; (try dsimp -zeta only)) | split
      | with_reducible apply Evolves.with_flash)

theorem execDuskFlushEnd_evolves {s0 s : State} (bankFailed : Bool) (hs : Evolves s0 s) :
    ∃ r_, execDuskFlushEnd bankFailed s = .next r_ ∧ Evolves s0 r_ := by
  refine ⟨_, rfl, ?_⟩
  repeat' (first
      | with_reducible assumption | with_reducible apply State.goOff_evolves
      | with_reducible apply State.afterFlush_evolves | with_reducible apply State.finishPrograms_evolves
      | (intro _ _ _; (try dsimp -zeta only)) | (intro _; (try dsimp -zeta only)) | split)

theorem execAonLoss_evolves {s0 s : State} (hs : Evolves s0 s) :
    ∃ r_, execAonLoss s = .next r_ ∧ Evolves s0 r_ := by
  refine ⟨_, rfl, ?_⟩
  repeat' (first
      | with_reducible assumption | with_reducible apply State.updPower_evolves
      | with_reducible apply State.goOff_evolves | exact fun k_ => k_ | (intro k_; simpa [Power.Ok] using k_)
      | (intro k_; dsimp only; split <;> exact k_) | (intro _ _ _; (try dsimp -zeta only))
      | (intro _; (try dsimp -zeta only)) | split)

theorem State.endShutdown_evolves {s0 s : State} (hs : Evolves s0 s) :
    Evolves s0 (State.endShutdown s) := by
  unfold State.endShutdown
  repeat' (first
      | with_reducible assumption | with_reducible apply State.updPower_evolves
      | with_reducible apply State.restart_evolves | exact fun k_ => k_ | (intro k_; simpa [Power.Ok] using k_)
      | (intro k_; dsimp only; split <;> exact k_) | (intro _ _ _; (try dsimp -zeta only))
      | (intro _; (try dsimp -zeta only)) | split)

theorem State.tryShutdown_evolves {s0 s : State} (hs : Evolves s0 s) :
    Evolves s0 (State.tryShutdown s) := by
  unfold State.tryShutdown
  repeat' (first
      | with_reducible assumption | with_reducible apply State.checkpoint_evolves
      | with_reducible apply State.settleCheckpoint_evolves | with_reducible apply State.restart_evolves
      | with_reducible apply State.endShutdown_evolves | exact fun k_ => k_.of_map rfl | exact fun k_ => k_
      | (intro k_; simpa [Ftl.Ok] using k_) | (intro _ _ _; (try dsimp -zeta only))
      | (intro _; (try dsimp -zeta only)) | split | with_reducible apply Evolves.with_ftl)

theorem State.stopReduces_evolves {s0 s : State} (hs : Evolves s0 s) :
    Evolves s0 (State.stopReduces s) := by
  unfold State.stopReduces
  repeat' (first
      | with_reducible assumption | with_reducible apply State.finish_evolves
      | with_reducible apply State.done_evolves | with_reducible apply Evolves.foldl
      | (intro _ _ _; (try dsimp -zeta only)) | (intro _; (try dsimp -zeta only)) | split)

theorem State.stopRound_evolves {s0 s : State} (d : Nat) (hs : Evolves s0 s) :
    Evolves s0 (State.stopRound d s) := by
  unfold State.stopRound
  repeat' (first
      | with_reducible assumption | with_reducible apply State.leaveRound_evolves
      | (intro _ _ _; (try dsimp -zeta only)) | (intro _; (try dsimp -zeta only)) | split)

theorem State.startShutdown_evolves {s0 s : State} (hs : Evolves s0 s) :
    Evolves s0 (State.startShutdown s) := by
  unfold State.startShutdown
  repeat' (first
      | with_reducible assumption | with_reducible apply State.issueStores_evolves
      | with_reducible apply State.tryShutdown_evolves | with_reducible apply State.stopReduces_evolves
      | with_reducible apply State.stopRound_evolves | with_reducible apply Evolves.foldl
      | exact fun k_ => k_.of_map rfl | exact fun k_ => k_ | (intro k_; simpa [Atrium.Ok] using k_)
      | (intro k_; simpa [Sched.Ok] using k_) | (intro k_; simpa [Ftl.Ok] using k_)
      | (intro k_; simpa [Power.Ok] using k_) | (intro _ _ _; (try dsimp -zeta only))
      | (intro _; (try dsimp -zeta only)) | split | with_reducible apply Evolves.with_atr_sched_ftl_power)

theorem State.askShutdown_evolves {s0 s : State} (hs : Evolves s0 s) :
    Evolves s0 (State.askShutdown s) := by
  unfold State.askShutdown
  repeat' (first
      | with_reducible assumption | with_reducible apply State.updPower_evolves
      | with_reducible apply State.startShutdown_evolves | exact fun k_ => k_ | (intro k_; simpa [Power.Ok] using k_)
      | (intro k_; dsimp only; split <;> exact k_) | (intro _ _ _; (try dsimp -zeta only))
      | (intro _; (try dsimp -zeta only)) | split)

theorem execShdnReqN_evolves {s0 s : State} (hs : Evolves s0 s) :
    ∃ r_, execShdnReqN s = .next r_ ∧ Evolves s0 r_ := by
  refine ⟨_, rfl, ?_⟩
  repeat' (first
      | with_reducible assumption | with_reducible apply State.askShutdown_evolves
      | (intro _ _ _; (try dsimp -zeta only)) | (intro _; (try dsimp -zeta only)) | split)

theorem execResetN_evolves {s0 s : State} (hs : Evolves s0 s) :
    ∃ r_, execResetN s = .next r_ ∧ Evolves s0 r_ := by
  refine ⟨_, rfl, ?_⟩
  repeat' (first
      | with_reducible assumption | with_reducible apply State.updPower_evolves
      | with_reducible apply State.restart_evolves | with_reducible apply State.trigger_evolves | exact fun k_ => k_
      | (intro k_; simpa [Power.Ok] using k_) | (intro k_; dsimp only; split <;> exact k_)
      | (intro _ _ _; (try dsimp -zeta only)) | (intro _; (try dsimp -zeta only)) | split)

theorem execMatedN_evolves {s0 s : State} (high : Bool) (hs : Evolves s0 s) :
    ∃ r_, execMatedN high s = .next r_ ∧ Evolves s0 r_ := by
  refine ⟨_, rfl, ?_⟩
  repeat' (first
      | with_reducible assumption | with_reducible apply State.updPower_evolves
      | with_reducible apply State.inputLost_evolves | exact fun k_ => k_ | (intro k_; simpa [Power.Ok] using k_)
      | (intro k_; dsimp only; split <;> exact k_) | (intro _ _ _; (try dsimp -zeta only))
      | (intro _; (try dsimp -zeta only)) | split)

theorem execPowerFailure_evolves {s0 s : State} (millivolt : Nat) (hs : Evolves s0 s) :
    ∃ r_, execPowerFailure millivolt s = .next r_ ∧ Evolves s0 r_ := by
  refine ⟨_, rfl, ?_⟩
  repeat' (first
      | with_reducible assumption | with_reducible apply State.updPower_evolves
      | with_reducible apply State.inputLost_evolves | exact fun k_ => k_ | (intro k_; simpa [Power.Ok] using k_)
      | (intro k_; dsimp only; split <;> exact k_) | (intro _ _ _; (try dsimp -zeta only))
      | (intro _; (try dsimp -zeta only)) | split)

theorem execInputToleranceExpiry_evolves {s0 s : State} (millivolt : Nat) (hs : Evolves s0 s) :
    ∃ r_, execInputToleranceExpiry millivolt s = .next r_ ∧ Evolves s0 r_ := by
  refine ⟨_, rfl, ?_⟩
  repeat' (first
      | with_reducible assumption | with_reducible apply State.updPower_evolves
      | with_reducible apply State.inputLost_evolves | exact fun k_ => k_ | (intro k_; simpa [Power.Ok] using k_)
      | (intro k_; dsimp only; split <;> exact k_) | (intro _ _ _; (try dsimp -zeta only))
      | (intro _; (try dsimp -zeta only)) | split)

theorem execInputSwitchClose_evolves {s0 s : State} (millivolt : Nat) (hs : Evolves s0 s) :
    ∃ r_, execInputSwitchClose millivolt s = .next r_ ∧ Evolves s0 r_ := by
  refine ⟨_, rfl, ?_⟩
  repeat' (first
      | with_reducible assumption | with_reducible apply State.updPower_evolves | exact fun k_ => k_
      | (intro k_; simpa [Power.Ok] using k_) | (intro k_; dsimp only; split <;> exact k_)
      | (intro _ _ _; (try dsimp -zeta only)) | (intro _; (try dsimp -zeta only)) | split)

theorem execPowerGood_evolves {s0 s : State} (residualMj : Nat) (millivolt : Nat) (hs : Evolves s0 s) :
    ∃ r_, execPowerGood residualMj millivolt s = .next r_ ∧ Evolves s0 r_ := by
  refine ⟨_, rfl, ?_⟩
  repeat' (first
      | with_reducible assumption | with_reducible apply State.raise_evolves
      | with_reducible apply State.updPower_evolves | with_reducible apply State.restart_evolves | exact fun k_ => k_
      | (intro k_; simpa [Power.Ok] using k_) | (intro k_; dsimp only; split <;> exact k_)
      | (intro _ _ _; (try dsimp -zeta only)) | (intro _; (try dsimp -zeta only)) | split)

theorem execHoldupMeasure_evolves {s0 s : State} (hs : Evolves s0 s) :
    ∃ r_, execHoldupMeasure s = .next r_ ∧ Evolves s0 r_ := by
  refine ⟨_, rfl, ?_⟩
  repeat' (first
      | with_reducible assumption | with_reducible apply State.updPower_evolves | exact fun k_ => k_
      | (intro k_; simpa [Power.Ok] using k_) | (intro k_; dsimp only; split <;> exact k_) | exact fun k_ => k_
      | (intro k_; simpa [Tiers.Ok] using k_) | (intro _ _ _; (try dsimp -zeta only))
      | (intro _; (try dsimp -zeta only)) | split | with_reducible apply Evolves.with_tiers)

theorem execHoldupMeasureEnd_evolves {s0 s : State} (chargedOk : Bool) (microfarad esr : Nat) (hs : Evolves s0 s) :
    ∃ r_, execHoldupMeasureEnd chargedOk microfarad esr s = .next r_ ∧ Evolves s0 r_ := by
  unfold execHoldupMeasureEnd
  refine ⟨_, rfl, ?_⟩
  split
  · exact hs
  · extract_lets ok src t u
    have ht : Evolves s0 t := hs.with_tiers id
    clear_value t
    have hu : Evolves s0 u := State.updPower_evolves _ ht fun k => ⟨k.1, k.2⟩
    clear_value u ok
    split
    · exact State.throttle_evolves (State.deriveBudget_evolves (State.updPower_evolves _ hu fun k => ⟨k.1, k.2⟩))
    · split
      · exact State.raise_evolves _ (State.throttle_evolves (State.deriveBudget_evolves hu))
      · exact State.throttle_evolves (State.deriveBudget_evolves hu)

theorem State.noteCuts_evolves {s0 s : State} (hs : Evolves s0 s) :
    Evolves s0 (State.noteCuts s) := by
  unfold State.noteCuts
  repeat' (first
      | with_reducible assumption | with_reducible apply State.pumpFlash_evolves
      | with_reducible apply State.updPower_evolves | exact fun k_ => k_ | (intro k_; simpa [Power.Ok] using k_)
      | (intro k_; dsimp only; split <;> exact k_) | (intro _ _ _; (try dsimp -zeta only))
      | (intro _; (try dsimp -zeta only)) | split)

theorem State.thermalTrip_evolves {s0 s : State} (hs : Evolves s0 s) :
    Evolves s0 (State.thermalTrip s) := by
  unfold State.thermalTrip
  repeat' (first
      | with_reducible assumption | with_reducible apply State.raise_evolves
      | with_reducible apply State.updPower_evolves | with_reducible apply State.trigger_evolves | exact fun k_ => k_
      | (intro k_; simpa [Power.Ok] using k_) | (intro k_; dsimp only; split <;> exact k_)
      | (intro _ _ _; (try dsimp -zeta only)) | (intro _; (try dsimp -zeta only)) | split)

theorem execThermalSample_evolves {s0 s : State} (compute : Int) (flash : Int) (dram : Int) (hs : Evolves s0 s) :
    ∃ r_, execThermalSample compute flash dram s = .next r_ ∧ Evolves s0 r_ := by
  refine ⟨_, rfl, ?_⟩
  repeat' (first
      | with_reducible assumption | (have : Evolves _ t_ := h_; clear_value t_)
      | with_reducible apply State.updPower_evolves | with_reducible apply State.noteCuts_evolves
      | with_reducible apply State.thermalTrip_evolves | exact fun k_ => k_ | (intro k_; simpa [Power.Ok] using k_)
      | (intro k_; dsimp only; split <;> exact k_) | (intro _ _ _; (try dsimp -zeta only))
      | (intro _; (try dsimp -zeta only))
      | (extract_lets +onlyGivenNames t_; (refine_lift have h_ : Evolves s0 t_ := ?_; ?_); rotate_left; dsimp -zeta only [t_])
      | (extract_lets +onlyGivenNames t_; (refine_lift have h_ : Evolves s0 t_.2 := ?_; ?_); rotate_left; dsimp -zeta only [t_])
      | (extract_lets +onlyGivenNames t_) | split)

theorem State.cutMore_evolves {s0 s : State} (hs : Evolves s0 s) :
    Evolves s0 (State.cutMore s) := by
  unfold State.cutMore
  repeat' (first
      | with_reducible assumption | (have : Evolves _ t_ := h_; clear_value t_)
      | with_reducible apply State.updPower_evolves | exact fun k_ => k_ | (intro k_; simpa [Power.Ok] using k_)
      | (intro k_; dsimp only; split <;> exact k_) | (intro _ _ _; (try dsimp -zeta only))
      | (intro _; (try dsimp -zeta only))
      | (extract_lets +onlyGivenNames t_; (refine_lift have h_ : Evolves s0 t_ := ?_; ?_); rotate_left; dsimp -zeta only [t_])
      | (extract_lets +onlyGivenNames t_; (refine_lift have h_ : Evolves s0 t_.2 := ?_; ?_); rotate_left; dsimp -zeta only [t_])
      | (extract_lets +onlyGivenNames t_) | split)

theorem State.cutLess_evolves {s0 s : State} (hs : Evolves s0 s) :
    Evolves s0 (State.cutLess s) := by
  unfold State.cutLess
  repeat' (first
      | with_reducible assumption | (have : Evolves _ t_ := h_; clear_value t_)
      | with_reducible apply State.updPower_evolves | exact fun k_ => k_ | (intro k_; simpa [Power.Ok] using k_)
      | (intro k_; dsimp only; split <;> exact k_) | (intro _ _ _; (try dsimp -zeta only))
      | (intro _; (try dsimp -zeta only))
      | (extract_lets +onlyGivenNames t_; (refine_lift have h_ : Evolves s0 t_ := ?_; ?_); rotate_left; dsimp -zeta only [t_])
      | (extract_lets +onlyGivenNames t_; (refine_lift have h_ : Evolves s0 t_.2 := ?_; ?_); rotate_left; dsimp -zeta only [t_])
      | (extract_lets +onlyGivenNames t_) | split)

theorem execGovernorWindow_evolves {s0 s : State} (milliwatt1ms : Nat) (milliwatt100ms : Nat) (milliamp1ms : Nat)
    (milliamp100ms : Nat) (millivolt : Nat) (hs : Evolves s0 s) :
    ∃ r_, execGovernorWindow milliwatt1ms milliwatt100ms milliamp1ms milliamp100ms millivolt s = .next r_ ∧ Evolves s0 r_ := by
  refine ⟨_, rfl, ?_⟩
  repeat' (first
      | with_reducible assumption | with_reducible apply State.updPower_evolves
      | with_reducible apply State.noteCuts_evolves | with_reducible apply State.cutMore_evolves
      | with_reducible apply State.cutLess_evolves | exact fun k_ => k_ | (intro k_; simpa [Power.Ok] using k_)
      | (intro k_; dsimp only; split <;> exact k_) | (intro _ _ _; (try dsimp -zeta only))
      | (intro _; (try dsimp -zeta only)) | split)

theorem State.writeCap_evolves {s0 s : State} (v : Nat) (hs : Evolves s0 s) : Evolves s0 (State.writeCap v s) := by
  unfold State.writeCap
  split
  · exact State.updPower_evolves _ hs id
  · rename_i h
    refine State.updPower_evolves _ hs fun _ => ?_
    simp only [Bool.or_eq_true, decide_eq_true_eq] at h
    simp only [Power.Ok]; omega

theorem State.quiesce_evolves {s0 s : State} (hs : Evolves s0 s) :
    Evolves s0 (State.quiesce s) := by
  unfold State.quiesce
  repeat' (first
      | with_reducible assumption | with_reducible apply State.updPower_evolves | exact fun k_ => k_
      | (intro k_; simpa [Power.Ok] using k_) | (intro k_; dsimp only; split <;> exact k_) | exact fun k_ => k_
      | (intro k_; simpa [ErrState.Ok] using k_) | (intro _ _ _; (try dsimp -zeta only))
      | (intro _; (try dsimp -zeta only)) | split | with_reducible apply Evolves.with_err)

/-! ### Machine/Security.lean -/

theorem State.updSec_evolves {s0 s : State} (f : Security → Security) (hs : Evolves s0 s)
    (hr : s.sec.rollback ⊆ (f s.sec).rollback) (hk : s.sec.revoked ⊆ (f s.sec).revoked) :
    Evolves s0 (State.updSec f s) := hs.with_sec hr hk

theorem execIdentityRead_evolves {s0 s : State} (slot : Nat) (hs : Evolves s0 s) :
    ∃ r_, execIdentityRead slot s = .next r_ ∧ Evolves s0 r_ := by
  refine ⟨_, rfl, ?_⟩
  repeat' (first
      | with_reducible assumption | with_reducible apply State.writeResult_evolves
      | with_reducible apply State.runCmd_evolves | with_reducible apply State.done_evolves
      | (intro _ _ _; (try dsimp -zeta only)) | (intro _; (try dsimp -zeta only)) | split)

theorem execMeasureRead_evolves {s0 s : State} (slot : Nat) (hs : Evolves s0 s) :
    ∃ r_, execMeasureRead slot s = .next r_ ∧ Evolves s0 r_ := by
  refine ⟨_, rfl, ?_⟩
  repeat' (first
      | with_reducible assumption | with_reducible apply State.writeResult_evolves
      | with_reducible apply State.runCmd_evolves | with_reducible apply State.done_evolves
      | (intro _ _ _; (try dsimp -zeta only)) | (intro _; (try dsimp -zeta only)) | split)

theorem State.signNext_evolves {s0 s : State} (hs : Evolves s0 s) :
    Evolves s0 (State.signNext s) := by
  unfold State.signNext
  repeat' (first
      | with_reducible assumption | (have : Evolves _ t_ := h_; clear_value t_)
      | with_reducible apply State.setWork_evolves | with_reducible apply State.updSec_evolves
      | (intro _ _ _; (try dsimp -zeta only)) | (intro _; (try dsimp -zeta only))
      | (extract_lets +onlyGivenNames t_; (refine_lift have h_ : Evolves s0 t_ := ?_; ?_); rotate_left; dsimp -zeta only [t_])
      | (extract_lets +onlyGivenNames t_; (refine_lift have h_ : Evolves s0 t_.2 := ?_; ?_); rotate_left; dsimp -zeta only [t_])
      | (extract_lets +onlyGivenNames t_) | split)

theorem execAttest_evolves {s0 s : State} (slot : Nat) (hs : Evolves s0 s) :
    ∃ r_, execAttest slot s = .next r_ ∧ Evolves s0 r_ := by
  refine ⟨_, rfl, ?_⟩
  repeat' (first
      | with_reducible assumption | with_reducible apply State.runCmd_evolves
      | with_reducible apply State.setWork_evolves | with_reducible apply State.fail_evolves
      | with_reducible apply State.signNext_evolves | (intro _ _ _; (try dsimp -zeta only))
      | (intro _; (try dsimp -zeta only)) | split)

theorem execSignatureEnd_evolves {s0 s : State} (hs : Evolves s0 s) :
    ∃ r_, execSignatureEnd s = .next r_ ∧ Evolves s0 r_ := by
  refine ⟨_, rfl, ?_⟩
  repeat' (first
      | with_reducible assumption | with_reducible apply State.writeResult_evolves
      | with_reducible apply State.done_evolves | with_reducible apply State.updSec_evolves
      | with_reducible apply State.signNext_evolves | (intro _ _ _; (try dsimp -zeta only))
      | (intro _; (try dsimp -zeta only)) | split)

theorem execFwStage_evolves {s0 s : State} (slot : Nat) (hs : Evolves s0 s) :
    ∃ r_, execFwStage slot s = .next r_ ∧ Evolves s0 r_ := by
  refine ⟨_, rfl, ?_⟩
  repeat' (first
      | with_reducible assumption | with_reducible apply State.runCmd_evolves
      | with_reducible apply State.done_evolves | with_reducible apply State.fail_evolves
      | with_reducible apply State.updSec_evolves | (intro _ _ _; (try dsimp -zeta only))
      | (intro _; (try dsimp -zeta only)) | split)

theorem execFwActivate_evolves {s0 s : State} (slot : Nat) (hs : Evolves s0 s) :
    ∃ r_, execFwActivate slot s = .next r_ ∧ Evolves s0 r_ := by
  refine ⟨_, rfl, ?_⟩
  repeat' (first
      | with_reducible assumption | with_reducible apply State.runCmd_evolves
      | with_reducible apply State.setWork_evolves | with_reducible apply State.fail_evolves
      | with_reducible apply State.extend_evolves | with_reducible apply State.updSec_evolves
      | (intro _ _ _; (try dsimp -zeta only)) | (intro _; (try dsimp -zeta only)) | split)

theorem State.fwDone_evolves {s0 s : State} (st : Status) (hs : Evolves s0 s) :
    Evolves s0 (State.fwDone st s) := by
  unfold State.fwDone
  repeat' (first
      | with_reducible assumption | with_reducible apply State.finish_evolves | (intro _ _ _; (try dsimp -zeta only))
      | (intro _; (try dsimp -zeta only)) | split)

theorem State.fwWritten_evolves {s0 s : State} (target : Nat) (b : Bytes) (restart : Bool) (hs : Evolves s0 s) :
    Evolves s0 (State.fwWritten target b restart s) := by
  unfold State.fwWritten
  repeat' (first
      | with_reducible assumption | with_reducible apply State.updPower_evolves
      | with_reducible apply State.askShutdown_evolves | with_reducible apply State.updSec_evolves
      | with_reducible apply State.fwDone_evolves | exact fun k_ => k_ | (intro k_; simpa [Power.Ok] using k_)
      | (intro k_; dsimp only; split <;> exact k_) | exact fun k_ => k_ | (intro k_; simpa [Atrium.Ok] using k_)
      | (intro _ _ _; (try dsimp -zeta only)) | (intro _; (try dsimp -zeta only)) | split
      | with_reducible apply Evolves.with_atr)

theorem execFwWriteEnd_evolves {s0 s : State} (good : Bool) (hs : Evolves s0 s) :
    ∃ r_, execFwWriteEnd good s = .next r_ ∧ Evolves s0 r_ := by
  refine ⟨_, rfl, ?_⟩
  repeat' (first
      | with_reducible assumption | with_reducible apply State.updSec_evolves
      | with_reducible apply State.fwDone_evolves | with_reducible apply State.fwWritten_evolves
      | (intro _ _ _; (try dsimp -zeta only)) | (intro _; (try dsimp -zeta only)) | split)

theorem execRollbackAdvance_evolves {s0 s : State} (slot : Nat) (stuck : List Nat) (hs : Evolves s0 s) :
    ∃ r_, execRollbackAdvance slot stuck s = .next r_ ∧ Evolves s0 r_ := by
  refine ⟨_, rfl, State.runCmd_evolves _ _ _ _ hs fun c => ?_⟩
  split
  · exact State.fail_evolves _ _ _ hs
  · split
    · exact State.fail_evolves _ _ _ hs
    · extract_lets free blown t u
      have ht : Evolves s0 t := State.updSec_evolves _ hs (List.subset_append_left _ _)
        fun x hx => List.mem_eraseDups.mpr (List.mem_append_left _ hx)
      clear_value t
      refine State.done_evolves _ _ ?_
      simp only [u]
      split
      · exact ht
      · exact State.extend_evolves _ _ _ _ _ ht

theorem State.setUpdateLock_evolves {s0 s : State} (hs : Evolves s0 s) :
    Evolves s0 (State.setUpdateLock s) := by
  unfold State.setUpdateLock
  repeat' (first
      | with_reducible assumption | with_reducible apply State.lock_evolves
      | with_reducible apply State.extend_evolves | with_reducible apply State.updSec_evolves
      | (intro _ _ _; (try dsimp -zeta only)) | (intro _; (try dsimp -zeta only)) | split)

theorem execUpdateLock_evolves {s0 s : State} (port : Nat) (hs : Evolves s0 s) :
    ∃ r_, execUpdateLock port s = .next r_ ∧ Evolves s0 r_ := by
  refine ⟨_, rfl, ?_⟩
  repeat' (first
      | with_reducible assumption | with_reducible apply State.setUpdateLock_evolves
      | (intro _ _ _; (try dsimp -zeta only)) | (intro _; (try dsimp -zeta only)) | split)

end Sys2Proof.Machine
end

