-- ==== Sys2Proof/Laws/EvolvesStart.lean ====
section
/-! SUPPORT. Every operation on start-up, test, registers, flits and validation: the state it gives evolves from the state
it is given (Safety.lean). One lemma per operation, citing the lemmas of the operations it calls. The proofs are elaborated in turn: in
parallel they wait for each other, in more threads than there is memory for. -/
namespace Sys2Proof.Machine

set_option Elab.async false

/-! ### Machine/Startup.lean -/

theorem State.toPhase_evolves {s0 s : State} (p : Phase) (hs : Evolves s0 s) :
    Evolves s0 (State.toPhase p s) := by
  unfold State.toPhase
  repeat' (first
      | with_reducible assumption | with_reducible apply State.updPower_evolves | exact fun k_ => k_
      | (intro k_; simpa [Power.Ok] using k_) | (intro k_; dsimp only; split <;> exact k_)
      | (intro _ _ _; (try dsimp -zeta only)) | (intro _; (try dsimp -zeta only)) | split
      | with_reducible apply Evolves.with_test)

theorem State.startFail_evolves {s0 s : State} (f : StartFailure) (course : Phase) (hs : Evolves s0 s) :
    Evolves s0 (State.startFail f course s) := by
  unfold State.startFail
  repeat' (first
      | with_reducible assumption | with_reducible apply State.raise_evolves
      | with_reducible apply State.updPower_evolves | with_reducible apply State.toPhase_evolves | exact fun k_ => k_
      | (intro k_; simpa [Power.Ok] using k_) | (intro k_; dsimp only; split <;> exact k_)
      | (intro _ _ _; (try dsimp -zeta only)) | (intro _; (try dsimp -zeta only)) | split)

theorem State.applyFuses_evolves {s0 s : State} (m : FuseMap) (hs : Evolves s0 s) : Evolves s0
    (State.applyFuses m s) := by
  unfold State.applyFuses
  exact State.extend_evolves _ _ _ _ _ (hs.with_units_clustersBuilt_clustersLogical_sec
    (fun x hx => List.mem_eraseDups.mpr (List.mem_append_left _ hx))
    (fun x hx => List.mem_eraseDups.mpr (List.mem_append_left _ hx)))

theorem execFuseLoadEnd_evolves {s0 s : State} (copyA : Option FuseMap) (copyB : Option FuseMap) (hs : Evolves s0 s) :
    ∃ r_, execFuseLoadEnd copyA copyB s = .next r_ ∧ Evolves s0 r_ := by
  refine ⟨_, rfl, ?_⟩
  repeat' (first
      | with_reducible assumption | (have : Evolves _ t_ := h_; clear_value t_)
      | with_reducible apply State.toPhase_evolves | with_reducible apply State.startFail_evolves
      | with_reducible apply State.applyFuses_evolves | (intro _ _ _; (try dsimp -zeta only))
      | (intro _; (try dsimp -zeta only))
      | (extract_lets +onlyGivenNames t_; (refine_lift have h_ : Evolves s0 t_ := ?_; ?_); rotate_left; dsimp -zeta only [t_])
      | (extract_lets +onlyGivenNames t_; (refine_lift have h_ : Evolves s0 t_.2 := ?_; ?_); rotate_left; dsimp -zeta only [t_])
      | (extract_lets +onlyGivenNames t_) | split)

theorem State.enterRecovery_evolves {s0 s : State} (f : StartFailure) (hs : Evolves s0 s) :
    Evolves s0 (State.enterRecovery f s) := by
  unfold State.enterRecovery
  repeat' (first
      | with_reducible assumption | with_reducible apply State.extend_evolves
      | with_reducible apply State.updSec_evolves | with_reducible apply State.startFail_evolves
      | (intro _ _ _; (try dsimp -zeta only)) | (intro _; (try dsimp -zeta only)) | split)

theorem State.acceptContainer_evolves {s0 s : State} (target : Nat) (bad : Bool) (b : Bytes) (hs : Evolves s0 s) :
    ∀ r_, State.acceptContainer target bad b s = some r_ → Evolves s0 r_ := by
  unfold State.acceptContainer
  (try dsimp only)
  repeat' (first
      | with_reducible assumption | with_reducible apply State.extend_evolves
      | with_reducible apply State.updSec_evolves
      | (simp only [Option.some.injEq, reduceCtorEq, forall_eq, forall_eq', false_implies, implies_true]) | split
      | (intro _ _ _; (try dsimp -zeta only)) | (intro _; (try dsimp -zeta only)))

theorem State.acceptContainer_evolves_of {s0 s : State} {target : Nat} {bad : Bool} {b : Bytes} {r_}
    (e_ : State.acceptContainer target bad b s = some r_) (hs : Evolves s0 s) : Evolves s0 r_ :=
  State.acceptContainer_evolves target bad b hs _ e_

theorem execConfigLoadEnd_evolves {s0 s : State} (config : Option (List Byte)) (firmware : Option (List Byte))
    (certificate : List Byte) (hs : Evolves s0 s) :
    ∃ r_, execConfigLoadEnd config firmware certificate s = .next r_ ∧ Evolves s0 r_ := by
  refine ⟨_, rfl, ?_⟩
  repeat' (first
      | with_reducible assumption | (have : Evolves _ t_ := h_; clear_value t_)
      | with_reducible apply State.updSec_evolves | with_reducible apply State.toPhase_evolves
      | with_reducible apply State.enterRecovery_evolves
      | refine State.acceptContainer_evolves_of (by with_reducible assumption) ?_
      | (intro _ _ _; (try dsimp -zeta only)) | (intro _; (try dsimp -zeta only))
      | (extract_lets +onlyGivenNames t_; (refine_lift have h_ : Evolves s0 t_ := ?_; ?_); rotate_left; dsimp -zeta only [t_])
      | (extract_lets +onlyGivenNames t_; (refine_lift have h_ : Evolves s0 t_.2 := ?_; ?_); rotate_left; dsimp -zeta only [t_])
      | (extract_lets +onlyGivenNames t_) | split)

theorem State.startClosed_evolves {s0 s : State} (k : UnitKind) (p : Nat) (hs : Evolves s0 s) :
    Evolves s0 (State.startClosed k p s) := by
  unfold State.startClosed
  repeat' (first
      | with_reducible assumption | with_reducible apply State.closeNumber_evolves
      | (intro _ _ _; (try dsimp -zeta only)) | (intro _; (try dsimp -zeta only)) | split)

theorem execSramFillEnd_evolves {s0 s : State} (repaired : List Nat) (closedClusters : List Nat)
    (closedDocents : List Nat) (memoryFail : Bool) (hs : Evolves s0 s) :
    ∃ r_, execSramFillEnd repaired closedClusters closedDocents memoryFail s = .next r_ ∧ Evolves s0 r_ := by
  refine ⟨_, rfl, ?_⟩
  repeat' (first
      | with_reducible assumption | with_reducible apply State.repairRowOf_evolves
      | with_reducible apply State.toPhase_evolves | with_reducible apply State.startFail_evolves
      | with_reducible apply State.startClosed_evolves | with_reducible apply Evolves.foldl
      | (intro _ _ _; (try dsimp -zeta only)) | (intro _; (try dsimp -zeta only)) | split)

theorem State.noteCopies_evolves {s0 s : State} (row : Bytes) (l : List IdentityCopy) (hs : Evolves s0 s) :
    Evolves s0 (State.noteCopies row l s) := by
  unfold State.noteCopies
  repeat' (first
      | with_reducible assumption | with_reducible apply State.raise_evolves | with_reducible apply Evolves.foldl
      | (intro _ _ _; (try dsimp -zeta only)) | (intro _; (try dsimp -zeta only)) | split)

theorem State.fitGrade_evolves {s0 s : State} (g : Grade) (hs : Evolves s0 s) :
    Evolves s0 (State.fitGrade g s) := by
  unfold State.fitGrade
  repeat' (first
      | with_reducible assumption | exact fun k_ => k_ | (intro k_; simpa [Power.Ok] using k_)
      | (intro _ _ _; (try dsimp -zeta only)) | (intro _; (try dsimp -zeta only)) | split
      | with_reducible apply Evolves.with_grade_units_power)

theorem State.checkCert_evolves {s0 s : State} (hs : Evolves s0 s) :
    Evolves s0 (State.checkCert s) := by
  unfold State.checkCert
  repeat' (first
      | with_reducible assumption | with_reducible apply State.raise_evolves
      | with_reducible apply State.updSec_evolves | (intro _ _ _; (try dsimp -zeta only))
      | (intro _; (try dsimp -zeta only)) | split)

theorem State.coreRelease_evolves {s0 s : State} (identity : List IdentityCopy) (hs : Evolves s0 s) :
    Evolves s0 (State.coreRelease identity s) := by
  unfold State.coreRelease
  repeat' (first
      | with_reducible assumption | (have : Evolves _ t_ := h_; clear_value t_)
      | with_reducible apply State.setBudget_evolves | with_reducible apply State.extend_evolves
      | with_reducible apply State.updSec_evolves | with_reducible apply State.toPhase_evolves
      | with_reducible apply State.startFail_evolves | with_reducible apply State.noteCopies_evolves
      | with_reducible apply State.fitGrade_evolves | with_reducible apply State.checkCert_evolves
      | (intro _ _ _; (try dsimp -zeta only)) | (intro _; (try dsimp -zeta only))
      | (extract_lets +onlyGivenNames t_; (refine_lift have h_ : Evolves s0 t_ := ?_; ?_); rotate_left; dsimp -zeta only [t_])
      | (extract_lets +onlyGivenNames t_; (refine_lift have h_ : Evolves s0 t_.2 := ?_; ?_); rotate_left; dsimp -zeta only [t_])
      | (extract_lets +onlyGivenNames t_) | split)

theorem State.markBad_evolves {s0 s : State} (bad : List (Die × Nat)) (hs : Evolves s0 s) :
    Evolves s0 (State.markBad bad s) := by
  unfold State.markBad
  repeat' (first
      | with_reducible assumption | with_reducible apply State.updEunit_evolves | with_reducible apply Evolves.foldl
      | (intro _ _ _; (try dsimp -zeta only)) | (intro _; (try dsimp -zeta only)) | split)

theorem execDramFillEnd_evolves {s0 s : State} (failed : List Nat) (identity : DieRows) (hs : Evolves s0 s) :
    ∃ r_, execDramFillEnd failed identity s = .next r_ ∧ Evolves s0 r_ := by
  refine ⟨_, rfl, ?_⟩
  repeat' (first
      | with_reducible assumption | with_reducible apply State.startClosed_evolves
      | with_reducible apply State.coreRelease_evolves | with_reducible apply State.markBad_evolves
      | with_reducible apply Evolves.foldl | (intro _ _ _; (try dsimp -zeta only)) | (intro _; (try dsimp -zeta only))
      | split)

theorem State.applyRepairs_evolves {s0 s : State} (hs : Evolves s0 s) :
    Evolves s0 (State.applyRepairs s) := by
  unfold State.applyRepairs
  repeat' (first
      | with_reducible assumption | with_reducible apply State.closeNumber_evolves
      | with_reducible apply Evolves.foldl | (intro _ _ _; (try dsimp -zeta only)) | (intro _; (try dsimp -zeta only))
      | split)

theorem numberUnits_evolves {s0 s : State} (us : List SvcUnit) (n : Nat) (hs : Evolves s0 s) :
    Evolves s0 (numberUnits us n s) := by
  induction us generalizing n s with
  | nil => exact hs.with_err id
  | cons u us ih => exact ih _ (State.updUnit_evolves _ _ _ hs)

theorem State.numberClosed_evolves {s0 s : State} (old : List Repair) (hs : Evolves s0 s) :
    Evolves s0 (State.numberClosed old s) := by
  unfold State.numberClosed
  repeat' (first
      | with_reducible assumption | with_reducible apply State.raise_evolves
      | with_reducible apply State.closed_evolves | with_reducible apply numberUnits_evolves
      | with_reducible apply Evolves.foldl | (intro _ _ _; (try dsimp -zeta only)) | (intro _; (try dsimp -zeta only))
      | split)

theorem State.dropVolatile_evolves {s0 s : State} (hs : Evolves s0 s) :
    Evolves s0 (State.dropVolatile s) := by
  unfold State.dropVolatile
  repeat' (first
      | with_reducible assumption | with_reducible apply State.raise_evolves | exact fun k_ => k_
      | (intro k_; simpa [Tiers.Ok] using k_) | (intro _ _ _; (try dsimp -zeta only))
      | (intro _; (try dsimp -zeta only)) | split | with_reducible apply Evolves.with_tiers)

theorem State.settleAll_evolves {s0 s : State} (hs : Evolves s0 s) :
    Evolves s0 (State.settleAll s) := by
  unfold State.settleAll
  repeat' (first
      | with_reducible assumption | with_reducible apply State.updObj_evolves
      | with_reducible apply State.settleObj_evolves | with_reducible apply Evolves.foldl
      | (intro _ _ _; (try dsimp -zeta only)) | (intro _; (try dsimp -zeta only)) | split)

theorem State.dropMerges_evolves {s0 s : State} (hs : Evolves s0 s) :
    Evolves s0 (State.dropMerges s) := by
  unfold State.dropMerges
  repeat' (first
      | with_reducible assumption | with_reducible apply State.updObj_evolves
      | with_reducible apply State.retire_evolves | with_reducible apply Evolves.foldl
      | (intro _ _ _; (try dsimp -zeta only)) | (intro _; (try dsimp -zeta only)) | split)

theorem State.reErase_evolves {s0 s : State} (hs : Evolves s0 s) :
    Evolves s0 (State.reErase s) := by
  unfold State.reErase
  repeat' (first
      | with_reducible assumption | with_reducible apply State.journal_evolves
      | with_reducible apply State.unbindUnit_evolves | with_reducible apply State.done_evolves
      | with_reducible apply Evolves.foldl | exact fun k_ => k_ | (intro k_; simpa [Flash.Ok] using k_)
      | (intro _ _ _; (try dsimp -zeta only)) | (intro _; (try dsimp -zeta only)) | split
      | with_reducible apply Evolves.with_flash)

theorem State.restoreUnit_evolves {s0 s : State} (lun : Nat) (bs : Bytes) (hs : Evolves s0 s) :
    Evolves s0 (State.restoreUnit lun bs s) := by
  unfold State.restoreUnit
  repeat' (first
      | with_reducible assumption | with_reducible apply State.updVer_evolves | exact fun k_ => k_.of_data rfl
      | (intro (k_ : memWf _ = true); show memWf _ = true; exact memWrite_wf k_ _ _)
      | (intro (k_ : memWf _ = true); show memWf _ = true; exact memErase_wf k_ _ _)
      | (intro (k_ : memWf _ = true); show memWf _ = true; exact memWrite_wf (memErase_wf k_ _ _) _ _)
      | exact fun k_ => k_ | (intro k_; simpa [BlockRange.Ok] using k_) | (intro _ _ _; (try dsimp -zeta only))
      | (intro _; (try dsimp -zeta only)) | split | with_reducible apply Evolves.with_block)

theorem State.applyUnit_evolves {s0 s : State} (x : Nat × Bytes) (hs : Evolves s0 s) :
    Evolves s0 (State.applyUnit x s) := by
  unfold State.applyUnit
  repeat' (first
      | with_reducible assumption | with_reducible apply State.sendUnit_evolves
      | with_reducible apply State.someGroup_evolves | with_reducible apply State.restoreUnit_evolves
      | refine State.sendUnit_evolves_of (by with_reducible assumption) ?_
      | refine State.someGroup_evolves_of (by with_reducible assumption) ?_ | (intro _ _ _; (try dsimp -zeta only))
      | (intro _; (try dsimp -zeta only)) | split)

theorem State.applyMaps_evolves {s0 s : State} (ms : List Nat) (es : List (Nat × Nat)) (hs : Evolves s0 s) :
    Evolves s0 (State.applyMaps ms es s) := by
  unfold State.applyMaps
  repeat' (first
      | with_reducible assumption | with_reducible apply State.rejournal_evolves | with_reducible apply Evolves.foldl
      | (intro k_; exact ⟨foldl_putPair_rising (filter_rising k_.1), k_.2⟩) | exact fun k_ => k_.of_map rfl
      | exact fun k_ => k_ | (intro k_; simpa [Ftl.Ok] using k_) | (intro _ _ _; (try dsimp -zeta only))
      | (intro _; (try dsimp -zeta only)) | split | with_reducible apply Evolves.with_ftl)

theorem State.replayDusk_evolves {s0 s : State} (bad : List (Nat × Nat)) (hs : Evolves s0 s) :
    Evolves s0 (State.replayDusk bad s) := by
  unfold State.replayDusk
  repeat' (first
      | with_reducible assumption | with_reducible apply State.raise_evolves
      | with_reducible apply State.loseUnits_evolves | with_reducible apply State.restoreUnit_evolves
      | with_reducible apply State.applyUnit_evolves | with_reducible apply State.applyMaps_evolves
      | with_reducible apply Evolves.foldl | (intro _ _ _; (try dsimp -zeta only)) | (intro _; (try dsimp -zeta only))
      | split)

theorem State.repairPage_evolves {s0 s : State} (x : Nat × Nat × Nat) (hs : Evolves s0 s) :
    Evolves s0 (State.repairPage x s) := by
  unfold State.repairPage
  repeat' (first
      | with_reducible assumption | (have : Evolves _ t_ := h_; clear_value t_)
      | with_reducible apply State.raise_evolves | with_reducible apply State.updEunit_evolves
      | with_reducible apply State.leaveSet_evolves | with_reducible apply State.storeMove_evolves
      | with_reducible apply State.closed_evolves | with_reducible apply State.loseUnits_evolves
      | with_reducible apply Evolves.foldl | (intro _ _ _; (try dsimp -zeta only)) | (intro _; (try dsimp -zeta only))
      | (extract_lets +onlyGivenNames t_; (refine_lift have h_ : Evolves s0 t_ := ?_; ?_); rotate_left; dsimp -zeta only [t_])
      | (extract_lets +onlyGivenNames t_; (refine_lift have h_ : Evolves s0 t_.2 := ?_; ?_); rotate_left; dsimp -zeta only [t_])
      | (extract_lets +onlyGivenNames t_) | split)

theorem State.raiseReads_evolves {s0 s : State} (hs : Evolves s0 s) :
    Evolves s0 (State.raiseReads s) := by
  unfold State.raiseReads
  repeat' (first
      | with_reducible assumption | exact fun k_ => k_ | (intro k_; simpa [Flash.Ok] using k_)
      | (intro _ _ _; (try dsimp -zeta only)) | (intro _; (try dsimp -zeta only)) | split
      | with_reducible apply Evolves.with_flash)

theorem State.eraseDusk_evolves {s0 s : State} (hs : Evolves s0 s) :
    Evolves s0 (State.eraseDusk s) := by
  unfold State.eraseDusk
  repeat' (first
      | with_reducible assumption | with_reducible apply State.updEunit_evolves
      | with_reducible apply State.eraseData_evolves | with_reducible apply State.journal_evolves
      | with_reducible apply State.done_evolves | with_reducible apply Evolves.foldl | exact fun k_ => k_.of_map rfl
      | exact fun k_ => k_ | (intro k_; simpa [Flash.Ok] using k_) | (intro k_; simpa [Ftl.Ok] using k_)
      | (intro _ _ _; (try dsimp -zeta only)) | (intro _; (try dsimp -zeta only)) | split
      | with_reducible apply Evolves.with_flash | with_reducible apply Evolves.with_flash_ftl)

theorem State.settleMount_evolves {s0 s : State} (n0_ : Nat) (hs : Evolves s0 s) :
    Evolves s0 (State.settleMount n0_ s) := by
  induction n0_ generalizing s with
  | zero => unfold State.settleMount; exact hs
  | succ k_ ih_ =>
  unfold State.settleMount
  repeat' (first
      | with_reducible assumption | with_reducible apply ih_ | with_reducible apply State.storeMaps_evolves
      | with_reducible apply State.retireData_evolves | with_reducible apply State.serveFlash_evolves
      | with_reducible apply State.finishPrograms_evolves | with_reducible apply Evolves.foldl
      | exact fun k_ => k_.of_map rfl | exact fun k_ => k_ | (intro k_; simpa [Flash.Ok] using k_)
      | (intro k_; simpa [Ftl.Ok] using k_) | (intro _ _ _; (try dsimp -zeta only))
      | (intro _; (try dsimp -zeta only)) | split | with_reducible apply Evolves.with_flash_ftl)

theorem State.measureKernels_evolves {s0 s : State} (hs : Evolves s0 s) :
    Evolves s0 (State.measureKernels s) := by
  unfold State.measureKernels
  repeat' (first
      | with_reducible assumption | with_reducible apply State.extend_evolves | with_reducible apply Evolves.foldl
      | (intro _ _ _; (try dsimp -zeta only)) | (intro _; (try dsimp -zeta only)) | split)

theorem State.dueCompare_evolves {s0 s : State} (hs : Evolves s0 s) :
    Evolves s0 (State.dueCompare s) := by
  unfold State.dueCompare
  repeat' (first
      | with_reducible assumption | exact fun k_ => k_.of_map rfl | exact fun k_ => k_
      | (intro k_; simpa [Ftl.Ok] using k_) | (intro _ _ _; (try dsimp -zeta only))
      | (intro _; (try dsimp -zeta only)) | split | with_reducible apply Evolves.with_ftl)

theorem State.replayMount_evolves {s0 s : State} (badDusk : List (Nat × Nat)) (damaged : List (Nat × Nat × Nat))
    (hs : Evolves s0 s) : Evolves s0 (State.replayMount badDusk damaged s) :=
  State.settleMount_evolves 16 (State.raiseReads_evolves
    ((State.replayDusk_evolves badDusk hs).foldl fun _ x h => State.repairPage_evolves x h))

theorem State.mountAll_evolves {s0 s : State} (badDusk : List (Nat × Nat)) (damaged : List (Nat × Nat × Nat))
    (hs : Evolves s0 s) :
    Evolves s0 (State.mountAll badDusk damaged s) := by
  unfold State.mountAll
  (try dsimp only)
  repeat' (first
      | with_reducible assumption | with_reducible apply State.dropVolatile_evolves
      | with_reducible apply State.settleAll_evolves | with_reducible apply State.dropMerges_evolves
      | with_reducible apply State.reErase_evolves | with_reducible apply State.eraseDusk_evolves
      | with_reducible apply State.measureKernels_evolves | with_reducible apply State.dueCompare_evolves
      | with_reducible apply State.replayMount_evolves | split | (intro _ _ _; (try dsimp -zeta only))
      | (intro _; (try dsimp -zeta only)))

theorem State.enterService_evolves {s0 s : State} (hs : Evolves s0 s) :
    Evolves s0 (State.enterService s) := by
  unfold State.enterService
  repeat' (first
      | with_reducible assumption | (have : Evolves _ t_ := h_; clear_value t_)
      | with_reducible apply State.noteProtection_evolves | with_reducible apply State.compareEpoch_evolves
      | with_reducible apply State.updPower_evolves | with_reducible apply State.startShutdown_evolves
      | exact fun k_ => k_ | (intro k_; simpa [Power.Ok] using k_) | (intro k_; dsimp only; split <;> exact k_)
      | (intro _ _ _; (try dsimp -zeta only)) | (intro _; (try dsimp -zeta only))
      | (extract_lets +onlyGivenNames t_; (refine_lift have h_ : Evolves s0 t_ := ?_; ?_); rotate_left; dsimp -zeta only [t_])
      | (extract_lets +onlyGivenNames t_; (refine_lift have h_ : Evolves s0 t_.2 := ?_; ?_); rotate_left; dsimp -zeta only [t_])
      | (extract_lets +onlyGivenNames t_) | split)

theorem State.mountUnits_evolves {s0 s : State} (hs : Evolves s0 s) :
    Evolves s0 (State.mountUnits s) := by
  unfold State.mountUnits
  repeat' (first
      | with_reducible assumption | with_reducible apply State.noteUnits_evolves
      | with_reducible apply State.deriveBudget_evolves | with_reducible apply State.repairRows_evolves
      | with_reducible apply State.applyRepairs_evolves | with_reducible apply State.numberClosed_evolves
      | with_reducible apply Evolves.foldl | (intro _ _ _; (try dsimp -zeta only)) | (intro _; (try dsimp -zeta only))
      | split)

theorem execMountEnd_evolves {s0 s : State} (journalA : Bool) (journalB : Bool) (checkpoint : Bool)
    (badDusk : List (Nat × Nat)) (damaged : List (Nat × Nat × Nat)) (hs : Evolves s0 s) :
    ∃ r_, execMountEnd journalA journalB checkpoint badDusk damaged s = .next r_ ∧ Evolves s0 r_ := by
  refine ⟨_, rfl, ?_⟩
  dsimp only
  repeat' (first
      | with_reducible assumption | with_reducible apply State.raise_evolves
      | with_reducible apply State.startFail_evolves | with_reducible apply State.mountAll_evolves
      | with_reducible apply State.enterService_evolves | with_reducible apply State.mountUnits_evolves | split
      | (intro _ _ _; (try dsimp -zeta only)) | (intro _; (try dsimp -zeta only)))

/-! ### Machine/TestDiag.lean -/

theorem State.tap_evolves {s0 s : State} (f : TestBlock → TestBlock) (hs : Evolves s0 s) :
    ∃ r_, State.tap f s = .next r_ ∧ Evolves s0 r_ := by
  refine ⟨_, rfl, ?_⟩
  repeat' (first
      | with_reducible assumption | (intro _ _ _; (try dsimp -zeta only)) | (intro _; (try dsimp -zeta only)) | split
      | with_reducible apply Evolves.with_test)

theorem State.driveCells_evolves {s0 s : State} (code : Nat) (cells : List Bool) (hs : Evolves s0 s) :
    ∃ r_, State.driveCells code cells s = .next r_ ∧ Evolves s0 r_ := by
  refine ⟨_, rfl, ?_⟩
  repeat' (first
      | with_reducible assumption | with_reducible apply State.tap_evolves | (intro _ _ _; (try dsimp -zeta only))
      | (intro _; (try dsimp -zeta only)) | split | with_reducible apply Evolves.with_test)

theorem execTapReset_evolves {s0 s : State} (hs : Evolves s0 s) :
    ∃ r_, execTapReset s = .next r_ ∧ Evolves s0 r_ := by
  refine ⟨_, rfl, ?_⟩
  repeat' (first
      | with_reducible assumption | with_reducible apply State.tap_evolves | (intro _ _ _; (try dsimp -zeta only))
      | (intro _; (try dsimp -zeta only)) | split | with_reducible apply Evolves.with_test)

theorem execExtest_evolves {s0 s : State} (cells : List Bool) (hs : Evolves s0 s) :
    ∃ r_, execExtest cells s = .next r_ ∧ Evolves s0 r_ := by
  refine ⟨_, rfl, ?_⟩
  repeat' (first
      | with_reducible assumption | with_reducible apply State.driveCells_evolves
      | (intro _ _ _; (try dsimp -zeta only)) | (intro _; (try dsimp -zeta only)) | split
      | with_reducible apply Evolves.with_test)

theorem execIdcode_evolves {s0 s : State} (hs : Evolves s0 s) :
    ∃ r_, execIdcode s = .next r_ ∧ Evolves s0 r_ := by
  refine ⟨_, rfl, ?_⟩
  repeat' (first
      | with_reducible assumption | with_reducible apply State.tap_evolves | (intro _ _ _; (try dsimp -zeta only))
      | (intro _; (try dsimp -zeta only)) | split | with_reducible apply Evolves.with_test)

theorem execSamplePreload_evolves {s0 s : State} (pins : List Bool) (cells : List Bool) (hs : Evolves s0 s) :
    ∃ r_, execSamplePreload pins cells s = .next r_ ∧ Evolves s0 r_ := by
  refine ⟨_, rfl, ?_⟩
  repeat' (first
      | with_reducible assumption | with_reducible apply State.tap_evolves | (intro _ _ _; (try dsimp -zeta only))
      | (intro _; (try dsimp -zeta only)) | split | with_reducible apply Evolves.with_test)

theorem execClamp_evolves {s0 s : State} (hs : Evolves s0 s) :
    ∃ r_, execClamp s = .next r_ ∧ Evolves s0 r_ := by
  refine ⟨_, rfl, ?_⟩
  repeat' (first
      | with_reducible assumption | with_reducible apply State.tap_evolves | (intro _ _ _; (try dsimp -zeta only))
      | (intro _; (try dsimp -zeta only)) | split | with_reducible apply Evolves.with_test)

theorem execHighz_evolves {s0 s : State} (hs : Evolves s0 s) :
    ∃ r_, execHighz s = .next r_ ∧ Evolves s0 r_ := by
  refine ⟨_, rfl, ?_⟩
  repeat' (first
      | with_reducible assumption | with_reducible apply State.tap_evolves | (intro _ _ _; (try dsimp -zeta only))
      | (intro _; (try dsimp -zeta only)) | split | with_reducible apply Evolves.with_test)

theorem execExtestPulse_evolves {s0 s : State} (cells : List Bool) (hs : Evolves s0 s) :
    ∃ r_, execExtestPulse cells s = .next r_ ∧ Evolves s0 r_ := by
  refine ⟨_, rfl, ?_⟩
  repeat' (first
      | with_reducible assumption | with_reducible apply State.driveCells_evolves
      | (intro _ _ _; (try dsimp -zeta only)) | (intro _; (try dsimp -zeta only)) | split
      | with_reducible apply Evolves.with_test)

theorem execExtestTrain_evolves {s0 s : State} (cells : List Bool) (hs : Evolves s0 s) :
    ∃ r_, execExtestTrain cells s = .next r_ ∧ Evolves s0 r_ := by
  refine ⟨_, rfl, ?_⟩
  repeat' (first
      | with_reducible assumption | with_reducible apply State.driveCells_evolves
      | (intro _ _ _; (try dsimp -zeta only)) | (intro _; (try dsimp -zeta only)) | split
      | with_reducible apply Evolves.with_test)

theorem execBootStatus_evolves {s0 s : State} (hs : Evolves s0 s) :
    ∃ r_, execBootStatus s = .next r_ ∧ Evolves s0 r_ := by
  refine ⟨_, rfl, ?_⟩
  repeat' (first
      | with_reducible assumption | with_reducible apply State.tap_evolves | (intro _ _ _; (try dsimp -zeta only))
      | (intro _; (try dsimp -zeta only)) | split | with_reducible apply Evolves.with_test)

theorem execBypass_evolves {s0 s : State} (hs : Evolves s0 s) :
    ∃ r_, execBypass s = .next r_ ∧ Evolves s0 r_ := by
  refine ⟨_, rfl, ?_⟩
  repeat' (first
      | with_reducible assumption | with_reducible apply State.tap_evolves | (intro _ _ _; (try dsimp -zeta only))
      | (intro _; (try dsimp -zeta only)) | split | with_reducible apply Evolves.with_test)

theorem State.answer_evolves {s0 s : State} (b : Bytes) (hs : Evolves s0 s) :
    ∃ r_, State.answer b s = .next r_ ∧ Evolves s0 r_ := by
  refine ⟨_, rfl, ?_⟩
  repeat' (first
      | with_reducible assumption | (intro _ _ _; (try dsimp -zeta only)) | (intro _; (try dsimp -zeta only)) | split
      | with_reducible apply Evolves.with_test)

theorem execSmbPowerState_evolves {s0 s : State} (hs : Evolves s0 s) :
    ∃ r_, execSmbPowerState s = .next r_ ∧ Evolves s0 r_ := by
  refine ⟨_, rfl, ?_⟩
  repeat' (first
      | with_reducible assumption | with_reducible apply State.answer_evolves | (intro _ _ _; (try dsimp -zeta only))
      | (intro _; (try dsimp -zeta only)) | split | with_reducible apply Evolves.with_test)

theorem execSmbBootStatus_evolves {s0 s : State} (hs : Evolves s0 s) :
    ∃ r_, execSmbBootStatus s = .next r_ ∧ Evolves s0 r_ := by
  refine ⟨_, rfl, ?_⟩
  repeat' (first
      | with_reducible assumption | with_reducible apply State.answer_evolves | (intro _ _ _; (try dsimp -zeta only))
      | (intro _; (try dsimp -zeta only)) | split | with_reducible apply Evolves.with_test)

theorem execSmbInputVoltage_evolves {s0 s : State} (hs : Evolves s0 s) :
    ∃ r_, execSmbInputVoltage s = .next r_ ∧ Evolves s0 r_ := by
  refine ⟨_, rfl, ?_⟩
  repeat' (first
      | with_reducible assumption | with_reducible apply State.answer_evolves | (intro _ _ _; (try dsimp -zeta only))
      | (intro _; (try dsimp -zeta only)) | split | with_reducible apply Evolves.with_test)

theorem execSmbInputCurrent_evolves {s0 s : State} (hs : Evolves s0 s) :
    ∃ r_, execSmbInputCurrent s = .next r_ ∧ Evolves s0 r_ := by
  refine ⟨_, rfl, ?_⟩
  repeat' (first
      | with_reducible assumption | with_reducible apply State.answer_evolves | (intro _ _ _; (try dsimp -zeta only))
      | (intro _; (try dsimp -zeta only)) | split | with_reducible apply Evolves.with_test)

theorem execSmbInputPower_evolves {s0 s : State} (hs : Evolves s0 s) :
    ∃ r_, execSmbInputPower s = .next r_ ∧ Evolves s0 r_ := by
  refine ⟨_, rfl, ?_⟩
  repeat' (first
      | with_reducible assumption | with_reducible apply State.answer_evolves | (intro _ _ _; (try dsimp -zeta only))
      | (intro _; (try dsimp -zeta only)) | split | with_reducible apply Evolves.with_test)

theorem execSmbHoldupEnergy_evolves {s0 s : State} (hs : Evolves s0 s) :
    ∃ r_, execSmbHoldupEnergy s = .next r_ ∧ Evolves s0 r_ := by
  refine ⟨_, rfl, ?_⟩
  repeat' (first
      | with_reducible assumption | with_reducible apply State.answer_evolves | (intro _ _ _; (try dsimp -zeta only))
      | (intro _; (try dsimp -zeta only)) | split | with_reducible apply Evolves.with_test)

theorem execSmbComputeTemp_evolves {s0 s : State} (hs : Evolves s0 s) :
    ∃ r_, execSmbComputeTemp s = .next r_ ∧ Evolves s0 r_ := by
  refine ⟨_, rfl, ?_⟩
  repeat' (first
      | with_reducible assumption | with_reducible apply State.answer_evolves | (intro _ _ _; (try dsimp -zeta only))
      | (intro _; (try dsimp -zeta only)) | split | with_reducible apply Evolves.with_test)

theorem execSmbFlashTemp_evolves {s0 s : State} (hs : Evolves s0 s) :
    ∃ r_, execSmbFlashTemp s = .next r_ ∧ Evolves s0 r_ := by
  refine ⟨_, rfl, ?_⟩
  repeat' (first
      | with_reducible assumption | with_reducible apply State.answer_evolves | (intro _ _ _; (try dsimp -zeta only))
      | (intro _; (try dsimp -zeta only)) | split | with_reducible apply Evolves.with_test)

theorem execSmbDramTemp_evolves {s0 s : State} (hs : Evolves s0 s) :
    ∃ r_, execSmbDramTemp s = .next r_ ∧ Evolves s0 r_ := by
  refine ⟨_, rfl, ?_⟩
  repeat' (first
      | with_reducible assumption | with_reducible apply State.answer_evolves | (intro _ _ _; (try dsimp -zeta only))
      | (intro _; (try dsimp -zeta only)) | split | with_reducible apply Evolves.with_test)

theorem execSmbDuskBudget_evolves {s0 s : State} (hs : Evolves s0 s) :
    ∃ r_, execSmbDuskBudget s = .next r_ ∧ Evolves s0 r_ := by
  refine ⟨_, rfl, ?_⟩
  repeat' (first
      | with_reducible assumption | with_reducible apply State.answer_evolves | (intro _ _ _; (try dsimp -zeta only))
      | (intro _; (try dsimp -zeta only)) | split | with_reducible apply Evolves.with_test)

theorem execSmbDirtyDurable_evolves {s0 s : State} (hs : Evolves s0 s) :
    ∃ r_, execSmbDirtyDurable s = .next r_ ∧ Evolves s0 r_ := by
  refine ⟨_, rfl, ?_⟩
  repeat' (first
      | with_reducible assumption | with_reducible apply State.answer_evolves | (intro _ _ _; (try dsimp -zeta only))
      | (intro _; (try dsimp -zeta only)) | split | with_reducible apply Evolves.with_test)

theorem execSmbUnreadFaults_evolves {s0 s : State} (hs : Evolves s0 s) :
    ∃ r_, execSmbUnreadFaults s = .next r_ ∧ Evolves s0 r_ := by
  refine ⟨_, rfl, ?_⟩
  repeat' (first
      | with_reducible assumption | with_reducible apply State.answer_evolves | (intro _ _ _; (try dsimp -zeta only))
      | (intro _; (try dsimp -zeta only)) | split | with_reducible apply Evolves.with_test)

theorem execSmbSerial_evolves {s0 s : State} (hs : Evolves s0 s) :
    ∃ r_, execSmbSerial s = .next r_ ∧ Evolves s0 r_ := by
  refine ⟨_, rfl, ?_⟩
  repeat' (first
      | with_reducible assumption | with_reducible apply State.answer_evolves | (intro _ _ _; (try dsimp -zeta only))
      | (intro _; (try dsimp -zeta only)) | split | with_reducible apply Evolves.with_test)

/-! ### Machine/Regs.lean -/

theorem State.afterOf_evolves {s0 s : State} {x : Host.Outcome State Fault Refusal} (hs : Evolves s0 s)
    (hx : ∃ r_, x = .next r_ ∧ Evolves s0 r_) : Evolves s0 (State.afterOf s x) := by
  obtain ⟨r, rfl, h⟩ := hx
  exact h

theorem State.writeSq_evolves {s0 s : State} (n : Nat) (o : Nat) (v : Nat) (hs : Evolves s0 s) :
    Evolves s0 (State.writeSq n o v s) := by
  unfold State.writeSq
  repeat' (first
      | with_reducible assumption | with_reducible apply State.updSq_evolves
      | with_reducible apply State.countErr_evolves | with_reducible apply State.writeSqCfg_evolves
      | with_reducible apply State.writeSqDb_evolves | exact fun k_ => k_ | (intro k_; simpa [ErrState.Ok] using k_)
      | (intro _ _ _; (try dsimp -zeta only)) | (intro _; (try dsimp -zeta only)) | split
      | with_reducible apply Evolves.with_err)

theorem State.writeCq_evolves {s0 s : State} (n : Nat) (o : Nat) (v : Nat) (hs : Evolves s0 s) :
    Evolves s0 (State.writeCq n o v s) := by
  unfold State.writeCq
  repeat' (first
      | with_reducible assumption | with_reducible apply State.updCq_evolves
      | with_reducible apply State.countErr_evolves | with_reducible apply State.writeCqCfg_evolves
      | with_reducible apply State.writeCqDb_evolves | exact fun k_ => k_ | (intro k_; simpa [ErrState.Ok] using k_)
      | (intro _ _ _; (try dsimp -zeta only)) | (intro _; (try dsimp -zeta only)) | split
      | with_reducible apply Evolves.with_err)

theorem State.writeAtr_evolves {s0 s : State} (port : Nat) (o : Nat) (v : Nat) (hs : Evolves s0 s) :
    Evolves s0 (State.writeAtr port o v s) := by
  unfold State.writeAtr
  repeat' (first
      | with_reducible assumption | with_reducible apply State.writeSq_evolves
      | with_reducible apply State.writeCq_evolves | (intro _ _ _; (try dsimp -zeta only))
      | (intro _; (try dsimp -zeta only)) | split)

theorem State.schErr_evolves {s0 s : State} (hs : Evolves s0 s) :
    Evolves s0 (State.schErr s) := by
  unfold State.schErr
  repeat' (first
      | with_reducible assumption | exact fun k_ => k_ | (intro k_; simpa [Sched.Ok] using k_)
      | (intro _ _ _; (try dsimp -zeta only)) | (intro _; (try dsimp -zeta only)) | split
      | with_reducible apply Evolves.with_sched)

theorem State.writeClient_evolves {s0 s : State} (n : Nat) (v : Nat) (hs : Evolves s0 s) :
    Evolves s0 (State.writeClient n v s) := by
  unfold State.writeClient
  repeat' (first
      | with_reducible assumption | (have : Evolves _ t_ := h_; clear_value t_)
      | with_reducible apply State.updClient_evolves | with_reducible apply State.schErr_evolves
      | (intro _ _ _; (try dsimp -zeta only)) | (intro _; (try dsimp -zeta only))
      | (extract_lets +onlyGivenNames t_; (refine_lift have h_ : Evolves s0 t_ := ?_; ?_); rotate_left; dsimp -zeta only [t_])
      | (extract_lets +onlyGivenNames t_; (refine_lift have h_ : Evolves s0 t_.2 := ?_; ?_); rotate_left; dsimp -zeta only [t_])
      | (extract_lets +onlyGivenNames t_) | split)

theorem State.writeTirCfg_evolves {s0 s : State} (v : Nat) (hs : Evolves s0 s) :
    Evolves s0 (State.writeTirCfg v s) := by
  unfold State.writeTirCfg
  repeat' (first
      | with_reducible assumption | exact fun k_ => k_ | (intro k_; simpa [ErrState.Ok] using k_)
      | (intro k_; simpa [Tiers.Ok] using k_) | (intro _ _ _; (try dsimp -zeta only))
      | (intro _; (try dsimp -zeta only)) | split | with_reducible apply Evolves.with_err
      | with_reducible apply Evolves.with_tiers)

theorem State.writeShutdown_evolves {s0 s : State} (v : Nat) (hs : Evolves s0 s) :
    Evolves s0 (State.writeShutdown v s) := by
  unfold State.writeShutdown
  repeat' (first
      | with_reducible assumption | with_reducible apply State.askShutdown_evolves
      | with_reducible apply State.quiesce_evolves | (intro _ _ _; (try dsimp -zeta only))
      | (intro _; (try dsimp -zeta only)) | split)

theorem State.popRecord_evolves {s0 s : State} (hs : Evolves s0 s) : Evolves s0 (State.popRecord s) :=
  hs.with_err fun k => ErrState.markRead_ok k _

theorem State.clearGroup_evolves {s0 s : State} (n : Nat) (hs : Evolves s0 s) : Evolves s0 (State.clearGroup s n) :=
    by
  unfold State.clearGroup
  split
  · exact hs.with_atr fun k => ⟨k.1, k.2.1, List.length_replicate⟩
  · exact hs.with_link fun k => by simpa [LinkBlock.Ok] using k
  · exact hs.with_beacon id
  · exact hs.with_err id
  · exact hs.with_flash fun _ => List.length_replicate
  · exact hs.with_err id
  · exact hs.with_err id

theorem State.writeCtrClear_evolves {s0 s : State} (v : Nat) (hs : Evolves s0 s) :
    Evolves s0 (State.writeCtrClear v s) := by
  unfold State.writeCtrClear
  repeat' (first
      | with_reducible assumption | with_reducible apply State.clearGroup_evolves | with_reducible apply Evolves.foldl
      | (intro _ _ _; (try dsimp -zeta only)) | (intro _; (try dsimp -zeta only)) | split)

theorem State.writeHotBytes_evolves {s0 s : State} (v : Nat) (hs : Evolves s0 s) : Evolves s0
    (State.writeHotBytes v s) := by
  unfold State.writeHotBytes
  extract_lets n src g
  split
  · exact hs.with_gather id
  · exact hs.with_gather fun k => GatherEngine.evict_ok ⟨k.1, k.2.1, by simp only [g]; omega⟩

theorem State.writeMediaCmd_evolves {s0 s : State} (port : Nat) (v : Nat) (hs : Evolves s0 s) :
    Evolves s0 (State.writeMediaCmd port v s) := by
  unfold State.writeMediaCmd
  repeat' (first
      | with_reducible assumption | with_reducible apply State.updTst_evolves
      | with_reducible apply execMediaRead_evolves | with_reducible apply execMediaLend_evolves
      | with_reducible apply execMediaProgram_evolves | with_reducible apply execMediaErase_evolves
      | with_reducible apply execMediaReturn_evolves | with_reducible apply State.afterOf_evolves | exact fun k_ => k_
      | (intro k_; simpa [ErrState.Ok] using k_) | (intro _ _ _; (try dsimp -zeta only))
      | (intro _; (try dsimp -zeta only)) | split | with_reducible apply Evolves.with_err)

theorem State.writePwr_evolves {s0 s : State} (o : Nat) (v : Nat) (hs : Evolves s0 s) :
    Evolves s0 (State.writePwr o v s) := by
  unfold State.writePwr
  repeat' (first
      | with_reducible assumption | with_reducible apply State.updPower_evolves
      | with_reducible apply State.writeCap_evolves | with_reducible apply State.writeShutdown_evolves
      | exact fun k_ => k_ | (intro k_; simpa [Power.Ok] using k_) | (intro k_; dsimp only; split <;> exact k_)
      | (intro _ _ _; (try dsimp -zeta only)) | (intro _; (try dsimp -zeta only)) | split)

theorem State.writeTir_evolves {s0 s : State} (o v : Nat) (hs : Evolves s0 s) : Evolves s0 (State.writeTir o v s) :=
    by
  unfold State.writeTir
  split
  · exact State.writeTirCfg_evolves _ hs
  · split
    · exact hs.with_tiers id
    · split
      · split
        · rename_i h
          exact hs.with_tiers fun _ => by simpa [Tiers.Ok] using h
        · exact hs.with_tiers id
      · exact hs

theorem State.writeSch_evolves {s0 s : State} (o v : Nat) (hs : Evolves s0 s) : Evolves s0 (State.writeSch o v s) :=
    by
  unfold State.writeSch
  split
  · extract_lets b
    split
    · rename_i h
      simp only [Bool.and_eq_true, decide_eq_true_eq] at h
      exact hs.with_sched fun k => ⟨k.1, k.2.1, h.1, h.2, k.2.2.2.2⟩
    · exact State.schErr_evolves hs
  · split
    · exact hs.with_sched id
    · split
      · exact State.writeClient_evolves _ _ hs
      · exact hs

theorem State.writeGat_evolves {s0 s : State} (o v : Nat) (hs : Evolves s0 s) : Evolves s0 (State.writeGat o v s) :=
    by
  unfold State.writeGat
  split
  · split
    · exact hs.with_gather id
    · rename_i h
      have : bitsAt v 0 8 < 256 := Nat.mod_lt _ (by decide)
      exact hs.with_gather fun k => ⟨by simp only; omega, by simp only; omega, k.2.2⟩
  · split
    · exact State.writeHotBytes_evolves _ hs
    · split
      · exact hs.with_gather id
      · exact hs

theorem State.writeAtt_evolves {s0 s : State} (o v : Nat) (hs : Evolves s0 s) : Evolves s0 (State.writeAtt o v s) :=
    by
  unfold State.writeAtt
  split
  · extract_lets n
    split
    · rename_i h
      exact hs.with_attention fun _ => by simpa [Attention.Ok] using h
    · exact hs.with_attention id
  · split
    · exact hs.with_attention id
    · exact hs

theorem State.writeTst_evolves {s0 s : State} (port : Nat) (o : Nat) (n : Nat) (v : Nat) (hs : Evolves s0 s) :
    Evolves s0 (State.writeTst port o n v s) := by
  unfold State.writeTst
  repeat' (first
      | with_reducible assumption | with_reducible apply State.updTst_evolves
      | with_reducible apply State.writePulseCfg_evolves | with_reducible apply State.writeCtrClear_evolves
      | with_reducible apply State.writeMediaCmd_evolves | exact fun k_ => k_
      | (intro k_; simpa [ErrState.Ok] using k_) | (intro _ _ _; (try dsimp -zeta only))
      | (intro _; (try dsimp -zeta only)) | split | with_reducible apply Evolves.with_err)

theorem State.writeReg_evolves {s0 s : State} (port : Nat) (b : RegBlock) (o : Nat) (n : Nat) (v : Nat)
    (hs : Evolves s0 s) :
    Evolves s0 (State.writeReg port b o n v s) := by
  unfold State.writeReg
  repeat' (first
      | with_reducible assumption | with_reducible apply State.updBeacon_evolves
      | with_reducible apply State.writeBcnCfg_evolves | with_reducible apply State.setUpdateLock_evolves
      | with_reducible apply State.writeAtr_evolves | with_reducible apply State.popRecord_evolves
      | with_reducible apply State.writePwr_evolves | with_reducible apply State.writeTir_evolves
      | with_reducible apply State.writeSch_evolves | with_reducible apply State.writeGat_evolves
      | with_reducible apply State.writeAtt_evolves | with_reducible apply State.writeTst_evolves | exact fun k_ => k_
      | (intro k_; simpa [Beacon.Ok] using k_) | (intro k_; dsimp only; split <;> exact k_) | exact fun k_ => k_
      | (intro k_; simpa [ErrState.Ok] using k_) | (intro _ _ _; (try dsimp -zeta only))
      | (intro _; (try dsimp -zeta only)) | split | with_reducible apply Evolves.with_err)

theorem State.write32_evolves {s0 s : State} (port : Nat) (b : RegBlock) (i : Nat) (o : Nat) (v : Nat)
    (hs : Evolves s0 s) :
    Evolves s0 (State.write32 port b i o v s) := by
  unfold State.write32
  repeat' (first
      | with_reducible assumption | (have : Evolves _ t_ := h_; clear_value t_)
      | with_reducible apply State.writeReg_evolves | (intro _ _ _; (try dsimp -zeta only))
      | (intro _; (try dsimp -zeta only))
      | (extract_lets +onlyGivenNames t_; (refine_lift have h_ : Evolves s0 t_ := ?_; ?_); rotate_left; dsimp -zeta only [t_])
      | (extract_lets +onlyGivenNames t_; (refine_lift have h_ : Evolves s0 t_.2 := ?_; ?_); rotate_left; dsimp -zeta only [t_])
      | (extract_lets +onlyGivenNames t_) | split)

theorem State.regWrite_evolves {s0 s : State} (port : Nat) (o : Nat) (size : Nat) (v : Nat) (hs : Evolves s0 s) :
    Evolves s0 (State.regWrite port o size v s) := by
  unfold State.regWrite
  repeat' (first
      | with_reducible assumption | with_reducible apply State.writeReg_evolves
      | with_reducible apply State.write32_evolves | (intro _ _ _; (try dsimp -zeta only))
      | (intro _; (try dsimp -zeta only)) | split)

theorem State.cfgWrite_evolves {s0 s : State} (port : Nat) (o : Nat) (size : Nat) (v : Nat) (hs : Evolves s0 s) :
    Evolves s0 (State.cfgWrite port o size v s) := by
  unfold State.cfgWrite
  repeat' (first
      | with_reducible assumption | with_reducible apply State.updPort_evolves
      | with_reducible apply State.regWrite_evolves | (intro _ _ _; (try dsimp -zeta only))
      | (intro _; (try dsimp -zeta only)) | split)

theorem execRegisterWrite_evolves {s0 s : State} (port : Nat) (offset : Nat) (size : Nat) (value : Word64)
    (hs : Evolves s0 s) :
    ∃ r_, execRegisterWrite port offset size value s = .next r_ ∧ Evolves s0 r_ := by
  refine ⟨_, rfl, ?_⟩
  repeat' (first
      | with_reducible assumption | with_reducible apply State.cfgWrite_evolves
      | (intro _ _ _; (try dsimp -zeta only)) | (intro _; (try dsimp -zeta only)) | split)

theorem execClientEnable_evolves {s0 s : State} (port : Nat) (n : Nat) (value : Word64) (hs : Evolves s0 s) :
    ∃ r_, execClientEnable port n value s = .next r_ ∧ Evolves s0 r_ := by
  refine ⟨_, rfl, ?_⟩
  repeat' (first
      | with_reducible assumption | with_reducible apply State.writeClient_evolves
      | (intro _ _ _; (try dsimp -zeta only)) | (intro _; (try dsimp -zeta only)) | split)

theorem execClientDisable_evolves {s0 s : State} (port : Nat) (n : Nat) (value : Word64) (hs : Evolves s0 s) :
    ∃ r_, execClientDisable port n value s = .next r_ ∧ Evolves s0 r_ := by
  refine ⟨_, rfl, ?_⟩
  repeat' (first
      | with_reducible assumption | with_reducible apply State.writeClient_evolves
      | (intro _ _ _; (try dsimp -zeta only)) | (intro _; (try dsimp -zeta only)) | split)

theorem execTirCfg_evolves {s0 s : State} (port : Nat) (value : Word) (hs : Evolves s0 s) :
    ∃ r_, execTirCfg port value s = .next r_ ∧ Evolves s0 r_ := by
  refine ⟨_, rfl, ?_⟩
  repeat' (first
      | with_reducible assumption | with_reducible apply State.writeTirCfg_evolves
      | (intro _ _ _; (try dsimp -zeta only)) | (intro _; (try dsimp -zeta only)) | split)

theorem execPwrCap_evolves {s0 s : State} (port : Nat) (value : Word) (hs : Evolves s0 s) :
    ∃ r_, execPwrCap port value s = .next r_ ∧ Evolves s0 r_ := by
  refine ⟨_, rfl, ?_⟩
  repeat' (first
      | with_reducible assumption | with_reducible apply State.writeCap_evolves
      | (intro _ _ _; (try dsimp -zeta only)) | (intro _; (try dsimp -zeta only)) | split)

theorem execPwrShutdownGo_evolves {s0 s : State} (port : Nat) (hs : Evolves s0 s) :
    ∃ r_, execPwrShutdownGo port s = .next r_ ∧ Evolves s0 r_ := by
  refine ⟨_, rfl, ?_⟩
  repeat' (first
      | with_reducible assumption | with_reducible apply State.writeShutdown_evolves
      | (intro _ _ _; (try dsimp -zeta only)) | (intro _; (try dsimp -zeta only)) | split)

theorem execQuiesce_evolves {s0 s : State} (port : Nat) (hs : Evolves s0 s) :
    ∃ r_, execQuiesce port s = .next r_ ∧ Evolves s0 r_ := by
  refine ⟨_, rfl, ?_⟩
  repeat' (first
      | with_reducible assumption | with_reducible apply State.writeShutdown_evolves
      | (intro _ _ _; (try dsimp -zeta only)) | (intro _; (try dsimp -zeta only)) | split)

theorem execPop_evolves {s0 s : State} (port : Nat) (hs : Evolves s0 s) :
    ∃ r_, execPop port s = .next r_ ∧ Evolves s0 r_ := by
  refine ⟨_, rfl, ?_⟩
  repeat' (first
      | with_reducible assumption | with_reducible apply State.popRecord_evolves
      | (intro _ _ _; (try dsimp -zeta only)) | (intro _; (try dsimp -zeta only)) | split)

theorem execTstCtrClear_evolves {s0 s : State} (port : Nat) (value : Word) (hs : Evolves s0 s) :
    ∃ r_, execTstCtrClear port value s = .next r_ ∧ Evolves s0 r_ := by
  refine ⟨_, rfl, ?_⟩
  repeat' (first
      | with_reducible assumption | with_reducible apply State.writeCtrClear_evolves
      | (intro _ _ _; (try dsimp -zeta only)) | (intro _; (try dsimp -zeta only)) | split)

theorem execGatHotBytes_evolves {s0 s : State} (port : Nat) (value : Word) (hs : Evolves s0 s) :
    ∃ r_, execGatHotBytes port value s = .next r_ ∧ Evolves s0 r_ := by
  refine ⟨_, rfl, ?_⟩
  repeat' (first
      | with_reducible assumption | with_reducible apply State.writeHotBytes_evolves
      | (intro _ _ _; (try dsimp -zeta only)) | (intro _; (try dsimp -zeta only)) | split)

/-! ### Machine/Flit.lean -/

theorem State.linkFields_evolves {s0 s : State} (port : Nat) (f : Bytes) (hs : Evolves s0 s) :
    Evolves s0 (State.linkFields port f s) := by
  unfold State.linkFields
  repeat' (first
      | with_reducible assumption | with_reducible apply State.updPort_evolves
      | with_reducible apply State.renewRounds_evolves | with_reducible apply State.pumpRed_evolves
      | with_reducible apply State.settleHomes_evolves | (intro _ _ _; (try dsimp -zeta only))
      | (intro _; (try dsimp -zeta only)) | split)

theorem State.discardFlit_evolves {s0 s : State} (port : Nat) (hs : Evolves s0 s) :
    Evolves s0 (State.discardFlit port s) := by
  unfold State.discardFlit
  repeat' (first
      | with_reducible assumption | with_reducible apply State.updPort_evolves | (intro _ _ _; (try dsimp -zeta only))
      | (intro _; (try dsimp -zeta only)) | split)

theorem State.dropPacket_evolves {s0 s : State} (port : Nat) (hs : Evolves s0 s) :
    Evolves s0 (State.dropPacket port s) := by
  unfold State.dropPacket
  repeat' (first
      | with_reducible assumption | with_reducible apply State.updPort_evolves | (intro _ _ _; (try dsimp -zeta only))
      | (intro _; (try dsimp -zeta only)) | split)

theorem State.cfgRead_evolves {s0 s : State} (port : Nat) (tag : Nat) (o : Nat) (n : Nat) (hs : Evolves s0 s) :
    Evolves s0 (State.cfgRead port tag o n s) := by
  unfold State.cfgRead
  repeat' (first
      | with_reducible assumption | with_reducible apply State.send_evolves | (intro _ _ _; (try dsimp -zeta only))
      | (intro _; (try dsimp -zeta only)) | split)

theorem State.redArrives_evolves {s0 s : State} (port : Nat) (b : Bytes) (hs : Evolves s0 s) :
    Evolves s0 (State.redArrives port b s) := by
  unfold State.redArrives
  repeat' (first
      | with_reducible assumption | with_reducible apply State.arriveRed_evolves
      | with_reducible apply State.dropPacket_evolves | (intro _ _ _; (try dsimp -zeta only))
      | (intro _; (try dsimp -zeta only)) | split)

theorem State.takePacket_evolves {s0 s : State} (port : Nat) (b : Bytes) (hs : Evolves s0 s) :
    Evolves s0 (State.takePacket port b s) := by
  unfold State.takePacket
  repeat' (first
      | with_reducible assumption | (have : Evolves _ t_ := h_; clear_value t_)
      | with_reducible apply State.takeCpl_evolves | with_reducible apply State.cfgWrite_evolves
      | with_reducible apply State.dropPacket_evolves | with_reducible apply State.cfgRead_evolves
      | with_reducible apply State.redArrives_evolves | (intro _ _ _; (try dsimp -zeta only))
      | (intro _; (try dsimp -zeta only))
      | (extract_lets +onlyGivenNames t_; (refine_lift have h_ : Evolves s0 t_ := ?_; ?_); rotate_left; dsimp -zeta only [t_])
      | (extract_lets +onlyGivenNames t_; (refine_lift have h_ : Evolves s0 t_.2 := ?_; ?_); rotate_left; dsimp -zeta only [t_])
      | (extract_lets +onlyGivenNames t_) | split)

theorem State.takeSlots_evolves {s0 s : State} (port : Nat) (b : Bytes) (hs : Evolves s0 s) :
    Evolves s0 (State.takeSlots port b s) := by
  unfold State.takeSlots
  repeat' (first
      | with_reducible assumption | with_reducible apply State.updPort_evolves
      | with_reducible apply State.takePacket_evolves | with_reducible apply Evolves.foldl
      | (intro _ _ _; (try dsimp -zeta only)) | (intro _; (try dsimp -zeta only)) | split)

theorem State.flitBody_evolves {s0 s : State} (port : Nat) (f : Bytes) (hs : Evolves s0 s) :
    Evolves s0 (State.flitBody port f s) := by
  unfold State.flitBody
  repeat' (first
      | with_reducible assumption | with_reducible apply State.updPort_evolves
      | with_reducible apply State.discardFlit_evolves | with_reducible apply State.takeSlots_evolves
      | (intro _ _ _; (try dsimp -zeta only)) | (intro _; (try dsimp -zeta only)) | split)

theorem execFlitReceive_evolves {s0 s : State} (port : Nat) (flit : List Byte) (good : Bool) (hs : Evolves s0 s) :
    ∃ r_, execFlitReceive port flit good s = .next r_ ∧ Evolves s0 r_ := by
  refine ⟨_, rfl, ?_⟩
  repeat' (first
      | with_reducible assumption | with_reducible apply State.retrain_evolves
      | with_reducible apply State.replayFlits_evolves | with_reducible apply State.linkFields_evolves
      | with_reducible apply State.discardFlit_evolves | with_reducible apply State.flitBody_evolves
      | (intro _ _ _; (try dsimp -zeta only)) | (intro _; (try dsimp -zeta only)) | split)

/-! ### Machine/ObjectWrite.lean -/

theorem State.commitWrite_evolves {s0 s : State} (c : Slot) (o : Obj) (n : Nat) (ps : List (Nat × Nat × Nat))
    (hs : Evolves s0 s) :
    Evolves s0 (State.commitWrite c o n ps s) := by
  unfold State.commitWrite
  repeat' (first
      | with_reducible assumption | with_reducible apply State.fitSlc_evolves
      | with_reducible apply State.fail_evolves | with_reducible apply State.updObj_evolves
      | with_reducible apply State.commit_evolves | with_reducible apply State.ackWrite_evolves
      | (intro _ _ _; (try dsimp -zeta only)) | (intro _; (try dsimp -zeta only)) | split)

theorem State.applyWrite_evolves {s0 s : State} (c : Slot) (o : Obj) (n off : Nat) (hs : Evolves s0 s) :
    Evolves s0 (State.applyWrite c o n off s) := by
  unfold State.applyWrite
  extract_lets b ps t
  have ht : Evolves s0 t := by
    refine State.writeVersion_evolves _ _ _ _ ?_
    split
    · exact State.takeCredit_evolves _ hs
    · exact hs
  clear_value t
  split
  · exact State.commitWrite_evolves _ _ _ _ ht
  · exact State.ackWrite_evolves _ _ _ _ _ ht

theorem State.doObjectWrite_evolves {s0 s : State} (c : Slot) (hs : Evolves s0 s) :
    Evolves s0 (State.doObjectWrite c s) := by
  unfold State.doObjectWrite
  repeat' (first
      | with_reducible assumption | (have : Evolves _ t_ := h_; clear_value t_)
      | with_reducible apply State.setWork_evolves | with_reducible apply State.fail_evolves
      | with_reducible apply State.holdVersion_evolves | with_reducible apply State.newVersion_evolves
      | with_reducible apply State.applyWrite_evolves | (intro _ _ _; (try dsimp -zeta only))
      | (intro _; (try dsimp -zeta only))
      | (extract_lets +onlyGivenNames t_; (refine_lift have h_ : Evolves s0 t_ := ?_; ?_); rotate_left; dsimp -zeta only [t_])
      | (extract_lets +onlyGivenNames t_; (refine_lift have h_ : Evolves s0 t_.2 := ?_; ?_); rotate_left; dsimp -zeta only [t_])
      | (extract_lets +onlyGivenNames t_) | split)

theorem execObjectWrite_evolves {s0 s : State} (slot : Nat) (hs : Evolves s0 s) :
    ∃ r_, execObjectWrite slot s = .next r_ ∧ Evolves s0 r_ := by
  refine ⟨_, rfl, ?_⟩
  repeat' (first
      | with_reducible assumption | with_reducible apply State.runCmd_evolves
      | with_reducible apply State.doObjectWrite_evolves | (intro _ _ _; (try dsimp -zeta only))
      | (intro _; (try dsimp -zeta only)) | split)

/-! ### Machine/Validate.lean -/

theorem State.answerEntry_evolves {s0 s : State} (n : Nat) (e : Bytes) (order : Nat) (st : Status) (result : Nat)
    (flags : Nat) (keep : Bool) (hs : Evolves s0 s) :
    Evolves s0 (State.answerEntry n e order st result flags keep s) := by
  unfold State.answerEntry
  repeat' (first
      | with_reducible assumption | with_reducible apply State.countErr_evolves
      | with_reducible apply State.ready_evolves | (intro _ _ _; (try dsimp -zeta only))
      | (intro _; (try dsimp -zeta only)) | split)

theorem State.oldEntry_evolves {s0 s : State} (n : Nat) (e : Bytes) (order : Nat) (hs : Evolves s0 s) :
    Evolves s0 (State.oldEntry n e order s) := by
  unfold State.oldEntry
  repeat' (first
      | with_reducible assumption | (have : Evolves _ t_ := h_; clear_value t_)
      | with_reducible apply State.ready_evolves | with_reducible apply State.answerEntry_evolves
      | (intro k_; simpa +zetaDelta using k_) | (intro _ _ _; (try dsimp -zeta only))
      | (intro _; (try dsimp -zeta only))
      | (extract_lets +onlyGivenNames t_; (refine_lift have h_ : Evolves s0 t_ := ?_; ?_); rotate_left; dsimp -zeta only [t_])
      | (extract_lets +onlyGivenNames t_; (refine_lift have h_ : Evolves s0 t_.2 := ?_; ?_); rotate_left; dsimp -zeta only [t_])
      | (extract_lets +onlyGivenNames t_) | split | (clear_value *; split) | exact List.Subset.refl _
      | (simp +zetaDelta; done))

theorem State.wake_evolves {s0 s : State} (op : Nat) (hs : Evolves s0 s) :
    Evolves s0 (State.wake op s) := by
  unfold State.wake
  repeat' (first
      | with_reducible assumption | with_reducible apply State.updPower_evolves | exact fun k_ => k_
      | (intro k_; simpa [Power.Ok] using k_) | (intro k_; dsimp only; split <;> exact k_)
      | (intro _ _ _; (try dsimp -zeta only)) | (intro _; (try dsimp -zeta only)) | split)

theorem State.takeRound_evolves {s0 s : State} (e : Bytes) (hs : Evolves s0 s) :
    Evolves s0 (State.takeRound e s) := by
  unfold State.takeRound
  repeat' (first
      | with_reducible assumption | with_reducible apply State.updDom_evolves | (intro _ _ _; (try dsimp -zeta only))
      | (intro _; (try dsimp -zeta only)) | split)

theorem State.accept_evolves {s0 s : State} (n : Nat) (order : Nat) (e : Bytes) (sp : OpSpec) (hs : Evolves s0 s) :
    Evolves s0 (State.accept n order e sp s) := by
  unfold State.accept
  repeat' (first
      | with_reducible assumption | with_reducible apply State.pinAll_evolves
      | with_reducible apply State.handOver_evolves | with_reducible apply State.admitRun_evolves
      | with_reducible apply State.wake_evolves | with_reducible apply State.takeRound_evolves | exact fun k_ => k_
      | (intro k_; simpa [Atrium.Ok] using k_) | (intro _ _ _; (try dsimp -zeta only))
      | (intro _; (try dsimp -zeta only)) | split | with_reducible apply Evolves.with_atr)

theorem State.newEntry_evolves {s0 s : State} (n : Nat) (e : Bytes) (order : Nat) (refused : Bool) (hs : Evolves s0 s)
    :
    Evolves s0 (State.newEntry n e order refused s) := by
  unfold State.newEntry
  repeat' (first
      | with_reducible assumption | with_reducible apply State.updSq_evolves
      | with_reducible apply State.answerEntry_evolves | with_reducible apply State.accept_evolves
      | (intro _ _ _; (try dsimp -zeta only)) | (intro _; (try dsimp -zeta only)) | split)

theorem State.learn_evolves {s0 s : State} (reads : List (Nat × List Byte)) (hs : Evolves s0 s) :
    Evolves s0 (State.learn reads s) := by
  refine hs.with_hostMem fun k => ?_
  generalize s.hostMem = m at k
  clear hs
  induction reads generalizing m with
  | nil => exact k
  | cons r reads ih => exact ih _ (memWrite_wf k _ _)

theorem execFetch_evolves {s0 s : State} (sq : Nat) (reads : List (Nat × List Byte)) (sglRefused : Bool)
    (hs : Evolves s0 s) :
    ∃ r_, execFetch sq reads sglRefused s = .next r_ ∧ Evolves s0 r_ := by
  refine ⟨_, rfl, ?_⟩
  repeat' (first
      | with_reducible assumption | with_reducible apply State.updSq_evolves
      | with_reducible apply State.oldEntry_evolves | with_reducible apply State.newEntry_evolves
      | with_reducible apply State.learn_evolves | exact fun k_ => k_ | (intro k_; simpa [Atrium.Ok] using k_)
      | (intro _ _ _; (try dsimp -zeta only)) | (intro _; (try dsimp -zeta only)) | split
      | with_reducible apply Evolves.with_atr)

/-! ### Machine/Resume.lean -/

theorem State.goOn_evolves {s0 s : State} (c : Slot) (hs : Evolves s0 s) :
    Evolves s0 (State.goOn c s) := by
  unfold State.goOn
  repeat' (first
      | with_reducible assumption | with_reducible apply State.doDurability_evolves
      | with_reducible apply State.doBlockWrite_evolves | with_reducible apply State.doBlockAtomic_evolves
      | with_reducible apply State.doBlockTrim_evolves | with_reducible apply State.doAccession_evolves
      | with_reducible apply State.doProgramLoad_evolves | with_reducible apply State.goOnMerge_evolves
      | with_reducible apply State.doFolioCreate_evolves | with_reducible apply State.appendTokens_evolves
      | with_reducible apply State.truncate_evolves | with_reducible apply State.doResidualCreate_evolves
      | with_reducible apply State.doObjectWrite_evolves | (intro _ _ _; (try dsimp -zeta only))
      | (intro _; (try dsimp -zeta only)) | split)

theorem State.resumeHeld_evolves {s0 s : State} (hs : Evolves s0 s) :
    Evolves s0 (State.resumeHeld s) := by
  unfold State.resumeHeld
  repeat' (first
      | with_reducible assumption | with_reducible apply State.endRound_evolves
      | with_reducible apply State.goOn_evolves | with_reducible apply Evolves.foldl
      | (intro _ _ _; (try dsimp -zeta only)) | (intro _; (try dsimp -zeta only)) | split)

theorem State.afterWait_evolves {s0 s : State} (c : Slot) (w : FlushWork) (hs : Evolves s0 s) :
    Evolves s0 (State.afterWait c w s) := by
  unfold State.afterWait
  repeat' (first
      | with_reducible assumption | with_reducible apply State.finish_evolves
      | with_reducible apply State.journal_evolves | with_reducible apply State.accessionDone_evolves
      | with_reducible apply State.roundStep_evolves
      | refine State.folioHeader_evolves_of (by with_reducible assumption) ?_ | (intro _ _ _; (try dsimp -zeta only))
      | (intro _; (try dsimp -zeta only)) | split)

theorem State.pruneFlushes_evolves {s0 s : State} (hs : Evolves s0 s) :
    Evolves s0 (State.pruneFlushes s) := by
  unfold State.pruneFlushes
  repeat' (first
      | with_reducible assumption | with_reducible apply State.updFlushes_evolves
      | (intro _ _ _; (try dsimp -zeta only)) | (intro _; (try dsimp -zeta only)) | split)

theorem State.finishFlushes_evolves {s0 s : State} (hs : Evolves s0 s) :
    Evolves s0 (State.finishFlushes s) := by
  unfold State.finishFlushes
  repeat' (first
      | with_reducible assumption | with_reducible apply State.afterWait_evolves
      | with_reducible apply State.pruneFlushes_evolves | with_reducible apply Evolves.foldl
      | (intro _ _ _; (try dsimp -zeta only)) | (intro _; (try dsimp -zeta only)) | split)

theorem State.goOnAll_evolves {s0 s : State} (hs : Evolves s0 s) :
    Evolves s0 (State.goOnAll s) := by
  unfold State.goOnAll
  repeat' (first
      | with_reducible assumption | with_reducible apply State.finishListed_evolves
      | with_reducible apply State.tryShutdown_evolves | with_reducible apply State.resumeHeld_evolves
      | with_reducible apply State.finishFlushes_evolves | (intro _ _ _; (try dsimp -zeta only))
      | (intro _; (try dsimp -zeta only)) | split)

theorem execWritebackEnd_evolves {s0 s : State} (count : Nat) (hs : Evolves s0 s) :
    ∃ r_, execWritebackEnd count s = .next r_ ∧ Evolves s0 r_ := by
  refine ⟨_, rfl, ?_⟩
  repeat' (first
      | with_reducible assumption | with_reducible apply State.noteProtection_evolves
      | with_reducible apply State.throttle_evolves | with_reducible apply State.retireData_evolves
      | with_reducible apply State.issueStores_evolves | with_reducible apply State.reclaimForeground_evolves
      | with_reducible apply State.migrateFull_evolves | with_reducible apply State.tryShutdown_evolves
      | with_reducible apply State.resumeHeld_evolves | with_reducible apply State.finishFlushes_evolves
      | (intro _ _ _; (try dsimp -zeta only)) | (intro _; (try dsimp -zeta only)) | split)

theorem execMapPageJournal_evolves {s0 s : State} (hs : Evolves s0 s) :
    ∃ r_, execMapPageJournal s = .next r_ ∧ Evolves s0 r_ := by
  refine ⟨_, rfl, ?_⟩
  repeat' (first
      | with_reducible assumption | with_reducible apply State.storeMaps_evolves
      | with_reducible apply State.serveFlash_evolves | with_reducible apply State.goOnAll_evolves
      | (intro _ _ _; (try dsimp -zeta only)) | (intro _; (try dsimp -zeta only)) | split)

theorem State.afterReads_evolves {s0 s : State} (c : Slot) (hs : Evolves s0 s) :
    Evolves s0 (State.afterReads c s) := by
  unfold State.afterReads
  repeat' (first
      | with_reducible assumption | with_reducible apply State.updSlot_evolves
      | with_reducible apply State.endObjectRead_evolves | with_reducible apply State.endFolioReads_evolves
      | (intro _ _ _; (try dsimp -zeta only)) | (intro _; (try dsimp -zeta only)) | split)

theorem State.serveReads_evolves {s0 s : State} (hs : Evolves s0 s) :
    Evolves s0 (State.serveReads s) := by
  unfold State.serveReads
  repeat' (first
      | with_reducible assumption | with_reducible apply State.pumpFetch_evolves
      | with_reducible apply State.afterReads_evolves | with_reducible apply Evolves.foldl
      | (intro _ _ _; (try dsimp -zeta only)) | (intro _; (try dsimp -zeta only)) | split)

theorem execDieReadEnd_evolves {s0 s : State} (d : Die) (stages : List Nat) (hs : Evolves s0 s) :
    ∃ r_, execDieReadEnd d stages s = .next r_ ∧ Evolves s0 r_ := by
  refine ⟨_, rfl, ?_⟩
  repeat' (first
      | with_reducible assumption | with_reducible apply State.updEunit_evolves
      | with_reducible apply State.updChannel_evolves | with_reducible apply State.pumpFlash_evolves
      | with_reducible apply State.endOp_evolves | with_reducible apply State.markUrgent_evolves
      | with_reducible apply State.serveFlash_evolves | with_reducible apply State.relocateOnce_evolves
      | with_reducible apply State.objectRead_evolves | with_reducible apply State.commandRead_evolves
      | with_reducible apply State.blankCheckEnd_evolves | with_reducible apply State.refuseQueued_evolves
      | with_reducible apply State.scanRead_evolves | with_reducible apply State.rawRead_evolves
      | with_reducible apply State.serveReads_evolves | (intro _ _ _; (try dsimp -zeta only))
      | (intro _; (try dsimp -zeta only)) | split)

theorem execDieProgramEnd_evolves {s0 s : State} (d : Die) (good : Bool) (hs : Evolves s0 s) :
    ∃ r_, execDieProgramEnd d good s = .next r_ ∧ Evolves s0 r_ := by
  refine ⟨_, rfl, ?_⟩
  repeat' (first
      | with_reducible assumption | with_reducible apply State.pumpFlash_evolves
      | with_reducible apply State.endOp_evolves | with_reducible apply State.markUrgent_evolves
      | with_reducible apply State.noteProtection_evolves | with_reducible apply State.throttle_evolves
      | with_reducible apply State.serveFlash_evolves | with_reducible apply State.refuseQueued_evolves
      | with_reducible apply State.programPass_evolves | with_reducible apply State.programFail_evolves
      | with_reducible apply State.goOnAll_evolves | with_reducible apply State.serveReads_evolves
      | (intro _ _ _; (try dsimp -zeta only)) | (intro _; (try dsimp -zeta only)) | split)

theorem execCompletionPost_evolves {s0 s : State} (cq : Nat) (hs : Evolves s0 s) :
    ∃ r_, execCompletionPost cq s = .next r_ ∧ Evolves s0 r_ := by
  refine ⟨_, rfl, ?_⟩
  repeat' (first
      | with_reducible assumption | with_reducible apply State.post_evolves
      | with_reducible apply State.tryShutdown_evolves | (intro _ _ _; (try dsimp -zeta only))
      | (intro _; (try dsimp -zeta only)) | split)

end Sys2Proof.Machine
end

