-- ==== Sys2Proof/WellFormed.lean ====
section
/-! DEFINITION. Which commands are well formed: every operand within the range the spec gives what it names. A command that is not
stands for nothing that can happen at the block; exec is total on it all the same. -/
namespace Sys2Proof
open Sys2Proof.Machine

/-- A thread of a job: 68 clusters at most, 64 threads each (R11, R131). -/
def Thr.wf (h : Thr) : Bool := h.cluster < 68 && h.thread < 64

/-- An engine of a job: four to a cluster (R106). -/
def Eng.wf (e : Eng) : Bool := e.cluster < 68 && e.engine < 4

/-- A die: 64 channels of at most 16 dies (R11, Table 12-2). -/
def Die.wf (d : Die) : Bool := d.channel < 64 && d.die < 16

/-- A link port (R394). -/
def portWf (p : Nat) : Bool := p < 2

/-- A ring or a client (R39, R157). -/
def numWf (n : Nat) : Bool := n < 256

/-- A unit of a kind: the six kinds of Table 1-9 and the units each can have (R11, R13). -/
def unitWf (kind phys : Nat) : Bool :=
  match kind with
  | 0 => phys < 68
  | 1 => phys < 14
  | 2 => phys < 64
  | 3 => phys < 12
  | 4 => phys < 2
  | 5 => phys < 1
  | _ => false

/-- A parity path: seven interfaces of two lane groups (Table 1-3), or the path into a unit. -/
def Path.wf : Path → Bool
  | .d2d i g => i < 7 && g < 2
  | .unit k p => unitWf k p

/-- Stage codes of the codewords of a read: 0 to 3 (R319, Table 22-11). -/
def stagesWf (l : List Nat) : Bool := l.length ≤ 16 && l.all (· < 4)

/-- A parameter exchange: width 4 or 2, a credit count for each of the seven virtual channels (Table 15-2, R404). -/
def LinkParams.wf (p : LinkParams) : Bool := (p.width = 4 || p.width = 2) && p.credits.length = 7

/-- A reduction packet: KIND 0 to 2, at most 256 entries, fields in their widths (Table 11-5). -/
def RedPacket.wf (p : RedPacket) : Bool :=
  p.kind < 3 && p.entries.length ≤ 256 && p.tag < 65536 && p.sender < 65536 && p.pktIndex < 65536 && p.pktCount < 65536
    && p.round < 2 ^ 32 && p.chunk < 2 ^ 32

/-- A BEACON flit's slots: a 64-bit tick and a 16-bit sequence number (Table 15-7). -/
def BeaconFlit.wf (b : BeaconFlit) : Bool := b.tick < 2 ^ 64 && b.bseq < 65536

/-- The boundary register has 3,191 cells (R525). -/
def cellsWf (l : List Bool) : Bool := l.length = 3191

/-- A fuse map names clusters 0 to 67, docent cores 0 to 13, four key slots, and 256 rollback bits (R11, R455, R500). -/
def FuseMap.wf (m : FuseMap) : Bool :=
  m.badClusters.all (· < 68) && m.spareClusters.all (· < 68) && m.badDocents.all (· < 14) && m.spareDocents.all (· < 14)
    && m.builtClusters ≤ 68 && m.keyDigests.length = 4 && m.keyRevoke.all (· < 4) && m.rollbackBits.all (· < 256)

/-- An identity row copy has 4,096 bytes (R337). -/
def IdentityCopy.wf (c : IdentityCopy) : Bool := c.row.length = 4096

def DieRows.wf (r : DieRows) : Bool := r.copies.length ≤ 4 && r.copies.all IdentityCopy.wf && r.bad.all fun x => x.1.wf && x.2 < 1848

/-- A unit has at most 2,304 pages of 16 codewords (R316, R319). -/
def StageCounts.wf (c : StageCounts) : Bool := c.stage2 + c.stage3 + c.failed ≤ 36864

/-- The word a thread instruction stands for (Table 5-2, Table 5-3); none for any other command. -/
def Instr.word? : Instr → Option Nat
  | .add _ f => some (rWord 0x01 0 f)
  | .sub _ f => some (rWord 0x01 1 f)
  | .and _ f => some (rWord 0x01 2 f)
  | .or _ f => some (rWord 0x01 3 f)
  | .xor _ f => some (rWord 0x01 4 f)
  | .sll _ f => some (rWord 0x01 5 f)
  | .srl _ f => some (rWord 0x01 6 f)
  | .sra _ f => some (rWord 0x01 7 f)
  | .slt _ f => some (rWord 0x01 8 f)
  | .sltu _ f => some (rWord 0x01 9 f)
  | .min _ f => some (rWord 0x01 10 f)
  | .max _ f => some (rWord 0x01 11 f)
  | .minu _ f => some (rWord 0x01 12 f)
  | .maxu _ f => some (rWord 0x01 13 f)
  | .mul _ f => some (rWord 0x01 14 f)
  | .mulhu _ f => some (rWord 0x01 15 f)
  | .addi _ f => some (iWord 0x02 f)
  | .andi _ f => some (iWord 0x03 f)
  | .ori _ f => some (iWord 0x04 f)
  | .xori _ f => some (iWord 0x05 f)
  | .shi _ f => some (iWord 0x06 f)
  | .lui _ f => some (uWord 0x07 f)
  | .fadd _ f => some (rWord 0x08 0 f)
  | .fsub _ f => some (rWord 0x08 1 f)
  | .fmul _ f => some (rWord 0x08 2 f)
  | .fma _ f => some (rWord 0x08 3 f)
  | .fmin _ f => some (rWord 0x08 4 f)
  | .fmax _ f => some (rWord 0x08 5 f)
  | .fabs _ f => some (rWord 0x08 6 f)
  | .fneg _ f => some (rWord 0x08 7 f)
  | .fcvtSW _ f => some (rWord 0x08 8 f)
  | .fcvtWS _ f => some (rWord 0x08 9 f)
  | .fexp2 _ f => some (rWord 0x08 10 f)
  | .flog2 _ f => some (rWord 0x08 11 f)
  | .frcp _ f => some (rWord 0x08 12 f)
  | .frsq _ f => some (rWord 0x08 13 f)
  | .badd2 _ f => some (rWord 0x09 0 f)
  | .bmul2 _ f => some (rWord 0x09 1 f)
  | .bfma2 _ f => some (rWord 0x09 2 f)
  | .bmax2 _ f => some (rWord 0x09 3 f)
  | .bpack _ f => some (rWord 0x09 4 f)
  | .blo _ f => some (rWord 0x09 5 f)
  | .bhi _ f => some (rWord 0x09 6 f)
  | .eq _ f => some (rWord 0x0A 0 f)
  | .ne _ f => some (rWord 0x0A 1 f)
  | .lt _ f => some (rWord 0x0A 2 f)
  | .ltu _ f => some (rWord 0x0A 3 f)
  | .ge _ f => some (rWord 0x0A 4 f)
  | .geu _ f => some (rWord 0x0A 5 f)
  | .feq _ f => some (rWord 0x0A 6 f)
  | .flt _ f => some (rWord 0x0A 7 f)
  | .fle _ f => some (rWord 0x0A 8 f)
  | .pand _ f => some (rWord 0x0B 0 f)
  | .por _ f => some (rWord 0x0B 1 f)
  | .pxor _ f => some (rWord 0x0B 2 f)
  | .pnot _ f => some (rWord 0x0B 3 f)
  | .ptos _ f => some (rWord 0x0B 4 f)
  | .stop _ f => some (rWord 0x0B 5 f)
  | .ldb _ f => some (iWord 0x10 f)
  | .ldh _ f => some (iWord 0x11 f)
  | .ldw _ f => some (iWord 0x12 f)
  | .ldq _ f => some (iWord 0x13 f)
  | .stb _ f => some (iWord 0x14 f)
  | .sth _ f => some (iWord 0x15 f)
  | .stw _ f => some (iWord 0x16 f)
  | .stq _ f => some (iWord 0x17 f)
  | .br _ f => some (bWord f)
  | .jal _ f => some (uWord 0x21 f)
  | .jr _ f => some (rWord 0x22 0 f)
  | .exit _ f => some (rWord 0x22 1 f)
  | .xfer _ f => some (sWord 0x28 0 f)
  | .ldin _ f => some (sWord 0x28 1 f)
  | .wstr _ f => some (sWord 0x28 2 f)
  | .pass _ f => some (sWord 0x29 0 f)
  | .drain _ f => some (sWord 0x29 1 f)
  | .accld _ f => some (sWord 0x29 2 f)
  | .discard _ f => some (sWord 0x29 3 f)
  | .signal _ f => some (sWord 0x2A 0 f)
  | .wait _ f => some (sWord 0x2A 1 f)
  | .set _ f => some (sWord 0x2A 2 f)
  | .read _ f => some (sWord 0x2A 3 f)
  | .pause _ index => some (pWord index)
  | .tid _ f => some (rWord 0x2C 0 f)
  | .cid _ f => some (rWord 0x2C 1 f)
  | .ncl _ f => some (rWord 0x2C 2 f)
  | .flags _ f => some (rWord 0x2C 3 f)
  | .trap _ f => some (rWord 0x2C 4 f)
  | .btime _ f => some (rWord 0x2C 5 f)
  | .wide _ f => some (rWord 0x2C 6 f)
  | .unitClose _ | .unitReturn _ | .unitQuery _ | .faultRead _ | .identityRead _ | .attest _ | .fwStage _ 
  | .fwActivate _ | .fwWriteEnd _ | .rollbackAdvance _ _ | .measureRead _ | .blockRead _ | .blockWrite _ 
  | .blockAtomic _ | .blockFlush _ | .blockTrim _ | .selfTest _ | .selfTestStep _ _ _ | .objectCreate _ | .objectWrite _ 
  | .objectRead _ | .objectMove _ | .objectRetire _ | .objectQuery _ | .objectDurability _ | .objectFlush _ 
  | .programLoad _ | .jobRun _ | .indexCreate _ | .accession _ | .searchD _ | .searchX _ | .accessionMerge _ 
  | .mergeCommit _ | .kernelLoad _ | .indexQuery _ | .tableCreate _ | .gather _ | .gatherStepEnd _ | .gatherPrefetch _ 
  | .tableQuery _ | .hotDecay | .prefetchProtectExpiry | .folioCreate _ | .folioAppend _ | .folioAttend _ 
  | .folioReload _ | .folioTruncate _ | .domainSet _ | .domainClear _ | .residualCreate _ | .reduce _ | .roundStart _ 
  | .startTick _ | .reductionPacket _ _ | .reductionStall _ | .domainQuery _ | .machineTrap _ _ | .groupStaged _ 
  | .passEnd _ | .drainEnd _ _ | .accldEnd _ _ | .loadEnd _ | .xferEnd _ _ | .streamEnd _ _ | .pausePointTaken _ _ 
  | .placementMoveEnd _ | .jobStart _ | .jobEnd _ _ | .postCharge _ | .sliceEnd _ | .sliceWatchdog _ _ 
  | .clusterWaitTimeout _ | .jobDeadline _ | .fetch _ _ _ | .completionPost _ | .notifyTimeout _ | .lockWaitDeadline _ 
  | .sqEnable _ _ _ | .sqDisable _ _ _ | .cqEnable _ _ _ | .cqDisable _ _ _ | .atrSqDb _ _ _ | .atrCqDb _ _ _ 
  | .clientEnable _ _ _ | .clientDisable _ _ _ | .tirCfg _ _ | .bcnCfg _ _ | .pwrCap _ _ | .pwrShutdownGo _ | .quiesce _ 
  | .updateLock _ | .pop _ | .tstPulseCfg _ _ | .tstCtrClear _ _ | .gatHotBytes _ _ | .mediaRead _ | .mediaLend _ 
  | .mediaProgram _ | .mediaErase _ | .mediaReturn _ | .registerWrite _ _ _ _ | .partnerDetected _ | .trainingEnd _ _ 
  | .trainingTimeout _ | .portRetry | .flitReceive _ _ _ | .flitLockLoss _ | .ackTimeout _ | .retrainEnd _ _ 
  | .creditStarvation _ | .cpl _ _ _ _ _ _ | .beacon _ _ | .echo | .echoReturn _ _ _ | .auxTimeFrame _ _ 
  | .beaconHoldover | .beaconDegraded | .beaconSourceCheck _ | .testPulse | .powerGood _ _ | .fuseLoadEnd _ _ 
  | .configLoadEnd _ _ _ | .sramFillEnd _ _ _ _ | .dramFillEnd _ _ | .mountEnd _ _ _ _ _ | .holdupMeasure 
  | .holdupMeasureEnd _ _ _ | .powerFailure _ | .inputToleranceExpiry _ | .inputSwitchClose _ | .matedN _ | .resetN 
  | .shdnReqN | .aonLoss | .duskFlush | .duskFlushEnd _ | .thermalSample _ _ _ | .governorWindow _ _ _ _ _ 
  | .writebackAge | .writebackEnd _ | .promoteWaitExpiry _ | .dieReadEnd _ _ | .dieProgramEnd _ _ | .dieEraseEnd _ _ 
  | .journalDoneDurable | .mapPageJournal | .verifyAfterClose _ _ _ | .backgroundWindow | .transportParityError _ 
  | .channelHalt _ _ | .lineRecoveryEnd _ _ _ _ | .docentWatchdog _ | .drainComplete _ _ | .returnSelfTestEnd _ _ _ 
  | .tapReset | .extest _ | .idcode | .samplePreload _ _ | .clamp | .highz | .extestPulse _ | .extestTrain _ 
  | .bootStatus | .bypass | .smbPowerState | .smbBootStatus | .smbInputVoltage | .smbInputCurrent | .smbInputPower 
  | .smbHoldupEnergy | .smbComputeTemp | .smbFlashTemp | .smbDramTemp | .smbDuskBudget | .smbDirtyDurable 
  | .smbUnreadFaults | .smbSerial | .docentCoreFault _ | .engineParityError _ | .dieSuspendEnd _ | .signatureEnd => none

/-- The operands of a command lie in the ranges the spec gives what they name; the word of a thread instruction is a defined one with
its reserved fields zero (R136, R137). -/
def Instr.wf : Instr → Bool
  | .rollbackAdvance _ stuck => stuck.all (· < 256)
  | .startTick domain => domain < 4
  | .reductionPacket vc p => 3 ≤ vc && vc ≤ 6 && p.wf
  | .reductionStall domain => domain < 4
  | .add h f => h.wf && wordOk (rWord 0x01 0 f)
  | .sub h f => h.wf && wordOk (rWord 0x01 1 f)
  | .and h f => h.wf && wordOk (rWord 0x01 2 f)
  | .or h f => h.wf && wordOk (rWord 0x01 3 f)
  | .xor h f => h.wf && wordOk (rWord 0x01 4 f)
  | .sll h f => h.wf && wordOk (rWord 0x01 5 f)
  | .srl h f => h.wf && wordOk (rWord 0x01 6 f)
  | .sra h f => h.wf && wordOk (rWord 0x01 7 f)
  | .slt h f => h.wf && wordOk (rWord 0x01 8 f)
  | .sltu h f => h.wf && wordOk (rWord 0x01 9 f)
  | .min h f => h.wf && wordOk (rWord 0x01 10 f)
  | .max h f => h.wf && wordOk (rWord 0x01 11 f)
  | .minu h f => h.wf && wordOk (rWord 0x01 12 f)
  | .maxu h f => h.wf && wordOk (rWord 0x01 13 f)
  | .mul h f => h.wf && wordOk (rWord 0x01 14 f)
  | .mulhu h f => h.wf && wordOk (rWord 0x01 15 f)
  | .addi h f => h.wf && wordOk (iWord 0x02 f)
  | .andi h f => h.wf && wordOk (iWord 0x03 f)
  | .ori h f => h.wf && wordOk (iWord 0x04 f)
  | .xori h f => h.wf && wordOk (iWord 0x05 f)
  | .shi h f => h.wf && wordOk (iWord 0x06 f)
  | .lui h f => h.wf && wordOk (uWord 0x07 f)
  | .fadd h f => h.wf && wordOk (rWord 0x08 0 f)
  | .fsub h f => h.wf && wordOk (rWord 0x08 1 f)
  | .fmul h f => h.wf && wordOk (rWord 0x08 2 f)
  | .fma h f => h.wf && wordOk (rWord 0x08 3 f)
  | .fmin h f => h.wf && wordOk (rWord 0x08 4 f)
  | .fmax h f => h.wf && wordOk (rWord 0x08 5 f)
  | .fabs h f => h.wf && wordOk (rWord 0x08 6 f)
  | .fneg h f => h.wf && wordOk (rWord 0x08 7 f)
  | .fcvtSW h f => h.wf && wordOk (rWord 0x08 8 f)
  | .fcvtWS h f => h.wf && wordOk (rWord 0x08 9 f)
  | .fexp2 h f => h.wf && wordOk (rWord 0x08 10 f)
  | .flog2 h f => h.wf && wordOk (rWord 0x08 11 f)
  | .frcp h f => h.wf && wordOk (rWord 0x08 12 f)
  | .frsq h f => h.wf && wordOk (rWord 0x08 13 f)
  | .badd2 h f => h.wf && wordOk (rWord 0x09 0 f)
  | .bmul2 h f => h.wf && wordOk (rWord 0x09 1 f)
  | .bfma2 h f => h.wf && wordOk (rWord 0x09 2 f)
  | .bmax2 h f => h.wf && wordOk (rWord 0x09 3 f)
  | .bpack h f => h.wf && wordOk (rWord 0x09 4 f)
  | .blo h f => h.wf && wordOk (rWord 0x09 5 f)
  | .bhi h f => h.wf && wordOk (rWord 0x09 6 f)
  | .eq h f => h.wf && wordOk (rWord 0x0A 0 f)
  | .ne h f => h.wf && wordOk (rWord 0x0A 1 f)
  | .lt h f => h.wf && wordOk (rWord 0x0A 2 f)
  | .ltu h f => h.wf && wordOk (rWord 0x0A 3 f)
  | .ge h f => h.wf && wordOk (rWord 0x0A 4 f)
  | .geu h f => h.wf && wordOk (rWord 0x0A 5 f)
  | .feq h f => h.wf && wordOk (rWord 0x0A 6 f)
  | .flt h f => h.wf && wordOk (rWord 0x0A 7 f)
  | .fle h f => h.wf && wordOk (rWord 0x0A 8 f)
  | .pand h f => h.wf && wordOk (rWord 0x0B 0 f)
  | .por h f => h.wf && wordOk (rWord 0x0B 1 f)
  | .pxor h f => h.wf && wordOk (rWord 0x0B 2 f)
  | .pnot h f => h.wf && wordOk (rWord 0x0B 3 f)
  | .ptos h f => h.wf && wordOk (rWord 0x0B 4 f)
  | .stop h f => h.wf && wordOk (rWord 0x0B 5 f)
  | .ldb h f => h.wf && wordOk (iWord 0x10 f)
  | .ldh h f => h.wf && wordOk (iWord 0x11 f)
  | .ldw h f => h.wf && wordOk (iWord 0x12 f)
  | .ldq h f => h.wf && wordOk (iWord 0x13 f)
  | .stb h f => h.wf && wordOk (iWord 0x14 f)
  | .sth h f => h.wf && wordOk (iWord 0x15 f)
  | .stw h f => h.wf && wordOk (iWord 0x16 f)
  | .stq h f => h.wf && wordOk (iWord 0x17 f)
  | .br h f => h.wf && wordOk (bWord f)
  | .jal h f => h.wf && wordOk (uWord 0x21 f)
  | .jr h f => h.wf && wordOk (rWord 0x22 0 f)
  | .exit h f => h.wf && wordOk (rWord 0x22 1 f)
  | .xfer h f => h.wf && wordOk (sWord 0x28 0 f)
  | .ldin h f => h.wf && wordOk (sWord 0x28 1 f)
  | .wstr h f => h.wf && wordOk (sWord 0x28 2 f)
  | .pass h f => h.wf && wordOk (sWord 0x29 0 f)
  | .drain h f => h.wf && wordOk (sWord 0x29 1 f)
  | .accld h f => h.wf && wordOk (sWord 0x29 2 f)
  | .discard h f => h.wf && wordOk (sWord 0x29 3 f)
  | .signal h f => h.wf && wordOk (sWord 0x2A 0 f)
  | .wait h f => h.wf && wordOk (sWord 0x2A 1 f)
  | .set h f => h.wf && wordOk (sWord 0x2A 2 f)
  | .read h f => h.wf && wordOk (sWord 0x2A 3 f)
  | .pause h index => h.wf && wordOk (pWord index)
  | .tid h f => h.wf && wordOk (rWord 0x2C 0 f)
  | .cid h f => h.wf && wordOk (rWord 0x2C 1 f)
  | .ncl h f => h.wf && wordOk (rWord 0x2C 2 f)
  | .flags h f => h.wf && wordOk (rWord 0x2C 3 f)
  | .trap h f => h.wf && wordOk (rWord 0x2C 4 f)
  | .btime h f => h.wf && wordOk (rWord 0x2C 5 f)
  | .wide h f => h.wf && wordOk (rWord 0x2C 6 f)
  | .machineTrap h _ => h.wf
  | .groupStaged e => e.wf
  | .passEnd e => e.wf
  | .drainEnd e tile => e.wf && tile < 2
  | .accldEnd e tile => e.wf && tile < 2
  | .loadEnd e => e.wf
  | .fetch sq _ _ => numWf sq
  | .completionPost cq => numWf cq
  | .notifyTimeout cq => numWf cq
  | .sqEnable port n _ => portWf port && numWf n
  | .sqDisable port n _ => portWf port && numWf n
  | .cqEnable port n _ => portWf port && numWf n
  | .cqDisable port n _ => portWf port && numWf n
  | .atrSqDb port n _ => portWf port && numWf n
  | .atrCqDb port n _ => portWf port && numWf n
  | .clientEnable port n _ => portWf port && numWf n
  | .clientDisable port n _ => portWf port && numWf n
  | .tirCfg port _ => portWf port
  | .bcnCfg port _ => portWf port
  | .pwrCap port _ => portWf port
  | .pwrShutdownGo port => portWf port
  | .quiesce port => portWf port
  | .updateLock port => portWf port
  | .pop port => portWf port
  | .tstPulseCfg port _ => portWf port
  | .tstCtrClear port _ => portWf port
  | .gatHotBytes port _ => portWf port
  | .mediaRead port => portWf port
  | .mediaLend port => portWf port
  | .mediaProgram port => portWf port
  | .mediaErase port => portWf port
  | .mediaReturn port => portWf port
  | .registerWrite port offset _ _ => portWf port && offset < 2 ^ 24
  | .partnerDetected port => portWf port
  | .trainingEnd port p => portWf port && p.wf
  | .trainingTimeout port => portWf port
  | .flitReceive port flit _ => portWf port && flit.length = 256
  | .flitLockLoss port => portWf port
  | .ackTimeout port => portWf port
  | .retrainEnd port _ => portWf port
  | .creditStarvation port => portWf port
  | .cpl port tag cstatus _ _ data => portWf port && tag < 65536 && cstatus < 3 && data.length ≤ 4096
  | .beacon port flit => portWf port && flit.wf
  | .echoReturn port _ _ => portWf port
  | .auxTimeFrame tick _ => tick < 2 ^ 64
  | .fuseLoadEnd copyA copyB => (copyA.map FuseMap.wf).getD true && (copyB.map FuseMap.wf).getD true
  | .sramFillEnd repaired closedClusters closedDocents _ => repaired.all (· < 68) && closedClusters.all (· < 68) && closedDocents.all (· < 14)
  | .dramFillEnd failed identity => failed.all (· < 12) && identity.wf
  | .mountEnd _ _ _ badDusk damaged => badDusk.all (fun x => x.1 < 1024 && x.2 < 576)
      && damaged.all fun x => x.1 < 1024 && x.2.1 < 1848 && x.2.2 < 2304
  | .dieReadEnd d stages => d.wf && stagesWf stages
  | .dieProgramEnd d _ => d.wf
  | .dieEraseEnd d _ => d.wf
  | .verifyAfterClose d unit stages => d.wf && unit < 1848 && stages.wf
  | .transportParityError p => p.wf
  | .docentWatchdog core => core < 14
  | .drainComplete kind phys => unitWf kind phys
  | .returnSelfTestEnd kind phys _ => unitWf kind phys
  | .extest cells => cellsWf cells
  | .samplePreload pins cells => cellsWf pins && cellsWf cells
  | .extestPulse cells => cellsWf cells
  | .extestTrain cells => cellsWf cells
  | .docentCoreFault core => core < 14
  | .engineParityError e => e.wf
  | .dieSuspendEnd d => d.wf
  | .unitClose _ | .unitReturn _ | .unitQuery _ | .faultRead _ | .identityRead _ | .attest _ | .fwStage _ 
  | .fwActivate _ | .fwWriteEnd _ | .measureRead _ | .blockRead _ | .blockWrite _ | .blockAtomic _ | .blockFlush _ 
  | .blockTrim _ | .selfTest _ | .selfTestStep _ _ _ | .objectCreate _ | .objectWrite _ | .objectRead _ | .objectMove _ 
  | .objectRetire _ | .objectQuery _ | .objectDurability _ | .objectFlush _ | .programLoad _ | .jobRun _ 
  | .indexCreate _ | .accession _ | .searchD _ | .searchX _ | .accessionMerge _ | .mergeCommit _ | .kernelLoad _ 
  | .indexQuery _ | .tableCreate _ | .gather _ | .gatherStepEnd _ | .gatherPrefetch _ | .tableQuery _ | .hotDecay 
  | .prefetchProtectExpiry | .folioCreate _ | .folioAppend _ | .folioAttend _ | .folioReload _ | .folioTruncate _ 
  | .domainSet _ | .domainClear _ | .residualCreate _ | .reduce _ | .roundStart _ | .domainQuery _ | .xferEnd _ _ 
  | .streamEnd _ _ | .pausePointTaken _ _ | .placementMoveEnd _ | .jobStart _ | .jobEnd _ _ | .postCharge _ 
  | .sliceEnd _ | .sliceWatchdog _ _ | .clusterWaitTimeout _ | .jobDeadline _ | .lockWaitDeadline _ | .portRetry | .echo 
  | .beaconHoldover | .beaconDegraded | .beaconSourceCheck _ | .testPulse | .powerGood _ _ | .configLoadEnd _ _ _ 
  | .holdupMeasure | .holdupMeasureEnd _ _ _ | .powerFailure _ | .inputToleranceExpiry _ 
  | .inputSwitchClose _ | .matedN _ | .resetN | .shdnReqN | .aonLoss | .duskFlush | .duskFlushEnd _ 
  | .thermalSample _ _ _ | .governorWindow _ _ _ _ _ | .writebackAge | .writebackEnd _ | .promoteWaitExpiry _ 
  | .journalDoneDurable | .mapPageJournal | .backgroundWindow | .channelHalt _ _ | .lineRecoveryEnd _ _ _ _ | .tapReset 
  | .idcode | .clamp | .highz | .bootStatus | .bypass | .smbPowerState | .smbBootStatus | .smbInputVoltage 
  | .smbInputCurrent | .smbInputPower | .smbHoldupEnergy | .smbComputeTemp | .smbFlashTemp | .smbDramTemp 
  | .smbDuskBudget | .smbDirtyDurable | .smbUnreadFaults | .smbSerial | .signatureEnd => true

end Sys2Proof
end

