-- ==== Sys2Proof/Laws/PerInstr.lean ====
section
/-! SUPPORT. The family Words: what each constructor's instruction word is, as syntax. -/
namespace Sys2Proof.Laws.Words
open Sys2Proof Sys2Proof.Machine

/-- The word of the command, where it has one, fits 32 bits, and a well-formed command's word is a defined one. -/
def Statement (i : Instr) : Prop := ∀ w, i.word? = some w → w < 2 ^ 32 ∧ (i.wf = true → wordOk w = true)

theorem rWord_lt {m n : Nat} (f : RForm) (hm : m < 64) (hn : n < 16) : rWord m n f < 2 ^ 32 := by
  have h1 := f.rd.isLt
  have h2 := f.rs1.isLt
  have h3 := f.rs2.isLt
  have h4 := f.gp.isLt
  have h5 := f.gn.isLt
  unfold rWord
  omega

theorem sWord_lt {m n : Nat} (f : SForm) (hm : m < 64) (hn : n < 16) : sWord m n f < 2 ^ 32 := by
  have h1 := f.ra.isLt
  have h2 := f.rb.isLt
  have h3 := f.rc.isLt
  have h4 := f.gp.isLt
  have h5 := f.gn.isLt
  unfold sWord
  omega

theorem iWord_lt {m : Nat} (f : IForm) (hm : m < 64) : iWord m f < 2 ^ 32 := by
  have h1 := f.rd.isLt
  have h2 := f.rs1.isLt
  have h3 := f.imm.isLt
  unfold iWord
  omega

theorem uWord_lt {m : Nat} (f : UForm) (hm : m < 64) : uWord m f < 2 ^ 32 := by
  have h1 := f.rd.isLt
  have h2 := f.imm.isLt
  unfold uWord
  omega

theorem bWord_lt (f : BForm) : bWord f < 2 ^ 32 := by
  have h1 := f.p.isLt
  have h2 := f.n.isLt
  have h3 := f.off.isLt
  unfold bWord
  omega

theorem pWord_lt (i : BitVec 16) : pWord i < 2 ^ 32 := by
  have h1 := i.isLt
  unfold pWord
  omega

/-- The form of the law for a command with a word. -/
theorem of_word {i : Instr} {w : Nat} (h : i.word? = some w) (lt : w < 2 ^ 32) (ok : i.wf = true → wordOk w = true) :
    Statement i := by
  intro v hv
  rw [h] at hv
  cases hv
  exact ⟨lt, ok⟩

/-- The form of the law for a command without one. -/
theorem of_none {i : Instr} (h : i.word? = none) : Statement i := by
  intro v hv
  rw [h] at hv
  cases hv

/-- A conjunction's second part. -/
theorem second {a b : Bool} (h : (a && b) = true) : b = true := (Bool.and_eq_true _ _ ▸ h).2

theorem unitClose (slot : Nat) : Statement (.unitClose slot) := of_none rfl
theorem unitReturn (slot : Nat) : Statement (.unitReturn slot) := of_none rfl
theorem unitQuery (slot : Nat) : Statement (.unitQuery slot) := of_none rfl
theorem faultRead (slot : Nat) : Statement (.faultRead slot) := of_none rfl
theorem identityRead (slot : Nat) : Statement (.identityRead slot) := of_none rfl
theorem attest (slot : Nat) : Statement (.attest slot) := of_none rfl
theorem fwStage (slot : Nat) : Statement (.fwStage slot) := of_none rfl
theorem fwActivate (slot : Nat) : Statement (.fwActivate slot) := of_none rfl
theorem fwWriteEnd (good : Bool) : Statement (.fwWriteEnd good) := of_none rfl
theorem rollbackAdvance (slot : Nat) (stuck : List Nat) : Statement (.rollbackAdvance slot stuck) := of_none rfl
theorem measureRead (slot : Nat) : Statement (.measureRead slot) := of_none rfl
theorem blockRead (slot : Nat) : Statement (.blockRead slot) := of_none rfl
theorem blockWrite (slot : Nat) : Statement (.blockWrite slot) := of_none rfl
theorem blockAtomic (slot : Nat) : Statement (.blockAtomic slot) := of_none rfl
theorem blockFlush (slot : Nat) : Statement (.blockFlush slot) := of_none rfl
theorem blockTrim (slot : Nat) : Statement (.blockTrim slot) := of_none rfl
theorem selfTest (slot : Nat) : Statement (.selfTest slot) := of_none rfl
theorem selfTestStep (idle : Bool) (found : Option (Nat × Nat)) (relocate : Option (Die × Nat)) : Statement (.selfTestStep idle found relocate) := of_none rfl
theorem objectCreate (slot : Nat) : Statement (.objectCreate slot) := of_none rfl
theorem objectWrite (slot : Nat) : Statement (.objectWrite slot) := of_none rfl
theorem objectRead (slot : Nat) : Statement (.objectRead slot) := of_none rfl
theorem objectMove (slot : Nat) : Statement (.objectMove slot) := of_none rfl
theorem objectRetire (slot : Nat) : Statement (.objectRetire slot) := of_none rfl
theorem objectQuery (slot : Nat) : Statement (.objectQuery slot) := of_none rfl
theorem objectDurability (slot : Nat) : Statement (.objectDurability slot) := of_none rfl
theorem objectFlush (slot : Nat) : Statement (.objectFlush slot) := of_none rfl
theorem programLoad (slot : Nat) : Statement (.programLoad slot) := of_none rfl
theorem jobRun (slot : Nat) : Statement (.jobRun slot) := of_none rfl
theorem indexCreate (slot : Nat) : Statement (.indexCreate slot) := of_none rfl
theorem accession (slot : Nat) : Statement (.accession slot) := of_none rfl
theorem searchD (slot : Nat) : Statement (.searchD slot) := of_none rfl
theorem searchX (slot : Nat) : Statement (.searchX slot) := of_none rfl
theorem accessionMerge (slot : Nat) : Statement (.accessionMerge slot) := of_none rfl
theorem mergeCommit (slot : Nat) : Statement (.mergeCommit slot) := of_none rfl
theorem kernelLoad (slot : Nat) : Statement (.kernelLoad slot) := of_none rfl
theorem indexQuery (slot : Nat) : Statement (.indexQuery slot) := of_none rfl
theorem tableCreate (slot : Nat) : Statement (.tableCreate slot) := of_none rfl
theorem gather (slot : Nat) : Statement (.gather slot) := of_none rfl
theorem gatherStepEnd (slot : Nat) : Statement (.gatherStepEnd slot) := of_none rfl
theorem gatherPrefetch (slot : Nat) : Statement (.gatherPrefetch slot) := of_none rfl
theorem tableQuery (slot : Nat) : Statement (.tableQuery slot) := of_none rfl
theorem hotDecay : Statement (.hotDecay) := of_none rfl
theorem prefetchProtectExpiry : Statement (.prefetchProtectExpiry) := of_none rfl
theorem folioCreate (slot : Nat) : Statement (.folioCreate slot) := of_none rfl
theorem folioAppend (slot : Nat) : Statement (.folioAppend slot) := of_none rfl
theorem folioAttend (slot : Nat) : Statement (.folioAttend slot) := of_none rfl
theorem folioReload (slot : Nat) : Statement (.folioReload slot) := of_none rfl
theorem folioTruncate (slot : Nat) : Statement (.folioTruncate slot) := of_none rfl
theorem domainSet (slot : Nat) : Statement (.domainSet slot) := of_none rfl
theorem domainClear (slot : Nat) : Statement (.domainClear slot) := of_none rfl
theorem residualCreate (slot : Nat) : Statement (.residualCreate slot) := of_none rfl
theorem reduce (slot : Nat) : Statement (.reduce slot) := of_none rfl
theorem roundStart (slot : Nat) : Statement (.roundStart slot) := of_none rfl
theorem startTick (domain : Nat) : Statement (.startTick domain) := of_none rfl
theorem reductionPacket (vc : Nat) (p : RedPacket) : Statement (.reductionPacket vc p) := of_none rfl
theorem reductionStall (domain : Nat) : Statement (.reductionStall domain) := of_none rfl
theorem domainQuery (slot : Nat) : Statement (.domainQuery slot) := of_none rfl
theorem add (h : Thr) (f : RForm) : Statement (.add h f) := of_word rfl (rWord_lt f (by decide) (by decide)) second
theorem sub (h : Thr) (f : RForm) : Statement (.sub h f) := of_word rfl (rWord_lt f (by decide) (by decide)) second
theorem and (h : Thr) (f : RForm) : Statement (.and h f) := of_word rfl (rWord_lt f (by decide) (by decide)) second
theorem or (h : Thr) (f : RForm) : Statement (.or h f) := of_word rfl (rWord_lt f (by decide) (by decide)) second
theorem xor (h : Thr) (f : RForm) : Statement (.xor h f) := of_word rfl (rWord_lt f (by decide) (by decide)) second
theorem sll (h : Thr) (f : RForm) : Statement (.sll h f) := of_word rfl (rWord_lt f (by decide) (by decide)) second
theorem srl (h : Thr) (f : RForm) : Statement (.srl h f) := of_word rfl (rWord_lt f (by decide) (by decide)) second
theorem sra (h : Thr) (f : RForm) : Statement (.sra h f) := of_word rfl (rWord_lt f (by decide) (by decide)) second
theorem slt (h : Thr) (f : RForm) : Statement (.slt h f) := of_word rfl (rWord_lt f (by decide) (by decide)) second
theorem sltu (h : Thr) (f : RForm) : Statement (.sltu h f) := of_word rfl (rWord_lt f (by decide) (by decide)) second
theorem min (h : Thr) (f : RForm) : Statement (.min h f) := of_word rfl (rWord_lt f (by decide) (by decide)) second
theorem max (h : Thr) (f : RForm) : Statement (.max h f) := of_word rfl (rWord_lt f (by decide) (by decide)) second
theorem minu (h : Thr) (f : RForm) : Statement (.minu h f) := of_word rfl (rWord_lt f (by decide) (by decide)) second
theorem maxu (h : Thr) (f : RForm) : Statement (.maxu h f) := of_word rfl (rWord_lt f (by decide) (by decide)) second
theorem mul (h : Thr) (f : RForm) : Statement (.mul h f) := of_word rfl (rWord_lt f (by decide) (by decide)) second
theorem mulhu (h : Thr) (f : RForm) : Statement (.mulhu h f) := of_word rfl (rWord_lt f (by decide) (by decide)) second
theorem addi (h : Thr) (f : IForm) : Statement (.addi h f) := of_word rfl (iWord_lt f (by decide)) second
theorem andi (h : Thr) (f : IForm) : Statement (.andi h f) := of_word rfl (iWord_lt f (by decide)) second
theorem ori (h : Thr) (f : IForm) : Statement (.ori h f) := of_word rfl (iWord_lt f (by decide)) second
theorem xori (h : Thr) (f : IForm) : Statement (.xori h f) := of_word rfl (iWord_lt f (by decide)) second
theorem shi (h : Thr) (f : IForm) : Statement (.shi h f) := of_word rfl (iWord_lt f (by decide)) second
theorem lui (h : Thr) (f : UForm) : Statement (.lui h f) := of_word rfl (uWord_lt f (by decide)) second
theorem fadd (h : Thr) (f : RForm) : Statement (.fadd h f) := of_word rfl (rWord_lt f (by decide) (by decide)) second
theorem fsub (h : Thr) (f : RForm) : Statement (.fsub h f) := of_word rfl (rWord_lt f (by decide) (by decide)) second
theorem fmul (h : Thr) (f : RForm) : Statement (.fmul h f) := of_word rfl (rWord_lt f (by decide) (by decide)) second
theorem fma (h : Thr) (f : RForm) : Statement (.fma h f) := of_word rfl (rWord_lt f (by decide) (by decide)) second
theorem fmin (h : Thr) (f : RForm) : Statement (.fmin h f) := of_word rfl (rWord_lt f (by decide) (by decide)) second
theorem fmax (h : Thr) (f : RForm) : Statement (.fmax h f) := of_word rfl (rWord_lt f (by decide) (by decide)) second
theorem fabs (h : Thr) (f : RForm) : Statement (.fabs h f) := of_word rfl (rWord_lt f (by decide) (by decide)) second
theorem fneg (h : Thr) (f : RForm) : Statement (.fneg h f) := of_word rfl (rWord_lt f (by decide) (by decide)) second
theorem fcvtSW (h : Thr) (f : RForm) : Statement (.fcvtSW h f) := of_word rfl (rWord_lt f (by decide) (by decide)) second
theorem fcvtWS (h : Thr) (f : RForm) : Statement (.fcvtWS h f) := of_word rfl (rWord_lt f (by decide) (by decide)) second
theorem fexp2 (h : Thr) (f : RForm) : Statement (.fexp2 h f) := of_word rfl (rWord_lt f (by decide) (by decide)) second
theorem flog2 (h : Thr) (f : RForm) : Statement (.flog2 h f) := of_word rfl (rWord_lt f (by decide) (by decide)) second
theorem frcp (h : Thr) (f : RForm) : Statement (.frcp h f) := of_word rfl (rWord_lt f (by decide) (by decide)) second
theorem frsq (h : Thr) (f : RForm) : Statement (.frsq h f) := of_word rfl (rWord_lt f (by decide) (by decide)) second
theorem badd2 (h : Thr) (f : RForm) : Statement (.badd2 h f) := of_word rfl (rWord_lt f (by decide) (by decide)) second
theorem bmul2 (h : Thr) (f : RForm) : Statement (.bmul2 h f) := of_word rfl (rWord_lt f (by decide) (by decide)) second
theorem bfma2 (h : Thr) (f : RForm) : Statement (.bfma2 h f) := of_word rfl (rWord_lt f (by decide) (by decide)) second
theorem bmax2 (h : Thr) (f : RForm) : Statement (.bmax2 h f) := of_word rfl (rWord_lt f (by decide) (by decide)) second
theorem bpack (h : Thr) (f : RForm) : Statement (.bpack h f) := of_word rfl (rWord_lt f (by decide) (by decide)) second
theorem blo (h : Thr) (f : RForm) : Statement (.blo h f) := of_word rfl (rWord_lt f (by decide) (by decide)) second
theorem bhi (h : Thr) (f : RForm) : Statement (.bhi h f) := of_word rfl (rWord_lt f (by decide) (by decide)) second
theorem eq (h : Thr) (f : RForm) : Statement (.eq h f) := of_word rfl (rWord_lt f (by decide) (by decide)) second
theorem ne (h : Thr) (f : RForm) : Statement (.ne h f) := of_word rfl (rWord_lt f (by decide) (by decide)) second
theorem lt (h : Thr) (f : RForm) : Statement (.lt h f) := of_word rfl (rWord_lt f (by decide) (by decide)) second
theorem ltu (h : Thr) (f : RForm) : Statement (.ltu h f) := of_word rfl (rWord_lt f (by decide) (by decide)) second
theorem ge (h : Thr) (f : RForm) : Statement (.ge h f) := of_word rfl (rWord_lt f (by decide) (by decide)) second
theorem geu (h : Thr) (f : RForm) : Statement (.geu h f) := of_word rfl (rWord_lt f (by decide) (by decide)) second
theorem feq (h : Thr) (f : RForm) : Statement (.feq h f) := of_word rfl (rWord_lt f (by decide) (by decide)) second
theorem flt (h : Thr) (f : RForm) : Statement (.flt h f) := of_word rfl (rWord_lt f (by decide) (by decide)) second
theorem fle (h : Thr) (f : RForm) : Statement (.fle h f) := of_word rfl (rWord_lt f (by decide) (by decide)) second
theorem pand (h : Thr) (f : RForm) : Statement (.pand h f) := of_word rfl (rWord_lt f (by decide) (by decide)) second
theorem por (h : Thr) (f : RForm) : Statement (.por h f) := of_word rfl (rWord_lt f (by decide) (by decide)) second
theorem pxor (h : Thr) (f : RForm) : Statement (.pxor h f) := of_word rfl (rWord_lt f (by decide) (by decide)) second
theorem pnot (h : Thr) (f : RForm) : Statement (.pnot h f) := of_word rfl (rWord_lt f (by decide) (by decide)) second
theorem ptos (h : Thr) (f : RForm) : Statement (.ptos h f) := of_word rfl (rWord_lt f (by decide) (by decide)) second
theorem stop (h : Thr) (f : RForm) : Statement (.stop h f) := of_word rfl (rWord_lt f (by decide) (by decide)) second
theorem ldb (h : Thr) (f : IForm) : Statement (.ldb h f) := of_word rfl (iWord_lt f (by decide)) second
theorem ldh (h : Thr) (f : IForm) : Statement (.ldh h f) := of_word rfl (iWord_lt f (by decide)) second
theorem ldw (h : Thr) (f : IForm) : Statement (.ldw h f) := of_word rfl (iWord_lt f (by decide)) second
theorem ldq (h : Thr) (f : IForm) : Statement (.ldq h f) := of_word rfl (iWord_lt f (by decide)) second
theorem stb (h : Thr) (f : IForm) : Statement (.stb h f) := of_word rfl (iWord_lt f (by decide)) second
theorem sth (h : Thr) (f : IForm) : Statement (.sth h f) := of_word rfl (iWord_lt f (by decide)) second
theorem stw (h : Thr) (f : IForm) : Statement (.stw h f) := of_word rfl (iWord_lt f (by decide)) second
theorem stq (h : Thr) (f : IForm) : Statement (.stq h f) := of_word rfl (iWord_lt f (by decide)) second
theorem br (h : Thr) (f : BForm) : Statement (.br h f) := of_word rfl (bWord_lt f) second
theorem jal (h : Thr) (f : UForm) : Statement (.jal h f) := of_word rfl (uWord_lt f (by decide)) second
theorem jr (h : Thr) (f : RForm) : Statement (.jr h f) := of_word rfl (rWord_lt f (by decide) (by decide)) second
theorem exit (h : Thr) (f : RForm) : Statement (.exit h f) := of_word rfl (rWord_lt f (by decide) (by decide)) second
theorem xfer (h : Thr) (f : SForm) : Statement (.xfer h f) := of_word rfl (sWord_lt f (by decide) (by decide)) second
theorem ldin (h : Thr) (f : SForm) : Statement (.ldin h f) := of_word rfl (sWord_lt f (by decide) (by decide)) second
theorem wstr (h : Thr) (f : SForm) : Statement (.wstr h f) := of_word rfl (sWord_lt f (by decide) (by decide)) second
theorem pass (h : Thr) (f : SForm) : Statement (.pass h f) := of_word rfl (sWord_lt f (by decide) (by decide)) second
theorem drain (h : Thr) (f : SForm) : Statement (.drain h f) := of_word rfl (sWord_lt f (by decide) (by decide)) second
theorem accld (h : Thr) (f : SForm) : Statement (.accld h f) := of_word rfl (sWord_lt f (by decide) (by decide)) second
theorem discard (h : Thr) (f : SForm) : Statement (.discard h f) := of_word rfl (sWord_lt f (by decide) (by decide)) second
theorem signal (h : Thr) (f : SForm) : Statement (.signal h f) := of_word rfl (sWord_lt f (by decide) (by decide)) second
theorem wait (h : Thr) (f : SForm) : Statement (.wait h f) := of_word rfl (sWord_lt f (by decide) (by decide)) second
theorem set (h : Thr) (f : SForm) : Statement (.set h f) := of_word rfl (sWord_lt f (by decide) (by decide)) second
theorem read (h : Thr) (f : SForm) : Statement (.read h f) := of_word rfl (sWord_lt f (by decide) (by decide)) second
theorem pause (h : Thr) (index : BitVec 16) : Statement (.pause h index) := of_word rfl (pWord_lt index) second
theorem tid (h : Thr) (f : RForm) : Statement (.tid h f) := of_word rfl (rWord_lt f (by decide) (by decide)) second
theorem cid (h : Thr) (f : RForm) : Statement (.cid h f) := of_word rfl (rWord_lt f (by decide) (by decide)) second
theorem ncl (h : Thr) (f : RForm) : Statement (.ncl h f) := of_word rfl (rWord_lt f (by decide) (by decide)) second
theorem flags (h : Thr) (f : RForm) : Statement (.flags h f) := of_word rfl (rWord_lt f (by decide) (by decide)) second
theorem trap (h : Thr) (f : RForm) : Statement (.trap h f) := of_word rfl (rWord_lt f (by decide) (by decide)) second
theorem btime (h : Thr) (f : RForm) : Statement (.btime h f) := of_word rfl (rWord_lt f (by decide) (by decide)) second
theorem wide (h : Thr) (f : RForm) : Statement (.wide h f) := of_word rfl (rWord_lt f (by decide) (by decide)) second
theorem machineTrap (h : Thr) (fetchCrc : Bool) : Statement (.machineTrap h fetchCrc) := of_none rfl
theorem groupStaged (e : Eng) : Statement (.groupStaged e) := of_none rfl
theorem passEnd (e : Eng) : Statement (.passEnd e) := of_none rfl
theorem drainEnd (e : Eng) (tile : Nat) : Statement (.drainEnd e tile) := of_none rfl
theorem accldEnd (e : Eng) (tile : Nat) : Statement (.accldEnd e tile) := of_none rfl
theorem loadEnd (e : Eng) : Statement (.loadEnd e) := of_none rfl
theorem xferEnd (job : Nat) (id : Nat) : Statement (.xferEnd job id) := of_none rfl
theorem streamEnd (job : Nat) (handle : Nat) : Statement (.streamEnd job handle) := of_none rfl
theorem pausePointTaken (job : Nat) (cycle : Nat) : Statement (.pausePointTaken job cycle) := of_none rfl
theorem placementMoveEnd (owner : DmaOwner) : Statement (.placementMoveEnd owner) := of_none rfl
theorem jobStart (start : HashedStart) : Statement (.jobStart start) := of_none rfl
theorem jobEnd (job : Nat) (cycle : Nat) : Statement (.jobEnd job cycle) := of_none rfl
theorem postCharge (n : Nat) : Statement (.postCharge n) := of_none rfl
theorem sliceEnd (job : Nat) : Statement (.sliceEnd job) := of_none rfl
theorem sliceWatchdog (job : Nat) (cycle : Nat) : Statement (.sliceWatchdog job cycle) := of_none rfl
theorem clusterWaitTimeout (job : Nat) : Statement (.clusterWaitTimeout job) := of_none rfl
theorem jobDeadline (job : Nat) : Statement (.jobDeadline job) := of_none rfl
theorem fetch (sq : Nat) (reads : List (Nat × List Byte)) (sglRefused : Bool) : Statement (.fetch sq reads sglRefused) := of_none rfl
theorem completionPost (cq : Nat) : Statement (.completionPost cq) := of_none rfl
theorem notifyTimeout (cq : Nat) : Statement (.notifyTimeout cq) := of_none rfl
theorem lockWaitDeadline (slot : Nat) : Statement (.lockWaitDeadline slot) := of_none rfl
theorem sqEnable (port : Nat) (n : Nat) (value : Word) : Statement (.sqEnable port n value) := of_none rfl
theorem sqDisable (port : Nat) (n : Nat) (value : Word) : Statement (.sqDisable port n value) := of_none rfl
theorem cqEnable (port : Nat) (n : Nat) (value : Word) : Statement (.cqEnable port n value) := of_none rfl
theorem cqDisable (port : Nat) (n : Nat) (value : Word) : Statement (.cqDisable port n value) := of_none rfl
theorem atrSqDb (port : Nat) (n : Nat) (value : Word) : Statement (.atrSqDb port n value) := of_none rfl
theorem atrCqDb (port : Nat) (n : Nat) (value : Word) : Statement (.atrCqDb port n value) := of_none rfl
theorem clientEnable (port : Nat) (n : Nat) (value : Word64) : Statement (.clientEnable port n value) := of_none rfl
theorem clientDisable (port : Nat) (n : Nat) (value : Word64) : Statement (.clientDisable port n value) := of_none rfl
theorem tirCfg (port : Nat) (value : Word) : Statement (.tirCfg port value) := of_none rfl
theorem bcnCfg (port : Nat) (value : Word) : Statement (.bcnCfg port value) := of_none rfl
theorem pwrCap (port : Nat) (value : Word) : Statement (.pwrCap port value) := of_none rfl
theorem pwrShutdownGo (port : Nat) : Statement (.pwrShutdownGo port) := of_none rfl
theorem quiesce (port : Nat) : Statement (.quiesce port) := of_none rfl
theorem updateLock (port : Nat) : Statement (.updateLock port) := of_none rfl
theorem pop (port : Nat) : Statement (.pop port) := of_none rfl
theorem tstPulseCfg (port : Nat) (value : Word) : Statement (.tstPulseCfg port value) := of_none rfl
theorem tstCtrClear (port : Nat) (value : Word) : Statement (.tstCtrClear port value) := of_none rfl
theorem gatHotBytes (port : Nat) (value : Word) : Statement (.gatHotBytes port value) := of_none rfl
theorem mediaRead (port : Nat) : Statement (.mediaRead port) := of_none rfl
theorem mediaLend (port : Nat) : Statement (.mediaLend port) := of_none rfl
theorem mediaProgram (port : Nat) : Statement (.mediaProgram port) := of_none rfl
theorem mediaErase (port : Nat) : Statement (.mediaErase port) := of_none rfl
theorem mediaReturn (port : Nat) : Statement (.mediaReturn port) := of_none rfl
theorem registerWrite (port : Nat) (offset : Nat) (size : Nat) (value : Word64) : Statement (.registerWrite port offset size value) := of_none rfl
theorem partnerDetected (port : Nat) : Statement (.partnerDetected port) := of_none rfl
theorem trainingEnd (port : Nat) (p : LinkParams) : Statement (.trainingEnd port p) := of_none rfl
theorem trainingTimeout (port : Nat) : Statement (.trainingTimeout port) := of_none rfl
theorem portRetry : Statement (.portRetry) := of_none rfl
theorem flitReceive (port : Nat) (flit : List Byte) (good : Bool) : Statement (.flitReceive port flit good) := of_none rfl
theorem flitLockLoss (port : Nat) : Statement (.flitLockLoss port) := of_none rfl
theorem ackTimeout (port : Nat) : Statement (.ackTimeout port) := of_none rfl
theorem retrainEnd (port : Nat) (good : Bool) : Statement (.retrainEnd port good) := of_none rfl
theorem creditStarvation (port : Nat) : Statement (.creditStarvation port) := of_none rfl
theorem cpl (port : Nat) (tag : Nat) (cstatus : Nat) (offset : Nat) (last : Bool) (data : List Byte) : Statement (.cpl port tag cstatus offset last data) := of_none rfl
theorem beacon (port : Nat) (flit : BeaconFlit) : Statement (.beacon port flit) := of_none rfl
theorem echo : Statement (.echo) := of_none rfl
theorem echoReturn (port : Nat) (arrival : Nat) (turn : Nat) : Statement (.echoReturn port arrival turn) := of_none rfl
theorem auxTimeFrame (tick : Nat) (clean : Bool) : Statement (.auxTimeFrame tick clean) := of_none rfl
theorem beaconHoldover : Statement (.beaconHoldover) := of_none rfl
theorem beaconDegraded : Statement (.beaconDegraded) := of_none rfl
theorem beaconSourceCheck (ppm : Int) : Statement (.beaconSourceCheck ppm) := of_none rfl
theorem testPulse : Statement (.testPulse) := of_none rfl
theorem powerGood (residualMj : Nat) (millivolt : Nat) : Statement (.powerGood residualMj millivolt) := of_none rfl
theorem fuseLoadEnd (copyA : Option FuseMap) (copyB : Option FuseMap) : Statement (.fuseLoadEnd copyA copyB) := of_none rfl
theorem configLoadEnd (config : Option (List Byte)) (firmware : Option (List Byte)) (certificate : List Byte) : Statement (.configLoadEnd config firmware certificate) := of_none rfl
theorem sramFillEnd (repaired : List Nat) (closedClusters : List Nat) (closedDocents : List Nat) (memoryFail : Bool) : Statement (.sramFillEnd repaired closedClusters closedDocents memoryFail) := of_none rfl
theorem dramFillEnd (failed : List Nat) (identity : DieRows) : Statement (.dramFillEnd failed identity) := of_none rfl
theorem mountEnd (journalA journalB checkpoint : Bool) (badDusk : List (Nat × Nat)) (damaged : List (Nat × Nat × Nat)) : Statement (.mountEnd journalA journalB checkpoint badDusk damaged) := of_none rfl
theorem holdupMeasure : Statement (.holdupMeasure) := of_none rfl
theorem holdupMeasureEnd (chargedOk : Bool) (microfarad : Nat) (esrTenthMilliohm : Nat) : Statement (.holdupMeasureEnd chargedOk microfarad esrTenthMilliohm) := of_none rfl
theorem powerFailure (millivolt : Nat) : Statement (.powerFailure millivolt) := of_none rfl
theorem inputToleranceExpiry (millivolt : Nat) : Statement (.inputToleranceExpiry millivolt) := of_none rfl
theorem inputSwitchClose (millivolt : Nat) : Statement (.inputSwitchClose millivolt) := of_none rfl
theorem matedN (high : Bool) : Statement (.matedN high) := of_none rfl
theorem resetN : Statement (.resetN) := of_none rfl
theorem shdnReqN : Statement (.shdnReqN) := of_none rfl
theorem aonLoss : Statement (.aonLoss) := of_none rfl
theorem duskFlush : Statement (.duskFlush) := of_none rfl
theorem duskFlushEnd (bankFailed : Bool) : Statement (.duskFlushEnd bankFailed) := of_none rfl
theorem thermalSample (compute : Int) (flash : Int) (dram : Int) : Statement (.thermalSample compute flash dram) := of_none rfl
theorem governorWindow (milliwatt1ms : Nat) (milliwatt100ms : Nat) (milliamp1ms : Nat) (milliamp100ms : Nat) (millivolt : Nat) : Statement (.governorWindow milliwatt1ms milliwatt100ms milliamp1ms milliamp100ms millivolt) := of_none rfl
theorem writebackAge : Statement (.writebackAge) := of_none rfl
theorem writebackEnd (count : Nat) : Statement (.writebackEnd count) := of_none rfl
theorem promoteWaitExpiry (owner : DmaOwner) : Statement (.promoteWaitExpiry owner) := of_none rfl
theorem dieReadEnd (d : Die) (stages : List Nat) : Statement (.dieReadEnd d stages) := of_none rfl
theorem dieProgramEnd (d : Die) (good : Bool) : Statement (.dieProgramEnd d good) := of_none rfl
theorem dieEraseEnd (d : Die) (good : Bool) : Statement (.dieEraseEnd d good) := of_none rfl
theorem journalDoneDurable : Statement (.journalDoneDurable) := of_none rfl
theorem mapPageJournal : Statement (.mapPageJournal) := of_none rfl
theorem verifyAfterClose (d : Die) (unit : Nat) (stages : StageCounts) : Statement (.verifyAfterClose d unit stages) := of_none rfl
theorem backgroundWindow : Statement (.backgroundWindow) := of_none rfl
theorem transportParityError (p : Path) : Statement (.transportParityError p) := of_none rfl
theorem channelHalt (owner : DmaOwner) (line : LineKind) : Statement (.channelHalt owner line) := of_none rfl
theorem lineRecoveryEnd (line : LineKind) (phys : Nat) (location : Nat) (good : List Bool) : Statement (.lineRecoveryEnd line phys location good) := of_none rfl
theorem docentWatchdog (core : Nat) : Statement (.docentWatchdog core) := of_none rfl
theorem drainComplete (kind : Nat) (phys : Nat) : Statement (.drainComplete kind phys) := of_none rfl
theorem returnSelfTestEnd (kind : Nat) (phys : Nat) (good : Bool) : Statement (.returnSelfTestEnd kind phys good) := of_none rfl
theorem tapReset : Statement (.tapReset) := of_none rfl
theorem extest (cells : List Bool) : Statement (.extest cells) := of_none rfl
theorem idcode : Statement (.idcode) := of_none rfl
theorem samplePreload (pins : List Bool) (cells : List Bool) : Statement (.samplePreload pins cells) := of_none rfl
theorem clamp : Statement (.clamp) := of_none rfl
theorem highz : Statement (.highz) := of_none rfl
theorem extestPulse (cells : List Bool) : Statement (.extestPulse cells) := of_none rfl
theorem extestTrain (cells : List Bool) : Statement (.extestTrain cells) := of_none rfl
theorem bootStatus : Statement (.bootStatus) := of_none rfl
theorem bypass : Statement (.bypass) := of_none rfl
theorem smbPowerState : Statement (.smbPowerState) := of_none rfl
theorem smbBootStatus : Statement (.smbBootStatus) := of_none rfl
theorem smbInputVoltage : Statement (.smbInputVoltage) := of_none rfl
theorem smbInputCurrent : Statement (.smbInputCurrent) := of_none rfl
theorem smbInputPower : Statement (.smbInputPower) := of_none rfl
theorem smbHoldupEnergy : Statement (.smbHoldupEnergy) := of_none rfl
theorem smbComputeTemp : Statement (.smbComputeTemp) := of_none rfl
theorem smbFlashTemp : Statement (.smbFlashTemp) := of_none rfl
theorem smbDramTemp : Statement (.smbDramTemp) := of_none rfl
theorem smbDuskBudget : Statement (.smbDuskBudget) := of_none rfl
theorem smbDirtyDurable : Statement (.smbDirtyDurable) := of_none rfl
theorem smbUnreadFaults : Statement (.smbUnreadFaults) := of_none rfl
theorem smbSerial : Statement (.smbSerial) := of_none rfl
theorem docentCoreFault (core : Nat) : Statement (.docentCoreFault core) := of_none rfl
theorem engineParityError (e : Eng) : Statement (.engineParityError e) := of_none rfl
theorem dieSuspendEnd (d : Die) : Statement (.dieSuspendEnd d) := of_none rfl
theorem signatureEnd : Statement (.signatureEnd) := of_none rfl

end Sys2Proof.Laws.Words
end

