-- ==== Sys2Proof/Tests/Slice0.lean ====
section
/-! SUPPORT. Tests: a term each well-formedness check refuses, worked examples of the spec, and for every statement with premises a
state and operands that meet them together. Expected results are the spec's own. -/
set_option maxRecDepth 100000
open Sys2Proof Sys2Proof.Machine
namespace Sys2Proof.Tests

/-! ### Witnesses of the statements' premises -/

/-- An image with two instruction words of code at store offset 64, one pause point at its second word. -/
def img : Image :=
  { threads := 1, minClusters := 1, maxClusters := 1, syncBlocks := 1, slots := 1, paramLen := 0, paramBase := 0, resultBytes := 64
    scratchBytes := 64, entry := 0, spanBt := 256, code := zeroBytes 8, codeAux := 64, const := [], constAux := 0, convs := []
    pauses := [], plan := [], measurement := [], sections := [], saveBytes := 0 }

/-- A pause-point entry at PC 0 that names pause point `n`. -/
def pauseAt (n : Nat) : PauseEntry :=
  { index := n, layerStart := false, layerEnd := false, preempt := true, codeOffset := 0, liveRegs := 0, livePreds := 0, liveAcc := 0
    liveInput := 0, storeBase := 4096, storeLen := 0, layer := 0, resume := 0 }

/-- A running job 7 of client 0 on physical cluster 3, with one thread `t`. -/
def jobOf (t : Thread) : Job :=
  { id := 7, slot := 5, kind := .run, client := 0, order := 0, need := 1, state := .running, started := true, image := some img
    clusters := [{ phys := 3, threads := [t] }], sync := List.replicate 64 0 }

/-- The drive in service, with host port 0 up and the time base locked. -/
def served : State :=
  { State.reset with
    power := { State.reset.power with state := .active, phase := .service }
    beacon := { State.reset.beacon with state := .locked }
    link := { State.reset.link with ports := [{ link := .up, partner := true, width := 8, lanes := 8 }, {}] } }

/-- That drive running a job, with an instruction word at code offset 0 of cluster 3's store. -/
def worldOf (w : Nat) (j : Job) : State :=
  { served with sched := { served.sched with
      jobs := [j], stores := List.replicate 3 [] ++ [memWrite [] 64 (leBytes 4 w)] ++ List.replicate 64 [] } }

def world (w : Nat) (t : Thread) : State := worldOf w (jobOf t)

/-- The thread the witnesses run, at PC 0. -/
def thr : Thr := { job := 7, cluster := 0, thread := 0 }
def ready (regs : List (Nat × Word)) : Thread :=
  { regs := regs.foldl (fun rs r => rs.set r.1 r.2) (List.replicate 64 0), st := .ready }

theorem leNat_leBytes (n : Nat) : ∀ w, w < 256 ^ n → leNat (leBytes n w) = w := by
  induction n with
  | zero => intro w h; simp [leBytes, leNat]; omega
  | succ n ih =>
    intro w h
    have h2 : w / 256 < 256 ^ n := by rw [Nat.pow_succ] at h; omega
    simp only [leBytes, leNat, ih _ h2, BitVec.toNat_ofNat]
    omega

/-- Every instruction word can stand at the PC of a ready thread. -/
theorem witness_atWord (w : Nat) (hw : w < 2 ^ 32) (j : Job) (t : Thread) (hid : j.id = 7) (hs : j.state = .running)
    (he : j.ending = none) (ht : j.trapped = false) (c : JobCluster) (hc : j.clusters = [c]) (hp : c.phys = 3)
    (hth : c.threads = [t]) (hi : j.image = some img) (hr : t.st = .ready) (hpc : t.pc = 0) :
    AtWord (worldOf w j) thr w j t := by
  refine ⟨?_, ⟨c, ?_, ?_, ?_⟩, hs, he, ht, rfl, hr⟩
  · simp [State.job?, worldOf, thr, hid]
  · simp [thr, hc]
  · simp [thr, hth]
  · have h : (worldOf w j).store c.phys = memWrite [] 64 (leBytes 4 w) := by rw [hp]; rfl
    have h4 : (leBytes 4 w).length = 4 := by simp [leBytes]
    have hk : j.codeRegion.1 = 64 := by simp [Job.codeRegion, hi, img]
    rw [h, hpc, hk]
    have := memRead_memWrite (m := []) (by decide) 64 (leBytes 4 w)
    rw [h4] at this
    rw [show 64 + 0 = 64 from rfl, this, leNat_leBytes 4 w (by simpa using hw)]

theorem pcOk_four (t : Thread) : (jobOf t).pcOk 4 = true := by
  have h : (zeroBytes 8).length = 8 := by decide
  simp [Job.pcOk, Job.codeRegion, jobOf, img, h]

/-- Every instruction word can issue: the premise of the statements about thread instructions. -/
theorem witness_issues (w : Nat) (hw : w < 2 ^ 32) (regs : List (Nat × Word)) :
    Issues (world w (ready regs)) thr w 0 0 (jobOf (ready regs)) (ready regs) :=
  ⟨witness_atWord w hw _ _ rfl rfl rfl rfl _ rfl rfl rfl rfl rfl rfl, rfl, pcOk_four _⟩

def rf : RForm := { rd := 4, rs1 := 1, rs2 := 2, gp := 0, gn := 0 }
def rfOff : RForm := { rf with gn := 1 }
def sf : SForm := { ra := 1, rb := 2, rc := 4, gp := 0, gn := 0 }
def iff (imm : BitVec 14) : IForm := { rd := 4, rs1 := 1, imm := imm }

/-- Premises of the statements about arithmetic, floating-point, comparison and system instructions. -/
theorem witness_issues_formats :
    Issues (world (rWord 0x01 15 rf) (ready [(1, 5), (2, 0xFFFFFFFF)])) thr (rWord 0x01 15 rf) rf.gp rf.gn
      (jobOf (ready [(1, 5), (2, 0xFFFFFFFF)])) (ready [(1, 5), (2, 0xFFFFFFFF)]) ∧
    AtWord (world (iWord 0x06 (iff 0x3FFF)) (ready [])) thr (iWord 0x06 (iff 0x3FFF)) (jobOf (ready [])) (ready []) ∧
    AtWord (world (uWord 0x07 ⟨63, 0xFFFFF⟩) (ready [])) thr (uWord 0x07 ⟨63, 0xFFFFF⟩) (jobOf (ready [])) (ready []) ∧
    (jobOf (ready [])).pcOk ((ready []).pc + 4) = true :=
  ⟨witness_issues _ (by decide) _, (witness_issues _ (by decide) _).stands, (witness_issues _ (by decide) _).stands, pcOk_four _⟩

theorem witness_float_operands : isNanF32 (0x7F800001 : Word).toNat = true ∧ isNanF32 (0xFF800000 : Word).toNat = true ∧
    (0x80000000 : Word).toNat % 2 ^ 31 = 0 ∧ 2 ^ 31 < (0x80000001 : Word).toNat ∧ isNanF32 (0x80000001 : Word).toNat = false := by
  decide

/-- A quad access that ends at the end of the store, one past it, one that is misaligned, and one at the code region. -/
theorem witness_addresses :
    let j := jobOf (ready [])
    (ready [(1, 0x5FFFF0)]).address (iff 0) % 16 = 0 ∧ (ready [(1, 0x5FFFF0)]).address (iff 0) + 16 ≤ storeSize ∧
    (iff 0).rd.toNat % 4 = 0 ∧ j.meetsCode 0x5FFFF0 16 = false ∧ j.meetsLive 0x5FFFF0 16 = false ∧
    storeSize < (ready [(1, 0x600000)]).address (iff 0) + 1 ∧ (ready [(1, 0x600000)]).address (iff 0) % 16 = 0 ∧
    (ready []).address (iff 1) % 2 ≠ 0 ∧ (ready []).address (iff 0x3FFF) % 16 ≠ 0 ∧
    (ready []).address (iff 64) % 16 = 0 ∧ j.meetsCode ((ready []).address (iff 64)) 1 = true ∧ (0x14 : Nat) ≤ 0x14 := by decide

theorem witness_loads_and_stores :
    AtWord (world (iWord 0x17 (iff 0)) (ready [(1, 0x5FFFF0)])) thr (iWord 0x17 (iff 0)) (jobOf (ready [(1, 0x5FFFF0)]))
      (ready [(1, 0x5FFFF0)]) ∧
    AtWord (world (iWord 0x14 (iff 64)) (ready [])) thr (iWord 0x14 (iff 64)) (jobOf (ready [])) (ready []) ∧
    memWf ((world (iWord 0x17 (iff 0)) (ready [(1, 0x5FFFF0)])).store 3) = true ∧
    -- a thread with two stores that are not yet visible
    (let t := { ready [] with stores := [(4096, [1]), (4096, [2, 3])] };
      (world 0 t).thread? thr = some (3, t) ∧ t.stores = [(4096, [1])] ++ [(4096, [2, 3])] ∧
      3 < (world 0 t).sched.stores.length ∧ memWf ((world 0 t).store 3) = true ∧ ∀ w ∈ t.stores, 4098 < w.1 ∨ w.1 + w.2.length ≤ 4098) :=
  ⟨(witness_issues _ (by decide) _).stands, (witness_issues _ (by decide) _).stands, by decide, rfl, rfl, by decide⟩

/-- Thread instructions answer a next state, the premise of their frame. -/
theorem witness_frame :
    (∃ t, exec (.add thr rf) (world (rWord 0x01 0 rf) (ready [])) = .next t) ∧ (∃ t, exec (.addi thr (iff 0)) served = .next t) ∧
    (∃ t, exec (.exit thr rf) (world (rWord 0x22 1 rf) (ready [])) = .next t) ∧
    ∃ t, exec (.lui thr ⟨63, 1⟩) served = .next t := ⟨⟨_, rfl⟩, ⟨_, rfl⟩, ⟨_, rfl⟩, ⟨_, rfl⟩⟩

/-- A branch to the second word and to the end of the code region; JR there; a guard that does not hold. -/
theorem witness_control :
    let b : BForm := { p := 0, n := 0, off := 1 }
    let c : BForm := { p := 0, n := 0, off := 2 }
    (∀ f ∈ [b, c, { b with n := 1 }], AtWord (world (bWord f) (ready [])) thr (bWord f) (jobOf (ready [])) (ready [])) ∧
    (jobOf (ready [])).pcOk (pcPlus 0 b.off.toInt) = true ∧ (jobOf (ready [])).pcOk (pcPlus 0 c.off.toInt) = false ∧
    (ready []).guard b.p b.n = true ∧ (ready []).guard b.p 1 = false ∧
    (jobOf (ready [])).pcOk ((ready [(1, 4)]).reg rf.rs1).toNat = true ∧
    (jobOf (ready [])).pcOk ((ready [(1, 8)]).reg rf.rs1).toNat = false ∧
    (jobOf (ready [])).pcOk ((ready [(1, 2)]).reg rf.rs1).toNat = false ∧
    (ready []).guard rf.gp rf.gn = true ∧ (ready []).guard rfOff.gp rfOff.gn = false ∧
    (∀ f ∈ [rf, rfOff], AtWord (world (rWord 0x22 0 f) (ready [(1, 8)])) thr (rWord 0x22 0 f) (jobOf (ready [(1, 8)])) (ready [(1, 8)])) := by
  refine ⟨?_, by decide, by decide, by decide, by decide, by decide, by decide, by decide, by decide, by decide, ?_⟩
  · intro f hf
    exact (witness_issues _ (by revert f; decide) _).stands
  · intro f hf
    exact (witness_issues _ (by revert f; decide) _).stands

/-- Operands of SIGNAL, WAIT, SET and READ at the ends of their ranges. -/
theorem witness_sync :
    let j := jobOf (ready [])
    let k := { j with sync := [0xFFFFFFFE] }
    Issues (world (sWord 0x2A 0 sf) (ready [(2, 1)])) thr (sWord 0x2A 0 sf) sf.gp sf.gn (jobOf (ready [(2, 1)])) (ready [(2, 1)]) ∧
    ((ready [(1, 63), (2, 65535)]).reg sf.ra).toNat < j.sync.length ∧ 1 ≤ ((ready [(2, 1)]).reg sf.rb).toNat ∧
    ((ready [(1, 63), (2, 65535)]).reg sf.rb).toNat ≤ 65535 ∧ (k.sync.getD 0 0).toNat + 1 ≤ 0xFFFFFFFF ∧
    j.sync.length ≤ ((ready [(1, 64)]).reg sf.ra).toNat ∧ ((ready []).reg sf.rb).toNat = 0 ∧
    65535 < ((ready [(2, 65536)]).reg sf.rb).toNat ∧ 0xFFFFFFFF < (k.sync.getD 0 0).toNat + 2 :=
  ⟨witness_issues _ (by decide) _, by decide, by decide, by decide, by decide, by decide, by decide, by decide, by decide⟩

/-- A PAUSE at the place of its entry, one whose entry lies elsewhere, and one while another thread stands at another barrier. -/
theorem witness_pause :
    let g := { img with pauses := [{ pauseAt 0 with codeOffset := 4 }, pauseAt 1] }
    let j := { jobOf (ready []) with image := some g }
    let k := { j with clusters := [{ phys := 3, threads := [ready [], { ready [] with st := .barrier 2 }] }] }
    AtWord (worldOf (pWord 1) (jobOf (ready []))) thr (pWord 1) (jobOf (ready [])) (ready []) ∧
    (∃ e, j.pause? 1 = some e ∧ e.codeOffset = (ready []).pc) ∧ j.otherBarrier 1 = false ∧
    (∃ e, j.pause? 0 = some e ∧ e.codeOffset ≠ (ready []).pc) ∧ j.pause? 2 = none ∧ k.otherBarrier 1 = true ∧
    AtWord (worldOf (pWord 1) j) thr (pWord 1) j (ready []) := by
  refine ⟨(witness_issues _ (by decide) _).stands, ⟨pauseAt 1, by decide, by decide⟩, by decide,
    ⟨{ pauseAt 0 with codeOffset := 4 }, by decide, by decide⟩, by decide, by decide, ?_⟩
  exact ⟨by decide, ⟨_, rfl, rfl, by decide⟩, rfl, rfl, rfl, rfl, rfl⟩

/-- A register and a predicate that are not the fixed ones. -/
theorem witness_registers : (ready []).regs.length = 64 ∧ (63 : BitVec 6) ≠ 0 ∧ (7 : BitVec 3) ≠ 0 ∧ (1 : BitVec 6) ≠ 63 := by decide

/-- A 64-byte descriptor with the bytes given by offset. -/
def descOf (bs : List (Nat × Nat)) : Bytes :=
  bs.foldl (fun d b => d.set b.1 (BitVec.ofNat 8 b.2)) (List.replicate 64 (0 : Byte))

/-- The drive running job `j`, with `w` at code offset 0 of cluster 3's store and other bytes in that store. -/
def worldWith (w : Nat) (j : Job) (a : Nat) (b : Bytes) : State :=
  { served with sched := { served.sched with
      jobs := [j], stores := List.replicate 3 [] ++ [memWrite (memWrite [] 64 (leBytes 4 w)) a b] ++ List.replicate 64 [] } }

def xferDesc : Bytes := descOf [(8, 64), (25, 1), (49, 2)]
def ldinDesc : Bytes := descOf [(0, 1), (6, 128), (8, 32), (44, 8)]
def wstrDesc : Bytes := descOf [(0, 2), (6, 1), (8, 1), (16, 3), (32, 32), (44, 15), (45, 63), (56, 1)]

/-- XFER, LDIN and WSTR whose descriptors meet every rule. -/
theorem witness_streams :
    let t := ready [(1, 128)]
    (∀ x ∈ [(0, xferDesc), (1, ldinDesc), (2, wstrDesc)],
      Issues (worldWith (sWord 0x28 x.1 sf) (jobOf t) 128 x.2) thr (sWord 0x28 x.1 sf) sf.gp sf.gn (jobOf t) t ∧
      memRead (((worldWith (sWord 0x28 x.1 sf) (jobOf t) 128 x.2).publish thr).store ((jobOf t).phys 0)) (t.reg sf.ra).toNat 64 = x.2 ∧
      (jobOf t).descCommon x.1 128 x.2 (decodeDesc x.2) = none) ∧
    (t.reg sf.ra).toNat % 64 = 0 ∧ (t.reg sf.ra).toNat + 64 ≤ storeSize ∧ (worldOf 0 (jobOf t)).treeStreams < 64 ∧
    ((worldWith (sWord 0x28 0 sf) (jobOf t) 128 xferDesc).publish thr).xferCheck (jobOf t) 128 (decodeDesc xferDesc) = none ∧
    ((worldWith (sWord 0x28 1 sf) (jobOf t) 128 ldinDesc).publish thr).ldinCheck (jobOf t) 128 (decodeDesc ldinDesc) = none ∧
    ((worldWith (sWord 0x28 2 sf) (jobOf t) 128 wstrDesc).publish thr).wstrCheck (jobOf t) 128 (decodeDesc wstrDesc) = none := by
  refine ⟨?_, by decide, by decide, by decide, by decide, by decide, by decide⟩
  intro x hx
  simp only [List.mem_cons, List.not_mem_nil, or_false] at hx
  rcases hx with rfl | rfl | rfl
  all_goals exact ⟨⟨⟨by decide, ⟨_, rfl, rfl, by decide⟩, rfl, rfl, rfl, rfl, rfl⟩, by decide, pcOk_four _⟩, by decide, by decide⟩

/-- Engines: a half that holds 32 steps of INT8, a FULL tile 0, an EMPTY tile 1, and operations in flight. -/
def resident : Resident := { fmt := 0, group := 32, k := 32, tags := [0], lanes := List.replicate 128 [], scales := [] }
def engine : Engine := { half0 := { cond := .alone, data := resident }, tile0 := { state := .full, data := [] } }
def opPass (half tile k : Nat) (started : Bool) : EngOp :=
  { kind := .pass, thread := 0, pc := 0, tile := tile, half := half, k := k, started := started, groups := k / 32 }
def jobEng (t : Thread) (g : Engine) : Job :=
  { jobOf t with clusters := [{ phys := 3, threads := [t], engines := [g, {}, {}, {}] }] }
def eng : Eng := { job := 7, cluster := 0, engine := 0 }

theorem witness_engines :
    -- PASS of 32 steps on tile 1, DRAIN of tile 0 in ROW layout with stride 512 and ACCLD of tile 1
    (let t := ready [(1, 4), (2, 0x200000)];
      Issues (worldOf (sWord 0x29 0 sf) (jobEng t engine)) thr (sWord 0x29 0 sf) sf.gp sf.gn (jobEng t engine) t ∧
      (worldOf (sWord 0x29 0 sf) (jobEng t engine)).engine? eng = some (jobEng t engine, engine) ∧ engine.passesFull = false ∧
      (jobEng t engine).passCheck eng engine (t.reg sf.ra) (passOp 0 0 (t.reg sf.ra) (t.reg sf.rb)) = none) ∧
    ({ engine with ops := [opPass 0 1 32 true, opPass 0 1 32 false] } : Engine).passesFull = true ∧
    (let t := ready [(1, 16), (2, 4096), (4, 0x2000000)];
      Issues (worldOf (sWord 0x29 1 sf) (jobEng t engine)) thr (sWord 0x29 1 sf) sf.gp sf.gn (jobEng t engine) t ∧
      (jobEng t engine).drainCheck engine (t.reg sf.ra) (drainOp 0 0 (t.reg sf.ra) (t.reg sf.rb) (t.reg sf.rc)) = none) ∧
    (let t := ready [(1, 4), (2, 0x5F0000)];
      Issues (worldOf (sWord 0x29 2 sf) (jobEng t engine)) thr (sWord 0x29 2 sf) sf.gp sf.gn (jobEng t engine) t ∧
      (jobEng t engine).accldCheck engine (accldOp 0 0 (t.reg sf.ra) (t.reg sf.rb)) = none) ∧
    -- DISCARD of a FULL tile, of an EMPTY one, and of one that a pass is filling
    (let t := ready [];
      Issues (worldOf (sWord 0x29 3 sf) (jobEng t engine)) thr (sWord 0x29 3 sf) sf.gp sf.gn (jobEng t engine) t ∧
      (worldOf 0 (jobEng t engine)).engine? eng = some (jobEng t engine, engine) ∧ (engine.tile (bitsAt (t.reg sf.ra).toNat 2 1)).state = .full ∧
      (engine.tile 1).state = .empty ∧
      ({ engine with tile0 := { state := .accumulating } } : Engine).tile 0 = { state := .accumulating }) ∧
    -- what begins at once
    (engine.ops = [] ∧ (opPass 0 1 32 false).started = false ∧ (opPass 0 1 32 false).tile < 2 ∧
      (opPass 0 1 32 false).tileBad engine = false ∧ (jobEng (ready []) engine).passBad 0 0 engine (opPass 0 1 32 false) = false) := by
  refine ⟨⟨⟨⟨by decide, ⟨_, rfl, rfl, by decide⟩, rfl, rfl, rfl, rfl, rfl⟩, by decide, by decide⟩, rfl, by decide, by decide⟩,
    by decide,
    ⟨⟨⟨by decide, ⟨_, rfl, rfl, by decide⟩, rfl, rfl, rfl, rfl, rfl⟩, by decide, by decide⟩, by decide⟩,
    ⟨⟨⟨by decide, ⟨_, rfl, rfl, by decide⟩, rfl, rfl, rfl, rfl, rfl⟩, by decide, by decide⟩, by decide⟩,
    ⟨⟨⟨by decide, ⟨_, rfl, rfl, by decide⟩, rfl, rfl, rfl, rfl, rfl⟩, by decide, by decide⟩, rfl, by decide, by decide, rfl⟩,
    by decide⟩

/-- Operations of an engine that can end: a pass whose steps have issued, a drain, an accumulator load, and input loads. -/
def opOf (k : EngOpKind) (tile : Nat) : EngOp := { kind := k, thread := 0, pc := 0, tile := tile, started := true }
def blockDesc (t0 : Nat) : StreamDesc := decodeDesc (descOf [(0, 0x21), (2, t0), (6, 1), (8, 32), (25, 1), (44, 1)])

theorem witness_operations_end :
    (let g : Engine := { engine with ops := [{ opPass 0 1 32 true with group := 1 }] };
      (worldOf 0 (jobEng (ready []) g)).engine? eng = some (jobEng (ready []) g, g) ∧
      g.ops.find? (fun o => o.kind = .pass && o.stepsDone) = some { opPass 0 1 32 true with group := 1 }) ∧
    (∀ x ∈ [(EngOpKind.drain, 0), (.accld, 1)],
      let g : Engine := { engine with ops := [opOf x.1 x.2] };
      (worldOf 0 (jobEng (ready []) g)).engine? eng = some (jobEng (ready []) g, g) ∧
      g.ops.find? (fun o => o.kind = x.1 && o.started && o.tile = x.2) = some (opOf x.1 x.2)) ∧
    -- input loads: from a plain source, and blocks in their place and out of it
    (let o := { opOf .load 2 with desc := some (decodeDesc ldinDesc) };
      let j := jobEng (ready []) { engine with ops := [o] };
      (worldOf 0 j).haltedBy (.job 7) = false ∧ [o].find? (fun o => o.kind = .load && o.started) = some o ∧
      (∃ spec, j.operand? (decodeDesc ldinDesc) = some spec ∧ (decodeDesc ldinDesc).layout ≠ 2)) ∧
    (let j := jobEng (ready []) engine;
      let spec : OperandSpec := { fmt := 0, group := 32, enc := 0 };
      j.operand? (blockDesc 0) = some spec ∧ (blockDesc 0).layout = 2 ∧
        (blockResident ((worldOf 0 j).srcRead j 0 (blockDesc 0)) (blockDesc 0) spec).isSome = true ∧
        j.operand? (blockDesc 255) = some spec ∧
        blockResident ((worldOf 0 j).srcRead j 0 (blockDesc 255)) (blockDesc 255) spec = none) := by
  refine ⟨⟨rfl, by decide⟩, ?_, ⟨by decide, by decide, ⟨{ fmt := 0, group := 32, enc := 0 }, by decide, by decide⟩⟩,
    ⟨by decide, by decide, by decide, by decide, by decide⟩⟩
  intro x hx
  simp only [List.mem_cons, List.not_mem_nil, or_false] at hx
  rcases hx with rfl | rfl
  all_goals exact ⟨rfl, by decide⟩

/-- A stream of one block for engine 0, which has delivered `n` blocks. -/
def stream (n : Nat) : Stream :=
  { handle := 0, cluster := 0, desc := decodeDesc (descOf [(0, 0x22), (6, 1), (8, 1), (44, 1), (56, 1)]), dests := [(0, 0)], delivered := n }
def spec0 : OperandSpec := { fmt := 0, group := 32, enc := 0 }
/-- Its block, staged: in its place, or of the wrong tag. -/
def staged (tag : Nat) : Staged :=
  { stream := 0, idx := 0, block := { elems := [], tag := tag, meta1 := 0, scales := [], scaleTag := tag, scaleMeta1 := 0 } }

theorem witness_groups :
    -- a running pass whose block is staged
    (∀ tag ∈ [0, 1],
      let g : Engine := { engine with ops := [opPass 0 1 32 true], staging := [staged tag] };
      let j : Job := { jobEng (ready []) g with streams := [stream 1] };
      (worldOf 0 j).engine? eng = some (j, g) ∧ g.running? = some (opPass 0 1 32 true) ∧ g.resident? 0 = some resident ∧
      j.streamFor? 0 0 0 = some (stream 1) ∧ j.operand? (stream 1).desc = some spec0 ∧ (g.stagedOf? (stream 1)).isSome = true ∧
      g.stagedOf? (stream 1) = some (staged tag) ∧
      groupAligned resident (stream 1).desc spec0 (staged tag).block 0 0 = decide (tag = 0) ∧ pairOk resident spec0 = true) ∧
    -- a pass whose block is still to be delivered, and no pass
    (∀ ops ∈ [[opPass 0 1 32 true], []],
      let g : Engine := { engine with ops := ops };
      let j : Job := { jobEng (ready []) g with streams := [stream 0] };
      (worldOf 0 j).engine? eng = some (j, g) ∧ g.running? = ops.head? ∧ g.stagedOf? (stream 0) = none ∧
      j.streams.find? (fun t => t.dests.contains (0, 0) && j.canDeliver t) = some (stream 0) ∧
      ((worldOf 0 j).deliver 7 (stream 0)).isSome = true) ∧
    (resident.fmt ≠ 9 ∧ engine.sums = none ∧ (opPass 0 1 32 true).tile < 2) ∧
    -- the first fault of a job and a later one
    ∀ n ∈ [0, 1], let j : Job := { jobOf (ready []) with alignFaults := n };
      (worldOf 0 j).job? 7 = some j ∧ j.ending = none ∧ j.alignFaults = n := by
  refine ⟨?_, ?_, by decide, ?_⟩
  · intro tag h
    simp only [List.mem_cons, List.not_mem_nil, or_false] at h
    rcases h with rfl | rfl <;> exact ⟨rfl, by decide⟩
  · intro ops h
    simp only [List.mem_cons, List.not_mem_nil, or_false] at h
    rcases h with rfl | rfl <;> exact ⟨rfl, by decide⟩
  · intro n h
    simp only [List.mem_cons, List.not_mem_nil, or_false] at h
    rcases h with rfl | rfl <;> exact ⟨rfl, by decide⟩

/-- Objects: a durable and a volatile one of 64 KiB, each with a version. -/
def objOf (id kind : Nat) (durable : Bool) (tier : Nat) : Obj :=
  { id := id, kind := kind, durable := durable, tier := tier, size := 65536
    versions := [{ num := 1, state := .current, lun := 16 * id, size := 65536 }] }
def withObjs (os : List Obj) (s : State) : State := { s with tiers := { s.tiers with objects := os } }

/-- A dirty budget of `b` bytes, and one dirty page. -/
def dirtyObj : Obj :=
  { id := 1, kind := 7, durable := true, tier := 1, size := 65536
    versions := [{ num := 1, state := .current, lun := 16, size := 65536, dirty := [{ page := 0, since := 0 }] }] }
def dirtyBudget (b : Nat) : State :=
  { served with tiers := { served.tiers with writeThrough := false, budget := b, objects := [dirtyObj] } }

/-- Transfers to each destination, to an object written through and to one that is not, and one that is not admitted. -/
theorem witness_transfers :
    (∀ sp ∈ [0, 2, 3, 4],
      let x : Xfer := { id := 0, cluster := 0, thread := 0, pc := 0, desc := { decodeDesc xferDesc with dstSpace := sp } };
      let j : Job := { jobOf (ready []) with xfers := [x], bindings := [{ obj := 1, ver := 1, write := true }] };
      let s := withObjs [objOf 1 7 true 1, objOf 2 7 false 1] (worldOf 0 j);
      s.job? 7 = some j ∧ s.haltedBy (.job 7) = false ∧ j.xfers.find? (fun y => y.id = 0) = some x ∧ x.written = false ∧
      x.desc.dstSpace = sp ∧ (∃ b o, j.bindings[x.desc.dstSlot]? = some b ∧ s.tiers.objects.find? (·.id = b.obj) = some o ∧
        s.admitsDirty 64 = true ∧ s.writesThrough o = true)) ∧
    (let s := withObjs [objOf 2 7 false 1] served; s.writesThrough (objOf 2 7 false 1) = false ∧ (objOf 2 7 false 1).durable = false) ∧
    (dirtyBudget 64).admitsDirty 64 = false ∧ (dirtyBudget 8192).admitsDirty 64 = true ∧
    (dirtyBudget 8192).writesThrough (objOf 1 7 true 1) = false ∧
    -- a transfer into an object that is written through, once its page and its map page are on flash
    (let x : Xfer := { id := 0, cluster := 0, thread := 0, pc := 0, desc := { decodeDesc xferDesc with dstSpace := 2 }, written := true };
      let j : Job := { jobOf (ready []) with xfers := [x], bindings := [{ obj := 1, ver := 1, write := true }] };
      let s := withObjs [objOf 1 7 true 1] (worldOf 0 j);
      s.job? 7 = some j ∧ j.xfers.find? (fun y => y.id = 0) = some x ∧ x.written = true ∧ s.stillDirty (j.xferPages x.desc) = [] ∧
      ∀ m ∈ s.xferMaps j x, s.ftl.dirtyMaps.any (·.page = m) = false) ∧
    (let j : Job := { jobOf (ready []) with streams := [stream 1] };
      (worldOf 0 j).job? 7 = some j ∧
      j.streams.find? (fun t => t.handle = 0 && t.live && !t.ended && t.delivered = t.desc.length) = some (stream 1)) := by
  refine ⟨?_, by decide, by decide, by decide, by decide, ⟨rfl, by decide⟩, ⟨rfl, by decide⟩⟩
  intro sp h
  simp only [List.mem_cons, List.not_mem_nil, or_false] at h
  rcases h with rfl | rfl | rfl | rfl
  all_goals exact ⟨rfl, by decide, by decide, by decide, by decide, _, _, rfl, rfl, by decide, by decide⟩

/-- The drive `n` BT after power good. -/
def atBt (n : Nat) (s : State) : State := { s with clk := { s.clk with cycle := 600 * n } }

/-- A job whose one thread stands at the barrier of pause point 0, whose entry ends or starts a layer. -/
def paused (e : PauseEntry) (limit : Nat) : Job :=
  { jobOf { ready [] with st := .barrier 0 } with
    image := some { img with
      pauses := [e]
      convs := [{ layer := 0, target := 0, wide := 6, group := 0, enc := 0, static := false, sr := false, monitor := true
                  staticScale := 0, bandLo := 0, bandHi := 0, oobLimit := limit, srSeed := 0 }] }
    layerSaves := [{ index := 0, clusters := [], sync := [] }] }
def endEntry : PauseEntry := { pauseAt 0 with layerEnd := true }

/-- Pause points without a layer's end, with one that passes, and with one that fails. -/
theorem witness_pausePoints :
    (∀ j ∈ [paused (pauseAt 0) 0, paused endEntry 1, paused endEntry 0],
      (worldOf 0 j).job? 7 = some j ∧ j.state = .running ∧ j.ending = none ∧ j.quiet = true ∧ j.reached? = some 0) ∧
    (paused (pauseAt 0) 0).pause? 0 = some (pauseAt 0) ∧ (pauseAt 0).layerEnd = false ∧
    (paused endEntry 1).pause? 0 = some endEntry ∧ (paused endEntry 1).layerFails 0 = false ∧ endEntry.layerEnd = true ∧
    (paused endEntry 0).layerFails 0 = true ∧ (paused endEntry 0).layerSave? 0 = some { index := 0, clusters := [], sync := [] } ∧
    ({ ready [] with st := .exited } : Thread).st = .exited ∧ (ready []).st ≠ .exited ∧ (paused endEntry 0).image.isSome = true ∧
    -- a job that runs no program
    (let j : Job := { jobOf (ready []) with image := none };
      (worldOf 0 j).job? 7 = some j ∧ j.state = .running ∧ j.ending = none ∧ j.quiet = true ∧ j.image = none) := by
  refine ⟨?_, by and_intros <;> first | rfl | decide⟩
  intro j h
  simp only [List.mem_cons, List.not_mem_nil, or_false] at h
  rcases h with rfl | rfl | rfl
  all_goals exact ⟨rfl, rfl, rfl, by decide, by decide⟩

/-- A placement entry of one unit of slot 0, and the job that moves it. -/
def place (op tier : Nat) : PlaceEntry :=
  { trigger := 0, op := op, tier := tier, slot := 0, priv := false, wait := false, offset := 0, length := 65536, storeOffset := 0, clusters := 1 }
def moving (p : PlaceEntry) : Job :=
  { jobOf (ready []) with moves := [{ entry := p, since := 0 }], bindings := [{ obj := 1, ver := 1, write := true }] }

/-- A promotion that can be carried out; one into a DRAM tier without room, `TIR_PROMOTE_WAIT` after it began; an eviction of a
dirty page. -/
def fullDram : State :=
  { atBt 1000 served with tiers := { served.tiers with withdrawn := 10 ^ 9, objects := [objOf 1 7 true 2] } }

theorem witness_moves :
    (moving (place 0 1)).moves = [{ entry := place 0 1, since := 0 }] ∧
    ((withObjs [objOf 1 7 true 2] served).carryOut (moving (place 0 1)) (place 0 1)).1 = true ∧
    (fullDram.carryOut (moving (place 0 1)) (place 0 1)).1 = false ∧ (fullDram.carryOut (moving (place 2 1)) (place 2 1)).1 = false ∧
    ((withObjs [dirtyObj] fullDram).carryOut (moving (place 1 1)) (place 1 1)).1 = false ∧
    0 + fullDram.tiers.promoteWait ≤ fullDram.bt := by
  and_intros <;> first | rfl | decide

/-- Jobs of clients with different v. -/
def waitingJob (id client order : Nat) : Job := { jobOf (ready []) with id := id, client := client, order := order, state := .waiting, started := false, clusters := [] }
def twoJobs (v0 v1 : Nat) : State :=
  { atBt 3000 served with sched := { served.sched with
      jobs := [jobOf (ready []), waitingJob 8 1 1]
      clients := { enabled := true, weight := 1, limit := 68, vtime := v0 } :: { enabled := true, weight := 4096, limit := 68, vtime := v1 } ::
        List.replicate 254 {} } }
/-- A slot whose entry has the bytes given by offset. -/
def slotOf (id : Nat) (bs : List (Nat × Nat)) : Slot := { id := id, sq := 0, entry := descOf bs, order := 0, fetchBt := 0 }
def withSlots (cs : List Slot) (s : State) : State := { s with atr := { s.atr with slots := cs } }

/-- The image with the hash of its sections. -/
def hashed : Image := { img with sections := digest64 (img.code ++ img.const) }
def startOf (g : Option Image) : State :=
  { twoJobs 0 0 with sched := { (twoJobs 0 0).sched with jobs := [jobOf (ready []), { waitingJob 8 1 1 with image := g }] } }

theorem witness_jobs :
    (twoJobs 0 0).still = false ∧
    (∀ g ∈ [some hashed, some img, none], (startOf g).tryStart = some ({ waitingJob 8 1 1 with image := g }, [0])) ∧
    digest64 (hashed.code ++ hashed.const) = hashed.sections ∧ 0 < img.threads ∧
    -- a job of which every thread has exited
    (let j := jobOf { ready [] with st := .exited };
      let s := withSlots [slotOf 5 []] (worldOf 0 j);
      s.job? 7 = some j ∧ j.endNow = some none ∧ s.slot? j.slot = some (slotOf 5 []) ∧ s.reachable (s.ringOf 0) = true) ∧
    -- a slice that ends while a client with a lower v, and none with a lower v, waits
    ((twoJobs 1 0).job? 7 = some (jobOf (ready [])) ∧ (jobOf (ready [])).sliceEnd ≤ (twoJobs 1 0).bt ∧ (jobOf (ready [])).marked = false ∧
      (∃ k ∈ (twoJobs 1 0).waiting, (twoJobs 1 0).jobV k < (twoJobs 1 0).jobV (jobOf (ready []))) ∧
      (∀ k ∈ (twoJobs 1 1).waiting, (twoJobs 1 1).jobV (jobOf (ready [])) ≤ (twoJobs 1 1).jobV k)) ∧
    256 * 16 ≤ ({ jobOf (ready []) with watchdog16 := 4096 } : Job).watchdog16 ∧
    -- a job that has waited for clusters, and one whose deadline has passed
    (let j : Job := { waitingJob 7 0 0 with shortSince := some 0 };
      let s := atBt 1000000 (worldOf 0 j);
      s.job? 7 = some j ∧ j.shortSince = some 0 ∧ j.state = .waiting ∧ j.ending = none ∧ 0 + 1000000 ≤ s.bt) ∧
    (let c := slotOf 5 [(1, 8), (12, 10)];
      let j := waitingJob 7 0 0;
      let s := withSlots [c] (atBt 11 (worldOf 0 j));
      s.job? 7 = some j ∧ s.slot? j.slot = some c ∧ j.state = .waiting ∧ j.started = false ∧ j.ending = none ∧ j.kind = .run ∧
        s.deadlinePassed c.entry c.fetchBt = true) := by
  refine ⟨rfl, ?_, rfl, ?_⟩
  · intro g h
    simp only [List.mem_cons, List.not_mem_nil, or_false] at h
    rcases h with rfl | rfl | rfl <;> rfl
  · and_intros <;> first | rfl | decide

theorem witness_charge :
    ((twoJobs 0 0).sched.jobs.map (·.id)).Nodup ∧ (twoJobs 0 0).job? 7 = some (jobOf (ready [])) ∧
    (∃ c : Client, 0 < c.weight ∧ c.rem < c.weight ∧ c.vtime + (4096 + c.rem) / c.weight ≤ 0xFFFFFFFFFFFFFFFF) := by
  refine ⟨by decide, rfl, ⟨{ weight := 4096, rem := 4095, vtime := 0xFFFFFFFFFFFFFFFF - 1 }, by decide, by decide, by decide⟩⟩

/-- Ring 0 with `head` and `tail`, bound to completion ring 0, both of 16 entries and enabled; `cq` is the completion ring. -/
def sq0 (tail : Nat) : Sq := { base := 0x10000, size := 16, enabled := true, tail := tail }
def cq0 : Cq := { base := 0x20000, size := 16, enabled := true }
def ringsOf (q : Sq) (c : Cq) (s : State) : State :=
  { s with atr := { s.atr with sqs := q :: List.replicate 255 {}, cqs := c :: List.replicate 255 {} } }
def rings : State := ringsOf (sq0 0) cq0 served

/-- Enables with the smallest and the largest ring, disables, and what is refused. -/
theorem witness_rings :
    served.ringOpen 0 0 = true ∧ rings.ringOpen 0 255 = true ∧ served.power.phase = .service ∧
    (rings.sq 1).enabled = false ∧ bitsAt 0x00100001 0 1 = 1 ∧ bitsAt 0x00100001 16 16 = 2 ^ 4 ∧ bitsAt 0x10000001 16 16 = 2 ^ 12 ∧
    (rings.sq 1).base % 4096 = 0 ∧ (rings.cq (bitsAt 0x00100001 8 8)).enabled = true ∧ (rings.cq 1).enabled = false ∧
    bitsAt 0x00100000 0 1 = 0 ∧ (rings.sq 0).enabled = true ∧ (rings.sq 0).cq = bitsAt 0x00100000 8 8 ∧
    (rings.sq 0).size = bitsAt 0x00100000 16 16 ∧ (rings.cq 0).size = bitsAt 0x00100000 16 16 ∧
    (∃ q ∈ rings.atr.sqs, q.enabled = true ∧ q.cq = 0) ∧ (∀ q ∈ (ringsOf {} cq0 served).atr.sqs, q.enabled = true → q.cq ≠ 0) ∧
    (∀ k, 4 ≤ k → k ≤ 12 → bitsAt 0x00080001 16 16 ≠ 2 ^ k) ∧ ((ringsOf { base := 8 } cq0 served).sq 0).base % 4096 ≠ 0 ∧
    (rings.cq (bitsAt 0x00100101 8 8)).enabled = false := by
  refine ⟨by decide, by decide, rfl, by decide, by decide, by decide, by decide, by decide, by decide, by decide, by decide,
    by decide, by decide, by decide, by decide, ⟨sq0 0, by decide, by decide, by decide⟩, by decide, ?_, by decide, by decide⟩
  intro k h4 h12
  have : k = 4 ∨ k = 5 ∨ k = 6 ∨ k = 7 ∨ k = 8 ∨ k = 9 ∨ k = 10 ∨ k = 11 ∨ k = 12 := by omega
  rcases this with rfl | rfl | rfl | rfl | rfl | rfl | rfl | rfl | rfl <;> decide

/-- Doorbells at the last index of a ring and one past it; a completion doorbell that releases all that is posted, and one more. -/
theorem witness_doorbells :
    (rings.sq 0).disabling = false ∧ (rings.sq 0).halted = false ∧ bitsAt 15 0 12 < (rings.sq 0).size ∧
    (rings.sq 0).size ≤ bitsAt 16 0 12 ∧ (rings.sq 1).enabled = false ∧ (rings.cq 1).enabled = false ∧
    (let c : Cq := { cq0 with tail := 3 };
      let s := ringsOf (sq0 0) c served;
      let behind := ((s.cq 0).tail + (s.cq 0).size - (s.cq 0).head) % (s.cq 0).size;
      (3 + (s.cq 0).size - (s.cq 0).head) % (s.cq 0).size ≤ behind ∧ behind < (4 + (s.cq 0).size - (s.cq 0).head) % (s.cq 0).size ∧
      (s.cq 0).badHead = false ∧ ((ringsOf (sq0 0) { c with badHead := true } served).cq 0).badHead = true) := by decide

/-- An entry that is new and accepted (BLOCK_FLUSH), one that is new and refused, and one that is not new. -/
theorem witness_fetch :
    let s := ringsOf (sq0 1) cq0 (twoJobs 0 0)
    let e := fun bs => memRead (memWrite [] 0x10000 (descOf bs)) (s.sq 0).base 64
    s.turn = some 0 ∧
    (match s.validate (e [(0, 0x13)]) false with | .ok _ => true | .error _ => false) = true ∧
    (match s.validate (e [(0, 0xFF)]) false with | .ok _ => false | .error _ => true) = true ∧
    BitVec.ofNat 32 (field (e [(0, 0x13)]) 4 4) = (s.sq 0).expSeq ∧ BitVec.ofNat 32 (field (e [(0, 0x13), (4, 1)]) 4 4) ≠ (s.sq 0).expSeq := by
  refine ⟨by decide, by decide, by decide, by decide, by decide⟩

/-- The record 4,096 before the expected number, of a command that has posted. -/
theorem witness_reposts :
    let p : Completion := { tag := 9, status := .ok, cflags := 4, seq := 0xFFFFF000, sq := 0, result := 0, notify := true, slot := none }
    let r : Retained := { seq := 0xFFFFF000, opcode := 0x13, tag := 9, posted := some p }
    let e := descOf [(0, 0x13), (2, 9), (5, 0xF0), (6, 0xFF), (7, 0xFF)]
    let s := ringsOf { sq0 1 with window := [r] } cq0 served
    2 ^ 32 - 4096 ≤ (BitVec.ofNat 32 (field e 4 4) - (s.sq 0).expSeq).toNat ∧
    (s.sq 0).window.find? (fun r => r.seq = BitVec.ofNat 32 (field e 4 4)) = some r ∧ r.opcode = field e 0 1 ∧ r.tag = field e 2 2 ∧
    r.posted = some p ∧ p.cflags % 2 = 0 ∧ p.cflags < 32 := by decide

/-- A command whose data buffer is being read. -/
theorem witness_refusedFetch :
    let c : Slot := { slotOf 5 [] with reads := [{ port := 0, tag := 0, addr := 0, len := 64 }] }
    let s := withSlots [c] served
    s.portAccepts 0 = true ∧ s.atr.slots.find? (fun c => c.reads.any fun m => m.port = 0 && m.tag = 0) = some c ∧
    s.slot? c.id = some c ∧ c.phase ≠ .done ∧ s.ringOf c.sq < s.atr.cqs.length := by decide

/-- A completion into the last free slot; a message that is due; a lock that is waited for; a command that ends. -/
theorem witness_completions :
    (let k : Completion := { tag := 9, status := .ok, cflags := 0, seq := 0, sq := 0, result := 0, notify := true, slot := none };
      let s := ringsOf (sq0 0) { cq0 with ready := [k], tail := 14 } served;
      (s.cq 0).ready = [k] ∧ s.homePort 0 = some 0 ∧ s.still = false ∧ (s.cq 0).held + 1 < (s.cq 0).size) ∧
    (let s := ringsOf (sq0 0) { cq0 with unnotified := 1, coalesceTime := 5 } (atBt 5 served);
      0 < (s.cq 0).unnotified ∧ (s.cq 0).oldest + (s.cq 0).coalesceTime ≤ s.bt ∧ s.silent = false) ∧
    (let c := slotOf 5 [(0, 0x10), (1, 8), (12, 10)];
      let s := withSlots [c] (atBt 11 served);
      s.slot? 5 = some c ∧ c.phase = .handed ∧ takesLock c.opcode = true ∧ s.lockGranted 5 = false ∧
      s.deadlinePassed c.entry c.fetchBt = true ∧ s.ringOf c.sq < s.atr.cqs.length ∧ c.phase ≠ .done) ∧
    ({ slotOf 5 [] with phase := .done } : Slot).phase = .done := by
  refine ⟨⟨by decide, by decide, by decide, by decide⟩, by decide, by decide, by decide⟩

/-- Register writes: the first and last offsets that no block spans, one that is misaligned, a port that is not up, and the ends of a
client's ranges. -/
theorem witness_registerWrites :
    served.portAccepts 0 = true ∧ served.portAccepts 1 = false ∧ served.silent = false ∧ served.regOpen 0 .sch = true ∧
    (0xFFFFC : Nat) % 4 = 0 ∧ (0x80001 : Nat) % 4 ≠ 0 ∧
    (∀ v ∈ [(0x0001_0001_0001 : Nat), 0x0001_1000_0001], 1 ≤ bitsAt v 16 13 ∧ bitsAt v 16 13 ≤ 4096 ∧ bitsAt v 32 16 ≠ 0) ∧
    4096 < bitsAt 0x0001_1001_0001 16 13 ∧ bitsAt 0x0001_0000_0001 16 13 = 0 ∧ bitsAt 0x1_0001 32 16 = 0 ∧
    (served.sched.clients.getD 255 {}).enabled = false ∧ ((twoJobs 0 0).sched.clients.getD 0 {}).enabled = true ∧
    (∃ j ∈ (twoJobs 0 0).sched.jobs, j.client = 0) ∧ (∀ j ∈ (twoJobs 0 0).sched.jobs, j.client ≠ 2) := by
  refine ⟨by decide, by decide, by decide, by decide, by decide, by decide, by decide, by decide, by decide, by decide, by decide,
    by decide, ⟨jobOf (ready []), by decide, rfl⟩, by decide⟩

/-- What Handed asks, as a check. -/
def handedB (s : State) (id op : Nat) (c : Slot) : Bool :=
  decide (s.slot? id = some c) && decide (c.phase = .handed) && decide (c.opcode = op) && decide (c.reads = []) &&
    decide (c.toRead = []) && decide (s.still = false) && decide (s.haltedBy (.slot id) = false) &&
    decide (s.folioWaits c = false) && s.reachable (s.ringOf c.sq)

theorem handed_of {s : State} {id op : Nat} {c : Slot} {r : Bool} (h : handedB s id op c = true) : Handed s id op r c := by
  simp only [handedB, Bool.and_eq_true, decide_eq_true_eq] at h
  obtain ⟨⟨⟨⟨⟨⟨⟨⟨h1, h2⟩, h3⟩, h4⟩, h5⟩, h6⟩, h7⟩, h8⟩, h9⟩ := h
  exact ⟨h1, h2, h3, h4, h5, h6, h7, h8, fun _ => h9⟩

/-- A command in slot 5 that has been handed to its path. -/
def cmd (bs : List (Nat × Nat)) (s : State) : State := withSlots [slotOf 5 bs] s

/-- Every opcode can be handed to its path. -/
theorem witness_handed : ∀ op ∈ [0x00, 0x01, 0x02, 0x03, 0x08, 0x09, 0x0A, 0x0B, 0x0C, 0x0D, 0x10, 0x11, 0x12, 0x13, 0x14, 0x15, 0x20,
    0x21, 0x22, 0x23, 0x24, 0x25, 0x26, 0x27, 0x30, 0x31, 0x40, 0x41, 0x42, 0x43, 0x44, 0x45, 0x46, 0x50, 0x51, 0x52, 0x53, 0x58, 0x59,
    0x5A, 0x5B, 0x5C, 0x60, 0x61, 0x62, 0x63, 0x64], Handed (cmd [(0, op)] served) 5 op true (slotOf 5 [(0, op)]) := by
  have h : ∀ op ∈ [0x00, 0x01, 0x02, 0x03, 0x08, 0x09, 0x0A, 0x0B, 0x0C, 0x0D, 0x10, 0x11, 0x12, 0x13, 0x14, 0x15, 0x20,
      0x21, 0x22, 0x23, 0x24, 0x25, 0x26, 0x27, 0x30, 0x31, 0x40, 0x41, 0x42, 0x43, 0x44, 0x45, 0x46, 0x50, 0x51, 0x52, 0x53, 0x58, 0x59,
      0x5A, 0x5B, 0x5C, 0x60, 0x61, 0x62, 0x63, 0x64],
      handedB (cmd [(0, op)] served) 5 op (slotOf 5 [(0, op)]) = true := by decide
  exact fun op m => handed_of (h op m)

def inState (p : PowerState) : State := { served with power := { served.power with state := p } }
def withLog (rs : List FaultRec) (s : State) : State := { s with err := { s.err with log := rs } }

theorem witness_setup :
    (∀ b ∈ [RegBlock.tir, .bcn, .pwr, .sec, .err, .tst, .gat], served.regOpen 0 b = true) ∧ served.tiers.objects = [] ∧
    bitsAt 3 0 2 = 3 ∧ bitsAt 0 0 2 ≠ 3 ∧ bitsAt 0 0 2 ≠ served.beacon.cfg ∧ bitsAt 2 0 2 = served.beacon.cfg ∧
    (300 : Nat) ≤ bitsAt 300 0 10 ∧ bitsAt 720 0 10 ≤ 720 ∧ bitsAt 299 0 10 < 300 ∧ 720 < bitsAt 721 0 10 ∧
    (∀ p ∈ [PowerState.active, .capped, .quiescent], (inState p).power.state = p ∧ (inState p).regOpen 0 .pwr = true) ∧
    (∀ j ∈ served.sched.jobs, j.state ≠ .running) ∧ (∃ j ∈ (world 0 (ready [])).sched.jobs, j.state = .running) ∧
    served.sec.lock = false ∧
    (∃ pre post, ∃ r : FaultRec, (withLog [{ seq := 1, cls := 1, response := 0, isRead := true }, { seq := 2, cls := 1, response := 0 }]
      served).err.log = pre ++ r :: post ∧ (∀ q ∈ pre, q.isRead = true) ∧ r.isRead = false) ∧
    served.beacon.cfg ≠ 0 ∧ ({ served.beacon with cfg := 0 } : Beacon).cfg = 0 ∧ bitsAt 256 0 9 ≤ 256 := by
  refine ⟨by decide, rfl, by decide, by decide, by decide, by decide, by decide, by decide, by decide, by decide, by decide, by decide,
    ⟨jobOf (ready []), by decide, rfl⟩, rfl, ?_, by decide, rfl, by decide⟩
  exact ⟨[{ seq := 1, cls := 1, response := 0, isRead := true }], [], { seq := 2, cls := 1, response := 0 }, rfl, by decide, rfl⟩

/-- A die operation's place: die 0 of channel 0, unit `u`. -/
def die0 : Die := { channel := 0, die := 0 }
def rawAt (u : Nat) (es : List EraseUnit) : State :=
  { served with test := { served.test with addr := u * 4096 }, flash := { served.flash with units := es } }

theorem witness_raw :
    (let s := rawAt 100 [];
      s.portAccepts 0 = true ∧ s.power.flush ≠ .running ∧ s.power.phase = .service ∧ s.test.busy = none ∧ s.rawAddrOk = true ∧
      addrDie s.test.addr = die0 ∧ addrUnit s.test.addr = 100 ∧
      (s.eunit die0 100).isReserve = true ∧ s.lunitOf? (s.grade.dieIndex die0) 100 = none ∧ 5 ≤ s.unboundGood die0 ∧ 12 ≤ s.freeCount die0) ∧
    (∀ st ∈ [UnitState.free, .closed], ((rawAt 100 [{ die := die0, unit := 100, role := .lent, state := st }]).eunit die0 100).role = .lent ∧
      (rawAt 100 [{ die := die0, unit := 100, role := .lent, state := st }]).rawAddrOk = true) ∧
    ((rawAt 100 [{ die := die0, unit := 100, role := .lent }]).eunit die0 100).admits (addrPage 409600 false) = true ∧
    ((rawAt 100 [{ die := die0, unit := 100, role := .lent, state := .closed }]).eunit die0 100).admits (addrPage 409600 false) = false := by
  decide

/-- A service unit in a state, with a closure number. -/
def svc (k : UnitKind) (st : SvcState) : SvcUnit := { kind := k, phys := 1, state := st, closure := if st = .inService then 0 else 4 }
def withUnits (us : List SvcUnit) (s : State) : State := { s with units := us ++ [{ kind := .port, phys := 0 }] }

theorem witness_units :
    -- engine 1 named by UNIT_CLOSE in each state, alone in its group and beside another
    (∀ st ∈ [SvcState.closed, .draining, .returning, .inService],
      let s := cmd [(0, 0x00), (40, 2), (42, 1)] (withUnits [svc .engine st] served);
      handedB s 5 0x00 (slotOf 5 [(0, 0x00), (40, 2), (42, 1)]) = true ∧
      kindOf ((slotOf 5 [(0, 0x00), (40, 2), (42, 1)]).arg 40 1) = some .engine ∧ s.namedUnit? .engine 1 = some (svc .engine st)) ∧
    (withUnits [svc .engine .inService] served).leavesMinimum .engine 1 = false ∧
    (withUnits [svc .engine .inService, { svc .engine .inService with phys := 0 }] served).leavesMinimum .engine 1 = true ∧
    -- port 1 named by its closure number
    (∀ st ∈ [SvcState.closed, .draining, .returning],
      let s := cmd [(0, 0x01), (40, 4), (42, 4)] (withUnits [svc .port st] served);
      handedB s 5 0x01 (slotOf 5 [(0, 0x01), (40, 4), (42, 4)]) = true ∧
      kindOf ((slotOf 5 [(0, 0x01), (40, 4), (42, 4)]).arg 40 1) = some .port ∧ s.closureUnit? .port 4 = some (svc .port st)) ∧
    (svc .port .closed).phys < served.link.ports.length ∧
    (∀ k ∈ [UnitKind.cluster, .port], (withUnits [svc k .draining] served).unit? k 1 = some (svc k .draining) ∧
      (withUnits [svc k .draining] served).holdsNoWork k 1 = true) ∧
    (∀ k ∈ [UnitKind.docent, .engine, .dram], (withUnits [svc k .draining] served).holdsNoWork k 1 = true) ∧
    kindOf 5 = some .reduction ∧ (withUnits [{ svc .reduction .draining with phys := 0 }] served).holdsNoWork .reduction 0 = true ∧
    (∀ k ∈ [UnitKind.docent, .engine, .dram], (withUnits [svc k .draining] served).unit? k 1 = some (svc k .draining)) ∧
    (withUnits [svc .engine .returning] served).unit? .engine 1 = some (svc .engine .returning) ∧
    (withUnits [{ svc .port .returning with phys := 0 }] served).unit? .port 0 = some { svc .port .returning with phys := 0 } ∧
    (served.port 0).link = .up := by
  decide

theorem witness_reports :
    (∀ op ∈ [0x02, 0x03, 0x08, 0x0D, 0x64], Handed (cmd [(0, op)] served) 5 op true (slotOf 5 [(0, op)])) :=
  fun op h => witness_handed op (by revert op; decide)

def withSec (f : Security → Security) (s : State) : State := { s with sec := f s.sec }
def withWork (w : Work) (s : State) : State := withSlots [{ slotOf 5 [] with phase := .running, work := w }] s

theorem witness_security :
    (∀ op ∈ [0x0A, 0x0B, 0x0C, 0x09], Handed (cmd [(0, op)] served) 5 op true (slotOf 5 [(0, op)])) ∧
    (withSec (fun q => { q with lock := true }) served).updateLocked = true ∧ served.updateLocked = false ∧
    (withSec (fun q => { q with state := .writing }) served).sec.state = .writing ∧ served.sec.state ≠ .writing ∧
    -- a container being written, at its second and its third attempt
    (∀ x ∈ [(1, 1), (2, 2)], (withSec (fun q => { q with writing := some (x.1, [], x.2, false) }) served).sec.writing =
      some (x.1, [], x.2, false)) ∧ served.still = false ∧
    -- M0 as the data says it, and otherwise
    served.sec.m.getD 0 [] ≠ served.dataBytes (slotOf 5 []) ∧
    served.sec.m.getD 0 [] = served.dataBytes { slotOf 5 [] with data := [{ addr := 0, len := 64 }] } ∧
    served.sec.attestOk = true ∧ (withSec (fun q => { q with attestOk := false }) served).sec.attestOk = false ∧
    (withSec (fun q => { q with signing := some 6 }) served).sec.signing ≠ none ∧
    (let s := withSec (fun q => { q with signing := some 5 }) (withWork (.attest []) served);
      s.sec.signing = some 5 ∧ (∃ c, s.slot? 5 = some c ∧ c.work = .attest [] ∧ s.reachable (s.ringOf c.sq) = true) ∧ s.still = false) := by
  refine ⟨fun op h => witness_handed op (by revert op; decide), by decide, by decide, by decide, by decide, by decide, by decide,
    by decide, by decide, by decide, by decide, by decide, ⟨by decide, ⟨_, rfl, rfl, by decide⟩, by decide⟩⟩

/-- The header of a container of one byte of body, under key slot 0, whose SEC_VERSION is 0, and such a container. -/
def header (target : Nat) : Bytes :=
  ([(0, 0x43), (1, 0x4E), (2, 0x54), (3, 0x4E), (4, 1), (6, target), (12, 1)] : List (Nat × Nat)).foldl
    (fun d b => d.set b.1 (BitVec.ofNat 8 b.2)) (List.replicate 128 (0 : Byte))
def container (target : Nat) : Bytes := header target ++ List.replicate 29857 0

/-- The bytes are a container for the target, under key slot 0, whose key has the digest of the other. -/
structure Good (target : Nat) (b k : Bytes) : Prop where
  key : slice b 129 64 = k
  slot : field b 7 1 = 0
  body : field b 12 4 = 1
  revokes : revokeSlots b = []
  fits : headerOk target b = true
  length : b.length = 29985

theorem container_length (t : Nat) (h : (header t).length = 128) : (container t).length = 29985 := by
  rw [container, List.length_append, List.length_replicate, h]

theorem firmware_good : Good 1 (container 1) (List.replicate 64 0) :=
  ⟨by decide, by decide, by decide, by decide, by decide, container_length 1 (by decide)⟩
theorem config_good : Good 2 (container 2) (List.replicate 64 0) :=
  ⟨by decide, by decide, by decide, by decide, by decide, container_length 2 (by decide)⟩

/-- The key signed it: whether a signature verifies is a constant without a value. -/
def Signed (b : Bytes) : Prop := Config.slhVerify (slice b 129 64) (b.take 193) (slice b 193 29792) = true

/-- The fuses hold the digest of the key, and nothing is revoked. -/
def Keyed (s : State) : Prop :=
  s.sec.keyDigests = [digest64 (List.replicate 64 0)] ∧ s.sec.revoked = [] ∧ s.sec.rollback = []

theorem container_accepted {t : Nat} {b : Bytes} (g : Good t b (List.replicate 64 0)) (hv : Signed b) {s : State} (hs : Keyed s) :
    s.containerOk t b = true ∧ s.keyOk b = true := by
  obtain ⟨hk, h7, h12, hr, hh, hl⟩ := g
  obtain ⟨hd, hv1, hv2⟩ := hs
  have hc : containerLen b = 29985 := by rw [containerLen, h12]
  have ht : b.take 29985 = b := List.take_of_length_le (by omega)
  unfold Signed at hv
  have ok : s.keyOk b = true := by
    unfold State.keyOk
    rw [h7, h12, hr, hd, hv1]
    rw [hk] at hv
    dsimp only
    rw [show 128 + 1 = 129 from rfl, hk, hv]
    simp
  refine ⟨?_, ok⟩
  unfold State.containerOk State.rollback
  rw [hh, hc, ht, ok, hv2, hl]
  simp

theorem length_digest64 (b : Bytes) : (digest64 b).length = 64 := by
  simp only [digest64, fitBytes, zeroBytes, List.length_append, List.length_take, List.length_replicate]
  omega

def activateSlot : Slot :=
  { slotOf 5 [(0, 0x0B), (40, 1), (44, 0x21), (45, 0x75)] with data := [{ addr := 0x30000, len := 64 }] }
def activating (b : Bytes) : State :=
  { withSec (fun q => { q with
      state := .staging, target := 1, staged := memWrite [] 0 b, keyDigests := [digest64 (List.replicate 64 0)] })
      (withSlots [activateSlot] served) with hostMem := memWrite [] 0x30000 (digest64 b) }

/-- FW_ACTIVATE of a container that passes every check, where its signature verifies. -/
theorem witness_activation (b : Bytes) (g : Good 1 b (List.replicate 64 0)) (hv : Signed b) :
    handedB (activating b) 5 0x0B activateSlot = true ∧ (activating b).sec.signing = none ∧
    (activating b).activateFault activateSlot = none := by
  obtain ⟨-, hk⟩ := container_accepted g hv (s := activating b) ⟨rfl, rfl, rfl⟩
  have hd : (activating b).dataBytes activateSlot = digest64 b := by
    have h := memRead_memWrite (m := []) (by decide) 0x30000 (digest64 b)
    rw [length_digest64] at h
    simp only [State.dataBytes, activating, activateSlot, List.flatMap_cons, List.flatMap_nil, List.append_nil]
    exact h
  have hb : memRead (activating b).sec.staged 0 29985 = b := by
    have h := memRead_memWrite (m := []) (by decide) 0 b
    rwa [g.length] at h
  have hn : activateSlot.arg 44 4 = 29985 := by decide
  have ht : activateSlot.arg 40 1 = 1 := by decide
  refine ⟨rfl, rfl, ?_⟩
  have hu : (activating b).updateLocked = false := rfl
  unfold State.activateFault
  rw [hn, ht]
  dsimp only
  have hst : (activating b).sec.state = .staging := rfl
  have htg : (activating b).sec.target = 1 := rfl
  have hr : (activating b).rollback = 0 := rfl
  rw [hb, hd, hk, g.fits, hu, containerLen, g.body, hst, htg, hr]
  simp [regionBytesOf]

/-- Both containers are accepted at CONFIG, where their signatures verify. -/
theorem witness_containers {c f : Bytes} (gc : Good 2 c (List.replicate 64 0)) (gf : Good 1 f (List.replicate 64 0)) (hc : Signed c)
    (hf : Signed f) {s : State} (hs : Keyed s) :
    ∃ u, s.acceptContainer 2 false c = some u ∧ ∃ v, u.acceptContainer 1 false f = some v := by
  have take : ∀ (t : Nat) (b : Bytes) (u : State), u.containerOk t b = true → ∃ v, u.acceptContainer t false b = some v ∧ (Keyed u → Keyed v) := by
    intro t b u h
    unfold State.acceptContainer
    rw [h]
    by_cases e : t = 1 <;> exact ⟨_, rfl, fun k => by simpa only [Keyed, State.updSec, State.extend, e, if_true, if_false] using k⟩
  obtain ⟨u, hu, ku⟩ := take _ _ _ (container_accepted gc hc hs).1
  obtain ⟨v, hv, -⟩ := take _ _ _ (container_accepted gf hf (ku hs)).1
  exact ⟨u, hu, v, hv⟩

/-- A block command on `n` blocks from `lba`, with its range lock granted. -/
def blockEntry (op lba n flags : Nat) : List (Nat × Nat) := [(0, op), (40, lba), (48, n), (52, flags)]
def blockCmd (op lba n flags : Nat) (s : State) : State :=
  { cmd (blockEntry op lba n flags) s with
    locks := [{ slot := 5, order := 0, lo := lba, hi := lba + n - 1, exclusive := op ≠ 0x10 }] }
/-- Logical unit 0 LOST, and logical unit 0 at a page of a bound unit. -/
def lostUnit : State := { served with ftl := { served.ftl with map := [(0, 1)] } }
def mappedUnit : State :=
  { served with ftl := { served.ftl with map := [(0, 2304)], bindings := [{ dieIndex := 0, lunit := 1, unit := 100 }] } }

theorem witness_blocks :
    (∀ op ∈ [0x10, 0x11, 0x12, 0x14], handedB (blockCmd op 1 15 0 served) 5 op (slotOf 5 (blockEntry op 1 15 0)) = true ∧
      (blockCmd op 1 15 0 served).lockGranted 5 = true) ∧
    (slotOf 5 (blockEntry 0x11 1 15 1)).lba = 1 ∧ (slotOf 5 (blockEntry 0x11 1 15 1)).nblocks = 15 ∧
    (slotOf 5 (blockEntry 0x11 1 15 1)).force = true ∧ (slotOf 5 (blockEntry 0x11 1 15 0)).force = false ∧
    (served.flashUnits 1 15).filter (fun u => (served.locate (served.mapEntry u)).isSome) = [] ∧ served.badBlock? 1 15 [] = none ∧
    (lostUnit.flashUnits 1 16).filter (fun u => (lostUnit.locate (lostUnit.mapEntry u)).isSome) = [] ∧
    lostUnit.badBlock? 1 16 [] = some 1 ∧
    (mappedUnit.flashUnits 0 16).filter (fun u => (mappedUnit.locate (mappedUnit.mapEntry u)).isSome) ≠ [] ∧
    lostUnit.writeError (rangeUnits 1 15) (partUnits 1 15) = some .mediaUncorrectable ∧
    lostUnit.writeError (partUnits 1 15) (partUnits 1 15) = some .mediaUncorrectable ∧
    served.writeError (rangeUnits 1 15) (partUnits 1 15) = none ∧ served.writeError (partUnits 1 15) (partUnits 1 15) = none ∧
    (dirtyBudget 61440).admitsDirty (4096 * 15) = false ∧ served.admitsDirty (4096 * 15) = true ∧ 0 < 15 ∧
    (dirtyBudget 0).tiers.writeThrough = false ∧ served.tiers.writeThrough = true ∧
    served.block.Ok ∧ served.ftl.Ok ∧ served.admitsDirty (4096 * (partBlocks 1 15).length) = true ∧
    (cmd [(0, 0x13)] served).earlierWrite 0 = false ∧
    ((slotOf 5 [(0, 0x15), (40, 1)]).arg 40 1 = 1 ∧ (slotOf 5 [(0, 0x15), (40, 2)]).arg 40 1 = 2 ∧
      (slotOf 5 [(0, 0x15), (40, 3)]).arg 40 1 = 3 ∧ (slotOf 5 [(0, 0x15), (40, 4)]).arg 40 1 = 4) ∧
    served.block.test.state ≠ 1 ∧
    (let s : State := { atBt 100000 served with block := { served.block with test := { state := 1 } } };
      s.block.test.state = 1 ∧ s.block.test.lastStep + 100000 ≤ s.bt) := by
  have hb : served.block.Ok := by unfold BlockRange.Ok; decide
  have hf : served.ftl.Ok := by unfold Ftl.Ok; decide
  and_intros <;> first | decide | exact hb | exact hf

/-- Objects: creation with and without room, reads before and at a lost page, writes to a current and to a new version. -/
def lossy : Obj := { objOf 1 7 true 1 with versions := [{ num := 1, state := .current, lun := 16, size := 65536, lost := [15] }] }
def writeEntry (flags : Nat) : List (Nat × Nat) := [(0, 0x21), (40, 1), (44, if flags % 2 = 1 then 2 else 1), (46, flags), (25, 16)]

/-- Logical units 0, 2 and 16 stand at pages of a bound unit. -/
def homed : State :=
  { served with ftl := { served.ftl with map := [(0, 2304), (2, 2306), (16, 2305)], bindings := [{ dieIndex := 0, lunit := 1, unit := 100 }] } }

theorem witness_objects :
    served.idHeld 1 = false ∧ served.createError 7 65536 0 true = none ∧ served.createError 5 4 0 true = some .budgetExceeded ∧
    served.tiers.flagsView = false ∧
    (∀ op ∈ [0x20, 0x22, 0x21, 0x24, 0x23, 0x25, 0x26, 0x27],
      let c : Slot := { slotOf 5 [(0, op), (40, 1)] with pins := [(1, 1)] };
      let s := withSlots [c] (withObjs [lossy] served);
      handedB s 5 op c = true ∧ c.pins = [(1, 1)] ∧ s.tiers.objects.find? (·.id = 1) = some lossy ∧ s.obj? (c.arg 40 4) = some lossy ∧
      (lossy.ver? 1).isSome = true) ∧
    -- a read of an object in DRAM, and of one whose home is on flash alone
    (withObjs [lossy] served).flashReads 1 1 [(0, 65536)] = [] ∧
    (withObjs [objOf 1 7 true 3] homed).flashReads 1 1 [(0, 4096)] ≠ [] ∧
    (∃ v, lossy.ver? 1 = some v ∧ v.firstLost 0 61440 = none ∧ v.firstLost 0 61441 = some 15) ∧
    -- OBJECT_WRITE of a page: to the current version, and to a new one with COMMIT
    (∀ flags ∈ [0, 3],
      let c := slotOf 5 (writeEntry flags);
      let s := withSlots [c] (withObjs [objOf 1 7 true 1] served);
      let n := if flags = 3 then 2 else 1;
      handedB s 5 0x21 c = true ∧ s.writeAhead c = false ∧ s.writeRange c = some (1, n, 0, 4096) ∧
      s.tiers.objects.find? (·.id = 1) = some (objOf 1 7 true 1) ∧ writeNew c.entry = decide (flags = 3) ∧
      writeCommit c.entry = decide (flags = 3) ∧ writeForce c.entry = false ∧ s.protected = false ∧
      (∀ x ∈ s.newVersionChecks (objOf 1 7 true 1) 2 65536, x.1 = false) ∧
      ((if writeNew c.entry then s.newVersion 1 n else s).version? 1 n).isSome = true ∧
      s.admitsDirty (4096 * (pagesOf 0 4096).length) = true) ∧
    (∀ v ∈ (objOf 1 7 true 1).versions, v.impaired = false ∧ v.lost = [] ∧ served.commitFault (objOf 1 7 true 1) v = none) ∧
    (∀ v ∈ lossy.versions, v.lost ≠ []) := by
  refine ⟨by decide, by decide, by decide, by decide, by decide, by decide, by decide, ⟨_, rfl, by decide, by decide⟩, ?_⟩
  and_intros <;> decide

theorem witness_objectMoves :
    (∀ op ∈ [0, 1, 2, 3], (slotOf 5 [(0, 0x23), (46, op), (47, 2), (58, 1)]).arg 46 1 = op) ∧
    unitsOf 0 65536 = [0] ∧ served.tier2Units + ([0].filter fun u => !((objOf 1 7 true 1).inSlc 1 u)).length ≤ served.tier2Limit ∧
    served.pinnedDram 1 1 [0] * 65536 ≤ served.grade.dramBytes / 2 ∧
    (let s := withObjs [{ objOf 2 7 true 2 with versions := [{ num := 1, state := .current, size := 65536 * served.tier2Limit }] }] served;
      s.tier2Limit < s.tier2Units + ([0].filter fun u => !((objOf 1 7 true 1).inSlc 1 u)).length) ∧
    (slotOf 5 [(0, 0x25), (40, 0)]).arg 40 4 = 0 ∧ (slotOf 5 [(0, 0x25), (40, 1)]).arg 40 4 ≠ 0 ∧
    (∀ v, (objOf 1 5 false 1).current? = some v → v.impaired = false) ∧
    (slotOf 5 [(0, 0x26), (44, 1)]).arg 44 1 = 1 ∧ (slotOf 5 [(0, 0x26), (44, 2)]).arg 44 1 = 2 ∧
    4 * (objOf 1 5 false 1).rewriteSize ≤ (dirtyBudget 262144).tiers.budget ∧
    (dirtyBudget 262143).tiers.budget < 4 * (objOf 1 5 false 1).rewriteSize ∧
    (dirtyBudget 262144).admitsDirty (4096 * (objOf 1 5 false 1).dirtyPages) = true ∧
    -- a promotion into DRAM with room, and without
    ((withObjs [objOf 1 7 true 2] served).promoteUnits 1 1 1 [0]).1 = true ∧ (fullDram.promoteUnits 1 1 1 [0]).1 = false ∧
    -- OBJECT_FLUSH while a page of its list is dirty, and when none is
    (let c : Slot := { slotOf 5 [(0, 0x27)] with work := .flush { pages := [(1, 1, 0)] } };
      field (descOf [(0, 0x27)]) 0 1 = 0x27 ∧ c.work = .flush { pages := [(1, 1, 0)] } ∧
      handedB (withSlots [c] (dirtyBudget 0)) 5 0x27 c = true ∧ (dirtyBudget 0).stillDirty [(1, 1, 0)] ≠ [] ∧
      handedB (withSlots [c] served) 5 0x27 c = true ∧ served.stillDirty [(1, 1, 0)] = []) := by
  refine ⟨by decide, by decide, by decide, by decide, by decide, by decide, by decide, ?_, by and_intros <;> decide⟩
  intro v h
  have e : (objOf 1 5 false 1).current? = some { num := 1, state := .current, lun := 16, size := 65536 } := by decide
  rw [e] at h
  cases h
  rfl

/-- An image of one PAUSE and one EXIT that passes Table 5-11. -/
def imageBytes : Bytes :=
  ([(0, 0x41), (1, 0x51), (2, 0x4E), (3, 0x49), (4, 1), (6, 128), (8, 0x20), (9, 1), (12, 2), (14, 1), (16, 1), (18, 1), (20, 1), (32, 64), (36, 64), (44, 1),
    (128, 1), (132, 192), (136, 8), (144, 5), (149, 1), (152, 32), (156, 1), (195, 0xAC), (196, 1), (199, 0x88)] : List (Nat × Nat)).foldl
    (fun d b => d.set b.1 (BitVec.ofNat 8 b.2)) (List.replicate 288 (0 : Byte))
def imageMem : State := { served with hostMem := memWrite [] 0x30000 imageBytes }
def loadSlot (len : Nat) : Slot :=
  { slotOf 5 [(0, 0x30), (24, len % 256), (25, len / 256), (40, 3), (44, 1)] with data := [{ addr := 0x30000, len := len }] }

theorem witness_programs :
    handedB (withSlots [loadSlot 288] imageMem) 5 0x30 (loadSlot 288) = true ∧
    (withSlots [loadSlot 288] imageMem).dataBytes (loadSlot 288) = imageBytes ∧ imageFault imageBytes = none ∧
    imageFault (imageBytes.take 287) = some (2, 8) ∧ served.programError 3 1 (imageSize 288) = none ∧ served.obj? 3 = none ∧
    served.admitsDirty (imageSize 288) = true ∧
    -- one that waits for room in D, and one that names a version that exists
    (let s := withSlots [loadSlot 288] { dirtyBudget 0 with hostMem := imageMem.hostMem };
      handedB s 5 0x30 (loadSlot 288) = true ∧ s.programError 3 1 (imageSize 288) = none ∧ s.obj? 3 = none ∧ s.admitsDirty (imageSize 288) = false) ∧
    (withObjs [objOf 3 7 true 1] served).programError 3 1 (imageSize 288) ≠ none ∧
    -- a JOB_RUN at its admission, and when it is handed over
    field (descOf [(0, 0x31)]) 0 1 = 0x31 ∧
    (let c : Slot := { slotOf 5 [(0, 0x31), (46, 1)] with pins := [(3, 1)] };
      let o : Obj := { objOf 3 2 true 1 with versions := [{ num := 1, state := .current, size := 4096, image := some img }] };
      let j : Job := { waitingJob 7 0 0 with ready := false };
      let s := withSlots [c] (withObjs [o] (worldOf 0 j));
      handedB s 5 0x31 c = true ∧ c.pins = (3, 1) :: [] ∧ s.image? 3 1 = some img ∧ s.jobOf? 5 = some j) := by
  and_intros <;> decide +kernel

def bytesAt (m : Mem) (bs : List (Nat × Nat)) : Mem := bs.foldl (fun m b => memSet m b.1 (BitVec.ofNat 8 b.2)) m
/-- An object of a kind whose current version holds the bytes given by offset. -/
def objWith (id kind size : Nat) (bs : List (Nat × Nat)) : Obj :=
  { id := id, kind := kind, durable := false, tier := 1, size := size
    versions := [{ num := 1, state := .current, size := size, data := bytesAt [] bs }] }
/-- A flat index of two nodes of 32 elements of format 0 under kernel slot 0. -/
def index : Obj := objWith 1 3 131072 [(0, 0x49), (1, 0x4E), (2, 0x44), (3, 0x58), (4, 1), (8, 32), (16, 2), (25, 64), (33, 128), (32768, 1), (32776, 2)]
/-- A command in slot 5 with `len` bytes of data at host address 0x30000. -/
def dataSlot (bs : List (Nat × Nat)) (len : Nat) : Slot :=
  { slotOf 5 (bs ++ [(24, len % 256), (25, len / 256)]) with data := [{ addr := 0x30000, len := len }] }
def hostData (bs : List (Nat × Nat)) (s : State) : State := { s with hostMem := bytesAt [] (bs.map fun b => (0x30000 + b.1, b.2)) }
def verOf (o : Obj) : Version := o.versions.headD { num := 0, state := .current, size := 0 }

theorem witness_indexes :
    (∀ op ∈ [0x40, 0x50], handedB (cmd [(0, op), (40, 1)] served) 5 op (slotOf 5 [(0, op), (40, 1)]) = true) ∧ served.idHeld 1 = false ∧
    (served.tiers.objects.filter fun o => o.kind = 3).length < 4096 ∧
    4096 ≤ ((withObjs (List.replicate 4096 (objOf 2 3 true 1)) served).tiers.objects.filter fun o => o.kind = 3).length ∧
    served.createError 3 65536 0 true = none ∧ served.createError 3 (2 ^ 48) 0 true = some .capacityExhausted ∧
    -- ACCESSION of one entry
    (let c := dataSlot [(0, 0x41), (40, 1), (46, 1)] 64;
      let s := hostData [(0, 1), (8, 9)] (withSlots [c] (withObjs [index] served));
      let v := verOf index;
      handedB s 5 0x41 c = true ∧ s.accessionAhead c = false ∧ s.obj? (c.arg 40 4) = some index ∧ index.current? = some v ∧
      v.impaired = false ∧ c.dataLen = c.arg 46 2 * v.indexHdr.entryStride ∧
      (∀ b ∈ chunksOf v.indexHdr.entryStride (c.arg 46 2) (s.dataBytes c), entryOk v.indexHdr b = true) ∧
      v.index.entries.length + c.arg 46 2 ≤ 16777216 ∧
      ceilDiv (v.listBytes + c.arg 46 2 * v.indexHdr.entryStride) 65536 - ceilDiv v.listBytes 65536 ≤ s.freeUnits ∧ c.opcode = 0x41 ∧
      index.durable = false ∧ s.protected = false ∧ s.writesThrough index = false) ∧
    ({ index with durable := true } : Obj).durable = true ∧ (dirtyBudget 4096).admitsDirty 4096 = false ∧
    (dirtyBudget 16384).admitsDirty 4096 = true ∧
    (∀ op ∈ [0x46, 0x53], let s := cmd [(0, op), (40, 1)] (withObjs [index] served);
      handedB s 5 op (slotOf 5 [(0, op), (40, 1)]) = true ∧ s.obj? 1 = some index) := by
  and_intros <;> decide

theorem witness_searches :
    -- one query, plain, with RERANK and with ENCODE, on the F and the E grade
    (∀ f ∈ [0, 2, 4], ∀ g ∈ [Grade.f, .e], ∀ op ∈ [0x42, 0x43],
      let c : Slot := { dataSlot [(0, op), (40, 1)] 96 with work := .search { ver := 1 } };
      let s := { hostData [(0, 1), (9, f)] (withSlots [c] (withObjs [index] served)) with grade := g };
      let p := decodeSearch (s.dataBytes c);
      handedB s 5 op c = true ∧ c.work = .search { ver := 1 } ∧ s.queriesRunning + p.nq ≤ 512 ∧
      (s.searchCtx c p { ver := 1 }).isSome = true ∧ p.encode = decide (f = 2) ∧ p.rerank = decide (f = 4) ∧
      s.grade.hasDistance = decide (g = .f)) ∧
    (verOf index).impaired = false ∧ ({ verOf index with impaired := true } : Version).impaired = true ∧
    -- KERNEL_LOAD: good, of a wrong length, with a wrong mask, and into a slot in use
    kernelLengthOk (builtinKernel 0) = true ∧ kernelFieldsOk (builtinKernel 0) = true ∧ kernelLengthOk [] = false ∧
    kernelFieldsOk (kernelBytes 0 0 [0x08000000] [0x58000000]) = false ∧ kernelLengthOk (kernelBytes 0 0 [0x08000000] [0x58000000]) = true ∧
    (withObjs [index] served).kernelInUse 63 = false ∧
    (withObjs [objWith 1 3 131072 [(7, 4)]] served).kernelInUse 4 = true ∧
    -- ACCESSION_MERGE and the end of a merge
    (let c : Slot := { slotOf 5 [(0, 0x44), (40, 1), (44, 2)] with pins := [(1, 1)] };
      let s := withSlots [c] (withObjs [index] served);
      let v := verOf index;
      handedB s 5 0x44 c = true ∧ s.obj? (c.arg 40 4) = some index ∧ c.pins = (c.arg 40 4, 1) :: [] ∧ index.ver? 1 = some v ∧
      v.state = .current ∧ v.impaired = false ∧
      (∀ x ∈ s.newVersionChecks index (c.arg 44 2) index.size, x.1 = false) ∧
      1 ≤ (v.liveVectors (v.snap v.index.committed)).length ∧
      (v.indexHdr.merged (v.liveVectors (v.snap v.index.committed)).length []).end_ ≤ index.size ∧ v.indexHdr.graph = false ∧
      index.durable = false) ∧
    (let v : Version := { verOf index with state := .superseded };
      ({ index with versions := [v] } : Obj).ver? 1 = some v ∧ v.state ≠ .current) ∧
    (let c : Slot := { slotOf 5 [(0, 0x44), (40, 1), (44, 2)] with phase := .running, work := .merge 2 0 .built };
      let w : Version := { num := 2, state := .building, size := 131072 };
      let o : Obj := { index with versions := index.versions ++ [w], merging := true };
      let s := withSlots [c] (withObjs [o] served);
      s.slot? 5 = some c ∧ c.phase = .running ∧ c.work = .merge 2 0 .built ∧ s.obj? (c.arg 40 4) = some o ∧ o.current? = some (verOf index) ∧
      o.ver? 2 = some w ∧ w.state = .building ∧ o.accessing = none ∧ w.dirty = [] ∧ w.impaired = false ∧ w.lost = [] ∧ o.durable = false ∧
      ({ w with impaired := true } : Version).impaired = true) := by
  and_intros <;> decide

/-- A step takes at most 16,384 distinct indices. -/
theorem stepLength_le (l : List Nat) : ∀ seen : List Nat, l.Nodup → (∀ x ∈ l, x ∉ seen) → stepLength seen l ≤ 16384 - seen.length := by
  induction l with
  | nil => intro seen _ _; simp [stepLength]
  | cons i is ih =>
    intro seen hd hs
    have hi : i ∉ seen := hs i (by simp)
    have hd' := List.nodup_cons.mp hd
    unfold stepLength
    rw [if_neg (by simpa using hi)]
    split
    · omega
    · have h := ih (i :: seen) hd'.2 (by
        intro x hx hm
        rcases List.mem_cons.mp hm with rfl | hm
        · exact hd'.1 hx
        · exact hs x (by simp [hx]) hm)
      simp only [List.length_cons] at h
      omega

/-- A plain table of BF16 rows of 32 elements with `n` rows, its page 4 lost or not. -/
def tableVer (lost : List Nat) : Version :=
  { num := 1, state := .current, size := 2 ^ 30, lost := lost, data := bytesAt [] [(8, 9), (10, 32), (18, 1), (33, 64)] }
def tableObj (lost : List Nat) : Obj := { objOf 1 4 false 1 with versions := [tableVer lost] }
def gatherSlot (op count : Nat) (w : Work) (ph : SlotPhase) : Slot :=
  { dataSlot [(0, op), (40, 1), (48, count)] (8 * count) with pins := [(1, 1)], work := w, phase := ph }

theorem witness_gathers :
    (∀ op ∈ [0x51, 0x52],
      let c := gatherSlot op 1 .none .handed;
      let s := withSlots [c] (withObjs [tableObj []] served);
      handedB s 5 op c = true ∧ (s.atr.slots.filter fun d => d.opcode = op && d.phase = .running).length < 8 ∧
      (∀ d ∈ s.atr.slots, d.opcode = op → d.phase = .handed → c.order ≤ d.order) ∧ c.pins = (1, 1) :: [] ∧
      s.version? 1 1 = some (tableVer []) ∧ (tableVer []).impaired = false ∧
      badIndex (tableVer []).tableHdr.logical ((chunksOf 8 (c.arg 48 4) (s.dataBytes c)).map leNat) = none ∧
      badIndex (tableVer []).tableHdr.logical ((chunksOf 8 (c.arg 48 4)
        ((hostData [(2, 1)] s).dataBytes c)).map leNat) = some 0) ∧
    -- steps that end a gather, and rows of which one is lost
    (∀ op ∈ [0x51, 0x52],
      let c := gatherSlot op 2 (.gather { indices := [0, 1] }) .running;
      let s := withSlots [c] (withObjs [tableObj []] served);
      s.slot? 5 = some c ∧ c.phase = .running ∧ c.work = .gather { indices := [0, 1] } ∧ c.pins = (1, 1) :: [] ∧ s.still = false ∧ c.fetching = [] ∧
      s.haltedBy (.slot 5) = false ∧ c.opcode = op ∧ s.reachable (s.ringOf c.sq) = true ∧ s.version? 1 1 = some (tableVer []) ∧
      stepLength [] [0, 1] = 2) ∧
    (let h := (tableVer [4]).tableHdr;
      let rows := ([0, 1].flatMap h.rowsOf).eraseDups;
      rows.all (fun p => ((tableVer []).firstLost (h.rowAt p.1 p.2) (h.stride (h.region p.1).2)).isNone) = true ∧
      rows.any (fun p => ((tableVer [4]).firstLost (h.rowAt p.1 p.2) (h.stride (h.region p.1).2)).isSome) = true) ∧
    (atBt 1000000 served).gather.decayed + 1000000 ≤ (atBt 1000000 served).bt := by
  and_intros <;> decide

/-- A step that does not end a gather: of 16,385 distinct indices one remains. -/
theorem witness_longGather :
    (gatherSlot 0x51 2 (.gather { indices := List.range 16385 }) .running).work = .gather { indices := List.range 16385 } ∧
    ((List.range 16385).take (stepLength [] (List.range 16385))).length < (List.range 16385).length := by
  refine ⟨rfl, ?_⟩
  have h := stepLength_le (List.range 16385) [] List.nodup_range (by simp)
  simp only [List.length_nil] at h
  rw [List.length_take, List.length_range]
  omega

/-- A folio of one layer, one head, 32 BF16 elements and one block, holding `n` tokens. -/
def folioVer (n : Nat) : Version :=
  { num := 1, state := .current, size := 196608, data := bytesAt [] [(6, 1), (8, 1), (9, 0x99), (12, 32), (16, 1), (20, n)] }
def folioObj (n : Nat) : Obj := { objOf 1 5 false 1 with versions := [folioVer n] }
def folioSlot (op : Nat) (bs : List (Nat × Nat)) : Slot := { slotOf 5 ([(0, op), (40, 1)] ++ bs) with pins := [(1, 1)] }

theorem witness_folios :
    (let c := slotOf 5 [(0, 0x58), (40, 1), (44, 1), (46, 1), (48, 32), (50, 0x99), (52, 1)];
      let s := withSlots [c] served;
      handedB s 5 0x58 c = true ∧ s.idHeld (c.arg 40 4) = false ∧ (s.tiers.objects.filter fun o => o.kind = 5).length < 16777216 ∧
      s.createError 5 (folioOfArgs c.entry).size 0 false = none ∧
      s.createError 5 (folioOfArgs c.entry).size 0 true = some .budgetExceeded) ∧
    (∀ x ∈ [(0x59, 127, 1), (0x59, 126, 1), (0x59, 127, 2), (0x5C, 127, 1), (0x5C, 127, 127), (0x5C, 127, 128), (0x5A, 127, 0), (0x5B, 127, 0)],
      let c := folioSlot x.1 [(48, x.2.2)];
      let s := withSlots [c] (withObjs [folioObj x.2.1] served);
      handedB s 5 x.1 c = true ∧ s.folioWaits c = false ∧ c.pins = (1, 1) :: [] ∧
      s.tiers.objects.find? (·.id = 1) = some (folioObj x.2.1) ∧ (folioObj x.2.1).ver? 1 = some (folioVer x.2.1) ∧
      (folioVer x.2.1).folioHdr.tokens = x.2.1 ∧ (folioVer x.2.1).folioHdr.blocks = 1 ∧ c.arg 48 4 = x.2.2 ∧
      (folioObj x.2.1).durable = false ∧ s.writesThrough (folioObj x.2.1) = false ∧ s.attendsRunning < 64) ∧
    128 * 1 < 127 + 2 ∧ (126 + 1) / 128 = 126 / 128 ∧ (127 + 1) / 128 ≠ 127 / 128 ∧ 127 / 128 * 128 ≤ 1 ∧ 127 < 128 ∧
    (let c := folioSlot 0x5A [(52, 127), (56, 1)]; 127 < c.arg 52 4 + c.arg 56 4 ∧ c.arg 52 4 ≤ 127) ∧
    (folioSlot 0x5B [(50, 1)]).arg 50 1 = 1 ∧ (folioSlot 0x5B []).arg 52 4 + (folioSlot 0x5B []).arg 56 4 ≤ 127 / 128 * 128 ∧
    -- a folio that DRAM holds, and one that lies on flash alone; one written through, and one that is not admitted
    (∀ x ∈ [(0x5A, [(49, 1), (56, 1)]), (0x5B, [(48, 1), (56, 1)])],
      let c := folioSlot x.1 x.2;
      let f := (folioVer 127).folioHdr;
      (withObjs [folioObj 127] served).flashReads 1 1 (f.reads c) = [] ∧
      (let s := withSlots [c] (withObjs [{ folioObj 127 with tier := 3 }] homed);
        handedB s 5 x.1 c = true ∧ s.flashReads 1 1 (f.reads c) ≠ [])) ∧
    served.writesThrough { folioObj 126 with durable := true } = true ∧ (dirtyBudget 0).admitsDirty (4096 * 2) = false ∧
    (let c := slotOf 5 [(0, 0x58), (40, 1), (44, 1), (46, 1), (47, 1), (48, 32), (50, 0x99), (52, 1)];
      let s := withSlots [c] { dirtyBudget 8192 with tiers := { (dirtyBudget 8192).tiers with budget := 2 ^ 40, holdBack := true } };
      handedB s 5 0x58 c = true ∧ s.classOf 5 (c.arg 47 1 % 4) (c.arg 47 1 / 4 % 4) = true ∧
      s.createError 5 (folioOfArgs c.entry).size 0 true = none) := by
  and_intros <;> decide

/-- Domain slot 0 with a tree of three ranks seen from its root, or from rank 1, and a round under way. -/
def chunk0 : Chunk := { index := 0, exp := 0, a := [], chosen := [], first := { exp := 0, left := { seen := [4], count := some 6 } } }
def round1 : Round :=
  { num := 1, slot := 5, residual := 2, chunkFirst := 0, chunkCount := 1, k := 16, inBf16 := false, outBf16 := false, startTick := 0, chunks := [chunk0] }
def domain (st : DomState) (r : Option Round) : Domain :=
  { state := st, tag := 7, ranks := 3, rank := 0, left := 2, right := 3, stallBt := 1000, nextRound := 1, round := r }
def withDomain (m : Domain) (s : State) : State := { s with domains := m :: List.replicate 3 {} }
def packet (kind round chunk sender idx : Nat) : RedPacket :=
  { tag := 7, kind := kind, overflow := false, pass2 := false, sender := sender, pktIndex := idx, pktCount := 6, round := round
    chunk := chunk, exp := 0, margin := 0, k := 16, chunkCount := 1, entries := [] }
def domEntry : List (Nat × Nat) := [(0, 0x60), (42, 2), (46, 7), (52, 1), (60, 0xE8), (61, 3)]

theorem witness_domains :
    (let c := slotOf 5 domEntry;
      let s := withSlots [c] served;
      handedB s 5 0x60 c = true ∧ c.arg 40 1 < s.domains.length ∧ (∀ x ∈ (s.specDomainSet c.entry).objects, x.1 = false) ∧
      s.reductionClosed = false ∧ (∀ p ∈ s.link.ports, p.held = []) ∧ (withUnits [] s).reductionClosed = true) ∧
    (let c := slotOf 5 [(0, 0x61)];
      let s := withSlots [c] (withDomain (domain .ready none) served);
      handedB s 5 0x61 c = true ∧ (∀ x ∈ (s.specDomainClear c.entry).objects, x.1 = false)) ∧
    (let c := slotOf 5 [(0, 0x62), (40, 2), (48, 1)];
      let s := withSlots [c] served;
      handedB s 5 0x62 c = true ∧ s.idHeld (c.arg 40 4) = false ∧ s.createError 6 (resSize (c.arg 48 4)) 3 false = none ∧
      s.createError 6 (resSize (c.arg 48 4)) 3 true = some .budgetExceeded) ∧
    -- a durable store, with and without room in D for its first pages
    (∀ b ∈ [1572864, 2 ^ 40],
      let c := slotOf 5 [(0, 0x62), (40, 2), (46, 1), (48, 1)];
      let full : Version := { verOf dirtyObj with dirty := (List.range 384).map fun p => { page := p, since := 0 } };
      let s := withSlots [c] (withObjs [{ dirtyObj with versions := [full] }] (dirtyBudget b));
      handedB s 5 0x62 c = true ∧ s.idHeld (c.arg 40 4) = false ∧ s.reductionClosed = false ∧ s.classOf 6 (c.arg 46 1) 3 = true ∧
      s.createError 6 (resSize (c.arg 48 4)) 3 true = none ∧
      s.admitsDirty (4096 * (pageList (c.arg 40 4) 1 0 32 ++ pageList (c.arg 40 4) 1 65536 (2 * c.arg 48 4)).length) = decide (b ≠ 1572864)) ∧
    handedB (cmd [(0, 0x63)] served) 5 0x63 (slotOf 5 [(0, 0x63)]) = true ∧
    (let c : Slot := { slotOf 5 [(0, 0x63), (42, 1)] with pins := [(2, 1)], work := .reduce 0 false, phase := .running };
      let s := withSlots [c] (withDomain (domain .ready none) (withObjs [objOf 2 6 false 3] served));
      s.slot? 5 = some c ∧ c.work = .reduce 0 false ∧ (s.version? (c.pins.headD (0, 0)).1 (c.pins.headD (0, 0)).2).isSome = true ∧
      s.still = false ∧ (s.dom 0).round = none ∧ s.earlierReduce 0 c.order = false ∧ s.reductionClosed = false ∧
      s.workChunks + c.arg 42 2 ≤ 4096) ∧
    (let s := withDomain (domain .reducing (some round1)) (atBt 1000 served);
      (s.dom 0).round = some round1 ∧ round1.sending = false ∧ s.startDue 0 = true ∧ s.startDue 1001 = false ∧ 0 < s.domains.length ∧
      (s.dom 0).state = .reducing ∧ round1.phase = 0 ∧ 0 + (s.dom 0).stallBt ≤ s.bt ∧
      s.unitIs .reduction 0 .draining = false) := by
  and_intros <;> decide

theorem witness_packets :
    (3 ≤ 3 ∧ 3 ≤ 6 ∧ served.grade.hasReduction = true ∧ served.portUsable 0 = true) ∧
    (let s : State := { served with link := { served.link with ports := [{}, { link := .up, partner := true }] } };
      s.portUsable 0 = false ∧ s.portUsable 1 = true) ∧
    ((served.dom 3).state = .empty ∧ (domain .ready none).tag ≠ ({ packet 0 1 0 1 0 with tag := 8 } : RedPacket).tag) ∧
    (domain .ready none).pastRound 1 = false ∧ ({ domain .ready none with lastDone := 1 } : Domain).pastRound 1 = true ∧
    -- at the root: a packet of an unknown sender, of an unknown chunk, seen before, and new
    (let m := domain .reducing (some round1);
      m.tag = (packet 0 1 0 1 4).tag ∧ m.round = some round1 ∧ round1.num = (packet 0 1 0 1 4).round ∧
      senderPart m (packet 0 1 0 9 0) = none ∧ round1.chunks.find? (·.index = (packet 0 1 1 1 0).chunk) = none ∧
      senderPart m (packet 0 1 0 1 4) = some false ∧ senderPart m (packet 0 1 0 2 0) = some true ∧
      round1.chunks.find? (·.index = (packet 0 1 0 1 4).chunk) = some chunk0 ∧ (packet 0 1 0 1 4).k = round1.k ∧
      (packet 0 1 0 1 4).chunkCount = round1.chunkCount ∧ chunk0.complete = false ∧
      (packet 0 1 0 1 4).pktIndex ∈ chunk0.first.left.seen ∧ (packet 0 1 0 1 5).pktIndex ∉ chunk0.first.left.seen ∧
      ({ round1 with mismatched := true } : Round).mismatched = true) ∧
    -- at rank 1: packets from its parent
    (∀ kind ∈ [1, 2], senderPart { domain .reducing (some round1) with rank := 1 } (packet kind 1 0 0 0) = some false ∧
      (packet kind 1 0 0 0).kind = kind) := by
  refine ⟨by decide, by decide, by decide, by decide, by decide, by decide, by decide⟩

def withPort (p : Port) (s : State) : State := { s with link := { s.link with ports := [p, {}] } }
def upPort : Port := { link := .up, partner := true, width := 4, lanes := 4 }
def params (c : Nat) : LinkParams := { width := 4, lanes := 4, node := 9, hostNode := 1, credits := [c, c, 0, c, c, c, c], delay := 0 }

theorem witness_training :
    (let s := withPort {} served; s.linkAlive = true ∧ (s.port 0).link = .down ∧ s.unitIs .port 0 .inService = true ∧ (s.port 0).trainFailed = false) ∧
    ((withPort { link := .training } served).port 0).link = .training ∧ (params 129).width = 4 ∧ ({ params 129 with width := 2 } : LinkParams).width = 2 ∧
    (params 129).credits.length = 7 ∧ (∀ v ∈ [0, 1, 3, 4, 5, 6], 129 ≤ (params 129).credits.getD v 0) ∧
    (∃ v ∈ [0, 1, 3, 4, 5, 6], (params 128).credits.getD v 0 < 129) ∧
    (withUnits [svc .port .closed] served).unitIs .port 1 .closed = true ∧
    (∀ n ∈ [1, 2], let s := withPort { link := .training, attempts := n } (atBt 100000 served);
      (s.port 0).link = .training ∧ (s.port 0).trainSince + 100000 ≤ s.bt ∧ (s.port 0).attempts = n ∧ s.unitIs .port 0 .inService = true) ∧
    (let s : State := { atBt 1000000 served with units := [svc .port .closed] };
      (∀ u ∈ s.units, u.kind = .port → u.state ≠ .inService) ∧ s.linkAlive = true ∧ s.link.lastRetry + 1000000 ≤ s.bt) := by
  refine ⟨by decide, by decide, by decide, by decide, by decide, by decide, ⟨0, by decide, by decide⟩, by decide, by decide, by decide⟩

def waiting1 : TxPkt := { cls := 1, vc := 0, dst := 0, slots := 2 }

theorem witness_retraining :
    (served.port 0).link = .up ∧ (served.port 1).link ≠ .up ∧
    (∀ n ∈ [2, 3], let s := withPort { upPort with sameReplays := n, replay := [{ fseq := 0, pkt := waiting1, part := 0, final := true }] } (atBt 4 served);
      (s.port 0).link = .up ∧ (s.port 0).lastAck + 4 ≤ s.bt ∧ (s.port 0).replay ≠ [] ∧ (s.port 0).sameReplays = n) ∧
    (∀ l ∈ [[0], [0, 0]], let s := withPort { link := .retraining, failedRetrains := l } (atBt 100000 served);
      (s.port 0).link = .retraining ∧ ((s.port 0).failedRetrains.filter fun t => s.bt ≤ t + 100000).length = l.length) ∧
    (let s := withPort { upPort with starvedSince := some 0 } (atBt 100000 served);
      (s.port 0).starvedSince = some 0 ∧ s.portUsable 0 = true ∧ 0 + 100000 ≤ s.bt) := by decide

theorem witness_flits :
    (served.port 0).link = .up ∧ served.silent = false ∧ served.portAccepts 0 = true ∧ ((served.port 0).rxSeq + 1) % 65536 = 0 ∧
    (let f := fun t q => (descOf [(4, t), (0, q)]);
      field (f 0 0) 4 1 = 0 ∧ field (f 0 0) 0 2 = 0 ∧ field (f 0 1) 0 2 ≠ 0 ∧ 1 ≤ field (f 1 0) 4 1 ∧ field (f 3 0) 4 1 ≤ 3 ∧ 3 < field (f 4 0) 4 1) ∧
    served.atr.slots.find? (fun c => c.reads.any fun m => m.port = 0 && m.tag = 0) = none ∧
    (let m : Mrd := { port := 0, tag := 0, addr := 0, len := 64 };
      let c : Slot := { slotOf 5 [] with reads := [m] };
      (withSlots [c] served).atr.slots.find? (fun c => c.reads.any fun m => m.port = 0 && m.tag = 0) = some c ∧
      c.reads.find? (fun m => m.port = 0 && m.tag = 0) = some m) := by decide

def withBeacon (b : Beacon) (s : State) : State := { s with beacon := b }
def beaconOf (tick : Nat) : BeaconFlit := { tick := tick, bseq := 8, refLocked := true, crcOk := true }

theorem witness_beacons :
    (let s := withBeacon { cfg := 2, state := .acquiring, supply := 0, agree := 2, agreeTick := 40, agreeBt := 0 } (withPort { upPort with bseq := some 7 } (atBt 10 served));
      (s.port 0).link = .up ∧ s.beacon.cfg ≠ 1 ∧ (∀ q, (s.port 0).bseq = some q → (beaconOf 51).bseq % 65536 = (q + 1) % 65536) ∧
      ¬(∀ q, (s.port 0).bseq = some q → ({ beaconOf 51 with bseq := 9 } : BeaconFlit).bseq % 65536 = (q + 1) % 65536) ∧
      s.beacon.supply = 0 ∧ 2 ≤ s.beacon.agree ∧
      (beaconOf 51).tick + (s.port 0).delay / 100 ≤ s.beacon.agreeTick + (s.bt - s.beacon.agreeBt) + 1 ∧
      s.beacon.agreeTick + (s.bt - s.beacon.agreeBt) + 1 < (beaconOf 52).tick + (s.port 0).delay / 100) ∧
    (∀ st ∈ [TimeState.locked, .holdover],
      let s := withBeacon { cfg := 0, state := st, supply := 0, tick := 100 } (atBt 10 served);
      s.beacon.state = st ∧ s.epoch = 110 ∧ s.beacon.agree = 0) ∧
    ({ beaconOf 0 with crcOk := false } : BeaconFlit).crcOk = false ∧ ({ beaconOf 0 with refLocked := false } : BeaconFlit).refLocked = false ∧
    -- AUX_TIME: a frame 96 after the one before, and one without a frame before
    (let s := withBeacon { cfg := 1, aux := some (4, 0) } (atBt 191 served);
      s.beacon.cfg = 1 ∧ s.beacon.cfg ≠ 0 ∧ s.beacon.state = .acquiring ∧ (∃ t0, s.beacon.aux = some (100 - 96, t0) ∧ 96 ≤ 100 ∧ s.bt < t0 + 192) ∧
      ¬(∃ t0, (withBeacon { cfg := 1 } s).beacon.aux = some (100 - 96, t0) ∧ 96 ≤ 100 ∧ s.bt < t0 + 192)) := by
  refine ⟨⟨by decide, by decide, ?_, ?_, by decide, by decide, by decide, by decide⟩, by decide, by decide, by decide,
    ⟨by decide, by decide, by decide, ⟨0, by decide, by decide, by decide⟩, ?_⟩⟩
  · intro q h
    have e : q = 7 := by simpa [withBeacon, withPort, State.port] using h.symm
    subst e
    decide
  · intro h
    exact absurd (h 7 (by decide)) (by decide)
  · rintro ⟨t0, h, _⟩
    simp [withBeacon] at h

theorem witness_timeBase :
    (let s := withBeacon { state := .locked } (atBt 192 served); s.beacon.state = .locked ∧ s.beacon.lastValid + 192 ≤ s.bt) ∧
    (let s := withBeacon { state := .holdover } (atBt 50000 served); s.beacon.state = .holdover ∧ s.beacon.lastValid + 50000 ≤ s.bt) ∧
    (let s := withBeacon { supply := 2 } (atBt 65536 served); s.beacon.checked + 65536 ≤ s.bt ∧ s.beacon.supply < 3) ∧
    (-100 ≤ (-100 : Int) ∧ (100 : Int) ≤ 100 ∧ (-101 : Int) < -100 ∧ 100 < (101 : Int)) ∧
    (let s := atBt 1000000 served; s.link.lastEcho + 1000000 ≤ s.bt ∧ (s.port 0).link = .up ∧ (s.port 1).link = .down ∧ 1 < s.link.ports.length ∧
      ((withPort { link := .retraining } s).port 0).link = .retraining) ∧
    ((withPort { upPort with echoAt := some 3 } served).port 0).echoAt = some 3 ∧
    (let s : State := { withBeacon { cfg := 0 } (atBt 3 served) with test := { served.test with pulse := true, period := 1 } };
      s.beacon.cfg = 0 ∧ s.test.pulse = true ∧ s.epoch % (s.test.period + 1) ≠ 0) ∧
    (let s : State := { withBeacon { cfg := 0 } (atBt 4 served) with test := { served.test with pulse := true, period := 1 } };
      s.epoch % (s.test.period + 1) = 0) := by decide

def powered (f : Power → Power) (s : State) : State := { s with power := f s.power }
def starting (p : Phase) : State := powered (fun q => { q with state := .starting, phase := p }) served
def fuses : FuseMap :=
  { badClusters := [], spareClusters := [], badDocents := [], spareDocents := [], builtClusters := 68, keyDigests := [], keyRevoke := [3]
    rollbackBits := [255], attestCrcOk := true }
def row (g : Nat) : Bytes := [0, 0, 0, 0, 0, 0, BitVec.ofNat 8 g, 0]
def copies (g : Nat) : List IdentityCopy := [⟨true, row g⟩, ⟨false, []⟩, ⟨true, row g⟩]

theorem witness_startUp :
    (let s := powered (fun q => { q with state := .off }) served; s.power.state = .off ∧ s.power.mated = true ∧ s.power.overvoltage = false) ∧
    (∀ p ∈ [Phase.fuse, .config, .sram, .dram, .mount], (starting p).inPhase p = true) ∧ (starting .fuse).deadLink? = none ∧
    (starting .sram).unit? .cluster 0 ≠ none ∧ (starting .sram).unit? .docent 0 ≠ none ∧
    chooseRow ((copies 1).take 4) = some (row 1) ∧ chooseRow ((copies 0).take 4) = some (row 0) ∧ chooseRow (([] : List IdentityCopy).take 4) = none ∧
    gradeOf (field (row 1) 6 1) = some .f ∧ (starting .dram).clustersBuilt = Grade.clustersBuilt .f ∧ gradeOf (field (row 0) 6 1) = none ∧
    chooseRow ((copies 2).take 4) = some (row 2) ∧ gradeOf (field (row 2) 6 1) = some .s ∧ (starting .dram).clustersBuilt ≠ Grade.clustersBuilt .s := by
  decide

/-- A mount on the units of the default fuse map, and on one cluster alone. -/
theorem witness_mount :
    let s := starting .mount
    let t := ({ starting .mount with units := [{ kind := .cluster, phys := 0, logical := some 0 }] } : State)
    s.mountUnits.meetsMinimum = true ∧ ((s.mountUnits).mountAll [] []).power.shutdownHeld = false ∧ t.mountUnits.meetsMinimum = false := by
  decide

theorem witness_powerLoss :
    (27999 < 28000 ∧ 42000 < 42001 ∧ toleratedMv 28000 = true ∧ toleratedMv 42000 = true) ∧
    (∀ p ∈ [PowerState.active, .capped, .quiescent, .shuttingDown, .starting, .shutdown, .dusk], (inState p).power.state = p ∧ p ≠ .off) ∧
    (let s := powered (fun q => { q with tolerated := some 0 }) (atBt 100000 served); s.power.tolerated = some 0 ∧ 0 + 100000 ≤ s.bt) ∧
    (let s := powered (fun q => { q with state := .off, overvoltage := true }) served; s.power.overvoltage = true ∧ s.power.state = .off) ∧
    (powered (fun q => { q with flush := .triggered }) served).power.flush = .triggered ∧
    (∀ a ∈ [AfterFlush.off, .restart, .shutdown], ∀ on ∈ [true, false],
      let s := powered (fun q => { q with flush := .running, after := a, onInput := on }) served;
      s.power.flush = .running ∧ s.power.after = a ∧ s.power.onInput = on) := by decide

theorem witness_heat :
    (served.power.state = .active ∧ served.power.measuring = false ∧ served.power.measured = false) ∧
    (let s := powered (fun q => { q with measured := true }) (atBt 86400000000 (dirtyBudget 268435456));
      s.power.measured = true ∧ s.power.lastMeasure + 86400000000 ≤ s.bt ∧ s.tiers.budget < s.dirtyBytes + 268435456 ∧ s.dirtyBytes ≠ 0 ∧
      s.dirtyBytes + 268435456 ≤ (dirtyBudget 268439552).tiers.budget ∧ served.dirtyBytes = 0) ∧
    (powered (fun q => { q with measuring := true }) served).power.measuring = true ∧
    (let s := powered (fun q => { q with hotCompute := true, coolCompute := some 0, flash85 := some 0 }) (atBt 1000000 served);
      s.power.hotCompute = true ∧ s.power.coolCompute = some 0 ∧ 0 + 100000 ≤ s.bt ∧ s.power.flash85 = some 0 ∧ 0 + 1000000 ≤ s.bt ∧
      (1049 : Int) < 1050 ∧ (849 : Int) < 850 ∧ (950 : Int) ≤ 950 ∧ (920 : Int) < 921 ∧ (921 : Int) < 950 ∧ (920 : Int) ≤ 920) ∧
    (let s := powered (fun q => { q with cutBackground := true, cutForeground := 2400, governorCut := 14 }) served;
      s.power.cutBackground = true ∧ s.power.flashLimit ≤ s.power.cutForeground ∧ s.power.governorCut < 15 ∧
      Nat.min (Nat.min 720000 (s.power.cap * 1000)) (20 * 36000) < 720001) ∧
    (let s := powered (fun q => { q with overPower := 9, overCurrent := 9 }) served;
      720000 < 720001 ∧ 9 ≤ s.power.overPower ∧ 20000 < 20001 ∧ 9 ≤ s.power.overCurrent ∧ s.power.state = .active) ∧
    (served.power.cutBackground = false ∧ served.power.cutReads = 0 ∧ served.power.governorCut = 0 ∧ served.power.cutForeground = 0 ∧
      720000 ≤ Nat.min (Nat.min 720000 (served.power.cap * 1000)) (20 * 36000)) := by decide

/-- The store of unit 0 of object 1, which lies at page 1 of a bound unit. -/
def store1 : StoreRec := { id := 0, item := .object 1 1 0, lun := 16, slots := [{ die := 0, unit := 100, page := 1, gen := 0 }] }

def toStore : Bytes := memRead (verOf dirtyObj).data 0 65536

/-- Whichever stripe group takes it, the unit can be stored. -/
theorem witness_storeHost : ((withObjs [dirtyObj] homed).storeHost (.object 1 1 0) 16 toStore).1.isSome = true := by
  have key : ∀ g < 64, let s := (withObjs [dirtyObj] homed).takeFree.2;
      ((if s.groupAdmits g then (s.admitUnit g).sendUnit .foreground (.object 1 1 0) g 0 (s.hostSlc g) 16 toStore false else (none, s)).1).isSome
        = true := by decide +kernel
  exact key _ (Nat.mod_lt (Config.storeDie (withObjs [dirtyObj] homed).takeFree.1) (by decide : 0 < 64))

theorem witness_writeBack :
    served.still = false ∧ served.haltedBy .drive = false ∧ served.power.phase = .service ∧
    (let s := withObjs [dirtyObj] homed;
      (s.version? 1 1).isSome = true ∧ s.inFlight (16 + 0) = false ∧
      0 < s.storeLocation store1 ∧ store1.item = .object 1 1 0 ∧ (s.ownerOf? store1.lun).isSome = true) ∧
    (homed.ownerOf? store1.lun).isSome = false ∧ 0 < homed.storeLocation store1 ∧
    ({ served with ftl := { served.ftl with dirtyMaps := [{ page := 0, since := 0 }] } } : State).mapSlot ≠ [] ∧
    served.bt < served.ftl.nextWindow ∧ (atBt 10000 served).ftl.nextWindow ≤ (atBt 10000 served).bt ∧
    (let s := rawAt 100 [{ die := die0, unit := 100, state := .closed }];
      (s.eunit die0 100).state = .closed ∧ (s.eunit die0 100).failing = false ∧ (s.eunit die0 100).waitMaps = none ∧ poolRole die0 100 = none) ∧
    0 + 0 = 0 ∧ 1 + 0 ≠ 0 := by
  and_intros <;> decide

/-- A running die operation of an owner. -/
def running (k : DieOpKind) (w : DieOpOwner) : DieOp := { die := die0, kind := k, unit := 100, page := 0, prio := .background, st := .running, owner := w }
def withOps (os : List DieOp) (es : List EraseUnit) : State := { served with flash := { served.flash with ops := os, units := es } }
def doneRec : JournalRec := { typ := .done, slc := false, die := die0, unit := 100, seq := 3, durableA := true, durableB := true }

theorem witness_dieEnds :
    (∀ w ∈ [DieOpOwner.blank, .command 5 0, .object 5 0, .raw, .scan], (withOps [running .read w] []).runningOp? die0 .read = some (running .read w)) ∧
    (let o := running .read .blank; let s := withOps [o, { o with st := .queued, page := 575 }] [];
      s.runningOp? die0 .read = some o ∧ (s.endOp o).flash.ops.any (DieOp.checksBlank die0 100) = true ∧
      ((withOps [o] []).endOp o).flash.ops.any (DieOp.checksBlank die0 100) = false) ∧
    (running .read .blank).die = die0 ∧ ((withOps [] []).eunit die0 100).state = .free ∧ [0] ≠ ([] : List Nat) ∧
    1 ≤ ((withOps [] [{ die := die0, unit := 100, blankFails := 1 }]).eunit die0 100).blankFails ∧ (DieOpOwner.raw ≠ .blank) ∧
    (withOps [running .program .raw] []).runningOp? die0 .program = some (running .program .raw) ∧
    (let o : DieOp := { running .program .dusk with fill := some { data := [] } }; o.fill = some { data := [] } ∧ o.owner = .dusk) ∧
    (withOps [running .erase .raw] []).runningOp? die0 .erase = some (running .erase .raw) ∧ poolRole die0 100 = none ∧
    (∀ os ∈ [[], [{ running .program (.journal 3) with st := .queued }]],
      let s : State := { withOps os [{ die := die0, unit := 100, state := .erasing }] with
        flash := { (withOps os [{ die := die0, unit := 100, state := .erasing }]).flash with journal := [doneRec] } };
      s.dueDone? = some doneRec ∧ s.recordOps 3 = os ∧ s.test.busy = none) ∧
    ({ running .program (.journal 3) with st := .queued } : DieOp).st ≠ .running := by decide

theorem witness_paths :
    (served.pathOpen (.d2d 6 1) = true) ∧
    (∀ n ∈ [2, 3], let e : PathErrors := { path := .d2d 6 1, first := 0, count := n };
      let s : State := { atBt 10 served with err := { served.err with paths := [e] } };
      s.err.paths.find? (fun e => e.path = .d2d 6 1 && s.bt ≤ e.first + 10) = some e ∧
      ({ s with clk := { s.clk with cycle := 6600 } } : State).err.paths.find? (fun e => e.path = .d2d 6 1 &&
        ({ s with clk := { s.clk with cycle := 6600 } } : State).bt ≤ e.first + 10) = none) ∧
    (DmaOwner.drive, LineKind.directory) ∉ served.err.halts ∧
    (DmaOwner.drive, LineKind.directory) ∈ ({ served.err with halts := [(.drive, .directory)] } : ErrState).halts ∧
    (∃ c, (cmd [] served).slot? 5 = some c ∧ c.phase ≠ .done) ∧
    (∃ j, (world 0 (ready [])).job? 7 = some j ∧ j.state = .running) ∧
    ((atBt 1000 served).docent.restarted.getD 0 0 + 1000 ≤ (atBt 1000 served).bt) ∧ (served.bt < served.docent.restarted.getD 0 0 + 1000) ∧
    (∃ u, served.unit? .docent 0 = some u ∧ u.state = .inService) := by
  refine ⟨by decide, by decide, by decide, by decide, ⟨slotOf 5 [], by decide, by decide⟩, ⟨jobOf (ready []), rfl, rfl⟩, by decide, by decide,
    ⟨{ kind := .docent, phys := 0, logical := some 0 }, by decide, by decide⟩⟩

theorem witness_jobErrors :
    (let j := jobOf (ready []);
      (worldOf 0 j).job? thr.job = some j ∧ j.state = .running ∧ j.ending = none ∧ j.clusters[thr.cluster]? = some { phys := 3, threads := [ready []] } ∧
      (ready []).st ≠ .exited ∧ 3 ∉ j.spanEvents ∧ 3 ∈ ({ j with spanEvents := [3] } : Job).spanEvents ∧
      (∀ f ∈ (worldOf 0 j).err.lineFails, f.phys ≠ 3)) ∧
    (∃ i, i < served.sources .directory ∧ [false, true][i]? = some true) := by
  refine ⟨by decide, ⟨1, by decide, by decide⟩⟩

theorem witness_sideband :
    State.reset.sideband = true ∧ State.reset.pinsFree = true ∧ served.pinsFree = false ∧ served.sideband = true ∧
    (inState .off).sideband = false ∧ (inState .off).power.state = .off ∧ (List.replicate 3191 true).length = 3191 ∧
    (powered (fun q => { q with inVolt := 2799 }) (inState .dusk)).sideband = false ∧
    (powered (fun q => { q with inVolt := 2800 }) (inState .dusk)).sideband = true := by decide

/-- The last step of a gather of two rows, a round that no command holds back, a ROLLBACK_ADVANCE under M0, an image of a waiting job. -/
theorem witness_completions_all :
    (let c := gatherSlot 0x51 2 (.gather { indices := [0, 1] }) .running;
      let s := withSlots [c] (withObjs [tableObj []] served);
      let v := tableVer [];
      s.version? 1 1 = some v ∧ stepLength [] (([0, 1] : List Nat).drop 0) = (([0, 1] : List Nat).drop 0).length ∧
      ∀ i ∈ ([0, 1] : List Nat).drop 0, ∀ p ∈ v.tableHdr.rowsOf i,
        v.firstLost (v.tableHdr.rowAt p.1 p.2) (v.tableHdr.stride (v.tableHdr.region p.1).2) = none) ∧
    (let c : Slot := { slotOf 5 [(0, 0x63), (42, 1), (60, 1)] with pins := [(2, 1)], work := .reduce 0 false, phase := .running };
      let s := withSlots [c] (withDomain (domain .ready none) (withObjs [objOf 2 6 false 3] served));
      ∃ v, s.version? 2 1 = some v ∧ s.startDue (s.makeRound c (s.dom 0) v).startTick = false ∧ (∀ p ∈ s.link.ports, p.held = [])) ∧
    (let c : Slot := { slotOf 5 [(0, 0x0C)] with data := [{ addr := 0, len := 64 }] };
      handedB (withSlots [c] served) 5 0x0C c = true ∧ served.sec.m.getD 0 [] = served.dataBytes c) ∧
    (let j := paused (pauseAt 0) 0; j.image.isSome = true ∧ j.reached? = some 0 ∧ (pauseAt 0).layerStart = false) ∧
    ((withObjs [dirtyObj] homed).flashReads 1 1 [] = []) := by
  refine ⟨by decide, ⟨_, rfl, by decide, by decide⟩, by decide, by decide, by decide⟩

/-- A state that keeps the invariant takes a step. -/
theorem witness_invariant : ∃ t, step { served with pending := [] } = .next t := ⟨_, rfl⟩

/-! ### The words that are and are not well formed: one ill-formed term for each check -/

theorem test_wf_thread : (Instr.tid { job := 1, cluster := 68, thread := 0 } { rd := 1, rs1 := 0, rs2 := 0, gp := 0, gn := 0 }).wf = false ∧
    (Instr.tid { job := 1, cluster := 67, thread := 64 } { rd := 1, rs1 := 0, rs2 := 0, gp := 0, gn := 0 }).wf = false ∧
    (Instr.tid { job := 1, cluster := 67, thread := 63 } { rd := 1, rs1 := 0, rs2 := 0, gp := 0, gn := 0 }).wf = true := by decide
theorem test_wf_word : (Instr.tid thr { rd := 1, rs1 := 1, rs2 := 0, gp := 0, gn := 0 }).wf = false ∧
    (Instr.ldq thr { rd := 2, rs1 := 0, imm := 0 }).wf = false ∧ (Instr.ldq thr { rd := 4, rs1 := 0, imm := 0 }).wf = true ∧
    (Instr.shi thr { rd := 1, rs1 := 1, imm := 0x3000 }).wf = false ∧ (Instr.shi thr { rd := 1, rs1 := 1, imm := 0x0020 }).wf = false ∧
    (Instr.pand thr { rd := 8, rs1 := 0, rs2 := 0, gp := 0, gn := 0 }).wf = false := by decide
theorem test_wf_engine : (Instr.passEnd { job := 1, cluster := 68, engine := 0 }).wf = false ∧
    (Instr.passEnd { job := 1, cluster := 0, engine := 4 }).wf = false ∧ (Instr.drainEnd { job := 1, cluster := 0, engine := 0 } 2).wf = false := by decide
theorem test_wf_die : (Instr.dieEraseEnd { channel := 64, die := 0 } true).wf = false ∧
    (Instr.dieEraseEnd { channel := 0, die := 16 } true).wf = false := by decide
theorem test_wf_port : (Instr.pwrShutdownGo 2).wf = false ∧ (Instr.pwrShutdownGo 1).wf = true := by decide
theorem test_wf_number : (Instr.completionPost 256).wf = false ∧ (Instr.completionPost 255).wf = true := by decide
theorem test_wf_unit : (Instr.drainComplete 0 68).wf = false ∧ (Instr.drainComplete 6 0).wf = false ∧ (Instr.drainComplete 5 0).wf = true := by
  decide
theorem test_wf_path : (Instr.transportParityError (.d2d 7 0)).wf = false ∧ (Instr.transportParityError (.d2d 6 2)).wf = false ∧
    (Instr.transportParityError (.unit 2 64)).wf = false := by decide
theorem test_wf_stages : (Instr.dieReadEnd { channel := 0, die := 0 } [4]).wf = false ∧
    (Instr.verifyAfterClose { channel := 0, die := 0 } 0 ⟨36864, 1, 0⟩).wf = false ∧ (Instr.dieReadEnd { channel := 0, die := 0 } [3]).wf = true := by decide
theorem test_wf_params :
    (Instr.trainingEnd 0 { width := 3, lanes := 4, node := 1, hostNode := 2, credits := List.replicate 7 1, delay := 0 }).wf = false ∧
    (Instr.trainingEnd 0 { width := 4, lanes := 4, node := 1, hostNode := 2, credits := List.replicate 6 1, delay := 0 }).wf = false := by decide
theorem test_wf_packet : (Instr.reductionPacket 2 {
      tag := 0, kind := 0, overflow := false, pass2 := false, sender := 0, pktIndex := 0
      pktCount := 1, round := 0, chunk := 0, exp := 0, margin := 0, k := 0, chunkCount := 1, entries := [] }).wf = false ∧
    (Instr.reductionPacket 3 {
      tag := 0, kind := 3, overflow := false, pass2 := false, sender := 0, pktIndex := 0
      pktCount := 1, round := 0, chunk := 0, exp := 0, margin := 0, k := 0, chunkCount := 1, entries := [] }).wf = false := by decide
theorem test_wf_domain : (Instr.startTick 4).wf = false ∧ (Instr.reductionStall 4).wf = false := by decide
theorem test_wf_flit : (Instr.flitReceive 0 [] true).wf = false ∧
    (Instr.beacon 0 { tick := 0, bseq := 65536, refLocked := true, crcOk := true }).wf = false := by decide
theorem test_wf_cells : (Instr.extest []).wf = false ∧ (Instr.samplePreload [] []).wf = false := by decide
theorem test_wf_fuses : (Instr.fuseLoadEnd (some {
      badClusters := [68], spareClusters := [], badDocents := [], spareDocents := []
      builtClusters := 64, keyDigests := [[], [], [], []], keyRevoke := [], rollbackBits := [], attestCrcOk := true }) none).wf = false ∧
    (Instr.rollbackAdvance 0 [256]).wf = false := by decide
theorem test_wf_identity : (Instr.dramFillEnd [] ⟨[{ crcOk := true, row := [] }], []⟩).wf = false ∧ (Instr.dramFillEnd [12] ⟨[], []⟩).wf = false ∧
    (Instr.dramFillEnd [] ⟨[], [({ channel := 0, die := 0 }, 1848)]⟩).wf = false ∧ (Instr.mountEnd true true true [(1024, 0)] []).wf = false := by decide
theorem test_wf_core : (Instr.docentWatchdog 14).wf = false ∧ (Instr.docentCoreFault 13).wf = true := by decide
theorem test_wf_cpl : (Instr.cpl 0 65536 0 0 true []).wf = false ∧ (Instr.cpl 0 0 3 0 true []).wf = false := by decide
theorem test_wf_register : (Instr.registerWrite 0 0x1000000 4 0).wf = false ∧ (Instr.registerWrite 0 0xFFFFFF 4 0).wf = true := by decide

/-- No row of the table has bits, so no word spells a command. -/
theorem test_decode_none : decodeTableWord 32 0 = none ∧ decodeTableWord 0 0 = none := by decide

/-- The queue's front goes first, and an empty queue idles. -/
theorem test_step_idles : step State.reset = .next State.reset := rfl

/-! ### Worked examples of the spec -/

/-- Table 3-5: eight elements of a group to FP4 with E8M0, and its scale code. -/
theorem test_table_3_5 :
    let a : Frac := f32 0x4039999A
    let s := dynamicScale 0 0 a
    s = 0x7E ∧
    (convElems 0 ((scaleValue 0 s).getD (Frac.ofInt 1)) none
      [0x4039999A, 0xBFA66666, 0x3F4CCCCD, 0x3F000000, 0xBEC00000, 0x3E4CCCCD, 0x3E000000, 0xBD4CCCCD] 0).1
      = [0x7, 0xD, 0x3, 0x2, 0xA, 0x1, 0x0, 0x0] := by decide

/-- The INT4 group with an E4M3 scale of the example after Table 3-5. -/
theorem test_int4_example :
    let s := dynamicScale 1 1 (f32 0x3F6E147B)
    s = 0x21 ∧ (convElems 1 ((scaleValue 1 s).getD (Frac.ofInt 1)) none [0x3F6E147B, 0xBED70A3D, 0x3D900000] 0).1 = [0x7, 0xD, 0x0] := by decide

/-- The holdup measurement and the budget of the examples of chapters 7 and 16. -/
theorem test_holdup_example : holdupMj 14200 120 = 13955 ∧ chargeVolt 14200 = 4800 := by decide
theorem test_budget_example : duskBudget 13955 6000 2500 (List.replicate 12 8192) = 3221225472 ∧
    duskBudget 12400 6000 2500 (List.replicate 12 8192) = 2684354560 := by decide

/-- The folio of the worked example of chapter 9. -/
theorem test_folio_example :
    let f : FolioHdr := { layers := 44, heads := 6, kf := 6, vf := 6, group := 0, enc := 0, nan := false, dim := 128, blocks := 128, tokens := 0 }
    f.blockBytes = 33792 ∧ f.openOff = 1141964800 ∧ f.size = 1159266304 := by decide

/-- The strides of the Wexcombe index and of the row of chapter 10's example. -/
theorem test_stride_examples :
    let h : IndexHdr := {
      fmt := 6, kernel := 0, dim := 1024, graph := true, attrs := true, attrBytes := 8, degree := 32, entryCount := 1
      beam := 0, nodes := 2100000000, vecOff := 0, labelOff := 0, graphOff := 0, entries := [0] }
    h.vecStride = 1024 ∧ h.labelStride = 16 ∧ h.graphStride = 168 ∧ h.entryStride = 1056 := by decide

/-! ### One step of each -/

/-- ADDI with a negative immediate wraps and moves the PC on by 4 (Table 5-3). -/
theorem test_addi_wraps : (match execAddi thr { rd := 3, rs1 := 2, imm := 0x3FFF } (world (iWord 0x02 { rd := 3, rs1 := 2, imm := 0x3FFF }) (ready [(2, 0)])) with
    | .next s => ((s.job? 7).bind fun j => j.clusters[0]?.bind fun c => c.threads[0]?.map fun t => (t.regs[3]?, t.pc))
    | _ => none) = some (some 0xFFFFFFFF, 4) := by decide

end Sys2Proof.Tests
end

section
/-! PROOF. Reposted completions (R63): the entry that answers a duplicate whose original has posted, and the bytes it is
written as. -/
namespace Sys2Proof.Machine

/-! ### Little-endian fields of joined bytes (R8) -/

@[simp] theorem length_leBytes (n v : Nat) : (leBytes n v).length = n := by
  induction n generalizing v with
  | zero => rfl
  | succ n ih => simp [leBytes, ih]

/-- The bytes written of any number, also of one that does not fit them. -/
theorem leNat_leBytes_eq_mod (n v : Nat) : leNat (leBytes n v) = v % 256 ^ n := by
  induction n generalizing v with
  | zero => simp [leBytes, leNat, Nat.mod_one]
  | succ n ih => simp [leBytes, leNat, ih, Nat.pow_succ', Nat.mod_mul]

/-- A field that lies beyond the first of two byte lists is read in the second. -/
theorem field_append_of_le {a : Bytes} {off : Nat} (b : Bytes) (n : Nat) (h : a.length ≤ off) :
    field (a ++ b) off n = field b (off - a.length) n := by
  simp [field, slice, List.drop_append, List.drop_eq_nil_of_le h]

/-- A number written at the front of a byte list is read back there, cut to its bytes. -/
theorem field_leBytes_append (n v : Nat) (b : Bytes) : field (leBytes n v ++ b) 0 n = v % 256 ^ n := by
  simp [field, slice, leNat_leBytes_eq_mod]

/-- The model's bit of a number is the library's. -/
theorem bitAt_eq_testBit (v i : Nat) : bitAt v i = v.testBit i := by
  simp [bitAt, Nat.testBit_eq_decide_div_mod_eq, Bool.beq_eq_decide_eq]

/-! ### The bytes of a completion entry (Table 2-9) -/

/-- The CFLAGS byte as it is written: the kept flags with the PHASE and DEGRADED of the posting (Table 2-10). -/
def Completion.flagsByte (k : Completion) (phase degraded : Bool) : Nat :=
  bit01 phase + k.cflags + (if degraded then 0x20 else 0)

/-- SQ_HEAD of the entry. -/
theorem field_completionBytes_head (k : Completion) (head : Nat) (phase degraded : Bool) :
    field (completionBytes k head phase degraded) 10 2 = head % 65536 := by
  simp only [completionBytes, List.append_assoc]
  iterate 5 rw [field_append_of_le _ _ (by simp)]
  simp [field_leBytes_append]

/-- CFLAGS of the entry. -/
theorem field_completionBytes_cflags (k : Completion) (head : Nat) (phase degraded : Bool) :
    field (completionBytes k head phase degraded) 3 1 = k.flagsByte phase degraded % 256 := by
  simp only [completionBytes, List.append_assoc]
  iterate 2 rw [field_append_of_le _ _ (by simp)]
  simp [field_leBytes_append, Completion.flagsByte]

/-- PHASE of the written byte is the ring's, where the kept flags leave bit 0 free. -/
theorem bitAt_flagsByte_phase (k : Completion) (phase degraded : Bool) (he : k.cflags % 2 = 0) :
    bitAt (k.flagsByte phase degraded % 256) 0 = phase := by
  cases phase <;> cases degraded <;> simp [bitAt, Completion.flagsByte, bit01] <;> omega

/-- Neither PHASE nor DEGRADED touches DUPLICATE, where the kept flags leave bit 0 free. -/
theorem bitAt_flagsByte_duplicate (k : Completion) (phase degraded : Bool) (he : k.cflags % 2 = 0) :
    bitAt (k.flagsByte phase degraded % 256) 1 = k.cflags.testBit 1 := by
  have hb : k.flagsByte phase degraded % 256 / 2 % 2 = k.cflags / 2 % 2 := by
    cases phase <;> cases degraded <;> simp [Completion.flagsByte, bit01] <;> omega
  simp [bitAt_eq_testBit, Nat.testBit_eq_decide_div_mod_eq, hb]

/-! ### The repost of a retained completion (R63) -/

/-- The completion that answers the duplicate entry `e`: the original's with DUPLICATE set, behind no command. -/
def Completion.repost (p : Completion) (e : Bytes) (order : Nat) : Completion :=
  { p with cflags := p.cflags + (if bitAt p.cflags 1 then 0 else 2), notify := !bitAt (field e 1 1) 4, slot := none
           order := order, retain := false }

/-- Adding 2 to the flags where bit 1 is clear sets that bit and no other. -/
theorem testBit_repost_cflags (p : Completion) (e : Bytes) (order i : Nat) :
    (p.repost e order).cflags.testBit i = (p.cflags.testBit i || decide (i = 1)) := by
  cases hb : bitAt p.cflags 1 with
  | true =>
    have h1 : p.cflags.testBit 1 = true := by rw [← bitAt_eq_testBit, hb]
    by_cases hi : i = 1 <;> simp [Completion.repost, hb, hi, h1]
  | false =>
    have h1 : p.cflags / 2 % 2 = 0 := by simpa [bitAt] using hb
    match i with
    | 0 => simp [Completion.repost, hb]
    | 1 => simp [Completion.repost, hb, Nat.testBit_eq_decide_div_mod_eq]; omega
    | i + 2 =>
      have hq : (p.cflags + 2) / 2 ^ 2 = p.cflags / 2 ^ 2 := by omega
      rw [Nat.testBit_add, Nat.testBit_add]
      simp only [Completion.repost, hb, Bool.false_eq_true, if_false, hq]
      simp

/-- Table 2-8: an entry of the last 4,096 numbers whose record has its OPCODE and TAG and has posted is answered with the
repost of that completion. -/
theorem State.oldEntry_of_posted {s : State} {n : Nat} {e : Bytes} {r : Retained} {p : Completion} (order : Nat)
    (hw : 2 ^ 32 - 4096 ≤ (BitVec.ofNat 32 (field e 4 4) - (s.sq n).expSeq).toNat)
    (hf : (s.sq n).window.find? (fun r => r.seq = BitVec.ofNat 32 (field e 4 4)) = some r)
    (ho : r.opcode = field e 0 1) (ht : r.tag = field e 2 2) (hp : r.posted = some p) :
    s.oldEntry n e order = s.ready (p.repost e order) := by
  simp only [State.oldEntry, if_pos hw, hf, ho, ht, hp, ne_eq, not_true_eq_false, decide_false, Bool.or_self,
    Bool.false_eq_true, if_false, Completion.repost]

/-- Settles O25: the answer is the repost of the retained completion, and the bytes of an entry carry the head and the phase
given at its posting. -/
theorem repostsCarryTheOriginal : Obligations.RepostsCarryTheOriginal := by
  unfold Obligations.RepostsCarryTheOriginal
  constructor
  · intro s n order e r p hw hf ho ht hp
    refine ⟨p.repost e order, State.oldEntry_of_posted order hw hf ho ht hp, rfl, rfl, rfl, rfl, rfl, ?_, ?_, rfl, rfl, rfl⟩
    · intro i hi
      simp [testBit_repost_cflags, hi]
    · simp [testBit_repost_cflags]
  · intro k head phase degraded he _
    simp only [field_completionBytes_head, field_completionBytes_cflags]
    exact ⟨trivial, bitAt_flagsByte_phase k phase degraded he, bitAt_flagsByte_duplicate k phase degraded he⟩

end Sys2Proof.Machine
end

section
/-! PROOF. Refused fetches (R402, R454): how a command ends, and what asking for the reads of other commands leaves alone. -/
namespace Sys2Proof.Machine

/-! ### Slots and completion rings after a change -/

/-- A changed slot is found under its number. -/
theorem State.slot?_updSlot_same (s : State) (id : Nat) {f : Slot → Slot} (hf : ∀ c, (f c).id = c.id) :
    (s.updSlot id f).slot? id = (s.slot? id).map f :=
  find?_updWhere_key _ f (fun c => by simp [hf]) _

/-- Changing one slot leaves every other number's slot alone. -/
theorem State.slot?_updSlot_ne (s : State) {id k : Nat} {f : Slot → Slot} (hf : ∀ c, (f c).id = c.id) (hk : k ≠ id) :
    (s.updSlot id f).slot? k = s.slot? k :=
  find?_updWhere_ne _ _ f (by simpa using fun c hc => hc ▸ hk.symm) (by simpa [hf] using fun c hc => hc ▸ hk.symm) _

/-- A completion goes to the end of the ready list of its ring, where the drive has that ring. -/
theorem State.cq_ready_same (s : State) (k : Completion) (hn : s.ringOf k.sq < s.atr.cqs.length) :
    ((s.ready k).cq (s.ringOf k.sq)).ready = (s.cq (s.ringOf k.sq)).ready ++ [k] := by
  simp [State.ready, State.updCq, State.cq, updAt, hn]

/-! ### The end of a command (R65, R69) -/

/-- The slot of a command that has ended: nothing of its work or its reads is left. -/
def Slot.ended (c : Slot) : Slot := { c with phase := .done, work := .none, reads := [], toRead := [] }

/-- The completion of the command in slot `id`. -/
def Slot.completion (c : Slot) (id : Nat) (st : Status) (result info : Nat) : Completion :=
  { tag := field c.entry 2 2, status := st, cflags := info, seq := BitVec.ofNat 32 (field c.entry 4 4), sq := c.sq
    result := result, notify := !bitAt c.hflags 4, slot := some id, order := c.order }

section
variable {s : State} {id : Nat} {c : Slot} (st : Status) (result info : Nat) (hc : s.slot? id = some c) (ho : c.phase ≠ .done)
include hc ho

/-- A command that has not ended marks its slot and readies its completion. -/
theorem State.finish_of_open :
    s.finish id st result info = (s.updSlot id Slot.ended).ready (c.completion id st result info) := by
  simp only [State.finish, hc, if_neg ho]
  rfl

theorem State.slot?_finish_of_open : (s.finish id st result info).slot? id = some c.ended := by
  rw [State.finish_of_open st result info hc ho]
  have hslot := s.slot?_updSlot_same id (f := Slot.ended) fun _ => rfl
  rw [hc] at hslot
  exact hslot

theorem State.cq_finish_of_open (hn : s.ringOf c.sq < s.atr.cqs.length) :
    ((s.finish id st result info).cq (s.ringOf c.sq)).ready =
      (s.cq (s.ringOf c.sq)).ready ++ [c.completion id st result info] := by
  rw [State.finish_of_open st result info hc ho]
  exact (s.updSlot id Slot.ended).cq_ready_same (c.completion id st result info) hn

/-- No slot of that number is left in the hands of its path, also where several bear it. -/
theorem State.finish_of_open_not_handed :
    ∀ d ∈ (s.finish id st result info).atr.slots, d.phase = .handed → d.id ≠ id := by
  rw [State.finish_of_open st result info hc ho]
  simp only [State.ready, State.updCq, State.updSlot, updWhere, List.mem_map]
  rintro _ ⟨d, -, rfl⟩
  by_cases hd : d.id = id
  · simp [hd, Slot.ended]
  · simp [hd]

end

/-! ### Asking for reads (R403) -/

/-- From `s` to `t` the slot of command `id`, the completion rings and the fault log stay as they are. -/
structure KeepsCommand (id : Nat) (s t : State) : Prop where
  slot : t.slot? id = s.slot? id
  cqs : t.atr.cqs = s.atr.cqs
  err : t.err = s.err

theorem KeepsCommand.refl (id : Nat) (s : State) : KeepsCommand id s s := ⟨rfl, rfl, rfl⟩

theorem KeepsCommand.updSlot {id other : Nat} {s t : State} {f : Slot → Slot} (h : KeepsCommand id s t)
    (hne : id ≠ other) (hf : ∀ c, (f c).id = c.id) : KeepsCommand id s (t.updSlot other f) :=
  ⟨(t.slot?_updSlot_ne hf hne).trans h.slot, h.cqs, h.err⟩

theorem KeepsCommand.send {id : Nat} {s t : State} (p : Nat) (k : TxPkt) (h : KeepsCommand id s t) :
    KeepsCommand id s (t.send p k) :=
  ⟨h.slot, h.cqs, h.err⟩

/-- A read issued for one command leaves every other command alone. -/
theorem KeepsCommand.issueRead {id other : Nat} {s t : State} (p : Nat) (g : Seg) (h : KeepsCommand id s t)
    (hne : id ≠ other) : KeepsCommand id s (t.issueRead other p g) := by
  unfold State.issueRead
  split
  · exact h
  · split
    · exact h
    · exact .send _ _ (h.updSlot hne fun _ => rfl)

/-- So does asking for its next pieces, however many. -/
theorem KeepsCommand.pumpSlot {id other : Nat} {s t : State} (fuel : Nat) (h : KeepsCommand id s t) (hne : id ≠ other) :
    KeepsCommand id s (t.pumpSlot other fuel) := by
  induction fuel generalizing t with
  | zero => exact h
  | succ fuel ih =>
    unfold State.pumpSlot
    split
    · exact h
    · split
      · split
        · exact h
        · exact ih (.issueRead _ _ (h.updSlot hne fun _ => rfl) hne)
      · exact h

/-- The reads that are asked for are those of commands in the hands of their paths; a command that is not stays as it is. -/
theorem State.pumpReads_keepsCommand {id : Nat} {s : State} (h : ∀ d ∈ s.atr.slots, d.phase = .handed → d.id ≠ id) :
    KeepsCommand id s s.pumpReads := by
  unfold State.pumpReads
  refine List.foldlRecOn _ _ (.refl id s) fun t ht d hd => ht.pumpSlot _ ?_
  simp only [List.mem_filter, Bool.and_eq_true, decide_eq_true_eq] at hd
  obtain ⟨hmem, hhanded, -⟩ := hd
  exact (h d hmem hhanded).symm

/-! ### A refused read (R402, R454) -/

/-- What a CPL comes to. -/
theorem exec_cpl (port tag cstatus offset : Nat) (last : Bool) (data : Bytes) (s : State) :
    exec (.cpl port tag cstatus offset last data) s =
      .next (if s.portAccepts port then s.takeCpl port tag cstatus offset last data else s) := rfl

/-- A completion that refuses the read of a command ends that command, and then the due reads are asked for. -/
theorem exec_cpl_of_refused {s : State} {port tag cstatus : Nat} (offset : Nat) (last : Bool) (data : Bytes) {c : Slot}
    (ha : s.portAccepts port = true)
    (hf : s.atr.slots.find? (fun c => c.reads.any fun m => m.port = port && m.tag = tag) = some c) (hs : cstatus ≠ 0) :
    exec (.cpl port tag cstatus offset last data) s = .next (s.finish c.id .hostAccessFault 0 0).pumpReads := by
  simp only [exec_cpl, ha, if_true, State.takeCpl, hf, if_pos hs]

/-- Settles O26: the command ends with HOST_ACCESS_FAULT, and as its slot has left the hands of its path, no read that is asked
for afterwards is one of its own. -/
theorem refusedFetchesEndTheirCommand : Obligations.RefusedFetchesEndTheirCommand := by
  unfold Obligations.RefusedFetchesEndTheirCommand
  intro s port tag offset last data c ha hf hc ho hn
  have hk := State.pumpReads_keepsCommand (State.finish_of_open_not_handed .hostAccessFault 0 0 hc ho)
  refine ⟨_, exec_cpl_of_refused offset last data ha hf Nat.one_ne_zero, hk.err.trans (State.finish_err ..), ?_, ?_⟩
  · exact ⟨c.ended, hk.slot.trans (State.slot?_finish_of_open .hostAccessFault 0 0 hc ho), rfl, rfl, rfl⟩
  · refine ⟨c.completion c.id .hostAccessFault 0 0, ?_, rfl, rfl, rfl, rfl⟩
    rw [State.cq, hk.cqs]
    exact State.cq_finish_of_open .hostAccessFault 0 0 hc ho hn

end Sys2Proof.Machine
end

section
/-! PROOF. What every command and every step keeps: each command's own law (the Evolves lemmas of Laws/) put together over the
dispatcher, and the invariant at reset. -/
namespace Sys2Proof.Machine

/-- Every command answers a next state, which evolves from the state it is given. -/
theorem exec_evolves (c : Instr) (s : State) : ∃ t, exec c s = .next t ∧ Evolves s t :=
  match c with
  | .unitClose slot => execUnitClose_evolves slot (.refl s)
  | .unitReturn slot => execUnitReturn_evolves slot (.refl s)
  | .unitQuery slot => execUnitQuery_evolves slot (.refl s)
  | .faultRead slot => execFaultRead_evolves slot (.refl s)
  | .identityRead slot => execIdentityRead_evolves slot (.refl s)
  | .attest slot => execAttest_evolves slot (.refl s)
  | .fwStage slot => execFwStage_evolves slot (.refl s)
  | .fwActivate slot => execFwActivate_evolves slot (.refl s)
  | .fwWriteEnd good => execFwWriteEnd_evolves good (.refl s)
  | .rollbackAdvance slot stuck => execRollbackAdvance_evolves slot stuck (.refl s)
  | .measureRead slot => execMeasureRead_evolves slot (.refl s)
  | .blockRead slot => execBlockRead_evolves slot (.refl s)
  | .blockWrite slot => execBlockWrite_evolves slot (.refl s)
  | .blockAtomic slot => execBlockAtomic_evolves slot (.refl s)
  | .blockFlush slot => execBlockFlush_evolves slot (.refl s)
  | .blockTrim slot => execBlockTrim_evolves slot (.refl s)
  | .selfTest slot => execSelfTest_evolves slot (.refl s)
  | .selfTestStep idle found relocate => execSelfTestStep_evolves idle found relocate (.refl s)
  | .objectCreate slot => execObjectCreate_evolves slot (.refl s)
  | .objectWrite slot => execObjectWrite_evolves slot (.refl s)
  | .objectRead slot => execObjectRead_evolves slot (.refl s)
  | .objectMove slot => execObjectMove_evolves slot (.refl s)
  | .objectRetire slot => execObjectRetire_evolves slot (.refl s)
  | .objectQuery slot => execObjectQuery_evolves slot (.refl s)
  | .objectDurability slot => execObjectDurability_evolves slot (.refl s)
  | .objectFlush slot => execObjectFlush_evolves slot (.refl s)
  | .programLoad slot => execProgramLoad_evolves slot (.refl s)
  | .jobRun slot => execJobRun_evolves slot (.refl s)
  | .indexCreate slot => execIndexCreate_evolves slot (.refl s)
  | .accession slot => execAccession_evolves slot (.refl s)
  | .searchD slot => execSearchD_evolves slot (.refl s)
  | .searchX slot => execSearchX_evolves slot (.refl s)
  | .accessionMerge slot => execAccessionMerge_evolves slot (.refl s)
  | .mergeCommit slot => execMergeCommit_evolves slot (.refl s)
  | .kernelLoad slot => execKernelLoad_evolves slot (.refl s)
  | .indexQuery slot => execIndexQuery_evolves slot (.refl s)
  | .tableCreate slot => execTableCreate_evolves slot (.refl s)
  | .gather slot => execGather_evolves slot (.refl s)
  | .gatherStepEnd slot => execGatherStepEnd_evolves slot (.refl s)
  | .gatherPrefetch slot => execGatherPrefetch_evolves slot (.refl s)
  | .tableQuery slot => execTableQuery_evolves slot (.refl s)
  | .hotDecay => execHotDecay_evolves (.refl s)
  | .prefetchProtectExpiry => execPrefetchProtectExpiry_evolves (.refl s)
  | .folioCreate slot => execFolioCreate_evolves slot (.refl s)
  | .folioAppend slot => execFolioAppend_evolves slot (.refl s)
  | .folioAttend slot => execFolioAttend_evolves slot (.refl s)
  | .folioReload slot => execFolioReload_evolves slot (.refl s)
  | .folioTruncate slot => execFolioTruncate_evolves slot (.refl s)
  | .domainSet slot => execDomainSet_evolves slot (.refl s)
  | .domainClear slot => execDomainClear_evolves slot (.refl s)
  | .residualCreate slot => execResidualCreate_evolves slot (.refl s)
  | .reduce slot => execReduce_evolves slot (.refl s)
  | .roundStart slot => execRoundStart_evolves slot (.refl s)
  | .startTick domain => execStartTick_evolves domain (.refl s)
  | .reductionPacket vc p => execReductionPacket_evolves vc p (.refl s)
  | .reductionStall domain => execReductionStall_evolves domain (.refl s)
  | .domainQuery slot => execDomainQuery_evolves slot (.refl s)
  | .add h f => execAdd_evolves h f (.refl s)
  | .sub h f => execSub_evolves h f (.refl s)
  | .and h f => execAnd_evolves h f (.refl s)
  | .or h f => execOr_evolves h f (.refl s)
  | .xor h f => execXor_evolves h f (.refl s)
  | .sll h f => execSll_evolves h f (.refl s)
  | .srl h f => execSrl_evolves h f (.refl s)
  | .sra h f => execSra_evolves h f (.refl s)
  | .slt h f => execSlt_evolves h f (.refl s)
  | .sltu h f => execSltu_evolves h f (.refl s)
  | .min h f => execMin_evolves h f (.refl s)
  | .max h f => execMax_evolves h f (.refl s)
  | .minu h f => execMinu_evolves h f (.refl s)
  | .maxu h f => execMaxu_evolves h f (.refl s)
  | .mul h f => execMul_evolves h f (.refl s)
  | .mulhu h f => execMulhu_evolves h f (.refl s)
  | .addi h f => execAddi_evolves h f (.refl s)
  | .andi h f => execAndi_evolves h f (.refl s)
  | .ori h f => execOri_evolves h f (.refl s)
  | .xori h f => execXori_evolves h f (.refl s)
  | .shi h f => execShi_evolves h f (.refl s)
  | .lui h f => execLui_evolves h f (.refl s)
  | .fadd h f => execFadd_evolves h f (.refl s)
  | .fsub h f => execFsub_evolves h f (.refl s)
  | .fmul h f => execFmul_evolves h f (.refl s)
  | .fma h f => execFma_evolves h f (.refl s)
  | .fmin h f => execFmin_evolves h f (.refl s)
  | .fmax h f => execFmax_evolves h f (.refl s)
  | .fabs h f => execFabs_evolves h f (.refl s)
  | .fneg h f => execFneg_evolves h f (.refl s)
  | .fcvtSW h f => execFcvtSW_evolves h f (.refl s)
  | .fcvtWS h f => execFcvtWS_evolves h f (.refl s)
  | .fexp2 h f => execFexp2_evolves h f (.refl s)
  | .flog2 h f => execFlog2_evolves h f (.refl s)
  | .frcp h f => execFrcp_evolves h f (.refl s)
  | .frsq h f => execFrsq_evolves h f (.refl s)
  | .badd2 h f => execBadd2_evolves h f (.refl s)
  | .bmul2 h f => execBmul2_evolves h f (.refl s)
  | .bfma2 h f => execBfma2_evolves h f (.refl s)
  | .bmax2 h f => execBmax2_evolves h f (.refl s)
  | .bpack h f => execBpack_evolves h f (.refl s)
  | .blo h f => execBlo_evolves h f (.refl s)
  | .bhi h f => execBhi_evolves h f (.refl s)
  | .eq h f => execEq_evolves h f (.refl s)
  | .ne h f => execNe_evolves h f (.refl s)
  | .lt h f => execLt_evolves h f (.refl s)
  | .ltu h f => execLtu_evolves h f (.refl s)
  | .ge h f => execGe_evolves h f (.refl s)
  | .geu h f => execGeu_evolves h f (.refl s)
  | .feq h f => execFeq_evolves h f (.refl s)
  | .flt h f => execFlt_evolves h f (.refl s)
  | .fle h f => execFle_evolves h f (.refl s)
  | .pand h f => execPand_evolves h f (.refl s)
  | .por h f => execPor_evolves h f (.refl s)
  | .pxor h f => execPxor_evolves h f (.refl s)
  | .pnot h f => execPnot_evolves h f (.refl s)
  | .ptos h f => execPtos_evolves h f (.refl s)
  | .stop h f => execStop_evolves h f (.refl s)
  | .ldb h f => execLdb_evolves h f (.refl s)
  | .ldh h f => execLdh_evolves h f (.refl s)
  | .ldw h f => execLdw_evolves h f (.refl s)
  | .ldq h f => execLdq_evolves h f (.refl s)
  | .stb h f => execStb_evolves h f (.refl s)
  | .sth h f => execSth_evolves h f (.refl s)
  | .stw h f => execStw_evolves h f (.refl s)
  | .stq h f => execStq_evolves h f (.refl s)
  | .br h f => execBr_evolves h f (.refl s)
  | .jal h f => execJal_evolves h f (.refl s)
  | .jr h f => execJr_evolves h f (.refl s)
  | .exit h f => execExit_evolves h f (.refl s)
  | .xfer h f => execXfer_evolves h f (.refl s)
  | .ldin h f => execLdin_evolves h f (.refl s)
  | .wstr h f => execWstr_evolves h f (.refl s)
  | .pass h f => execPass_evolves h f (.refl s)
  | .drain h f => execDrain_evolves h f (.refl s)
  | .accld h f => execAccld_evolves h f (.refl s)
  | .discard h f => execDiscard_evolves h f (.refl s)
  | .signal h f => execSignal_evolves h f (.refl s)
  | .wait h f => execWait_evolves h f (.refl s)
  | .set h f => execSet_evolves h f (.refl s)
  | .read h f => execRead_evolves h f (.refl s)
  | .pause h index => execPause_evolves h index (.refl s)
  | .tid h f => execTid_evolves h f (.refl s)
  | .cid h f => execCid_evolves h f (.refl s)
  | .ncl h f => execNcl_evolves h f (.refl s)
  | .flags h f => execFlags_evolves h f (.refl s)
  | .trap h f => execTrap_evolves h f (.refl s)
  | .btime h f => execBtime_evolves h f (.refl s)
  | .wide h f => execWide_evolves h f (.refl s)
  | .machineTrap h fetchCrc => execMachineTrap_evolves h fetchCrc (.refl s)
  | .groupStaged e => execGroupStaged_evolves e (.refl s)
  | .passEnd e => execPassEnd_evolves e (.refl s)
  | .drainEnd e tile => execDrainEnd_evolves e tile (.refl s)
  | .accldEnd e tile => execAccldEnd_evolves e tile (.refl s)
  | .loadEnd e => execLoadEnd_evolves e (.refl s)
  | .xferEnd job id => execXferEnd_evolves job id (.refl s)
  | .streamEnd job handle => execStreamEnd_evolves job handle (.refl s)
  | .pausePointTaken job cycle => execPausePointTaken_evolves job cycle (.refl s)
  | .placementMoveEnd owner => execPlacementMoveEnd_evolves owner (.refl s)
  | .jobStart start => execJobStart_evolves start (.refl s)
  | .jobEnd job cycle => execJobEnd_evolves job cycle (.refl s)
  | .postCharge n => execPostCharge_evolves n (.refl s)
  | .sliceEnd job => execSliceEnd_evolves job (.refl s)
  | .sliceWatchdog job cycle => execSliceWatchdog_evolves job cycle (.refl s)
  | .clusterWaitTimeout job => execClusterWaitTimeout_evolves job (.refl s)
  | .jobDeadline job => execJobDeadline_evolves job (.refl s)
  | .fetch sq reads sglRefused => execFetch_evolves sq reads sglRefused (.refl s)
  | .completionPost cq => execCompletionPost_evolves cq (.refl s)
  | .notifyTimeout cq => execNotifyTimeout_evolves cq (.refl s)
  | .lockWaitDeadline slot => execLockWaitDeadline_evolves slot (.refl s)
  | .sqEnable port n value => execSqEnable_evolves port n value (.refl s)
  | .sqDisable port n value => execSqDisable_evolves port n value (.refl s)
  | .cqEnable port n value => execCqEnable_evolves port n value (.refl s)
  | .cqDisable port n value => execCqDisable_evolves port n value (.refl s)
  | .atrSqDb port n value => execAtrSqDb_evolves port n value (.refl s)
  | .atrCqDb port n value => execAtrCqDb_evolves port n value (.refl s)
  | .clientEnable port n value => execClientEnable_evolves port n value (.refl s)
  | .clientDisable port n value => execClientDisable_evolves port n value (.refl s)
  | .tirCfg port value => execTirCfg_evolves port value (.refl s)
  | .bcnCfg port value => execBcnCfg_evolves port value (.refl s)
  | .pwrCap port value => execPwrCap_evolves port value (.refl s)
  | .pwrShutdownGo port => execPwrShutdownGo_evolves port (.refl s)
  | .quiesce port => execQuiesce_evolves port (.refl s)
  | .updateLock port => execUpdateLock_evolves port (.refl s)
  | .pop port => execPop_evolves port (.refl s)
  | .tstPulseCfg port value => execTstPulseCfg_evolves port value (.refl s)
  | .tstCtrClear port value => execTstCtrClear_evolves port value (.refl s)
  | .gatHotBytes port value => execGatHotBytes_evolves port value (.refl s)
  | .mediaRead port => execMediaRead_evolves port (.refl s)
  | .mediaLend port => execMediaLend_evolves port (.refl s)
  | .mediaProgram port => execMediaProgram_evolves port (.refl s)
  | .mediaErase port => execMediaErase_evolves port (.refl s)
  | .mediaReturn port => execMediaReturn_evolves port (.refl s)
  | .registerWrite port offset size value => execRegisterWrite_evolves port offset size value (.refl s)
  | .partnerDetected port => execPartnerDetected_evolves port (.refl s)
  | .trainingEnd port p => execTrainingEnd_evolves port p (.refl s)
  | .trainingTimeout port => execTrainingTimeout_evolves port (.refl s)
  | .portRetry => execPortRetry_evolves (.refl s)
  | .flitReceive port flit good => execFlitReceive_evolves port flit good (.refl s)
  | .flitLockLoss port => execFlitLockLoss_evolves port (.refl s)
  | .ackTimeout port => execAckTimeout_evolves port (.refl s)
  | .retrainEnd port good => execRetrainEnd_evolves port good (.refl s)
  | .creditStarvation port => execCreditStarvation_evolves port (.refl s)
  | .cpl port tag cstatus offset last data => execCpl_evolves port tag cstatus offset last data (.refl s)
  | .beacon port flit => execBeacon_evolves port flit (.refl s)
  | .echo => execEcho_evolves (.refl s)
  | .echoReturn port arrival turn => execEchoReturn_evolves port arrival turn (.refl s)
  | .auxTimeFrame tick clean => execAuxTimeFrame_evolves tick clean (.refl s)
  | .beaconHoldover => execBeaconHoldover_evolves (.refl s)
  | .beaconDegraded => execBeaconDegraded_evolves (.refl s)
  | .beaconSourceCheck ppm => execBeaconSourceCheck_evolves ppm (.refl s)
  | .testPulse => execTestPulse_evolves (.refl s)
  | .powerGood residualMj millivolt => execPowerGood_evolves residualMj millivolt (.refl s)
  | .fuseLoadEnd copyA copyB => execFuseLoadEnd_evolves copyA copyB (.refl s)
  | .configLoadEnd config firmware certificate => execConfigLoadEnd_evolves config firmware certificate (.refl s)
  | .sramFillEnd repaired closedClusters closedDocents memoryFail => execSramFillEnd_evolves repaired closedClusters closedDocents memoryFail (.refl s)
  | .dramFillEnd failed identity => execDramFillEnd_evolves failed identity (.refl s)
  | .mountEnd journalA journalB checkpoint badDusk damaged => execMountEnd_evolves journalA journalB checkpoint badDusk damaged (.refl s)
  | .holdupMeasure => execHoldupMeasure_evolves (.refl s)
  | .holdupMeasureEnd chargedOk microfarad esrTenthMilliohm => execHoldupMeasureEnd_evolves chargedOk microfarad esrTenthMilliohm (.refl s)
  | .powerFailure millivolt => execPowerFailure_evolves millivolt (.refl s)
  | .inputToleranceExpiry millivolt => execInputToleranceExpiry_evolves millivolt (.refl s)
  | .inputSwitchClose millivolt => execInputSwitchClose_evolves millivolt (.refl s)
  | .matedN high => execMatedN_evolves high (.refl s)
  | .resetN => execResetN_evolves (.refl s)
  | .shdnReqN => execShdnReqN_evolves (.refl s)
  | .aonLoss => execAonLoss_evolves (.refl s)
  | .duskFlush => execDuskFlush_evolves (.refl s)
  | .duskFlushEnd bankFailed => execDuskFlushEnd_evolves bankFailed (.refl s)
  | .thermalSample compute flash dram => execThermalSample_evolves compute flash dram (.refl s)
  | .governorWindow milliwatt1ms milliwatt100ms milliamp1ms milliamp100ms millivolt => execGovernorWindow_evolves milliwatt1ms milliwatt100ms milliamp1ms milliamp100ms millivolt (.refl s)
  | .writebackAge => execWritebackAge_evolves (.refl s)
  | .writebackEnd count => execWritebackEnd_evolves count (.refl s)
  | .promoteWaitExpiry owner => execPromoteWaitExpiry_evolves owner (.refl s)
  | .dieReadEnd d stages => execDieReadEnd_evolves d stages (.refl s)
  | .dieProgramEnd d good => execDieProgramEnd_evolves d good (.refl s)
  | .dieEraseEnd d good => execDieEraseEnd_evolves d good (.refl s)
  | .journalDoneDurable => execJournalDoneDurable_evolves (.refl s)
  | .mapPageJournal => execMapPageJournal_evolves (.refl s)
  | .verifyAfterClose d unit stages => execVerifyAfterClose_evolves d unit stages (.refl s)
  | .backgroundWindow => execBackgroundWindow_evolves (.refl s)
  | .transportParityError p => execTransportParityError_evolves p (.refl s)
  | .channelHalt owner line => execChannelHalt_evolves owner line (.refl s)
  | .lineRecoveryEnd line phys location good => execLineRecoveryEnd_evolves line phys location good (.refl s)
  | .docentWatchdog core => execDocentWatchdog_evolves core (.refl s)
  | .drainComplete kind phys => execDrainComplete_evolves kind phys (.refl s)
  | .returnSelfTestEnd kind phys good => execReturnSelfTestEnd_evolves kind phys good (.refl s)
  | .tapReset => execTapReset_evolves (.refl s)
  | .extest cells => execExtest_evolves cells (.refl s)
  | .idcode => execIdcode_evolves (.refl s)
  | .samplePreload pins cells => execSamplePreload_evolves pins cells (.refl s)
  | .clamp => execClamp_evolves (.refl s)
  | .highz => execHighz_evolves (.refl s)
  | .extestPulse cells => execExtestPulse_evolves cells (.refl s)
  | .extestTrain cells => execExtestTrain_evolves cells (.refl s)
  | .bootStatus => execBootStatus_evolves (.refl s)
  | .bypass => execBypass_evolves (.refl s)
  | .smbPowerState => execSmbPowerState_evolves (.refl s)
  | .smbBootStatus => execSmbBootStatus_evolves (.refl s)
  | .smbInputVoltage => execSmbInputVoltage_evolves (.refl s)
  | .smbInputCurrent => execSmbInputCurrent_evolves (.refl s)
  | .smbInputPower => execSmbInputPower_evolves (.refl s)
  | .smbHoldupEnergy => execSmbHoldupEnergy_evolves (.refl s)
  | .smbComputeTemp => execSmbComputeTemp_evolves (.refl s)
  | .smbFlashTemp => execSmbFlashTemp_evolves (.refl s)
  | .smbDramTemp => execSmbDramTemp_evolves (.refl s)
  | .smbDuskBudget => execSmbDuskBudget_evolves (.refl s)
  | .smbDirtyDurable => execSmbDirtyDurable_evolves (.refl s)
  | .smbUnreadFaults => execSmbUnreadFaults_evolves (.refl s)
  | .smbSerial => execSmbSerial_evolves (.refl s)
  | .docentCoreFault core => execDocentCoreFault_evolves core (.refl s)
  | .engineParityError e => execEngineParityError_evolves e (.refl s)
  | .dieSuspendEnd d => execDieSuspendEnd_evolves d (.refl s)
  | .signatureEnd => execSignatureEnd_evolves (.refl s)

/-- The state that a command answers evolves from the state it is given. -/
theorem evolves_of_exec {c : Instr} {s t : State} (h : exec c s = .next t) : Evolves s t := by
  obtain ⟨u, hu, hev⟩ := exec_evolves c s
  cases hu.symm.trans h
  exact hev

/-- The invariant does not look at the queue of waiting commands. -/
theorem Inv.with_pending {s : State} (h : Inv s) (q : List Instr) : Inv { s with pending := q } :=
  ⟨h.atr, h.sched, h.gather, h.attention, h.tiers, h.beacon, h.power, h.link, h.flash, h.err, h.ftl, h.block, h.domains, h.hostMem⟩

/-- What a step is: the command at the front of the queue is run with the queue's rest. -/
theorem step_of_pending_cons {s : State} {c : Instr} {cs : List Instr} (h : s.pending = c :: cs) :
    step s = exec c { s with pending := cs } := by
  simp only [step, h]

/-- With nothing waiting, the drive idles. -/
theorem step_of_pending_nil {s : State} (h : s.pending = []) : step s = .next s := by
  simp only [step, h]

/-- Settles O54: a step is the front command's, which keeps the invariant, or leaves the state alone. -/
theorem everyStepKeepsTheInvariant : Obligations.EveryStepKeepsTheInvariant := by
  unfold Obligations.EveryStepKeepsTheInvariant
  intro s t hinv hstep
  cases hq : s.pending with
  | nil =>
    cases (step_of_pending_nil hq).symm.trans hstep
    exact hinv
  | cons c cs => exact (evolves_of_exec ((step_of_pending_cons hq).symm.trans hstep)).inv (hinv.with_pending cs)

/-- Settles O56: the state every command answers evolves from the one before it, and so has its queue. -/
theorem everyCommandCompletes : Obligations.EveryCommandCompletes := by
  unfold Obligations.EveryCommandCompletes
  intro c s
  obtain ⟨t, ht, hev⟩ := exec_evolves c s
  exact ⟨t, ht, hev.pending⟩

/-- Settles O57: the state a command answers evolves from the one before it, and so has its fuses. -/
theorem blownFusesStayBlown : Obligations.BlownFusesStayBlown := by
  unfold Obligations.BlownFusesStayBlown
  intro c s t h
  exact ⟨fun _ hi => (evolves_of_exec h).rollback hi, fun _ hi => (evolves_of_exec h).revoked hi⟩

/-- Settles O58. -/
theorem aStepRunsTheFrontCommand : Obligations.AStepRunsTheFrontCommand := by
  unfold Obligations.AStepRunsTheFrontCommand
  exact ⟨fun _ _ _ => step_of_pending_cons rfl, fun _ => step_of_pending_nil rfl⟩

/-- Settles O55: every part of the reset state meets its condition, most of them as empty lists, the others by their sizes. -/
theorem theInvariantHoldsAtReset : Obligations.TheInvariantHoldsAtReset := by
  unfold Obligations.TheInvariantHoldsAtReset
  exact {
    atr := ⟨List.length_replicate, List.length_replicate, List.length_replicate⟩
    sched := ⟨List.length_replicate, List.length_replicate, by decide, by decide, fun m hm => by
      rw [List.eq_of_mem_replicate hm]; rfl⟩
    gather := by unfold GatherEngine.Ok; decide
    attention := by unfold Attention.Ok; decide
    tiers := by unfold Tiers.Ok; decide
    beacon := by unfold Beacon.Ok; decide
    power := by unfold Power.Ok; decide
    link := rfl
    flash := List.length_replicate
    err := ⟨Nat.zero_le _, List.Pairwise.nil, fun _ h => absurd h List.not_mem_nil⟩
    ftl := ⟨List.Pairwise.nil, List.Pairwise.nil⟩
    block := rfl
    domains := rfl
    hostMem := rfl }

end Sys2Proof.Machine
end

section
/-! PROOF. Thread registers, instruction words, and the instructions that only write a register or a predicate (R131, R135 to R137,
Tables 5-2 and 5-3). -/
namespace Sys2Proof.Machine

/-! ### Registers and predicates (R131) -/

theorem Thread.setReg_zero (t : Thread) (v : Word) : t.setReg 0 v = t := if_pos rfl

theorem Thread.reg_zero (t : Thread) : t.reg 0 = 0 := if_pos rfl

theorem Thread.reg_setReg_same {t : Thread} {i : BitVec 6} (v : Word) (hl : t.regs.length = 64) (hi : i ≠ 0) :
    (t.setReg i v).reg i = v := by
  have hlt : i.toNat < t.regs.length := by rw [hl]; exact i.isLt
  simp only [Thread.setReg, Thread.reg, if_neg hi, List.getD_eq_getElem?_getD, List.getElem?_set_self hlt, Option.getD_some]

theorem Thread.reg_setReg_ne {t : Thread} {i k : BitVec 6} (v : Word) (hk : k ≠ i) : (t.setReg i v).reg k = t.reg k := by
  have hn : i.toNat ≠ k.toNat := fun h => hk (BitVec.eq_of_toNat_eq h.symm)
  by_cases hi : i = 0
  · rw [hi, Thread.setReg_zero]
  · simp only [Thread.setReg, Thread.reg, if_neg hi, List.getD_eq_getElem?_getD, List.getElem?_set_ne hn]

theorem Thread.length_setReg (t : Thread) (i : BitVec 6) (v : Word) : (t.setReg i v).regs.length = t.regs.length := by
  unfold Thread.setReg
  split <;> simp

theorem Thread.setPred_zero (t : Thread) (b : Bool) : t.setPred 0 b = t := by simp only [Thread.setPred, if_true]

theorem Thread.pred_zero (t : Thread) : t.pred 0 = true := rfl

/-- Any other predicate than the one written keeps its bit. -/
theorem Thread.pred_setPred_ne {t : Thread} {p q : BitVec 3} (b : Bool) (hq : q ≠ p) :
    (t.setPred p b).pred q = t.pred q := by
  have hn : p.toNat ≠ q.toNat := fun h => hq (BitVec.eq_of_toNat_eq h.symm)
  have hbit : (1#8 <<< p.toNat).getLsbD q.toNat = false := by
    simp only [BitVec.getLsbD_shiftLeft, BitVec.getLsbD_one]
    have : (decide (q.toNat < p.toNat)) = true ∨ q.toNat - p.toNat ≠ 0 := by
      rcases Nat.lt_or_ge q.toNat p.toNat with h | h
      · exact .inl (decide_eq_true h)
      · exact .inr (by omega)
    rcases this with h | h <;> simp [h]
  by_cases hp : p = 0
  · rw [hp, Thread.setPred_zero]
  · have hlt : q.toNat < 8 := q.isLt
    cases b <;> simp only [Thread.setPred, Thread.pred, if_neg hp, hbit, hlt, Bool.false_eq_true, if_true, if_false,
      BitVec.getLsbD_and, BitVec.getLsbD_or, BitVec.getLsbD_not, Bool.or_false, Bool.not_false, Bool.and_true, decide_true]

/-- The predicate written holds the value, but for p0. -/
theorem Thread.pred_setPred_same {t : Thread} {p : BitVec 3} (b : Bool) (hp : p ≠ 0) : (t.setPred p b).pred p = b := by
  have hlt : p.toNat < 8 := p.isLt
  have hbit : (1#8 <<< p.toNat).getLsbD p.toNat = true := by simp [hlt]
  cases b <;> simp only [Thread.setPred, Thread.pred, if_neg hp, hbit, Bool.false_eq_true, if_true, if_false, decide_eq_false hp,
    BitVec.getLsbD_and, BitVec.getLsbD_or, BitVec.getLsbD_not, Bool.or_true, Bool.not_true, Bool.and_false, Bool.false_or]

/-- Settles O14. -/
theorem registerZeroAndPredicateZeroAreFixed : Obligations.RegisterZeroAndPredicateZeroAreFixed := by
  unfold Obligations.RegisterZeroAndPredicateZeroAreFixed
  intro t i k p q v b hl
  exact ⟨Thread.reg_zero _, Thread.setReg_zero _ _, Thread.reg_setReg_same v hl, Thread.reg_setReg_ne v,
    (Thread.length_setReg _ _ _).trans hl, Thread.pred_zero _, Thread.setPred_zero _ _, Thread.pred_setPred_same b,
    Thread.pred_setPred_ne b⟩

/-! ### Instruction words (Table 5-2) -/

/-- The field of `n` bits from bit `lo` of a word that fits 32 bits. -/
theorem toNat_extractLsb'_ofNat {w : Nat} (lo n : Nat) (hw : w < 2 ^ 32) :
    ((BitVec.ofNat 32 w).extractLsb' lo n).toNat = w / 2 ^ lo % 2 ^ n := by
  rw [BitVec.extractLsb'_toNat, BitVec.toNat_ofNat, Nat.mod_eq_of_lt hw, Nat.shiftRight_eq_div_pow]

/-- A field of a word that fits 32 bits is known by its number. -/
theorem extractLsb'_ofNat_eq {w lo n : Nat} {v : BitVec n} (hw : w < 2 ^ 32) (h : w / 2 ^ lo % 2 ^ n = v.toNat) :
    (BitVec.ofNat 32 w).extractLsb' lo n = v :=
  BitVec.eq_of_toNat_eq ((toNat_extractLsb'_ofNat lo n hw).trans h)

open Sys2Proof.Laws.Words in
theorem rWord_fields {m n : Nat} (f : RForm) (hm : m < 64) (hn : n < 16) :
    let w := BitVec.ofNat 32 (rWord m n f)
    rWord m n f < 2 ^ 32 ∧ (w.extractLsb' 26 6).toNat = m ∧ w.extractLsb' 20 6 = f.rd ∧ w.extractLsb' 14 6 = f.rs1 ∧
      w.extractLsb' 8 6 = f.rs2 ∧ w.extractLsb' 5 3 = f.gp ∧ w.extractLsb' 4 1 = f.gn ∧ (w.extractLsb' 0 4).toNat = n := by
  have hlt := rWord_lt f hm hn
  have h1 := f.rd.isLt
  have h2 := f.rs1.isLt
  have h3 := f.rs2.isLt
  have h4 := f.gp.isLt
  have h5 := f.gn.isLt
  refine ⟨hlt, (toNat_extractLsb'_ofNat _ _ hlt).trans ?_, extractLsb'_ofNat_eq hlt ?_, extractLsb'_ofNat_eq hlt ?_,
    extractLsb'_ofNat_eq hlt ?_, extractLsb'_ofNat_eq hlt ?_, extractLsb'_ofNat_eq hlt ?_, (toNat_extractLsb'_ofNat _ _ hlt).trans ?_⟩ <;>
    (unfold rWord; omega)

/-- An S-format word is the R-format word of its fields in the same places (Table 5-2). -/
theorem sWord_eq_rWord (m n : Nat) (f : SForm) :
    sWord m n f = rWord m n { rd := f.ra, rs1 := f.rb, rs2 := f.rc, gp := f.gp, gn := f.gn } := rfl

open Sys2Proof.Laws.Words in
theorem iWord_fields {m : Nat} (f : IForm) (hm : m < 64) :
    let w := BitVec.ofNat 32 (iWord m f)
    iWord m f < 2 ^ 32 ∧ (w.extractLsb' 26 6).toNat = m ∧ w.extractLsb' 20 6 = f.rd ∧ w.extractLsb' 14 6 = f.rs1 ∧
      w.extractLsb' 0 14 = f.imm := by
  have hlt := iWord_lt f hm
  have h1 := f.rd.isLt
  have h2 := f.rs1.isLt
  have h3 := f.imm.isLt
  refine ⟨hlt, (toNat_extractLsb'_ofNat _ _ hlt).trans ?_, extractLsb'_ofNat_eq hlt ?_, extractLsb'_ofNat_eq hlt ?_,
    extractLsb'_ofNat_eq hlt ?_⟩ <;> (unfold iWord; omega)

open Sys2Proof.Laws.Words in
theorem uWord_fields {m : Nat} (f : UForm) (hm : m < 64) :
    let w := BitVec.ofNat 32 (uWord m f)
    uWord m f < 2 ^ 32 ∧ (w.extractLsb' 26 6).toNat = m ∧ w.extractLsb' 20 6 = f.rd ∧ w.extractLsb' 0 20 = f.imm := by
  have hlt := uWord_lt f hm
  have h1 := f.rd.isLt
  have h2 := f.imm.isLt
  refine ⟨hlt, (toNat_extractLsb'_ofNat _ _ hlt).trans ?_, extractLsb'_ofNat_eq hlt ?_, extractLsb'_ofNat_eq hlt ?_⟩ <;>
    (unfold uWord; omega)

open Sys2Proof.Laws.Words in
theorem bWord_fields (f : BForm) :
    let w := BitVec.ofNat 32 (bWord f)
    bWord f < 2 ^ 32 ∧ w.extractLsb' 26 6 = 0x20 ∧ w.extractLsb' 23 3 = f.p ∧ w.extractLsb' 22 1 = f.n ∧
      w.extractLsb' 0 22 = f.off := by
  have hlt := bWord_lt f
  have h1 := f.p.isLt
  have h2 := f.n.isLt
  have h3 := f.off.isLt
  refine ⟨hlt, extractLsb'_ofNat_eq hlt ?_, extractLsb'_ofNat_eq hlt ?_, extractLsb'_ofNat_eq hlt ?_, extractLsb'_ofNat_eq hlt ?_⟩
  · rw [show (BitVec.toNat (0x20 : BitVec 6)) = 32 from rfl]; unfold bWord; omega
  all_goals unfold bWord; omega

open Sys2Proof.Laws.Words in
theorem pWord_fields (i : BitVec 16) :
    let w := BitVec.ofNat 32 (pWord i)
    pWord i < 2 ^ 32 ∧ w.extractLsb' 26 6 = 0x2B ∧ w.extractLsb' 10 16 = i ∧ w.extractLsb' 0 10 = 0 := by
  have hlt := pWord_lt i
  have h1 := i.isLt
  refine ⟨hlt, extractLsb'_ofNat_eq hlt ?_, extractLsb'_ofNat_eq hlt ?_, extractLsb'_ofNat_eq hlt ?_⟩
  · rw [show (BitVec.toNat (0x2B : BitVec 6)) = 43 from rfl]; unfold pWord; omega
  · unfold pWord; omega
  · rw [show (BitVec.toNat (0 : BitVec 10)) = 0 from rfl]; unfold pWord; omega

/-- Settles O15: format by format. -/
theorem instructionWordsFollowTheirFormats : Obligations.InstructionWordsFollowTheirFormats := by
  unfold Obligations.InstructionWordsFollowTheirFormats
  refine ⟨fun _ _ f hm hn => rWord_fields f hm hn, fun m n f hm hn => ?_, fun _ f hm => iWord_fields f hm,
    fun _ f hm => uWord_fields f hm, bWord_fields, pWord_fields⟩
  rw [sWord_eq_rWord]
  exact rWord_fields _ hm hn

/-! ### Integer instructions (MAJORs 0x01 to 0x07) -/

/-- A thread that issues an instruction without a guard and goes on at the next word with a register written. -/
theorem AtWord.putsReg {s : State} {h : Thr} {w : Nat} {j : Job} {t : Thread} (k : AtWord s h w j t)
    (hp : j.pcOk (t.pc + 4) = true) (rd : BitVec 6) (v : Word) :
    s.retire_ h t (fun u => u.setReg rd v) = s.putsReg h t rd v :=
  State.retire_ok k.job k.untrapped hp _

/-- A row of MAJOR 0x01: the command is the shared form of its FN, whose operation gives the row's value. -/
theorem intR_row (c : Thr → RForm → Instr) {fn : Nat} (hc : ∀ h f s, exec (c h f) s = .next (s.intR fn h f))
    {s : State} {h : Thr} {f : RForm} {j : Job} {t : Thread} (k : Issues s h (rWord 0x01 fn f) f.gp f.gn j t)
    {v : Word} (hv : intOp fn (t.reg f.rs1) (t.reg f.rs2) = v) : exec (c h f) s = .next (s.putsReg h t f.rd v) := by
  rw [hc, State.intR, k.issueIf, k.putsReg, hv]

/-- A row of MAJORs 0x02 to 0x06. -/
theorem intI_row (c : Thr → IForm → Instr) {major : Nat} {op : BitVec 14 → Word → Word}
    (hc : ∀ h f s, exec (c h f) s = .next (s.intI major (op f.imm) h f))
    {s : State} {h : Thr} {f : IForm} {j : Job} {t : Thread} (k : AtWord s h (iWord major f) j t)
    (hp : j.pcOk (t.pc + 4) = true) {v : Word} (hv : op f.imm (t.reg f.rs1) = v) :
    exec (c h f) s = .next (s.putsReg h t f.rd v) := by
  rw [hc, State.intI, k.issue, k.putsReg hp, hv]

/-- The low 5 bits of a word as a shift amount. -/
theorem toNat_and_31 (y : Word) : (y &&& 31).toNat = y.toNat % 32 := by
  rw [BitVec.toNat_and]
  exact Nat.and_two_pow_sub_one_eq_mod y.toNat 5

theorem slt_iff (x y : Word) : x.slt y = true ↔ x.toInt < y.toInt := by simp [BitVec.slt]

theorem ult_iff (x y : Word) : x.ult y = true ↔ x.toNat < y.toNat := by simp [BitVec.ult]

/-- The high half of an unsigned product. -/
theorem mulhu_eq (x y : Word) :
    BitVec.ofNat 32 (x.toNat * y.toNat / 2 ^ 32) = ((x.setWidth 64 * y.setWidth 64) >>> 32).setWidth 32 := by
  apply BitVec.eq_of_toNat_eq
  have hx := x.isLt
  have hy := y.isLt
  have hlt : x.toNat * y.toNat < 2 ^ 64 := by
    calc x.toNat * y.toNat < 2 ^ 32 * 2 ^ 32 := Nat.mul_lt_mul'' hx hy
      _ = 2 ^ 64 := rfl
  have hx' : x.toNat % 2 ^ 64 = x.toNat := Nat.mod_eq_of_lt (by omega)
  have hy' : y.toNat % 2 ^ 64 = y.toNat := Nat.mod_eq_of_lt (by omega)
  simp only [BitVec.toNat_ofNat, BitVec.toNat_setWidth, BitVec.toNat_ushiftRight, BitVec.toNat_mul, hx', hy',
    Nat.mod_eq_of_lt hlt, Nat.shiftRight_eq_div_pow]

/-- The kind and the amount of SHI as fields of its immediate. -/
theorem shiOp_eq (x : Word) (i : BitVec 14) :
    shiOp x i = if i.extractLsb' 12 2 = 0 then x <<< (i.extractLsb' 0 5).toNat
      else if i.extractLsb' 12 2 = 1 then x >>> (i.extractLsb' 0 5).toNat
      else x.sshiftRight (i.extractLsb' 0 5).toNat := by
  have hi := i.isLt
  have hn : (i.extractLsb' 0 5).toNat = i.toNat % 32 := by simp [BitVec.extractLsb'_toNat]
  have hk : (i.extractLsb' 12 2).toNat = i.toNat / 4096 := by
    rw [BitVec.extractLsb'_toNat, Nat.shiftRight_eq_div_pow]
    exact Nat.mod_eq_of_lt (by omega)
  have h0 : i.extractLsb' 12 2 = 0 ↔ i.toNat / 4096 = 0 := by rw [← hk, BitVec.toNat_eq]; rfl
  have h1 : i.extractLsb' 12 2 = 1 ↔ i.toNat / 4096 = 1 := by rw [← hk, BitVec.toNat_eq]; rfl
  simp only [shiOp, hn, h0, h1]
  split
  next h => rw [if_pos h]
  next h => rw [if_neg (by omega), if_pos h]
  next h0 h1 => rw [if_neg h0, if_neg h1]

/-- LUI's value: the immediate over twelve zeros. -/
theorem lui_eq (i : BitVec 20) : BitVec.ofNat 32 (i.toNat * 4096) = i ++ (0 : BitVec 12) := by
  apply BitVec.eq_of_toNat_eq
  have hi := i.isLt
  rw [BitVec.toNat_append, BitVec.toNat_ofNat, Nat.mod_eq_of_lt (by omega), Nat.shiftLeft_eq]
  simp

/-- Settles O1: row by row, each the shared form of its MAJOR with the row's operation. -/
theorem arithmeticInstructionsWriteTheirResult : Obligations.ArithmeticInstructionsWriteTheirResult := by
  unfold Obligations.ArithmeticInstructionsWriteTheirResult
  simp only [List.forall_mem_cons]
  refine ⟨⟨?_, ?_, ?_, ?_, ?_, ?_, ?_, ?_, ?_, ?_, ?_, ?_, ?_, ?_, ?_, ?_, by simp⟩, ⟨?_, ?_, ?_, ?_, ?_, by simp⟩, ?_⟩
  · exact fun _ _ _ _ _ k => intR_row .add (fun _ _ _ => rfl) k rfl
  · exact fun _ _ _ _ _ k => intR_row .sub (fun _ _ _ => rfl) k rfl
  · exact fun _ _ _ _ _ k => intR_row .and (fun _ _ _ => rfl) k rfl
  · exact fun _ _ _ _ _ k => intR_row .or (fun _ _ _ => rfl) k rfl
  · exact fun _ _ _ _ _ k => intR_row .xor (fun _ _ _ => rfl) k rfl
  · exact fun _ _ _ _ _ k => intR_row .sll (fun _ _ _ => rfl) k (by rw [toNat_and_31]; rfl)
  · exact fun _ _ _ _ _ k => intR_row .srl (fun _ _ _ => rfl) k (by rw [toNat_and_31]; rfl)
  · exact fun _ _ _ _ _ k => intR_row .sra (fun _ _ _ => rfl) k (by rw [toNat_and_31]; rfl)
  · exact fun _ _ _ _ _ k => intR_row .slt (fun _ _ _ => rfl) k (by simp only [intOp, wordBit, slt_iff])
  · exact fun _ _ _ _ _ k => intR_row .sltu (fun _ _ _ => rfl) k (by simp only [intOp, wordBit, ult_iff])
  · exact fun _ _ _ _ _ k => intR_row .min (fun _ _ _ => rfl) k (by simp only [intOp, slt_iff])
  · exact fun _ _ _ _ _ k => intR_row .max (fun _ _ _ => rfl) k (by simp only [intOp, slt_iff])
  · exact fun _ _ _ _ _ k => intR_row .minu (fun _ _ _ => rfl) k (by simp only [intOp, ult_iff])
  · exact fun _ _ _ _ _ k => intR_row .maxu (fun _ _ _ => rfl) k (by simp only [intOp, ult_iff])
  · exact fun _ _ _ _ _ k => intR_row .mul (fun _ _ _ => rfl) k rfl
  · exact fun _ _ _ _ _ k => intR_row .mulhu (fun _ _ _ => rfl) k (mulhu_eq _ _)
  · exact fun _ _ _ _ _ k hp => intI_row .addi (op := fun i x => x + i.signExtend 32) (fun _ _ _ => rfl) k hp rfl
  · exact fun _ _ _ _ _ k hp => intI_row .andi (op := fun i x => x &&& i.setWidth 32) (fun _ _ _ => rfl) k hp rfl
  · exact fun _ _ _ _ _ k hp => intI_row .ori (op := fun i x => x ||| i.setWidth 32) (fun _ _ _ => rfl) k hp rfl
  · exact fun _ _ _ _ _ k hp => intI_row .xori (op := fun i x => x ^^^ i.setWidth 32) (fun _ _ _ => rfl) k hp rfl
  · exact fun _ _ _ _ _ k hp => intI_row .shi (op := fun i x => shiOp x i) (fun _ _ _ => rfl) k hp (shiOp_eq _ _)
  · intro s h f j t k hp
    rw [← lui_eq, ← k.putsReg hp]
    exact congrArg Host.Outcome.next (k.issue _)

/-! ### FP32 and packed BF16 instructions (MAJORs 0x08 and 0x09) -/

/-- After the sticky flags are set, the thread's register is written and it goes on. -/
theorem Issues.stick_putsReg {s : State} {h : Thr} {w : Nat} {gp : BitVec 3} {gn : BitVec 1} {j : Job} {t : Thread}
    (k : Issues s h w gp gn j t) (nan sat : Bool) (rd : BitVec 6) (v : Word) :
    (s.stick h.job nan sat).retire_ h t (fun u => u.setReg rd v) = (s.stick h.job nan sat).putsReg h t rd v :=
  State.retire_ok (State.job?_stick k.stands.job nan sat) k.stands.untrapped k.follows _

/-- A row of MAJORs 0x08 and 0x09. -/
theorem flagR_row (c : Thr → RForm → Instr) {major fn : Nat} {op : Word → Word → Word → Flagged}
    (hc : ∀ h f s, exec (c h f) s = .next (s.flagR major fn op h f))
    {s : State} {h : Thr} {f : RForm} {j : Job} {t : Thread} (k : Issues s h (rWord major fn f) f.gp f.gn j t)
    {v : Flagged} (hv : op (t.reg f.rd) (t.reg f.rs1) (t.reg f.rs2) = v) :
    exec (c h f) s = .next ((s.stick h.job v.nan v.sat).putsReg h t f.rd v.val) := by
  subst hv
  rw [hc, State.flagR, k.issueIf]
  exact congrArg Host.Outcome.next (k.stick_putsReg _ _ _ _)

/-- Settles O2: row by row, each the shared form with the row's operation. -/
theorem floatInstructionsWriteTheirResult : Obligations.FloatInstructionsWriteTheirResult := by
  unfold Obligations.FloatInstructionsWriteTheirResult
  simp only [List.forall_mem_cons]
  refine ⟨?_, ?_, ?_, ?_, ?_, ?_, ?_, ?_, ?_, ?_, ?_, ?_, ?_, ?_, ?_, ?_, ?_, ?_, ?_, ?_, ?_, by simp⟩
  · exact fun _ _ _ _ _ k => flagR_row .fadd (fun _ _ _ => rfl) k rfl
  · exact fun _ _ _ _ _ k => flagR_row .fsub (fun _ _ _ => rfl) k rfl
  · exact fun _ _ _ _ _ k => flagR_row .fmul (fun _ _ _ => rfl) k rfl
  · exact fun _ _ _ _ _ k => flagR_row .fma (fun _ _ _ => rfl) k rfl
  · exact fun _ _ _ _ _ k => flagR_row .fmin (fun _ _ _ => rfl) k rfl
  · exact fun _ _ _ _ _ k => flagR_row .fmax (fun _ _ _ => rfl) k rfl
  · exact fun _ _ _ _ _ k => flagR_row .fabs (fun _ _ _ => rfl) k rfl
  · exact fun _ _ _ _ _ k => flagR_row .fneg (fun _ _ _ => rfl) k rfl
  · exact fun _ _ _ _ _ k => flagR_row .fcvtSW (fun _ _ _ => rfl) k rfl
  · exact fun _ _ _ _ _ k => flagR_row .fcvtWS (fun _ _ _ => rfl) k rfl
  · exact fun _ _ _ _ _ k => flagR_row .fexp2 (fun _ _ _ => rfl) k rfl
  · exact fun _ _ _ _ _ k => flagR_row .flog2 (fun _ _ _ => rfl) k rfl
  · exact fun _ _ _ _ _ k => flagR_row .frcp (fun _ _ _ => rfl) k rfl
  · exact fun _ _ _ _ _ k => flagR_row .frsq (fun _ _ _ => rfl) k rfl
  · exact fun _ _ _ _ _ k => flagR_row .badd2 (fun _ _ _ => rfl) k rfl
  · exact fun _ _ _ _ _ k => flagR_row .bmul2 (fun _ _ _ => rfl) k rfl
  · exact fun _ _ _ _ _ k => flagR_row .bfma2 (fun _ _ _ => rfl) k rfl
  · exact fun _ _ _ _ _ k => flagR_row .bmax2 (fun _ _ _ => rfl) k rfl
  · exact fun _ _ _ _ _ k => flagR_row .bpack (fun _ _ _ => rfl) k rfl
  · exact fun _ _ _ _ _ k => flagR_row .blo (fun _ _ _ => rfl) k rfl
  · exact fun _ _ _ _ _ k => flagR_row .bhi (fun _ _ _ => rfl) k rfl

end Sys2Proof.Machine
end

section
/-! PROOF. Compares and predicates, control, system and sync instructions, PAUSE, and instructions that are guarded off (R127, R131,
R134, R136, R142, R143, R147, Table 5-3). -/
namespace Sys2Proof.Machine

/-! ### Compares and predicates (MAJORs 0x0A and 0x0B) -/

/-- Changing a job into itself leaves the state alone. -/
theorem State.updJob_self (s : State) (n : Nat) {f : Job → Job} (hf : ∀ j, f j = j) : s.updJob n f = s := by
  simp only [State.updJob, updWhere, hf, ite_self, List.map_id']

/-- Flags that set nothing leave the state alone. -/
theorem State.stick_none (s : State) (n : Nat) : s.stick n false false = s :=
  s.updJob_self n fun j => by simp only [Bool.or_false]

/-- A thread that issues an instruction takes a predicate and goes on. -/
theorem Issues.putsPred {s : State} {h : Thr} {w : Nat} {gp : BitVec 3} {gn : BitVec 1} {j : Job} {t : Thread}
    (k : Issues s h w gp gn j t) (p : BitVec 3) (b : Bool) :
    s.retire_ h t (fun u => u.setPred p b) = s.putsPred h t p b :=
  State.retire_ok k.stands.job k.stands.untrapped k.follows _

/-- A row of MAJOR 0x0A, of which FEQ, FLT and FLE set NAN_SEEN. -/
theorem cmpR_row (c : Thr → RForm → Instr) {fn : Nat} (hc : ∀ h f s, exec (c h f) s = .next (s.cmpR fn h f))
    {s : State} {h : Thr} {f : RForm} {j : Job} {t : Thread} (k : Issues s h (rWord 0x0A fn f) f.gp f.gn j t)
    {b nan : Bool} (hv : cmpOp fn (t.reg f.rs1) (t.reg f.rs2) = (b, nan)) :
    exec (c h f) s = .next ((s.stick h.job nan false).putsPred h t (predOf f.rd) b) := by
  rw [hc, State.cmpR, k.issueIf]
  simp only [hv]
  exact congrArg Host.Outcome.next
    (State.retire_ok (State.job?_stick k.stands.job nan false) k.stands.untrapped k.follows _)

/-- An integer comparison sets no flag. -/
theorem cmpR_row_int (c : Thr → RForm → Instr) {fn : Nat} (hc : ∀ h f s, exec (c h f) s = .next (s.cmpR fn h f))
    {s : State} {h : Thr} {f : RForm} {j : Job} {t : Thread} (k : Issues s h (rWord 0x0A fn f) f.gp f.gn j t)
    {b : Bool} (hv : cmpOp fn (t.reg f.rs1) (t.reg f.rs2) = (b, false)) :
    exec (c h f) s = .next (s.putsPred h t (predOf f.rd) b) := by
  rw [cmpR_row c hc k hv, State.stick_none]

/-- A row of MAJOR 0x0B, FN 0 to 3. -/
theorem predR_row (c : Thr → RForm → Instr) {fn : Nat} (hc : ∀ h f s, exec (c h f) s = .next (s.predR fn h f))
    {s : State} {h : Thr} {f : RForm} {j : Job} {t : Thread} (k : Issues s h (rWord 0x0B fn f) f.gp f.gn j t) :
    exec (c h f) s = .next (s.putsPred h t (predOf f.rd) (predOp fn (t.pred (predOf f.rs1)) (t.pred (predOf f.rs2)))) := by
  rw [hc, State.predR, k.issueIf, k.putsPred]

theorem slt_eq_decide (x y : Word) : x.slt y = decide (x.toInt < y.toInt) := rfl

theorem ult_eq_decide (x y : Word) : x.ult y = decide (x.toNat < y.toNat) := rfl

theorem not_slt_eq_decide (x y : Word) : (!x.slt y) = decide (y.toInt ≤ x.toInt) := by
  simp [slt_eq_decide, ← decide_not]

theorem not_ult_eq_decide (x y : Word) : (!x.ult y) = decide (y.toNat ≤ x.toNat) := by
  simp [ult_eq_decide, ← decide_not]

/-- The predicates that STOP takes from a word: bits 1 to 7, and p0. -/
theorem pred_of_stop (t : Thread) (x : Word) (i : BitVec 3) :
    ({ t with preds := x.setWidth 8 &&& 0xFE } : Thread).pred i = if i = 0 then true else x.getLsbD i.toNat := by
  have hlt : i.toNat < 8 := i.isLt
  by_cases hi : i = 0
  · simp [Thread.pred, hi]
  · have hmask : (0xFE : BitVec 8).getLsbD i.toNat = true :=
      (by decide : ∀ i : BitVec 3, i ≠ 0 → (0xFE : BitVec 8).getLsbD i.toNat = true) i hi
    simp only [Thread.pred, if_neg hi, decide_eq_false hi, BitVec.getLsbD_and, hmask, BitVec.getLsbD_setWidth, decide_eq_true hlt,
      Bool.true_and, Bool.and_true, Bool.false_or]

/-- Settles O4. -/
theorem comparesAndPredicatesWriteTheirResult : Obligations.ComparesAndPredicatesWriteTheirResult := by
  unfold Obligations.ComparesAndPredicatesWriteTheirResult
  simp only [List.forall_mem_cons]
  refine ⟨⟨?_, ?_, ?_, ?_, ?_, ?_, by simp⟩, ⟨?_, ?_, ?_, by simp⟩, ⟨?_, ?_, ?_, ?_, by simp⟩, ?_, ?_⟩
  · exact fun _ _ _ _ _ k => cmpR_row_int .eq (fun _ _ _ => rfl) k (by simp only [cmpOp, Bool.beq_eq_decide_eq])
  · exact fun _ _ _ _ _ k => cmpR_row_int .ne (fun _ _ _ => rfl) k (by simp only [cmpOp, bne_eq, Bool.beq_eq_decide_eq, decide_not])
  · exact fun _ _ _ _ _ k => cmpR_row_int .lt (fun _ _ _ => rfl) k rfl
  · exact fun _ _ _ _ _ k => cmpR_row_int .ltu (fun _ _ _ => rfl) k rfl
  · exact fun _ _ _ _ _ k => cmpR_row_int .ge (fun _ _ _ => rfl) k (by simp only [cmpOp, not_slt_eq_decide])
  · exact fun _ _ _ _ _ k => cmpR_row_int .geu (fun _ _ _ => rfl) k (by simp only [cmpOp, not_ult_eq_decide])
  · exact fun _ _ _ _ _ k => cmpR_row .feq (fun _ _ _ => rfl) k rfl
  · exact fun _ _ _ _ _ k => cmpR_row .flt (fun _ _ _ => rfl) k rfl
  · exact fun _ _ _ _ _ k => cmpR_row .fle (fun _ _ _ => rfl) k rfl
  · exact fun _ _ _ _ _ k => predR_row .pand (fun _ _ _ => rfl) k
  · exact fun _ _ _ _ _ k => predR_row .por (fun _ _ _ => rfl) k
  · exact fun _ _ _ _ _ k => predR_row .pxor (fun _ _ _ => rfl) k
  · exact fun _ _ _ _ _ k => predR_row .pnot (fun _ _ _ => rfl) k
  · intro s h f j t k
    exact congrArg Host.Outcome.next ((k.issueIf _).trans (k.putsReg _ _))
  · intro s h f j t k
    refine ⟨_, congrArg Host.Outcome.next ((k.issueIf _).trans
      (State.retire_ok k.stands.job k.stands.untrapped k.follows _)), rfl, fun i => ?_⟩
    exact pred_of_stop t _ _

/-! ### Control and system instructions (MAJORs 0x20 to 0x22 and 0x2C) -/

/-- A thread whose guard holds issues an R- or S-format instruction. -/
theorem AtWord.issueIf_of_guard {s : State} {h : Thr} {w : Nat} {j : Job} {t : Thread} (k : AtWord s h w j t)
    {gp : BitVec 3} {gn : BitVec 1} (hg : t.guard gp gn = true) (f : Job → Thread → State) :
    s.issueIf h gp gn w f = f j t := by
  rw [State.issueIf, k.issue, if_pos hg]

/-- A thread whose guard does not hold goes on at the next word. -/
theorem AtWord.issueIf_of_not_guard {s : State} {h : Thr} {w : Nat} {j : Job} {t : Thread} (k : AtWord s h w j t)
    {gp : BitVec 3} {gn : BitVec 1} (hg : t.guard gp gn = false) (hp : j.pcOk (t.pc + 4) = true) (f : Job → Thread → State) :
    s.issueIf h gp gn w f = s.goesTo h (t.pc + 4) := by
  rw [State.issueIf, k.issue, hg, if_neg Bool.false_ne_true, State.goTo_ok k.job k.untrapped hp]

/-- A thread that goes to a PC outside the code region takes the fetch-range trap. -/
theorem State.goTo_bad {s : State} {h : Thr} {pc : Nat} {j : Job} (hj : s.job? h.job = some j)
    (ht : j.trapped = false) (hp : j.pcOk pc = false) : s.goTo h pc = (s.goesTo h pc).progTrap h pc 0x01 pc := by
  simp only [State.goTo, hj, ht, hp, if_false, Bool.false_eq_true]
  rfl

/-- Settles O7. -/
theorem controlInstructionsSetThePc : Obligations.ControlInstructionsSetThePc := by
  unfold Obligations.ControlInstructionsSetThePc
  refine ⟨⟨?_, ?_, ?_, ?_⟩, ?_, ?_⟩
  · intro s h f j t k pc hp
    exact congrArg Host.Outcome.next ((k.issue _).trans (State.goTo_ok k.job k.untrapped hp))
  · intro s h f j t k hp
    exact congrArg Host.Outcome.next ((k.issue _).trans (State.updThread_goTo k.job k.untrapped hp _))
  · intro s h f j t k hg hp
    exact congrArg Host.Outcome.next ((k.issueIf_of_guard hg _).trans (State.goTo_ok k.job k.untrapped hp))
  · intro s h f j t k hg
    exact congrArg Host.Outcome.next (k.issueIf_of_guard hg _)
  · intro s h f j t k pc hp
    exact congrArg Host.Outcome.next ((k.issue _).trans (State.goTo_bad k.job k.untrapped hp))
  · intro s h f j t k hg hp
    exact congrArg Host.Outcome.next ((k.issueIf_of_guard hg _).trans (State.goTo_bad k.job k.untrapped hp))

/-- A row of MAJOR 0x2C that writes rd. -/
theorem sysR_row (c : Thr → RForm → Instr) {fn : Nat} {s : State} {op : Thr → Job → Thread → Word → Word}
    (hc : ∀ h f, exec (c h f) s = .next (s.sysR fn (fun j t => op h j t (t.reg f.rs1)) h f))
    {h : Thr} {f : RForm} {j : Job} {t : Thread} (k : Issues s h (rWord 0x2C fn f) f.gp f.gn j t)
    {v : Word} (hv : op h j t (t.reg f.rs1) = v) : exec (c h f) s = .next (s.putsReg h t f.rd v) := by
  rw [hc, State.sysR, k.issueIf, k.putsReg, hv]

/-- The sticky flags as a word. -/
theorem flags_word (nan sat : Bool) :
    BitVec.ofNat 32 (bit01 nan + 2 * bit01 sat) = (if nan then 1 else 0) ||| (if sat then 2 else 0) := by
  cases nan <;> cases sat <;> rfl

/-- Settles O8. -/
theorem systemInstructionsAnswer : Obligations.SystemInstructionsAnswer := by
  unfold Obligations.SystemInstructionsAnswer
  simp only [List.forall_mem_cons]
  refine ⟨⟨?_, ?_, ?_, ?_, ?_, ?_, by simp⟩, ?_⟩
  · exact fun _ _ _ _ _ k => sysR_row .tid (op := fun h _ _ _ => BitVec.ofNat 32 h.thread) (fun _ _ => rfl) k rfl
  · exact fun _ _ _ _ _ k => sysR_row .cid (op := fun h _ _ _ => BitVec.ofNat 32 h.cluster) (fun _ _ => rfl) k rfl
  · exact fun _ _ _ _ _ k => sysR_row .ncl (op := fun _ j _ _ => BitVec.ofNat 32 j.clusters.length) (fun _ _ => rfl) k rfl
  · exact fun _ _ _ _ _ k => sysR_row .flags (op := fun _ j _ _ => BitVec.ofNat 32 (bit01 j.nan + 2 * bit01 j.accSat))
      (fun _ _ => rfl) k (flags_word _ _)
  · exact fun s _ _ _ _ k => sysR_row .btime (op := fun _ _ _ _ => BitVec.ofNat 32 s.epoch) (fun _ _ => rfl) k rfl
  · exact fun _ _ _ _ _ k => sysR_row .wide (op := fun _ j _ x => wordBit (j.wide.contains x.toNat)) (fun _ _ => rfl) k
      (by simp only [wordBit, List.contains_iff_mem])
  · exact fun s h f j t k hg => congrArg Host.Outcome.next (k.issueIf_of_guard hg _)

/-- A command that is issued under its guard only takes its turn where the guard is 0. -/
theorem guarded_off {s : State} {h : Thr} {w : Nat} {gp : BitVec 3} {gn : BitVec 1} {j : Job} {t : Thread} {c : Instr}
    {f : Job → Thread → State} (k : AtWord s h w j t) (hg : t.guard gp gn = false) (hp : j.pcOk (t.pc + 4) = true)
    (hc : exec c s = .next (s.issueIf h gp gn w f)) : exec c s = .next (s.goesTo h (t.pc + 4)) :=
  hc.trans (congrArg Host.Outcome.next (k.issueIf_of_not_guard hg hp f))

/-- Settles O9: every row issues its command under the guard. -/
theorem guardedOffInstructionsOnlyAdvance : Obligations.GuardedOffInstructionsOnlyAdvance := by
  unfold Obligations.GuardedOffInstructionsOnlyAdvance
  simp only [List.forall_mem_cons]
  refine ⟨⟨?_, ?_, ?_, ?_, ?_, ?_, ?_, ?_, ?_, ?_, ?_, ?_, ?_, ?_, ?_, ?_, ?_, ?_, ?_, ?_, ?_, ?_, ?_, ?_, ?_, ?_, ?_, ?_, ?_, ?_, ?_, ?_, ?_, ?_, ?_, ?_, ?_, ?_, ?_, ?_, ?_, ?_, ?_, ?_, ?_, ?_, ?_, ?_, ?_, ?_, ?_, ?_, ?_, ?_, ?_, ?_, ?_, ?_, ?_, ?_, ?_, by simp⟩, ?_, ?_, ?_, ?_, ?_, ?_, ?_, ?_, ?_, ?_, ?_, by simp⟩ <;>
    exact fun _ _ _ _ _ k hg hp => guarded_off k hg hp rfl

/-! ### Sync instructions and PAUSE (R127, R134, R142, R143) -/

/-- The job of a thread whose stores have become visible: only that thread's list of stores has changed. -/
theorem State.job?_publish {s : State} {h : Thr} {j : Job} (hj : s.job? h.job = some j) :
    ∃ cs, (s.publish h).job? h.job = some { j with clusters := cs } := by
  unfold State.publish
  split
  · exact ⟨j.clusters, hj⟩
  next p t ht =>
    rw [State.job?_updThread]
    exact ⟨_, congrArg (Option.map _) hj⟩

/-- Setting a counter changes its list of counters and wakes threads. -/
theorem State.job?_setCounter {s : State} {id : Nat} {j : Job} (hj : s.job? id = some j) (obj : Nat) (v : Word) :
    (s.setCounter id obj v).job? id = some ({ j with sync := j.sync.set obj v } : Job).wake :=
  (State.job?_updJob s id (fun j => ({ j with sync := j.sync.set obj v } : Job).wake) fun _ => rfl).trans
    (congrArg (Option.map _) hj)

/-- A counter is set and the thread goes on. -/
theorem State.setCounter_goTo {s : State} {h : Thr} {pc : Nat} {j : Job} (hj : s.job? h.job = some j)
    (ht : j.trapped = false) (hp : j.pcOk pc = true) (obj : Nat) (v : Word) :
    (s.setCounter h.job obj v).goTo h pc = (s.setCounter h.job obj v).goesTo h pc :=
  State.goTo_ok (State.job?_setCounter hj obj v) ht hp

/-- A sync instruction on an object of the job's grant. -/
theorem Issues.syncOp_of_lt {s : State} {h : Thr} {fn : Nat} {f : SForm} {j : Job} {t : Thread}
    (k : Issues s h (sWord 0x2A fn f) f.gp f.gn j t) (hl : (t.reg f.ra).toNat < j.sync.length)
    (run : Job → Thread → Nat → Word → State) : s.syncOp fn h f run = run j t (t.reg f.ra).toNat (t.reg f.rb) := by
  rw [State.syncOp, k.issueIf]
  exact if_pos hl

/-- A sync instruction on an object outside the job's grant traps. -/
theorem Issues.syncOp_of_le {s : State} {h : Thr} {fn : Nat} {f : SForm} {j : Job} {t : Thread}
    (k : Issues s h (sWord 0x2A fn f) f.gp f.gn j t) (hl : j.sync.length ≤ (t.reg f.ra).toNat)
    (run : Job → Thread → Nat → Word → State) : s.syncOp fn h f run = s.progTrap h t.pc 0x08 (t.reg f.ra).toNat := by
  rw [State.syncOp, k.issueIf]
  exact if_neg (Nat.not_lt.mpr hl)

/-- SIGNAL by an amount in its range on an object of the grant. -/
theorem exec_signal {s : State} {h : Thr} {f : SForm} {j : Job} {t : Thread}
    (k : Issues s h (sWord 0x2A 0 f) f.gp f.gn j t) (hl : (t.reg f.ra).toNat < j.sync.length)
    (h1 : 1 ≤ (t.reg f.rb).toNat) (h2 : (t.reg f.rb).toNat ≤ 65535) :
    exec (.signal h f) s =
      .next (((s.publish h).signal h t.pc (t.reg f.ra).toNat (t.reg f.rb).toNat).goTo h (t.pc + 4)) :=
  congrArg Host.Outcome.next ((k.syncOp_of_lt hl _).trans (if_neg (by omega)))

/-- PAUSE at an entry that names it, with no thread at another barrier, and otherwise. -/
theorem exec_pause {s : State} {h : Thr} {i : BitVec 16} {j : Job} {t : Thread} (k : AtWord s h (pWord i) j t) :
    exec (.pause h i) s = .next (
      if (!(match j.pause? i.toNat with | some e => decide (e.codeOffset = t.pc) | none => false)) || j.otherBarrier i.toNat then
        s.progTrap h t.pc 0x0A t.pc
      else (s.publish h).updThread h fun t => { t with st := .barrier i.toNat }) :=
  congrArg Host.Outcome.next (k.issue _)

/-- Settles O10. -/
theorem syncAndPauseTakeEffect : Obligations.SyncAndPauseTakeEffect := by
  unfold Obligations.SyncAndPauseTakeEffect
  simp only [List.forall_mem_cons]
  refine ⟨⟨?_, ?_, ?_, ?_, ?_⟩, ⟨?_, ?_, ?_, ?_, by simp⟩, ?_, ?_⟩
  · intro s h f j t k hl h1 h2 hn
    obtain ⟨cs, hj⟩ := State.job?_publish k.stands.job
    have hs : (s.publish h).signal h t.pc (t.reg f.ra).toNat (t.reg f.rb).toNat = (s.publish h).setCounter h.job (t.reg f.ra).toNat
        (BitVec.ofNat 32 ((j.sync.getD (t.reg f.ra).toNat 0).toNat + (t.reg f.rb).toNat)) := by
      simp only [State.signal, hj]
      exact if_neg (by omega)
    rw [exec_signal k hl h1 h2, hs, State.setCounter_goTo hj k.stands.untrapped k.follows]
  · intro s h f j t k hl
    refine congrArg Host.Outcome.next ((k.syncOp_of_lt hl _).trans ?_)
    rw [State.goTo_ok k.stands.job k.stands.untrapped k.follows]
    simp only [BitVec.ule, decide_eq_true_eq]
  · exact fun s h f j t k hl => congrArg Host.Outcome.next ((k.syncOp_of_lt hl _).trans
      (State.setCounter_goTo k.stands.job k.stands.untrapped k.follows _ _))
  · exact fun s h f j t k hl => congrArg Host.Outcome.next ((k.syncOp_of_lt hl _).trans (k.putsReg _ _))
  · intro s h i j t e k he hc hb
    rw [exec_pause k, he, hb]
    simp only [hc, decide_true, Bool.not_true, Bool.or_false, Bool.false_eq_true, if_false]
  · exact fun s h f j t k hl => congrArg Host.Outcome.next (k.syncOp_of_le hl _)
  · exact fun s h f j t k hl => congrArg Host.Outcome.next (k.syncOp_of_le hl _)
  · exact fun s h f j t k hl => congrArg Host.Outcome.next (k.syncOp_of_le hl _)
  · exact fun s h f j t k hl => congrArg Host.Outcome.next (k.syncOp_of_le hl _)
  · intro s h f j t k hl
    refine ⟨fun hb => congrArg Host.Outcome.next ((k.syncOp_of_lt hl _).trans (if_pos hb)), fun h1 h2 hn => ?_⟩
    obtain ⟨cs, hj⟩ := State.job?_publish k.stands.job
    have hs : (s.publish h).signal h t.pc (t.reg f.ra).toNat (t.reg f.rb).toNat =
        (s.publish h).progTrap h t.pc 0x09 (t.reg f.ra).toNat := by
      simp only [State.signal, hj]
      exact if_pos hn
    rw [exec_signal k hl h1 h2, hs, State.progTrap_goTo h rfl]
  · intro s h i j t k hb
    rw [exec_pause k, if_pos]
    rcases hb with hb | he
    · rw [hb, Bool.or_true]
    · cases hp : j.pause? i.toNat with
      | none => rfl
      | some e => simp [he e hp]

end Sys2Proof.Machine
end

section
/-! PROOF. Stream and engine instructions as threads issue them (R112 to R116, R134, R138 to R141). -/
namespace Sys2Proof.Machine

/-! ### Stream instructions (R134, R138, R139) -/

/-- Making a thread's stores visible changes the scheduler alone. -/
theorem State.publish_eq (h : Thr) (s : State) : ∃ q, s.publish h = { s with sched := q } := by
  unfold State.publish
  split
  · exact ⟨s.sched, rfl⟩
  · exact ⟨_, rfl⟩

/-- The checks of the stream instructions look at the objects, which the stores of a thread do not touch. -/
theorem State.xferCheck_publish (s : State) (h : Thr) (j : Job) (off : Nat) (d : StreamDesc) :
    (s.publish h).xferCheck j off d = s.xferCheck j off d := by
  obtain ⟨q, hq⟩ := s.publish_eq h
  rw [hq]
  rfl

theorem State.ldinCheck_publish (s : State) (h : Thr) (j : Job) (off : Nat) (d : StreamDesc) :
    (s.publish h).ldinCheck j off d = s.ldinCheck j off d := by
  obtain ⟨q, hq⟩ := s.publish_eq h
  rw [hq]
  rfl

theorem State.wstrCheck_publish (s : State) (h : Thr) (j : Job) (off : Nat) (d : StreamDesc) :
    (s.publish h).wstrCheck j off d = s.wstrCheck j off d := by
  obtain ⟨q, hq⟩ := s.publish_eq h
  rw [hq]
  rfl

/-- A descriptor in its place whose checks pass is set up, and the thread goes on. -/
theorem Issues.streamOp {s : State} {h : Thr} {fn : Nat} {f : SForm} {j : Job} {t : Thread}
    (k : Issues s h (sWord 0x28 fn f) f.gp f.gn j t) (ha : (t.reg f.ra).toNat % 64 = 0)
    (hb : (t.reg f.ra).toNat + 64 ≤ storeSize) {b : Bytes}
    (hm : b = memRead ((s.publish h).store (j.phys h.cluster)) (t.reg f.ra).toNat 64)
    (hc : j.descCommon fn (t.reg f.ra).toNat b (decodeDesc b) = none)
    {check : Job → Nat → StreamDesc → IssueTrap} (hk : check j (t.reg f.ra).toNat (decodeDesc b) = none)
    (run : Job → Thread → StreamDesc → State → State) :
    s.streamOp fn h f check run = (run j t (decodeDesc b) (s.publish h)).goTo h (t.pc + 4) := by
  subst hm
  rw [State.streamOp, k.issueIf]
  simp only [descAt, needs, ha, hb, hc, hk, orElse, State.trapOr, decide_true, Bool.and_self, if_true]

/-- A job changes in something other than its code and its trap after a thread's stores have become visible, and the thread goes on. -/
theorem Issues.updJob_goTo {s : State} {h : Thr} {w : Nat} {gp : BitVec 3} {gn : BitVec 1} {j : Job} {t : Thread}
    (k : Issues s h w gp gn j t) {g : Job → Job} (hid : ∀ j, (g j).id = j.id) (ht : ∀ j, (g j).trapped = j.trapped)
    (hi : ∀ j, (g j).image = j.image) :
    ((s.publish h).updJob h.job g).goTo h (t.pc + 4) = ((s.publish h).updJob h.job g).goesTo h (t.pc + 4) := by
  obtain ⟨cs, hj⟩ := State.job?_publish k.stands.job
  refine State.updJob_goTo hj hid ((ht _).trans k.stands.untrapped) ?_
  have hcode : (g { j with clusters := cs }).codeRegion = j.codeRegion := by
    simp only [Job.codeRegion, hi]
  simpa only [Job.pcOk, hcode] using k.follows

/-- Settles O11. -/
theorem streamInstructionsSetUp : Obligations.StreamInstructionsSetUp := by
  unfold Obligations.StreamInstructionsSetUp
  refine ⟨?_, ?_, ?_⟩
  · intro s h f j t k u off b d ha hb hc hx
    rw [State.xferCheck_publish] at hx
    exact congrArg Host.Outcome.next ((k.streamOp ha hb rfl hc hx _).trans
      (k.updJob_goTo (fun _ => rfl) (fun _ => rfl) fun _ => rfl))
  · intro s h f j t k u off b d ha hb hc hx
    rw [State.ldinCheck_publish] at hx
    exact congrArg Host.Outcome.next (k.streamOp ha hb rfl hc hx _)
  · intro s h f j t k u off b d ha hb hc hx
    rw [State.wstrCheck_publish] at hx
    exact congrArg Host.Outcome.next (k.streamOp ha hb rfl hc hx _)

/-! ### Engine instructions as issued (R134, R141) -/

/-- An engine instruction on an engine of the job. -/
theorem Issues.engineOp {s : State} {h : Thr} {fn : Nat} {f : SForm} {j : Job} {t : Thread} {g : Engine}
    (k : Issues s h (sWord 0x29 fn f) f.gp f.gn j t)
    (hg : s.engine? { job := h.job, cluster := h.cluster, engine := (t.reg f.ra).toNat % 4 } = some (j, g))
    (run : Job → Thread → Eng → Engine → Word → Word → Word → State → State) :
    s.engineOp fn h f run = run j t { job := h.job, cluster := h.cluster, engine := (t.reg f.ra).toNat % 4 } g
      (t.reg f.ra) (t.reg f.rb) (t.reg f.rc) (s.publish h) := by
  rw [State.engineOp, k.issueIf]
  simp only [hg]

/-! ### What an engine begins (R112 to R114, Table 4-4) -/

/-- A job with one of its engines changed. -/
def Job.withEngine (j : Job) (e : Eng) (f : Engine → Engine) : Job :=
  { j with clusters := updAt e.cluster (fun c => { c with engines := updAt e.engine f c.engines }) j.clusters }

theorem State.updEngine_eq (s : State) (e : Eng) (f : Engine → Engine) :
    s.updEngine e f = s.updJob e.job fun j => j.withEngine e f := rfl

theorem Job.engine?_withEngine {j : Job} {e : Eng} {g : Engine} (hg : j.engine? e.cluster e.engine = some g)
    (f : Engine → Engine) : (j.withEngine e f).engine? e.cluster e.engine = some (f g) := by
  simp only [Job.engine?, Job.withEngine] at hg ⊢
  cases hc : j.clusters[e.cluster]? with
  | none => simp [hc] at hg
  | some c =>
    simp only [hc] at hg
    simp [updAt, hc, hg]

/-- The engine of a job that is there. -/
theorem State.engine?_eq_some {s : State} {e : Eng} {j : Job} {g : Engine} :
    s.engine? e = some (j, g) ↔ s.job? e.job = some j ∧ j.engine? e.cluster e.engine = some g := by
  unfold State.engine?
  cases hj : s.job? e.job with
  | none => simp
  | some i =>
    cases hi : i.engine? e.cluster e.engine with
    | none =>
      simp only [hi, reduceCtorEq, Option.some.injEq, false_iff, not_and]
      rintro rfl
      simp [hi]
    | some k =>
      simp only [hi, Option.some.injEq, Prod.mk.injEq]
      constructor
      · rintro ⟨rfl, rfl⟩
        exact ⟨rfl, hi⟩
      · rintro ⟨rfl, hk⟩
        exact ⟨rfl, Option.some.inj (hi.symm.trans hk)⟩

/-- An engine that changes, and its job. -/
theorem State.engine?_updEngine {s : State} {e : Eng} {j : Job} {g : Engine} (h : s.engine? e = some (j, g))
    (f : Engine → Engine) : (s.updEngine e f).engine? e = some (j.withEngine e f, f g) := by
  obtain ⟨hj, hg⟩ := State.engine?_eq_some.mp h
  refine State.engine?_eq_some.mpr ⟨?_, Job.engine?_withEngine hg f⟩
  rw [State.updEngine_eq, State.job?_updJob s e.job (fun j => j.withEngine e f) fun _ => rfl, hj]
  rfl

/-- Writing a tile, read back; the other tile stays. -/
theorem Engine.tile_setTile_same (g : Engine) (i : Nat) (v : Tile) : (g.setTile i v).tile i = v := by
  unfold Engine.setTile Engine.tile
  split <;> rfl

theorem Engine.tile_setTile_other (g : Engine) {i : Nat} (hi : i < 2) (v : Tile) :
    (g.setTile i v).tile (1 - i) = g.tile (1 - i) := by
  unfold Engine.setTile Engine.tile
  by_cases h : i = 0
  · subst h; rfl
  · have : 1 - i = 0 := by omega
    simp only [h, this, if_true, if_false]

/-- Writing a tile leaves the halves and the operations alone. -/
theorem Engine.setTile_frame (g : Engine) (i : Nat) (v : Tile) :
    (g.setTile i v).half0 = g.half0 ∧ (g.setTile i v).half1 = g.half1 ∧ (g.setTile i v).ops = g.ops := by
  unfold Engine.setTile
  split <;> exact ⟨rfl, rfl, rfl⟩

/-- The tile of a beginning operation, by its kind (Table 4-4). -/
def EngOp.startTile (o : EngOp) (g : Engine) : Tile :=
  match o.kind with
  | .pass => { state := .accumulating, data := if o.cont then (g.tile o.tile).data else zeroTile }
  | .drain => { g.tile o.tile with state := .draining }
  | .accld => { g.tile o.tile with state := .loading }
  | .load => g.tile o.tile

/-- An operation as it stands once it has begun. -/
def EngOp.begun (o : EngOp) (g : Engine) : EngOp :=
  { o with started := true, groups := match g.resident? o.half with | some r => o.k / r.block | none => 0 }

/-- An engine whose operations are marked as begun, before its tile changes. -/
def Engine.marks (g : Engine) (o : EngOp) : Engine := { g with ops := updWhere (· = o) (fun _ => o.begun g) g.ops }

/-- What the beginning of an operation does: it is marked as begun, and the tile it names takes its new state. -/
theorem EngOp.begin_eq (o : EngOp) (g : Engine) :
    o.begin_ g = if o.kind = .load then g.marks o else (g.marks o).setTile o.tile (o.startTile g) := by
  have hf : (fun x => if decide (x = o) = true then ({ x with started := true, groups := (o.begun g).groups } : EngOp) else x) =
      fun x => if decide (x = o) = true then o.begun g else x := by
    funext x
    by_cases h : x = o
    · simp only [h, decide_true, if_true]
      rfl
    · simp only [h, decide_false, Bool.false_eq_true, if_false]
  have hm : ({ g with ops := updWhere (· = o) (fun x => { x with started := true, groups := (o.begun g).groups }) g.ops } : Engine) =
      g.marks o := by
    simp only [Engine.marks, updWhere, hf]
  rw [← hm]
  unfold EngOp.begin_ EngOp.startTile
  cases o.kind <;> simp only [reduceCtorEq, if_false, if_true] <;> rfl

/-- What the beginning of an engine's only operation leaves: the operation begun, and its tile in its new state. -/
theorem EngOp.begin_only (o : EngOp) {g : Engine} (ho : g.ops = [o]) :
    (o.begin_ g).ops = [o.begun g] ∧ (o.begin_ g).half0 = g.half0 ∧ (o.begin_ g).half1 = g.half1 ∧
      (o.begin_ g).tile o.tile = o.startTile g ∧ (o.tile < 2 → (o.begin_ g).tile (1 - o.tile) = g.tile (1 - o.tile)) := by
  have hm : (g.marks o).ops = [o.begun g] := by simp [Engine.marks, updWhere, ho]
  obtain ⟨h0, h1, hops⟩ := (g.marks o).setTile_frame o.tile (o.startTile g)
  rw [EngOp.begin_eq]
  split
  next hk => exact ⟨hm, rfl, rfl, by simp only [EngOp.startTile, hk]; rfl, fun _ => rfl⟩
  next => exact ⟨hops.trans hm, h0, h1, Engine.tile_setTile_same _ _ _, fun hi => Engine.tile_setTile_other _ hi _⟩

/-- The first operation of an idle engine. -/
def EngOp.first (o : EngOp) : EngOp := { o with seq := 0 }

/-- An operation added to an idle engine is its only one. -/
theorem Engine.addOp_of_idle {g : Engine} (hg : g.ops = []) (o : EngOp) : g.addOp o = { g with ops := [o.first] } := by
  simp only [Engine.addOp, hg, List.nil_append, List.getLast?_nil, EngOp.first]

/-- Whether a pass breaks its rules does not depend on the operations in its engine's list. -/
theorem Job.passBad_addOp {j : Job} {e : Eng} {g : Engine} (hg : j.engine? e.cluster e.engine = some g) (o : EngOp) :
    (j.withEngine e fun g => g.addOp o).passBad e.cluster e.engine (g.addOp o) o.first = j.passBad e.cluster e.engine g o := by
  have hstream : ∀ i, (j.withEngine e fun g => g.addOp o).streamFor? i e.cluster e.engine = j.streamFor? i e.cluster e.engine := by
    intro i
    simp only [Job.streamFor?, Job.engine?_withEngine hg, hg]
    rfl
  simp only [Job.passBad, hstream]
  rfl

/-- One turn of the engine: the operation that can begin does. -/
theorem State.pumpEngine_succ_of_next {s : State} {e : Eng} {j : Job} {g : Engine} {o : EngOp} (n : Nat) (h : s.engine? e = some (j, g))
    (ht : j.trapped = false) (hend : j.ending = none) (hn : nextToStart [] g.ops = some o) (hb : o.tileBad g = false)
    (hp : o.kind = .pass → j.passBad e.cluster e.engine g o = false) :
    s.pumpEngine e (n + 1) = (s.updEngine e fun g => o.begin_ g).pumpEngine e n := by
  have hbad : (o.tileBad g || (decide (o.kind = .pass) && j.passBad e.cluster e.engine g o)) = false := by
    rw [hb, Bool.false_or, Bool.and_eq_false_imp]
    exact fun hk => hp (of_decide_eq_true hk)
  rw [State.pumpEngine]
  simp only [h, ht, hend, hn, hbad, Option.isSome_none, Bool.or_self, Bool.false_eq_true, if_false]

/-- With nothing that can begin, the engine stays as it is. -/
theorem State.pumpEngine_of_next_none {s : State} {e : Eng} {j : Job} {g : Engine} (n : Nat) (h : s.engine? e = some (j, g))
    (hn : nextToStart [] g.ops = none) : s.pumpEngine e n = s := by
  cases n with
  | zero => rfl
  | succ n =>
    rw [State.pumpEngine]
    simp only [h, hn, ite_self]

/-- An idle engine begins the operation put on it, where its tile and, of a pass, its operands are as they must be. -/
theorem State.queueEngOp_of_idle {s : State} {e : Eng} {j : Job} {g : Engine} {o : EngOp} (h : s.engine? e = some (j, g))
    (hops : g.ops = []) (ho : o.started = false) (ht : j.trapped = false) (hend : j.ending = none) (hb : o.tileBad g = false)
    (hp : o.kind = .pass → j.passBad e.cluster e.engine g o = false) :
    s.queueEngOp e o = (s.updEngine e fun g => g.addOp o).updEngine e fun g => o.first.begin_ g := by
  obtain ⟨-, hg⟩ := State.engine?_eq_some.mp h
  have hadd : (g.addOp o).ops = [o.first] := by rw [Engine.addOp_of_idle hops]
  have h1 := State.engine?_updEngine h fun g => g.addOp o
  have h2 := State.engine?_updEngine h1 fun g => o.first.begin_ g
  have hn1 : nextToStart [] (g.addOp o).ops = some o.first := by
    rw [hadd]
    simp [nextToStart, EngOp.first, ho]
  have hn2 : nextToStart [] (o.first.begin_ (g.addOp o)).ops = none := by
    obtain ⟨hops', -⟩ := o.first.begin_only hadd
    rw [hops']
    rfl
  have hstart : s.queueEngOp e o = (s.updEngine e fun g => g.addOp o).pumpEngine e ((g.addOp o).ops.length + 1) := by
    simp only [State.queueEngOp, State.startOps, h1]
  rw [hstart, State.pumpEngine_succ_of_next _ h1 ht hend hn1 hb fun hk => (Job.passBad_addOp hg o).trans (hp hk),
    State.pumpEngine_of_next_none _ h2 hn2]

/-- An instruction whose check passes goes on. -/
theorem State.trapOr_of_none {c : IssueTrap} (hc : c = none) (s f : State) (h : Thr) (pc : Nat) : s.trapOr h pc c f = f := by
  rw [hc]
  rfl

/-- Settles O12. -/
theorem engineInstructionsTakeEffect : Obligations.EngineInstructionsTakeEffect := by
  unfold Obligations.EngineInstructionsTakeEffect
  refine ⟨?_, ?_⟩
  · intro s h f j t g
    dsimp only
    intro hg
    refine ⟨fun k => ⟨fun hf => ?_, fun hf hc => ?_⟩, fun k hc => ?_, fun k hc => ?_, fun k => ⟨fun hs => ?_, fun hs => ?_⟩⟩ <;>
      refine congrArg Host.Outcome.next ((k.engineOp hg _).trans ?_)
    · exact if_pos hf
    · exact (if_neg (by rw [hf]; decide)).trans (State.trapOr_of_none hc _ _ _ _)
    · exact State.trapOr_of_none hc _ _ _ _
    · exact State.trapOr_of_none hc _ _ _ _
    · refine (if_neg ?_).trans (k.updJob_goTo (fun _ => rfl) (fun _ => rfl) fun _ => rfl)
      rcases hs with hs | hs <;> simp [hs]
    · exact if_pos (by simp [hs])
  · intro s e j g o h hops ho ht hend htile hb hp
    rw [State.queueEngOp_of_idle h hops ho ht hend hb hp,
      State.engine?_updEngine (State.engine?_updEngine h fun g => g.addOp o) fun g => o.first.begin_ g]
    obtain ⟨hqs, h0, h1, hsame, hother⟩ := o.first.begin_only (g := g.addOp o) (by rw [Engine.addOp_of_idle hops])
    refine ⟨_, _, rfl, by rw [hqs]; rfl, ?_, h0, h1, hother htile, hsame⟩
    rw [hqs]
    intro p hp
    rw [List.mem_singleton.mp hp]
    exact ⟨rfl, rfl⟩

end Sys2Proof.Machine
end

section
/-! PROOF. Stores of a thread (R133, R137, R145): what they do, and why the statement about them fails in a state that lists two jobs
under one number. -/
namespace Sys2Proof.Machine

/-- A store at an aligned offset inside the cluster store, outside the code region and the protected range, joins the thread's own
stores, and the thread goes on. -/
theorem AtWord.storeI {s : State} {h : Thr} {major n : Nat} {f : IForm} {j : Job} {t : Thread} (k : AtWord s h (iWord major f) j t)
    (hp : j.pcOk (t.pc + 4) = true) (ha : t.address f % n = 0) (hb : t.address f + n ≤ storeSize)
    (hc : j.meetsCode (t.address f) n = false) (hl : j.meetsLive (t.address f) n = false) :
    s.storeI major n h f = s.updThread h fun u =>
      { u with stores := u.stores ++ [(t.address f, t.storeBytes f.rd n)], pc := t.pc + 4 } := by
  rw [State.storeI, k.issue]
  simp only [ha, hc, hl, Nat.not_lt.mpr hb, ne_eq, not_true_eq_false, decide_false, Bool.or_self, Bool.false_eq_true, if_false]
  exact State.updThread_goTo k.job k.untrapped hp _

namespace TwoJobs

/-- An image with two instruction words of code at store offset 64. -/
def image : Image :=
  { threads := 1, minClusters := 1, maxClusters := 1, syncBlocks := 0, slots := 0, paramLen := 0, paramBase := 0, resultBytes := 0
    scratchBytes := 0, entry := 0, spanBt := 1, code := zeroBytes 8, codeAux := 64, const := [], constAux := 0, convs := []
    pauses := [], plan := [], measurement := [], sections := [], saveBytes := 0 }

/-- A ready thread whose s1 holds `v`. -/
def thread (v : Word) : Thread := { regs := 0 :: v :: List.replicate 62 0, st := .ready }

/-- A running job 1 on physical cluster 0, with one such thread. -/
def job (v : Word) : Job :=
  { id := 1, slot := 0, kind := .run, client := 0, order := 0, need := 1, state := .running, image := some image
    clusters := [{ phys := 0, threads := [thread v] }] }

/-- The thread that stores, and its instruction: STB of s2 at offset 128. -/
def thr : Thr := { job := 1, cluster := 0, thread := 0 }

def form : IForm := { rd := 2, rs1 := 0, imm := 128 }

/-- Two jobs under one number, whose threads differ in s1; the instruction stands at the code region. -/
def state : State :=
  { State.reset with
    power := { State.reset.power with state := .active, phase := .service }
    sched := { State.reset.sched with
      jobs := [job 0, job 5], stores := [memWrite [] 64 (leBytes 4 (iWord 0x14 form))] } }

/-- s1 of the second job's thread. -/
def secondReg (s : State) : Option Word :=
  s.sched.jobs[1]?.bind fun j => j.clusters[0]?.bind fun c => c.threads[0]?.map fun t => t.reg 1

theorem atWord : AtWord state thr (iWord 0x14 form) (job 0) (thread 0) where
  job := by decide
  thread := ⟨{ phys := 0, threads := [thread 0] }, by decide, by decide, by decide⟩
  running := rfl
  going := rfl
  untrapped := rfl
  awake := by decide
  ready := rfl

/-- A change of the thread named by job number is a change of the second job's thread too. -/
theorem secondReg_updThread (g : Thread → Thread) : secondReg (state.updThread thr g) = some ((g (thread 5)).reg 1) := rfl

end TwoJobs

open TwoJobs in
/-- Refutes O5: where two jobs bear one number, a store of the first one's thread joins the stores of both threads, each with its own
registers, while the statement has both threads become the first one's. -/
theorem not_loadsAndStoresMoveTheirBytes : ¬ Obligations.LoadsAndStoresMoveTheirBytes := by
  unfold Obligations.LoadsAndStoresMoveTheirBytes
  rintro ⟨-, hstores, -⟩
  obtain ⟨s', u, hexec, hs', hu, -⟩ := hstores (Instr.stb, 0x14, 1, fun t rd => leBytes 1 (t.reg rd).toNat) List.mem_cons_self
    state thr form (job 0) (thread 0) atWord (by decide) (by decide) (by decide) (by decide) (by decide)
  have hmodel : exec (.stb thr form) state = .next (state.storeI 0x14 1 thr form) := rfl
  rw [atWord.storeI (by decide) (by decide) (by decide) (by decide) (by decide)] at hmodel
  have hstate := hs'.symm.trans (Host.Outcome.next.inj (hexec.symm.trans hmodel))
  have hreg := congrArg secondReg hstate
  rw [secondReg_updThread, secondReg_updThread, hu] at hreg
  exact absurd hreg (by decide)

end Sys2Proof.Machine
end

section
/-! PROOF. Results of FP32 and packed BF16 operations are finite, and exceptional inputs give the results the rule lists (R76 to R78,
R92, R135). -/
namespace Sys2Proof.Machine

/-! ### Codes with a sign -/

/-- An FP32 magnitude code at most the largest finite one, with either sign, fits 32 bits and is no NaN. -/
theorem not_isNanF32_withSign {c : Nat} (neg : Bool) (hc : c ≤ 0x7F7FFFFF) :
    withSign 32 neg c < 2 ^ 32 ∧ isNanF32 (withSign 32 neg c) = false := by
  unfold withSign isNanF32
  split <;> exact ⟨by omega, decide_eq_false (by omega)⟩

/-- The same of BF16. -/
theorem not_isNanBf16_withSign {c : Nat} (neg : Bool) (hc : c ≤ 0x7F7F) :
    withSign 16 neg c < 2 ^ 16 ∧ isNanBf16 (withSign 16 neg c) = false := by
  unfold withSign isNanBf16
  split <;> exact ⟨by omega, decide_eq_false (by omega)⟩

/-- Such a code in a register. -/
theorem not_isNanF32_ofNat {c : Nat} (neg : Bool) (hc : c ≤ 0x7F7FFFFF) :
    isNanF32 (BitVec.ofNat 32 (withSign 32 neg c)).toNat = false := by
  obtain ⟨hlt, hn⟩ := not_isNanF32_withSign neg hc
  rw [BitVec.toNat_ofNat, Nat.mod_eq_of_lt hlt, hn]

/-! ### Rounded results -/

/-- A result rounded once is finite. -/
theorem not_isNanF32_outF32 (v : Frac) (nan : Bool) : isNanF32 (outF32 v nan).val.toNat = false :=
  not_isNanF32_ofNat _ (Nat.min_le_right _ _)

/-- A lane rounded once is finite and fits 16 bits. -/
theorem not_isNanBf16_outBf16 (v : Frac) : (outBf16 v).1 < 2 ^ 16 ∧ isNanBf16 (outBf16 v).1 = false :=
  not_isNanBf16_withSign _ (Nat.min_le_right _ _)

theorem not_isNanF32_maxF32 (neg nan : Bool) : isNanF32 (maxF32 neg nan).val.toNat = false := by
  cases neg
  · exact (by decide : isNanF32 (0x7F7FFFFF : Word).toNat = false)
  · exact (by decide : isNanF32 (0xFF7FFFFF : Word).toNat = false)

/-- A result within two units in the last place is finite. -/
theorem not_isNanF32_nearF32 (fn : Nat) (x : Word) (v : Frac) (nan : Bool) : isNanF32 (nearF32 fn x v nan).val.toNat = false := by
  unfold nearF32
  extract_lets r m o o' c code
  split
  · exact not_isNanF32_maxF32 _ _
  · refine not_isNanF32_ofNat _ ?_
    simp only [code]
    split
    · exact Nat.zero_le _
    · split
      · exact Nat.le_refl _
      · omega

/-- The two lanes of a packed result are the two rounded values. -/
theorem lane_packLanes (lo hi : Frac) (nan : Bool) :
    lane (packLanes lo hi nan).val 0 = (outBf16 lo).1 ∧ lane (packLanes lo hi nan).val 1 = (outBf16 hi).1 := by
  obtain ⟨ha, -⟩ := not_isNanBf16_outBf16 lo
  obtain ⟨hb, -⟩ := not_isNanBf16_outBf16 hi
  simp only [packLanes, lane, BitVec.toNat_ofNat]
  constructor <;> omega

/-- Both lanes of a packed result are finite. -/
theorem not_isNanBf16_packLanes (lo hi : Frac) (nan : Bool) {i : Nat} (hi2 : i < 2) :
    isNanBf16 (lane (packLanes lo hi nan).val i) = false := by
  obtain ⟨h0, h1⟩ := lane_packLanes lo hi nan
  obtain rfl | rfl : i = 0 ∨ i = 1 := by omega
  · rw [h0]; exact (not_isNanBf16_outBf16 lo).2
  · rw [h1]; exact (not_isNanBf16_outBf16 hi).2

/-! ### Exceptional inputs -/

/-- A NaN reads as zero. -/
theorem f32_isZero_of_isNan {x : Word} (h : isNanF32 x.toNat = true) : (srcF32 x).1.isZero = true := by
  simp only [srcF32, f32, valF32, h, if_true]
  rfl

/-- An operation on two sources sets NAN_SEEN where the first is NaN. -/
theorem nan_f32Op2 (op : Frac → Frac → Frac) {x : Word} (y : Word) (h : isNanF32 x.toNat = true) :
    (f32Op2 op x y).nan = true := by
  simp only [f32Op2, outF32, srcF32, h, Bool.true_or]

/-- An operation on one source sets NAN_SEEN where it is NaN. -/
theorem nan_f32Op1 (op : Frac → Frac) {x : Word} (h : isNanF32 x.toNat = true) : (f32Op1 op x).nan = true := h

/-- Powers of two are positive. -/
theorem Frac.pow2_num_pos (e : Int) : 0 < (Frac.pow2 e).num := by
  unfold Frac.pow2
  split
  · exact Int.pow_pos (by decide)
  · exact Int.one_pos

/-- The magnitude bits of a code, before its sign. -/
theorem floatValue_num (c : Nat) : ∃ p : Int, 0 < p ∧ (floatValue 8 23 127 c).num =
    (if c / 2 ^ 31 % 2 = 1 then -1 else 1) * (((if c / 2 ^ 23 % 2 ^ 8 = 0 then c % 2 ^ 23 else 2 ^ 23 + c % 2 ^ 23 : Nat) : Int) * p) := by
  unfold floatValue
  extract_lets m e s v
  have hv : ∃ p : Int, 0 < p ∧ v.num = ((if e = 0 then m else 2 ^ 23 + m : Nat) : Int) * p := by
    simp only [v]
    split
    · exact ⟨_, Frac.pow2_num_pos _, rfl⟩
    · exact ⟨_, Frac.pow2_num_pos _, rfl⟩
  obtain ⟨p, hp, hvp⟩ := hv
  refine ⟨p, hp, ?_⟩
  rw [← hvp]
  by_cases hs : s = 1
  · rw [if_pos hs, if_pos hs]
    simp [Frac.neg]
  · rw [if_neg hs, if_neg hs, Int.one_mul]

/-- A zero of either sign reads as zero and is no NaN. -/
theorem srcF32_of_zero {x : Word} (h : x.toNat % 2 ^ 31 = 0) : (srcF32 x).1.isZero = true ∧ (srcF32 x).2 = false := by
  have hn : isNanF32 x.toNat = false := decide_eq_false (by omega)
  obtain ⟨p, -, hv⟩ := floatValue_num x.toNat
  refine ⟨?_, hn⟩
  have he : x.toNat / 2 ^ 23 % 2 ^ 8 = 0 := by omega
  have hm : x.toNat % 2 ^ 23 = 0 := by omega
  simp only [srcF32, f32, valF32, hn, Bool.false_eq_true, if_false, Option.getD_some, Frac.isZero, hv, he, hm, if_true]
  simp

/-- A code of negative sign that is no NaN and no zero reads as a negative number. -/
theorem srcF32_of_negative {x : Word} (h : 2 ^ 31 < x.toNat) (hn : isNanF32 x.toNat = false) : (srcF32 x).1.num < 0 := by
  have hx := x.isLt
  obtain ⟨p, hp, hv⟩ := floatValue_num x.toNat
  have hs : x.toNat / 2 ^ 31 % 2 = 1 := by omega
  have hmag : 0 < (if x.toNat / 2 ^ 23 % 2 ^ 8 = 0 then x.toNat % 2 ^ 23 else 2 ^ 23 + x.toNat % 2 ^ 23 : Nat) := by
    split <;> omega
  simp only [srcF32, f32, valF32, hn, Bool.false_eq_true, if_false, Option.getD_some]
  rw [hv, if_pos hs]
  have := Int.mul_pos (Int.natCast_pos.mpr hmag) hp
  omega

/-- A negative number is not zero. -/
theorem Frac.isZero_of_neg {v : Frac} (h : v.num < 0) : v.isZero = false := decide_eq_false (by omega)

/-! ### The operations -/

/-- Every FP32 operation but FCVT.W.S leaves a finite result. -/
theorem not_isNanF32_fpOp {fn : Nat} (o x y : Word) (hfn : fn ≤ 13) (h9 : fn ≠ 9) : isNanF32 (fpOp fn o x y).val.toNat = false := by
  match fn, hfn, h9 with
  | 0, _, _ | 1, _, _ | 2, _, _ | 3, _, _ | 4, _, _ | 5, _, _ | 6, _, _ | 7, _, _ | 8, _, _ => exact not_isNanF32_outF32 _ _
  | 10, _, _ =>
    simp only [fpOp, exp2Op]
    split
    · exact (by decide : isNanF32 (0x3F800000 : Word).toNat = false)
    · exact not_isNanF32_nearF32 _ _ _ _
  | 11, _, _ =>
    simp only [fpOp, log2Op]
    split
    · exact not_isNanF32_maxF32 _ _
    · split
      · decide
      · exact not_isNanF32_nearF32 _ _ _ _
  | 12, _, _ =>
    simp only [fpOp, rcpOp]
    split
    · exact not_isNanF32_maxF32 _ _
    · exact not_isNanF32_nearF32 _ _ _ _
  | 13, _, _ =>
    simp only [fpOp, rsqOp]
    split
    · exact not_isNanF32_maxF32 _ _
    · split
      · decide
      · exact not_isNanF32_nearF32 _ _ _ _

/-- Every packed BF16 operation leaves finite lanes. -/
theorem not_isNanBf16_bfOp {fn i : Nat} (o x y : Word) (hfn : fn ≤ 4) (hi : i < 2) :
    isNanBf16 (lane (bfOp fn o x y).val i) = false := by
  match fn, hfn with
  | 0, _ | 1, _ | 2, _ | 3, _ | 4, _ => exact not_isNanBf16_packLanes _ _ _ hi

/-- Every FP32 operation that reads a NaN as its first source sets NAN_SEEN. -/
theorem nan_fpOp {fn : Nat} (o y : Word) {x : Word} (hfn : fn ≤ 13) (h8 : fn ≠ 8) (h : isNanF32 x.toNat = true) :
    (fpOp fn o x y).nan = true := by
  have hz := f32_isZero_of_isNan h
  have hs : (srcF32 x).2 = true := h
  match fn, hfn, h8 with
  | 0, _, _ | 1, _, _ | 2, _, _ | 4, _, _ | 5, _, _ => exact nan_f32Op2 _ _ h
  | 3, _, _ => simp only [fpOp, fmaOp, outF32, hs, Bool.or_true, Bool.true_or]
  | 6, _, _ | 7, _, _ => exact nan_f32Op1 _ h
  | 9, _, _ => exact h
  | 10, _, _ => simp only [fpOp, exp2Op, hz, if_true, hs]
  | 11, _, _ => simp only [fpOp, log2Op, hz, if_true, hs, maxF32]
  | 12, _, _ => simp only [fpOp, rcpOp, hz, if_true, hs, maxF32]
  | 13, _, _ => simp only [fpOp, rsqOp, hz, if_true, hs, maxF32]

/-- Settles O3. -/
theorem floatResultsAreFinite : Obligations.FloatResultsAreFinite := by
  unfold Obligations.FloatResultsAreFinite
  refine ⟨fun fn o x y hfn h9 => not_isNanF32_fpOp o x y hfn h9, fun fn i o x y hfn hi => not_isNanBf16_bfOp o x y hfn hi, ?_,
    fun fn o x y hfn h8 h => nan_fpOp o y hfn h8 h, ?_, ?_⟩
  · rintro fn o x y (rfl | rfl) <;> exact not_isNanF32_outF32 _ _
  · intro o x y h
    obtain ⟨hz, hn⟩ := srcF32_of_zero h
    simp only [fpOp, log2Op, rcpOp, rsqOp, hz, hn, maxF32, if_true, Bool.false_eq_true, if_false, and_self]
  · intro o x y h hn
    have hneg := srcF32_of_negative h hn
    simp only [fpOp, log2Op, rsqOp, Frac.isZero_of_neg hneg, hneg, Bool.false_eq_true, if_false, if_true, and_self]

end Sys2Proof.Machine
end

section
/-! PROOF. The ends of engine operations, of transfers and of streams, and stream-alignment faults (R90, R103, R104, R110 to R116, R120,
R128, R138, R139, R209). -/
namespace Sys2Proof.Machine

/-! ### Ends of engine operations (R110 to R116, R128) -/

/-- PASS_END of the pass whose steps have all issued. -/
theorem exec_passEnd {s : State} {e : Eng} {j : Job} {g : Engine} {o : EngOp} (h : s.engine? e = some (j, g))
    (ho : g.ops.find? (fun o => o.kind = .pass && o.stepsDone) = some o) :
    exec (.passEnd e) s = .next
      ((((s.updEngine e fun _ => (g.foldPending.1.setTile o.tile { g.foldPending.1.tile o.tile with state := .full }).dropOp o).updJob
        e.job fun k => { k with accSat := k.accSat || g.foldPending.2 }).signalEnd (o.thr e) o.pc o.sig o.sync).startOps e) := by
  refine congrArg Host.Outcome.next ?_
  simp only [h, ho]

/-- The group of a staged block that fails the checks of R103. -/
theorem State.issueStaged_of_misaligned {s : State} {e : Eng} {o : EngOp} {r : Resident} {t : Stream} {spec : OperandSpec} {k : Engine}
    {x : Staged} (hk : (s.engine? e).map Prod.snd = some k) (hx : k.stagedOf? t = some x)
    (ha : groupAligned r t.desc spec x.block (o.k0 / r.block + o.group) x.idx = false) :
    s.issueStaged e o r t spec = s.alignFault e.job e.cluster := by
  obtain ⟨⟨j, g⟩, he, rfl⟩ := Option.map_eq_some_iff.mp hk
  simp only [State.issueStaged, he, hx, ha, Bool.not_false, if_true]

/-- The group of a staged block that passes them. -/
theorem State.issueStaged_of_aligned {s : State} {e : Eng} {o : EngOp} {r : Resident} {t : Stream} {spec : OperandSpec} {k : Engine}
    {x : Staged} (hk : (s.engine? e).map Prod.snd = some k) (hx : k.stagedOf? t = some x)
    (ha : groupAligned r t.desc spec x.block (o.k0 / r.block + o.group) x.idx = true) (hp : pairOk r spec = true) :
    s.issueStaged e o r t spec = ((s.updEngine e fun _ => (k.issueGroup o r spec x).1).updJob e.job fun j =>
      ({ j with
        nan := j.nan || (k.issueGroup o r spec x).2.1, accSat := j.accSat || (k.issueGroup o r spec x).2.2 } : Job).tidyStreams).startOps e := by
  obtain ⟨⟨j, g⟩, he, rfl⟩ := Option.map_eq_some_iff.mp hk
  simp only [State.issueStaged, he, hx, ha, hp, Bool.not_true, Bool.false_eq_true, if_false]

/-- The operation found on a tile names that tile. -/
theorem EngOp.tile_of_find {l : List EngOp} {p : EngOp → Bool} {tile : Nat} {o : EngOp}
    (h : l.find? (fun o => p o && decide (o.tile = tile)) = some o) : o.tile = tile :=
  of_decide_eq_true (Bool.and_eq_true_iff.mp (List.find?_some h :)).2

/-- GROUP_STAGED for a running pass: its block is there already, or is delivered now. -/
theorem exec_groupStaged_of_running {s u : State} {e : Eng} {j : Job} {g : Engine} {o : EngOp} {r : Resident} {t : Stream}
    {spec : OperandSpec} (h : s.engine? e = some (j, g)) (ho : g.running? = some o) (hr : g.resident? o.half = some r)
    (ht : j.streamFor? o.stream e.cluster e.engine = some t) (hs : j.operand? t.desc = some spec)
    (hu : ((g.stagedOf? t).isSome = true ∧ u = s) ∨ (g.stagedOf? t = none ∧ s.deliver e.job t = some u)) :
    exec (.groupStaged e) s = .next (u.issueStaged e o r t spec) := by
  refine congrArg Host.Outcome.next ?_
  simp only [h, ho, hr, ht, hs]
  rcases hu with ⟨hg, rfl⟩ | ⟨hg, hd⟩
  · rw [if_pos hg]
  · simp only [hg, hd, Option.isSome_none, Bool.false_eq_true, if_false]

/-- What an input load of job `j` puts into its halves, with the summary and the NaN flag after it; none where a group fails the
checks of R103. -/
def State.loaded? (s : State) (j : Job) (e : Eng) (o : EngOp) (d : StreamDesc) (spec : OperandSpec) : Option (Resident × Glint × Bool) :=
  let rd := s.srcRead j e.cluster d
  let gl := match j.clusters[e.cluster]? with | some c => c.glint.getD d.convrec {} | none => {}
  let wide := match spec.conv with | some r => j.isWide r | none => false
  if d.layout = 2 then (blockResident rd d spec).map fun r => (r, gl, false)
  else some (laneResident rd d spec wide o.base gl)

/-- LOAD_END of the input load that has begun, with its descriptor and operand. -/
theorem exec_loadEnd {s : State} {e : Eng} {j : Job} {g : Engine} {o : EngOp} {d : StreamDesc} {spec : OperandSpec}
    (h : s.engine? e = some (j, g)) (hh : s.haltedBy (.job e.job) = false)
    (ho : g.ops.find? (fun o => o.kind = .load && o.started) = some o) (hd : o.desc = some d) (hs : j.operand? d = some spec) :
    exec (.loadEnd e) s = .next (
      let u := s.touchSource j d (d.ranges spec d.length)
      match s.loaded? j e o d spec with
      | none => (u.updEngine e fun g => g.dropOp o).alignFault e.job e.cluster
      | some r =>
        let t := u.updEngine e fun g => (g.putHalf o.half r.1).dropOp o
        let t := if d.conv then
            t.updCluster e.job e.cluster fun c => { c with glint := c.glint.set d.convrec r.2.1 } else t
        ((t.updJob e.job fun j => { j with nan := j.nan || r.2.2 }).signalEnd (o.thr e) o.pc o.sig o.sync).judgeLoaded e o.half) := by
  refine congrArg Host.Outcome.next ?_
  simp only [h, hh, Engine.load?, ho, hd, hs, Bool.false_eq_true, if_false]
  rfl

/-! ### Group sums (R90, R111) -/

/-- With no sums waiting, a fold does nothing. -/
theorem Engine.foldPending_of_none {g : Engine} (h : g.sums = none) : g.foldPending = (g, false) := by
  simp only [Engine.foldPending, h]

/-- The sums of a group wait in the bank, and the tile is as it was. -/
theorem Engine.issueGroup_of_sums_none {g : Engine} {r : Resident} (o : EngOp) (spec : OperandSpec) (x : Staged) (hf : r.fmt ≠ 9)
    (h : g.sums = none) : (g.issueGroup o r spec x).1 =
      { g with
        staging := g.staging.filter (· ≠ x), ops := updWhere (· = o) (fun o => { o with group := o.group + 1 }) g.ops
        sums := some (groupSums o.tile r spec x.block (o.k0 / r.block + o.group)).1 } := by
  simp only [Engine.issueGroup, hf, if_false]
  rw [Engine.foldPending_of_none (by exact h)]

/-- What the fold of waiting sums makes of their tile, and of the other. -/
theorem Engine.foldPending_of_some {g : Engine} {p : GroupSums} (h : g.sums = some p) :
    g.foldPending.1.sums = none ∧
      (g.foldPending.1.tile p.tile).data = ((g.tile p.tile).data.mapIdx fun i acc =>
        (foldScaled acc (p.sums.getD i Frac.zero) (p.rows.getD (i / 128) none) (p.cols.getD (i % 128) none)).1) ∧
      (p.tile < 2 → g.foldPending.1.tile (1 - p.tile) = g.tile (1 - p.tile)) := by
  have htile : ∀ (k : Engine) (i : Nat), ({ k with sums := none } : Engine).tile i = k.tile i := fun _ _ => rfl
  simp only [Engine.foldPending, h, htile, Engine.tile_setTile_same, true_and]
  exact ⟨List.ext_getElem (by simp) fun i _ _ => by simp, fun hp => Engine.tile_setTile_other _ hp _⟩

/-! ### Stream-alignment faults (R104, R130) -/

/-- A set-up that enters the tree is of a job with streams: a job without keeps its place and its state. -/
theorem find?_admitStream {l : List Job} {id : Nat} {j : Job} (h : l.find? (·.id = id) = some j) (hs : j.streams = []) :
    (admitStream l).find? (·.id = id) = some j := by
  induction l with
  | nil => exact h
  | cons k l ih =>
    simp only [admitStream]
    by_cases hk : k.id = id
    · rw [List.find?_cons_of_pos (by simpa using hk)] at h
      cases h
      rw [hs]
      exact List.find?_cons_of_pos (by simpa using hk)
    · rw [List.find?_cons_of_neg (by simpa using hk)] at h
      split
      · rw [List.find?_cons_of_neg (by simpa using hk)]
        exact h
      · rw [List.find?_cons_of_neg (by simpa using hk)]
        exact ih h

/-- Set-ups that enter the tree leave a job without streams as it is. -/
theorem State.job?_fillTree {s : State} {id : Nat} {j : Job} (h : s.job? id = some j) (hs : j.streams = []) :
    s.fillTree.job? id = some j := by
  suffices ∀ n (t : State), t.job? id = some j → (t.fillTreeN n).job? id = some j from this 64 s h
  intro n
  induction n with
  | zero => exact fun _ ht => ht
  | succ n ih =>
    intro t ht
    rw [State.fillTreeN]
    split
    · exact ih _ (find?_admitStream ht hs)
    · exact ht

/-- A job that is not ending yet ends with the status given. -/
theorem Job.ending_endWith {j : Job} (h : j.ending = none) (st : Status) : (j.endWith st).ending = some st := by
  simp only [Job.endWith, h]

/-- Stopping a job leaves its count of alignment faults alone. -/
theorem Job.alignFaults_endWith (st : Status) (j : Job) : (j.endWith st).alignFaults = j.alignFaults := by
  unfold Job.endWith
  split <;> rfl

/-- A second stream-alignment fault ends the job. -/
theorem State.alignFault_again {s : State} {id c : Nat} {j : Job} (hj : s.job? id = some j) (he : j.ending = none)
    (ha : j.alignFaults ≠ 0) :
    ∃ k, (s.alignFault id c).job? id = some k ∧ k.ending = some .streamAlignment ∧ k.streams = [] ∧
      k.result = (match j.save with | some v => v.result | none => []) ∧ k.alignFaults = j.alignFaults + 1 := by
  have h1 := State.job?_updJob s id (fun j => { j with alignFaults := j.alignFaults + 1 }) fun _ => rfl
  rw [hj, Option.map_some] at h1
  simp only [State.alignFault, hj, he, ha, Option.isSome_none, Bool.false_eq_true, if_false, ne_eq, not_false_eq_true, if_true,
    State.endStreams]
  refine ⟨_, State.job?_fillTree ((State.job?_updJob _ id (fun j => { j with streams := [] }) fun _ => rfl).trans
    (congrArg (Option.map _) ((State.job?_updJob _ id (fun j => ({ (j.endWith .streamAlignment) with
      result := match j.save with | some v => v.result | none => []
      xfers := j.xfers.filter fun x => !x.toResult } : Job)) fun k => Job.endWith_id _ k).trans
        (congrArg (Option.map _) ((State.job?_raise _ _ id).trans h1))))) rfl, ?_⟩
  exact ⟨Job.ending_endWith (j := { j with alignFaults := j.alignFaults + 1 }) he _, rfl, rfl, Job.alignFaults_endWith _ _⟩

/-- The first replays it. -/
theorem State.alignFault_first {s : State} {id : Nat} {j : Job} (c : Nat) (hj : s.job? id = some j) (he : j.ending = none)
    (ha : j.alignFaults = 0) : s.alignFault id c =
      (((s.updJob id fun k => { k with alignFaults := k.alignFaults + 1 }).raise
        { faultUnit 0x0C 1 .cluster (j.phys c) 0 with detail := j.client }).updJob id fun k =>
          { k with save := match k.rerun with | some v => some v | none => k.save }).replay id := by
  simp only [State.alignFault, hj, he, ha, Option.isSome_none, Bool.false_eq_true, if_false, ne_eq, not_true_eq_false] <;> rfl

/-- Settles O16. -/
theorem engineOperationsEnd : Obligations.EngineOperationsEnd := by
  unfold Obligations.EngineOperationsEnd
  refine ⟨fun s e j g o h => ⟨fun ho => exec_passEnd h ho, ?_, ?_, ?_, ?_, ?_, ?_⟩, ?_, fun s id c j hj he =>
    ⟨State.alignFault_first c hj he, State.alignFault_again hj he⟩⟩
  · intro tile ho
    refine congrArg Host.Outcome.next ?_
    have ht := EngOp.tile_of_find ho
    simp only [h, ho, ht] <;> rfl
  · intro tile hh ho
    refine congrArg Host.Outcome.next ?_
    have ht := EngOp.tile_of_find ho
    simp only [h, hh, ho, ht, Bool.false_eq_true, if_false] <;> rfl
  · intro d spec r hh ho hd hs
    dsimp only
    intro hr
    rw [exec_loadEnd h hh ho hd hs, show s.loaded? j e o d spec = some r from hr]
  · intro d spec hh ho hd hs hl hb
    rw [exec_loadEnd h hh ho hd hs]
    simp only [State.loaded?, hl, hb, if_true, Option.map_none]
  · intro t u hr ht hd
    refine congrArg Host.Outcome.next ?_
    simp only [h, hr, State.stageAhead, ht, hd, Option.getD_some]
  · intro r t spec u k x ho hr ht hs hu hk hx
    rw [exec_groupStaged_of_running h ho hr ht hs hu]
    exact ⟨fun ha => congrArg _ (State.issueStaged_of_misaligned hk hx ha),
      fun ha hp => congrArg _ (State.issueStaged_of_aligned hk hx ha hp)⟩
  · intro g o r spec x hf hs htile
    dsimp only
    have hk := Engine.issueGroup_of_sums_none o spec x hf hs
    have hsums : (g.issueGroup o r spec x).1.sums = some (groupSums o.tile r spec x.block (o.k0 / r.block + o.group)).1 := by rw [hk]
    have htiles : ∀ i, (g.issueGroup o r spec x).1.tile i = g.tile i := fun i => by rw [hk]; rfl
    obtain ⟨h0, hdata, hother⟩ := Engine.foldPending_of_some hsums
    rw [htiles] at hdata
    exact ⟨htiles _, (hother htile).trans (htiles _), h0, hdata⟩

/-! ### Ends of transfers and streams (R120, R128, R138, R139, R209) -/

/-- XFER_END of a transfer whose bytes are still to be copied. -/
theorem exec_xferEnd {s : State} {job id : Nat} {j : Job} {x : Xfer} (hj : s.job? job = some j) (hh : s.haltedBy (.job job) = false)
    (hx : j.xfers.find? (fun y => y.id = id) = some x) (hw : x.written = false) :
    exec (.xferEnd job id) s = .next (
      let d := x.desc
      let bs := s.srcRead j x.cluster d d.srcOffset d.length
      let t := s.touchSource j d [(d.srcOffset, d.length)]
      match d.dstSpace with
      | 0 => (t.updStore (j.phys x.cluster) fun m => memWrite m d.dstOffset bs).finishXfer job x
      | 2 => s.xferToObject j x bs
      | 3 => (t.updJob job fun j => { j with scratch := memWrite j.scratch d.dstOffset bs }).finishXfer job x
      | _ => (t.updJob job fun j => { j with result := memWrite j.result d.dstOffset bs }).finishXfer job x) := by
  refine congrArg Host.Outcome.next ?_
  simp only [hj, hh, hx, hw, Bool.false_eq_true, if_false] <;> rfl

/-- The copy into an object whose bytes are not admitted waits. -/
theorem State.xferToObject_of_full {s : State} {j : Job} {x : Xfer} {bs : Bytes} {b : Binding} {o : Obj}
    (hb : j.bindings[x.desc.dstSlot]? = some b) (ho : s.tiers.objects.find? (·.id = b.obj) = some o) (hd : o.durable = true)
    (ha : s.admitsDirty bs.length = false) : s.xferToObject j x bs = s := by
  simp only [State.xferToObject, hb, ho, hd, ha, Bool.not_false, Bool.and_self, if_true]

/-- The copy into an object whose bytes are admitted. -/
theorem State.xferToObject_of_admitted {s : State} {j : Job} {x : Xfer} {bs : Bytes} {b : Binding} {o : Obj}
    (hb : j.bindings[x.desc.dstSlot]? = some b) (ho : s.tiers.objects.find? (·.id = b.obj) = some o)
    (ha : o.durable = false ∨ s.admitsDirty bs.length = true) :
    s.xferToObject j x bs =
      let u := ((if o.durable then s.takeCredit bs.length else s).touchSource j x.desc [(x.desc.srcOffset, x.desc.length)]).writeVersion
        b.obj b.ver x.desc.dstOffset bs
      if u.writesThrough o || (o.durable && (j.xferPages x.desc).any u.unmirrored) then
        (u.startWriteback (j.xferPages x.desc)).updJob j.id fun k =>
          { k with xfers := updWhere (fun y => y.id = x.id) (fun y => { y with written := true }) k.xfers }
      else u.finishXfer j.id x := by
  have hguard : (o.durable && !s.admitsDirty bs.length) = false := by rcases ha with ha | ha <;> simp [ha]
  simp only [State.xferToObject, hb, ho, hguard, Bool.false_eq_true, if_false]

/-- Settles O17. -/
theorem transfersAndStreamsEnd : Obligations.TransfersAndStreamsEnd := by
  unfold Obligations.TransfersAndStreamsEnd
  refine ⟨fun s job id j x hj hh hx hw => ⟨fun hd => ?_, fun hd b o hb ho => ⟨fun hdur ha => ?_, fun ha => ?_⟩, fun hd => ?_, fun hd => ?_⟩,
    fun s job id j x hj hh hx hw hp hm => ?_, fun s job handle j x hj hh hx => ?_⟩
  · rw [exec_xferEnd hj hh hx hw]
    simp only [hd]
  · rw [exec_xferEnd hj hh hx hw]
    simp only [hd]
    rw [State.xferToObject_of_full hb ho hdur ha]
  · have hexec : exec (.xferEnd job id) s = .next (s.xferToObject j x (s.srcRead j x.cluster x.desc x.desc.srcOffset x.desc.length)) := by
      rw [exec_xferEnd hj hh hx hw]
      simp only [hd]
    rw [State.xferToObject_of_admitted hb ho ha] at hexec
    refine ⟨fun hn => hexec.trans (congrArg _ (if_neg ?_)), fun hy => hexec.trans (congrArg _ (if_pos ?_))⟩
    · simpa only [Bool.or_eq_true, Bool.and_eq_true, List.any_eq_true] using hn
    · simpa only [Bool.or_eq_true, Bool.and_eq_true, List.any_eq_true] using hy
  · rw [exec_xferEnd hj hh hx hw]
    simp only [hd]
  · rw [exec_xferEnd hj hh hx hw]
    simp only [hd]
  · refine congrArg Host.Outcome.next ?_
    have hany : ((s.xferMaps j x).any fun m => s.ftl.dirtyMaps.any (·.page = m)) = false := List.any_eq_false.mpr fun m hmem => by
      simpa using hm m hmem
    simp only [hj, hh, hx, hw, hp, hany, Bool.false_eq_true, if_false, if_true, List.isEmpty_nil, Bool.not_false, Bool.and_self]
  · refine congrArg Host.Outcome.next ?_
    simp only [hj, hh, hx, Bool.not_false, Bool.and_true]

end Sys2Proof.Machine
end

section
/-! PROOF. Pause points, placement moves, the start and end of jobs, slices and charges (R98 to R100, R131, R143, R144, R155, R160 to
R175, R201 to R205). -/
namespace Sys2Proof.Machine

/-! ### Pause points (R98 to R100, R143, R144) -/

/-- A register of a saved thread: as it is where the mask has it, else zero (R144). -/
theorem PauseEntry.reg_saveThread (e : PauseEntry) {t : Thread} (h : t.st ≠ .exited) (i : BitVec 6) :
    (e.saveThread t).reg i = if e.liveRegs.getLsbD i.toNat then t.reg i else 0 := by
  have hi : i.toNat < 64 := i.isLt
  simp only [PauseEntry.saveThread, if_neg h, Thread.reg, List.getD_eq_getElem?_getD, List.getElem?_map,
    List.getElem?_range hi, Option.map_some, Option.getD_some]
  by_cases hz : i = 0
  · simp [hz]
  · simp only [if_neg hz]

/-- A predicate of a saved thread. -/
theorem PauseEntry.pred_saveThread (e : PauseEntry) {t : Thread} (h : t.st ≠ .exited) (p : BitVec 3) :
    (e.saveThread t).pred p = (p = 0 || (e.livePreds.getLsbD p.toNat && t.preds.getLsbD p.toNat)) := by
  simp only [PauseEntry.saveThread, if_neg h, Thread.pred, BitVec.getLsbD_and, Bool.and_comm]

/-- A tile of a saved engine. -/
theorem PauseEntry.tile_saveEngine (e : PauseEntry) (k : Nat) (g : Engine) {i : Nat} (hi : i < 2) :
    (e.saveEngine k g).tile i = if e.liveAcc.getLsbD (2 * k + i) ∧ (g.tile i).state = .full then g.tile i else {} := by
  obtain rfl | rfl : i = 0 ∨ i = 1 := by omega
  · simp [PauseEntry.saveEngine, PauseEntry.saveTile, Engine.tile]
  · simp [PauseEntry.saveEngine, PauseEntry.saveTile, Engine.tile]

/-- The job with the tier 0 placements of a pause point in force. -/
def Job.placeAt (e : PauseEntry) (j : Job) : Job := { j with placed := (j.triggered e.index).foldl placedAfter j.placed }

/-- The job with its pause state saved. -/
def Job.saveAt (s : State) (e : PauseEntry) (j : Job) : Job :=
  let k := j.placeAt e
  let v := s.saveJob k e
  { k with
    save := some v, save0 := if e.index = 0 then (match k.save0 with | some w => some w | none => some v) else k.save0
    layerSaves := if e.layerStart then
        v :: k.layerSaves.filter fun w => (match k.pause? w.index with | some f => f.layer ≠ e.layer | none => false)
      else k.layerSaves
    lastPause := e.index, pointReplays := 0, spanEvents := [] }

theorem State.job?_savePoint {s : State} {id : Nat} {j : Job} (e : PauseEntry) (h : s.job? id = some j) :
    (s.savePoint id e).job? id = some (j.saveAt s e) := by
  have hs := State.job?_updJob s id (Job.saveAt s e) fun _ => rfl
  rw [h] at hs
  exact hs

/-- A pause point whose layer fails calibration. -/
theorem exec_pausePointTaken_of_fails {s : State} {job n : Nat} {j : Job} {e : PauseEntry} {v : Save} (cycle : Nat) (hj : s.job? job = some j)
    (hr : j.state = .running) (he : j.ending = none) (hq : j.quiet = true) (hi : j.image.isSome = true) (hn : j.reached? = some n)
    (hp : j.pause? n = some e) (hl : e.layerEnd = true) (hf : j.layerFails e.layer = true) (hv : j.layerSave? e.layer = some v) :
    exec (.pausePointTaken job cycle) s = .next ((s.savePoint job e).rerunLayer job (s.cycleAt cycle) e v) := by
  refine congrArg Host.Outcome.next ?_
  simp [hj, hr, he, hq, Option.isSome_iff_ne_none.mp hi, hn, hp, hl, hf, hv]

/-- A pause point that passes. -/
theorem exec_pausePointTaken_of_passes {s : State} {job n : Nat} {j : Job} {e : PauseEntry} (cycle : Nat) (hj : s.job? job = some j)
    (hr : j.state = .running) (he : j.ending = none) (hq : j.quiet = true) (hi : j.image.isSome = true) (hn : j.reached? = some n)
    (hp : j.pause? n = some e) (hl : e.layerEnd = false ∨ j.layerFails e.layer = false) :
    exec (.pausePointTaken job cycle) s = .next
      (((if e.layerStart then (s.updJob job (Job.endRerun e)).updJob job (Job.layerStart e.layer) else
        s.updJob job (Job.endRerun e)).savePoint job e).passPoint job (s.cycleAt cycle) e) := by
  have hl' : (e.layerEnd && j.layerFails e.layer) = false := Bool.and_eq_false_iff.mpr hl
  refine congrArg Host.Outcome.next ?_
  simp [hj, hr, he, hq, Option.isSome_iff_ne_none.mp hi, hn, hp, hl']

/-- The decisions of a job that runs no program. -/
theorem exec_pausePointTaken_of_noProgram {s : State} {job : Nat} {j : Job} (cycle : Nat) (hj : s.job? job = some j)
    (hr : j.state = .running) (he : j.ending = none) (hq : j.quiet = true) (hi : j.image = none) :
    exec (.pausePointTaken job cycle) s = .next (s.decideAt true job (s.cycleAt cycle)) := by
  refine congrArg Host.Outcome.next ?_
  simp [hj, hr, he, hq, hi]

/-! ### Placement moves (R201 to R205) -/

/-- The first move of a job ends where it can be carried out, and waits otherwise. -/
theorem exec_placementMoveEnd {s t : State} {job : Nat} {j : Job} {m : Move} {ms : List Move} {b : Bool} (hj : s.job? job = some j)
    (hm : j.moves = m :: ms) (hc : s.carryOut j m.entry = (b, t)) :
    exec (.placementMoveEnd (.job job)) s = .next (if b then t.finishMove job else t) := by
  refine congrArg Host.Outcome.next ?_
  simp only [hj, hm, hc]

/-- A promotion into DRAM that has waited its time is given up. -/
theorem exec_promoteWaitExpiry {s : State} {job : Nat} {j : Job} {m : Move} {ms : List Move} (hj : s.job? job = some j)
    (hm : j.moves = m :: ms) (hc : (s.carryOut j m.entry).1 = false) (ho : m.entry.op = 0 ∨ m.entry.op = 2) (ht : m.entry.tier = 1)
    (hw : m.since + s.tiers.promoteWait ≤ s.bt) :
    exec (.promoteWaitExpiry (.job job)) s = .next (s.giveUp.finishMove job) := by
  have hel : s.elapsed m.since s.tiers.promoteWait = true := decide_eq_true hw
  refine congrArg Host.Outcome.next ?_
  simp [hj, hm, hc, ho, ht, hel]

/-- Settles O18. -/
theorem pausePointsTakeTheirSave : Obligations.PausePointsTakeTheirSave := by
  unfold Obligations.PausePointsTakeTheirSave
  refine ⟨⟨?_, ?_, ?_⟩, ?_, ?_, ?_, ?_⟩
  · intro s job cycle n j e hj hr he hq hi hn hp
    exact ⟨exec_pausePointTaken_of_passes cycle hj hr he hq hi hn hp,
      fun hl hf v => exec_pausePointTaken_of_fails cycle hj hr he hq hi hn hp hl hf⟩
  · intro s job cycle j hj hr he hq hi
    exact exec_pausePointTaken_of_noProgram cycle hj hr he hq hi
  · intro s job j m ms hj hm
    exact ⟨fun t hc => exec_placementMoveEnd hj hm hc, fun t hc => exec_placementMoveEnd hj hm hc, exec_promoteWaitExpiry hj hm⟩
  · intro e t i p ht
    refine ⟨e.reg_saveThread ht i, e.pred_saveThread ht p, ?_, ?_⟩
    · rw [PauseEntry.saveThread, if_neg ht]
      rfl
    · rw [PauseEntry.saveThread, if_neg ht]
  · intro e t ht
    exact if_pos ht
  · intro e k g i hi
    exact ⟨e.tile_saveEngine k g hi, rfl⟩
  · intro s id j e hj
    exact ⟨j.saveAt s e, s.saveJob (j.placeAt e) e, State.job?_savePoint e hj, rfl, rfl, rfl, rfl, rfl, rfl, rfl, rfl⟩

/-! ### The start and the end of a job (R131, R155, R163 to R165, R168, R510) -/

/-- JOB_START of the job that R164 picks. -/
theorem exec_jobStart {s : State} {cycle : Nat} {j : Job} {ps : List Nat} (k : Nat) (hs : s.still = false)
    (ht : s.tryStart = some (j, ps)) :
    exec (.jobStart ⟨cycle, k⟩) s = .next ((s.startJob j ps (s.cycleAt cycle)).hashImage j k) := by
  refine congrArg Host.Outcome.next ?_
  simp only [hs, Bool.false_eq_true, if_false, ht]

/-- The copied sections of an image give the digest kept, the second time at the latest. -/
theorem State.hashImage_of_match (s : State) {j : Job} {k : Nat} {g : Image} (hg : j.image = some g) (hk : k ≤ 1)
    (hd : digest64 (g.code ++ g.const) = g.sections) : s.hashImage j k = s := by
  have hk' : ¬ 2 ≤ k := by omega
  simp [State.hashImage, hg, hk', hd]

/-- The second hash differs as well. -/
theorem State.hashImage_of_mismatch (s : State) {j : Job} {k : Nat} {g : Image} (hg : j.image = some g)
    (hd : 2 ≤ k ∨ digest64 (g.code ++ g.const) ≠ g.sections) : s.hashImage j k = s.impair j.prog j.progVer := by
  simp only [State.hashImage, hg]
  exact if_pos (by simpa using hd)

/-- JOB_END of a job that can end. -/
theorem exec_jobEnd {s : State} {job : Nat} {j : Job} {st : Option Status} {c : Slot} (cycle : Nat) (hj : s.job? job = some j)
    (he : j.endNow = some st) (hc : s.slot? j.slot = some c) (hr : s.reachable (s.ringOf c.sq) = true) :
    exec (.jobEnd job cycle) s = .next (State.afterJob
      { j with
        ending := st, cycles := if j.state = .running then
          j.cycles + 4 * j.clusters.length * (s.cycleAt cycle - j.chargedTo) else j.cycles }
      (let u := (s.releaseClusters job (s.cycleAt cycle)).dropRefs fun _ r => r.who = .job job
       let u := if j.state = .waiting then u.endWait j else u
       { u with sched := { u.sched with
          jobs := u.sched.jobs.filter (·.id ≠ job), syncTable := j.leaveSync u.sched.syncTable } })) := by
  refine congrArg Host.Outcome.next ?_
  simp only [hj, he, hc, hr, Bool.not_true, Bool.false_eq_true, if_false]
  rfl

/-! ### Slices, the watchdog, waits and deadlines (R166, R167, R169, R175) -/

/-- A slice that ends. -/
theorem exec_sliceEnd {s : State} {job : Nat} {j : Job} (hj : s.job? job = some j) (hr : j.state = .running) (he : j.ending = none)
    (hm : j.marked = false) (hs : j.sliceEnd ≤ s.bt) :
    exec (.sliceEnd job) s = .next (if s.waiting.any fun k => s.jobV k < s.jobV j then s.updJob job fun k => { k with marked := true }
      else s.updJob job fun k => { k with sliceEnd := s.bt + s.sched.sliceBt }) := by
  refine congrArg Host.Outcome.next ?_
  have hlt : ¬ s.bt < j.sliceEnd := Nat.not_lt.mpr hs
  simp [hj, hr, he, hm, hlt]

theorem exec_sliceWatchdog {s : State} {job : Nat} {j : Job} (cycle : Nat) (hj : s.job? job = some j) (hr : j.state = .running)
    (he : j.ending = none) (hw : 256 * 16 ≤ j.watchdog16) :
    exec (.sliceWatchdog job cycle) s = .next
      (((s.updJob job (Job.endWith .jobFault)).raise { faultOf 0x0D 4 with detail := j.client }).updClient j.client fun c =>
        { c with wdog := sat32 (c.wdog + 1) }) := by
  refine congrArg Host.Outcome.next ?_
  have hlt : ¬ j.watchdog16 < 256 * 16 := Nat.not_lt.mpr hw
  simp only [hj, hr, he, hlt, ne_eq, not_true_eq_false, decide_false, Option.isSome_none, Bool.or_self, Bool.false_eq_true, if_false]

theorem exec_clusterWaitTimeout {s : State} {job t0 : Nat} {j : Job} (hj : s.job? job = some j) (ht : j.shortSince = some t0)
    (hw : j.state = .waiting) (he : j.ending = none) (hs : t0 + 1000000 ≤ s.bt) :
    exec (.clusterWaitTimeout job) s = .next (s.updJob job (Job.endWith .unitClosed)) := by
  refine congrArg Host.Outcome.next ?_
  have hel : s.elapsed t0 1000000 = true := decide_eq_true hs
  simp [hj, ht, hw, he, hel]

/-- The jobs of programs, seals and merges have a deadline (R167). -/
theorem JobKind.hasDeadline_of {k : JobKind} (h : k = .run ∨ k = .seal ∨ k = .merge) : k.hasDeadline = true := by
  obtain rfl | rfl | rfl := h <;> rfl

theorem exec_jobDeadline {s : State} {job : Nat} {j : Job} {c : Slot} (hj : s.job? job = some j) (hc : s.slot? j.slot = some c)
    (hw : j.state = .waiting) (hs : j.started = false) (he : j.ending = none) (hk : j.kind.hasDeadline = true)
    (hd : s.deadlinePassed c.entry c.fetchBt = true) :
    exec (.jobDeadline job) s = .next (s.updJob job (Job.endWith .deadlineExpired)) := by
  refine congrArg Host.Outcome.next ?_
  simp [hj, hc, hw, hs, he, hk, hd]

/-- Settles O19. -/
theorem jobsStartEndAndTimeOut : Obligations.JobsStartEndAndTimeOut := by
  unfold Obligations.JobsStartEndAndTimeOut
  refine ⟨⟨?_, ?_, ?_, ?_⟩, ?_, ?_, ?_, ?_⟩
  · intro s cycle k j g ps hs ht hg
    rw [exec_jobStart k hs ht]
    exact ⟨fun hk hd => congrArg _ (State.hashImage_of_match _ hg hk hd), fun hd => congrArg _ (State.hashImage_of_mismatch _ hg hd)⟩
  · intro s cycle k j ps hs ht hg
    rw [exec_jobStart k hs ht, State.hashImage, hg]
  · intro s job cycle j st c hj he hc hr
    exact ⟨_, exec_jobEnd cycle hj he hc hr, rfl⟩
  · intro g p i hi
    simp only [Image.freshCluster, List.getElem?_replicate, if_pos hi]
  · intro s job j hj hr he hm hs
    rw [exec_sliceEnd hj hr he hm hs]
    refine ⟨fun ⟨k, hk, hv⟩ => congrArg _ (if_pos ?_), fun hv => congrArg _ (if_neg ?_)⟩
    · exact List.any_eq_true.mpr ⟨k, hk, decide_eq_true hv⟩
    · simpa using hv
  · intro s job cycle j hj hr he hw
    exact exec_sliceWatchdog cycle hj hr he hw
  · intro s job t0 j hj ht hw he hs
    exact exec_clusterWaitTimeout hj ht hw he hs
  · intro s job j c hj hc hw hs he hk hd
    exact exec_jobDeadline hj hc hw hs he (JobKind.hasDeadline_of hk) hd

/-! ### Charges (R160, R161, R174) -/

/-- A job with a charge posted up to an ARITH cycle (R160). -/
def Job.addCharge (n cyc : Nat) (j : Job) : Job := { j with cycles := j.cycles + n, chargedTo := Nat.max j.chargedTo cyc }

/-- A job charged up to an ARITH cycle if it runs, with its watchdog where it stood (R160). -/
def Job.chargedAt (cyc : Nat) (j : Job) : Job :=
  if j.state = .running then j.addCharge (4 * j.clusters.length * (cyc - j.chargedTo)) cyc else j

/-- CHARGE of a running job, by the charged job. -/
theorem State.chargeJob_of_running {s : State} {id : Nat} {j : Job} (cyc : Nat) (hj : s.job? id = some j) (hr : j.state = .running) :
    s.chargeJob id cyc = (s.updJob id (Job.addCharge (4 * j.clusters.length * (cyc - j.chargedTo)) cyc)).updClient j.client fun c =>
      c.post (4 * j.clusters.length * (cyc - j.chargedTo)) := by
  simp only [State.chargeJob, hj]
  exact if_neg (Classical.not_not.mpr hr)

theorem State.chargeJob_of_idle {s : State} {id : Nat} {j : Job} (cyc : Nat) (hj : s.job? id = some j) (hr : j.state ≠ .running) :
    s.chargeJob id cyc = s := by
  simp only [State.chargeJob, hj]
  exact if_pos hr

/-- A charge changes jobs and clients alone. -/
theorem State.chargeJob_eq (s : State) (id cyc : Nat) :
    ∃ js cs, s.chargeJob id cyc = { s with sched := { s.sched with jobs := js, clients := cs } } := by
  unfold State.chargeJob
  split
  · exact ⟨_, _, rfl⟩
  · split
    · exact ⟨_, _, rfl⟩
    · exact ⟨_, _, rfl⟩

/-- The job charged. -/
theorem State.job?_chargeJob (s : State) (id cyc : Nat) : (s.chargeJob id cyc).job? id = (s.job? id).map (Job.chargedAt cyc) := by
  cases hj : s.job? id with
  | none => simp [State.chargeJob, hj]
  | some j =>
    rw [Option.map_some, Job.chargedAt]
    by_cases hr : j.state = .running
    · rw [State.chargeJob_of_running cyc hj hr, if_pos hr]
      exact (State.job?_updJob s id (Job.addCharge _ cyc) fun _ => rfl).trans (congrArg _ hj)
    · rw [State.chargeJob_of_idle cyc hj hr, if_neg hr, hj]

/-- Another job's charge leaves a job as it was. -/
theorem State.job?_chargeJob_ne (s : State) {id n : Nat} (cyc : Nat) (hn : n ≠ id) : (s.chargeJob id cyc).job? n = s.job? n := by
  cases hj : s.job? id with
  | none => simp only [State.chargeJob, hj]
  | some j =>
    by_cases hr : j.state = .running
    · rw [State.chargeJob_of_running cyc hj hr]
      exact State.job?_updJob_ne s id n (Job.addCharge _ cyc) (fun _ => rfl) hn
    · rw [State.chargeJob_of_idle cyc hj hr]

/-- The charges of a list of jobs. -/
def State.chargeJobs (l : List Job) (cyc : Nat) (s : State) : State := l.foldl (fun t j => t.chargeJob j.id cyc) s

theorem State.chargeJobs_eq (l : List Job) (cyc : Nat) (s : State) :
    ∃ js cs, s.chargeJobs l cyc = { s with sched := { s.sched with jobs := js, clients := cs } } := by
  induction l generalizing s with
  | nil => exact ⟨_, _, rfl⟩
  | cons j l ih =>
    obtain ⟨js, cs, hs⟩ := s.chargeJob_eq j.id cyc
    obtain ⟨js', cs', ht⟩ := ih (s.chargeJob j.id cyc)
    exact ⟨js', cs', ht.trans (by rw [hs])⟩

/-- A job that is not among those charged stays as it was. -/
theorem State.job?_chargeJobs_of_notMem {l : List Job} (cyc : Nat) (s : State) {id : Nat} (h : id ∉ l.map (·.id)) :
    (s.chargeJobs l cyc).job? id = s.job? id := by
  induction l generalizing s with
  | nil => rfl
  | cons j l ih =>
    simp only [List.map_cons, List.mem_cons, not_or] at h
    exact (ih (s.chargeJob j.id cyc) h.2).trans (s.job?_chargeJob_ne cyc h.1)

/-- A job among those charged, each once, is charged once. -/
theorem State.job?_chargeJobs_of_mem {l : List Job} (cyc : Nat) (s : State) {id : Nat} (hl : (l.map (·.id)).Nodup)
    (h : id ∈ l.map (·.id)) : (s.chargeJobs l cyc).job? id = (s.job? id).map (Job.chargedAt cyc) := by
  induction l generalizing s with
  | nil => simp at h
  | cons j l ih =>
    simp only [List.map_cons, List.nodup_cons] at hl
    obtain ⟨hnew, hl⟩ := hl
    by_cases hid : id = j.id
    · subst hid
      exact (State.job?_chargeJobs_of_notMem cyc (s.chargeJob j.id cyc) hnew).trans (s.job?_chargeJob j.id cyc)
    · have hm : id ∈ l.map (·.id) := (List.mem_cons.mp h).resolve_left hid
      rw [← s.job?_chargeJob_ne cyc hid]
      exact ih (s.chargeJob j.id cyc) hl hm

/-- The running jobs are charged, and no other. -/
theorem State.job?_chargeRunning (s : State) (cyc : Nat) (hn : (s.sched.jobs.map (·.id)).Nodup) {id : Nat} {j : Job}
    (hj : s.job? id = some j) :
    (s.chargeJobs (s.sched.jobs.filter fun j => j.state = .running) cyc).job? id = some (j.chargedAt cyc) := by
  have hl : ((s.sched.jobs.filter fun j => j.state = .running).map (·.id)).Nodup := hn.sublist (List.filter_sublist.map _)
  have hid : j.id = id := by simpa using List.find?_some hj
  by_cases hm : id ∈ (s.sched.jobs.filter fun j => j.state = .running).map (·.id)
  · rw [State.job?_chargeJobs_of_mem cyc s hl hm, hj, Option.map_some]
  · have hr : j.state ≠ .running := fun hr =>
      hm (List.mem_map.mpr ⟨j, List.mem_filter.mpr ⟨List.mem_of_find?_eq_some hj, decide_eq_true hr⟩, hid⟩)
    rw [State.job?_chargeJobs_of_notMem cyc s hm, hj, Job.chargedAt, if_neg hr]

/-- The watchdog of a running job goes on at BT boundaries, unless a move holds its threads (R174). -/
def Job.tick (n : Nat) (j : Job) : Job :=
  if j.state = .running && !j.held then { j with watchdog16 := j.watchdog16 + n } else j

theorem Job.id_tick (n : Nat) (j : Job) : (j.tick n).id = j.id := by
  unfold Job.tick
  split <;> rfl

/-- A job after a tick of every job. -/
theorem find?_map_tick (n id : Nat) (l : List Job) :
    (l.map (Job.tick n)).find? (·.id = id) = (l.find? (·.id = id)).map (Job.tick n) := by
  rw [List.find?_map]
  simp only [Function.comp_def, Job.id_tick]

theorem Job.tick_of_running {j : Job} (n : Nat) (hr : j.state = .running) :
    j.tick n = { j with watchdog16 := if j.held then j.watchdog16 else j.watchdog16 + n } := by
  unfold Job.tick
  cases j.held
  · exact if_pos (by simp [hr])
  · exact if_neg (by simp)

/-- A job that is charged and ticks. -/
theorem Job.tick_chargedAt {j : Job} (cyc n : Nat) (hr : j.state = .running) : (j.chargedAt cyc).tick n =
    { j.addCharge (4 * j.clusters.length * (cyc - j.chargedTo)) cyc with
      watchdog16 := if j.held then j.watchdog16 else j.watchdog16 + n } := by
  rw [Job.chargedAt, if_pos hr]
  exact Job.tick_of_running n hr

/-- The charge of R161 as Euclidean division says it. -/
theorem Client.post_spec (c : Client) (n : Nat) (hw : 0 < c.weight) :
    (c.post n).vtime = Nat.min (c.vtime + (n + c.rem) / c.weight) 0xFFFFFFFFFFFFFFFF ∧
    (c.post n).rem < c.weight ∧
    (c.vtime + (n + c.rem) / c.weight ≤ 0xFFFFFFFFFFFFFFFF →
      c.weight * (c.post n).vtime + (c.post n).rem = c.weight * c.vtime + c.rem + n) ∧
    (c.post n).cycles = Nat.min (c.cycles + n) 0xFFFFFFFFFFFFFFFF ∧ (c.post n).weight = c.weight := by
  refine ⟨rfl, Nat.mod_lt _ hw, fun hv => ?_, rfl, rfl⟩
  have hmin : sat64 (c.vtime + (n + c.rem) / c.weight) = c.vtime + (n + c.rem) / c.weight := Nat.min_eq_left hv
  have hdiv : c.weight * ((n + c.rem) / c.weight) + (n + c.rem) % c.weight = n + c.rem := Nat.div_add_mod _ _
  simp only [Client.post, hmin, Nat.mul_add]
  omega

/-- Settles O20. -/
theorem boundariesPostTheCharge : Obligations.BoundariesPostTheCharge := by
  unfold Obligations.BoundariesPostTheCharge
  refine ⟨fun s n hn => ?_, fun c n hw _ => c.post_spec n hw⟩
  obtain ⟨js, cs, hs⟩ := s.chargeJobs_eq (s.sched.jobs.filter fun j => j.state = .running) (s.clk.cycle + 600 * n)
  refine ⟨{ s with
    clk := { s.clk with cycle := s.clk.cycle + 600 * n }
    sched := { s.sched with jobs := js.map (Job.tick (s.issueRate * n)), clients := cs }
    beacon := if n = 0 then s.beacon else { s.beacon with aon := s.aonUser } }, ?_, rfl, ?_, ?_⟩
  · refine congrArg Host.Outcome.next ?_
    simp only [State.chargeJobs] at hs
    simp only [hs]
    rfl
  · by_cases h0 : n = 0
    · simp [h0]
    · simp [h0, State.aonUser]
  · intro id j hj
    have hc := s.job?_chargeRunning (s.clk.cycle + 600 * n) hn hj
    rw [hs] at hc
    refine ⟨_, (find?_map_tick _ id js).trans (congrArg _ hc), fun hr => ?_, fun hr => ?_⟩
    · simp [Job.chargedAt, hr, Job.tick]
    · rw [Job.tick_chargedAt _ _ hr]
      exact ⟨rfl, rfl, rfl, rfl, rfl, rfl⟩

end Sys2Proof.Machine
end

section
/-! PROOF. Doorbells, fetches and completions (R21, R44 to R50, R60 to R70, R378). -/
namespace Sys2Proof.Machine

/-! ### Doorbells (R44 to R46) -/

theorem exec_atrSqDb {s : State} {port n : Nat} (v : Word) (h : s.ringOpen port n = true) :
    exec (.atrSqDb port n v) s = .next (s.writeSqDb n v.toNat) :=
  congrArg Host.Outcome.next (if_pos h)

theorem exec_atrCqDb {s : State} {port n : Nat} (v : Word) (h : s.ringOpen port n = true) :
    exec (.atrCqDb port n v) s = .next (s.writeCqDb n v.toNat) :=
  congrArg Host.Outcome.next (if_pos h)

/-- A submission doorbell of a running ring. -/
theorem State.writeSqDb_of_running {s : State} {n : Nat} (v : Nat) (he : (s.sq n).enabled = true) (hd : (s.sq n).disabling = false)
    (hh : (s.sq n).halted = false) :
    s.writeSqDb n v = if (s.sq n).size ≤ bitsAt v 0 12 then
        (s.updSq n fun q => { q with halted := true }).raise { faultOf 0x11 5 with location := n }
      else s.updSq n fun q => { q with tail := bitsAt v 0 12 } := by
  simp [State.writeSqDb, he, hd, hh]

/-- A completion doorbell outside the ring, or one that releases more than is posted. -/
theorem State.writeCqDb_of_bad {s : State} {n v : Nat} (he : (s.cq n).enabled = true)
    (hb : (s.cq n).size ≤ bitsAt v 0 12 ∨ (s.cq n).held < (bitsAt v 0 12 + (s.cq n).size - (s.cq n).head) % (s.cq n).size) :
    s.writeCqDb n v = if (s.cq n).badHead then s.countErr 2
      else ((s.countErr 2).updCq n fun c => { c with badHead := true }).raise { faultOf 0x11 5 with location := 256 + n } := by
  have hc : (decide ((s.cq n).size ≤ bitsAt v 0 12) ||
      decide ((s.cq n).held < (bitsAt v 0 12 + (s.cq n).size - (s.cq n).head) % (s.cq n).size)) = true := by simpa using hb
  simp only [State.writeCqDb, he, hc, Bool.not_true, Bool.false_eq_true, if_false, if_true]

/-- A completion doorbell that releases no more than is posted. -/
theorem State.writeCqDb_of_good {s : State} {n v : Nat} (he : (s.cq n).enabled = true) (hi : bitsAt v 0 12 < (s.cq n).size)
    (hb : (bitsAt v 0 12 + (s.cq n).size - (s.cq n).head) % (s.cq n).size ≤ (s.cq n).held) :
    s.writeCqDb n v = s.updCq n fun c => { c with head := bitsAt v 0 12, badHead := false } := by
  simp [State.writeCqDb, he, Nat.not_le.mpr hi, Nat.not_lt.mpr hb]

/-- Settles O22. -/
theorem doorbellsMoveTheRings : Obligations.DoorbellsMoveTheRings := by
  unfold Obligations.DoorbellsMoveTheRings
  intro s port n v ho
  rw [exec_atrSqDb v ho, exec_atrCqDb v ho]
  refine ⟨fun he hd hh => ?_, fun he => ?_, fun he => ⟨fun hi hb => ?_, fun hb => ⟨fun hbad => ?_, fun hbad => ?_⟩⟩, fun he => ?_⟩
  · rw [State.writeSqDb_of_running _ he hd hh]
    exact ⟨fun hi => congrArg _ (if_neg (Nat.not_le.mpr hi)), fun hi => congrArg _ (if_pos hi)⟩
  · simp [State.writeSqDb, he]
  · exact congrArg _ (State.writeCqDb_of_good he hi hb)
  · rw [State.writeCqDb_of_bad he hb, if_pos hbad]
  · rw [State.writeCqDb_of_bad he hb, hbad]
    rfl
  · simp [State.writeCqDb, he]

/-! ### Fetches (R48 to R50, R60 to R64) -/

/-- The record that the duplicate window keeps of an entry (R64). -/
def Retained.of (e : Bytes) : Retained := { seq := BitVec.ofNat 32 (field e 4 4), opcode := field e 0 1, tag := field e 2 2 }

/-- The state in which the entry of a fetch is judged: the ring's head has moved, and the turn is taken (R48, R50). -/
def State.fetched (n : Nat) (s : State) : State :=
  let t := s.updSq n fun q => { q with head := (q.head + 1) % q.size, inFlight := q.inFlight + 1 }
  { t with atr := { t.atr with
      lastRing := n, turnTaken := if s.atr.lastRing = n && s.atr.turnTaken < 8 then s.atr.turnTaken + 1 else 1
      nextOrder := s.atr.nextOrder + 1 } }

/-- FETCH of the ring whose turn it is. -/
theorem exec_fetch {s : State} {n : Nat} (reads : List (Nat × List Byte)) (refused : Bool) (h : s.turn = some n) :
    exec (.fetch n reads refused) s = .next
      (let u := s.learn reads
       let e := memRead u.hostMem ((s.sq n).base + 64 * (s.sq n).head) 64
       if BitVec.ofNat 32 (field e 4 4) = (s.sq n).expSeq then (u.fetched n).newEntry n e s.atr.nextOrder refused
       else (u.fetched n).oldEntry n e s.atr.nextOrder) :=
  congrArg Host.Outcome.next (if_neg (Classical.not_not.mpr h))

/-- A new entry that fails a check is answered with its status. -/
theorem State.newEntry_of_error {s : State} {n : Nat} {e : Bytes} {refused : Bool} {x : Status × Nat} (order : Nat)
    (h : s.validate e refused = .error x) :
    s.newEntry n e order refused =
      (s.updSq n fun q => { q with expSeq := q.expSeq + 1, window := (Retained.of e :: q.window).take 4096 }).answerEntry n e order
        x.1 x.2 0 true := by
  simp only [State.newEntry, h]
  rfl

/-- A new entry that passes every check is admitted. -/
theorem State.newEntry_of_ok {s : State} {n : Nat} {e : Bytes} {refused : Bool} {sp : OpSpec} (order : Nat)
    (h : s.validate e refused = .ok sp) :
    s.newEntry n e order refused =
      (s.updSq n fun q => { q with expSeq := q.expSeq + 1, window := (Retained.of e :: q.window).take 4096 }).accept n order e sp := by
  simp only [State.newEntry, h]
  rfl

/-- Settles O23. -/
theorem fetchTakesTheNextEntry : Obligations.FetchTakesTheNextEntry := by
  unfold Obligations.FetchTakesTheNextEntry
  intro s n reads refused hn
  rw [exec_fetch reads refused hn]
  refine ⟨fun hs => congrArg _ (if_neg hs), fun hs => ⟨fun x hx => ?_, fun sp hx => ?_⟩⟩
  · exact congrArg _ ((if_pos hs).trans (State.newEntry_of_error _ hx))
  · exact congrArg _ ((if_pos hs).trans (State.newEntry_of_ok _ hx))

/-! ### Completions (R21, R61, R65 to R70, R378) -/

/-- A number written in as many bytes as are read back. -/
theorem field_leBytes (n v : Nat) : field (leBytes n v) 0 n = v % 256 ^ n := by
  have h := field_leBytes_append n v []
  rwa [List.append_nil] at h

theorem length_completionBytes (k : Completion) (head : Nat) (phase degraded : Bool) :
    (completionBytes k head phase degraded).length = 16 := by
  simp only [completionBytes, List.length_append, length_leBytes]

/-- The other fields of an entry (Table 2-9). -/
theorem field_completionBytes (k : Completion) (head : Nat) (phase degraded : Bool) :
    field (completionBytes k head phase degraded) 0 2 = k.tag % 65536 ∧
    field (completionBytes k head phase degraded) 2 1 = k.status.code % 256 ∧
    field (completionBytes k head phase degraded) 4 4 = k.seq.toNat ∧
    field (completionBytes k head phase degraded) 8 2 = k.sq % 65536 ∧
    field (completionBytes k head phase degraded) 12 4 = k.result % 2 ^ 32 := by
  have hseq : k.seq.toNat % 256 ^ 4 = k.seq.toNat := Nat.mod_eq_of_lt k.seq.isLt
  simp only [completionBytes, List.append_assoc]
  refine ⟨field_leBytes_append _ _ _, ?_, ?_, ?_, ?_⟩
  · rw [field_append_of_le _ _ (by simp)]
    simp [field_leBytes_append]
  · iterate 3 rw [field_append_of_le _ _ (by simp)]
    simp only [length_leBytes, Nat.sub_self, field_leBytes_append, hseq]
  · iterate 4 rw [field_append_of_le _ _ (by simp)]
    simp [field_leBytes_append]
  · iterate 6 rw [field_append_of_le _ _ (by simp)]
    simp [field_leBytes]

/-- COMPLETION_POST of a ring with a ready completion, a port and room. -/
theorem State.post_of_room {s : State} {n p : Nat} {k : Completion} {ks : List Completion} (hr : (s.cq n).ready = k :: ks)
    (hp : s.homePort n = some p) (hs : s.still = false) (hroom : (s.cq n).held + 1 < (s.cq n).size) :
    s.post n =
      (let c := s.cq n
       let t := (s.unpark n).hostWrite n (c.base + 16 * c.tail) (completionBytes k (s.sq k.sq).head c.phase s.timeDegraded)
       let t := t.updCq n fun c => { c with
         ready := ks
         tail := if (s.cq n).tail + 1 = (s.cq n).size then 0 else c.tail + 1
         phase := if (s.cq n).tail + 1 = (s.cq n).size then !c.phase else c.phase }
       let t := t.updSq k.sq fun q => Sq.settle { q.retain k with inFlight := q.inFlight - 1 }
       ((t.release k.slot).unfence.takeLocks).wantNotify n k.notify) := by
  have hc : (s.still || decide ((s.cq n).size ≤ (s.cq n).held + 1)) = false := by simp [hs, hroom]
  simp only [State.post, hr, hp, hc, Bool.false_eq_true, if_false]

/-- The message of a ring. -/
theorem State.notify_of_port {s : State} {n p : Nat} (hp : s.homePort n = some p) :
    s.notify n =
      (let bs := leBytes 2 n ++ leBytes 2 (s.cq n).tail ++ zeroBytes 28
       (({ s with hostMem := memWrite s.hostMem (s.cq n).msgAddr bs } : State).updCq n fun c => { c with unnotified := 0 }).send p
        { cls := 1, vc := 0, dst := (s.port p).hostNode, addr := (s.cq n).msgAddr, len := 32, slots := 2, ring := some n, data := bs }) := by
  simp only [State.notify, hp]

theorem exec_notifyTimeout {s : State} {n : Nat} (hu : 0 < (s.cq n).unnotified) (ht : (s.cq n).oldest + (s.cq n).coalesceTime ≤ s.bt)
    (hs : s.silent = false) : exec (.notifyTimeout n) s = .next (s.notify n) := by
  refine congrArg Host.Outcome.next ?_
  have hel : s.elapsed (s.cq n).oldest (s.cq n).coalesceTime = true := decide_eq_true ht
  simp [hu, hel, hs]

theorem exec_lockWaitDeadline {s : State} {slot : Nat} {c : Slot} (hc : s.slot? slot = some c) (hp : c.phase = .handed)
    (hl : takesLock c.opcode = true) (hg : s.lockGranted slot = false) (hd : s.deadlinePassed c.entry c.fetchBt = true) :
    exec (.lockWaitDeadline slot) s = .next
      (let t := s.finish slot .deadlineExpired 0 0
       ({ t with locks := t.locks.filter (·.slot ≠ slot) } : State).takeLocks) := by
  refine congrArg Host.Outcome.next ?_
  simp only [hc, hp, hl, hg, hd, decide_true, Bool.not_false, Bool.and_self, if_true]
  rfl

/-- A command that has ended ends only once. -/
theorem State.finish_of_done {s : State} {id : Nat} {c : Slot} (st : Status) (result info : Nat) (hc : s.slot? id = some c)
    (hd : c.phase = .done) : s.finish id st result info = s := by
  simp only [State.finish, hc, if_pos hd]

/-- A completion that is readied leaves every other ring as it was. -/
theorem State.cq_ready_other (s : State) (k : Completion) {n : Nat} (hn : n ≠ s.ringOf k.sq) : (s.ready k).cq n = s.cq n := by
  simp [State.ready, State.updCq, State.cq, updAt, Ne.symm hn]

/-- Settles O27. -/
theorem completionsArePosted : Obligations.CompletionsArePosted := by
  unfold Obligations.CompletionsArePosted
  refine ⟨⟨?_, ?_, ?_, ?_⟩, ?_, ?_⟩
  · intro s n p k ks hr hp hs hroom
    exact congrArg (fun t : State => Host.Outcome.next t.tryShutdown) (State.post_of_room hr hp hs hroom)
  · intro k h ph dg
    obtain ⟨htag, hst, hseq, hsq, hres⟩ := field_completionBytes k h ph dg
    exact ⟨length_completionBytes k h ph dg, htag, hst, hseq, hsq, field_completionBytes_head k h ph dg, hres⟩
  · intro s n hu ht hs
    exact exec_notifyTimeout hu ht hs
  · intro s n p hp
    exact State.notify_of_port hp
  · intro s slot c hc hp hl hg hd
    exact exec_lockWaitDeadline hc hp hl hg hd
  · intro s id st result info c hc
    refine ⟨fun hd => State.finish_of_done st result info hc hd, fun ho => ?_⟩
    have hslot := State.slot?_finish_of_open st result info hc ho
    have hcq := State.cq_finish_of_open st result info hc ho
    have hopen := State.finish_of_open st result info hc ho
    refine ⟨hslot, fun k hk => ?_, hcq, fun n hn => ?_, ?_, State.finish_of_done st result info hslot rfl⟩
    · rw [hopen]
      exact s.slot?_updSlot_ne (f := Slot.ended) (fun _ => rfl) hk
    · rw [hopen]
      exact (s.updSlot id Slot.ended).cq_ready_other (c.completion id st result info) hn
    · rw [hopen]
      rfl

end Sys2Proof.Machine
end

section
/-! PROOF. Block storage (R378, R383): why the statement about block commands fails in a state that lists two slots under one number. -/
namespace Sys2Proof.Machine

/-- A block command whose range lock is granted takes its step. -/
theorem Handed.runBlock {s : State} {id op : Nat} {w : Bool} {c : Slot} (k : Handed s id op w c) (hl : s.lockGranted id = true)
    (f : Slot → State) : s.runBlock id op w f = f c := by
  rw [State.runBlock, k.run, if_pos hl]

/-- A write that D has no room for is held back. -/
theorem exec_blockWrite_of_held {s : State} {slot : Nat} {c : Slot} (k : Handed s slot 0x11 false c) (hl : s.lockGranted slot = true)
    (h : s.writeError (rangeUnits c.lba c.nblocks) (partUnits c.lba c.nblocks) = none) (ha : s.admitsDirty (4096 * c.nblocks) = false) :
    exec (.blockWrite slot) s = .next (s.setWork c.id (.held (4096 * c.nblocks))) := by
  refine congrArg Host.Outcome.next ((k.runBlock hl _).trans ?_)
  simp only [State.doBlockWrite, h, ha, Bool.false_eq_true, if_false]

/-! ### Two slots under one number -/
namespace TwoSlots

/-- The entry of a BLOCK_WRITE of `n` blocks from block 0. -/
def entry (n : Nat) : Bytes := leBytes 1 0x11 ++ zeroBytes 47 ++ leBytes 4 n ++ zeroBytes 12

/-- The slot of a BLOCK_WRITE of `n` blocks, which has been handed to its path. -/
def slot (n : Nat) : Slot := { id := 1, sq := 0, entry := entry n, order := 0, fetchBt := 0 }

/-- Two slots under one number, whose commands differ in NBLOCKS; no dirty data is admitted. -/
def state : State :=
  { State.reset with
    power := { State.reset.power with state := .active, phase := .service }
    tiers := { State.reset.tiers with writeThrough := false, budget := 0 }
    atr := { State.reset.atr with slots := [slot 1, slot 2] }
    locks := [{ slot := 1, order := 0, lo := 0, hi := 0, exclusive := true }] }

theorem handed : Handed state 1 0x11 false (slot 1) where
  held := by decide
  phase := rfl
  opcode := by decide
  reads := rfl
  toRead := rfl
  awake := by decide
  going := by decide
  unordered := by decide
  carried := by simp

/-- What the second slot's command waits for room for. -/
def heldBytes (s : State) : Option Nat :=
  s.atr.slots[1]?.bind fun c => match c.work with | .held n => some n | _ => none

theorem granted : state.lockGranted 1 = true := by decide

/-- The spare pool stands far above 1 % of the raw capacity. -/
theorem spareMib_eq : state.spareMib = 36325180 := by decide

theorem unprotected : state.protected = false := by
  rw [State.protected, spareMib_eq]
  decide

theorem free : 1 ≤ state.freeUnits := by decide

theorem admitted : state.writeError (rangeUnits (slot 1).lba (slot 1).nblocks) (partUnits (slot 1).lba (slot 1).nblocks) = none := by
  have hunits : rangeUnits (slot 1).lba (slot 1).nblocks = [0] := by decide
  have hparts : partUnits (slot 1).lba (slot 1).nblocks = [0] := by decide
  have hlost : ([0].any fun u => state.mapEntry u = 1) = false := by decide
  have hfresh : ([0].filter fun u => state.mapEntry u = 0 && !(state.block.dirty.any fun b => b.block / 16 = u)) = [0] := by decide
  simp only [State.writeError, hunits, hparts, unprotected, hlost, hfresh, Bool.false_eq_true, if_false, List.length_singleton,
    Nat.not_lt.mpr free]

theorem full : state.admitsDirty (4096 * (slot 1).nblocks) = false := by decide

end TwoSlots

open TwoSlots in
/-- Refutes O34: a BLOCK_WRITE that D has no room for waits in its slot for the bytes of its own blocks; where two slots bear its number,
both wait for these, while the statement has each slot wait for the bytes of its own entry (the `c` of `4096 * c.nblocks` there is the
slot that is changed, not the command's). -/
theorem not_blockCommandsTakeEffect : ¬ Obligations.BlockCommandsTakeEffect := by
  unfold Obligations.BlockCommandsTakeEffect
  rintro ⟨⟨-, hwrites⟩, -⟩
  obtain ⟨-, hheld, -⟩ := hwrites (Instr.blockWrite, 0x11) List.mem_cons_self state 1 (slot 1) handed granted
  have hmodel := exec_blockWrite_of_held handed granted admitted full
  have hstate := Host.Outcome.next.inj ((hheld admitted full).symm.trans hmodel)
  have hbytes := congrArg heldBytes hstate
  exact absurd hbytes (by decide)

end Sys2Proof.Machine
end

section
/-! PROOF. Flits (R398, R405): why the statement about them fails for a flit of an invalid type. -/
namespace Sys2Proof.Machine

namespace InvalidFlit

/-- Port 0 is UP and asks for no replay. -/
def state : State :=
  { State.reset with
    power := { State.reset.power with state := .active, phase := .service }
    link := { State.reset.link with ports := [{ link := .up }, {}] } }

/-- A flit of type 4. -/
def flit : Bytes := [0, 0, 0, 0, 4]

/-- Whether port 0 asks for a replay after a step. -/
def nakAfter (o : Host.Outcome State Fault Refusal) : Option Bool :=
  match o with
  | .next t => some (t.port 0).nak
  | _ => none

/-- The model counts the flit and asks for no replay. -/
theorem nakAfter_exec : nakAfter (exec (.flitReceive 0 flit true) state) = some false := by decide

/-- A port that is made to ask for a replay asks for one. -/
theorem nakAfter_updPort : nakAfter (.next ((state.linkFields 0 flit).updPort 0 fun p =>
    { p with errFlits := sat32 (p.errFlits + 1), nak := true })) = some true := by decide

end InvalidFlit

open InvalidFlit in
/-- Refutes O42: a flit of an invalid type is counted and dropped and is no part of the sequence (assumption log 126), so that no NAK
answers it, while the statement has the drive ask for a replay. -/
theorem not_flitsAndCompletionsArrive : ¬ Obligations.FlitsAndCompletionsArrive := by
  unfold Obligations.FlitsAndCompletionsArrive
  rintro ⟨hflits, -⟩
  obtain ⟨-, -, -, -, hinvalid⟩ := hflits state 0 flit (by decide) (by decide) (by decide)
  have hexec := hinvalid (by decide)
  have hreplay : bitAt (field flit 5 1) 0 = false := by decide
  have hretrain : bitAt (field flit 5 1) 1 = false := by decide
  simp only [hreplay, hretrain, Bool.false_eq_true, if_false] at hexec
  have hnak := congrArg nakAfter hexec
  rw [nakAfter_exec, nakAfter_updPort] at hnak
  exact absurd hnak (by decide)

end Sys2Proof.Machine
end

section
/-! PROOF. Retrains (R310, R397): why the statement about them fails where a reduction packet leaves at a retrain's end. -/
namespace Sys2Proof.Machine

namespace RetrainSends

/-- A reduction packet's place on VC3, the channel of domain slot 0. -/
def packet : TxPkt := { cls := 6, vc := 3, dst := 0, slots := 2 }

def round : Round :=
  { num := 1, slot := 0, residual := 0, chunkFirst := 0, chunkCount := 1, k := 1, inBf16 := false, outBf16 := false, startTick := 0 }

/-- At BT 1 port 0 retrains, with a packet of domain slot 0's round waiting for the end of the retrain. -/
def state : State :=
  { State.reset with
    clk := { State.reset.clk with cycle := 600 }
    domains := [{ round := some round }, {}, {}, {}]
    link := { State.reset.link with ports := [{ link := .retraining, wait := [packet], credits := List.replicate 7 200 }, {}] } }

/-- BT of the last packet of domain slot 0's round. -/
def lastPacket (s : State) : Option Nat := s.domains[0]?.bind fun d => d.round.map (·.lastPacket)

/-- The packet leaves, and the round has sent. -/
theorem lastPacket_exec : (match exec (.retrainEnd 0 true) state with | .next t => lastPacket t | _ => none) = some 1 := by decide

end RetrainSends

open RetrainSends in
/-- Refutes O41: at the end of a good retrain what waited is sent, and where a packet of a reduction round is among it the round's time of
its last packet is renewed (R310), while the statement has nothing change but the link. -/
theorem not_linksRetrainAndReplay : ¬ Obligations.LinksRetrainAndReplay := by
  unfold Obligations.LinksRetrainAndReplay
  rintro ⟨-, -, hretrain, -⟩
  obtain ⟨⟨t, hexec, hframe, -⟩, -⟩ := hretrain state 0 (by decide)
  have hsent := lastPacket_exec
  rw [hexec] at hsent
  have hkept : lastPacket t = lastPacket state := by rw [hframe]; rfl
  exact absurd (hkept.symm.trans hsent) (by decide)

end Sys2Proof.Machine
end

section
/-! PROOF. Link training and the time base (R395, R396, R404, R406, R410 to R418, R496, R529). -/
namespace Sys2Proof.Machine

/-! ### Ports -/

/-- A port that is not DOWN is one of the list. -/
theorem State.port_lt {s : State} {n : Nat} (h : (s.port n).link ≠ .down) : n < s.link.ports.length := by
  refine Nat.lt_of_not_le fun hn => h ?_
  rw [State.port, List.getD_eq_getElem?_getD, List.getElem?_eq_none hn]
  rfl

theorem State.port_updPort_same {s : State} {n : Nat} (f : Port → Port) (h : n < s.link.ports.length) :
    (s.updPort n f).port n = f (s.port n) := by
  simp [State.port, State.updPort, updAt, h]

theorem State.port_updPort_ne (s : State) {n m : Nat} (f : Port → Port) (h : m ≠ n) : (s.updPort n f).port m = s.port m := by
  simp [State.port, State.updPort, updAt, Ne.symm h]

/-- The other port is another one. -/
theorem other_port_ne (n : Nat) : 1 - n ≠ n := by omega

/-! ### Training (R395, R396, R404, R406, R496) -/

theorem exec_partnerDetected {s : State} {port : Nat} (hp : port < 2) (ha : s.linkAlive = true) (hd : (s.port port).link = .down)
    (hu : s.unitIs .port port .inService = true) (hf : (s.port port).trainFailed = false) :
    exec (.partnerDetected port) s = .next (s.updPort port fun p =>
      { p with link := .training, attempts := 0, trainSince := s.bt, trainFailed := false, partner := true }) := by
  refine congrArg Host.Outcome.next ?_
  simp [Nat.not_le.mpr hp, ha, hd, hu, hf, Port.train]

/-- A unit is in one state. -/
theorem State.unitIs_eq_false {s : State} {k : UnitKind} {p : Nat} {a b : SvcState} (h : s.unitIs k p a = true) (hab : a ≠ b) :
    s.unitIs k p b = false := by
  unfold State.unitIs at h ⊢
  split at h
  · exact decide_eq_false fun hb => hab ((of_decide_eq_true h).symm.trans hb)
  · exact absurd h (by simp)

/-- A port after parameter exchange, with the record of a port that comes up at width 2 (R395, R406). -/
def State.trained (port : Nat) (p : LinkParams) (s : State) : State :=
  let t := s.updPort port (Port.up p s.bt)
  let t : State := { t with link := { t.link with node := p.node } }
  if p.width = 2 then t.raise (faultUnit 0x10 5 .port port 0) else t

section
variable {s : State} {port : Nat} {p : LinkParams} (hp : port < 2) (ht : (s.port port).link = .training)
include hp ht

/-- Parameter exchange that ends well. -/
theorem exec_trainingEnd_of_credits (hw : p.width = 4 ∨ p.width = 2) (hc : linkCreditsOk p = true) :
    exec (.trainingEnd port p) s = .next
      (if (s.trained port p).unitIs .port port .closed then (s.trained port p).updUnit .port port fun u => { u with state := .returning }
      else if (s.trained port p).unitIs .port port .inService then (s.trained port p).portReady port
      else s.trained port p) := by
  refine congrArg Host.Outcome.next ?_
  have hport : (decide (2 ≤ port) || decide ((s.port port).link ≠ .training)) = false := by simp [ht, hp]
  have hwidth : (!linkCreditsOk p || (decide (p.width ≠ 4) && decide (p.width ≠ 2))) = false := by
    obtain hw | hw := hw <;> simp [hc, hw]
  simp only [hport, hwidth, Bool.false_eq_true, if_false]
  rfl

/-- Too little credit fails the attempt. -/
theorem exec_trainingEnd_of_noCredits (hc : linkCreditsOk p = false) :
    exec (.trainingEnd port p) s = .next (s.attemptFailed port) := by
  refine congrArg Host.Outcome.next ?_
  have hport : (decide (2 ≤ port) || decide ((s.port port).link ≠ .training)) = false := by simp [ht, hp]
  simp only [hport, hc, Bool.not_false, Bool.true_or, Bool.false_eq_true, if_false, if_true]

end

/-- What parameter exchange leaves as it was. -/
theorem State.trained_frame (port : Nat) (p : LinkParams) (s : State) :
    s.trained port p = { s with link := (s.trained port p).link, err := (s.trained port p).err } ∧
    (s.trained port p).link = { (s.updPort port (Port.up p s.bt)).link with node := p.node } ∧
    (p.width ≠ 2 → (s.trained port p).err = s.err) := by
  unfold State.trained
  split
  · next hw =>
    refine ⟨?_, ?_, fun h => absurd hw h⟩
    · rw [State.raise_only]
      rfl
    · exact State.raise_link _ _
  · exact ⟨rfl, rfl, fun _ => rfl⟩

/-- The port is UP, its sequence numbers and credits afresh. -/
theorem State.port_trained_same {s : State} {port : Nat} (p : LinkParams) (ht : (s.port port).link = .training) :
    (s.trained port p).port port = Port.up p s.bt (s.port port) := by
  rw [State.port, (s.trained_frame port p).2.1]
  exact State.port_updPort_same (Port.up p s.bt) (State.port_lt (by simp [ht]))

/-- The other port stays as it was. -/
theorem State.port_trained_other {port : Nat} (p : LinkParams) (s : State) :
    (s.trained port p).port (1 - port) = s.port (1 - port) := by
  rw [State.port, (s.trained_frame port p).2.1]
  exact s.port_updPort_ne (Port.up p s.bt) (other_port_ne port)

/-- Training does not move a unit. -/
theorem State.unitIs_trained (port : Nat) (p : LinkParams) (s : State) (k : UnitKind) (n : Nat) (st : SvcState) :
    (s.trained port p).unitIs k n st = s.unitIs k n st := by
  rw [(s.trained_frame port p).1]
  rfl

theorem linkCreditsOk_iff {p : LinkParams} (h : p.credits.length = 7) :
    linkCreditsOk p = true ↔ ∀ v ∈ [0, 1, 3, 4, 5, 6], 129 ≤ p.credits.getD v 0 := by
  simp [linkCreditsOk, h]

/-- A training that has taken 100 ms is a failed attempt. -/
theorem exec_trainingTimeout {s : State} {port : Nat} (ht : (s.port port).link = .training)
    (h : (s.port port).trainSince + 100000 ≤ s.bt) : exec (.trainingTimeout port) s = .next (s.attemptFailed port) := by
  have hel : s.elapsed (s.port port).trainSince 100000 = true := decide_eq_true h
  refine congrArg Host.Outcome.next ?_
  simp [ht, hel]

/-- The port after its third failed attempt. -/
def State.failTraining (port : Nat) (s : State) : State :=
  s.updPort port fun p => { p.drop with trainFailed := true, attempts := 0 }

/-- The third failed attempt closes a port that is in service. -/
theorem State.attemptFailed_third {s : State} {port : Nat} (ha : 2 ≤ (s.port port).attempts)
    (hu : s.unitIs .port port .inService = true) :
    s.attemptFailed port = (s.failTraining port).closeFault 0x10 .port port := by
  have hr : (s.failTraining port).unitIs .port port .returning = false := State.unitIs_eq_false (s := s) hu (by decide)
  have hc : (s.failTraining port).unitIs .port port .closed = false := State.unitIs_eq_false (s := s) hu (by decide)
  rw [State.attemptFailed, if_pos ha, State.trainingFailed]
  exact (if_neg (by simpa [State.failTraining] using hr)).trans (if_neg (by simpa [State.failTraining] using hc))

theorem exec_portRetry {s : State} (hu : ∀ u ∈ s.units, u.kind = .port → u.state ≠ .inService) (ha : s.linkAlive = true)
    (hr : s.link.lastRetry + 1000000 ≤ s.bt) :
    exec .portRetry s = .next { s with link := { s.link with
      ports := s.link.ports.map fun p => if p.link = .down then p.train s.bt else p, lastRetry := s.bt } } := by
  have hnone : (s.inService .port).isEmpty = true := by
    simpa [State.inService] using hu
  have hel : s.elapsed s.link.lastRetry 1000000 = true := decide_eq_true hr
  refine congrArg Host.Outcome.next ?_
  simp only [hnone, ha, hel, Bool.and_self, if_true]

/-- Settles O40. -/
theorem linksTrain : Obligations.LinksTrain := by
  unfold Obligations.LinksTrain
  refine ⟨?_, ?_, ?_, ?_⟩
  · intro s port hp ha hd hu hf
    exact exec_partnerDetected hp ha hd hu hf
  · intro s port p hp ht hw hlen
    refine ⟨fun hcr => ?_, fun ⟨v, hv, hlow⟩ => ?_⟩
    · have hok := (linkCreditsOk_iff hlen).mpr hcr
      obtain ⟨hframe, hlink, herr⟩ := s.trained_frame port p
      have hup := State.port_trained_same p ht
      refine ⟨s.trained port p, hframe, congrArg LinkBlock.node hlink, fun h => herr (by omega), ?_⟩
      simp only [hup, Port.up, true_and]
      refine ⟨s.port_trained_other p, fun hin => ?_, fun hcl => ?_⟩
      · rw [exec_trainingEnd_of_credits hp ht hw hok, State.unitIs_trained, State.unitIs_trained,
          State.unitIs_eq_false hin (b := .closed) (by decide), hin]
        rfl
      · rw [exec_trainingEnd_of_credits hp ht hw hok, State.unitIs_trained, hcl]
        rfl
    · refine exec_trainingEnd_of_noCredits hp ht (Bool.eq_false_iff.mpr fun hok => ?_)
      have := (linkCreditsOk_iff hlen).mp hok v hv
      omega
  · intro s port ht h
    rw [exec_trainingTimeout ht h]
    refine ⟨fun ha => congrArg _ (if_neg (Nat.not_le.mpr ha)), fun ha hu => ?_⟩
    have hsame := State.port_updPort_same (s := s) (n := port) (fun p => { p.drop with trainFailed := true, attempts := 0 })
      (State.port_lt (by simp [ht]))
    refine ⟨s.failTraining port, rfl, ?_, ?_, s.port_updPort_ne _ (other_port_ne port), congrArg _ (State.attemptFailed_third ha hu)⟩
    · rw [State.failTraining, hsame]
      rfl
    · rw [State.failTraining, hsame]
  · intro s hu ha hr
    exact ⟨_, exec_portRetry hu ha hr, rfl, rfl, rfl⟩

/-! ### Beacons (R410 to R413, R415, R416) -/

/-- The BSEQ of a flit follows the port's last one with a good CRC (R411). -/
def Port.bseqFollows (p : Port) (f : BeaconFlit) : Bool :=
  match p.bseq with
  | some q => f.bseq % 65536 = (q + 1) % 65536
  | none => true

theorem Port.bseqFollows_iff (p : Port) (f : BeaconFlit) :
    p.bseqFollows f = true ↔ ∀ q, p.bseq = some q → f.bseq % 65536 = (q + 1) % 65536 := by
  unfold Port.bseqFollows
  cases p.bseq <;> simp

/-- The flit's BSEQ is kept with its port. -/
def State.noteBseq (port : Nat) (f : BeaconFlit) (s : State) : State := s.updPort port fun p => { p with bseq := some (f.bseq % 65536) }

/-- A beacon that is not valid is counted, and breaks the run of the source that supplies. -/
def State.badBeacon (port : Nat) (s : State) : State :=
  (if s.beacon.supply = port then s.updBeacon fun b => { b with agree := 0 } else s).updBeacon fun b => { b with bad := sat16 (b.bad + 1) }

section
variable {s : State} {port : Nat} {f : BeaconFlit} (hp : port < 2) (hu : (s.port port).link = .up)
include hp hu

theorem exec_beacon_of_badCrc (hc : f.crcOk = false) :
    exec (.beacon port f) s = .next (s.updBeacon fun b => { b with bad := sat16 (b.bad + 1) }) := by
  refine congrArg Host.Outcome.next ?_
  simp [Nat.not_le.mpr hp, hu, hc]

/-- A flit with a good CRC, while a port may govern. -/
theorem exec_beacon_of_goodCrc (hc : f.crcOk = true) (hcfg : s.beacon.cfg ≠ 1) :
    exec (.beacon port f) s = .next
      (if f.refLocked && (s.port port).bseqFollows f then (s.noteBseq port f).linkBeacon port (f.tick + (s.port port).delay / 100)
      else (s.noteBseq port f).badBeacon port) := by
  refine congrArg Host.Outcome.next ?_
  have hport : (decide (2 ≤ port) || decide ((s.port port).link ≠ .up)) = false := by simp [hp, hu]
  simp only [hport, hc, Bool.not_true, Bool.false_eq_true, if_false, if_neg hcfg]
  rfl

end

theorem State.badBeacon_spec (port : Nat) (s : State) :
    s.badBeacon port = { s with beacon := (s.badBeacon port).beacon } ∧
    (s.badBeacon port).beacon.bad = sat16 (s.beacon.bad + 1) ∧ (s.badBeacon port).beacon.state = s.beacon.state ∧
    (s.badBeacon port).epoch = s.epoch := by
  unfold State.badBeacon
  split <;> exact ⟨rfl, rfl, rfl, rfl⟩

/-- The port's beacon has arrived, and the port supplies. -/
def State.governs (port : Nat) (s : State) : State :=
  (s.updPort port fun p => { p with beaconAt := some s.bt }).updBeacon fun b => { b with supply := port }

/-- A valid beacon of the port that supplies. -/
theorem State.linkBeacon_of_supply {s : State} {port : Nat} (tick : Nat) (hp : port < 2) (hs : s.beacon.supply = port) :
    s.linkBeacon port tick = (s.governs port).applyBeacon tick false := by
  have h2 : (decide (s.beacon.supply = 2) && s.supplying 2) = false := by simp [hs, Nat.ne_of_lt hp]
  simp only [State.linkBeacon, h2, Bool.false_eq_true, if_false]
  simp only [hs, ne_eq, not_true_eq_false, decide_false, Bool.and_false, Bool.false_and, Bool.false_eq_true, if_false, Nat.lt_irrefl]
  rfl

/-- The count that a run of agreeing beacons leads one to expect now. -/
def State.runTick (s : State) : Nat := s.beacon.agreeTick + (s.bt - s.beacon.agreeBt)

theorem State.runOf_of_agrees {s : State} {tick : Nat} (ha : 0 < s.beacon.agree) (hw : within1 tick s.runTick = true) :
    s.runOf tick = s.updBeacon fun b => { b with agree := b.agree + 1, agreeTick := tick, agreeBt := s.bt } := by
  simp only [State.runTick] at hw
  simp [State.runOf, State.updBeacon, ha, hw]

theorem State.runOf_of_not_agrees {s : State} {tick : Nat} (h : s.beacon.agree = 0 ∨ within1 tick s.runTick = false) :
    s.runOf tick = s.updBeacon fun b => { b with agree := 1, agreeTick := tick, agreeBt := s.bt } := by
  simp only [State.runTick] at h
  obtain h | h := h <;> simp [State.runOf, State.updBeacon, h]

/-- A lock compares the epoch with the last checkpoint, which changes the translation layer alone. -/
theorem State.lock_eq (tick : Nat) (s : State) : ∃ q, s.lock tick = { s with
    ftl := q, beacon := { s.beacon with state := .locked, tick := tick, tickBt := s.bt, lastValid := s.bt, agree := 0 } } := by
  unfold State.lock State.compareEpoch
  split <;> exact ⟨_, rfl⟩

/-- After a lock the time base is LOCKED from now on, and the epoch is the beacon's count. -/
theorem State.lock_spec (tick : Nat) (s : State) :
    (s.lock tick).beacon.state = .locked ∧ (s.lock tick).epoch = tick ∧ (s.lock tick).beacon.lastValid = s.bt ∧
      (s.lock tick).beacon.supply = s.beacon.supply ∧ (s.lock tick).beacon.relocks = s.beacon.relocks ∧ (s.lock tick).err = s.err := by
  obtain ⟨q, h⟩ := s.lock_eq tick
  have hepoch : tick + (s.bt - s.bt) = tick := by omega
  rw [h]
  exact ⟨rfl, hepoch, rfl, rfl, rfl, rfl⟩

/-- A beacon joins a run, or starts its own: nothing else of the time base changes. -/
theorem State.runOf_spec (tick : Nat) (s : State) :
    (s.runOf tick).epoch = s.epoch ∧ (s.runOf tick).bt = s.bt ∧ (s.runOf tick).err = s.err ∧
      (s.runOf tick).beacon.state = s.beacon.state ∧ (s.runOf tick).beacon.supply = s.beacon.supply ∧
      (s.runOf tick).beacon.bad = s.beacon.bad ∧ (s.runOf tick).beacon.relocks = s.beacon.relocks :=
  ⟨rfl, rfl, rfl, rfl, rfl, rfl, rfl⟩

section
variable {s : State} {tick : Nat} {frame : Bool}

/-- In ACQUIRING or DEGRADED a beacon joins a run, and the third of a run or a frame of AUX_TIME locks. -/
theorem State.applyBeacon_of_unlocked (h : s.beacon.state = .acquiring ∨ s.beacon.state = .degraded) :
    s.applyBeacon tick frame = if frame || 3 ≤ (s.runOf tick).beacon.agree then (s.runOf tick).lock tick else s.runOf tick := by
  refine if_pos ?_
  simpa using h

/-- In LOCKED or HOLDOVER one within 1 BT of the epoch keeps the lock. -/
theorem State.applyBeacon_of_near (h : s.beacon.state = .locked ∨ s.beacon.state = .holdover) (hw : within1 tick s.epoch = true) :
    s.applyBeacon tick frame = s.updBeacon fun b => { b with state := .locked, lastValid := s.bt, agree := 0 } := by
  have hu : ¬((decide (s.beacon.state = .acquiring) || decide (s.beacon.state = .degraded)) = true) := by
    obtain h | h := h <;> simp [h]
  exact (if_neg hu).trans (if_pos hw)

/-- Another one is counted and joins a run, whose third relocks. -/
theorem State.applyBeacon_of_far (h : s.beacon.state = .locked ∨ s.beacon.state = .holdover) (hw : within1 tick s.epoch = false) :
    s.applyBeacon tick frame =
      (let t := (s.updBeacon fun b => { b with bad := sat16 (b.bad + 1) }).runOf tick
       if 3 ≤ t.beacon.agree then
         ((t.updBeacon fun b => { b with relocks := sat16 (b.relocks + 1) }).lock tick).raise (faultOf 0x12 5)
       else t) := by
  have hu : ¬((decide (s.beacon.state = .acquiring) || decide (s.beacon.state = .degraded)) = true) := by
    obtain h | h := h <;> simp [h]
  exact (if_neg hu).trans (if_neg (Bool.eq_false_iff.mp hw))

end

theorem within1_eq_true {a b : Nat} : within1 a b = true ↔ a ≤ b + 1 ∧ b ≤ a + 1 := by simp [within1]

theorem within1_eq_false {a b : Nat} : within1 a b = false ↔ b + 1 < a ∨ a + 1 < b := by
  rw [← Bool.not_eq_true, within1_eq_true]
  omega

/-- A beacon is counted that lies off the epoch. -/
def State.countBad (s : State) : State := s.updBeacon fun b => { b with bad := sat16 (b.bad + 1) }

/-- A relock is counted. -/
def State.countRelock (s : State) : State := s.updBeacon fun b => { b with relocks := sat16 (b.relocks + 1) }

section
variable {s : State} {tick : Nat}

/-- The third beacon of a run locks. -/
theorem State.applyBeacon_third (hst : s.beacon.state = .acquiring ∨ s.beacon.state = .degraded) (ha : 2 ≤ s.beacon.agree)
    (h1 : tick ≤ s.runTick + 1) (h2 : s.runTick ≤ tick + 1) :
    (s.applyBeacon tick false).beacon.state = .locked ∧ (s.applyBeacon tick false).epoch = tick ∧
      (s.applyBeacon tick false).beacon.lastValid = s.bt := by
  have hrun := State.runOf_of_agrees (s := s) (Nat.zero_lt_of_lt ha) (within1_eq_true.mpr ⟨h1, h2⟩)
  obtain ⟨hstate, hepoch, hvalid, -⟩ := (s.runOf tick).lock_spec tick
  rw [State.applyBeacon_of_unlocked hst, if_pos (by rw [hrun]; exact decide_eq_true (Nat.succ_le_succ ha))]
  exact ⟨hstate, hepoch, hvalid⟩

/-- A frame of AUX_TIME locks at once. -/
theorem State.applyBeacon_frame (hst : s.beacon.state = .acquiring ∨ s.beacon.state = .degraded) :
    (s.applyBeacon tick true).beacon.state = .locked ∧ (s.applyBeacon tick true).epoch = tick ∧
      (s.applyBeacon tick true).beacon.supply = s.beacon.supply := by
  obtain ⟨hstate, hepoch, -, hsup, -⟩ := (s.runOf tick).lock_spec tick
  rw [State.applyBeacon_of_unlocked hst, if_pos (by simp)]
  exact ⟨hstate, hepoch, hsup⟩

/-- The first of a run does not. -/
theorem State.applyBeacon_first (hst : s.beacon.state = .acquiring ∨ s.beacon.state = .degraded)
    (ha : s.beacon.agree = 0 ∨ s.runTick + 1 < tick ∨ tick + 1 < s.runTick) :
    (s.applyBeacon tick false).beacon.state = s.beacon.state ∧ (s.applyBeacon tick false).beacon.agree = 1 ∧
      (s.applyBeacon tick false).beacon.agreeTick = tick ∧ (s.applyBeacon tick false).epoch = s.epoch := by
  rw [State.applyBeacon_of_unlocked hst, State.runOf_of_not_agrees (ha.imp_right within1_eq_false.mpr),
    if_neg (by simp [State.updBeacon])]
  exact ⟨rfl, rfl, rfl, rfl⟩

variable (hst : s.beacon.state = .locked ∨ s.beacon.state = .holdover)
include hst

/-- A beacon by the epoch keeps the lock. -/
theorem State.applyBeacon_keeps (h1 : tick ≤ s.epoch + 1) (h2 : s.epoch ≤ tick + 1) :
    (s.applyBeacon tick false).beacon.state = .locked ∧ (s.applyBeacon tick false).epoch = s.epoch ∧
      (s.applyBeacon tick false).beacon.lastValid = s.bt ∧ (s.applyBeacon tick false).beacon.bad = s.beacon.bad := by
  rw [State.applyBeacon_of_near hst (within1_eq_true.mpr ⟨h1, h2⟩)]
  exact ⟨rfl, rfl, rfl, rfl⟩

/-- The first of a run off the epoch is ignored and counted. -/
theorem State.applyBeacon_ignored (hfar : s.epoch + 1 < tick ∨ tick + 1 < s.epoch)
    (ha : s.beacon.agree = 0 ∨ s.runTick + 1 < tick ∨ tick + 1 < s.runTick) :
    (s.applyBeacon tick false).beacon.state = s.beacon.state ∧ (s.applyBeacon tick false).epoch = s.epoch ∧
      (s.applyBeacon tick false).beacon.bad = sat16 (s.beacon.bad + 1) ∧ (s.applyBeacon tick false).err = s.err := by
  rw [State.applyBeacon_of_far hst (within1_eq_false.mpr hfar),
    State.runOf_of_not_agrees (s := s.updBeacon fun b => { b with bad := sat16 (b.bad + 1) }) (ha.imp_right within1_eq_false.mpr)]
  exact ⟨rfl, rfl, rfl, rfl⟩

/-- The third of a run off the epoch relocks, with one record. -/
theorem State.applyBeacon_relocks (hfar : s.epoch + 1 < tick ∨ tick + 1 < s.epoch) (ha : 2 ≤ s.beacon.agree)
    (h1 : tick ≤ s.runTick + 1) (h2 : s.runTick ≤ tick + 1) :
    (s.applyBeacon tick false).beacon.state = .locked ∧ (s.applyBeacon tick false).epoch = tick ∧
      (s.applyBeacon tick false).beacon.relocks = sat16 (s.beacon.relocks + 1) ∧
      ∃ u : State, u.err = s.err ∧ s.applyBeacon tick false = u.raise (faultOf 0x12 5) := by
  have hrun := State.runOf_of_agrees (s := s.countBad) (Nat.zero_lt_of_lt ha) (within1_eq_true.mpr ⟨h1, h2⟩)
  have hthird : 3 ≤ (s.countBad.runOf tick).beacon.agree := by
    rw [hrun]
    exact Nat.succ_le_succ ha
  have happly : s.applyBeacon tick false = ((s.countBad.runOf tick).countRelock.lock tick).raise (faultOf 0x12 5) :=
    (State.applyBeacon_of_far hst (within1_eq_false.mpr hfar)).trans (if_pos hthird)
  obtain ⟨hstate, hepoch, -, -, hrelocks, herr⟩ := (s.countBad.runOf tick).countRelock.lock_spec tick
  refine ⟨?_, ?_, ?_, _, herr, happly⟩
  · rw [happly, State.raise_beacon]
    exact hstate
  · rw [happly, State.raise_only]
    exact hepoch
  · rw [happly, State.raise_beacon]
    exact hrelocks

end

/-! ### Frames of AUX_TIME (R413) -/

/-- A frame of AUX_TIME follows the error-free one before it. -/
def State.auxFollows (tick : Nat) (s : State) : Bool :=
  match s.beacon.aux with
  | some a => tick = a.1 + 96 && s.bt < a.2 + 192
  | none => false

theorem State.auxFollows_iff (tick : Nat) (s : State) :
    s.auxFollows tick = true ↔ ∃ t0, s.beacon.aux = some (tick - 96, t0) ∧ 96 ≤ tick ∧ s.bt < t0 + 192 := by
  unfold State.auxFollows
  cases s.beacon.aux with
  | none => simp
  | some a =>
    obtain ⟨a, t0⟩ := a
    simp only [Bool.and_eq_true, decide_eq_true_eq, Option.some.injEq, Prod.mk.injEq]
    constructor
    · rintro ⟨rfl, h⟩
      exact ⟨t0, ⟨by omega, rfl⟩, by omega, h⟩
    · rintro ⟨t, ⟨ha, rfl⟩, h96, h⟩
      exact ⟨by omega, h⟩

/-- The reference that a frame sets. -/
def State.noteFrame (tick : Nat) (clean : Bool) (s : State) : State :=
  s.updBeacon fun b => { b with aux := if clean then some (tick, s.bt) else none }

theorem exec_auxTimeFrame {s : State} (tick : Nat) (clean : Bool) (hc : s.beacon.cfg ≠ 0) :
    exec (.auxTimeFrame tick clean) s = .next
      (if !(clean && s.auxFollows tick) then (s.noteFrame tick clean).updBeacon fun b => { b with bad := sat16 (b.bad + 1) }
      else if s.beacon.cfg = 2 && (s.supplying 0 || s.supplying 1) then (s.noteFrame tick clean).monitorBeacon tick
      else ((s.noteFrame tick clean).updBeacon fun b => { b with supply := 2 }).applyBeacon tick true) :=
  congrArg Host.Outcome.next (if_neg hc)

/-- Settles O43. -/
theorem beaconsSetTheTime : Obligations.BeaconsSetTheTime := by
  unfold Obligations.BeaconsSetTheTime
  refine ⟨fun s port f hp hu => ?_, fun s tick clean hc => ?_⟩
  · intro tick near follows
    have hfollows : (s.port port).bseqFollows f = true ↔ follows := (s.port port).bseqFollows_iff f
    refine ⟨fun hcrc => exec_beacon_of_badCrc hp hu hcrc, fun hcrc hcfg hbad => ?_, fun hcrc hcfg href hfol hsup => ?_⟩
    · have hcond : (f.refLocked && (s.port port).bseqFollows f) = false := by
        obtain h | h := hbad
        · simp [h]
        · simp [Bool.eq_false_iff.mpr ((not_congr hfollows).mpr h)]
      obtain ⟨hframe, hbad, hstate, hepoch⟩ := (s.noteBseq port f).badBeacon_spec port
      refine ⟨_, exec_beacon_of_goodCrc hp hu hcrc hcfg, ?_⟩
      rw [hcond]
      refine ⟨?_, hbad, hstate, hepoch⟩
      simp only [Bool.false_eq_true, if_false]
      rw [hframe]
      rfl
    · have hexec : exec (.beacon port f) s = .next (((s.noteBseq port f).governs port).applyBeacon tick false) := by
        rw [exec_beacon_of_goodCrc hp hu hcrc hcfg, href, hfollows.mpr hfol]
        exact congrArg _ (State.linkBeacon_of_supply tick hp hsup)
      rw [hexec]
      exact ⟨fun hst => ⟨fun ha h1 h2 => ⟨_, rfl, State.applyBeacon_third (s := (s.noteBseq port f).governs port) hst ha h1 h2⟩,
          fun ha => ⟨_, rfl, State.applyBeacon_first (s := (s.noteBseq port f).governs port) hst ha⟩⟩,
        fun hst => ⟨fun h1 h2 => ⟨_, rfl, State.applyBeacon_keeps (s := (s.noteBseq port f).governs port) hst h1 h2⟩,
          fun hfar => ⟨fun ha => ⟨_, rfl, State.applyBeacon_ignored (s := (s.noteBseq port f).governs port) hst hfar ha⟩,
            fun ha h1 h2 => ⟨_, rfl, State.applyBeacon_relocks (s := (s.noteBseq port f).governs port) hst hfar ha h1 h2⟩⟩⟩⟩
  · intro follows
    have hfollows : s.auxFollows tick = true ↔ follows := s.auxFollows_iff tick
    refine ⟨fun hbad => ⟨_, exec_auxTimeFrame tick clean hc, ?_⟩, fun hclean hfol hcfg hst => ⟨_, exec_auxTimeFrame tick clean hc, ?_⟩⟩
    · rw [if_pos (by
        obtain h | h := hbad
        · simp [h]
        · simp [Bool.eq_false_iff.mpr ((not_congr hfollows).mpr h)])]
      exact ⟨rfl, rfl, rfl, rfl⟩
    · rw [if_neg (by simp [hclean, hfollows.mpr hfol]), if_neg (by simp [hcfg])]
      exact State.applyBeacon_frame (s := (s.noteFrame tick clean).updBeacon fun b => { b with supply := 2 }) hst

/-! ### Holdover, degradation and source checks (R411, R414, R415, R418, R529) -/

/-- The source that supplies is rejected as though lost (R414). -/
def State.rejectSource (s : State) : State :=
  let t := s.updBeacon fun b => { b with checked := s.bt }
  let t := if s.beacon.supply < 2 then t.updPort s.beacon.supply fun p => { p with beaconAt := none } else t
  t.updBeacon fun b => { b with
    supply := 3, agree := 0, rejected := sat16 (b.rejected + 1), aux := if b.supply = 2 then none else b.aux }

theorem exec_beaconSourceCheck {s : State} {ppm : Int} (hc : s.beacon.checked + 65536 ≤ s.bt) (hs : s.beacon.supply < 3) :
    exec (.beaconSourceCheck ppm) s = .next
      (if ppm.natAbs ≤ 100 then s.updBeacon fun b => { b with checked := s.bt } else s.rejectSource.raise (faultOf 0x12 5)) := by
  have hcond : (!s.elapsed s.beacon.checked 65536 || decide (3 ≤ s.beacon.supply)) = false := by
    simpa [State.elapsed, hc] using hs
  refine congrArg Host.Outcome.next ?_
  simp only [hcond, Bool.false_eq_true, if_false]
  rfl

/-- A rejected source supplies no more. -/
theorem State.supplying_rejectSource {s : State} (hs : s.beacon.supply < 3) : s.rejectSource.supplying s.beacon.supply = false := by
  by_cases h2 : s.beacon.supply = 2
  · simp [State.supplying, State.rejectSource, State.updBeacon, h2]
  · have hport : (s.rejectSource.port s.beacon.supply).beaconAt = none := by
      have hlt : s.beacon.supply < 2 := by omega
      simp only [State.rejectSource, if_pos hlt]
      by_cases hl : s.beacon.supply < s.link.ports.length
      · simp [State.port, State.updPort, State.updBeacon, updAt, hl]
      · simp [State.port, State.updPort, State.updBeacon, updAt, hl]
    rw [State.supplying, if_neg h2, hport]
    simp

theorem State.rejectSource_spec (s : State) :
    s.rejectSource = { s with beacon := s.rejectSource.beacon, link := s.rejectSource.link } ∧
      s.rejectSource.beacon.supply = 3 ∧ s.rejectSource.beacon.rejected = sat16 (s.beacon.rejected + 1) ∧
      s.rejectSource.beacon.state = s.beacon.state := by
  unfold State.rejectSource
  split <;> exact ⟨rfl, rfl, rfl, rfl⟩

/-- What ECHO does at a port. -/
def Port.echo (bcnCycle : Nat) (p : Port) : Port :=
  match p.link with
  | .up => p.sendEcho bcnCycle
  | .retraining => { p with echoDue := true }
  | _ => p

theorem exec_echo {s : State} (h : s.link.lastEcho + 1000000 ≤ s.bt) :
    exec .echo s = .next { s with link := { s.link with ports := s.link.ports.map (Port.echo (s.clk.cycle / 6)), lastEcho := s.bt } } := by
  have hel : s.elapsed s.link.lastEcho 1000000 = true := decide_eq_true h
  exact congrArg Host.Outcome.next (if_pos hel)

theorem Port.echo_spec (n : Nat) (p : Port) :
    (p.link = .up → (p.echo n).echoAt = some n) ∧ (p.link = .retraining → (p.echo n).echoDue = true) ∧
      (p.link = .down ∨ p.link = .training → p.echo n = p) := by
  refine ⟨fun h => ?_, fun h => ?_, ?_⟩
  · simp [Port.echo, h, Port.sendEcho]
  · simp [Port.echo, h]
  · rintro (h | h) <;> simp [Port.echo, h]

/-- Settles O44. -/
theorem theTimeBaseIsWatched : Obligations.TheTimeBaseIsWatched := by
  unfold Obligations.TheTimeBaseIsWatched
  refine ⟨fun s hs hv => ?_, fun s hs hv => ?_, fun s ppm hc hs => ?_, fun s he => ?_, fun s port arrival turn t0 ht => ?_,
    fun s hc hp => ?_⟩
  · exact congrArg Host.Outcome.next (if_pos (by simpa [hs, State.elapsed] using hv))
  · exact congrArg Host.Outcome.next (if_pos (by simpa [hs, State.elapsed] using hv))
  · rw [exec_beaconSourceCheck hc hs]
    obtain ⟨hframe, hsup, hrej, hstate⟩ := s.rejectSource_spec
    refine ⟨fun h1 h2 => congrArg _ (if_pos (by omega)), fun h => ⟨s.rejectSource, congrArg _ (if_neg (by omega)), hframe, hsup, hrej, hstate,
      State.supplying_rejectSource hs⟩⟩
  · refine ⟨_, exec_echo he, rfl, rfl, fun p hp => ?_⟩
    have hport : ({ s with link := { s.link with ports := s.link.ports.map (Port.echo (s.clk.cycle / 6)), lastEcho := s.bt } } :
        State).port p = (s.port p).echo (s.clk.cycle / 6) := by
      simp [State.port, hp]
    rw [hport]
    exact (s.port p).echo_spec (s.clk.cycle / 6)
  · refine congrArg Host.Outcome.next ?_
    simp only [ht]
  · refine ⟨fun h => congrArg Host.Outcome.next (if_pos ?_), fun h => congrArg Host.Outcome.next (if_neg ?_)⟩
    · simp [hc, hp, h]
    · simp [h]

end Sys2Proof.Machine
end

section
/-! PROOF. What work on the flash array leaves unchanged: the queues of the dies, open units, stores and reclamation (chapters 12
and 13). -/
namespace Sys2Proof.Machine

/-! ### Die operations that are queued (R335, R339) -/

/-- What an operation keeps from its queueing to its end. -/
def DieOp.core (o : DieOp) : DieOpKind × DieOpOwner × DiePrio × Die × Nat × Nat :=
  (o.kind, o.owner, o.prio, o.die, o.unit, o.page)

/-- The operations of a list, but for their progress. -/
def cores (ops : List DieOp) : List (DieOpKind × DieOpOwner × DiePrio × Die × Nat × Nat) := ops.map DieOp.core

theorem cores_updWhere {f : DieOp → DieOp} (hf : ∀ o, (f o).core = o.core) (p : DieOp → Bool) (ops : List DieOp) :
    cores (updWhere p f ops) = cores ops := by
  simp only [cores, updWhere, List.map_map]
  refine List.map_congr_left fun o _ => ?_
  simp only [Function.comp_apply]
  split
  · exact hf o
  · rfl

theorem cores_updAt {f : DieOp → DieOp} (hf : ∀ o, (f o).core = o.core) (i : Nat) (ops : List DieOp) :
    cores (updAt i f ops) = cores ops := by
  refine List.ext_getElem? fun k => ?_
  simp only [cores, updAt, List.getElem?_map, List.getElem?_modify]
  split
  · cases ops[k]? with
    | none => rfl
    | some o => exact congrArg some (hf o)
  · simp

theorem cores_issueOne (budget : Nat) (slcOf legal : DieOp → Bool) (i : Nat) (ops : List DieOp) :
    cores (issueOne budget slcOf legal i ops) = cores ops := by
  have hgo := cores_updAt (f := fun q => { q with st := .running }) (fun _ => rfl) i ops
  unfold issueOne
  split
  · rfl
  · dsimp only
    split
    · split
      · exact hgo
      · rfl
    · split
      · exact hgo
      · rfl

theorem cores_issuePrio (budget : Nat) (slcOf legal : DieOp → Bool) (p : DiePrio) (ops : List DieOp) :
    cores (issuePrio budget slcOf legal p ops) = cores ops := by
  unfold issuePrio
  refine List.foldlRecOn (motive := fun l => cores l = cores ops) _ _ rfl fun l hl i _ => ?_
  split
  · split
    · exact (cores_issueOne budget slcOf legal i l).trans hl
    · exact hl
  · exact hl

/-- The suspends of operations are counted on their channels. -/
def State.countSuspends (l : List DieOp) (s : State) : State :=
  l.foldl (fun u o => u.updChannel o.die.channel fun k => { k with suspends := k.suspends + 1 }) s

/-- Changing the counters of channels leaves the operations of the dies as they are given. -/
theorem State.countSuspends_eq (l ops : List DieOp) (s : State) :
    ∃ q, State.countSuspends l { s with flash := { s.flash with ops := ops } } =
      { s with flash := { s.flash with ops := ops, channels := q } } := by
  refine List.foldlRecOn
    (motive := fun t : State => ∃ q, t = { s with flash := { s.flash with ops := ops, channels := q } }) _ _ ⟨s.flash.channels, rfl⟩ ?_
  rintro _ ⟨q, rfl⟩ o _
  exact ⟨_, rfl⟩

theorem cores_suspendOps (ops : List DieOp) (slcOf : DieOp → Bool) : cores (suspendOps ops slcOf) = cores ops :=
  cores_updWhere (f := fun o => { o with st := .suspending }) (fun _ => rfl) _ ops

/-- The priorities of R339 in their grant order. -/
def grantOrder : List DiePrio := [.dusk, .urgent, .read, .foreground, .background]

/-- A program may be issued: its page is the next of its unit, and the unit is not blank unchecked (R333). -/
def State.programLegal (s : State) (o : DieOp) : Bool :=
  o.kind ≠ .program ||
    (let e := s.eunit o.die o.unit
     e.admits o.page && (e.state ≠ .free || e.blankOk))

/-- The operations of the dies after one suspend, resume and issue in the grant order. -/
def State.issuedOps (s : State) : List DieOp :=
  grantOrder.foldl (fun l p => issuePrio (s.tokenLimit p) (fun o => (s.eunit o.die o.unit).slc) s.programLegal p l)
    (suspendOps s.flash.ops fun o => (s.eunit o.die o.unit).slc)

theorem State.cores_issuedOps (s : State) : cores s.issuedOps = cores s.flash.ops :=
  List.foldlRecOn (motive := fun l => cores l = cores s.flash.ops) grantOrder _ (cores_suspendOps _ _) fun l hl p _ =>
    (cores_issuePrio (s.tokenLimit p) _ _ p l).trans hl

theorem State.pumpFlash_issuedOps (s : State) : s.pumpFlash = State.countSuspends
    (s.flash.ops.filter fun o => o.suspendable && readWaits s.flash.ops (fun o => (s.eunit o.die o.unit).slc) o.die)
    { s with flash := { s.flash with ops := s.issuedOps } } := by
  unfold State.pumpFlash State.issuedOps State.programLegal grantOrder
  rfl

/-- Suspending, resuming and issuing changes the progress of operations and counters of channels alone. -/
theorem State.pumpFlash_eq (s : State) : ∃ ops q, s.pumpFlash = { s with flash := { s.flash with ops := ops, channels := q } } ∧
    cores ops = cores s.flash.ops := by
  rw [State.pumpFlash_issuedOps]
  obtain ⟨q, hq⟩ := State.countSuspends_eq
    (s.flash.ops.filter fun o => o.suspendable && readWaits s.flash.ops (fun o => (s.eunit o.die o.unit).slc) o.die) s.issuedOps s
  exact ⟨s.issuedOps, q, hq, s.cores_issuedOps⟩

/-- A queued operation joins those of the dies; nothing else changes but their progress and counters of channels. -/
theorem State.queueOp_eq (o : DieOp) (s : State) : ∃ ops q, s.queueOp o = { s with flash := { s.flash with ops := ops, channels := q } } ∧
    cores ops = cores s.flash.ops ++ [o.core] := by
  obtain ⟨ops, q, h, hc⟩ := State.pumpFlash_eq
    { s with flash := { s.flash with ops := s.flash.ops ++ [{ o with engine := s.engineFor o.die.channel }] } }
  exact ⟨ops, q, h, hc.trans (by simp [cores, DieOp.core])⟩

/-! ### What work on the array leaves as it is -/

/-- Work on the flash array: outside the array, its translation and the next free choice nothing changes, and the background window
stays as it was set. -/
structure FlashWork (s t : State) : Prop where
  rest : t = { s with flash := t.flash, ftl := t.ftl, free := t.free }
  nextWindow : t.ftl.nextWindow = s.ftl.nextWindow
  windowEnd : t.ftl.windowEnd = s.ftl.windowEnd

theorem FlashWork.refl (s : State) : FlashWork s s := ⟨rfl, rfl, rfl⟩

theorem FlashWork.trans {s t u : State} (h : FlashWork s t) (k : FlashWork t u) : FlashWork s u :=
  ⟨k.rest.trans (by rw [h.rest]), k.nextWindow.trans h.nextWindow, k.windowEnd.trans h.windowEnd⟩

theorem FlashWork.foldl {α : Type} {f : State → α → State} (hf : ∀ t a, FlashWork t (f t a)) (l : List α) (s : State) :
    FlashWork s (l.foldl f s) :=
  List.foldlRecOn (motive := fun t => FlashWork s t) l f (.refl s) fun t ht a _ => ht.trans (hf t a)

/-- A choice between two ways of working on the array. -/
theorem FlashWork.ite {p : Prop} [Decidable p] {s t u : State} (h : FlashWork s t) (k : FlashWork s u) :
    FlashWork s (if p then t else u) := by
  split
  · exact h
  · exact k

/-- Work that an optional value asks for. -/
theorem FlashWork.option {α : Type} {s t : State} (h : FlashWork s t) {f : α → State} (hf : ∀ a, FlashWork s (f a)) (o : Option α) :
    FlashWork s (match o with | none => t | some a => f a) := by
  cases o with
  | none => exact h
  | some a => exact hf a

/-- Changing the array alone is such work. -/
theorem FlashWork.array (s : State) (f : Flash) : FlashWork s { s with flash := f } := ⟨rfl, rfl, rfl⟩

/-- Changing the translation alone is such work where the background window stays. -/
theorem FlashWork.translation (s : State) (f : Ftl) (hn : f.nextWindow = s.ftl.nextWindow) (he : f.windowEnd = s.ftl.windowEnd) :
    FlashWork s { s with ftl := f } := ⟨rfl, hn, he⟩

theorem State.updEunit_work (d : Die) (u : Nat) (f : EraseUnit → EraseUnit) (s : State) : FlashWork s (s.updEunit d u f) := ⟨rfl, rfl, rfl⟩

theorem State.updChannel_work (c : Nat) (f : ChannelCnt → ChannelCnt) (s : State) : FlashWork s (s.updChannel c f) := ⟨rfl, rfl, rfl⟩

theorem State.pumpFlash_work (s : State) : FlashWork s s.pumpFlash := by
  obtain ⟨ops, q, h, -⟩ := s.pumpFlash_eq
  rw [h]
  exact ⟨rfl, rfl, rfl⟩

theorem State.queueOp_work (o : DieOp) (s : State) : FlashWork s (s.queueOp o) :=
  (FlashWork.array s _).trans (State.pumpFlash_work _)

theorem State.queueBlank_work (prio : DiePrio) (d : Die) (e : EraseUnit) (s : State) : FlashWork s (s.queueBlank prio d e) :=
  .ite (.foldl (fun _ _ => State.queueOp_work _ _) _ _) (.refl s)

theorem State.markUrgent_work (s : State) : FlashWork s s.markUrgent :=
  .ite (((FlashWork.foldl (fun _ _ => State.updChannel_work _ _ _) _ _).trans (.array _ _)).trans (State.pumpFlash_work _)) (.refl s)

theorem State.queueJournal_work (seq : Nat) (s : State) : FlashWork s (s.queueJournal seq) := by
  refine FlashWork.foldl (fun t r => ?_) _ _
  split
  · exact .refl t
  · exact (State.queueBlank_work _ _ _ t).trans (State.queueOp_work _ _)

theorem State.journal_work (typ : JournalType) (slc : Bool) (d : Die) (u : Nat) (s : State) : FlashWork s (s.journal typ slc d u) :=
  (FlashWork.array s _).trans (State.queueJournal_work _ _)

theorem State.startErase_work (owner : DieOpOwner) (role : UnitRole) (slc : Bool) (d : Die) (u : Nat) (s : State) :
    FlashWork s (s.startErase owner role slc d u) :=
  (((State.updEunit_work _ _ _ s).trans (State.queueOp_work _ _)).trans (State.journal_work _ _ _ _ _)).trans (State.markUrgent_work _)

/-! ### Open units and stores -/

theorem State.updSet_work (gen : Nat) (f : OpenSet → OpenSet) (s : State) : FlashWork s (s.updSet gen f) := ⟨rfl, rfl, rfl⟩

theorem State.takeFree_work (s : State) : FlashWork s s.takeFree.2 := ⟨rfl, rfl, rfl⟩

theorem State.setMap_work (lun v : Nat) (s : State) : FlashWork s (s.setMap lun v) := ⟨rfl, rfl, rfl⟩

theorem State.unbindUnit_work (die unit : Nat) (s : State) : FlashWork s (s.unbindUnit die unit) := ⟨rfl, rfl, rfl⟩

theorem State.bindUnit_work (die unit : Nat) (s : State) : FlashWork s (s.bindUnit die unit) := by
  unfold State.bindUnit
  split
  · exact .refl s
  · split
    · exact .refl s
    · exact ⟨rfl, rfl, rfl⟩

theorem State.openSet_work (g st : Nat) (slc : Bool) (s : State) : FlashWork s (s.openSet g st slc) := by
  refine .ite (.refl s) (.trans (t := List.foldl _ s _) ?_ ⟨rfl, rfl, rfl⟩)
  exact FlashWork.foldl (fun _ _ => (State.updEunit_work _ _ _ _).trans (State.bindUnit_work _ _ _)) _ _

theorem State.readySet_work (g st : Nat) (slc : Bool) (s : State) : FlashWork s (s.readySet g st slc) := by
  unfold State.readySet
  split
  · exact State.openSet_work _ _ _ s
  · exact .ite ((State.updSet_work _ _ s).trans (State.openSet_work _ _ _ _)) (.refl s)

theorem State.queuePage_work (prio : DiePrio) (owner : DieOpOwner) (img : PageImage) (e : EraseUnit) (s : State) :
    FlashWork s (s.queuePage prio owner img e).2 :=
  (State.queueBlank_work _ _ _ s).trans (State.queueOp_work _ _)

theorem State.flushPart_work (prio : DiePrio) (gen : Nat) (s : State) : FlashWork s (s.flushPart prio gen) := by
  unfold State.flushPart
  split
  · exact .refl s
  · split
    · exact .refl s
    · exact (State.queuePage_work _ _ _ _ s).trans (State.updSet_work _ _ _)

theorem State.placePage_work (prio : DiePrio) (g st : Nat) (slc : Bool) (owner : DieOpOwner) (img : PageImage) (s : State) :
    FlashWork s (s.placePage prio g st slc owner img).2 := by
  have hready := State.readySet_work g st slc s
  unfold State.placePage
  dsimp only
  split
  · exact hready
  · next o _ =>
    have hflushed := hready.trans (.ite (p := ((s.readySet g st slc).member? o).isNone = true)
      (State.flushPart_work prio o.gen (s.readySet g st slc)) (.refl _))
    split
    · exact hflushed
    · exact hflushed.trans (State.queuePage_work _ _ _ _ _)

theorem State.pack_work (prio : DiePrio) (gen id : Nat) (metas : List SectorMeta) (bs : Bytes) (fuel : Nat) (s : State) :
    FlashWork s (s.pack prio gen id metas bs fuel).2 := by
  induction fuel generalizing s with
  | zero => exact .refl s
  | succ fuel ih =>
    unfold State.pack
    split
    · exact .refl s
    · dsimp only
      split
      · exact .refl s
      · split
        · exact (State.updSet_work _ _ s).trans (.ite (State.flushPart_work _ _ _) (.refl _))
        · split
          · exact ((State.updSet_work _ _ s).trans (State.flushPart_work _ _ _)).trans (State.updSet_work _ _ _)
          · exact (State.flushPart_work _ _ s).trans (ih _)

theorem State.placeUnit_work (prio : DiePrio) (g st : Nat) (slc : Bool) (id lun wseq : Nat) (bs : Bytes) (packed : Bool) (s : State) :
    FlashWork s (s.placeUnit prio g st slc id lun wseq bs packed).2 := by
  have hready := State.readySet_work g st slc s
  unfold State.placeUnit
  extract_lets t k cs raw
  split
  · exact hready
  · split
    · exact hready.trans (State.pack_work _ _ _ _ _ _ _)
    · exact hready.trans (State.placePage_work _ _ _ _ _ _ _)

/-- Where a unit sent to the array is placed. -/
def State.sendPlace (prio : DiePrio) (item : StoreItem) (g st : Nat) (slc : Bool) (lun : Nat) (bs : Bytes) (packed : Bool) (s : State) :
    List StoreSlot × State :=
  match item with
  | .maps ms _ _ => s.placePage prio g st slc (.store [s.ftl.nextStore]) (mapImage ms bs s.ftl.wseq)
  | _ => s.placeUnit prio g st slc s.ftl.nextStore lun s.ftl.wseq bs packed

theorem State.sendPlace_work (prio : DiePrio) (item : StoreItem) (g st : Nat) (slc : Bool) (lun : Nat) (bs : Bytes) (packed : Bool)
    (s : State) : FlashWork s (s.sendPlace prio item g st slc lun bs packed).2 := by
  unfold State.sendPlace
  split
  · exact State.placePage_work _ _ _ _ _ _ s
  · exact State.placeUnit_work _ _ _ _ _ _ _ _ _ s

/-- The record of a unit sent to the array. -/
def State.sendRecord (item : StoreItem) (g lun : Nat) (bs : Bytes) (slots : List StoreSlot) (s : State) : StoreRec :=
  { id := s.ftl.nextStore, item := item, lun := lun, group := g, data := match item with | .move _ => [] | _ => bs
    slots := slots, wseq := s.ftl.wseq }

/-- A unit is sent where it finds a place, and its record then joins the stores. -/
theorem State.sendUnit_cases (prio : DiePrio) (item : StoreItem) (g st : Nat) (slc : Bool) (lun : Nat) (bs : Bytes) (packed : Bool)
    (s : State) :
    let r := s.sendPlace prio item g st slc lun bs packed
    let q := s.sendRecord item g lun bs r.1
    (r.1 = [] ∧ s.sendUnit prio item g st slc lun bs packed = (none, r.2)) ∨
      (r.1 ≠ [] ∧ s.sendUnit prio item g st slc lun bs packed = (some q, { r.2 with ftl := { r.2.ftl with
        nextStore := s.ftl.nextStore + 1, wseq := r.2.ftl.wseq + 1, stores := r.2.ftl.stores ++ [q] } })) := by
  dsimp only
  rcases hr : s.sendPlace prio item g st slc lun bs packed with ⟨slots, t⟩
  have hplace : s.sendUnit prio item g st slc lun bs packed = (if slots.isEmpty then (none, t)
      else (some (s.sendRecord item g lun bs slots), { t with ftl := { t.ftl with
        nextStore := s.ftl.nextStore + 1, wseq := t.ftl.wseq + 1, stores := t.ftl.stores ++ [s.sendRecord item g lun bs slots] } })) := by
    unfold State.sendPlace at hr
    unfold State.sendUnit State.sendRecord
    cases item <;> simp only [] at hr <;> simp only [hr]
  rw [hplace]
  cases slots with
  | nil => exact .inl ⟨rfl, rfl⟩
  | cons x xs => exact .inr ⟨List.cons_ne_nil x xs, rfl⟩

theorem State.sendUnit_work (prio : DiePrio) (item : StoreItem) (g st : Nat) (slc : Bool) (lun : Nat) (bs : Bytes) (packed : Bool)
    (s : State) : FlashWork s (s.sendUnit prio item g st slc lun bs packed).2 := by
  have hplace := State.sendPlace_work prio item g st slc lun bs packed s
  obtain ⟨-, h⟩ | ⟨-, h⟩ := State.sendUnit_cases prio item g st slc lun bs packed s
  · rw [h]
    exact hplace
  · rw [h]
    exact hplace.trans ⟨rfl, rfl, rfl⟩

theorem State.admitUnit_work (g : Nat) (s : State) : FlashWork s (s.admitUnit g) :=
  .ite ⟨rfl, rfl, rfl⟩ ⟨rfl, rfl, rfl⟩

theorem State.storeHost_work (item : StoreItem) (lun : Nat) (bs : Bytes) (s : State) : FlashWork s (s.storeHost item lun bs).2 := by
  unfold State.storeHost State.someGroup
  dsimp only
  split
  · exact ((State.takeFree_work s).trans (State.admitUnit_work _ _)).trans (State.sendUnit_work _ _ _ _ _ _ _ _ _)
  · exact State.takeFree_work s

theorem State.storeMove_work (prio : DiePrio) (g lun : Nat) (s : State) : FlashWork s (s.storeMove prio g lun) := by
  unfold State.storeMove
  split
  · exact .refl s
  · split
    · exact .refl s
    · exact .ite (State.sendUnit_work _ _ _ _ _ _ _ _ s) (State.sendUnit_work _ _ _ _ _ _ _ _ s)

/-! ### Closing, reclaiming, scans and checkpoints -/

theorem State.closeUnit_work (e : EraseUnit) (s : State) : FlashWork s (s.closeUnit e) :=
  .ite (State.updEunit_work _ _ _ s) (.ite ((State.updEunit_work _ _ _ s).trans (State.unbindUnit_work _ _ _)) (.refl s))

theorem State.closeSet_work (o : OpenSet) (s : State) : FlashWork s (s.closeSet o) := by
  have hflushed := State.flushPart_work .foreground o.gen s
  unfold State.closeSet
  dsimp only
  split
  · exact hflushed
  · split
    · exact (hflushed.trans (.foldl (fun t e => State.closeUnit_work e t) _ _)).trans ⟨rfl, rfl, rfl⟩
    · exact hflushed.trans (.foldl (fun t e => .foldl (fun t _ => State.queuePage_work _ _ _ _ t) _ t) _ _)

theorem State.closeSets_work (s : State) : FlashWork s s.closeSets := .foldl (fun t o => State.closeSet_work o t) _ s

theorem State.rejournal_work (ms : List Nat) (s : State) : FlashWork s (s.rejournal ms) := by
  unfold State.rejournal
  refine FlashWork.foldl (fun t m => ?_) ms s
  exact .translation t _ rfl rfl

theorem State.relocateUnit_work (prio : DiePrio) (e : EraseUnit) (s : State) : FlashWork s (s.relocateUnit prio e) :=
  ((FlashWork.foldl (fun t l => State.storeMove_work _ _ l t) _ s).trans (State.rejournal_work _ _)).trans (State.updEunit_work _ _ _ _)

theorem State.retryMoves_work (s : State) : FlashWork s s.retryMoves :=
  .foldl (fun t _ => .foldl (fun t l => State.storeMove_work _ _ l t) _ t) _ s

theorem State.eraseReclaimed_work (s : State) : FlashWork s s.eraseReclaimed := by
  refine FlashWork.foldl (fun t e => ?_) _ s
  have hunbound := State.unbindUnit_work (t.grade.dieIndex e.die) e.unit t
  exact .ite (hunbound.trans (State.updEunit_work _ _ _ _))
    ((hunbound.trans (State.updEunit_work _ _ _ _)).trans (State.startErase_work _ _ _ _ _ _))

theorem State.relocateOnce_work (prio : DiePrio) (e : EraseUnit) (s : State) : FlashWork s (s.relocateOnce prio e) :=
  .ite (.refl s) (.ite ((State.updSet_work _ _ s).trans (State.closeSets_work _))
    ((State.relocateUnit_work prio e s).trans (State.eraseReclaimed_work _)))

theorem State.reclaimDie_work (prio : DiePrio) (d : Die) (s : State) : FlashWork s (s.reclaimDie prio d) := by
  unfold State.reclaimDie
  split
  · exact .refl s
  · split
    · exact State.relocateOnce_work prio _ s
    · exact .refl s

theorem State.reclaimBackground_work (d : Die) (s : State) : FlashWork s (s.reclaimBackground d) := by
  unfold State.reclaimBackground
  extract_lets di f on rest q t
  have hlisted : FlashWork s t := .translation s _ rfl rfl
  exact .ite (hlisted.trans (State.reclaimDie_work _ _ _)) hlisted

theorem State.migrateDie_work (prio : DiePrio) (d : Die) (s : State) : FlashWork s (s.migrateDie prio d) := by
  unfold State.migrateDie
  split
  · exact State.relocateOnce_work prio _ s
  · exact .refl s

theorem State.fitRegion_work (d : Die) (s : State) : FlashWork s (s.fitRegion d) := by
  unfold State.fitRegion
  refine .ite (.refl s) (.ite ?_ (.ite ?_ (.refl s)))
  · split
    · exact State.startErase_work _ _ _ _ _ s
    · exact .refl s
  · split
    · exact State.startErase_work _ _ _ _ _ s
    · exact .refl s

theorem State.scanUnit_work (e : EraseUnit) (s : State) : FlashWork s (s.scanUnit e) :=
  (State.updEunit_work _ _ _ s).trans (.foldl (fun t _ => State.queueOp_work _ t) _ _)

theorem State.visitUnit_work (e : EraseUnit) (s : State) : FlashWork s (s.visitUnit e) :=
  (State.updEunit_work _ _ _ s).trans (.foldl (fun t _ => State.queueOp_work _ t) _ _)

theorem State.endPass_work (s : State) : FlashWork s s.endPass := by
  unfold State.endPass
  split
  · exact .refl s
  · exact .ite (.refl s) ⟨rfl, rfl, rfl⟩

theorem State.twoCopies_work (owner : DieOpOwner) (s : State) : FlashWork s (s.twoCopies owner) := by
  unfold State.twoCopies
  refine (FlashWork.translation s _ ?_ ?_).trans (.foldl (fun t _ => State.placePage_work _ _ _ _ _ _ t) _ _) <;> rfl

theorem State.checkpoint_work (s : State) : FlashWork s s.checkpoint := by
  unfold State.checkpoint
  refine (FlashWork.translation s _ ?_ ?_).trans (State.twoCopies_work _ _) <;> rfl

theorem State.levelWear_work (s : State) : FlashWork s s.levelWear := by
  unfold State.levelWear
  split
  · exact .refl s
  · split
    · exact .refl s
    · split
      · split
        · exact .refl s
        · refine (FlashWork.translation s _ ?_ ?_).trans (State.checkpoint_work _) <;> rfl
      · exact (FlashWork.ite (State.checkpoint_work s) (.refl s)).trans (State.relocateOnce_work _ _ _)

end Sys2Proof.Machine
end

section
/-! PROOF. Write-back, map journalling and background windows (R208 to R210, R345 to R349, R353, R355, R365), and the watch over the
holdup bank, temperatures and power (R37, R38, R206, R424, R430, R431, R443, R444). -/
namespace Sys2Proof.Machine

/-! ### The order of write-back (R210) -/

theorem insertItem_perm (x : DirtyItem) (l : List DirtyItem) : (insertItem x l).Perm (x :: l) := by
  induction l with
  | nil => exact .refl _
  | cons y ys ih =>
    unfold insertItem
    split
    · exact .refl _
    · exact (ih.cons y).trans (.swap x y ys)

/-- Oldest first. -/
def OldestFirst (l : List DirtyItem) : Prop := l.Pairwise fun x y => x.since ≤ y.since

theorem oldestFirst_insertItem (x : DirtyItem) {l : List DirtyItem} (h : OldestFirst l) : OldestFirst (insertItem x l) := by
  induction l with
  | nil => exact List.pairwise_singleton _ _
  | cons y ys ih =>
    obtain ⟨hy, hys⟩ := List.pairwise_cons.mp h
    unfold insertItem
    split
    · next hlt =>
      refine List.pairwise_cons.mpr ⟨fun z hz => ?_, h⟩
      rcases List.mem_cons.mp hz with rfl | hz
      · omega
      · exact Nat.le_trans (Nat.le_of_lt hlt) (hy z hz)
    · next hge =>
      refine List.pairwise_cons.mpr ⟨fun z hz => ?_, ih hys⟩
      rcases List.mem_cons.mp ((insertItem_perm x ys).mem_iff.mp hz) with rfl | hz
      · omega
      · exact hy z hz

/-- Items by age, every one of the list. -/
def byAge (l : List DirtyItem) : List DirtyItem := l.foldl (fun acc x => insertItem x acc) []

theorem oldestFirst_byAge (l : List DirtyItem) : OldestFirst (byAge l) :=
  List.foldlRecOn (motive := OldestFirst) l _ List.Pairwise.nil fun _ h x _ => oldestFirst_insertItem x h

theorem mem_foldl_insertItem {y : DirtyItem} (l acc : List DirtyItem) :
    y ∈ l.foldl (fun acc x => insertItem x acc) acc ↔ y ∈ l ∨ y ∈ acc := by
  induction l generalizing acc with
  | nil => simp
  | cons x xs ih =>
    rw [List.foldl_cons, ih, (insertItem_perm x acc).mem_iff]
    rw [List.mem_cons, List.mem_cons, or_left_comm, or_assoc]

theorem mem_byAge {y : DirtyItem} {l : List DirtyItem} : y ∈ byAge l ↔ y ∈ l := by
  rw [byAge, mem_foldl_insertItem]
  simp

theorem DirtyItem.same_self (x : DirtyItem) : x.same x = true := by
  cases x <;> simp [DirtyItem.same]

/-- Take an item unless the unit is there already. -/
def takeOnce (acc : List DirtyItem) (x : DirtyItem) : List DirtyItem := if acc.any (·.same x) then acc else acc ++ [x]

/-- What the items of `l`, each unit once, make of the list `acc`. -/
structure TakesOnce (l acc r : List DirtyItem) : Prop where
  sublist : r.Sublist (acc ++ l)
  covers : ∀ x ∈ acc ++ l, ∃ y ∈ r, y.same x = true
  once : (acc.Pairwise fun x y => x.same y = false) → r.Pairwise fun x y => x.same y = false

theorem takesOnce_foldl (l acc : List DirtyItem) : TakesOnce l acc (l.foldl takeOnce acc) := by
  induction l generalizing acc with
  | nil => exact ⟨by simp, fun x hx => ⟨x, by simpa using hx, x.same_self⟩, id⟩
  | cons x xs ih =>
    obtain ⟨hsub, hcov, honce⟩ := ih (takeOnce acc x)
    rw [List.foldl_cons]
    by_cases h : acc.any (·.same x) = true
    · have hacc : takeOnce acc x = acc := if_pos h
      rw [hacc] at hsub hcov honce ⊢
      refine ⟨hsub.trans (List.Sublist.append_left (List.sublist_cons_self x xs) acc), fun z hz => ?_, honce⟩
      rcases List.mem_append.mp hz with hz | hz
      · exact hcov z (List.mem_append_left _ hz)
      · rcases List.mem_cons.mp hz with rfl | hz
        · obtain ⟨y, hy, hsame⟩ := List.any_eq_true.mp h
          obtain ⟨w, hw, hws⟩ := hcov y (List.mem_append_left _ hy)
          exact ⟨w, hw, by
            revert hws hsame
            cases w <;> cases y <;> cases z <;> simp +contextual [DirtyItem.same]⟩
        · exact hcov z (List.mem_append_right _ hz)
    · have hacc : takeOnce acc x = acc ++ [x] := if_neg h
      rw [hacc, List.append_assoc] at hsub hcov
      rw [hacc] at honce ⊢
      refine ⟨hsub, hcov, fun hp => honce (List.pairwise_append.mpr ⟨hp, List.pairwise_singleton _ _, fun a ha b hb => ?_⟩)⟩
      rw [List.mem_singleton.mp hb]
      exact Bool.eq_false_iff.mpr fun hs => h (List.any_eq_true.mpr ⟨a, ha, hs⟩)

theorem sortItems_takesOnce (l : List DirtyItem) : TakesOnce (byAge l) [] (sortItems l) := takesOnce_foldl (byAge l) []

theorem pairwise_sortItems (l : List DirtyItem) :
    (sortItems l).Pairwise fun x y => x.since ≤ y.since ∧ x.same y = false :=
  ((oldestFirst_byAge l).sublist (by simpa using (sortItems_takesOnce l).sublist)).and
    ((sortItems_takesOnce l).once List.Pairwise.nil)

theorem mem_of_mem_sortItems {l : List DirtyItem} {x : DirtyItem} (h : x ∈ sortItems l) : x ∈ l :=
  mem_byAge.mp (by simpa using (sortItems_takesOnce l).sublist.subset h)

theorem exists_same_of_mem {l : List DirtyItem} {x : DirtyItem} (h : x ∈ l) : ∃ y ∈ sortItems l, y.same x = true :=
  (sortItems_takesOnce l).covers x (by simpa using mem_byAge.mpr h)

/-! ### Versions of objects -/

theorem State.version?_updVer {s : State} {id n : Nat} {v : Version} (h : s.version? id n = some v) {f : Version → Version}
    (hf : ∀ v, (f v).num = v.num) : (s.updVer id n f).version? id n = some (f v) := by
  unfold State.version? at h ⊢
  unfold State.updVer State.updObj
  dsimp only
  rw [find?_updWhere_key _ (fun o : Obj => o.updVer n f) fun _ => rfl]
  cases ho : s.tiers.objects.find? (·.id = id) with
  | none => simp [ho] at h
  | some o =>
    simp only [ho, Option.map_some, Obj.ver?, Obj.updVer] at h ⊢
    rw [find?_updWhere_key _ _ (fun v => by rw [hf]), h]
    rfl

/-! ### Map entries -/

theorem getPair_putPair_self {v : Nat} (hv : v ≠ 0) (k : Nat) (l : List (Nat × Nat)) : getPair k (putPair k v l) = v := by
  induction l with
  | nil => simp [putPair, hv, getPair]
  | cons p ps ih =>
    unfold putPair
    by_cases hlt : k < p.1
    · simp [hlt, hv, getPair]
    · by_cases heq : k = p.1
      · simp [heq, hv, getPair]
      · simp [hlt, heq, Ne.symm heq, getPair, ih]

theorem State.mapEntry_setMap_self {v : Nat} (hv : v ≠ 0) (lun : Nat) (s : State) : (s.setMap lun v).mapEntry lun = v :=
  getPair_putPair_self hv lun s.ftl.map

/-! ### Stores on their way to flash and what leaves D -/

/-- The mark of old dirty pages and blocks, before write-backs start. -/
def State.markOld (s : State) : State :=
  let old := fun since => s.elapsed since 1000000
  let age := fun v : Version =>
    { v with dirty := updWhere (fun d : DirtyPage => old d.since) (fun d => { d with writing := true }) v.dirty }
  { s with
    tiers := { s.tiers with objects := updWhere (fun o : Obj => o.durable) (fun o => { o with versions := o.versions.map age }) s.tiers.objects }
    block := { s.block with dirty := updWhere (fun b : DirtyBlock => old b.since) (fun b => { b with writing := true }) s.block.dirty } }

theorem exec_writebackAge (s : State) : exec .writebackAge s = .next s.markOld.issueStores := rfl

theorem State.markOld_blockDirty (s : State) : s.markOld.block.dirty =
    s.block.dirty.map fun b => if b.since + 1000000 ≤ s.bt then { b with writing := true } else b := by
  simp [State.markOld, updWhere, State.elapsed]

theorem State.markOld_objects (s : State) : s.markOld.tiers.objects = s.tiers.objects.map fun o =>
    if o.durable then { o with versions := o.versions.map fun v =>
      { v with dirty := v.dirty.map fun d => if d.since + 1000000 ≤ s.bt then { d with writing := true } else d } } else o := by
  simp [State.markOld, updWhere, State.elapsed]

/-- A unit stored through the HOST stream has a record with its slots, which joins the stores. -/
theorem State.storeHost_some {s : State} {item : StoreItem} {lun : Nat} {bs : Bytes} {q : StoreRec}
    (h : (s.storeHost item lun bs).1 = some q) :
    q.item = item ∧ q.lun = lun ∧ q.slots ≠ [] ∧ q ∈ (s.storeHost item lun bs).2.ftl.stores := by
  unfold State.storeHost at h ⊢
  dsimp only at h ⊢
  split at h
  · next hadmit =>
    rw [if_pos hadmit]
    obtain ⟨-, hsent⟩ | ⟨hslots, hsent⟩ := State.sendUnit_cases .foreground item s.someGroup.1 0
      (s.someGroup.2.hostSlc s.someGroup.1) lun bs false (s.someGroup.2.admitUnit s.someGroup.1)
    · rw [hsent] at h
      cases h
    · rw [hsent] at h ⊢
      cases h
      exact ⟨rfl, rfl, hslots, List.mem_append_right _ (List.mem_singleton_self _)⟩
  · cases h

theorem State.storePages_of_none {s : State} {id n u : Nat} {v : Version} (hv : s.version? id n = some v)
    (hf : s.inFlight (v.lun + u) = false)
    (h : (s.storeHost (.object id n u) (v.lun + u) (memRead v.data (u * 65536) 65536)).1 = none) :
    s.storePages id n u = (s.storeHost (.object id n u) (v.lun + u) (memRead v.data (u * 65536) 65536)).2 := by
  simp [State.storePages, hv, hf, h]

theorem State.storePages_of_some {s : State} {id n u : Nat} {v : Version} {q : StoreRec} (hv : s.version? id n = some v)
    (hf : s.inFlight (v.lun + u) = false)
    (h : (s.storeHost (.object id n u) (v.lun + u) (memRead v.data (u * 65536) 65536)).1 = some q) :
    s.storePages id n u = (s.storeHost (.object id n u) (v.lun + u) (memRead v.data (u * 65536) 65536)).2.updVer id n fun v =>
      { v with dirty := updWhere (fun d => d.page / 16 = u) (fun d => { d with store := some q.id }) v.dirty } := by
  simp [State.storePages, hv, hf, h]

theorem FlashWork.version? {s t : State} (h : FlashWork s t) (id n : Nat) : t.version? id n = s.version? id n := by
  rw [h.rest]
  rfl

theorem FlashWork.bt {s t : State} (h : FlashWork s t) : t.bt = s.bt := by
  rw [h.rest]
  rfl

theorem FlashWork.err {s t : State} (h : FlashWork s t) : t.err = s.err := by rw [h.rest]

theorem State.installStore_object {s : State} {r : StoreRec} {id n u : Nat} (hr : r.item = .object id n u) :
    s.installStore r = if (s.ownerOf? r.lun).isSome then s.setMap r.lun (s.storeLocation r) else s := by
  simp [State.installStore, hr]

/-- Waiting commands of a list of pages are told in turn: only the slots change. -/
theorem State.foldl_updFlushes_rest {α : Type} (f : State → α → FlushWork → FlushWork) (l : List α) (s : State) :
    ∃ slots, l.foldl (fun t a => t.updFlushes (f t a)) s = { s with atr := { s.atr with slots := slots } } :=
  List.foldlRecOn (motive := fun t : State => ∃ slots, t = { s with atr := { s.atr with slots := slots } }) l _
    ⟨s.atr.slots, rfl⟩ (by rintro _ ⟨slots, rfl⟩ a _; exact ⟨_, rfl⟩)

theorem State.retirePages_eq {s : State} {id n : Nat} {v : Version} (r : StoreRec) (hv : s.version? id n = some v) :
    ∃ slots, s.retirePages r id n =
      ({ s.updVer id n (fun v => { v with dirty := v.dirty.filter fun d => d.store ≠ some r.id }) with
        atr := { s.atr with slots := slots } } : State).earnCredit (v.dirty.filter fun d => d.store = some r.id).length := by
  unfold State.retirePages
  simp only [hv]
  obtain ⟨slots, hs⟩ := State.foldl_updFlushes_rest (fun t p => FlushWork.page (id, n, p) (t.dirtyMapOf r.lun))
    ((v.dirty.filter fun d => d.store = some r.id).map (·.page))
    (s.updVer id n fun v => { v with dirty := v.dirty.filter fun d => d.store ≠ some r.id })
  refine ⟨slots, ?_⟩
  rw [hs, List.length_map]
  rfl

theorem State.retireBlocks_ftl (p : DirtyBlock → Bool) (s : State) : (s.retireBlocks p).ftl = s.ftl := by
  unfold State.retireBlocks
  dsimp only
  obtain ⟨slots, hs⟩ := State.foldl_updFlushes_rest (fun t b => FlushWork.block b (t.dirtyMapOf (b / 16)))
    ((s.block.dirty.filter p).map (·.block)) { s with block := { s.block with dirty := s.block.dirty.filter fun d => !p d } }
  rw [hs]
  rfl

theorem State.retireMaps_dirtyMaps (r : StoreRec) (ms ats : List Nat) (es : List (Nat × Nat)) (s : State) :
    (s.retireMaps r ms es ats).ftl.dirtyMaps = s.ftl.dirtyMaps.filter fun d => d.store ≠ some r.id := by
  unfold State.retireMaps State.dropStores
  dsimp only
  rw [State.retireBlocks_ftl]
  obtain ⟨slots, hs⟩ := State.foldl_updFlushes_rest (fun _ m => FlushWork.map m)
    ((s.ftl.dirtyMaps.filter fun d => d.store = some r.id).map (·.page))
    { s with ftl := { s.ftl with
      dirtyMaps := s.ftl.dirtyMaps.filter fun d => d.store ≠ some r.id
      directory := (ms.mapIdx fun i m => (i, m)).foldl (fun l x => putPair x.2 (s.storeLocation r * 16 + x.1) l) s.ftl.directory
      flashMap := es.foldl (fun l e => putPair e.1 e.2 l) (s.ftl.flashMap.filter fun e => !ms.contains (e.1 / 1024)) } }
  rw [hs]
  rfl

theorem State.length_mapSlot_le (s : State) : s.mapSlot.length ≤ 16 := List.length_take_le _ _

theorem State.mem_mapSlot {s : State} {m : Nat} (h : m ∈ s.mapSlot) : ∃ d ∈ s.ftl.dirtyMaps, d.page = m ∧ d.store = none := by
  obtain ⟨d, hd, rfl⟩ := List.mem_map.mp (List.mem_of_mem_take h)
  obtain ⟨hd, hdue⟩ := List.mem_filter.mp hd
  simp only [Bool.and_eq_true, Option.isNone_iff_eq_none] at hdue
  exact ⟨d, hd, rfl, hdue.1⟩

/-! ### Background windows (R365, R449) -/

/-- The window that opens now. -/
def State.openWindow (s : State) : State := { s with ftl := { s.ftl with nextWindow := s.bt + 10000, windowEnd := s.bt + 2500 } }

/-- The work of a window on the array, before the DRAM patrol takes its share. -/
def State.windowWork (s : State) : State :=
  let t := s.listedDies.foldl (fun t d => ((t.reclaimBackground d).migrateDie .background d).fitRegion d) s.retryMoves
  let t := (t.flash.units.filter fun e => e.disturbLimit ≤ e.reads && !t.scanning e
    && (e.state = .closed || e.state = .verified || e.state = .opened)).foldl (fun t e => t.scanUnit e) t
  let t := t.retentionUnits.foldl (fun t e => t.visitUnit e) t
  t.endPass.levelWear

theorem State.windowWork_work (s : State) : FlashWork s s.windowWork := by
  unfold State.windowWork
  extract_lets t u w
  have ht : FlashWork s t := s.retryMoves_work.trans (.foldl (fun x d =>
    ((State.reclaimBackground_work d x).trans (State.migrateDie_work _ d _)).trans (State.fitRegion_work d _)) _ _)
  have hu : FlashWork t u := .foldl (fun x e => State.scanUnit_work e x) _ _
  have hw : FlashWork u w := .foldl (fun x e => State.visitUnit_work e x) _ _
  exact (((ht.trans hu).trans hw).trans w.endPass_work).trans (State.levelWear_work _)

theorem exec_backgroundWindow_early {s : State} (h : s.bt < s.ftl.nextWindow) : exec .backgroundWindow s = .next s :=
  congrArg Host.Outcome.next (if_pos (by simp [h]))

theorem exec_backgroundWindow_due {s : State} (hp : s.power.phase = .service) (h : s.ftl.nextWindow ≤ s.bt) :
    exec .backgroundWindow s = .next s.openWindow.windowWork.patrol.issueStores :=
  congrArg Host.Outcome.next (if_neg (by simp [hp, h]))

theorem State.patrol_patrolLines (s : State) : s.patrol.err.patrolLines =
    if s.err.patrolSince + 604800000000 ≤ s.bt then 1 else s.err.patrolLines + 1 := by
  simp only [State.patrol, State.elapsed, decide_eq_true_eq]
  split <;> rfl

/-! ### Verification (R354, R355) -/

/-- The codewords of a verification are counted. -/
def State.countVerified (d : Die) (u : Nat) (x : StageCounts) (s : State) : State :=
  s.updChannel d.channel fun k => { k with
    stage1 := k.stage1 + (16 * (s.eunit d u).n - (x.stage2 + x.stage3 + x.failed)), stage2 := k.stage2 + x.stage2
    stage3 := k.stage3 + x.stage3, uncorrectable := sat32 (k.uncorrectable + x.failed) }

/-- The read counter of a unit that has been read back. -/
def EraseUnit.verifiedReads (e : EraseUnit) : Nat := if e.disturbLimit ≤ e.reads then 0 else e.reads + e.n

theorem exec_verifyAfterClose {s : State} {d : Die} {u : Nat} (x : StageCounts) (hstate : (s.eunit d u).state = .closed)
    (hfail : (s.eunit d u).failing = false) (hwait : (s.eunit d u).waitMaps = none) (hpool : poolRole d u = none) :
    exec (.verifyAfterClose d u x) s = .next (if x.stage3 + x.failed = 0 then
        ((s.countVerified d u x).updEunit d u fun e => { e with state := .verified, reads := e.verifiedReads }).releaseParity.serveFlash
      else
        let t := (s.countVerified d u x).updEunit d u fun e =>
          { e with verifyFails := e.verifyFails + 1, failing := 1 ≤ e.verifyFails, reads := e.verifiedReads }
        t.relocateOnce .foreground (t.eunit d u)) :=
  congrArg Host.Outcome.next (if_neg (by simp [hstate, hfail, hwait, hpool]))

/-- Settles O48, clause by clause: what is marked, sorted, stored, installed and retired, and what a window and a verification do. -/
theorem writeBackReachesFlash : Obligations.WriteBackReachesFlash := by
  refine ⟨fun s => ⟨s.markOld, exec_writebackAge s, rfl, s.markOld_blockDirty, s.markOld_objects⟩,
    fun l => ⟨fun x => mem_of_mem_sortItems, fun x => exists_same_of_mem, pairwise_sortItems l⟩,
    fun s id n u v hv hf => ⟨State.storePages_of_none hv hf, fun q hq => ?_⟩,
    fun s r id n u hr hl => ⟨fun ho => ?_, fun ho => ?_⟩, fun s n hs => ?_, fun s r id n v hv => ?_,
    fun s hs hh hm => ⟨s.length_mapSlot_le, fun m => State.mem_mapSlot, ?_⟩,
    fun s r ms ats es => s.retireMaps_dirtyMaps r ms ats es,
    fun s hp => ⟨exec_backgroundWindow_early, fun h => ⟨s.openWindow.windowWork, exec_backgroundWindow_due hp h, ?_⟩⟩,
    fun s d u s2 s3 f hstate hfail hwait hpool => ?_⟩
  · obtain ⟨hitem, hlun, hslots, hmem⟩ := State.storeHost_some hq
    have hkept := ((State.storeHost_work (.object id n u) (v.lun + u) (memRead v.data (u * 65536) 65536) s).version? id n).trans hv
    rw [State.storePages_of_some hv hf hq]
    refine ⟨hitem, hlun, hslots, by rwa [State.updVer_ftl], _, State.version?_updVer hkept fun _ => rfl, ?_⟩
    simp [updWhere]
  · rw [State.installStore_object hr, if_pos ho]
    exact State.mapEntry_setMap_self (by omega) _ s
  · rw [State.installStore_object hr, if_neg (by simp [ho])]
  · exact congrArg Host.Outcome.next (if_neg (by simp [hs]))
  · obtain ⟨slots, heq⟩ := State.retirePages_eq r hv
    rw [heq]
    exact ⟨_, State.version?_updVer hv fun _ => rfl, by simp, rfl⟩
  · exact congrArg Host.Outcome.next (if_neg (by simp [hs, hh, hm]))
  · have hwork := s.openWindow.windowWork_work
    refine ⟨hwork.nextWindow, hwork.windowEnd, hwork.bt, ?_⟩
    rw [State.patrol_patrolLines, hwork.bt, hwork.err]
    rfl
  · have hexec := exec_verifyAfterClose ⟨s2, s3, f⟩ hstate hfail hwait hpool
    exact ⟨fun h => hexec.trans (congrArg Host.Outcome.next (if_pos h)), fun h => hexec.trans (congrArg Host.Outcome.next (if_neg h))⟩

/-! ### The holdup bank (R206, R430, R431) -/

theorem State.deriveBudget_power (s : State) : s.deriveBudget.power = s.power := by
  unfold State.deriveBudget
  dsimp only
  split
  · exact State.raise_power _ _
  · rfl

theorem State.deriveBudget_tiers (s : State) : s.deriveBudget.tiers =
    { s.tiers with budget := s.budgetNow, writeThrough := s.budgetNow = 0, throughRaised := s.budgetNow = 0 } := by
  unfold State.deriveBudget
  dsimp only
  split
  · exact State.raise_tiers _ _
  · rfl

/-- What the end of a holdup measurement leaves of the power block and of the budget, before a record that it may raise. -/
structure MeasureEnds (s t : State) (p : Power) : Prop where
  power : t.power = p
  holdBack : t.tiers.holdBack = false
  budget : t.tiers.budget = if p.valid then duskBudget p.energy s.grade.flushEnergy.1 s.grade.flushEnergy.2 s.pools else 0
  through : t.tiers.writeThrough = (t.tiers.budget = 0)

theorem MeasureEnds.raise {s t : State} {p : Power} (h : MeasureEnds s t p) (r : FaultRec) : MeasureEnds s (t.raise r) p := by
  have ht := State.raise_tiers r t
  exact ⟨(State.raise_power r t).trans h.power, ht ▸ h.holdBack, ht ▸ h.budget, by rw [ht]; exact h.through⟩

theorem State.deriveBudget_measureEnds (s : State) (p : Power) :
    MeasureEnds s ({ s with tiers := { s.tiers with holdBack := false }, power := p } : State).deriveBudget.throttle p where
  power := State.deriveBudget_power _
  holdBack := congrArg Tiers.holdBack (State.deriveBudget_tiers _)
  budget := congrArg Tiers.budget (State.deriveBudget_tiers _)
  through := by
    simp [State.throttle, State.deriveBudget_tiers]

theorem exec_holdupMeasureEnd_valid {s : State} {uf esr : Nat} (hm : s.power.measuring = true) (hlo : 5000 ≤ uf) (hhi : uf ≤ 25000)
    (he : esr ≤ 1000) : exec (.holdupMeasureEnd true uf esr) s = .next ({ s with
      tiers := { s.tiers with holdBack := false }
      power := { s.power with
        measuring := false, measured := true, valid := true, energy := holdupMj uf esr, capUf := uf, esr := esr
        vchg := chargeVolt uf, count := sat16 (s.power.count + 1) } } : State).deriveBudget.throttle := by
  refine congrArg Host.Outcome.next ((if_neg (by simp [hm])).trans ?_)
  simp only [hlo, hhi, he, decide_true, Bool.and_self]
  rfl

theorem exec_holdupMeasureEnd_invalid {s : State} {ok : Bool} {uf esr : Nat} (hm : s.power.measuring = true)
    (h : uf < 5000 ∨ 25000 < uf ∨ 1000 < esr) : ∃ t, exec (.holdupMeasureEnd ok uf esr) s = .next t ∧
      MeasureEnds s t { s.power with measuring := false, measured := true, valid := false } := by
  have hbad : (ok && 5000 ≤ uf && uf ≤ 25000 && esr ≤ 1000) = false := by
    simp only [Bool.and_eq_false_iff, decide_eq_false_iff_not]
    omega
  have hends := s.deriveBudget_measureEnds { s.power with measuring := false, measured := true, valid := false }
  have hexec : exec (.holdupMeasureEnd ok uf esr) s = .next (
      let t := ({ s with
        tiers := { s.tiers with holdBack := false }
        power := { s.power with measuring := false, measured := true, valid := false } } : State).deriveBudget.throttle
      if s.tiers.writeThrough then t.raise { faultOf 0x14 5 with budget := true } else t) := by
    refine congrArg Host.Outcome.next ((if_neg (by simp [hm])).trans ?_)
    simp only [hbad]
    rfl
  refine ⟨_, hexec, ?_⟩
  dsimp only
  split
  · exact hends.raise _
  · exact hends

theorem exec_holdupMeasure_first {s : State} (ha : s.power.state = .active) (hm : s.power.measuring = false)
    (h : s.power.measured = false) :
    exec .holdupMeasure s = .next { s with power := { s.power with measuring := true, lastMeasure := s.bt } } :=
  congrArg Host.Outcome.next ((if_neg (by simp [ha, hm])).trans (if_pos (by simp [h])))

theorem exec_holdupMeasure_later {s : State} (ha : s.power.state = .active) (hm : s.power.measuring = false)
    (h : s.power.measured = true) (hdue : s.power.lastMeasure + 86400000000 ≤ s.bt) :
    exec .holdupMeasure s = .next (
      if s.dirtyBytes + 268435456 ≤ s.tiers.budget ∨ s.dirtyBytes = 0 then { s with
        tiers := { s.tiers with holdBack := true }, power := { s.power with measuring := true, lastMeasure := s.bt } }
      else { s with tiers := { s.tiers with holdBack := true } }) := by
  refine congrArg Host.Outcome.next ((if_neg (by simp [ha, hm])).trans ((if_neg (by simp [h])).trans
    ((if_neg (by simp [State.elapsed, hdue])).trans ?_)))
  simp only [Bool.or_eq_true, decide_eq_true_eq]
  rfl

/-! ### Temperatures (R443, R444) -/

/-- The power block after a sample of temperatures: readings, thresholds and the cut of the issue rate. -/
def State.sampled (compute flash dram : Int) (s : State) : State :=
  let c := coolDown s.bt compute 950 s.power.hotCompute s.power.coolCompute
  let f := coolDown s.bt flash 700 s.power.hotFlash s.power.coolFlash
  let d := coolDown s.bt dram 950 s.power.hotDram s.power.coolDram
  s.updPower fun p => { p with
    tempCompute := compute, tempFlash := flash, tempDram := dram, hotCompute := c.1, coolCompute := c.2
    thermalCut := if 950 ≤ compute then Nat.min 15 (p.thermalCut + 1) else if c.1 then p.thermalCut else 0
    hotFlash := f.1, coolFlash := f.2, hotDram := d.1, coolDram := d.2
    flash85 := if 850 ≤ flash then (match p.flash85 with | some b => some b | none => some s.bt) else none }

/-- The flash case has stood at 85 °C for a second. -/
def State.hotLong (flash : Int) (s : State) : Bool :=
  match (if 850 ≤ flash then (match s.power.flash85 with | some b => some b | none => some s.bt) else none) with
  | some b => s.elapsed b 1000000
  | none => false

theorem exec_thermalSample {s : State} (ha : s.power.state = .active) (c f d : Int) : exec (.thermalSample c f d) s = .next (
    if 1050 ≤ c ∨ s.hotLong f = true then (s.sampled c f d).noteCuts.thermalTrip else (s.sampled c f d).noteCuts) := by
  have hoff : s.power.state ≠ .off := by simp [ha]
  have hdusk : s.power.state ≠ .dusk := by simp [ha]
  refine congrArg Host.Outcome.next ((if_neg hoff).trans ((if_neg hdusk).trans ?_))
  simp only [Bool.or_eq_true, decide_eq_true_eq]
  rfl

theorem State.noteCuts_err (s : State) : s.noteCuts.err = s.err := (State.pumpFlash_work _).err

/-- Whether a cut of the governor or of the temperatures is in force. -/
def Power.cutInForce (p : Power) : Bool :=
  0 < p.thermalCut || 0 < p.governorCut || p.hotFlash || p.cutBackground || 0 < p.cutForeground || 0 < p.cutReads

theorem FlashWork.power {s t : State} (h : FlashWork s t) : t.power = s.power := by rw [h.rest]

theorem State.noteCuts_power (s : State) : s.noteCuts.power = { s.power with cut := s.power.cutInForce } :=
  (State.pumpFlash_work _).power

theorem State.hotLong_of_flash85 {s : State} {f : Int} (hf : 850 ≤ f) {t0 : Nat} (ht : s.power.flash85 = some t0)
    (hd : t0 + 1000000 ≤ s.bt) : s.hotLong f = true := by
  simp [State.hotLong, hf, ht, State.elapsed, hd]

theorem State.hotLong_of_cool {s : State} {f : Int} (hf : f < 850) : s.hotLong f = false := by
  have : ¬850 ≤ f := by omega
  simp [State.hotLong, this]

/-- A trip in service: the flush runs from the input, and SHUTDOWN follows. -/
theorem State.thermalTrip_active {s : State} (ha : s.power.state = .active) :
    s.thermalTrip.power.state = .dusk ∧ s.thermalTrip.power.flush = .triggered ∧ s.thermalTrip.power.after = .shutdown ∧
      s.thermalTrip.power.onInput = true ∧ s.thermalTrip.power.trip = true := by
  have htrip : s.thermalTrip = ((s.updPower fun p => { p with trip := true }).raise (faultOf 0x14 5)).trigger true .shutdown :=
    if_pos (by rw [ha]; rfl)
  rw [htrip]
  refine ⟨rfl, rfl, rfl, rfl, ?_⟩
  exact congrArg Power.trip (State.raise_power _ _)

/-! ### The governor (R37, R38, R424) -/

/-- The power block after a window of the governor: readings and runs of windows above a limit. -/
def State.governed (w1 w100 a1 a100 mv : Nat) (s : State) : State := s.updPower fun p => { p with
  inVolt := mv / 10, inAmp := a100 / 10, inWatt := w100 / 100
  overPower := runLength (720000 < w1) p.overPower, overCurrent := runLength (20000 < a1) p.overCurrent
  tolerated := if toleratedMv mv then (match p.tolerated with | some b => some b | none => some s.bt) else none }

/-- The window is above a limit. -/
def State.overLimit (w1 w100 a1 a100 mv : Nat) (s : State) : Prop :=
  s.power.limitMw mv < w100 ∨ 20000 < a100 ∨ (s.governed w1 w100 a1 a100 mv).power.overPeak w1 a1 = true

/-- What a window leaves of the readings, whichever cut it makes or takes back. -/
structure KeepsReadings (p q : Power) : Prop where
  inVolt : q.inVolt = p.inVolt
  inAmp : q.inAmp = p.inAmp
  inWatt : q.inWatt = p.inWatt
  overPower : q.overPower = p.overPower
  overCurrent : q.overCurrent = p.overCurrent

theorem KeepsReadings.refl (p : Power) : KeepsReadings p p := ⟨rfl, rfl, rfl, rfl, rfl⟩

theorem State.cutMore_keepsReadings (s : State) : KeepsReadings s.power s.cutMore.power := by
  unfold State.cutMore
  dsimp only
  split
  · exact ⟨rfl, rfl, rfl, rfl, rfl⟩
  · split
    · exact ⟨rfl, rfl, rfl, rfl, rfl⟩
    · split
      · exact ⟨rfl, rfl, rfl, rfl, rfl⟩
      · split
        · exact .refl _
        · exact ⟨rfl, rfl, rfl, rfl, rfl⟩

theorem State.cutLess_keepsReadings (s : State) : KeepsReadings s.power s.cutLess.power := by
  unfold State.cutLess
  dsimp only
  split
  · exact ⟨rfl, rfl, rfl, rfl, rfl⟩
  · split
    · exact ⟨rfl, rfl, rfl, rfl, rfl⟩
    · split
      · exact ⟨rfl, rfl, rfl, rfl, rfl⟩
      · exact ⟨rfl, rfl, rfl, rfl, rfl⟩

theorem State.cutMore_of_background {s : State} (h : s.power.cutBackground = false) :
    s.cutMore = s.updPower fun p => { p with cutBackground := true } :=
  if_pos (by simp [h])

theorem State.cutMore_of_governor {s : State} (hb : s.power.cutBackground = true) (hf : s.power.flashLimit ≤ s.power.cutForeground)
    (hg : s.power.governorCut < 15) : s.cutMore = s.updPower fun p => { p with governorCut := p.governorCut + 1 } :=
  (if_neg (by simp [hb])).trans ((if_neg (by omega)).trans (if_pos hg))

theorem State.cutLess_of_background {s : State} (hr : s.power.cutReads = 0) (hg : s.power.governorCut = 0)
    (hf : s.power.cutForeground = 0) : s.cutLess = s.updPower fun p => { p with cutBackground := false } :=
  (if_neg (by omega)).trans ((if_neg (by omega)).trans (if_neg (by omega)))

/-- A window in service: a cut is made where it is above a limit, else one is taken back. -/
theorem exec_governorWindow {s : State} (hs : s.power.state = .active ∨ s.power.state = .capped) (w1 w100 a1 a100 mv : Nat) :
    let g := s.governed w1 w100 a1 a100 mv
    ∃ above : Bool, (above = true ↔ s.overLimit w1 w100 a1 a100 mv) ∧
      exec (.governorWindow w1 w100 a1 a100 mv) s = .next (if above then g.cutMore else g.cutLess).noteCuts := by
  have hoff : s.power.state ≠ .off := by rcases hs with h | h <;> simp [h]
  have hdusk : (s.governed w1 w100 a1 a100 mv).power.state ≠ .dusk := by
    show s.power.state ≠ .dusk
    rcases hs with h | h <;> simp [h]
  refine ⟨s.power.limitMw mv < w100 || 20000 < a100 || (s.governed w1 w100 a1 a100 mv).power.overPeak w1 a1,
    by simp [State.overLimit, or_assoc], congrArg Host.Outcome.next ((if_neg hoff).trans (if_neg hdusk))⟩

theorem State.overLimit_iff (s : State) (w1 w100 a1 a100 mv : Nat) : s.overLimit w1 w100 a1 a100 mv ↔
    (Nat.min (Nat.min 720000 (s.power.cap * 1000)) (20 * mv) < w100 ∨ 800000 < w1 ∨ 20000 < a100 ∨ 22200 < a1 ∨
      (720000 < w1 ∧ 9 ≤ s.power.overPower) ∨ (20000 < a1 ∧ 9 ≤ s.power.overCurrent)) := by
  have hrun : ∀ (p : Prop) [Decidable p] (n : Nat), 10 ≤ runLength (decide p) n ↔ p ∧ 9 ≤ n := by
    intro p _ n
    by_cases hp : p
    · simp [runLength, hp]
    · simp [runLength, hp]
  have hpeak : (s.governed w1 w100 a1 a100 mv).power.overPeak w1 a1 = true ↔ 800000 < w1 ∨ 22200 < a1 ∨
      (720000 < w1 ∧ 9 ≤ s.power.overPower) ∨ (20000 < a1 ∧ 9 ≤ s.power.overCurrent) := by
    rw [← hrun, ← hrun]
    simp only [Power.overPeak, Bool.or_eq_true, decide_eq_true_eq, or_assoc]
    rfl
  rw [State.overLimit, hpeak]
  show (s.power.limitMw mv < w100 ∨ _) ↔ (s.power.limitMw mv < w100 ∨ _)
  exact or_congr Iff.rfl or_left_comm

/-- Settles O47: each event by the equation of its step, the readings through what the cuts keep. -/
theorem holdupHeatAndPowerAreWatched : Obligations.HoldupHeatAndPowerAreWatched := by
  refine ⟨fun s ha hm => ⟨exec_holdupMeasure_first ha hm, fun hd ht => ?_⟩, fun s uf esr hm => ⟨fun hlo hhi he => ?_, fun h => ?_⟩,
    fun s c f d ha => ⟨fun hc hf => ?_, fun h => ?_⟩, fun s w1 w100 a1 a100 mv hs => ?_⟩
  · have hexec := exec_holdupMeasure_later ha hm hd ht
    exact ⟨fun h => hexec.trans (congrArg Host.Outcome.next (if_pos h)), fun h h0 => hexec.trans (congrArg Host.Outcome.next
      (if_neg (by omega)))⟩
  · have hends := s.deriveBudget_measureEnds { s.power with
      measuring := false, measured := true, valid := true, energy := holdupMj uf esr, capUf := uf, esr := esr
      vchg := chargeVolt uf, count := sat16 (s.power.count + 1) }
    have hp := hends.power
    exact ⟨_, exec_holdupMeasureEnd_valid hm hlo hhi he, congrArg Power.valid hp, congrArg Power.energy hp, congrArg Power.capUf hp,
      congrArg Power.esr hp, congrArg Power.measuring hp, congrArg Power.count hp, hends.holdBack, hends.budget.trans (if_pos rfl)⟩
  · obtain ⟨t, hexec, hends⟩ := exec_holdupMeasureEnd_invalid (ok := true) hm h
    have hp := hends.power
    have hb : t.tiers.budget = 0 := hends.budget
    exact ⟨t, hexec, congrArg Power.valid hp, (congrArg Power.energy hp).trans rfl, hb, by rw [hends.through]; exact hb,
      congrArg Power.measuring hp⟩
  · have hexec := exec_thermalSample ha c f d
    rw [if_neg (by simp [State.hotLong_of_cool hf]; omega)] at hexec
    have hp := (s.sampled c f d).noteCuts_power
    refine ⟨_, hexec, by rw [hp]; rfl, by rw [hp]; rfl, by rw [hp]; rfl, by rw [hp]; exact ha, State.noteCuts_err _, fun h => ?_,
      fun hlo hhi hot => ?_, fun h t0 hot hcool ht => ?_⟩
    · rw [hp]
      simp [State.sampled, State.updPower, coolDown, h]
    · rw [hp]
      have h1 : ¬950 ≤ c := by omega
      have h2 : ¬c ≤ 920 := by omega
      simp [State.sampled, State.updPower, coolDown, h1, h2, hot]
    · rw [hp]
      have h1 : ¬950 ≤ c := by omega
      simp [State.sampled, State.updPower, coolDown, h1, h, hot, hcool, ht]
  · have hexec := exec_thermalSample ha c f d
    rw [if_pos (h.imp id fun ⟨hf, t0, ht, hd⟩ => State.hotLong_of_flash85 hf ht hd)] at hexec
    refine ⟨_, hexec, State.thermalTrip_active ?_⟩
    rw [State.noteCuts_power]
    exact ha
  · intro limit above
    obtain ⟨b, hb, hexec⟩ := exec_governorWindow hs w1 w100 a1 a100 mv
    have habove : b = true ↔ above := hb.trans (State.overLimit_iff s w1 w100 a1 a100 mv)
    have hkeep : KeepsReadings (s.governed w1 w100 a1 a100 mv).power
        (if b then (s.governed w1 w100 a1 a100 mv).cutMore else (s.governed w1 w100 a1 a100 mv).cutLess).noteCuts.power := by
      rw [State.noteCuts_power]
      cases b with
      | true => exact { State.cutMore_keepsReadings _ with }
      | false => exact { State.cutLess_keepsReadings _ with }
    refine ⟨_, hexec, hkeep.inVolt, hkeep.inAmp, hkeep.inWatt, hkeep.overPower.trans ?_, hkeep.overCurrent.trans ?_,
      fun ha hcut => ?_, fun ha hcut hf hg => ?_, fun ha hr hg hf => ?_⟩
    · simp [State.governed, State.updPower, runLength]
    · simp [State.governed, State.updPower, runLength]
    · rw [if_pos (habove.mpr ha), State.cutMore_of_background (s := s.governed w1 w100 a1 a100 mv) hcut, State.noteCuts_power]
      exact ⟨rfl, by simp [State.updPower, Power.cutInForce]⟩
    · rw [if_pos (habove.mpr ha), State.cutMore_of_governor (s := s.governed w1 w100 a1 a100 mv) hcut hf hg, State.noteCuts_power]
      rfl
    · rw [if_neg (fun h => ha (habove.mp h)), State.cutLess_of_background (s := s.governed w1 w100 a1 a100 mv) hr hg hf, State.noteCuts_power]
      rfl

end Sys2Proof.Machine
end

section
/-! PROOF. Loss of power, the connector, resets and the dusk flush (R425, R428, R432 to R436, R439, R441, R499). -/
namespace Sys2Proof.Machine

/-! ### Input that is lost, and requests of reset and shutdown -/

theorem State.inputLost_of_flushes {s : State} (h : s.power.state.flushes = true) :
    s.inputLost = (s.updPower fun p => { p with switchOpen := true }).trigger false .off := if_pos h

theorem State.inputLost_of_dusk {s : State} (h : s.power.state = .dusk) :
    s.inputLost = { s with power := { s.power with switchOpen := true, onInput := false, after := .off } } :=
  (if_neg (by rw [h]; decide)).trans (if_pos h)

theorem State.inputLost_of_off {s : State} (hf : s.power.state.flushes = false) (hd : s.power.state ≠ .dusk) :
    s.inputLost = (s.updPower fun p => { p with switchOpen := true }).goOff :=
  (if_neg (by simp [hf])).trans (if_neg hd)

theorem PowerState.flushes_iff (p : PowerState) :
    p.flushes = true ↔ p = .active ∨ p = .capped ∨ p = .quiescent ∨ p = .shuttingDown := by
  cases p <;> decide

theorem exec_powerFailure {s : State} {mv : Nat} (h : mv < 28000 ∨ 42000 < mv) : exec (.powerFailure mv) s = .next (
    let t := s.updPower fun p => { p with
      inVolt := mv / 10, tolerated := none, switchOpen := true, overvoltage := p.overvoltage || decide (42000 < mv) }
    if s.power.state = .off then t else t.inputLost) := by
  have hout : ¬(decide (28000 ≤ mv) && decide (mv ≤ 42000)) = true := by
    simp only [Bool.and_eq_true, decide_eq_true_eq]
    omega
  exact congrArg Host.Outcome.next (if_neg hout)

theorem exec_inputToleranceExpiry {s : State} {mv t0 : Nat} (ht : s.power.tolerated = some t0) (hm : toleratedMv mv = true)
    (hd : t0 + 100000 ≤ s.bt) (hs : s.power.state ≠ .off) : exec (.inputToleranceExpiry mv) s = .next (s.updPower fun p => { p with
      inVolt := mv / 10, tolerated := none, overvoltage := p.overvoltage || decide (40000 < mv) }).inputLost := by
  refine congrArg Host.Outcome.next ?_
  simp only [ht]
  exact if_pos (by simp [hm, State.elapsed, hd, hs])

theorem exec_inputSwitchClose {s : State} {mv : Nat} (ho : s.power.overvoltage = true) (hs : s.power.state = .off)
    (hlo : 30000 ≤ mv) (hhi : mv ≤ 40000) : exec (.inputSwitchClose mv) s = .next { s with power := { s.power with
      overvoltage := false, switchOpen := false, inVolt := mv / 10 } } :=
  congrArg Host.Outcome.next (if_pos (by simp [ho, hs, hlo, hhi]))

/-- The four power states in which the drive answers RESET_N and SHDN_REQ_N, each as Table 16-7 gives. -/
theorem exec_resetN_cases (s : State) :
    (s.power.state = .active ∨ s.power.state = .capped ∨ s.power.state = .quiescent → exec .resetN s = .next (s.trigger true .restart)) ∧
    (s.power.state = .starting ∨ s.power.state = .shutdown → exec .resetN s = .next s.restart) ∧
    (s.power.state = .shuttingDown → exec .resetN s = .next (s.updPower fun p => { p with resetHeld := true })) := by
  refine ⟨fun h => congrArg Host.Outcome.next ?_, fun h => congrArg Host.Outcome.next ?_, fun h => congrArg Host.Outcome.next ?_⟩
  · rcases h with h | h | h <;> simp only [h]
  · rcases h with h | h <;> simp only [h]
  · simp only [h]

theorem State.askShutdown_cases (s : State) :
    (s.power.state = .active ∨ s.power.state = .capped ∨ s.power.state = .quiescent → s.askShutdown = s.startShutdown) ∧
    (s.power.state = .starting → s.askShutdown = s.updPower fun p => { p with shutdownHeld := true }) := by
  refine ⟨fun h => ?_, fun h => ?_⟩
  · unfold State.askShutdown
    rcases h with h | h | h <;> simp only [h]
  · unfold State.askShutdown
    simp only [h]

/-! ### The flush is laid out (R360) -/

theorem mem_layPage (die : Nat) (p : DuskPage) (l : List (Nat × List DuskPage)) : ∃ x ∈ layPage die p l, p ∈ x.2 := by
  induction l with
  | nil => exact ⟨(die, [p]), List.mem_singleton_self _, List.mem_singleton_self _⟩
  | cons x xs ih =>
    unfold layPage
    split
    · exact ⟨_, List.mem_cons_self, List.mem_append_right _ (List.mem_singleton_self _)⟩
    · obtain ⟨y, hy, hp⟩ := ih
      exact ⟨y, List.mem_cons_of_mem _ hy, hp⟩

theorem mem_layPage_of_mem {q : DuskPage} (die : Nat) (p : DuskPage) {l : List (Nat × List DuskPage)} (h : ∃ x ∈ l, q ∈ x.2) :
    ∃ x ∈ layPage die p l, q ∈ x.2 := by
  induction l with
  | nil => obtain ⟨x, hx, -⟩ := h; cases hx
  | cons x xs ih =>
    obtain ⟨y, hy, hq⟩ := h
    unfold layPage
    split
    · rcases List.mem_cons.mp hy with rfl | hy
      · exact ⟨_, List.mem_cons_self, List.mem_append_left _ hq⟩
      · exact ⟨y, List.mem_cons_of_mem _ hy, hq⟩
    · rcases List.mem_cons.mp hy with rfl | hy
      · exact ⟨y, List.mem_cons_self, hq⟩
      · obtain ⟨z, hz, hqz⟩ := ih ⟨y, hy, hq⟩
        exact ⟨z, List.mem_cons_of_mem _ hz, hqz⟩

/-- Every page of the flush, and every page laid before, has its die. -/
theorem State.mem_planDusk {q : DuskPage} (ps : List DuskPage) (l : List (Nat × List DuskPage)) (s : State)
    (h : q ∈ ps ∨ ∃ x ∈ l, q ∈ x.2) : ∃ x ∈ (State.planDusk ps l s).1, q ∈ x.2 := by
  induction ps generalizing l s with
  | nil => exact h.resolve_left List.not_mem_nil
  | cons p ps ih =>
    unfold State.planDusk
    refine ih _ _ ?_
    rcases h with h | h
    · rcases List.mem_cons.mp h with rfl | h
      · exact .inr (mem_layPage _ _ _)
      · exact .inl h
    · exact .inr (mem_layPage_of_mem _ _ h)

theorem State.planDusk_state (ps : List DuskPage) (l : List (Nat × List DuskPage)) (s : State) :
    ∃ n, (State.planDusk ps l s).2 = { s with free := n } := by
  induction ps generalizing l s with
  | nil => exact ⟨s.free, rfl⟩
  | cons p ps ih =>
    unfold State.planDusk
    obtain ⟨n, hn⟩ := ih (layPage (Config.storeDie s.takeFree.1 % (64 * s.grade.dies)) p l) s.takeFree.2
    exact ⟨n, hn⟩

/-- Work of the flush on the array: the shares of the dies stay, and what is queued is no erase and has the flush's priority. -/
structure DuskWork (s t : State) : Prop where
  work : FlashWork s t
  dusk : t.flash.dusk = s.flash.dusk
  ops : ∀ o ∈ t.flash.ops, (o.prio = .dusk ∧ o.kind ≠ .erase) ∨ o.core ∈ cores s.flash.ops

theorem DuskWork.refl (s : State) : DuskWork s s := ⟨.refl s, rfl, fun _ ho => .inr (List.mem_map_of_mem ho)⟩

theorem DuskWork.trans {s t u : State} (h : DuskWork s t) (k : DuskWork t u) : DuskWork s u := by
  refine ⟨h.work.trans k.work, k.dusk.trans h.dusk, fun o ho => ?_⟩
  rcases k.ops o ho with hd | hc
  · exact .inl hd
  · obtain ⟨q, hq, heq⟩ := List.mem_map.mp hc
    rcases h.ops q hq with ⟨hp, hk⟩ | hq
    · exact .inl ⟨(congrArg (·.2.2.1) heq).symm.trans hp, fun hke => hk ((congrArg (·.1) heq).trans hke)⟩
    · exact .inr (heq ▸ hq)

theorem DuskWork.foldl {α : Type} {f : State → α → State} (hf : ∀ t a, DuskWork t (f t a)) (l : List α) (s : State) :
    DuskWork s (l.foldl f s) :=
  List.foldlRecOn (motive := fun t => DuskWork s t) l f (.refl s) fun t ht a _ => ht.trans (hf t a)

theorem State.queueOp_duskWork {o : DieOp} (hp : o.prio = .dusk) (hk : o.kind = .read ∨ o.kind = .program) (s : State) :
    DuskWork s (s.queueOp o) := by
  have hne : o.kind ≠ .erase := by rcases hk with h | h <;> simp [h]
  have hwork := State.queueOp_work o s
  obtain ⟨ops, q, h, hc⟩ := State.queueOp_eq o s
  refine ⟨hwork, by rw [h], fun x hx => ?_⟩
  rw [h] at hx
  have hmem : x.core ∈ cores s.flash.ops ++ [o.core] := hc ▸ List.mem_map_of_mem hx
  rcases List.mem_append.mp hmem with hmem | hmem
  · exact .inr hmem
  · have heq := List.mem_singleton.mp hmem
    exact .inl ⟨(congrArg (·.2.2.1) heq).trans hp, fun hke => hne ((congrArg (·.1) heq).symm.trans hke)⟩

theorem State.queueBlank_duskWork (d : Die) (e : EraseUnit) (s : State) : DuskWork s (s.queueBlank .dusk d e) := by
  unfold State.queueBlank
  split
  · exact .foldl (fun t n => State.queueOp_duskWork rfl (.inl rfl) t) _ _
  · exact .refl s

/-- Changing the translation, or the list of parity pages, leaves the shares and the operations as they are. -/
theorem DuskWork.of_ops {s t : State} (h : FlashWork s t) (hd : t.flash.dusk = s.flash.dusk) (ho : t.flash.ops = s.flash.ops) :
    DuskWork s t := ⟨h, hd, fun _ hm => .inr (List.mem_map_of_mem (ho ▸ hm))⟩

theorem State.queueDusk_duskWork (x : DuskDie) (s : State) : DuskWork s (s.queueDusk x) := by
  unfold State.queueDusk
  refine DuskWork.foldl (fun t y => ?_) _ _
  refine DuskWork.trans (.of_ops (.translation t _ ?_ ?_) ?_ ?_) (State.queueOp_duskWork rfl (.inr rfl) _) <;> rfl

theorem State.duskParityPage_duskWork (g slot : Nat) (s : State) : DuskWork s (s.duskParityPage g slot) := by
  unfold State.duskParityPage
  extract_lets rows data
  split
  · exact .refl s
  · next e _ =>
    have hpage : ∀ img, DuskWork s (s.queuePage .dusk .dusk img e).2 := fun img =>
      (State.queueBlank_duskWork e.die e s).trans (State.queueOp_duskWork rfl (.inr rfl) _)
    exact (hpage _).trans (.of_ops (.array _ _) rfl rfl)

theorem State.queueShares_duskWork (s : State) : DuskWork s s.queueShares := .foldl (fun t x => State.queueDusk_duskWork x t) _ s

/-- The parity pages of these rows are queued. -/
def State.duskParity (rows : List (Nat × Nat)) (s : State) : State := rows.foldl (fun t r => t.duskParityPage r.1 r.2) s

theorem State.duskParity_duskWork (rows : List (Nat × Nat)) (s : State) : DuskWork s (s.duskParity rows) := by
  unfold State.duskParity
  refine DuskWork.foldl (fun t r => ?_) rows s
  exact State.duskParityPage_duskWork r.1 r.2 t

theorem State.layDusk_eq (s : State) : s.layDusk = s.shareDusk.queueShares.duskParity s.shareDusk.queueShares.duskRows := rfl

theorem State.duskLaid (s : State) : DuskWork s.shareDusk s.layDusk := by
  rw [State.layDusk_eq]
  exact (State.queueShares_duskWork _).trans (State.duskParity_duskWork _ _)

theorem State.shareDusk_work (s : State) : FlashWork s s.shareDusk := by
  obtain ⟨n, hn⟩ := State.planDusk_state s.duskPages [] s
  have hplan : FlashWork s (State.planDusk s.duskPages [] s).2 := by
    rw [hn]
    exact ⟨rfl, rfl, rfl⟩
  exact hplan.trans (.array _ _)

theorem State.shareDusk_ops (s : State) : s.shareDusk.flash.ops = s.flash.ops := by
  obtain ⟨n, hn⟩ := State.planDusk_state s.duskPages [] s
  show (State.planDusk s.duskPages [] s).2.flash.ops = _
  rw [hn]

/-- Each die's share stands between its index page and its trailer. -/
theorem State.mem_shareDusk {s : State} {x : DuskDie} (h : x ∈ s.shareDusk.flash.dusk) :
    ∃ (ps : List DuskPage) (ats : List (Nat × Nat × Nat)), x.pages = [.index (ps.flatMap DuskPage.entries)] ++ ps ++
      [.trailer s.power.flushSeq (ps.length + 2) (Config.crc32 ((ps.flatMap DuskPage.entries).flatMap DuskEntry.bytes)) ats
        s.err.repairs] := by
  obtain ⟨n, hn⟩ := State.planDusk_state s.duskPages [] s
  obtain ⟨y, -, rfl⟩ := List.mem_map.mp h
  refine ⟨y.2, atomicTable (State.planDusk s.duskPages [] s).1 y.2, ?_⟩
  rw [hn]
  rfl

theorem State.exists_mem_shareDusk {s : State} {p : DuskPage} (h : p ∈ s.duskPages) : ∃ x ∈ s.shareDusk.flash.dusk, p ∈ x.pages := by
  obtain ⟨y, hy, hp⟩ := State.mem_planDusk s.duskPages [] s (.inl h)
  exact ⟨_, List.mem_map_of_mem hy, List.mem_append_left _ (List.mem_append_right _ hp)⟩

/-- The objects as the flush leaves them: an append under way is marked (R270). -/
def State.markAppend (s : State) (o : Obj) : Obj := { o with appending := s.appendUnder o }

/-- The tiers as the flush leaves them. -/
def State.markAppends (s : State) : Tiers := { s.tiers with objects := s.tiers.objects.map s.markAppend }

theorem State.version?_markAppends {s t : State} (h : t.tiers = s.markAppends) (id n : Nat) : t.version? id n = s.version? id n := by
  have hfind : t.tiers.objects.find? (·.id = id) = (s.tiers.objects.find? (·.id = id)).map s.markAppend := by
    rw [h]
    exact List.find?_map
  unfold State.version?
  rw [hfind]
  cases s.tiers.objects.find? (·.id = id) <;> rfl

theorem State.duskPages_markAppends {s t : State} (h : t.tiers = s.markAppends) (hb : t.block = s.block) (hf : t.ftl = s.ftl) :
    t.duskPages = s.duskPages := by
  have hitems : t.duskItems = s.duskItems := by
    unfold State.duskItems
    rw [h, hb]
    unfold State.markAppends
    simp only [List.filter_map, List.flatMap_map]
    rfl
  have hpage : t.duskPage = s.duskPage := by
    funext x
    cases x <;> simp only [State.duskPage, State.version?_markAppends h, hb]
  rw [State.duskPages, hitems, hpage, hf]
  rfl

/-! ### The flush begins (R433, R434) -/

/-- An operation that the flush lets run to its end (R327). -/
def DieOp.outlasts (o : DieOp) : Bool := o.kind ≠ .erase && o.st ≠ .held && o.st ≠ .queued

/-- The drive as the flush begins: D is frozen, the Atrium, every job and every transfer have stopped. -/
def State.flushBegun (s : State) : State :=
  { s with
    power := { s.power with flush := .running, frozen := s.dirtyBytes, flushSeq := s.power.flushSeq + 1 }
    tiers := s.markAppends
    atr := { s.atr with slots := [], stopped := true, parked := [], cqs := s.atr.cqs.map fun c => { c with ready := [] } }
    locks := [], sched := { s.sched with jobs := [] }, err := { s.err with halts := [] }, domains := s.domains.map fun _ => {}
    test := { s.test with busy := none }, sec := { s.sec with signing := none }
    flash := { s.flash with ops := (s.flash.ops.filter DieOp.outlasts).map fun o => { o with st := .running } } }

theorem exec_duskFlush {s : State} (h : s.power.flush = .triggered) : exec .duskFlush s = .next s.flushBegun.layDusk :=
  congrArg Host.Outcome.next (if_neg (by simp [h]))

theorem State.layDusk_work (s : State) : FlashWork s s.layDusk := s.shareDusk_work.trans s.duskLaid.work

theorem State.flushBegun_cq (s : State) (n : Nat) : (s.flushBegun.cq n).ready = [] := by
  show ((s.atr.cqs.map fun c : Cq => { c with ready := [] }).getD n {}).ready = []
  rw [List.getD_eq_getElem?_getD, List.getElem?_map]
  cases s.atr.cqs[n]? <;> rfl

/-- What is queued once the flush is laid out is the flush's own or was issued before it. -/
theorem State.mem_ops_layDusk {s : State} {o : DieOp} (h : o ∈ s.flushBegun.layDusk.flash.ops) : o.kind ≠ .erase ∧
    (o.prio = .dusk ∨ ∃ q ∈ s.flash.ops, q.die = o.die ∧ q.kind = o.kind ∧ q.unit = o.unit ∧ q.page = o.page ∧
      q.st ≠ .held ∧ q.st ≠ .queued) := by
  rcases s.flushBegun.duskLaid.ops o h with ⟨hp, hk⟩ | hc
  · exact ⟨hk, .inl hp⟩
  · rw [State.shareDusk_ops] at hc
    obtain ⟨x, hx, heq⟩ := List.mem_map.mp hc
    obtain ⟨q, hq, rfl⟩ := List.mem_map.mp hx
    obtain ⟨hq, hkeep⟩ := List.mem_filter.mp hq
    simp only [DieOp.outlasts, Bool.and_eq_true, decide_eq_true_eq] at hkeep
    obtain ⟨⟨hkind, hheld⟩, hqueued⟩ := hkeep
    have hk : q.kind = o.kind := congrArg (·.1) heq
    exact ⟨hk ▸ hkind, .inr ⟨q, hq, congrArg (·.2.2.2.1) heq, hk, congrArg (·.2.2.2.2.1) heq, congrArg (·.2.2.2.2.2) heq,
      hheld, hqueued⟩⟩

/-! ### The flush ends (R327, R433, R435) -/

/-- Ends of programs: outside the array, its translation and the test block nothing changes, and no program joins the operations. -/
structure EndsPrograms (s t : State) : Prop where
  rest : t = { s with flash := t.flash, ftl := t.ftl, test := t.test }
  programs : ∀ o ∈ t.flash.ops, o.kind = .program → ∃ q ∈ s.flash.ops, q.kind = .program

theorem EndsPrograms.refl (s : State) : EndsPrograms s s := ⟨rfl, fun o ho hk => ⟨o, ho, hk⟩⟩

theorem EndsPrograms.trans {s t u : State} (h : EndsPrograms s t) (k : EndsPrograms t u) : EndsPrograms s u :=
  ⟨k.rest.trans (by rw [h.rest]), fun o ho hk => by
    obtain ⟨q, hq, hqk⟩ := k.programs o ho hk
    exact h.programs q hq hqk⟩

theorem EndsPrograms.foldl {α : Type} {f : State → α → State} (hf : ∀ t a, EndsPrograms t (f t a)) (l : List α) (s : State) :
    EndsPrograms s (l.foldl f s) :=
  List.foldlRecOn (motive := fun t => EndsPrograms s t) l f (.refl s) fun t ht a _ => ht.trans (hf t a)

/-- Changing the translation, the test block and what the array holds, but no operation. -/
theorem EndsPrograms.of_ops {s t : State} (h : t = { s with flash := t.flash, ftl := t.ftl, test := t.test })
    (ho : t.flash.ops = s.flash.ops) : EndsPrograms s t := ⟨h, fun o hm hk => ⟨o, ho ▸ hm, hk⟩⟩

/-- The operations go on as they were, but for their progress. -/
theorem EndsPrograms.of_cores {s t : State} (h : t = { s with flash := t.flash, ftl := t.ftl, test := t.test })
    (hc : ∀ x ∈ cores t.flash.ops, x.1 = .program → x ∈ cores s.flash.ops) : EndsPrograms s t := by
  refine ⟨h, fun o ho hk => ?_⟩
  obtain ⟨q, hq, heq⟩ := List.mem_map.mp (hc o.core (List.mem_map_of_mem ho) hk)
  exact ⟨q, hq, (congrArg (·.1) heq).trans hk⟩

theorem State.pumpFlash_endsPrograms (s : State) : EndsPrograms s s.pumpFlash := by
  obtain ⟨ops, q, h, hc⟩ := s.pumpFlash_eq
  rw [h]
  exact .of_cores rfl fun x hx _ => hc ▸ hx

theorem State.installStore_endsPrograms (r : StoreRec) (s : State) : EndsPrograms s (s.installStore r) := by
  unfold State.installStore
  split
  · exact .refl s
  · split
    · dsimp only
      split <;> exact .of_ops rfl rfl
    · exact .refl s
  · split
    · exact .refl s
    · exact .of_ops rfl rfl
  · split
    · exact .of_ops rfl rfl
    · exact .refl s

theorem State.memberPass_endsPrograms (o : DieOp) (s : State) : EndsPrograms s (s.memberPass o) := .of_ops rfl rfl

theorem State.storePass_endsPrograms (o : DieOp) (s : State) : EndsPrograms s (s.storePass o) := by
  unfold State.storePass
  exact (State.memberPass_endsPrograms o s).trans (.foldl (fun t r => State.installStore_endsPrograms r t) _ _)

theorem State.updEunit_endsPrograms (d : Die) (u : Nat) (f : EraseUnit → EraseUnit) (s : State) : EndsPrograms s (s.updEunit d u f) :=
  .of_ops rfl rfl

theorem State.queueOp_endsPrograms {o : DieOp} (hk : o.kind ≠ .program) (s : State) : EndsPrograms s (s.queueOp o) := by
  obtain ⟨ops, q, h, hc⟩ := State.queueOp_eq o s
  rw [h]
  refine .of_cores rfl fun x hx hxk => ?_
  rcases List.mem_append.mp (hc ▸ hx) with hx | hx
  · exact hx
  · rw [List.mem_singleton.mp hx] at hxk
    exact absurd hxk hk

theorem State.eraseJournal_endsPrograms (e : EraseUnit) (s : State) : EndsPrograms s (s.eraseJournal e) := by
  unfold State.eraseJournal
  exact (State.updEunit_endsPrograms _ _ _ s).trans (State.queueOp_endsPrograms (by simp) _)

theorem State.recycleJournal_endsPrograms (s : State) : EndsPrograms s s.recycleJournal :=
  .foldl (fun t e => State.eraseJournal_endsPrograms e t) _ s

theorem State.releaseErases_endsPrograms (s : State) : EndsPrograms s s.releaseErases := by
  have hops : ∀ ops : List DieOp, (∀ o ∈ ops, o.kind = .program → ∃ q ∈ s.flash.ops, q.kind = .program) →
      EndsPrograms s { s with flash := { s.flash with ops := ops } } := fun ops h => ⟨rfl, h⟩
  unfold State.releaseErases
  refine (hops _ fun o ho hk => ?_).trans (State.pumpFlash_endsPrograms _)
  rcases List.mem_append.mp ho with ho | ho
  · exact ⟨o, (List.mem_filter.mp ho).1, hk⟩
  · obtain ⟨q, hq, rfl⟩ := List.mem_map.mp ho
    exact ⟨q, (List.mem_filter.mp hq).1, hk⟩

theorem State.programPass_endsPrograms (o : DieOp) (s : State) : EndsPrograms s (s.programPass o) := by
  have hwritten : EndsPrograms s (match o.fill with | some p => s.programImage o.die o.unit o.page p | none => s) := by
    cases o.fill with
    | none => exact .refl s
    | some p => exact .of_ops rfl rfl
  unfold State.programPass
  extract_lets t u
  have hu : EndsPrograms s u := hwritten.trans (State.updEunit_endsPrograms _ _ _ _)
  split
  · exact hu.trans (State.storePass_endsPrograms o u)
  · exact hu.trans (State.memberPass_endsPrograms o u)
  · exact hu.trans (.of_ops rfl rfl)
  · next q _ =>
    have hcopied : EndsPrograms u (u.journalCopy q ((s.eunit o.die o.unit).role = .journalA)) := .of_ops rfl rfl
    exact ((hu.trans hcopied).trans (State.releaseErases_endsPrograms _)).trans (State.recycleJournal_endsPrograms _)
  · exact hu.trans (.of_ops rfl rfl)
  · exact hu

theorem State.finishPrograms_rest (s : State) : s.finishPrograms = { s with
    flash := s.finishPrograms.flash, ftl := s.finishPrograms.ftl, test := s.finishPrograms.test, err := s.finishPrograms.err } ∧
    ∀ o ∈ s.finishPrograms.flash.ops, o.kind ≠ .program := by
  have h : EndsPrograms { s with flash := { s.flash with ops := s.flash.ops.filter (·.kind ≠ .program) } } s.finishPrograms :=
    .foldl (fun t o => State.programPass_endsPrograms o t) _ _
  refine ⟨by rw [h.rest], fun o ho hk => ?_⟩
  obtain ⟨q, hq, hqk⟩ := h.programs o ho hk
  have := (List.mem_filter.mp hq).2
  simp [hqk] at this

theorem State.afterFlush_cases (t : State) :
    (t.power.after = .off → t.afterFlush = t.goOff) ∧ (t.power.after = .restart → t.afterFlush = t.restart) ∧
    (t.power.after = .shutdown → t.afterFlush = t.updPower fun p => { p with state := .shutdown, flush := .none, shdnDone := true }) := by
  unfold State.afterFlush
  refine ⟨fun h => ?_, fun h => ?_, fun h => ?_⟩ <;> simp only [h]

theorem exec_aonLoss {s : State} (h : s.power.state ≠ .off) : exec .aonLoss s = .next (s.updPower fun p =>
    { p with clean := p.clean && (p.state = .shutdown || p.state = .starting) }).goOff :=
  congrArg Host.Outcome.next (if_neg h)

/-- What a drive that goes to OFF has lost, and what stays. -/
theorem State.goOff_lost (s : State) : s.goOff.power.state = .off ∧ s.goOff.hostMem = s.hostMem ∧ s.goOff.atr.slots = [] ∧
    s.goOff.sched.jobs = [] ∧ s.goOff.err.log = [] := ⟨rfl, rfl, rfl, rfl, rfl⟩

theorem State.inputLost_cases (s : State) :
    (s.power.state = .active ∨ s.power.state = .capped ∨ s.power.state = .quiescent ∨ s.power.state = .shuttingDown →
      ∃ t, s.inputLost = t ∧ t = { s with power := t.power, test := t.test } ∧ t.power.state = .dusk ∧
        t.power.flush = .triggered ∧ t.power.after = .off ∧ t.power.onInput = false ∧ t.power.switchOpen = true ∧
        t.test.holdsPins = false) ∧
    (s.power.state = .starting ∨ s.power.state = .shutdown → s.inputLost.power.state = .off) ∧
    (s.power.state = .dusk → s.inputLost = { s with power := { s.power with
      switchOpen := true, onInput := false, after := .off } }) := by
  refine ⟨fun h => ⟨_, State.inputLost_of_flushes ((PowerState.flushes_iff _).mpr h), rfl, rfl, rfl, rfl, rfl, rfl, rfl⟩, fun h => ?_,
    State.inputLost_of_dusk⟩
  rw [State.inputLost_of_off (by rcases h with h | h <;> rw [h] <;> rfl) (by rcases h with h | h <;> simp [h])]
  exact (State.goOff_lost _).1

theorem exec_duskFlush_spec {s : State} (h : s.power.flush = .triggered) : ∃ t, exec .duskFlush s = .next t ∧
    t.power.flush = .running ∧
    t.power.frozen = s.dirtyBytes ∧ t.power.flushSeq = s.power.flushSeq + 1 ∧ t.atr.slots = [] ∧ t.atr.stopped = true ∧
    t.sched.jobs = [] ∧ (∀ n, (t.cq n).ready = []) ∧ t.block = s.block ∧
    t.tiers = { s.tiers with objects := s.tiers.objects.map fun o => { o with appending := s.appendUnder o } } ∧
    (∀ o ∈ t.flash.ops, o.kind ≠ .erase ∧ (o.prio = .dusk ∨ ∃ q ∈ s.flash.ops, q.die = o.die ∧ q.kind = o.kind ∧
      q.unit = o.unit ∧ q.page = o.page ∧ q.st ≠ .held ∧ q.st ≠ .queued)) ∧
    (∀ x ∈ t.flash.dusk, ∃ (ps : List DuskPage) (ats : List (Nat × Nat × Nat)), x.pages =
      [.index (ps.flatMap DuskPage.entries)] ++ ps ++ [.trailer (s.power.flushSeq + 1) (ps.length + 2)
        (Config.crc32 ((ps.flatMap DuskPage.entries).flatMap DuskEntry.bytes)) ats s.err.repairs]) ∧
    ∀ p ∈ s.duskPages, ∃ x ∈ t.flash.dusk, p ∈ x.pages := by
  have hrest := s.flushBegun.layDusk_work.rest
  have hpower : s.flushBegun.layDusk.power = s.flushBegun.power := by rw [hrest]
  have hatr : s.flushBegun.layDusk.atr = s.flushBegun.atr := by rw [hrest]
  have hsched : s.flushBegun.layDusk.sched = s.flushBegun.sched := by rw [hrest]
  have hblock : s.flushBegun.layDusk.block = s.block := by rw [hrest]; rfl
  have htiers : s.flushBegun.layDusk.tiers = s.markAppends := by rw [hrest]; rfl
  have hdusk := s.flushBegun.duskLaid.dusk
  refine ⟨_, exec_duskFlush h, congrArg Power.flush hpower, congrArg Power.frozen hpower, congrArg Power.flushSeq hpower,
    congrArg Atrium.slots hatr, congrArg Atrium.stopped hatr, congrArg Sched.jobs hsched, fun n => ?_, hblock, htiers,
    fun o => State.mem_ops_layDusk, fun x hx => State.mem_shareDusk (hdusk ▸ hx), fun p hp => ?_⟩
  · rw [State.cq, hatr]
    exact s.flushBegun_cq n
  · rw [hdusk]
    exact State.exists_mem_shareDusk (State.duskPages_markAppends (s := s) (t := s.flushBegun) rfl rfl rfl ▸ hp)

theorem exec_duskFlushEnd_spec {s : State} {failed : Bool} (h : s.power.flush = .running)
    (hin : failed = false ∨ s.power.onInput = true) : ∃ t : State, exec (.duskFlushEnd failed) s = .next t.afterFlush ∧
      t = { s with flash := t.flash, ftl := t.ftl, test := t.test, err := t.err } ∧
      (∀ o ∈ t.flash.ops, o.kind ≠ .program) ∧
      (s.power.after = .off → t.afterFlush = t.goOff) ∧ (s.power.after = .restart → t.afterFlush = t.restart) ∧
      (s.power.after = .shutdown → t.afterFlush = { t with power := { s.power with
        state := .shutdown, flush := .none, shdnDone := true } }) := by
  obtain ⟨hrest, hops⟩ := s.finishPrograms_rest
  have hpower : s.finishPrograms.power = s.power := by rw [hrest]
  obtain ⟨hoff, hrestart, hshut⟩ := s.finishPrograms.afterFlush_cases
  rw [hpower] at hoff hrestart hshut
  refine ⟨_, congrArg Host.Outcome.next ((if_neg (by simp [h])).trans (if_neg ?_)), hrest, hops, hoff, hrestart, fun ha => ?_⟩
  · rcases hin with hin | hin <;> simp [hin]
  · rw [hshut ha, State.updPower, hpower]

/-- Settles O46: the requests by the equation of their step, the flush by what it queues, its end by what programs leave. -/
theorem powerLossFlushes : Obligations.PowerLossFlushes := by
  refine ⟨fun s mv hmv hs => (exec_powerFailure hmv).trans (congrArg Host.Outcome.next (if_neg hs)),
    fun s mv t0 ht hm hd hs => exec_inputToleranceExpiry ht hm hd hs, fun s hs => congrArg Host.Outcome.next (if_neg hs),
    fun s mv hs hmv => ⟨congrArg Host.Outcome.next (if_pos hs), (exec_powerFailure hmv).trans (congrArg Host.Outcome.next (if_pos hs))⟩,
    fun s => rfl, State.inputLost_cases, fun s mv => exec_inputSwitchClose, fun s => ?_,
    fun s hs => ⟨_, exec_aonLoss hs, State.goOff_lost _⟩, fun s => exec_duskFlush_spec, fun s failed hr => ⟨fun hf hi => ?_,
    exec_duskFlushEnd_spec hr⟩⟩
  · obtain ⟨hservice, hstart, hshut⟩ := exec_resetN_cases s
    obtain ⟨hask, hheld⟩ := s.askShutdown_cases
    exact ⟨fun h => ⟨hservice h, congrArg Host.Outcome.next (hask h)⟩, hstart, fun h => congrArg Host.Outcome.next (hheld h), hshut⟩
  · exact ⟨congrArg Host.Outcome.next ((if_neg (by simp [hr])).trans (if_pos (by simp [hf, hi]))), (State.goOff_lost s).1⟩

end Sys2Proof.Machine
end

section
/-! PROOF. Objects and their versions: what writes, moves, commits and retirements make of them and what they leave (chapter 7). -/
namespace Sys2Proof.Machine

/-! ### Objects, one for one -/

/-- Two lists whose members are related one for one, in order. -/
inductive Paired {α : Type} (R : α → α → Prop) : List α → List α → Prop
  | nil : Paired R [] []
  | cons {a b : α} {l m : List α} : R a b → Paired R l m → Paired R (a :: l) (b :: m)

theorem Paired.nil_left {α : Type} {R : α → α → Prop} {m : List α} (h : Paired R [] m) : m = [] := by
  cases h
  rfl

theorem Paired.cons_left {α : Type} {R : α → α → Prop} {a : α} {l m : List α} (h : Paired R (a :: l) m) :
    ∃ b k, R a b ∧ Paired R l k ∧ m = b :: k := by
  cases h with
  | cons hab hl => exact ⟨_, _, hab, hl, rfl⟩

theorem Paired.imp {α : Type} {R S : α → α → Prop} (hi : ∀ a b, R a b → S a b) {l m : List α} (h : Paired R l m) : Paired S l m := by
  induction h with
  | nil => exact .nil
  | cons hab _ ih => exact .cons (hi _ _ hab) ih

/-- The objects of `t` stand for those of `s` in order, each related to its own. -/
def Objects (R : Obj → Obj → Prop) (s t : State) : Prop := Paired R s.tiers.objects t.tiers.objects

section
variable {R : Obj → Obj → Prop}

theorem paired_refl_of {α : Type} {R : α → α → Prop} (hr : ∀ a, R a a) (l : List α) : Paired R l l :=
  match l with
  | [] => .nil
  | a :: l => .cons (hr a) (paired_refl_of hr l)

theorem paired_trans {α : Type} {R : α → α → Prop} (ht : ∀ a b c, R a b → R b c → R a c) {l m n : List α}
    (h : Paired R l m) (k : Paired R m n) : Paired R l n := by
  induction h generalizing n with
  | nil =>
    cases k
    exact .nil
  | cons hab _ ih =>
    cases k with
    | cons hbc k => exact .cons (ht _ _ _ hab hbc) (ih k)

theorem paired_map_of {α : Type} {R : α → α → Prop} {f : α → α} (hf : ∀ a, R a (f a)) (l : List α) : Paired R l (l.map f) :=
  match l with
  | [] => .nil
  | a :: l => .cons (hf a) (paired_map_of hf l)

theorem Objects.foldl {α : Type} (hr : ∀ o, R o o) (ht : ∀ o p q, R o p → R p q → R o q) {f : State → α → State}
    (hf : ∀ t a, Objects R t (f t a)) (l : List α) (s : State) : Objects R s (l.foldl f s) :=
  List.foldlRecOn (motive := fun t => Objects R s t) l f (paired_refl_of hr _) fun t h a _ => paired_trans ht h (hf t a)

theorem Objects.updObj (hr : ∀ o, R o o) {id : Nat} {f : Obj → Obj} (hf : ∀ o, o.id = id → R o (f o)) (s : State) :
    Objects R s (s.updObj id f) := by
  refine paired_map_of (fun o => ?_) _
  split
  · next h => exact hf o (by simpa using h)
  · exact hr o

theorem rel_some {α : Type} {R : α → α → Prop} {a : α} {x : Option α} (h : Option.Rel R (some a) x) : ∃ b, x = some b ∧ R a b := by
  cases h with
  | some hr => exact ⟨_, rfl, hr⟩

/-- The object found under an ID, for each side. -/
theorem Objects.find? (hid : ∀ o p, R o p → p.id = o.id) {s t : State} (h : Objects R s t) (id : Nat) :
    Option.Rel R (s.tiers.objects.find? (·.id = id)) (t.tiers.objects.find? (·.id = id)) := by
  unfold Objects at h
  generalize s.tiers.objects = l at h ⊢
  generalize t.tiers.objects = m at h ⊢
  induction h with
  | nil => exact .none
  | cons hab _ ih =>
    rw [List.find?_cons, List.find?_cons]
    rw [hid _ _ hab]
    split
    · exact .some hab
    · exact ih

theorem Objects.find?_some (hid : ∀ o p, R o p → p.id = o.id) {s t : State} (h : Objects R s t) {id : Nat} {o : Obj}
    (ho : s.tiers.objects.find? (·.id = id) = some o) : ∃ p, t.tiers.objects.find? (·.id = id) = some p ∧ R o p := by
  have hrel := h.find? hid id
  rw [ho] at hrel
  exact rel_some hrel

end

theorem find?_congr_rel {α : Type} {R : α → α → Prop} {q : α → Bool} (hq : ∀ a b, R a b → q b = q a) {l m : List α}
    (h : Paired R l m) : Option.Rel R (l.find? q) (m.find? q) := by
  induction h with
  | nil => exact .none
  | cons hab _ ih =>
    rw [List.find?_cons, List.find?_cons, hq _ _ hab]
    split
    · exact .some hab
    · exact ih

/-! ### Accesses, copies and write-back marks leave the content -/

/-- The version holds the same content, and the same pages of it are dirty. -/
structure Version.Keeps (v w : Version) : Prop where
  rest : w = { v with dirty := w.dirty }
  pages : w.dirty.map (·.page) = v.dirty.map (·.page)

theorem Version.Keeps.refl (v : Version) : v.Keeps v := ⟨rfl, rfl⟩

theorem Version.Keeps.trans {v w x : Version} (h : v.Keeps w) (k : w.Keeps x) : v.Keeps x :=
  ⟨k.rest.trans (by rw [h.rest]), k.pages.trans h.pages⟩

/-- The object holds the same content: copies, accesses and the like apart. -/
structure Obj.Keeps (o p : Obj) : Prop where
  rest : p = { o with versions := p.versions, copies := p.copies, accesses := p.accesses, deferred := p.deferred, outDram := p.outDram }
  versions : Paired Version.Keeps o.versions p.versions

theorem Obj.Keeps.of_versions {o p : Obj}
    (h : p = { o with versions := p.versions, copies := p.copies, accesses := p.accesses, deferred := p.deferred, outDram := p.outDram })
    (hv : p.versions = o.versions) : o.Keeps p := ⟨h, hv ▸ paired_refl_of Version.Keeps.refl _⟩

theorem Obj.Keeps.refl (o : Obj) : o.Keeps o := .of_versions rfl rfl

theorem Obj.Keeps.trans {o p q : Obj} (h : o.Keeps p) (k : p.Keeps q) : o.Keeps q :=
  ⟨k.rest.trans (by rw [h.rest]), paired_trans (R := Version.Keeps) (fun _ _ _ => Version.Keeps.trans) h.versions k.versions⟩

theorem Obj.Keeps.id_eq {o p : Obj} (h : o.Keeps p) : p.id = o.id := by rw [h.rest]

theorem Obj.Keeps.gone_eq {o p : Obj} (h : o.Keeps p) : p.gone = o.gone := by rw [h.rest]

theorem Version.Keeps.num_eq {v w : Version} (h : v.Keeps w) : w.num = v.num := by rw [h.rest]

/-- Work on copies and marks: outside the objects nothing changes, and every object keeps its content. -/
structure TouchWork (s t : State) : Prop where
  rest : t = { s with tiers := { s.tiers with objects := t.tiers.objects } }
  objects : Objects Obj.Keeps s t

theorem TouchWork.refl (s : State) : TouchWork s s := ⟨rfl, paired_refl_of Obj.Keeps.refl _⟩

theorem TouchWork.trans {s t u : State} (h : TouchWork s t) (k : TouchWork t u) : TouchWork s u :=
  ⟨k.rest.trans (by rw [h.rest]), paired_trans (R := Obj.Keeps) (fun _ _ _ => Obj.Keeps.trans) h.objects k.objects⟩

theorem TouchWork.foldl {α : Type} {f : State → α → State} (hf : ∀ t a, TouchWork t (f t a)) (l : List α) (s : State) :
    TouchWork s (l.foldl f s) :=
  List.foldlRecOn (motive := fun t => TouchWork s t) l f (.refl s) fun t h a _ => h.trans (hf t a)

theorem State.updObj_touchWork {id : Nat} {f : Obj → Obj} (hf : ∀ o : Obj, o.Keeps (f o)) (s : State) : TouchWork s (s.updObj id f) :=
  ⟨rfl, Objects.updObj Obj.Keeps.refl (fun o _ => hf o) s⟩

theorem State.updVer_touchWork {id n : Nat} {f : Version → Version} (hf : ∀ v : Version, v.Keeps (f v)) (s : State) :
    TouchWork s (s.updVer id n f) := by
  refine State.updObj_touchWork (fun o => ⟨rfl, paired_map_of (fun v => ?_) _⟩) s
  split
  · exact hf v
  · exact .refl v

/-- Changing marks of dirty pages keeps which pages are dirty. -/
theorem Version.Keeps.of_updWhere (v : Version) (p : DirtyPage → Bool) {f : DirtyPage → DirtyPage} (hf : ∀ d, (f d).page = d.page) :
    v.Keeps { v with dirty := updWhere p f v.dirty } := by
  refine ⟨rfl, ?_⟩
  show (updWhere p f v.dirty).map (·.page) = _
  rw [updWhere, List.map_map]
  refine List.map_congr_left fun d _ => ?_
  simp only [Function.comp_apply]
  split
  · exact hf d
  · rfl

theorem State.startWriteback_touchWork (ps : List (Nat × Nat × Nat)) (s : State) : TouchWork s (s.startWriteback ps) := by
  refine TouchWork.foldl (fun t x => State.updVer_touchWork (fun v => ?_) t) ps s
  exact .of_updWhere v _ fun _ => rfl

theorem State.dropCopy_touchWork (x : Nat × Nat × Nat) (s : State) : TouchWork s (s.dropCopy x) := by
  refine State.updObj_touchWork (fun o => ?_) s
  exact .of_versions rfl rfl

theorem State.makeRoom_touchWork (keep : List (Nat × Nat × Nat)) (fuel k : Nat) (s : State) :
    TouchWork s (s.makeRoom keep fuel k).2 := by
  induction fuel generalizing keep k s with
  | zero => exact .refl s
  | succ fuel ih =>
    unfold State.makeRoom
    split
    · exact .refl s
    · split
      · exact .refl s
      · extract_lets dirty
        split
        · exact (State.startWriteback_touchWork _ s).trans (ih _ _ _)
        · exact (State.dropCopy_touchWork _ s).trans (ih _ _ _)

theorem Obj.keeps_putCopy (o : Obj) (n u now pkg : Nat) : o.Keeps (o.putCopy n u now pkg) := by
  unfold Obj.putCopy
  split
  · exact .of_versions rfl rfl
  · split
    · exact .refl o
    · exact .of_versions rfl rfl

theorem State.copyUnits_touchWork (id n : Nat) (us : List Nat) (s : State) : TouchWork s (s.copyUnits id n us).2 := by
  have hroom := State.makeRoom_touchWork (us.map fun u => (id, n, u)) s.dramUnitsHeld (s.outside id n us).length s
  unfold State.copyUnits
  extract_lets r
  split
  · exact hroom.trans (.foldl (fun t u => State.updObj_touchWork (fun o => o.keeps_putCopy _ _ _ _) t) _ _)
  · exact hroom

theorem State.touchUnit_touchWork (id n u : Nat) (s : State) : TouchWork s (s.touchUnit id n u) := by
  unfold State.touchUnit
  split
  · exact .refl s
  · extract_lets hit again t
    have ht : TouchWork s t := by
      refine State.updObj_touchWork (fun o => ?_) s
      exact .of_versions rfl rfl
    split
    · refine State.updObj_touchWork (fun o => ?_) s
      exact .of_versions rfl rfl
    · split
      · exact ht.trans (State.copyUnits_touchWork _ _ _ _)
      · exact ht

theorem State.touch_touchWork (id n off len : Nat) (s : State) : TouchWork s (s.touch id n off len) :=
  .foldl (fun t u => State.touchUnit_touchWork id n u t) _ s

/-! ### The version found under an object and a number -/

theorem Obj.Keeps.ver? {o p : Obj} (h : o.Keeps p) (n : Nat) : Option.Rel Version.Keeps (o.ver? n) (p.ver? n) :=
  find?_congr_rel (fun v w hk => by rw [hk.num_eq]) h.versions

theorem TouchWork.version? {s t : State} (h : TouchWork s t) (id n : Nat) :
    Option.Rel Version.Keeps (s.version? id n) (t.version? id n) := by
  have hrel := h.objects.find? (fun _ _ hk => hk.id_eq) id
  unfold State.version?
  revert hrel
  generalize s.tiers.objects.find? (·.id = id) = a
  generalize t.tiers.objects.find? (·.id = id) = b
  intro hrel
  cases hrel with
  | none => exact .none
  | some hk => exact hk.ver? n

theorem TouchWork.version?_some {s t : State} (h : TouchWork s t) {id n : Nat} {v : Version} (hv : s.version? id n = some v) :
    ∃ w, t.version? id n = some w ∧ v.Keeps w := by
  have hrel := h.version? id n
  rw [hv] at hrel
  exact rel_some hrel

theorem TouchWork.version?_map {α : Type} {g : Version → α} (hg : ∀ v w : Version, v.Keeps w → g w = g v) {s t : State}
    (h : TouchWork s t) (id n : Nat) : (t.version? id n).map g = (s.version? id n).map g := by
  have hrel := h.version? id n
  revert hrel
  generalize s.version? id n = a
  generalize t.version? id n = b
  intro hrel
  cases hrel with
  | none => rfl
  | some hk => exact congrArg some (hg _ _ hk)

theorem State.version?_updVer_ne {id n i m : Nat} (h : i ≠ id ∨ m ≠ n) {f : Version → Version} (hf : ∀ v, (f v).num = v.num)
    (s : State) : (s.updVer id n f).version? i m = s.version? i m := by
  unfold State.version? State.updVer State.updObj
  dsimp only
  by_cases hi : i = id
  · subst hi
    rw [find?_updWhere_key _ (fun o : Obj => o.updVer n f) fun _ => rfl]
    have hm : m ≠ n := h.resolve_left fun h => h rfl
    cases s.tiers.objects.find? (·.id = i) with
    | none => rfl
    | some o =>
      refine find?_updWhere_ne (fun v : Version => decide (v.num = n)) (fun v => decide (v.num = m)) f ?_ ?_ o.versions
      · intro v hv
        simp only [decide_eq_true_eq] at hv
        simp only [hv, decide_eq_false_iff_not]
        exact fun h => hm h.symm
      · intro v hv
        simp only [decide_eq_true_eq] at hv
        simp only [hf, hv, decide_eq_false_iff_not]
        exact fun h => hm h.symm
  · rw [find?_updWhere_ne (fun o : Obj => decide (o.id = id)) (fun o => decide (o.id = i)) (fun o => o.updVer n f)]
    · intro o ho
      simp only [decide_eq_true_eq] at ho
      simp only [ho, decide_eq_false_iff_not]
      exact fun h => hi h.symm
    · intro o ho
      simp only [decide_eq_true_eq] at ho
      simp only [Obj.updVer, ho, decide_eq_false_iff_not]
      exact fun h => hi h.symm

end Sys2Proof.Machine
end

section
/-! PROOF. The object commands (R181, R184, R187, R195, R198 to R200, R205, R469, R545, R547). -/
namespace Sys2Proof.Machine

/-- Outside the tiers nothing changes. -/
def OnlyTiers (s t : State) : Prop := t = { s with tiers := t.tiers }

theorem OnlyTiers.trans {s t u : State} (h : OnlyTiers s t) (k : OnlyTiers t u) : OnlyTiers s u := Eq.trans k (by rw [h])

theorem OnlyTiers.of_objects {s t : State} (h : t = { s with tiers := { s.tiers with objects := t.tiers.objects } }) :
    OnlyTiers s t := h.trans (by conv => rhs; rw [h])

/-! ### Writing to a version (R188, R197) -/

/-- After pages have become dirty: the version holds the same content, and these pages of it are dirty. -/
structure Dirtied (id n : Nat) (v : Version) (ps : List Nat) (s t : State) : Prop where
  rest : t = { s with tiers := { s.tiers with objects := t.tiers.objects } }
  version : ∃ w, t.version? id n = some w ∧ w = { v with dirty := w.dirty } ∧ ∀ p ∈ ps, ∃ d ∈ w.dirty, d.page = p
  others : ∀ i m, i ≠ id ∨ m ≠ n → t.version? i m = s.version? i m

theorem exists_putDirty_self (now p : Nat) (at_ : Place) (l : List DirtyPage) : ∃ d ∈ putDirty now p at_ l, d.page = p := by
  unfold putDirty
  split
  · next h =>
    obtain ⟨d, hd, hp⟩ := List.any_eq_true.mp h
    simp only [decide_eq_true_eq] at hp
    exact ⟨_, List.mem_map_of_mem hd, by simp [hp]⟩
  · exact ⟨_, List.mem_append_right _ (List.mem_singleton_self _), rfl⟩

theorem exists_putDirty_of_exists (now q : Nat) (at_ : Place) {p : Nat} {l : List DirtyPage} (h : ∃ d ∈ l, d.page = p) :
    ∃ d ∈ putDirty now q at_ l, d.page = p := by
  obtain ⟨d, hd, hp⟩ := h
  unfold putDirty
  split
  · refine ⟨_, List.mem_map_of_mem hd, ?_⟩
    split <;> exact hp
  · exact ⟨d, List.mem_append_left _ hd, hp⟩

/-- A version found under an object and a number makes its page dirty there. -/
theorem State.dirtyPage_of_version {s : State} {id n : Nat} {v : Version} (h : s.version? id n = some v) (p : Nat) :
    ∃ at_, s.dirtyPage id n p = s.updVer id n fun v => { v with dirty := putDirty s.bt p at_ v.dirty } := by
  unfold State.version? at h
  unfold State.dirtyPage
  split at h
  · next o ho =>
    rw [ho]
    dsimp only
    rw [h]
    exact ⟨_, rfl⟩
  · cases h

theorem Dirtied.dirtyPage {id n : Nat} {v : Version} {ps : List Nat} {s t : State} (h : Dirtied id n v ps s t) (p : Nat) :
    Dirtied id n v (ps ++ [p]) s (t.dirtyPage id n p) := by
  obtain ⟨w, hw, hrest, hdirty⟩ := h.version
  obtain ⟨at_, hp⟩ := State.dirtyPage_of_version hw p
  rw [hp]
  refine ⟨?_, ⟨_, State.version?_updVer hw fun _ => rfl, ?_, fun q hq => ?_⟩, fun i m him => ?_⟩
  · conv => rhs; rw [h.rest]
    conv => lhs; rw [h.rest]
    rfl
  · conv => lhs; rw [hrest]
  · rcases List.mem_append.mp hq with hq | hq
    · exact exists_putDirty_of_exists _ _ _ (hdirty q hq)
    · rw [List.mem_singleton.mp hq]
      exact exists_putDirty_self _ _ _ _
  · refine (State.version?_updVer_ne him (fun v => ?_) t).trans (h.others i m him)
    rfl

theorem Dirtied.foldl {id n : Nat} {v : Version} {s : State} (l : List Nat) {ps : List Nat} {t : State} (h : Dirtied id n v ps s t) :
    Dirtied id n v (ps ++ l) s (l.foldl (fun t p => t.dirtyPage id n p) t) := by
  induction l generalizing ps t with
  | nil => simpa using h
  | cons p l ih =>
    have hnext := ih (h.dirtyPage p)
    rwa [List.append_assoc] at hnext

/-- The version with the bytes of a write in it, before its pages are marked. -/
def Version.written_ (v : Version) (off : Nat) (bs : Bytes) : Version :=
  let ps := pagesOf off bs.length
  let whole := ps.filter fun p => off ≤ p * 4096 && p * 4096 + 4096 ≤ off + bs.length
  { v with data := memWrite v.data off bs, written := (v.written ++ ps).eraseDups, lost := v.lost.filter fun p => !whole.contains p }

/-- What a write makes of its version: the bytes in DRAM and their pages dirty; every other version holds what it held. -/
structure WritesTo (id n off : Nat) (bs : Bytes) (v : Version) (s t : State) : Prop where
  rest : OnlyTiers s t
  version : ∃ w, t.version? id n = some w ∧ w = { v.written_ off bs with dirty := w.dirty } ∧
    ∀ p ∈ pagesOf off bs.length, ∃ d ∈ w.dirty, d.page = p
  others : ∀ i m, i ≠ id ∨ m ≠ n → (t.version? i m).map (fun y => (y.data, y.state)) = (s.version? i m).map fun y => (y.data, y.state)

theorem Version.Keeps.exists_dirty {v w : Version} (h : v.Keeps w) {p : Nat} (hp : ∃ d ∈ v.dirty, d.page = p) : ∃ d ∈ w.dirty, d.page = p := by
  have hmem : p ∈ w.dirty.map (·.page) := by
    rw [h.pages]
    exact List.mem_map.mpr hp
  exact List.mem_map.mp hmem

/-- The throttle is set again: only the tiers change. -/
theorem State.throttle_rest {s t : State} (h : OnlyTiers s t) : OnlyTiers s t.throttle := by
  unfold OnlyTiers at h ⊢
  rw [h]
  rfl

/-- A write before the throttle is set again. -/
def State.putBytes (id n off : Nat) (bs : Bytes) (s : State) : State :=
  ((pagesOf off bs.length).foldl (fun t p => t.dirtyPage id n p) (s.updVer id n fun v => v.written_ off bs)).touch id n off bs.length

theorem State.writeVersion_eq (id n off : Nat) (bs : Bytes) (s : State) :
    s.writeVersion id n off bs = (s.putBytes id n off bs).throttle := rfl

theorem State.writeVersion_writesTo {s : State} {id n : Nat} {v : Version} (h : s.version? id n = some v) (off : Nat) (bs : Bytes) :
    WritesTo id n off bs v s (s.writeVersion id n off bs) := by
  have hput : Dirtied id n (v.written_ off bs) [] (s.updVer id n fun v => v.written_ off bs)
      (s.updVer id n fun v => v.written_ off bs) :=
    ⟨rfl, ⟨_, State.version?_updVer h fun _ => rfl, rfl, fun p hp => absurd hp List.not_mem_nil⟩, fun _ _ _ => rfl⟩
  have hdirty := hput.foldl (pagesOf off bs.length)
  obtain ⟨w, hw, hrest, hpages⟩ := hdirty.version
  have htouch := State.touch_touchWork id n off bs.length
    ((pagesOf off bs.length).foldl (fun t p => t.dirtyPage id n p) (s.updVer id n fun v => v.written_ off bs))
  obtain ⟨x, hx, hkeep⟩ := htouch.version?_some hw
  refine ⟨?_, ⟨x, hx, ?_, fun p hp => hkeep.exists_dirty (hpages p hp)⟩, fun i m him => ?_⟩
  · exact State.throttle_rest (t := s.putBytes id n off bs)
      ((OnlyTiers.of_objects rfl).trans ((OnlyTiers.of_objects hdirty.rest).trans (.of_objects htouch.rest)))
  · rw [hkeep.rest, hrest]
  · have hkept := htouch.version?_map (g := fun y => (y.data, y.state)) (fun a b hk => by rw [hk.rest]) i m
    refine hkept.trans (congrArg _ ?_)
    exact (hdirty.others i m him).trans (State.version?_updVer_ne (f := fun v => v.written_ off bs) him (fun _ => rfl) s)

/-! ### New versions, commits and retirements (R195 to R197, R199) -/

theorem State.version?_of_objects {s t : State} (h : t.tiers.objects = s.tiers.objects) (id n : Nat) :
    t.version? id n = s.version? id n := by
  unfold State.version?
  rw [h]

theorem find?_append_ne {l : List Version} {v : Version} {m : Nat} (h : v.num ≠ m) :
    (l ++ [v]).find? (·.num = m) = l.find? (·.num = m) := by
  rw [List.find?_append]
  simp [h]

/-- The BUILDING version of a number that an object gets, with its home. -/
def Obj.nextVersion (o : Obj) (n lun : Nat) : Version :=
  match o.current? with
  | some c => { c with num := n, state := .building, lun := lun, pins := 0, dirty := [], written := []
                       impaired := false, image := none, index := {}, data := c.data.filter fun b => b.1 < c.size }
  | none => { num := n, state := .building, lun := lun, size := o.size }

theorem Obj.nextVersion_num (o : Obj) (n lun : Nat) : (o.nextVersion n lun).num = n := by
  unfold Obj.nextVersion
  split <;> rfl

theorem State.newVersion_of_obj {s : State} {id : Nat} {o : Obj} (h : s.obj? id = some o) (n : Nat) : s.newVersion id n =
    ((s.takeLuns (homeBytes o.kind o.size)).2.updObj id fun p =>
      { p with versions := p.versions ++ [o.nextVersion n (s.grade.units + s.tiers.nextLun)] }).fitSlc := by
  unfold State.newVersion
  rw [h]
  rfl

/-- Appending a version of another number leaves the version found. -/
theorem State.version?_append_ne {s : State} {id : Nat} {v : Version} {i m : Nat} (h : i ≠ id ∨ m ≠ v.num) :
    (s.updObj id fun p => { p with versions := p.versions ++ [v] }).version? i m = s.version? i m := by
  unfold State.version? State.updObj
  dsimp only
  by_cases hi : i = id
  · subst hi
    rw [find?_updWhere_key _ (fun p : Obj => { p with versions := p.versions ++ [v] }) fun _ => rfl]
    have hm : v.num ≠ m := fun hm => (h.resolve_left fun h => h rfl) hm.symm
    cases s.tiers.objects.find? (·.id = i) with
    | none => rfl
    | some o => exact find?_append_ne hm
  · rw [find?_updWhere_ne (fun o : Obj => decide (o.id = id)) (fun o => decide (o.id = i))
      (fun p : Obj => { p with versions := p.versions ++ [v] })]
    · intro o ho
      simp only [decide_eq_true_eq] at ho
      simp only [ho, decide_eq_false_iff_not]
      exact fun h => hi h.symm
    · intro o ho
      simp only [decide_eq_true_eq] at ho
      simp only [ho, decide_eq_false_iff_not]
      exact fun h => hi h.symm

/-- A new version leaves the others as they are. -/
theorem State.version?_newVersion_ne (id n : Nat) (s : State) {i m : Nat} (h : i ≠ id ∨ m ≠ n) :
    (s.newVersion id n).version? i m = s.version? i m := by
  cases ho : s.obj? id with
  | none =>
    unfold State.newVersion
    rw [ho]
  | some o =>
    rw [State.newVersion_of_obj ho]
    exact State.version?_append_ne (s := (s.takeLuns (homeBytes o.kind o.size)).2) (by rwa [Obj.nextVersion_num])

/-- The first element that satisfies `q` is still the first of those that satisfy `p`, where it is one of them. -/
theorem find?_filter_of_pos {α : Type} {p q : α → Bool} {l : List α} {a : α} (h : l.find? q = some a) (hp : p a = true) :
    (l.filter p).find? q = some a := by
  induction l with
  | nil => cases h
  | cons x xs ih =>
    rw [List.find?_cons] at h
    by_cases hq : q x = true
    · simp only [hq] at h
      cases h
      simp [hp, hq]
    · simp only [Bool.not_eq_true] at hq
      simp only [hq] at h
      by_cases hx : p x = true
      · simp [hx, hq, ih h]
      · simp [hx, ih h]

/-- The homes that the retirement of versions leaves, before the object itself goes. -/
def State.unmapHomes (hs : List (Nat × Nat)) (s : State) : State := hs.foldl (fun t h => t.unmapHome h.1 h.2) s

theorem State.unmapHome_work (lun n : Nat) (s : State) : FlashWork s (s.unmapHome lun n) := by
  unfold State.unmapHome
  refine FlashWork.trans (t := s.dropStores _) ⟨rfl, rfl, rfl⟩ (.foldl (fun t u => ?_) _ _)
  exact State.setMap_work u 0 t

theorem State.unmapHomes_work (hs : List (Nat × Nat)) (s : State) : FlashWork s (s.unmapHomes hs) := by
  refine FlashWork.foldl (fun t h => ?_) hs s
  exact State.unmapHome_work h.1 h.2 t

/-- What settling an object leaves of the state. -/
theorem State.settleObj_eq (id : Nat) (s : State) : ∃ hs, s.settleObj id =
    (let t := (s.updObj id Obj.settle).unmapHomes hs
     ({ t with tiers := { t.tiers with
       objects := t.tiers.objects.filter fun o => !(o.id = id && o.gone && o.versions.isEmpty) } } : State).purgeHot) := ⟨_, rfl⟩

theorem State.settleObj_objects (id : Nat) (s : State) : (s.settleObj id).tiers.objects =
    (s.updObj id Obj.settle).tiers.objects.filter fun o => !(o.id = id && o.gone && o.versions.isEmpty) := by
  obtain ⟨hs, h⟩ := s.settleObj_eq id
  rw [h]
  show ((s.updObj id Obj.settle).unmapHomes hs).tiers.objects.filter _ = _
  rw [(State.unmapHomes_work hs (s.updObj id Obj.settle)).rest]

theorem State.settleObj_atr (id : Nat) (s : State) : (s.settleObj id).atr = s.atr := by
  obtain ⟨hs, h⟩ := s.settleObj_eq id
  rw [h]
  show ((s.updObj id Obj.settle).unmapHomes hs).atr = _
  rw [(State.unmapHomes_work hs (s.updObj id Obj.settle)).rest]
  rfl

/-- A version that is not RETIRED outlives the settling of its object. -/
theorem State.version?_settleObj {s : State} {id n : Nat} {v : Version} (h : s.version? id n = some v) (hr : v.retired = false) :
    (s.settleObj id).version? id n = some v := by
  unfold State.version? at h ⊢
  rw [State.settleObj_objects]
  cases ho : s.tiers.objects.find? (·.id = id) with
  | none => simp [ho] at h
  | some o =>
    rw [ho] at h
    dsimp only at h
    have hkept : (!v.retired) = true := by simp [hr]
    have hver : o.settle.ver? n = some v := find?_filter_of_pos (p := fun v : Version => !v.retired) h hkept
    have hfind : (s.updObj id Obj.settle).tiers.objects.find? (·.id = id) = some o.settle :=
      (find?_updWhere_key _ Obj.settle (fun _ => rfl) _).trans (by rw [ho]; rfl)
    have hne : o.settle.versions ≠ [] := by
      intro hnil
      simp [Obj.ver?, hnil] at hver
    rw [find?_filter_of_pos hfind (by simp [hne])]
    exact hver

/-- An object whose BUILDING version of a number is committed. -/
def Obj.committed (n : Nat) (o : Obj) : Obj :=
  if o.versions.any fun v => v.num = n && v.state = .building then
    { o with versions := o.versions.map fun v =>
        if v.num = n then { v with state := .current, written := [] }
        else if v.state = .current then { v with state := .superseded } else v }
  else o

theorem Obj.committed_id (n : Nat) (o : Obj) : (o.committed n).id = o.id := by
  unfold Obj.committed
  split <;> rfl

theorem Obj.ver?_committed {o : Obj} {n : Nat} {v : Version} (h : o.ver? n = some v)
    (hany : (o.versions.any fun v => v.num = n && v.state = .building) = true) :
    (o.committed n).ver? n = some { v with state := .current, written := [] } := by
  rw [Obj.committed, if_pos hany]
  unfold Obj.ver? at h ⊢
  dsimp only
  generalize o.versions = l at h
  induction l with
  | nil => cases h
  | cons x xs ih =>
    rw [List.find?_cons] at h
    rw [List.map_cons, List.find?_cons]
    by_cases hx : x.num = n
    · simp only [hx, decide_true] at h
      cases h
      simp [hx]
    · simp only [hx, decide_false] at h
      have hnum : (if x.state = .current then { x with state := .superseded } else x).num = x.num := by split <;> rfl
      simp only [hx, if_false, hnum, decide_false]
      exact ih h

/-- A BUILDING version that is committed is CURRENT, with its content. -/
theorem State.version?_commit {s : State} {id n : Nat} {v : Version} (h : s.version? id n = some v) (hb : v.state = .building) :
    (s.commit id n).version? id n = some { v with state := .current, written := [] } := by
  refine State.version?_settleObj ?_ rfl
  unfold State.version? at h ⊢
  cases ho : s.tiers.objects.find? (·.id = id) with
  | none => simp [ho] at h
  | some o =>
    rw [ho] at h
    dsimp only at h
    have hany : (o.versions.any fun v => v.num = n && v.state = .building) = true :=
      List.any_eq_true.mpr ⟨v, List.mem_of_find?_eq_some h, by
        have := List.find?_some h
        simpa [hb] using this⟩
    have hfind : (s.updObj id (Obj.committed n)).tiers.objects.find? (·.id = id) = some (o.committed n) :=
      (find?_updWhere_key _ (Obj.committed n) (fun p => by rw [Obj.committed_id]) _).trans (by rw [ho]; rfl)
    show (match (s.updObj id (Obj.committed n)).tiers.objects.find? (·.id = id) with | some o => o.ver? n | none => none) = _
    rw [hfind]
    exact Obj.ver?_committed h hany

/-- A version that is retired and still there is RETIRING and pinned. -/
theorem State.version?_retire {s : State} {id n : Nat} {v : Version} (h : (s.retire id n).version? id n = some v) :
    v.state = .retiring ∧ 0 < v.pins := by
  unfold State.version? at h
  cases ho : (s.retire id n).tiers.objects.find? (·.id = id) with
  | none => simp [ho] at h
  | some o =>
    rw [ho] at h
    dsimp only at h
    have hid : o.id = id := by simpa using List.find?_some ho
    have hmem := List.mem_of_find?_eq_some ho
    rw [State.retire, State.settleObj_objects] at hmem
    obtain ⟨p, hp, hpo⟩ := List.mem_map.mp (List.mem_filter.mp hmem).1
    obtain ⟨q, -, hqp⟩ := List.mem_map.mp hp
    have hpid : p.id = id := by
      by_cases hpid : p.id = id
      · exact hpid
      · rw [if_neg (by simpa using hpid)] at hpo
        exact absurd (hpo ▸ hid) hpid
    rw [if_pos (by simpa using hpid)] at hpo
    have hv := List.mem_of_find?_eq_some h
    have hnum : v.num = n := by simpa using List.find?_some h
    rw [← hpo] at hv
    obtain ⟨hv, hkept⟩ := List.mem_filter.mp hv
    have hstate : v.state = .retiring := by
      have hqid : q.id = id := by
        by_cases hqid : q.id = id
        · exact hqid
        · rw [if_neg (by simpa using hqid)] at hqp
          exact absurd (hqp ▸ hpid) hqid
      rw [if_pos (by simpa using hqid)] at hqp
      rw [← hqp] at hv
      obtain ⟨w, -, hw⟩ := List.mem_map.mp hv
      by_cases hwn : w.num = n
      · rw [if_pos (by simpa using hwn)] at hw
        rw [← hw]
      · rw [if_neg (by simpa using hwn)] at hw
        exact absurd (hw ▸ hnum) hwn
    refine ⟨hstate, ?_⟩
    simp only [Version.retired, hstate] at hkept
    simp at hkept
    omega

/-- An object given up with every version of it: no object of the ID is left to name. -/
theorem State.obj?_settleObj_of_gone {s : State} {id : Nat} (h : ∀ o ∈ s.tiers.objects, o.id = id → o.gone = true) :
    (s.settleObj id).obj? id = none := by
  unfold State.obj?
  rw [State.settleObj_objects, List.find?_eq_none]
  intro o ho
  obtain ⟨p, hp, hpo⟩ := List.mem_map.mp (List.mem_filter.mp ho).1
  have hg : p.id = id → p.gone = true := h p hp
  by_cases hpid : p.id = id
  · rw [if_pos (by simpa using hpid)] at hpo
    rw [← hpo]
    simp [Obj.settle, hg hpid]
  · rw [if_neg (by simpa using hpid)] at hpo
    rw [← hpo]
    simp [hpid]

/-! ### OBJECT_CREATE (R184, R198) -/

theorem lowest_mem {l : List Nat} {x : Nat} (h : lowest l = some x) : x ∈ l := by
  induction l generalizing x with
  | nil => cases h
  | cons y ys ih =>
    unfold lowest at h
    cases hy : lowest ys with
    | none =>
      rw [hy] at h
      cases h
      exact List.mem_cons_self
    | some z =>
      rw [hy] at h
      cases h
      rcases Nat.le_total y z with hle | hle
      · rw [show Nat.min y z = y from Nat.min_eq_left hle]
        exact List.mem_cons_self
      · rw [show Nat.min y z = z from Nat.min_eq_right hle]
        exact List.mem_cons_of_mem _ (ih hy)

theorem State.freeBase_free {s : State} {size b : Nat} (h : s.freeBase size = some b) {p : Obj} (hp : p ∈ s.tiers.objects) :
    rangesMeet b size p.base p.span = false := by
  obtain ⟨-, hfree⟩ := List.mem_filter.mp (lowest_mem h)
  simp only [Bool.and_eq_true, Bool.not_eq_true', List.any_eq_false] at hfree
  exact Bool.not_eq_true _ ▸ hfree.2 p hp

/-- The version and the object that a creating command makes. -/
def State.createdVersion (size ver : Nat) (building : Bool) (s : State) : Version :=
  { num := ver, state := if building then .building else .current, size := size, lun := s.grade.units + s.tiers.nextLun }

def State.createdObj (id kind tier size ver : Nat) (durable building : Bool) (s : State) : Obj :=
  { id := id, kind := kind, durable := durable, tier := tier
    base := if s.tiers.flagsView then 0 else (s.freeBase (reserveOf kind size)).getD 0
    size := size, versions := [s.createdVersion size ver building] }

theorem State.createObj_objects (id kind tier size ver : Nat) (durable building : Bool) (s : State) :
    (s.createObj id kind tier size ver durable building).tiers.objects =
      s.tiers.objects ++ [s.createdObj id kind tier size ver durable building] := rfl

theorem State.obj?_createObj_same {s : State} {id : Nat} (h : s.idHeld id = false) (kind tier size ver : Nat) (durable building : Bool) :
    (s.createObj id kind tier size ver durable building).obj? id = some (s.createdObj id kind tier size ver durable building) := by
  have hnone : s.tiers.objects.find? (fun o => o.id = id ∧ !o.gone) = none := by
    refine List.find?_eq_none.mpr fun o ho => ?_
    have := List.any_eq_false.mp h o ho
    simp at this
    simp [this]
  rw [State.obj?, State.createObj_objects, List.find?_append, hnone]
  simp [State.createdObj]

theorem State.obj?_createObj_ne {s : State} {id i : Nat} (h : i ≠ id) (kind tier size ver : Nat) (durable building : Bool) :
    (s.createObj id kind tier size ver durable building).obj? i = s.obj? i := by
  rw [State.obj?, State.createObj_objects, List.find?_append]
  simp [State.createdObj, Ne.symm h, State.obj?]

theorem State.freeBase_isSome_of_createError {s : State} {kind size tier : Nat} {durable : Bool}
    (h : s.createError kind size tier durable = none) (hf : s.tiers.flagsView = false) :
    ∃ b, s.freeBase (reserveOf kind size) = some b := by
  unfold State.createError at h
  dsimp only at h
  split at h
  · cases h
  · split at h
    · cases h
    · split at h
      · cases h
      · split at h
        · cases h
        · next hn =>
          simp only [hf, Bool.not_false, Bool.true_and, Bool.not_eq_true, Option.isNone_eq_false_iff] at hn
          exact Option.isSome_iff_exists.mp hn

section
variable {s : State} {slot : Nat} {c : Slot} (k : Handed s slot 0x20 true c) (hid : s.idHeld (c.arg 40 4) = false)
include k hid

theorem exec_objectCreate_of_error {st : Status} (h : s.createError (c.arg 46 1) (c.arg 48 8) (c.arg 47 1 / 4 % 4)
    (s.classOf (c.arg 46 1) (c.arg 47 1 % 4) (c.arg 47 1 / 4 % 4)) = some st) :
    exec (.objectCreate slot) s = .next (s.finish slot st 0 0) := by
  refine congrArg Host.Outcome.next ((k.run _).trans ((if_neg (by simp [hid])).trans ?_))
  rw [h]
  rfl

theorem exec_objectCreate_of_ok (h : s.createError (c.arg 46 1) (c.arg 48 8) (c.arg 47 1 / 4 % 4)
    (s.classOf (c.arg 46 1) (c.arg 47 1 % 4) (c.arg 47 1 / 4 % 4)) = none) :
    ∃ t o, t = s.createObj (c.arg 40 4) (c.arg 46 1) (c.arg 47 1 / 4 % 4) (c.arg 48 8) (c.arg 44 2)
        (s.classOf (c.arg 46 1) (c.arg 47 1 % 4) (c.arg 47 1 / 4 % 4)) false ∧
      o = s.createdObj (c.arg 40 4) (c.arg 46 1) (c.arg 47 1 / 4 % 4) (c.arg 48 8) (c.arg 44 2)
        (s.classOf (c.arg 46 1) (c.arg 47 1 % 4) (c.arg 47 1 / 4 % 4)) false ∧
      t.obj? (c.arg 40 4) = some o ∧
      exec (.objectCreate slot) s = .next ((t.writeResult c 0 (leBytes 8 o.base ++ zeroBytes 8)).finish slot .ok 0 0) := by
  have ho := State.obj?_createObj_same hid (c.arg 46 1) (c.arg 47 1 / 4 % 4) (c.arg 48 8) (c.arg 44 2)
    (s.classOf (c.arg 46 1) (c.arg 47 1 % 4) (c.arg 47 1 / 4 % 4)) false
  refine ⟨_, _, rfl, rfl, ho, congrArg Host.Outcome.next ((k.run _).trans ((if_neg (by simp [hid])).trans ?_))⟩
  rw [h]
  dsimp only
  rw [ho]
  rfl

end

/-! ### OBJECT_READ (R181, R199, R469) -/

theorem State.readVersion_of_whole {s : State} {c : Slot} {id n off len : Nat} {v : Version} (hv : s.version? id n = some v)
    (hl : v.firstLost off len = none) :
    s.readVersion c id n off len = ((s.touch id n off len).writeResult c 0 (memRead v.data off len)).done c.id 0 := by
  simp only [State.readVersion, hv, hl]

theorem State.readVersion_of_lost {s : State} {c : Slot} {id n off len p : Nat} {v : Version} (hv : s.version? id n = some v)
    (hl : v.firstLost off len = some p) :
    s.readVersion c id n off len = ((s.touch id n off len).writeResult c 0 (memRead v.data off (p * 4096 - off))).fail c.id
      .mediaUncorrectable (p * 4096 - off) := by
  simp only [State.readVersion, hv, hl]

theorem State.version?_of_find? {s : State} {id n : Nat} {o : Obj} (h : s.tiers.objects.find? (·.id = id) = some o) :
    s.version? id n = o.ver? n := by
  rw [State.version?, h]

theorem exec_objectRead {s : State} {slot : Nat} {c : Slot} {id n : Nat} {ps : List (Nat × Nat)} {o : Obj}
    (k : Handed s slot 0x22 true c) (hp : c.pins = (id, n) :: ps) (ho : s.tiers.objects.find? (·.id = id) = some o) :
    let off := if bitAt (c.arg 46 1) 3 then c.arg 48 8 - o.base else c.arg 48 8
    exec (.objectRead slot) s = .next (if (s.flashReads id n [(off, c.resultLen)]).isEmpty then s.readVersion c id n off c.resultLen
      else s.startReads slot (s.flashReads id n [(off, c.resultLen)])) := by
  have hoff : s.readOffset c id = if bitAt (c.arg 46 1) 3 then c.arg 48 8 - o.base else c.arg 48 8 := by
    rw [State.readOffset, ho]
  intro off
  refine congrArg Host.Outcome.next ((k.run _).trans ?_)
  simp only [hp, State.endObjectRead, hoff]
  rfl

/-! ### OBJECT_WRITE (R188, R196 to R199) -/

/-- The state a write starts from: with a new version, it is there, and the command holds it. -/
def State.writeStart (c : Slot) (id n : Nat) (s : State) : State :=
  if writeNew c.entry then (s.newVersion id n).holdVersion c.id id n else s

/-- The durable bytes of a write are accounted for. -/
def State.chargeWrite (o : Obj) (k : Nat) (s : State) : State := if o.durable then s.takeCredit (4096 * k) else s

theorem State.chargeWrite_rest (o : Obj) (k : Nat) (s : State) :
    s.chargeWrite o k = { s with tiers := { (s.chargeWrite o k).tiers with objects := s.tiers.objects } } := by
  unfold State.chargeWrite
  split <;> rfl

theorem State.newVersion_hostMem (id n : Nat) (s : State) : (s.newVersion id n).hostMem = s.hostMem := by
  unfold State.newVersion
  split <;> rfl

theorem State.newVersion_atr (id n : Nat) (s : State) : (s.newVersion id n).atr = s.atr := by
  unfold State.newVersion
  split <;> rfl

theorem State.writeStart_hostMem (c : Slot) (id n : Nat) (s : State) : (s.writeStart c id n).hostMem = s.hostMem := by
  unfold State.writeStart
  split
  · exact State.newVersion_hostMem id n s
  · rfl

/-- The version that a write reaches, once it holds the pin of its command. -/
theorem State.version?_writeStart {s : State} {c : Slot} {id n : Nat} {v : Version}
    (h : (if writeNew c.entry then s.newVersion id n else s).version? id n = some v) :
    ∃ w, (s.writeStart c id n).version? id n = some w ∧ w = { v with pins := w.pins } := by
  unfold State.writeStart
  split
  · next hn =>
    rw [if_pos hn] at h
    have hpin : ((s.newVersion id n).pin (id, n)).version? id n = some { v with pins := v.pins + 1 } :=
      State.version?_updVer h fun _ => rfl
    exact ⟨_, hpin, rfl⟩
  · next hn =>
    rw [if_neg hn] at h
    exact ⟨v, h, rfl⟩

theorem State.version?_writeStart_ne (c : Slot) (id n : Nat) (s : State) {i m : Nat} (h : i ≠ id ∨ m ≠ n) :
    (s.writeStart c id n).version? i m = s.version? i m := by
  unfold State.writeStart
  split
  · exact (State.version?_updVer_ne (f := fun v => { v with pins := v.pins + 1 }) h (fun _ => rfl) (s.newVersion id n)).trans
      (State.version?_newVersion_ne id n s h)
  · rfl

/-- A write that nothing refuses or holds back is applied. -/
theorem State.doObjectWrite_of_ok {s : State} {c : Slot} {id n off len : Nat} {o : Obj} {v : Version}
    (hr : s.writeRange c = some (id, n, off, len)) (ho : s.tiers.objects.find? (·.id = id) = some o)
    (hnew : writeNew c.entry = true → ∀ x ∈ s.newVersionChecks o n o.size, x.1 = false)
    (hv : (if writeNew c.entry then s.newVersion id n else s).version? id n = some v)
    (himp : writeNew c.entry = false → v.impaired = false)
    (hprot : s.protected = true → o.durable = false ∧ writeForce c.entry = false ∧ s.writesThrough o = false)
    (hadm : o.durable = true → s.admitsDirty (4096 * (pagesOf off len).length) = true) :
    s.doObjectWrite c = (s.writeStart c id n).applyWrite c o n off := by
  have hchecks : (if writeNew c.entry then (s.newVersionChecks o n o.size).find? (·.1) else none) = none := by
    split
    · next hn => exact List.find?_eq_none.mpr fun x hx => by simp [hnew hn x hx]
    · rfl
  have hver : (!(writeNew c.entry) && (o.ver? n).isNone) = false ∧ (match o.ver? n with | some v => v.impaired | none => false) = false := by
    by_cases hn : writeNew c.entry = true
    · have hfirst := hnew hn _ List.mem_cons_self
      simp only [Bool.or_eq_false_iff] at hfirst
      have hnone : o.ver? n = none := by simpa using hfirst.2
      simp [hn, hnone]
    · simp only [Bool.not_eq_true] at hn
      rw [hn] at hv
      have hvo : o.ver? n = some v := (State.version?_of_find? ho).symm.trans hv
      simp [hvo, himp hn]
  have hprotected : (s.protected && (o.durable || writeForce c.entry || s.writesThrough o)) = false := by
    cases hp : s.protected with
    | false => rfl
    | true =>
      obtain ⟨h1, h2, h3⟩ := hprot hp
      simp [h1, h2, h3]
  have hheld : (o.durable && !s.admitsDirty (4096 * (pagesOf off len).length)) = false := by
    cases hd : o.durable with
    | false => rfl
    | true => simp [hadm hd]
  unfold State.doObjectWrite
  simp only [hr, ho]
  rw [hchecks]
  exact (if_neg (Bool.eq_false_iff.mp hver.1)).trans ((if_neg (Bool.eq_false_iff.mp hver.2)).trans
    ((if_neg (Bool.eq_false_iff.mp hprotected)).trans (if_neg (Bool.eq_false_iff.mp hheld))))

/-- The state in which the bytes of a write stand, and what comes of the command then. -/
theorem exec_objectWrite {s : State} {slot : Nat} {c : Slot} {id n off len : Nat} {o : Obj} {v : Version}
    (k : Handed s slot 0x21 false c) (ha : s.writeAhead c = false)
    (hr : s.writeRange c = some (id, n, off, len)) (ho : s.tiers.objects.find? (·.id = id) = some o)
    (hnew : writeNew c.entry = true → ∀ x ∈ s.newVersionChecks o n o.size, x.1 = false)
    (hv : (if writeNew c.entry then s.newVersion id n else s).version? id n = some v)
    (himp : writeNew c.entry = false → v.impaired = false)
    (hprot : s.protected = true → o.durable = false ∧ writeForce c.entry = false ∧ s.writesThrough o = false)
    (hadm : o.durable = true → s.admitsDirty (4096 * (pagesOf off len).length) = true) :
    let b := s.dataBytes c
    let ps := pageList id n off b.length
    let w := ((s.writeStart c id n).chargeWrite o ps.length).writeVersion id n off b
    exec (.objectWrite slot) s = .next (if writeCommit c.entry then w.commitWrite c o n ps else w.ackWrite slot o (writeForce c.entry) ps 0) := by
  intro b ps w
  have hid : o.id = id := by simpa using List.find?_some ho
  have hbytes : (s.writeStart c id n).dataBytes c = b := by rw [State.dataBytes, State.writeStart_hostMem]; rfl
  refine congrArg Host.Outcome.next ((k.run _).trans ((if_neg (by simp [ha])).trans
    ((State.doObjectWrite_of_ok hr ho hnew hv himp hprot hadm).trans ?_)))
  unfold State.applyWrite
  rw [hbytes, hid, k.id_eq]
  rfl

/-- The checks of the last commit of an index pass. -/
def Obj.cleared (o : Obj) : Obj := if o.kind = 3 then { o with lastCheck := 0, lastNode := 0 } else o

theorem State.version?_cleared (id n : Nat) (s : State) : (s.updObj id Obj.cleared).version? id n = s.version? id n := by
  have hid : ∀ o : Obj, o.cleared.id = o.id := fun o => by unfold Obj.cleared; split <;> rfl
  have hver : ∀ o : Obj, o.cleared.ver? n = o.ver? n := fun o => by unfold Obj.cleared; split <;> rfl
  unfold State.version? State.updObj
  dsimp only
  rw [find?_updWhere_key _ Obj.cleared (fun p => by rw [hid])]
  cases s.tiers.objects.find? (·.id = id) with
  | none => rfl
  | some p => exact hver p

section
variable {w : State} {c : Slot} {o : Obj} {n : Nat} {x : Version} (ps : List (Nat × Nat × Nat))
  (hx : w.version? o.id n = some x) (hb : x.state = .building)
include hx hb

theorem State.commitWrite_of_lost (hl : x.lost ≠ []) : w.commitWrite c o n ps = w.fail c.id .mediaUncorrectable 0 := by
  unfold State.commitWrite
  rw [hx]
  exact (if_neg (by simp [hb])).trans (if_pos (by simp [hl]))

theorem State.commitWrite_of_ok (hl : x.lost = []) (hf : w.commitFault o x = none) : ∃ (t : State) (y : Version),
    w.commitWrite c o n ps = t.ackWrite c.id o (writeForce c.entry) ps 0 ∧ t.version? o.id n = some y ∧ y.state = .current ∧
      y.data = x.data := by
  have hcommit : ((w.commit o.id n).updObj o.id Obj.cleared).version? o.id n = some { x with state := .current, written := [] } :=
    (State.version?_cleared _ _ _).trans (State.version?_commit hx hb)
  refine ⟨((w.commit o.id n).updObj o.id Obj.cleared).fitSlc, _, ?_, hcommit, rfl, rfl⟩
  unfold State.commitWrite
  rw [hx]
  refine (if_neg (by simp [hb])).trans ((if_neg (by simp [hl])).trans ?_)
  rw [hf]
  rfl

end

/-! ### OBJECT_RETIRE (R199) -/

theorem exec_objectRetire {s : State} {slot : Nat} {c : Slot} {o : Obj} (k : Handed s slot 0x24 false c)
    (ho : s.obj? (c.arg 40 4) = some o) : exec (.objectRetire slot) s = .next (
      if c.arg 44 2 ≠ 0 then (s.retire (c.arg 40 4) (c.arg 44 2)).done slot 0
      else (((s.updObj (c.arg 40 4) fun o => { o with
        gone := true, refs := o.refs.filter (·.who ≠ .host)
        versions := o.versions.map fun v => { v with state := .retiring } }).settleObj o.id).fitSlc).done slot 0) := by
  refine congrArg Host.Outcome.next ((k.run _).trans ?_)
  dsimp only
  rw [ho]

/-- A command that ends in a state whose slots are those it found has its slot done. -/
theorem State.slot?_finish_of_atr {s t : State} {slot op : Nat} {w : Bool} {c : Slot} (k : Handed s slot op w c) (ha : t.atr = s.atr)
    (st : Status) (result info : Nat) : ∃ d, (t.finish slot st result info).slot? slot = some d ∧ d.phase = .done := by
  have hslot : t.slot? slot = some c := by
    rw [State.slot?, ha]
    exact k.held
  exact ⟨c.ended, State.slot?_finish_of_open st result info hslot (by simp [k.phase]), rfl⟩

/-! ### OBJECT_MOVE (R200, R203 to R205) -/

theorem State.rehome_work (lun : Nat) (s : State) : FlashWork s (s.rehome lun) := by
  unfold State.rehome
  split
  · exact .refl s
  · exact .ite (State.storeMove_work _ _ _ s) (.refl s)

theorem State.bringHome_work (id n u : Nat) (s : State) : FlashWork s (s.bringHome id n u) := by
  unfold State.bringHome
  split
  · exact State.rehome_work _ s
  · exact .refl s

theorem FlashWork.tiers {s t : State} (h : FlashWork s t) : t.tiers = s.tiers := by rw [h.rest]

theorem State.bringHome_objects (id n u : Nat) (s : State) : (s.bringHome id n u).tiers.objects = s.tiers.objects := by
  rw [(State.bringHome_work id n u s).tiers]

/-- The unit's home is in tier 2, or is not. -/
def Obj.homed (o : Obj) (n u : Nat) (b : Bool) : Obj := { o with slc := o.setHome n u b }

theorem Obj.inSlc_homed_self (o : Obj) (n u : Nat) (b : Bool) : (o.homed n u b).inSlc n u = b := by
  unfold Obj.homed Obj.setHome
  by_cases h : o.inSlc n u = b
  · rw [if_pos h]
    exact h
  · rw [if_neg h]
    unfold Obj.inSlc at h ⊢
    by_cases hc : o.slc.contains (n, u) = true
    · rw [if_pos hc]
      dsimp only
      have hgone : (o.slc.filter (· ≠ (n, u))).contains (n, u) = false := by simp
      rw [hgone]
      rw [hc] at h
      revert h
      cases b <;> cases decide (o.tier = 2) <;> simp
    · rw [if_neg hc]
      dsimp only
      have hthere : (o.slc ++ [(n, u)]).contains (n, u) = true := by simp
      rw [hthere]
      rw [Bool.not_eq_true] at hc
      rw [hc] at h
      revert h
      cases b <;> cases decide (o.tier = 2) <;> simp

theorem Obj.inSlc_homed_ne (o : Obj) {n u w : Nat} (h : w ≠ u) (b : Bool) : (o.homed n u b).inSlc n w = o.inSlc n w := by
  unfold Obj.homed Obj.setHome
  split
  · rfl
  · unfold Obj.inSlc
    dsimp only
    split
    · simp [h]
    · simp [h]

/-- A property of each element, which its own step establishes and the other steps keep, holds of all of them after a fold. -/
theorem foldl_establishes {α : Type} {f : State → α → State} {I : State → Prop} {Q : α → State → Prop}
    (hI : ∀ t a, I t → I (f t a)) (hQ : ∀ t a, I t → Q a (f t a)) (hkeep : ∀ t a b, I t → Q b t → Q b (f t a))
    (l : List α) {s : State} (hs : I s) : ∀ a ∈ l, Q a (l.foldl f s) := by
  have hkept : ∀ (l : List α) (t : State) (b : α), I t → Q b t → Q b (l.foldl f t) := by
    intro l
    induction l with
    | nil => exact fun t b _ h => h
    | cons x xs ih => exact fun t b ht h => ih _ b (hI t x ht) (hkeep t x b ht h)
  induction l generalizing s with
  | nil => exact fun a ha => absurd ha List.not_mem_nil
  | cons x xs ih =>
    intro a ha
    rcases List.mem_cons.mp ha with rfl | ha
    · exact hkept xs _ a (hI s a hs) (hQ s a hs)
    · exact ih (hI s x hs) a ha

/-- The object found under an ID has the property. -/
def State.found (id : Nat) (P : Obj → Prop) (s : State) : Prop := ∃ p, s.tiers.objects.find? (·.id = id) = some p ∧ P p

theorem State.found.updObj {id : Nat} {P Q : Obj → Prop} {s : State} (h : s.found id P) {f : Obj → Obj} (hid : ∀ o, (f o).id = o.id)
    (hf : ∀ o, P o → Q (f o)) : (s.updObj id f).found id Q := by
  obtain ⟨p, hp, hP⟩ := h
  exact ⟨f p, (find?_updWhere_key _ f (fun o => by rw [hid]) _).trans (by rw [hp]; rfl), hf p hP⟩

theorem State.found.of_objects {id : Nat} {P : Obj → Prop} {s t : State} (h : s.found id P) (ho : t.tiers.objects = s.tiers.objects) :
    t.found id P := by
  unfold State.found
  rw [ho]
  exact h

theorem State.found.imp {id : Nat} {P Q : Obj → Prop} {s : State} (h : s.found id P) (hPQ : ∀ o, P o → Q o) : s.found id Q := by
  obtain ⟨p, hp, hP⟩ := h
  exact ⟨p, hp, hPQ p hP⟩

/-- Properties of the object found, each for an element of a list, hold of one object. -/
theorem State.found.forall {α : Type} {id : Nat} {P : α → Obj → Prop} {s : State} {l : List α} (h : s.found id fun _ => True)
    (hl : ∀ a ∈ l, s.found id (P a)) : s.found id fun o => ∀ a ∈ l, P a o := by
  obtain ⟨p, hp, -⟩ := h
  refine ⟨p, hp, fun a ha => ?_⟩
  obtain ⟨q, hq, hP⟩ := hl a ha
  rw [hp] at hq
  exact Option.some.inj hq ▸ hP

/-- Units come to a flash tier as their home. -/
def State.setHomes (id n tier : Nat) (us : List Nat) (s : State) : State :=
  us.foldl (fun t u => (t.updObj id fun o => o.homed n u (tier = 2)).bringHome id n u) s

/-- The host pins units in a tier. -/
def State.hostPins (id n tier : Nat) (us : List Nat) (s : State) : State :=
  us.foldl (fun t u => t.updObj id fun o => o.hostPin n u tier) s

theorem State.found_setHomes {id n tier : Nat} {s : State} (us : List Nat) (h : s.found id fun _ => True) :
    (s.setHomes id n tier us).found id fun o => ∀ u ∈ us, o.inSlc n u = decide (tier = 2) := by
  have hstep : ∀ (t : State) (P Q : Obj → Prop) (u : Nat), t.found id P →
      (∀ o : Obj, P o → Q (o.homed n u (tier = 2))) →
      ((t.updObj id fun o => o.homed n u (tier = 2)).bringHome id n u).found id Q := fun t P Q u ht hPQ =>
    (ht.updObj (f := fun o => o.homed n u (tier = 2)) (fun _ => rfl) hPQ).of_objects (State.bringHome_objects id n u _)
  have htrue : (s.setHomes id n tier us).found id fun _ => True :=
    List.foldlRecOn (motive := fun t : State => t.found id fun _ => True) us _ h fun t ht u _ => hstep t _ _ u ht fun _ _ => trivial
  refine htrue.forall (foldl_establishes (I := fun t => t.found id fun _ => True)
    (Q := fun u t => t.found id fun o => o.inSlc n u = decide (tier = 2)) (fun t u ht => hstep t _ _ u ht fun _ _ => trivial)
    (fun t u ht => hstep t _ _ u ht fun o _ => o.inSlc_homed_self n u _) (fun t u w ht hw => hstep t _ _ u hw fun o ho => ?_) us h)
  by_cases hwu : w = u
  · rw [hwu]
    exact o.inSlc_homed_self n u _
  · rw [o.inSlc_homed_ne hwu]
    exact ho

theorem Obj.hostPin_rest (o : Obj) (n u tier : Nat) : o.hostPin n u tier = { o with refs := (o.hostPin n u tier).refs } := by
  unfold Obj.hostPin
  split <;> rfl

theorem Obj.mem_hostPin_self (o : Obj) (n u tier : Nat) : ⟨.host, n, u, tier⟩ ∈ (o.hostPin n u tier).refs := by
  unfold Obj.hostPin
  split
  · next h =>
    obtain ⟨r, hr, hrp⟩ := List.any_eq_true.mp h
    simp only [Bool.and_eq_true, decide_eq_true_eq] at hrp
    obtain ⟨⟨⟨hwho, hver⟩, hunit⟩, htier⟩ := hrp
    rw [← hwho, ← hver, ← hunit, ← htier]
    exact hr
  · exact List.mem_append_right _ (List.mem_singleton_self _)

theorem Obj.mem_hostPin_of_mem {o : Obj} {r : Ref} (h : r ∈ o.refs) (n u tier : Nat) : r ∈ (o.hostPin n u tier).refs := by
  unfold Obj.hostPin
  split
  · exact h
  · exact List.mem_append_left _ h

/-- Pins of the host are there, and change nothing but the references. -/
theorem State.found_hostPins {id n tier : Nat} {s : State} {P : Obj → Prop} (hP : ∀ (o : Obj) (rs : List Ref), P o → P { o with refs := rs })
    (us : List Nat) (h : s.found id P) :
    (s.hostPins id n tier us).found id fun o => P o ∧ ∀ u ∈ us, ⟨.host, n, u, tier⟩ ∈ o.refs := by
  have hstep : ∀ (t : State) (A B : Obj → Prop) (u : Nat), t.found id A → (∀ o : Obj, A o → B (o.hostPin n u tier)) →
      (t.updObj id fun o => o.hostPin n u tier).found id B := fun t A B u ht hAB =>
    ht.updObj (fun o => by rw [o.hostPin_rest]) hAB
  have hpin : ∀ o u, P o → P (o.hostPin n u tier) := fun o u ho => by rw [o.hostPin_rest]; exact hP o _ ho
  have hkept : (s.hostPins id n tier us).found id P :=
    List.foldlRecOn (motive := fun t : State => t.found id P) us _ h fun t ht u _ => hstep t _ _ u ht fun o ho => hpin o u ho
  have hrefs := (hkept.imp fun _ _ => trivial).forall (foldl_establishes (I := fun t => t.found id fun _ => True)
    (Q := fun u t => t.found id fun o => ⟨.host, n, u, tier⟩ ∈ o.refs) (fun t u ht => hstep t _ _ u ht fun _ _ => trivial)
    (fun t u ht => hstep t _ _ u ht fun o _ => o.mem_hostPin_self n u tier)
    (fun t u w _ hw => hstep t _ _ u hw fun o ho => Obj.mem_hostPin_of_mem ho n u tier) us (h.imp fun _ _ => trivial))
  obtain ⟨p, hp, hPp⟩ := hkept
  obtain ⟨q, hq, hr⟩ := hrefs
  cases Option.some.inj (Eq.trans (Eq.symm hp) hq)
  exact ⟨p, hp, hPp, hr⟩

/-- An object with its references, whatever else has changed. -/
def Obj.SameRefs (o p : Obj) : Prop := p.id = o.id ∧ p.refs = o.refs

theorem Obj.SameRefs.refl (o : Obj) : o.SameRefs o := ⟨rfl, rfl⟩

theorem Obj.SameRefs.trans {o p q : Obj} (h : o.SameRefs p) (k : p.SameRefs q) : o.SameRefs q := ⟨k.1.trans h.1, k.2.trans h.2⟩

theorem Objects.trans_refs {s t u : State} (h : Objects Obj.SameRefs s t) (k : Objects Obj.SameRefs t u) : Objects Obj.SameRefs s u :=
  paired_trans (R := Obj.SameRefs) (fun _ _ _ => Obj.SameRefs.trans) h k

theorem Objects.of_eq {s t : State} (h : t.tiers.objects = s.tiers.objects) : Objects Obj.SameRefs s t := by
  unfold Objects
  rw [h]
  exact paired_refl_of Obj.SameRefs.refl _

theorem TouchWork.sameRefs {s t : State} (h : TouchWork s t) : Objects Obj.SameRefs s t :=
  Paired.imp (fun o p hk => ⟨hk.id_eq, by rw [hk.rest]⟩) h.objects

theorem State.moveDown_sameRefs (id n u tier : Nat) (s : State) : Objects Obj.SameRefs s (s.moveDown id n u tier) := by
  refine (State.startWriteback_touchWork (unitPages id n u) s).sameRefs.trans_refs (.updObj Obj.SameRefs.refl (fun o _ => ?_) _)
  exact ⟨rfl, rfl⟩

theorem State.bringHome_sameRefs (id n u : Nat) (s : State) : Objects Obj.SameRefs s (s.bringHome id n u) :=
  .of_eq (State.bringHome_objects id n u s)

theorem State.evictUnit_sameRefs (who : Holder) (id n u tier : Nat) (s : State) :
    Objects Obj.SameRefs s (s.evictUnit who id n u tier) := by
  unfold State.evictUnit
  split
  · exact .of_eq rfl
  · split
    · refine .updObj Obj.SameRefs.refl (fun o _ => ?_) s
      exact ⟨rfl, rfl⟩
    · exact (State.moveDown_sameRefs id n u tier s).trans_refs (State.bringHome_sameRefs id n u _)

/-- The objects without the references that `p` drops. -/
def State.lessRefs (p : Obj → Ref → Bool) (s : State) : State :=
  { s with tiers := { s.tiers with objects := s.tiers.objects.map fun o => { o with refs := o.refs.filter fun r => !p o r } } }

theorem State.dropRefs_sameRefs (p : Obj → Ref → Bool) (s : State) : Objects Obj.SameRefs (s.lessRefs p) (s.dropRefs p) := by
  unfold State.dropRefs
  refine Objects.foldl Obj.SameRefs.refl (fun _ _ _ => Obj.SameRefs.trans) (fun t o => ?_) _ _
  refine Objects.foldl Obj.SameRefs.refl (fun _ _ _ => Obj.SameRefs.trans) (fun t d => ?_) _ _
  refine ((State.moveDown_sameRefs o.id d.ver d.unit d.tier t).trans_refs (State.bringHome_sameRefs _ _ _ _)).trans_refs
    (.updObj Obj.SameRefs.refl (fun o _ => ?_) _)
  exact ⟨rfl, rfl⟩

theorem paired_exists_left {α : Type} {R : α → α → Prop} {l m : List α} (h : Paired R l m) {b : α} (hb : b ∈ m) :
    ∃ a ∈ l, R a b := by
  induction h with
  | nil => cases hb
  | cons hab _ ih =>
    rcases List.mem_cons.mp hb with rfl | hb
    · exact ⟨_, List.mem_cons_self, hab⟩
    · obtain ⟨a, ha, hr⟩ := ih hb
      exact ⟨a, List.mem_cons_of_mem _ ha, hr⟩

/-- A dropped reference is gone, whatever evictions follow. -/
theorem State.not_dropped {s t : State} {p : Obj → Ref → Bool} (h : Objects Obj.SameRefs (s.lessRefs p) t) {q : Obj}
    (hq : q ∈ t.tiers.objects) {r : Ref} (hr : r ∈ q.refs) : ∃ o : Obj, o.id = q.id ∧ p o r = false := by
  obtain ⟨o, ho, hid, hrefs⟩ := paired_exists_left h hq
  obtain ⟨o', -, rfl⟩ := List.mem_map.mp ho
  rw [hrefs] at hr
  exact ⟨o', hid.symm, by simpa using (List.mem_filter.mp hr).2⟩

theorem State.cancelEvicts_touchWork (id n : Nat) (us : List Nat) (s : State) : TouchWork s (s.cancelEvicts id n us) := by
  refine State.updObj_touchWork (fun o => ?_) s
  exact .of_versions rfl rfl

theorem State.promoteUnits_dram_touchWork (id n : Nat) (us : List Nat) (s : State) : TouchWork s (s.promoteUnits id n 1 us).2 :=
  (State.cancelEvicts_touchWork id n us s).trans (State.copyUnits_touchWork id n us _)

theorem State.promoteUnits_home {tier : Nat} (h : tier ≠ 1) (id n : Nat) (us : List Nat) (s : State) :
    s.promoteUnits id n tier us = (true, (s.cancelEvicts id n us).setHomes id n tier us) := if_neg h

theorem State.hostPins_onlyTiers (id n tier : Nat) (us : List Nat) (s : State) : OnlyTiers s (s.hostPins id n tier us) :=
  List.foldlRecOn (motive := fun t => OnlyTiers s t) us _ rfl fun _ ht _ _ => ht.trans rfl

/-- The state after a PROMOTE or PIN that is carried out. -/
def State.moved (c : Slot) (id n tier : Nat) (us : List Nat) (s : State) : State :=
  if c.arg 46 1 = 2 then (s.promoteUnits id n tier us).2.hostPins id n tier us else (s.promoteUnits id n tier us).2

section
variable {s : State} {slot : Nat} {c : Slot} {id n : Nat} {ps : List (Nat × Nat)} {o : Obj} (k : Handed s slot 0x23 false c)
  (hp : c.pins = (id, n) :: ps) (ho : s.tiers.objects.find? (·.id = id) = some o)
include k hp ho

theorem exec_objectMove_promote (hop : c.arg 46 1 = 0 ∨ c.arg 46 1 = 2) : exec (.objectMove slot) s = .next (
    let us := unitsOf (c.arg 48 8) (c.arg 56 4)
    if c.arg 47 1 = 2 && s.tier2Limit < s.tier2Units + (us.filter fun u => !(o.inSlc n u)).length then
      s.finish slot .capacityExhausted 0 0
    else if c.arg 46 1 = 2 && c.arg 47 1 = 1 && s.grade.dramBytes / 2 < s.pinnedDram id n us * 65536 then
      s.finish slot .capacityExhausted 0 0
    else (s.hostPromote c s.bt).2) := by
  refine congrArg Host.Outcome.next ((k.run _).trans ?_)
  simp only [hp, ho]
  rcases hop with hop | hop <;> rw [hop] <;> rfl

omit ho in
theorem State.hostPromote_eq (since : Nat) : (s.hostPromote c since).2 = (
    let us := unitsOf (c.arg 48 8) (c.arg 56 4)
    if (s.promoteUnits id n (c.arg 47 1) us).1 then
      if c.arg 47 1 = 1 then (s.moved c id n (c.arg 47 1) us).finish slot .ok 0 0
      else (s.moved c id n (c.arg 47 1) us).awaitMoves slot [] ((s.moved c id n (c.arg 47 1) us).homeLuns id n us)
    else (s.promoteUnits id n (c.arg 47 1) us).2.setWork slot (.move since)) := by
  unfold State.hostPromote
  simp only [hp, k.id_eq]
  split <;> rfl

omit ho in
theorem exec_objectMove_unpin (hop : c.arg 46 1 = 3) : exec (.objectMove slot) s = .next ((s.dropRefs fun o r =>
    o.id = id && r.who = .host && r.ver = n && r.tier = c.arg 47 1 && (unitsOf (c.arg 48 8) (c.arg 56 4)).contains r.unit).finish
      slot .ok 0 0) := by
  refine congrArg Host.Outcome.next ((k.run _).trans ?_)
  simp only [hp, hop]
  rfl

omit ho in
theorem exec_objectMove_evict (hop : c.arg 46 1 = 1) : exec (.objectMove slot) s = .next (
    let us := unitsOf (c.arg 48 8) (c.arg 56 4)
    let t := us.foldl (fun t u => t.evictUnit .host id n u (c.arg 47 1))
      (s.dropRefs fun o r => o.id = id && r.who = .host && r.ver = n && us.contains r.unit)
    t.awaitMoves slot (t.evictPages .host id n us) (t.homeLuns id n us)) := by
  refine congrArg Host.Outcome.next ((k.run _).trans ?_)
  simp only [hp, hop]

end

/-! ### OBJECT_QUERY, OBJECT_DURABILITY and OBJECT_FLUSH (R187, R199, R547, Table 7-5, Table 7-10) -/

theorem exec_objectQuery {s : State} {slot : Nat} {c : Slot} (k : Handed s slot 0x25 true c) : exec (.objectQuery slot) s = .next (
    if c.arg 40 4 = 0 then (s.writeResult c 0 ((s.tiers.lostList.take (c.resultLen / 4)).flatMap (leBytes 4))).finish slot .ok
      (s.tiers.lostList.take (c.resultLen / 4)).length 0
    else match s.obj? (c.arg 40 4) with
      | none => s.fail slot .objectNotFound 0
      | some o => (s.writeResult c 0 (s.objectRecord o)).finish slot .ok 0 0) :=
  congrArg Host.Outcome.next (k.run _)

theorem State.length_objectRecord (s : State) (o : Obj) : (s.objectRecord o).length = 64 := by
  simp only [State.objectRecord, List.length_append, length_leBytes, zeroBytes, List.length_replicate]

theorem State.field_objectRecord (s : State) (o : Obj) : field (s.objectRecord o) 0 4 = o.id % 2 ^ 32 ∧
    field (s.objectRecord o) 4 1 = o.kind % 256 ∧ field (s.objectRecord o) 8 8 = o.size % 2 ^ 64 := by
  simp only [State.objectRecord, List.append_assoc]
  refine ⟨field_leBytes_append _ _ _, ?_, ?_⟩
  · rw [field_append_of_le _ _ (by simp)]
    simp [field_leBytes_append]
  · iterate 4 rw [field_append_of_le _ _ (by simp)]
    simp [field_leBytes_append]

/-- Searching for what an update of some elements keeps, where it is among them. -/
theorem find?_updWhere_of_imp {α : Type} {p q : α → Bool} {f : α → α} (hf : ∀ x, q (f x) = q x) (hp : ∀ x, q x = true → p x = true)
    (l : List α) : (updWhere p f l).find? q = (l.find? q).map f := by
  have hq : ∀ x, q (if p x then f x else x) = q x := fun x => by split <;> simp [hf]
  induction l with
  | nil => rfl
  | cons x l ih =>
    simp only [updWhere, List.map_cons, List.find?_cons, hq]
    by_cases h : q x = true
    · simp [h, hp x h]
    · simp only [Bool.not_eq_true] at h
      simp only [h]
      exact ih

theorem State.obj?_updObj_same {s : State} {id : Nat} {o : Obj} (h : s.obj? id = some o) {f : Obj → Obj} (hid : ∀ o, (f o).id = o.id)
    (hg : ∀ o, (f o).gone = o.gone) : (s.updObj id f).obj? id = some (f o) := by
  unfold State.obj? State.updObj at *
  dsimp only
  rw [find?_updWhere_of_imp (fun x => by rw [hid, hg]) (fun x hx => by simp only [decide_eq_true_eq] at hx; simp [hx.1]), h]
  rfl

theorem State.obj?_id {s : State} {id : Nat} {o : Obj} (h : s.obj? id = some o) : o.id = id := by
  have := List.find?_some h
  simp only [decide_eq_true_eq] at this
  exact this.1

/-- An object with other places for its dirty pages. -/
structure Obj.KeepsData (o p : Obj) : Prop where
  rest : p = { o with versions := p.versions }
  data : p.versions.map (·.data) = o.versions.map (·.data)

theorem Obj.KeepsData.refl (o : Obj) : o.KeepsData o := ⟨rfl, rfl⟩

theorem Obj.KeepsData.trans {o p q : Obj} (h : o.KeepsData p) (k : p.KeepsData q) : o.KeepsData q :=
  ⟨k.rest.trans (by rw [h.rest]), k.data.trans h.data⟩

theorem Obj.keepsData_updVer (o : Obj) (n : Nat) {f : Version → Version} (hf : ∀ v, (f v).data = v.data) : o.KeepsData (o.updVer n f) := by
  refine ⟨rfl, ?_⟩
  show (updWhere _ f o.versions).map (·.data) = _
  rw [updWhere, List.map_map]
  refine List.map_congr_left fun v _ => ?_
  simp only [Function.comp_apply]
  split
  · exact hf v
  · rfl

theorem State.mirrorPages_keepsData (ps : List (Nat × Nat × Nat)) (s : State) : Objects Obj.KeepsData s (s.mirrorPages ps) := by
  unfold State.mirrorPages
  refine Objects.foldl Obj.KeepsData.refl (fun _ _ _ => Obj.KeepsData.trans) (fun t p => ?_) _ _
  refine Objects.updObj Obj.KeepsData.refl (fun o _ => ?_) t
  exact o.keepsData_updVer _ fun _ => rfl

theorem State.mirrorPages_rest (ps : List (Nat × Nat × Nat)) (s : State) :
    s.mirrorPages ps = { s with tiers := { s.tiers with objects := (s.mirrorPages ps).tiers.objects } } :=
  List.foldlRecOn (motive := fun t : State => t = { s with tiers := { s.tiers with objects := t.tiers.objects } }) ps _ rfl
    fun t ht p _ => by
      conv => lhs; rw [ht]
      conv => rhs; rw [ht]
      rfl

theorem Objects.obj?_some {s t : State} (h : Objects Obj.KeepsData s t) {id : Nat} {o : Obj} (ho : s.obj? id = some o) :
    ∃ p, t.obj? id = some p ∧ o.KeepsData p := by
  have hrel := find?_congr_rel (q := fun o : Obj => decide (o.id = id ∧ (!o.gone) = true))
    (fun a b hk => by rw [hk.rest]) h
  rw [State.obj?] at ho
  rw [ho] at hrel
  exact rel_some hrel

theorem exec_objectDurability {s : State} {slot : Nat} {c : Slot} {o : Obj} (k : Handed s slot 0x26 false c)
    (ho : s.obj? (c.arg 40 4) = some o) (hi : ∀ v, o.current? = some v → v.impaired = false) :
    exec (.objectDurability slot) s = .next (
      if c.arg 44 1 = 1 && !o.durable then s.makeDurable c o
      else if c.arg 44 1 = 2 && o.durable then
        ((s.updObj o.id fun o => { o with durable := false, versions := o.versions.map fun v =>
          { v with dirty := v.dirty.map DirtyPage.alone } }).throttle).finish slot .ok 0 0
      else s.finish slot .ok 0 0) := by
  have himp : (match o.current? with | some v => v.impaired | none => false) = false := by
    cases hv : o.current? with
    | none => rfl
    | some v => exact hi v hv
  refine congrArg Host.Outcome.next ((k.run _).trans ?_)
  unfold State.doDurability
  rw [ho, k.id_eq]
  exact if_neg (Bool.eq_false_iff.mp himp)

/-- The object is durable, its bytes are accounted for, and its dirty pages have their mirrors. -/
def State.durableNow (o : Obj) (s : State) : State :=
  ((s.updObj o.id fun o => { o with durable := true }).takeCredit (4096 * o.dirtyPages)).mirrorPages o.dirtyList

theorem State.makeDurable_of_ok {s : State} {c : Slot} {o : Obj} (hb : 4 * o.rewriteSize ≤ s.tiers.budget)
    (ha : s.admitsDirty (4096 * o.dirtyPages) = true) :
    s.makeDurable c o = (s.durableNow o).ackWrite c.id { o with durable := true } false o.dirtyList 0 :=
  (if_neg (by omega)).trans (if_neg (by simp [ha]))

theorem State.obj?_durableNow {s : State} {id : Nat} {o : Obj} (ho : s.obj? id = some o) :
    ∃ p, (s.durableNow o).obj? id = some p ∧ ({ o with durable := true } : Obj).KeepsData p := by
  obtain rfl := State.obj?_id ho
  have hset : ((s.updObj o.id fun o => { o with durable := true }).takeCredit (4096 * o.dirtyPages)).obj? o.id =
      some { o with durable := true } :=
    State.obj?_updObj_same (f := fun o => { o with durable := true }) ho (fun _ => rfl) fun _ => rfl
  exact (State.mirrorPages_keepsData o.dirtyList _).obj?_some hset

theorem State.durableNow_rest (o : Obj) (s : State) : OnlyTiers s (s.durableNow o) := by
  refine OnlyTiers.trans ?_ (.of_objects (State.mirrorPages_rest o.dirtyList _))
  rfl

theorem State.durableNow_budget (o : Obj) (s : State) : (s.durableNow o).tiers.budget = s.tiers.budget := by
  unfold State.durableNow
  rw [State.mirrorPages_rest]
  rfl

theorem State.ackWrite_of_dram {s : State} {id result : Nat} {o : Obj} {ps : List (Nat × Nat × Nat)} (hw : s.writesThrough o = false)
    (hd : o.durable = true → 4096 * ps.length ≤ s.tiers.budget ∧ ∀ p ∈ ps, s.unmirrored p = false) :
    s.ackWrite id o false ps result = (s.finish id .ok result 0).issueStores := by
  refine if_neg ?_
  rw [hw]
  cases hdur : o.durable with
  | false => simp
  | true =>
    obtain ⟨hb, hm⟩ := hd hdur
    simp only [Bool.false_or, Bool.true_and, Bool.or_eq_true, decide_eq_true_eq, List.any_eq_true, not_or, Nat.not_lt, not_exists, not_and]
    exact ⟨hb, fun p hp => by simp [hm p hp]⟩

theorem exec_objectFlush {s : State} {slot : Nat} {c : Slot} {w : FlushWork} (k : Handed s slot 0x27 false c) (hw : c.work = .flush w) :
    exec (.objectFlush slot) s = .next (s.awaitFlash slot w.pages w.blocks [] false 0) := by
  refine congrArg Host.Outcome.next ((k.run _).trans ?_)
  rw [hw]

/-! ### The statement -/

/-- OBJECT_CREATE, OBJECT_READ, OBJECT_WRITE and OBJECT_RETIRE as O35 states them, one lemma each. -/
theorem objectCreate_takesEffect {s : State} {slot : Nat} {c : Slot} (k : Handed s slot 0x20 true c)
    (hid : s.idHeld (c.arg 40 4) = false) (h : s.createError (c.arg 46 1) (c.arg 48 8) (c.arg 47 1 / 4 % 4)
      (s.classOf (c.arg 46 1) (c.arg 47 1 % 4) (c.arg 47 1 / 4 % 4)) = none) : ∃ (t : State) (o : Obj) (v : Version),
      exec (.objectCreate slot) s = .next ((t.writeResult c 0 (leBytes 8 o.base ++ zeroBytes 8)).finish slot .ok 0 0) ∧
      t.obj? (c.arg 40 4) = some o ∧ o.kind = c.arg 46 1 ∧ o.size = c.arg 48 8 ∧ o.tier = c.arg 47 1 / 4 % 4 ∧
      o.durable = s.classOf (c.arg 46 1) (c.arg 47 1 % 4) (c.arg 47 1 / 4 % 4) ∧ o.versions = [v] ∧
      v.num = c.arg 44 2 ∧ v.state = .current ∧ v.size = c.arg 48 8 ∧ v.data = [] ∧
      (s.tiers.flagsView = false → ∀ p ∈ s.tiers.objects, rangesMeet o.base (reserveOf (c.arg 46 1) (c.arg 48 8)) p.base p.span = false) ∧
      (∀ i, i ≠ c.arg 40 4 → t.obj? i = s.obj? i) ∧ t = { s with tiers := t.tiers, ftl := t.ftl } := by
  obtain ⟨t, o, ht, ho, hobj, hexec⟩ := exec_objectCreate_of_ok k hid h
  subst ht ho
  refine ⟨_, _, _, hexec, hobj, rfl, rfl, rfl, rfl, rfl, rfl, rfl, rfl, rfl, fun hf p hp => ?_,
    fun i hi => State.obj?_createObj_ne hi _ _ _ _ _ _, rfl⟩
  obtain ⟨b, hb⟩ := State.freeBase_isSome_of_createError h hf
  have hbase : (s.createdObj (c.arg 40 4) (c.arg 46 1) (c.arg 47 1 / 4 % 4) (c.arg 48 8) (c.arg 44 2)
      (s.classOf (c.arg 46 1) (c.arg 47 1 % 4) (c.arg 47 1 / 4 % 4)) false).base = b := by
    simp [State.createdObj, hf, hb]
  rw [hbase]
  exact State.freeBase_free hb hp

theorem objectRead_takesEffect {s : State} {slot : Nat} {c : Slot} {id n : Nat} {ps : List (Nat × Nat)} {o : Obj} {v : Version}
    (k : Handed s slot 0x22 true c) (hp : c.pins = (id, n) :: ps) (ho : s.tiers.objects.find? (·.id = id) = some o)
    (hv : o.ver? n = some v) :
    let off := if bitAt (c.arg 46 1) 3 then c.arg 48 8 - o.base else c.arg 48 8
    let rs := s.flashReads id n [(off, c.resultLen)]
    (rs = [] → v.firstLost off c.resultLen = none → exec (.objectRead slot) s =
      .next (((s.touch id n off c.resultLen).writeResult c 0 (memRead v.data off c.resultLen)).finish slot .ok 0 0)) ∧
    (rs = [] → ∀ p, v.firstLost off c.resultLen = some p → exec (.objectRead slot) s =
      .next (((s.touch id n off c.resultLen).writeResult c 0 (memRead v.data off (p * 4096 - off))).finish slot .mediaUncorrectable
        (p * 4096 - off) 0)) ∧
    (rs ≠ [] → exec (.objectRead slot) s =
      .next ((s.updSlot slot fun d => { d with phase := .running, fetch := some rs }).pumpFetch)) := by
  intro off rs
  have hexec := exec_objectRead k hp ho
  have hver : s.version? id n = some v := (State.version?_of_find? ho).trans hv
  refine ⟨fun hrs hl => ?_, fun hrs p hl => ?_, fun hrs => ?_⟩
  · rw [hexec, if_pos (by simpa using hrs), State.readVersion_of_whole hver hl, k.id_eq]
    rfl
  · rw [hexec, if_pos (by simpa using hrs), State.readVersion_of_lost hver hl, k.id_eq]
    rfl
  · rw [hexec, if_neg (by simpa using hrs)]
    rfl

theorem objectWrite_takesEffect {s : State} {slot : Nat} {c : Slot} {id n off len : Nat} {o : Obj} {v : Version}
    (k : Handed s slot 0x21 false c) (ha : s.writeAhead c = false)
    (hr : s.writeRange c = some (id, n, off, len)) (ho : s.tiers.objects.find? (·.id = id) = some o)
    (hnew : writeNew c.entry = true → ∀ x ∈ s.newVersionChecks o n o.size, x.1 = false)
    (hv : (if writeNew c.entry then s.newVersion id n else s).version? id n = some v)
    (himp : writeNew c.entry = false → v.impaired = false)
    (hprot : s.protected = true → o.durable = false ∧ writeForce c.entry = false ∧ s.writesThrough o = false)
    (hadm : o.durable = true → s.admitsDirty (4096 * (pagesOf off len).length) = true) :
    let b := s.dataBytes c
    let ps := pageList id n off b.length
    ∃ (w : State) (x : Version), w.version? id n = some x ∧ x.data = memWrite v.data off b ∧
      (∀ p ∈ pagesOf off b.length, ∃ d ∈ x.dirty, d.page = p) ∧
      (∀ i m, i ≠ id ∨ m ≠ n → (w.version? i m).map (fun y => (y.data, y.state)) = (s.version? i m).map fun y => (y.data, y.state)) ∧
      (writeCommit c.entry = false → exec (.objectWrite slot) s = .next (w.ackWrite slot o (writeForce c.entry) ps 0)) ∧
      (writeCommit c.entry = false → writeForce c.entry = false → w.writesThrough o = false →
        (o.durable = true → 4096 * ps.length ≤ w.tiers.budget ∧ ∀ p ∈ ps, w.unmirrored p = false) →
        exec (.objectWrite slot) s = .next ((w.finish slot .ok 0 0).issueStores)) ∧
      (writeCommit c.entry = true → x.state = .building → x.lost = [] → w.commitFault o x = none → ∃ (t : State) (y : Version),
        exec (.objectWrite slot) s = .next (t.ackWrite slot o (writeForce c.entry) ps 0) ∧
        t.version? id n = some y ∧ y.state = .current ∧ y.data = x.data) ∧
      (writeCommit c.entry = true → x.state = .building → x.lost ≠ [] →
        exec (.objectWrite slot) s = .next (w.finish slot .mediaUncorrectable 0 0)) := by
  intro b ps
  obtain rfl : o.id = id := by simpa using List.find?_some ho
  have hexec := exec_objectWrite k ha hr ho hnew hv himp hprot hadm
  obtain ⟨v1, hv1, hpins⟩ := State.version?_writeStart hv
  have hcharged := (s.writeStart c o.id n).chargeWrite_rest o ps.length
  have hver : ∀ i m, ((s.writeStart c o.id n).chargeWrite o ps.length).version? i m = (s.writeStart c o.id n).version? i m :=
    State.version?_of_objects (by rw [hcharged])
  have hwrites := State.writeVersion_writesTo ((hver o.id n).trans hv1) off b
  obtain ⟨x, hx, hrest, hdirty⟩ := hwrites.version
  refine ⟨_, x, hx, ?_, hdirty, fun i m him => ?_, fun hc => ?_, fun hc hf hw hd => ?_, fun hc hb hl hfault => ?_, fun hc hb hl => ?_⟩
  · rw [hrest]
    show memWrite v1.data off b = _
    rw [hpins]
  · rw [hwrites.others i m him, hver, State.version?_writeStart_ne c o.id n s him]
  · rw [hexec, hc]
    rfl
  · rw [hexec, hc, hf]
    exact congrArg Host.Outcome.next (State.ackWrite_of_dram hw hd)
  · obtain ⟨t, y, ht, hy, hstate, hdata⟩ := State.commitWrite_of_ok (c := c) ps hx hb hl hfault
    refine ⟨t, y, ?_, hy, hstate, hdata⟩
    rw [hexec, if_pos hc, ht, k.id_eq]
  · rw [hexec, if_pos hc, State.commitWrite_of_lost ps hx hb hl, k.id_eq]
    rfl

theorem objectRetire_takesEffect {s : State} {slot : Nat} {c : Slot} {o : Obj} (k : Handed s slot 0x24 false c)
    (ho : s.obj? (c.arg 40 4) = some o) :
    (c.arg 44 2 ≠ 0 → ∃ t, exec (.objectRetire slot) s = .next t ∧
      (∀ v, t.version? (c.arg 40 4) (c.arg 44 2) = some v → v.state = .retiring ∧ 0 < v.pins) ∧
      (∃ d, t.slot? slot = some d ∧ d.phase = .done)) ∧
    (c.arg 44 2 = 0 → ∃ t, exec (.objectRetire slot) s = .next t ∧ t.obj? (c.arg 40 4) = none ∧
      ∃ d, t.slot? slot = some d ∧ d.phase = .done) := by
  have hexec := exec_objectRetire k ho
  refine ⟨fun hn => ?_, fun hn => ?_⟩
  · rw [if_pos hn] at hexec
    have hobjects : (State.done slot 0 (s.retire (c.arg 40 4) (c.arg 44 2))).tiers.objects =
        (s.retire (c.arg 40 4) (c.arg 44 2)).tiers.objects := by
      rw [State.done, State.finish_tiers]
    refine ⟨_, hexec, fun v hv => State.version?_retire ((State.version?_of_objects hobjects _ _).symm.trans hv),
      State.slot?_finish_of_atr k ?_ _ _ _⟩
    · rw [State.retire, State.settleObj_atr, State.updVer_atr]
  · rw [if_neg (by simp [hn])] at hexec
    refine ⟨_, hexec, ?_, State.slot?_finish_of_atr k ?_ _ _ _⟩
    · rw [State.obj?, State.done, State.finish_tiers, ← State.obj?_id ho]
      refine State.obj?_settleObj_of_gone fun p hp hpid => ?_
      obtain ⟨q, -, rfl⟩ := List.mem_map.mp hp
      by_cases hq : q.id = o.id
      · rw [if_pos (by simpa using hq)]
      · rw [if_neg (by simpa using hq)] at hpid
        exact absurd hpid hq
    · show (State.settleObj _ _).atr = _
      rw [State.settleObj_atr]
      rfl

theorem objectMove_promotes {s : State} {slot : Nat} {c : Slot} {id n : Nat} {ps : List (Nat × Nat)} {o : Obj}
    (k : Handed s slot 0x23 false c) (hp : c.pins = (id, n) :: ps) (ho : s.tiers.objects.find? (·.id = id) = some o)
    (hop : c.arg 46 1 = 0 ∨ c.arg 46 1 = 2) :
    let tier := c.arg 47 1
    let us := unitsOf (c.arg 48 8) (c.arg 56 4)
    (tier = 2 → s.tier2Units + (us.filter fun u => !(o.inSlc n u)).length ≤ s.tier2Limit) →
    (c.arg 46 1 = 2 → tier = 1 → s.pinnedDram id n us * 65536 ≤ s.grade.dramBytes / 2) →
    (tier ≠ 1 ∨ (s.promoteUnits id n tier us).1 = true → ∃ (t : State) (p : Obj),
      (tier = 1 → exec (.objectMove slot) s = .next (t.finish slot .ok 0 0) ∧ t = { s with tiers := t.tiers }) ∧
      (tier ≠ 1 → exec (.objectMove slot) s = .next (t.awaitMoves slot [] (t.homeLuns id n us))) ∧
      t.tiers.objects.find? (·.id = id) = some p ∧
      (tier ≠ 1 → ∀ u ∈ us, p.inSlc n u = decide (tier = 2)) ∧
      (c.arg 46 1 = 2 → ∀ u ∈ us, ⟨.host, n, u, tier⟩ ∈ p.refs)) ∧
    (tier = 1 → (s.promoteUnits id n tier us).1 = false → exec (.objectMove slot) s =
      .next ((s.promoteUnits id n tier us).2.updSlot slot fun d => { d with phase := .running, work := .move s.bt })) := by
  intro tier us hroom hdram
  have hexec : exec (.objectMove slot) s = .next (s.hostPromote c s.bt).2 := by
    refine (exec_objectMove_promote k hp ho hop).trans (congrArg Host.Outcome.next ((if_neg ?_).trans (if_neg ?_)))
    · simp only [Bool.and_eq_true, decide_eq_true_eq, not_and, Nat.not_lt]
      exact hroom
    · simp only [Bool.and_eq_true, decide_eq_true_eq, not_and, Nat.not_lt, and_imp]
      exact hdram
  rw [State.hostPromote_eq k hp] at hexec
  refine ⟨fun hdone => ?_, fun ht hf => ?_⟩
  · by_cases ht : tier = 1
    · have hgo : (s.promoteUnits id n tier us).1 = true := hdone.resolve_left fun h => h ht
      have htouch : TouchWork s (s.promoteUnits id n tier us).2 := ht ▸ State.promoteUnits_dram_touchWork id n us s
      have hfound : (s.promoteUnits id n tier us).2.found id fun _ => True := by
        obtain ⟨p, hp, -⟩ := htouch.objects.find?_some (fun _ _ hk => hk.id_eq) ho
        exact ⟨p, hp, trivial⟩
      have hexec' := hexec.trans (congrArg Host.Outcome.next ((if_pos hgo).trans (if_pos ht)))
      have hrest : OnlyTiers s (s.moved c id n tier us) := by
        unfold State.moved
        split
        · exact (OnlyTiers.of_objects htouch.rest).trans (State.hostPins_onlyTiers _ _ _ _ _)
        · exact .of_objects htouch.rest
      have hpins : (s.moved c id n tier us).found id fun q => c.arg 46 1 = 2 → ∀ u ∈ us, ⟨.host, n, u, tier⟩ ∈ q.refs := by
        unfold State.moved
        split
        · exact (State.found_hostPins (P := fun _ => True) (fun _ _ _ => trivial) us hfound).imp fun _ hq _ => hq.2
        · next h2 => exact hfound.imp fun _ _ h => absurd h h2
      obtain ⟨q, hq, hrefs⟩ := hpins
      exact ⟨_, q, fun _ => ⟨hexec', hrest⟩, fun h => absurd ht h, hq, fun h => absurd ht h, hrefs⟩
    · have hhome := State.promoteUnits_home ht id n us s
      have hfound : (s.promoteUnits id n tier us).2.found id fun q => ∀ u ∈ us, q.inSlc n u = decide (tier = 2) := by
        rw [hhome]
        refine State.found_setHomes us ?_
        obtain ⟨p, hp, -⟩ := (State.cancelEvicts_touchWork id n us s).objects.find?_some (fun _ _ hk => hk.id_eq) ho
        exact ⟨p, hp, trivial⟩
      have hexec' := hexec.trans (congrArg Host.Outcome.next ((if_pos (by rw [hhome])).trans (if_neg ht)))
      have hpins : (s.moved c id n tier us).found id fun q => (∀ u ∈ us, q.inSlc n u = decide (tier = 2)) ∧
          (c.arg 46 1 = 2 → ∀ u ∈ us, ⟨.host, n, u, tier⟩ ∈ q.refs) := by
        unfold State.moved
        split
        · exact (State.found_hostPins (fun _ _ h => h) us hfound).imp fun _ hq => ⟨hq.1, fun _ => hq.2⟩
        · next h2 => exact hfound.imp fun _ hq => ⟨hq, fun h => absurd h h2⟩
      obtain ⟨q, hq, hslc, hrefs⟩ := hpins
      exact ⟨_, q, fun h => absurd h ht, fun _ => hexec', hq, fun _ => hslc, hrefs⟩
  · exact hexec.trans (congrArg Host.Outcome.next (if_neg (by rw [hf]; simp)))

theorem objectDurability_takesEffect {s : State} {slot : Nat} {c : Slot} {o : Obj} (k : Handed s slot 0x26 false c)
    (ho : s.obj? (c.arg 40 4) = some o) (hi : ∀ v, o.current? = some v → v.impaired = false) :
    (c.arg 44 1 = 1 → o.durable = false → 4 * o.rewriteSize ≤ s.tiers.budget →
      s.admitsDirty (4096 * o.dirtyPages) = true →
      ∃ (t : State) (p : Obj), exec (.objectDurability slot) s = .next (t.ackWrite slot { o with durable := true } false o.dirtyList 0) ∧
        t.obj? (c.arg 40 4) = some p ∧ p = { o with durable := true, versions := p.versions } ∧
        p.versions.map (·.data) = o.versions.map (·.data) ∧ t = { s with tiers := t.tiers } ∧
        (t.writesThrough { o with durable := true } = false → 4096 * o.dirtyList.length ≤ s.tiers.budget →
          (∀ x ∈ o.dirtyList, t.unmirrored x = false) →
          exec (.objectDurability slot) s = .next ((t.finish slot .ok 0 0).issueStores))) ∧
    (c.arg 44 1 = 1 → o.durable = false → s.tiers.budget < 4 * o.rewriteSize →
      exec (.objectDurability slot) s = .next (s.finish slot .budgetExceeded 0 0)) ∧
    (c.arg 44 1 = 2 → o.durable = true → ∃ (t : State) (p : Obj),
      exec (.objectDurability slot) s = .next (t.finish slot .ok 0 0) ∧
      t.obj? (c.arg 40 4) = some p ∧ p = { o with durable := false, versions := p.versions } ∧
      p.versions.map (·.data) = o.versions.map (·.data) ∧ (∀ v ∈ p.versions, ∀ d ∈ v.dirty, d.place.mirror = none) ∧
      t = { s with tiers := t.tiers }) := by
  have hexec := exec_objectDurability k ho hi
  refine ⟨fun h1 hd hb ha => ?_, fun h1 hd hb => ?_, fun h2 hd => ?_⟩
  · obtain ⟨p, hp, hkeep⟩ := State.obj?_durableNow ho
    have hexec' := hexec.trans (congrArg Host.Outcome.next ((if_pos (by simp [h1, hd])).trans (State.makeDurable_of_ok hb ha)))
    rw [k.id_eq] at hexec'
    refine ⟨_, p, hexec', hp, hkeep.rest, hkeep.data, State.durableNow_rest o s, fun hw hlen hm => ?_⟩
    exact hexec'.trans (congrArg Host.Outcome.next (State.ackWrite_of_dram hw fun _ => ⟨by rwa [State.durableNow_budget], hm⟩))
  · refine hexec.trans (congrArg Host.Outcome.next ((if_pos (by simp [h1, hd])).trans ((if_pos hb).trans ?_)))
    rw [k.id_eq]
    rfl
  · have hid := State.obj?_id ho
    have hset := State.obj?_updObj_same (f := fun o => { o with durable := false, versions := o.versions.map fun v =>
      { v with dirty := v.dirty.map DirtyPage.alone } }) ho (fun _ => rfl) fun _ => rfl
    refine ⟨_, { o with durable := false, versions := o.versions.map fun v => { v with dirty := v.dirty.map DirtyPage.alone } },
      hexec.trans (congrArg Host.Outcome.next ((if_neg (by simp [h2])).trans (if_pos (by simp [h2, hd])))), ?_, rfl, ?_,
      fun v hv d hdm => ?_, rfl⟩
    · rw [← hid] at hset ⊢
      exact hset
    · simp
    · obtain ⟨w, -, rfl⟩ := List.mem_map.mp hv
      obtain ⟨e, -, rfl⟩ := List.mem_map.mp hdm
      rfl

/-- `objectMove_promotes` beside the other clauses of OBJECT_MOVE. -/
theorem objectMove_takesEffect {s : State} {slot : Nat} {c : Slot} {id n : Nat} {ps : List (Nat × Nat)} {o : Obj}
    (k : Handed s slot 0x23 false c) (hp : c.pins = (id, n) :: ps) (ho : s.tiers.objects.find? (·.id = id) = some o) :
    let tier := c.arg 47 1
    let us := unitsOf (c.arg 48 8) (c.arg 56 4)
    (c.arg 46 1 = 0 ∨ c.arg 46 1 = 2 → tier = 2 → s.tier2Limit < s.tier2Units + (us.filter fun u => !(o.inSlc n u)).length →
      exec (.objectMove slot) s = .next (s.finish slot .capacityExhausted 0 0)) ∧
    (c.arg 46 1 = 3 → ∃ t : State, exec (.objectMove slot) s = .next (t.finish slot .ok 0 0) ∧
      ∀ p ∈ t.tiers.objects, p.id = id → ∀ r ∈ p.refs, ¬(r.who = .host ∧ r.ver = n ∧ r.tier = tier ∧ r.unit ∈ us)) ∧
    (c.arg 46 1 = 1 → ∃ t : State,
      exec (.objectMove slot) s = .next (t.awaitMoves slot (t.evictPages .host id n us) (t.homeLuns id n us)) ∧
      ∀ p ∈ t.tiers.objects, p.id = id → ∀ r ∈ p.refs, ¬(r.who = .host ∧ r.ver = n ∧ r.unit ∈ us)) := by
  refine ⟨fun hop ht hfull => ?_, fun hop => ⟨_, exec_objectMove_unpin k hp hop, fun p hpm hid r hr hhost => ?_⟩,
    fun hop => ⟨_, exec_objectMove_evict k hp hop, fun p hpm hid r hr hhost => ?_⟩⟩
  · exact (exec_objectMove_promote k hp ho hop).trans (congrArg Host.Outcome.next (if_pos (by simp [ht, hfull])))
  · obtain ⟨q, hq, hkept⟩ := State.not_dropped (State.dropRefs_sameRefs _ s) hpm hr
    obtain ⟨hwho, hver, htier, hunit⟩ := hhost
    simp [hq, hid, hwho, hver, htier, hunit] at hkept
  · obtain ⟨q, hq, hkept⟩ := State.not_dropped ((State.dropRefs_sameRefs _ s).trans_refs (Objects.foldl Obj.SameRefs.refl
      (fun _ _ _ => Obj.SameRefs.trans) (fun t u => State.evictUnit_sameRefs .host id n u (c.arg 47 1) t) _ _)) hpm hr
    obtain ⟨hwho, hver, hunit⟩ := hhost
    simp [hq, hid, hwho, hver, hunit] at hkept

theorem objectFlush_takesEffect {s : State} {slot : Nat} {c : Slot} {w : FlushWork} (k : Handed s slot 0x27 false c)
    (hw : c.work = .flush w) :
    let ps := s.stillDirty w.pages
    (ps = [] → w.blocks = [] → exec (.objectFlush slot) s = .next (s.finish slot .ok 0 0)) ∧
    (ps ≠ [] ∨ w.blocks ≠ [] → exec (.objectFlush slot) s = .next (((s.startWriteback ps).updSlot slot fun d =>
      { d with phase := .running, work := .flush { pages := ps, blocks := w.blocks } }).issueStores)) := by
  intro ps
  have hexec := exec_objectFlush k hw
  refine ⟨fun hps hbs => ?_, fun hne => ?_⟩
  · exact hexec.trans (congrArg Host.Outcome.next (if_pos (by simp [show s.stillDirty w.pages = [] from hps, hbs])))
  · exact hexec.trans (congrArg Host.Outcome.next (if_neg (by
      rcases hne with h | h <;> simp [show s.stillDirty w.pages = ps from rfl, h])))

/-- Settles O35: each object command is read off its lemma above; the objects that a placement move rewrites keep their version's
data, and only their pages' places and references change. -/
theorem objectCommandsTakeEffect : Obligations.ObjectCommandsTakeEffect := by
  refine ⟨⟨fun s slot c k hid => ⟨fun st h => exec_objectCreate_of_error k hid h, objectCreate_takesEffect k hid⟩,
    fun s slot c id n ps o v k hp ho hv => objectRead_takesEffect k hp ho hv,
    fun s slot c id n off len o v k ha hr ho hnew hv himp hprot hadm => objectWrite_takesEffect k ha hr ho hnew hv himp hprot hadm,
    fun s slot c o k ho => objectRetire_takesEffect k ho⟩,
    fun s slot c id n ps o k hp ho => ⟨objectMove_promotes k hp ho, objectMove_takesEffect k hp ho⟩,
    fun s slot c k => ⟨fun h => ?_, fun o h ho => ?_⟩,
    fun s o => ⟨s.length_objectRecord o, s.field_objectRecord o⟩,
    fun s slot c o k ho hi => objectDurability_takesEffect k ho hi,
    fun s n order e sp he => ?_,
    fun s slot c w k hw => objectFlush_takesEffect k hw⟩
  · exact (exec_objectQuery k).trans (congrArg Host.Outcome.next (if_pos h))
  · refine (exec_objectQuery k).trans (congrArg Host.Outcome.next ((if_neg h).trans ?_))
    rw [ho]
  · simp [State.newSlot, he, State.flushList]

end Sys2Proof.Machine
end

section
/-! PROOF. O51, O52 and O53: job errors and recovered lines, boundary scan, and the management bus. -/
namespace Sys2Proof.Machine

/-! ### Boundary scan (R479, R522 to R526) -/

theorem State.tap_of_sideband {s : State} (h : s.sideband = true) (f : TestBlock → TestBlock) :
    s.tap f = .next { s with test := f s.test } :=
  congrArg Host.Outcome.next (if_pos h)

theorem State.tap_of_off {s : State} (h : s.power.state = .off) (f : TestBlock → TestBlock) : s.tap f = .next s :=
  congrArg Host.Outcome.next (if_neg (by simp [State.sideband, h]))

theorem fitCells_of_length {l : List Bool} (h : l.length = 3191) : fitCells l = l := by
  rw [fitCells, h, Nat.sub_self, List.replicate_zero, List.append_nil, List.take_of_length_le (Nat.le_of_eq h)]

theorem State.driveCells_of_free {s : State} (h : s.sideband = true) (hf : s.pinsFree = true) (code : Nat) {cells : List Bool}
    (hl : cells.length = 3191) : s.driveCells code cells =
      .next { s with test := { s.test with ir := code, dr := 0, boundary := cells, holdsPins := true, highZ := false } } := by
  rw [State.driveCells, State.tap_of_sideband h, if_pos hf, fitCells_of_length hl]

theorem State.driveCells_of_bound {s : State} (h : s.sideband = true) (hf : s.pinsFree = false) (code : Nat) (cells : List Bool) :
    s.driveCells code cells = .next { s with test := s.test.load code 0 } := by
  rw [State.driveCells, State.tap_of_sideband h, if_neg (Bool.eq_false_iff.mp hf)]

/-- Settles O52: every boundary-scan instruction is one change of the test block, made where the sideband signals work. -/
theorem boundaryScanTakesEffect : Obligations.BoundaryScanTakesEffect := by
  refine ⟨fun s h => ⟨State.tap_of_sideband h _, State.tap_of_sideband h _, State.tap_of_sideband h _, State.tap_of_sideband h _,
    fun pins cells hp hc => ?_, fun hf => ⟨fun r hr cells hc => ?_, ?_, ?_⟩, fun hf => ⟨fun r hr cells => ?_, ?_, ?_⟩⟩,
    fun s h i hi => ?_⟩
  · show execSamplePreload pins cells s = _
    rw [execSamplePreload, State.tap_of_sideband h, fitCells_of_length hp, fitCells_of_length hc]
    rfl
  · simp only [List.mem_cons, List.not_mem_nil, or_false] at hr
    rcases hr with rfl | rfl | rfl <;> exact State.driveCells_of_free h hf _ hc
  · show execClamp s = _
    rw [execClamp, State.tap_of_sideband h, if_pos hf]
  · show execHighz s = _
    rw [execHighz, State.tap_of_sideband h, if_pos hf]
  · simp only [List.mem_cons, List.not_mem_nil, or_false] at hr
    rcases hr with rfl | rfl | rfl <;> exact State.driveCells_of_bound h hf _ cells
  · show execClamp s = _
    rw [execClamp, State.tap_of_sideband h, if_neg (Bool.eq_false_iff.mp hf)]
    rfl
  · show execHighz s = _
    rw [execHighz, State.tap_of_sideband h, if_neg (Bool.eq_false_iff.mp hf)]
    rfl
  · simp only [List.mem_cons, List.not_mem_nil, or_false] at hi
    rcases hi with rfl | rfl | rfl | rfl | rfl | rfl | rfl | rfl | rfl | rfl <;>
      simp only [exec, execTapReset, execIdcode, execClamp, execHighz, execBootStatus, execBypass, execExtest, execSamplePreload,
        execExtestPulse, execExtestTrain, State.driveCells, State.tap_of_off h]

/-! ### The management bus (R422, R531) -/

theorem State.answer_of_sideband {s : State} (h : s.sideband = true) (b : Bytes) :
    s.answer b = .next { s with test := { s.test with smb := b } } := by
  rw [State.answer, if_pos h]

theorem State.answer_of_silent {s : State} (h : s.sideband = false) (b : Bytes) :
    s.answer b = .next { s with test := { s.test with smb := [] } } := by
  rw [State.answer, if_neg (Bool.eq_false_iff.mp h)]

/-- Settles O53: every code of the bus answers through `State.answer`, with the bytes of its value. -/
theorem managementBusAnswers : Obligations.ManagementBusAnswers := by
  refine ⟨fun s h r hr => ?_, fun s h i hi => ?_, fun k n => ⟨length_leBytes k n, leNat_leBytes_eq_mod k n⟩⟩
  · simp only [List.mem_cons, List.not_mem_nil, or_false] at hr
    rcases hr with rfl | rfl | rfl | rfl | rfl | rfl | rfl | rfl | rfl | rfl | rfl | rfl | rfl <;>
      exact State.answer_of_sideband h _
  · simp only [List.mem_cons, List.not_mem_nil, or_false] at hi
    rcases hi with rfl | rfl | rfl | rfl | rfl | rfl | rfl | rfl | rfl | rfl | rfl | rfl | rfl <;> exact State.answer_of_silent h _

/-! ### Job errors and recovered lines (R148, R453, R456 to R458) -/

section
variable {s : State} {j : Job} {i : Nat} {c : JobCluster}

theorem Job.phys_of_getElem? (hc : j.clusters[i]? = some c) : j.phys i = c.phys := by
  simp [Job.phys, hc]

theorem State.jobEvent_eq {id : Nat} (cls : Nat) (hj : s.job? id = some j) (hrun : j.state = .running) (hend : j.ending = none)
    (hc : j.clusters[i]? = some c) : s.jobEvent cls true id i =
      if j.spanEvents.contains c.phys then (s.countReplay c.phys).clusterFault cls c.phys
      else (((s.countReplay c.phys).updJob id fun k => { k with spanEvents := c.phys :: k.spanEvents }).raise
        { faultUnit cls 1 .cluster c.phys 0 with detail := j.client }).replay id := by
  have hlen : i < j.clusters.length := (List.getElem?_eq_some_iff.mp hc).1
  simp only [State.jobEvent, hj, hrun, hend, Job.phys_of_getElem? hc]
  exact if_neg (by simpa using hlen)

theorem exec_machineTrap {h : Thr} {t : Thread} (fetchCrc : Bool) (hj : s.job? h.job = some j) (hrun : j.state = .running)
    (hend : j.ending = none) (hc : j.clusters[h.cluster]? = some c) (ht : c.threads[h.thread]? = some t) (hx : t.st ≠ .exited) :
    exec (.machineTrap h fetchCrc) s = .next (if fetchCrc then s.storeFailure c.phys (j.codeRegion.1 + t.pc)
      else s.jobEvent 0x05 true h.job h.cluster) := by
  refine congrArg Host.Outcome.next ?_
  simp only [hj, hc, ht]
  exact if_neg (by simp [hrun, hend, hx])

end

theorem exec_engineParityError {s : State} {e : Eng} (he : e.engine < 4) :
    exec (.engineParityError e) s = .next (s.jobEvent 0x06 true e.job e.cluster) :=
  congrArg Host.Outcome.next (if_pos he)

theorem State.storeFailure_of_first {s : State} {p : Nat} (loc : Nat) (h : ∀ f ∈ s.err.lineFails, f.phys ≠ p) :
    (s.storeFailure p loc).sched = s.sched ∧ (s.storeFailure p loc).err.log = s.err.log := by
  have hnone : s.err.lineFails.find? (fun f =>
      decide (f.unitKind = UnitKind.cluster.code) && decide (f.phys = p) && decide (f.location = loc / 64 * 64)) = none :=
    List.find?_eq_none.mpr fun f hf => by simp [h f hf]
  simp only [State.storeFailure, State.lineFailure, hnone]
  exact ⟨rfl, rfl⟩

theorem exec_lineRecoveryEnd_of_cured (s : State) (line : LineKind) (phys loc : Nat) {good : List Bool}
    (h : ∃ i, i < s.sources line ∧ good[i]? = some true) : exec (.lineRecoveryEnd line phys loc good) s = .next
      { s.countLine line phys loc with err := { (s.countLine line phys loc).err with
        halts := (s.countLine line phys loc).err.halts.filter fun h => h.2 ≠ line } } := by
  obtain ⟨i, hi, hgood⟩ := h
  have hcured : (good.take (s.sources line)).any (· = true) = true :=
    List.any_eq_true.mpr ⟨true, List.mem_iff_getElem?.mpr ⟨i, by rw [List.getElem?_take_of_lt hi, hgood]⟩, rfl⟩
  refine congrArg Host.Outcome.next ?_
  simp only [hcured, if_true]

/-- Settles O51: the first event of a cluster within a span replays the job, the second faults the cluster, and a line that a source
gives back frees the channels halted on it. -/
theorem jobErrorsReplayAndLinesRecover : Obligations.JobErrorsReplayAndLinesRecover := by
  refine ⟨fun s h j c t hj hrun hend hc ht hx => ?_, fun s line phys loc good hg => exec_lineRecoveryEnd_of_cured s line phys loc hg⟩
  have hevent := fun cls => State.jobEvent_eq cls hj hrun hend hc
  have htrap := exec_machineTrap false hj hrun hend hc ht hx
  refine ⟨fun hfirst => ?_, fun hsecond => ?_, _, exec_machineTrap true hj hrun hend hc ht hx, rfl,
    State.storeFailure_of_first _⟩
  · have hno : ¬ j.spanEvents.contains c.phys = true := by simpa using hfirst
    refine ⟨htrap.trans (congrArg Host.Outcome.next ((hevent 5).trans (if_neg hno))), fun e he => ?_⟩
    exact (exec_engineParityError he).trans (congrArg Host.Outcome.next ((hevent 6).trans (if_neg hno)))
  · have hyes : j.spanEvents.contains c.phys = true := by simpa using hsecond
    exact ⟨htrap.trans (congrArg Host.Outcome.next ((hevent 5).trans (if_pos hyes))),
      (exec_engineParityError (e := ⟨h.job, h.cluster, 0⟩) (Nat.zero_lt_succ 3)).trans
        (congrArg Host.Outcome.next ((hevent 6).trans (if_pos hyes)))⟩

end Sys2Proof.Machine
end

section
/-! PROOF. O49: the running operation of a die ends. -/
namespace Sys2Proof.Machine

/-! ### Reads and blank checks (R319, R333, R366) -/

section
variable {s : State} {d : Die} {o : DieOp} (stages : List Nat)

/-- The state in which the owner of a read is served: the read has left the queue and is counted. -/
def State.readCounted (d : Die) (o : DieOp) (stages : List Nat) (s : State) : State :=
  ((s.endOp o).updEunit d o.unit fun x => { x with reads := x.reads + 1 }).updChannel d.channel fun k => k.addStages stages

theorem exec_dieReadEnd_blank (h : s.runningOp? d .read = some o) (ho : o.owner = .blank) : exec (.dieReadEnd d stages) s =
    .next ((s.endOp o).blankCheckEnd o stages.isEmpty).refuseQueued.serveFlash.pumpFlash.markUrgent.serveReads := by
  refine congrArg Host.Outcome.next ?_
  simp only [h, ho]

theorem exec_dieReadEnd_owner (h : s.runningOp? d .read = some o) (ho : o.owner ≠ .blank) : exec (.dieReadEnd d stages) s =
    .next (
      let t := s.readCounted d o stages
      let lost := uncorrectable stages && !t.parityCovers d o.unit o.page
      let t := match o.owner with
        | .command slot lun => t.commandRead slot lun o stages lost
        | .object slot lun => t.objectRead slot lun o stages lost
        | .raw => t.rawRead o stages
        | .scan => t.scanRead o stages
        | .retention => if needsStage3 stages then t.relocateOnce .background (t.eunit d o.unit) else t
        | _ => t
      t.pumpFlash.serveReads) := by
  refine congrArg Host.Outcome.next ?_
  simp only [h]
  cases hw : o.owner with
  | blank => exact absurd hw ho
  | _ => rfl

theorem State.blankCheckEnd_waits (hfree : (s.eunit o.die o.unit).state = .free)
    (hmore : s.flash.ops.any (DieOp.checksBlank o.die o.unit) = true) : s.blankCheckEnd o true = s :=
  (if_neg (by simp [hfree])).trans ((if_pos rfl).trans (if_pos hmore))

theorem State.blankCheckEnd_passes (hfree : (s.eunit o.die o.unit).state = .free)
    (hlast : s.flash.ops.any (DieOp.checksBlank o.die o.unit) = false) :
    s.blankCheckEnd o true = s.updEunit o.die o.unit fun x => { x with blankOk := true, blankFails := 0 } :=
  (if_neg (by simp [hfree])).trans ((if_pos rfl).trans (if_neg (Bool.eq_false_iff.mp hlast)))

theorem State.blankCheckEnd_fails_again (hfree : (s.eunit o.die o.unit).state = .free)
    (hfails : 1 ≤ (s.eunit o.die o.unit).blankFails) (hpool : poolRole o.die o.unit = none) : s.blankCheckEnd o false =
    (((s.dropBlank o.die o.unit).updChannel o.die.channel fun k => { k with blankFails := sat32 (k.blankFails + 1) }).leaveSet
      o.die o.unit).updEunit o.die o.unit fun x => { x with state := .bad, blankFails := 2 } :=
  (if_neg (by simp [hfree])).trans ((if_neg Bool.false_ne_true).trans ((if_pos hfails).trans (if_neg (by simp [hpool]))))

end

/-! ### Programs, erases and DONE records (R320, R325, R330, R331, R334, R336) -/

theorem EraseUnit.programmed_spec (e : EraseUnit) (q now : Nat) : (e.programmed q now).n = e.n + 1 ∧
    ((e.programmed q now).state = .closed ↔ e.n + 1 = e.pages) ∧ (e.n + 1 ≠ e.pages → (e.programmed q now).state = .opened) := by
  have hstate : (e.programmed q now).state = if e.n + 1 = e.pages then .closed else .opened := rfl
  rw [hstate]
  exact ⟨rfl, by split <;> simp [*], fun h => if_neg h⟩

theorem exec_dieProgramEnd {s : State} {d : Die} {o : DieOp} (good : Bool) (h : s.runningOp? d .program = some o) :
    exec (.dieProgramEnd d good) s = .next (if good then (s.endOp o).programPass o else (s.endOp o).programFail o
      ).refuseQueued.serveFlash.noteProtection.throttle.markUrgent.pumpFlash.goOnAll.serveReads := by
  refine congrArg Host.Outcome.next ?_
  simp only [h]

theorem State.programPass_dusk {s : State} {o : DieOp} {p : PageImage} (hp : o.fill = some p) (ho : o.owner = .dusk) :
    s.programPass o = (s.programImage o.die o.unit o.page p).updEunit o.die o.unit fun x => x.programmed o.seq s.bt := by
  simp only [State.programPass, hp, ho]

theorem exec_dieEraseEnd {s : State} {d : Die} {o : DieOp} (good : Bool) (h : s.runningOp? d .erase = some o)
    (hpool : poolRole d o.unit = none) : exec (.dieEraseEnd d good) s = .next (
      let slc := decide (o.page = 1)
      let t := ((s.endOp o).eraseData d o.unit).updEunit d o.unit fun x => { x.erased slc with failing := !good }
      let t := if good then t else (t.raise { faultOf 0x0A 0 with location := physAddr d o.unit 0 slc }).updEunit d o.unit
        fun x => { x with wear := x.wear - (if slc then 1 else 4) }
      (t.journal .done slc d o.unit).refuseQueued.markUrgent.pumpFlash) := by
  refine congrArg Host.Outcome.next ?_
  simp only [h, hpool, Option.isSome_none, Bool.false_eq_true, if_false, decide_eq_true_eq]

theorem exec_journalDoneDurable_of_pending {s : State} {r : JournalRec} (h : s.dueDone? = some r)
    (hops : ∃ o ∈ s.recordOps r.seq, o.st ≠ .running) : exec .journalDoneDurable s = .next s := by
  refine congrArg Host.Outcome.next ?_
  simp only [h]
  exact if_pos (by simpa using hops)

theorem exec_journalDoneDurable_of_durable {s : State} {r : JournalRec} (h : s.dueDone? = some r) (hops : s.recordOps r.seq = [])
    (ha : r.durableA = true) (hb : r.durableB = true) (hbusy : s.test.busy = none) : exec .journalDoneDurable s = .next
      (s.updEunit r.die r.unit fun x => { x with
        state := if (s.eunit r.die r.unit).failing then .bad else .free, failing := false
        }).releaseErases.releaseParity.issueStores.serveFlash.noteProtection.markUrgent.pumpFlash := by
  have hwritten : (s.flash.journal.any fun q => q.seq = r.seq && q.durableA && q.durableB) = true :=
    List.any_eq_true.mpr ⟨r, List.mem_of_find?_eq_some h, by simp [ha, hb]⟩
  have hraw : ∀ f, ((s.updEunit r.die r.unit f).rawOn .erase r.die r.unit) = false := fun f => by
    simp [State.rawOn, hbusy]
  refine congrArg Host.Outcome.next ?_
  simp only [h, hops, List.any_nil, Bool.false_eq_true, if_false, List.foldl_nil, hwritten, Bool.not_true, hraw]

/-- Settles O49: each end takes the running operation from its die's queue, and what it then does is one function of the operation's
owner. -/
theorem dieOperationsEnd : Obligations.DieOperationsEnd := by
  refine ⟨fun s d stages o h => ?_, EraseUnit.programmed_spec, fun s d o h => ⟨exec_dieProgramEnd true h, exec_dieProgramEnd false h⟩,
    fun s o p => State.programPass_dusk, fun s d o h hpool => ⟨exec_dieEraseEnd true h hpool, exec_dieEraseEnd false h hpool⟩,
    fun s r h => ⟨exec_journalDoneDurable_of_pending h, exec_journalDoneDurable_of_durable h⟩, fun s d => ?_⟩
  · refine ⟨fun ho hfree hs hd hmore => ?_, fun ho hfree hs hd hlast => ?_, fun ho hfree hs hfails hd hpool => ?_, fun ho => ?_⟩
    · subst hs hd
      rw [exec_dieReadEnd_blank [] h ho]
      exact congrArg (fun t : State => Host.Outcome.next t.refuseQueued.serveFlash.pumpFlash.markUrgent.serveReads)
        (State.blankCheckEnd_waits (s := s.endOp o) hfree hmore)
    · subst hs hd
      rw [exec_dieReadEnd_blank [] h ho]
      exact congrArg (fun t : State => Host.Outcome.next t.refuseQueued.serveFlash.pumpFlash.markUrgent.serveReads)
        (State.blankCheckEnd_passes (s := s.endOp o) hfree hlast)
    · subst hd
      rw [exec_dieReadEnd_blank stages h ho, List.isEmpty_eq_false_iff.mpr hs]
      exact congrArg (fun t : State => Host.Outcome.next t.refuseQueued.serveFlash.pumpFlash.markUrgent.serveReads)
        (State.blankCheckEnd_fails_again (s := s.endOp o) hfree hfails hpool)
    · have hexec := exec_dieReadEnd_owner stages h ho
      refine ⟨fun slot lun hw => ?_, fun slot lun hw => ?_, fun hw hd => ?_, fun hw => ?_⟩
      · rw [hexec, hw]
        rfl
      · rw [hexec, hw]
        rfl
      · subst hd
        rw [hexec, hw]
        rfl
      · rw [hexec, hw]
        rfl
  · refine congrArg (fun ops => Host.Outcome.next ({ s with flash := { s.flash with ops := ops } } : State).pumpFlash) ?_
    refine List.map_congr_left fun o _ => ?_
    simp

end Sys2Proof.Machine
end

section
/-! PROOF. O30 and O32: raw media operations, and the commands that only report. -/
namespace Sys2Proof.Machine

/-! ### Raw media operations (R527, R528) -/

section
variable {s : State} {port : Nat}

theorem State.rawOp_of_accepted (hport : s.portAccepts port = true) (hflush : s.power.flush ≠ .running)
    (hphase : s.power.phase = .service) (hbusy : s.test.busy = none) (haddr : s.rawAddrOk = true) (f : Die → EraseUnit → State) :
    State.rawOp port s f = f (addrDie s.test.addr) (s.eunit (addrDie s.test.addr) (addrUnit s.test.addr)) :=
  (if_neg (by simp [hport, hflush, hphase])).trans ((if_neg (by simp [hbusy])).trans (if_neg (by simp [haddr])))

end

/-- Settles O30: an accepted raw operation is the model's function of the die and unit that the address names, and each clause is
one branch of it. -/
theorem rawMediaOperationsTakeEffect : Obligations.RawMediaOperationsTakeEffect := by
  intro s port hport hflush hphase hbusy haddr d e n
  have hraw := State.rawOp_of_accepted hport hflush hphase hbusy haddr
  refine ⟨congrArg Host.Outcome.next (hraw _), fun hres hfree hgood hcount => ?_, fun hlent hadm => ?_, fun hlent hadm => ?_,
    fun hlent hbad herasing => ?_, fun hlent => ?_⟩ <;> refine congrArg Host.Outcome.next ((hraw _).trans ?_)
  · exact (if_neg (by simp [e, d, hres, hfree])).trans (if_neg (by
      simp only [Bool.or_eq_true, decide_eq_true_eq, not_or, Nat.not_lt]
      exact ⟨hgood, hcount⟩))
  · exact (if_neg (not_not_intro hlent)).trans (if_neg (by simpa [n, e, d] using hadm))
  · exact (if_neg (not_not_intro hlent)).trans (if_pos (by simpa [n, e, d] using hadm))
  · exact if_neg (by simp [e, d] at hlent hbad herasing; simp [hlent, hbad, herasing])
  · refine (if_neg (not_not_intro hlent)).trans ?_
    by_cases hused : e.state = .opened ∨ e.state = .closed ∨ e.state = .verified
    · rw [if_pos hused]
      exact congrArg State.noteProtection (if_pos (by simpa [or_assoc] using hused))
    · rw [if_neg hused]
      exact congrArg State.noteProtection (if_neg (by simpa [or_assoc] using hused))

/-! ### Reports (R313, R465, R466, R502, R503, R519) -/

/-- Marking the first `n` unread records read leaves the later ones unread. -/
theorem markRead_unread (n : Nat) (l : List FaultRec) :
    (markRead n l).filter (!·.isRead) = (l.filter (!·.isRead)).drop n := by
  induction l generalizing n with
  | nil => cases n <;> simp [markRead]
  | cons r rs ih =>
    cases n with
    | zero => rfl
    | succ n =>
      rw [markRead]
      split <;> simp [*]

theorem SvcUnit.entry_spec (u : SvcUnit) : u.entry.length = 8 ∧ field u.entry 0 1 = u.kind.code ∧
    field u.entry 2 2 = u.phys % 65536 ∧ field u.entry 6 2 = u.closure % 65536 := by
  simp only [SvcUnit.entry, List.append_assoc]
  refine ⟨by simp, ?_, ?_, ?_⟩
  · rw [field_leBytes_append]
    cases u.kind <;> rfl
  · iterate 2 rw [field_append_of_le _ _ (by simp)]
    simp [field_leBytes_append]
  · iterate 4 rw [field_append_of_le _ _ (by simp)]
    simp [field_leBytes]

theorem LogEntry.bytes_spec (e : LogEntry) : e.bytes.length = 80 ∧ field e.bytes 0 4 = e.seq % 2 ^ 32 ∧
    field e.bytes 4 1 = e.reg % 256 ∧ field e.bytes 6 2 = e.version % 65536 ∧ field e.bytes 8 4 = e.typ % 2 ^ 32 ∧
    field e.bytes 12 4 = e.obj % 2 ^ 32 := by
  simp only [LogEntry.bytes, List.append_assoc]
  refine ⟨?_, ?_, ?_, ?_, ?_, ?_⟩
  · simp [fitBytes, zeroBytes]
    omega
  · exact field_leBytes_append _ _ _
  · iterate 1 rw [field_append_of_le _ _ (by simp)]
    simp [field_leBytes_append]
  · iterate 3 rw [field_append_of_le _ _ (by simp [zeroBytes])]
    simp [field_leBytes_append, zeroBytes]
  · iterate 4 rw [field_append_of_le _ _ (by simp [zeroBytes])]
    simp [field_leBytes_append, zeroBytes]
  · iterate 5 rw [field_append_of_le _ _ (by simp [zeroBytes])]
    simp [field_leBytes_append, zeroBytes]

theorem FaultRec.bytes_spec (r : FaultRec) : r.bytes.length = 48 ∧ field r.bytes 0 4 = r.seq % 2 ^ 32 ∧ field r.bytes 4 1 = r.cls % 256 ∧
    field r.bytes 5 1 = r.response % 256 ∧ field r.bytes 6 1 = r.unitKind % 256 ∧ field r.bytes 8 2 = r.unit % 65536 ∧
    field r.bytes 10 2 = r.closure % 65536 ∧ field r.bytes 12 4 = r.objectId % 2 ^ 32 ∧ field r.bytes 16 2 = r.version % 65536 ∧
    field r.bytes 18 2 = r.count % 65536 ∧ field r.bytes 20 4 = r.detail % 2 ^ 32 ∧ field r.bytes 24 8 = r.location % 2 ^ 64 ∧
    field r.bytes 32 8 = r.tick % 2 ^ 64 := by
  simp only [FaultRec.bytes, List.append_assoc]
  refine ⟨by simp [zeroBytes], field_leBytes_append _ _ _, ?_, ?_, ?_, ?_, ?_, ?_, ?_, ?_, ?_, ?_, ?_⟩
  · iterate 1 rw [field_append_of_le _ _ (by simp)]
    simp [field_leBytes_append]
  · iterate 2 rw [field_append_of_le _ _ (by simp)]
    simp [field_leBytes_append]
  · iterate 3 rw [field_append_of_le _ _ (by simp)]
    simp [field_leBytes_append]
  · iterate 5 rw [field_append_of_le _ _ (by simp)]
    simp [field_leBytes_append]
  · iterate 6 rw [field_append_of_le _ _ (by simp)]
    simp [field_leBytes_append]
  · iterate 7 rw [field_append_of_le _ _ (by simp)]
    simp [field_leBytes_append]
  · iterate 8 rw [field_append_of_le _ _ (by simp)]
    simp [field_leBytes_append]
  · iterate 9 rw [field_append_of_le _ _ (by simp)]
    simp [field_leBytes_append]
  · iterate 10 rw [field_append_of_le _ _ (by simp)]
    simp [field_leBytes_append]
  · iterate 11 rw [field_append_of_le _ _ (by simp)]
    simp [field_leBytes_append]
  · iterate 12 rw [field_append_of_le _ _ (by simp)]
    simp [field_leBytes_append]

theorem Domain.length_record (d : Domain) : d.record.length = 64 := by
  rw [Domain.record]
  split <;> simp [zeroBytes]

/-- Settles O32: each command writes its report and completes, and a field of a record is read off its place in the bytes. -/
theorem reportingCommandsAnswer : Obligations.ReportingCommandsAnswer := by
  refine ⟨fun s slot c k => congrArg Host.Outcome.next (k.run _), fun s slot c k => ?_,
    fun s slot c k => congrArg Host.Outcome.next (k.run _), fun s slot c k => congrArg Host.Outcome.next (k.run _),
    fun s slot c k => congrArg Host.Outcome.next (k.run _), SvcUnit.entry_spec, FaultRec.bytes_spec, LogEntry.bytes_spec,
    Domain.length_record⟩
  refine ⟨_, congrArg Host.Outcome.next (k.run _), markRead_seq _ _, (markRead_unread _ _).trans ?_⟩
  rw [List.length_take, ← List.drop_eq_drop_min]

end Sys2Proof.Machine
end

section
/-! PROOF. O29: set-up writes with rows of their own. -/
namespace Sys2Proof.Machine

theorem bitAt_toNat (v : Word) (i : Nat) : bitAt v.toNat i = v.getLsbD i := bitAt_eq_testBit _ _

theorem State.regOpenHeld_of_regOpen {s : State} {port : Nat} {b : RegBlock} (h : s.regOpen port b = true) :
    s.regOpenHeld port b = true := by
  simp [State.regOpenHeld, h]

/-! ### The hot region (R288, R293) -/

theorem removeFirst_subset {α : Type} (p : α → Bool) (l : List α) : removeFirst p l ⊆ l := by
  induction l with
  | nil => exact List.Subset.refl _
  | cons x xs ih =>
    rw [removeFirst]
    split
    · exact List.subset_cons_self x xs
    · exact List.cons_subset_cons x ih

theorem length_removeFirst {α : Type} [DecidableEq α] {x : α} {l : List α} (h : x ∈ l) :
    (removeFirst (· = x) l).length + 1 = l.length := by
  induction l with
  | nil => cases h
  | cons y ys ih =>
    rw [removeFirst]
    split
    · rfl
    · next hne =>
      rw [List.length_cons, List.length_cons, ih ((List.mem_cons.mp h).resolve_left fun e => hne (by simp [e]))]

/-- What a forced eviction of the hot region for no new copy does: nothing but copies go, until the region holds what is left. -/
theorem GatherEngine.evict_forced (now : Nat) {fuel : Nat} {g : GatherEngine} (h : g.copies.length < fuel) :
    let r := (GatherEngine.evict now 0 true fuel g).2
    r.used ≤ g.hotUnits * 67108864 ∧ r.copies ⊆ g.copies ∧ r = { g with copies := r.copies } := by
  induction fuel generalizing g with
  | zero => exact absurd h (Nat.not_lt_zero _)
  | succ k ih =>
    unfold GatherEngine.evict
    split
    · next hfit => exact ⟨hfit, List.Subset.refl _, rfl⟩
    · next hfull =>
      split
      · next c hc =>
        have hlen := length_removeFirst (List.mem_of_find?_eq_some hc)
        obtain ⟨hused, hsub, hrest⟩ := ih (g := { g with copies := removeFirst (· = c) g.copies }) (by
          show (removeFirst (· = c) g.copies).length < k
          omega)
        exact ⟨hused, List.Subset.trans hsub (removeFirst_subset _ _), hrest⟩
      · by_cases hempty : g.copies = []
        · refine absurd ?_ hfull
          simp [GatherEngine.used, hempty]
        · have hlen := List.length_pos_iff.mpr hempty
          obtain ⟨hused, hsub, hrest⟩ := ih (g := { g with copies := g.copies.drop 1 }) (by
            rw [List.length_drop]
            omega)
          rw [if_pos (by simpa using hempty)]
          exact ⟨hused, List.Subset.trans hsub (List.drop_subset _ _), hrest⟩

theorem GatherEngine.evict_of_fits (now fuel : Nat) {g : GatherEngine} (h : g.used ≤ g.hotUnits * 67108864) :
    (GatherEngine.evict now 0 true fuel g).2 = g := by
  cases fuel with
  | zero => rfl
  | succ k => exact congrArg Prod.snd (if_pos h)

/-! ### The counters (R530) -/

/-- A counter group is cleared where its bit is set. -/
def State.clearIf (v : Nat) (s : State) (i : Nat) : State := if bitAt v i then s.clearGroup i else s

theorem State.writeCtrClear_eq (v : Nat) (s : State) : s.writeCtrClear v =
    ((((((s.clearIf v 0).clearIf v 1).clearIf v 2).clearIf v 3).clearIf v 4).clearIf v 5).clearIf v 6 := by
  rw [State.writeCtrClear, List.foldl_filter]
  rfl

theorem State.clearIf_field {α : Type} (f : State → α) (v i : Nat) (s : State) :
    f (s.clearIf v i) = if bitAt v i then f (s.clearGroup i) else f s :=
  apply_ite f _ _ _

theorem State.writeCtrClear_counters (v : Nat) (s : State) :
    (s.writeCtrClear v).atr.errCnt = (if bitAt v 0 then List.replicate 256 0 else s.atr.errCnt) ∧
    (s.writeCtrClear v).beacon =
      (if bitAt v 2 then { s.beacon with bad := 0, rejected := 0, holdovers := 0, relocks := 0 } else s.beacon) ∧
    (s.writeCtrClear v).err.resends = (if bitAt v 3 then [0, 0, 0] else s.err.resends) ∧
    (s.writeCtrClear v).flash.channels = (if bitAt v 4 then List.replicate 64 {} else s.flash.channels) ∧
    (s.writeCtrClear v).err.drcCnt = (if bitAt v 5 then List.replicate 12 (0, 0, 0, 0) else s.err.drcCnt) ∧
    (s.writeCtrClear v).err.cluCnt = (if bitAt v 6 then List.replicate 68 (0, 0, 0) else s.err.cluCnt) := by
  rw [State.writeCtrClear_eq]
  refine ⟨?_, ?_, ?_, ?_, ?_, ?_⟩
  · simp only [State.clearIf_field (fun t => t.atr.errCnt), State.clearGroup, ite_self]
  · simp only [State.clearIf_field (fun t => t.beacon), State.clearGroup, ite_self]
  · simp only [State.clearIf_field (fun t => t.err.resends), State.clearGroup, ite_self]
  · simp only [State.clearIf_field (fun t => t.flash.channels), State.clearGroup, ite_self]
  · simp only [State.clearIf_field (fun t => t.err.drcCnt), State.clearGroup, ite_self]
  · simp only [State.clearIf_field (fun t => t.err.cluCnt), State.clearGroup, ite_self]

/-! ### The fault log (R462) -/

theorem markRead_one {pre post : List FaultRec} {r : FaultRec} (hpre : ∀ q ∈ pre, q.isRead = true) (hr : r.isRead = false) :
    markRead 1 (pre ++ r :: post) = pre ++ { r with isRead := true } :: post := by
  induction pre with
  | nil => simp [markRead, hr]
  | cons q qs ih =>
    have hq : q.isRead = true := hpre q List.mem_cons_self
    rw [List.cons_append, markRead, if_pos hq, ih fun x hx => hpre x (List.mem_cons_of_mem _ hx)]
    rfl

/-! ### The clauses of O29 -/

section
variable {s : State} {port : Nat} {v : Word}

theorem exec_tirCfg (hopen : s.regOpen port .tir = true) (hnone : s.tiers.objects = [])
    (hv : v.getLsbD 1 = true → v.getLsbD 0 = true) : exec (.tirCfg port v) s = .next { s with tiers := { s.tiers with
      flagsView := v.getLsbD 0, vitrine := v.getLsbD 1
      compress := if s.grade.hasCompression then v.getLsbD 2 else s.tiers.compress } } := by
  refine congrArg Host.Outcome.next ((if_pos hopen).trans ((if_neg ?_).trans ?_))
  · simpa [hnone, bitAt_toNat] using hv
  · simp only [bitAt_toNat]

theorem exec_bcnCfg (hopen : s.regOpen port .bcn = true) (hsel : bitsAt v.toNat 0 2 ≠ 3) :
    ∃ t, exec (.bcnCfg port v) s = .next t ∧ t.beacon.cfg = bitsAt v.toNat 0 2 ∧
      (bitsAt v.toNat 0 2 ≠ s.beacon.cfg → t.beacon.supply = 3 ∧ t.beacon.agree = 0 ∧ t.beacon.aux = none) ∧
      (bitsAt v.toNat 0 2 = s.beacon.cfg → t.beacon = s.beacon) ∧
      t.test = (if bitsAt v.toNat 0 2 = 0 then s.test else { s.test with pulse := false }) ∧
      t = { s with beacon := t.beacon, test := t.test } := by
  refine ⟨_, congrArg Host.Outcome.next ((if_pos hopen).trans (if_neg hsel)), ?_⟩
  by_cases hsame : bitsAt v.toNat 0 2 = s.beacon.cfg
  · rw [if_pos hsame]
    by_cases hzero : bitsAt v.toNat 0 2 = 0
    · rw [if_pos hzero, if_pos hzero]
      exact ⟨hsame.symm, fun h => absurd hsame h, fun _ => rfl, rfl, rfl⟩
    · rw [if_neg hzero, if_neg hzero]
      exact ⟨hsame.symm, fun h => absurd hsame h, fun _ => rfl, rfl, rfl⟩
  · rw [if_neg hsame]
    by_cases hzero : bitsAt v.toNat 0 2 = 0
    · rw [if_pos hzero, if_pos hzero]
      exact ⟨rfl, fun _ => ⟨rfl, rfl, rfl⟩, fun h => absurd h hsame, rfl, rfl⟩
    · rw [if_neg hzero, if_neg hzero]
      exact ⟨rfl, fun _ => ⟨rfl, rfl, rfl⟩, fun h => absurd h hsame, rfl, rfl⟩

theorem exec_pwrCap_of_range (hopen : s.regOpen port .pwr = true) (hlo : 300 ≤ bitsAt v.toNat 0 10) (hhi : bitsAt v.toNat 0 10 ≤ 720)
    (hstate : s.power.state = .active ∨ s.power.state = .capped) : exec (.pwrCap port v) s = .next { s with power := { s.power with
      cap := bitsAt v.toNat 0 10, state := if bitsAt v.toNat 0 10 < 720 then .capped else .active } } := by
  refine congrArg Host.Outcome.next ((if_pos hopen).trans ((if_neg (by simp [hlo, hhi])).trans ?_))
  rcases hstate with h | h <;> rw [State.updPower, h]

theorem exec_pwrCap_of_outside (hopen : s.regOpen port .pwr = true) (hout : bitsAt v.toNat 0 10 < 300 ∨ 720 < bitsAt v.toNat 0 10) :
    exec (.pwrCap port v) s = .next { s with power := { s.power with err := true } } :=
  congrArg Host.Outcome.next ((if_pos hopen).trans (if_pos (by simpa using hout)))

theorem exec_pwrShutdownGo (hopen : s.regOpen port .pwr = true)
    (hstate : s.power.state = .active ∨ s.power.state = .capped ∨ s.power.state = .quiescent) :
    exec (.pwrShutdownGo port) s = .next s.startShutdown := by
  refine congrArg Host.Outcome.next ((if_pos (State.regOpenHeld_of_regOpen hopen)).trans ?_)
  show s.askShutdown = _
  rcases hstate with h | h | h <;> rw [State.askShutdown, h]

theorem exec_quiesce (hopen : s.regOpen port .pwr = true) (hactive : s.power.state = .active) :
    exec (.quiesce port) s = .next (if s.sched.jobs.any fun j => j.state = .running then
      { s with power := { s.power with err := true } } else { s with power := { s.power with state := .quiescent } }) := by
  refine congrArg Host.Outcome.next ((if_pos (State.regOpenHeld_of_regOpen hopen)).trans ?_)
  show s.quiesce = _
  rw [State.quiesce, if_neg (by simp [hactive])]
  by_cases hrun : (s.sched.jobs.any fun j => decide (j.state = .running)) = true
  · rw [if_pos hrun, if_neg (by simp [hrun])]
    rfl
  · rw [if_neg hrun, if_pos (by simp [hactive, hrun])]
    rfl

theorem exec_updateLock (hopen : s.regOpen port .sec = true) (hlock : s.sec.lock = false) : exec (.updateLock port) s =
    .next (({ s with sec := { s.sec with lock := true } } : State).extend 4 0x31 0 0 (List.replicate 64 0)) :=
  congrArg Host.Outcome.next ((if_pos hopen).trans (if_neg (Bool.eq_false_iff.mp hlock)))

theorem exec_pop {pre post : List FaultRec} {r : FaultRec} (hopen : s.regOpen port .err = true) (hlog : s.err.log = pre ++ r :: post)
    (hpre : ∀ q ∈ pre, q.isRead = true) (hr : r.isRead = false) :
    exec (.pop port) s = .next { s with err := { s.err with log := pre ++ { r with isRead := true } :: post } } := by
  refine congrArg Host.Outcome.next ((if_pos (State.regOpenHeld_of_regOpen hopen)).trans ?_)
  rw [State.popRecord, hlog, markRead_one hpre hr]

theorem exec_tstPulseCfg_of_taken (hopen : s.regOpen port .tst = true) (h : v.getLsbD 0 = false ∨ s.beacon.cfg = 0) :
    exec (.tstPulseCfg port v) s = .next { s with test := { s.test with
      pulse := v.getLsbD 0, period := bitsAt v.toNat 16 16 } } := by
  refine congrArg Host.Outcome.next ((if_pos hopen).trans ((if_neg ?_).trans ?_))
  · rw [bitAt_toNat]
    rcases h with h | h <;> rw [h] <;> simp
  · rw [bitAt_toNat]

theorem exec_tstPulseCfg_of_refused (hopen : s.regOpen port .tst = true) (h0 : v.getLsbD 0 = true) (hcfg : s.beacon.cfg ≠ 0) :
    exec (.tstPulseCfg port v) s = .next { s with test := { s.test with err := true } } :=
  congrArg Host.Outcome.next ((if_pos hopen).trans (if_pos (by simp only [bitAt_toNat, h0]; simpa using hcfg)))

theorem exec_gatHotBytes (hopen : s.regOpen port .gat = true) (hn : bitsAt v.toNat 0 9 ≤ 256) :
    ∃ t, exec (.gatHotBytes port v) s = .next t ∧ t.gather.hotUnits = bitsAt v.toNat 0 9 ∧
      t.gather.used ≤ bitsAt v.toNat 0 9 * 67108864 ∧ (∀ c ∈ t.gather.copies, c ∈ s.gather.copies) ∧
      (s.gather.used ≤ bitsAt v.toNat 0 9 * 67108864 → t.gather.copies = s.gather.copies) ∧
      t = { s with gather := { s.gather with hotUnits := t.gather.hotUnits, copies := t.gather.copies } } := by
  obtain ⟨hused, hsub, hrest⟩ := GatherEngine.evict_forced s.bt (g := { s.gather with hotUnits := bitsAt v.toNat 0 9 })
    (Nat.lt_succ_self _)
  refine ⟨_, congrArg Host.Outcome.next ((if_pos hopen).trans (if_neg (Nat.not_lt.mpr hn))), ?_, hused, fun c hc => hsub hc,
    fun hfits => ?_, ?_⟩
  · exact congrArg GatherEngine.hotUnits hrest
  · have hkept := GatherEngine.evict_of_fits s.bt (s.gather.copies.length + 1)
      (g := { s.gather with hotUnits := bitsAt v.toNat 0 9 }) hfits
    show (GatherEngine.evict s.bt 0 true (s.gather.copies.length + 1) { s.gather with hotUnits := bitsAt v.toNat 0 9 }).2.copies = _
    rw [hkept]
  · refine congrArg (fun g => ({ s with gather := g } : State)) ?_
    have hunits : (GatherEngine.evict s.bt 0 true (s.gather.copies.length + 1)
      { s.gather with hotUnits := bitsAt v.toNat 0 9 }).2.hotUnits = bitsAt v.toNat 0 9 := congrArg GatherEngine.hotUnits hrest
    rw [hunits]
    exact hrest

end

/-- Settles O29: a register whose block takes the write acts by its own row, and each row is one branch of the model's function. -/
theorem setupWritesTakeEffect : Obligations.SetupWritesTakeEffect := by
  refine ⟨fun s port v => exec_tirCfg, fun s port v => exec_bcnCfg,
    fun s port v hopen => ⟨exec_pwrCap_of_range hopen, exec_pwrCap_of_outside hopen⟩,
    fun s port hopen => ⟨exec_pwrShutdownGo hopen, fun hactive hidle => ?_, fun hactive hrun => ?_⟩,
    fun s port => exec_updateLock, fun s port pre post r => exec_pop,
    fun s port v hopen => ⟨exec_tstPulseCfg_of_taken hopen, exec_tstPulseCfg_of_refused hopen, ?_⟩, fun s port v => exec_gatHotBytes⟩
  · rw [exec_quiesce hopen hactive, if_neg (by simpa using hidle)]
  · rw [exec_quiesce hopen hactive, if_pos (by simpa using hrun)]
  · obtain ⟨herr, hbeacon, hresends, hchannels, hdrc, hclu⟩ := State.writeCtrClear_counters v.toNat s
    simp only [bitAt_toNat] at herr hbeacon hresends hchannels hdrc hclu
    refine ⟨_, congrArg Host.Outcome.next (if_pos hopen), herr, fun h => ?_, hresends, hchannels, hdrc, hclu⟩
    rw [hbeacon, if_pos h]
    exact ⟨rfl, rfl, rfl, rfl⟩

end Sys2Proof.Machine
end

section
/-! PROOF. O31: units close, drain, test themselves and return. -/
namespace Sys2Proof.Machine

/-! ### What keeps the table of service units -/

theorem FlashWork.units {s t : State} (h : FlashWork s t) : t.units = s.units := by rw [h.rest]

theorem TouchWork.units {s t : State} (h : TouchWork s t) : t.units = s.units := by rw [h.rest]

theorem State.foldl_units {α : Type} {f : State → α → State} (hf : ∀ t a, (f t a).units = t.units) (l : List α) (s : State) :
    (l.foldl f s).units = s.units :=
  List.foldlRecOn (motive := fun t => t.units = s.units) l f rfl fun t ht a _ => (hf t a).trans ht

@[simp] theorem State.writeRepairs_units (s : State) : s.writeRepairs.units = s.units :=
  (State.twoCopies_work _ _).units

@[simp] theorem State.noteUnits_units (s : State) : s.noteUnits.units = s.units := State.writeRepairs_units _

@[simp] theorem State.deriveBudget_units (s : State) : s.deriveBudget.units = s.units := by
  unfold State.deriveBudget
  extract_lets t
  split
  · rw [State.raise_units]
    rfl
  · rfl

@[simp] theorem State.handOps_units (p : Nat) (all : Bool) (s : State) : (s.handOps p all).units = s.units := rfl

@[simp] theorem State.finishUnitCmds_units (k : UnitKind) (p opcode : Nat) (st : Status) (result : Nat) (s : State) :
    (s.finishUnitCmds k p opcode st result).units = s.units := by
  refine State.foldl_units (fun t c => ?_) _ s
  split
  · exact State.updSlot_units _ _ t
  · exact State.finish_units _ _ _ _ t

@[simp] theorem State.moveServices_units (p : Nat) (spare : Option Nat) (s : State) : (s.moveServices p spare).units = s.units := rfl

@[simp] theorem State.issueRead_units (id p : Nat) (g : Seg) (s : State) : (s.issueRead id p g).units = s.units := by
  unfold State.issueRead
  split
  · rfl
  · split
    · rfl
    · rw [State.send_units, State.updSlot_units]

@[simp] theorem State.reissueReads_units (p q : Nat) (s : State) : (s.reissueReads p q).units = s.units :=
  State.foldl_units (fun t cm => by rw [State.issueRead_units, State.updSlot_units]) _ s

@[simp] theorem State.failover_units (p : Nat) (s : State) : (s.failover p).units = s.units := by
  unfold State.failover
  extract_lets q moved moved' t u
  rw [State.reissueReads_units]
  show t.units = _
  rw [State.updPort_units, State.updPort_units]

@[simp] theorem State.sendRedNow_units (k : TxPkt) (s : State) : (s.sendRedNow k).units = s.units := by
  unfold State.sendRedNow
  extract_lets free p t
  split <;> exact State.send_units p k s

@[simp] theorem State.pumpRed_units (s : State) : s.pumpRed.units = s.units := by
  refine (State.foldl_units (fun t k => ?_) _ _).trans rfl
  split
  · exact State.sendRedNow_units k t
  · rfl

@[simp] theorem State.pumpSlot_units (id fuel : Nat) (s : State) : (s.pumpSlot id fuel).units = s.units := by
  induction fuel generalizing s with
  | zero => rfl
  | succ k ih =>
    rw [State.pumpSlot]
    split
    · rfl
    · split
      · split
        · rfl
        · rw [ih, State.issueRead_units, State.updSlot_units]
      · rfl

@[simp] theorem State.pumpReads_units (s : State) : s.pumpReads.units = s.units :=
  State.foldl_units (fun _ _ => State.pumpSlot_units _ _ _) _ s

@[simp] theorem State.portReady_units (p : Nat) (s : State) : (s.portReady p).units = s.units := by
  unfold State.portReady
  rw [State.pumpReads_units, State.pumpRed_units]
  refine (State.updPort_units p Port.pump _).trans ?_
  split
  · rfl
  · rw [State.updPort_units, State.reissueReads_units, State.updPort_units, State.updPort_units]

@[simp] theorem State.leavePackage_units (p : Nat) (s : State) : (s.leavePackage p).units = s.units := by
  have hroom := (State.makeRoom_touchWork [] ((s.dropClean p).leaveAreas p).dramUnitsHeld 0 ((s.dropClean p).leaveAreas p)).units
  exact hroom

@[simp] theorem State.repairRows_units (p : Nat) (s : State) : (s.repairRows p).units = s.units := by
  refine State.foldl_units (fun t r => ?_) _ s
  unfold State.repairRow State.takeFree
  dsimp only
  split
  · exact State.writeRepairs_units _
  · rfl

/-! ### Empty reduction domains (R311) -/

theorem State.dom_of_empty {s : State} (h : ∀ m ∈ s.domains, m.state = .empty) (d : Nat) : (s.dom d).state = .empty := by
  rw [State.dom, List.getD_eq_getElem?_getD]
  cases hm : s.domains[d]? with
  | none => rfl
  | some m => exact h m (List.mem_of_getElem? hm)

/-- With every domain EMPTY a packet is counted at its port and dropped. -/
theorem State.arriveRed_of_empty {s : State} (h : ∀ m ∈ s.domains, m.state = .empty) (port vc : Nat) (k : RedPacket) :
    s.arriveRed port vc k = s.updPort port fun p => { p with errPackets := sat32 (p.errPackets + 1) } := by
  have hd := State.dom_of_empty h (vc - 3)
  rw [State.arriveRed, if_pos (by simp [State.redAccepted, hd]), State.takeRed, if_pos (by simp [hd])]

theorem State.deliverHeld_of_empty {s : State} (h : ∀ m ∈ s.domains, m.state = .empty) :
    s.deliverHeld.units = s.units ∧ s.deliverHeld.domains = s.domains := by
  refine List.foldlRecOn (motive := fun t : State => t.units = s.units ∧ t.domains = s.domains) [0, 1] _ ⟨rfl, rfl⟩
    fun t ht p _ => ?_
  refine List.foldlRecOn (motive := fun t : State => t.units = s.units ∧ t.domains = s.domains) _ _
    ⟨(State.updPort_units _ _ t).trans ht.1, (State.updPort_domains _ _ t).trans ht.2⟩ fun u hu k _ => ?_
  rw [State.arriveRed_of_empty (hu.2 ▸ h)]
  exact ⟨(State.updPort_units _ _ u).trans hu.1, (State.updPort_domains _ _ u).trans hu.2⟩

/-- The table of units and the domains stay as they were. -/
def KeepsUnits (s t : State) : Prop := t.units = s.units ∧ t.domains = s.domains

theorem KeepsUnits.trans {s t u : State} (h : KeepsUnits s t) (k : KeepsUnits t u) : KeepsUnits s u :=
  ⟨k.1.trans h.1, k.2.trans h.2⟩

theorem KeepsUnits.foldl {α : Type} {f : State → α → State} (hf : ∀ t a, KeepsUnits t (f t a)) (l : List α) (s : State) :
    KeepsUnits s (l.foldl f s) :=
  List.foldlRecOn (motive := fun t => KeepsUnits s t) l f ⟨rfl, rfl⟩ fun t ht a _ => ht.trans (hf t a)

theorem State.moveDown_keepsUnits (id n u tier : Nat) (s : State) : KeepsUnits s (s.moveDown id n u tier) := by
  unfold State.moveDown
  extract_lets t
  have h : t = _ := (State.startWriteback_touchWork (unitPages id n u) s).rest
  exact ⟨(State.updObj_units _ _ t).trans (by rw [h]), (State.updObj_domains _ _ t).trans (by rw [h])⟩

theorem State.bringHome_keepsUnits (id n u : Nat) (s : State) : KeepsUnits s (s.bringHome id n u) := by
  have h := (State.bringHome_work id n u s).rest
  exact ⟨by rw [h], by rw [h]⟩

theorem State.dropRefs_keepsUnits (p : Obj → Ref → Bool) (s : State) : KeepsUnits s (s.dropRefs p) := by
  have hstart : KeepsUnits s (s.lessRefs p) := ⟨rfl, rfl⟩
  refine hstart.trans (KeepsUnits.foldl (fun t o => KeepsUnits.foldl (fun u d => ?_) _ t) _ _)
  refine ((State.moveDown_keepsUnits o.id d.ver d.unit d.tier u).trans
    (State.bringHome_keepsUnits o.id d.ver d.unit _)).trans ?_
  exact ⟨State.updObj_units _ _ _, State.updObj_domains _ _ _⟩

theorem State.emptyDomains_units (s : State) : s.emptyDomains.units = s.units := by
  have hdrop := State.dropRefs_keepsUnits (fun _ r => r.who.isRound)
    { s with domains := s.domains.map fun _ => {}, link := { s.link with redWait := [] } }
  have hempty : ∀ m ∈ (State.dropRefs (fun _ r => r.who.isRound)
      { s with domains := s.domains.map fun _ => {}, link := { s.link with redWait := [] } }).domains, m.state = .empty := by
    rw [hdrop.2]
    intro m hm
    obtain ⟨m', -, rfl⟩ := List.mem_map.mp hm
    rfl
  exact (State.foldl_units (fun t c => State.finish_units _ _ _ _ t) _ _).trans
    ((State.deliverHeld_of_empty hempty).1.trans hdrop.1)

/-! ### The state and closure number of a unit -/

/-- The unit of a kind and number is in a state, with a closure number. -/
def State.UnitHas (s : State) (k : UnitKind) (p : Nat) (st : SvcState) (n : Nat) : Prop :=
  ∃ v, s.unit? k p = some v ∧ v.state = st ∧ v.closure = n

section
variable {s t : State} {k : UnitKind} {p : Nat} {st : SvcState} {n : Nat}

theorem State.UnitHas.of_units (h : s.UnitHas k p st n) (ht : t.units = s.units) : t.UnitHas k p st n := by
  obtain ⟨v, hv, hrest⟩ := h
  exact ⟨v, by rw [State.unit?, ht]; exact hv, hrest⟩

theorem State.unit?_updUnit_same {u : SvcUnit} (h : s.unit? k p = some u) {f : SvcUnit → SvcUnit}
    (hf : ∀ u, (f u).kind = u.kind ∧ (f u).phys = u.phys) : (s.updUnit k p f).unit? k p = some (f u) := by
  have hfind := find?_updWhere_key (fun u : SvcUnit => decide (u.kind = k ∧ u.phys = p)) f (fun u => by rw [(hf u).1, (hf u).2]) s.units
  exact hfind.trans (congrArg (Option.map f) h)

/-- An update that leaves the state and number of every unit keeps them. -/
theorem State.UnitHas.updUnit (h : s.UnitHas k p st n) {k' : UnitKind} {p' : Nat} {f : SvcUnit → SvcUnit}
    (hf : ∀ u, (f u).kind = u.kind ∧ (f u).phys = u.phys ∧ (f u).state = u.state ∧ (f u).closure = u.closure) :
    (s.updUnit k' p' f).UnitHas k p st n := by
  obtain ⟨u, hu, hst, hn⟩ := h
  have hkeep : ∀ u : SvcUnit, (if decide (u.kind = k' ∧ u.phys = p') = true then f u else u).kind = u.kind ∧
      (if decide (u.kind = k' ∧ u.phys = p') = true then f u else u).phys = u.phys ∧
      (if decide (u.kind = k' ∧ u.phys = p') = true then f u else u).state = u.state ∧
      (if decide (u.kind = k' ∧ u.phys = p') = true then f u else u).closure = u.closure := fun u => by
    split
    · exact hf u
    · exact ⟨rfl, rfl, rfl, rfl⟩
  refine ⟨_, ?_, (hkeep u).2.2.1.trans hst, (hkeep u).2.2.2.trans hn⟩
  refine (List.find?_map ..).trans ?_
  have hsame : (fun u : SvcUnit => decide (u.kind = k ∧ u.phys = p)) ∘ (fun u : SvcUnit =>
      if decide (u.kind = k' ∧ u.phys = p') = true then f u else u) = fun u => decide (u.kind = k ∧ u.phys = p) := by
    funext u
    simp only [Function.comp, (hkeep u).1, (hkeep u).2.1]
  rw [hsame]
  exact congrArg (Option.map _) hu

theorem State.UnitHas.vacate (h : s.UnitHas k p st n) (k' : UnitKind) (m : Nat) : (s.vacate k' m).UnitHas k p st n := by
  unfold State.vacate
  split
  · exact h.updUnit fun _ => ⟨rfl, rfl, rfl, rfl⟩
  · split
    · exact h
    · split
      · exact h
      · split <;> exact h.updUnit fun _ => ⟨rfl, rfl, rfl, rfl⟩

theorem State.UnitHas.unitIs (h : s.UnitHas k p st n) : s.unitIs k p st = true := by
  obtain ⟨v, hv, hst, -⟩ := h
  simp [State.unitIs, hv, hst]

theorem State.closeNumber_unitHas {u : SvcUnit} (h : s.unit? k p = some u) : (s.closeNumber k p).UnitHas k p .closed u.closure := by
  have hclosed : (s.updUnit k p fun v => { v with state := .closed, logical := none, takes := none, spare := false }).UnitHas k p
      .closed u.closure := ⟨_, State.unit?_updUnit_same h fun _ => ⟨rfl, rfl⟩, rfl, rfl⟩
  have hvacated : ∀ num : Option Nat, (match num with
      | some n => (s.updUnit k p fun v => { v with state := .closed, logical := none, takes := none, spare := false }).vacate k n
      | none => s.updUnit k p fun v => { v with state := .closed, logical := none, takes := none, spare := false }).UnitHas k p
      .closed u.closure := fun num => by
    cases num with
    | none => exact hclosed
    | some n => exact hclosed.vacate k n
  unfold State.closeNumber
  simp only [h]
  split
  · exact (hvacated _).of_units (State.moveServices_units _ _ _)
  · exact hvacated _

/-- A unit that reaches CLOSED keeps its closure number (R26, R464). -/
theorem State.closed_unitHas {u : SvcUnit} (h : s.unit? k p = some u) : (s.closed k p).UnitHas k p .closed u.closure := by
  have hnumber := (State.closeNumber_unitHas h).of_units (State.noteUnits_units _)
  unfold State.closed
  extract_lets t t'
  have hout : t'.UnitHas k p .closed u.closure := by
    refine hnumber.of_units ?_
    show (if k = .dram then t.deriveBudget else if k = .engine then t.handOps p true else t).units = t.units
    split
    · exact State.deriveBudget_units t
    · split
      · exact State.handOps_units p true t
      · rfl
  split
  · exact hout.of_units (by rw [State.finishUnitCmds_units, State.finishUnitCmds_units])
  · exact hout

theorem State.closeReduction_unitHas {u : SvcUnit} (h : s.unit? .reduction 0 = some u) :
    s.closeReduction.UnitHas .reduction 0 .closed u.closure := by
  have hempty : s.emptyDomains.unit? .reduction 0 = some u := by
    rw [State.unit?, State.emptyDomains_units]
    exact h
  unfold State.closeReduction
  extract_lets stalled n t
  have hclosed : t.UnitHas .reduction 0 .closed u.closure := State.closed_unitHas hempty
  clear_value t stalled
  cases stalled with
  | none => exact hclosed
  | some d => exact hclosed.of_units (State.raise_units _ t)

theorem State.drained_unitHas {u : SvcUnit} (h : s.unit? k p = some u) (hp : k = .reduction → p = 0) :
    (s.drained k p).UnitHas k p .closed u.closure := by
  unfold State.drained
  cases k with
  | reduction =>
    obtain rfl := hp rfl
    exact State.closeReduction_unitHas h
  | port =>
    have hmoved : (s.failover p).unit? .port p = some u := by
      rw [State.unit?, State.failover_units]
      exact h
    exact State.closed_unitHas hmoved
  | _ => exact State.closed_unitHas h

theorem State.startDrain_unitHas {u : SvcUnit} (h : s.unit? k p = some u) :
    (s.startDrain k p).UnitHas k p .draining s.nextClosure := by
  have hdraining : ((s.takeClosure).updUnit k p fun u => { u with state := .draining, closure := s.nextClosure }).UnitHas k p
      .draining s.nextClosure := ⟨_, State.unit?_updUnit_same (s := s.takeClosure) h fun _ => ⟨rfl, rfl⟩, rfl, rfl⟩
  have hnoted := hdraining.of_units (State.noteUnits_units _)
  unfold State.startDrain
  extract_lets n t
  split
  · exact hnoted.of_units (State.deriveBudget_units _)
  · split
    · exact hnoted.of_units (State.handOps_units _ _ _)
    · exact hnoted

theorem State.rejoin_unitHas {u : SvcUnit} (h : s.unit? k p = some u) : (s.rejoin k p).UnitHas k p .inService 0 := by
  unfold State.rejoin
  extract_lets numbered n t
  have hrejoined : (s.updUnit k p fun u =>
      { u with state := .inService, closure := 0, takes := none, logical := if numbered then n else none
               spare := numbered && n.isNone }).UnitHas k p .inService 0 :=
    ⟨_, State.unit?_updUnit_same h fun _ => ⟨rfl, rfl⟩, rfl, rfl⟩
  have hback : t.UnitHas k p .inService 0 := hrejoined.of_units (State.noteUnits_units _)
  clear_value t
  split
  · exact hback.of_units rfl
  · split
    · exact hback.of_units (State.deriveBudget_units t)
    · split
      · exact hback.of_units rfl
      · exact hback

theorem State.returnFailed_unitHas {u : SvcUnit} (h : s.unit? k p = some u) :
    (s.returnFailed k p).UnitHas k p .closed u.closure := by
  have hclosed : (s.updUnit k p fun v => { v with state := .closed }).UnitHas k p .closed u.closure :=
    ⟨_, State.unit?_updUnit_same h fun _ => ⟨rfl, rfl⟩, rfl, rfl⟩
  unfold State.returnFailed
  simp only [h]
  exact hclosed.of_units (by rw [State.raise_units, State.finishUnitCmds_units])

end

/-! ### The clauses of O31 -/

section
variable {s : State} {slot : Nat} {c : Slot} {k : UnitKind} {u : SvcUnit}

theorem State.unit?_of_mem (h : u ∈ s.units) (hk : u.kind = k) : ∃ v, s.unit? k u.phys = some v :=
  Option.isSome_iff_exists.mp (List.find?_isSome.mpr ⟨u, h, by simp [hk]⟩)

theorem State.unit?_of_named {n : Nat} (h : s.namedUnit? k n = some u) : ∃ v, s.unit? k u.phys = some v := by
  unfold State.namedUnit? at h
  split at h
  · have hkey := List.find?_some h
    simp only [decide_eq_true_eq] at hkey
    exact State.unit?_of_mem (List.mem_of_find?_eq_some h) hkey.1
  · have hkey := List.find?_some h
    simp only [decide_eq_true_eq] at hkey
    exact State.unit?_of_mem (List.mem_of_find?_eq_some h) hkey.1

theorem State.unit?_of_closure {n : Nat} (h : s.closureUnit? k n = some u) : ∃ v, s.unit? k u.phys = some v := by
  unfold State.closureUnit? at h
  split at h
  · cases h
  · have hkey := List.find?_some h
    simp only [decide_eq_true_eq] at hkey
    exact State.unit?_of_mem (List.mem_of_find?_eq_some h) hkey.1

theorem exec_unitClose (h : Handed s slot 0x00 false c) (hk : kindOf (c.arg 40 1) = some k) (hu : s.namedUnit? k (c.arg 42 2) = some u) :
    exec (.unitClose slot) s = .next (match u.state with
      | .closed => s.done slot u.closure
      | .draining => s.setWork slot (.unit k.code u.phys)
      | .returning => (s.stopReturn k u.phys).done slot u.closure
      | .inService => if s.leavesMinimum k u.phys then s.hostClose slot k u.phys else s.fail slot .invalidField 42) := by
  refine congrArg Host.Outcome.next ((h.run _).trans ?_)
  simp only [hk, hu] <;> rfl

theorem exec_unitReturn (h : Handed s slot 0x01 false c) (hk : kindOf (c.arg 40 1) = some k)
    (hu : s.closureUnit? k (c.arg 42 2) = some u) : exec (.unitReturn slot) s = .next (match u.state with
      | .closed => (s.setWork slot (.unit k.code u.phys)).startReturn k u.phys
      | .returning => s.done slot 0
      | _ => s.fail slot .invalidField 42) := by
  refine congrArg Host.Outcome.next ((h.run _).trans ?_)
  simp only [hk, hu] <;> rfl

theorem State.startReturn_unitHas {p : Nat} (h : ∃ v, s.unit? k p = some v) : ∃ n, (s.startReturn k p).UnitHas k p .returning n := by
  obtain ⟨v, hv⟩ := h
  refine ⟨v.closure, ?_⟩
  have hback : (s.updUnit k p fun u => { u with state := .returning }).UnitHas k p .returning v.closure :=
    ⟨_, State.unit?_updUnit_same hv fun _ => ⟨rfl, rfl⟩, rfl, rfl⟩
  unfold State.startReturn
  extract_lets t
  split
  · exact hback.of_units (State.updPort_units _ _ _)
  · exact hback

theorem State.startReturn_port {p : Nat} (hp : p < s.link.ports.length) :
    ((s.startReturn .port p).port p).link = .training ∧ ((s.startReturn .port p).port p).returning = true := by
  have hport := State.port_updPort_same (s := s.updUnit .port p fun u => { u with state := .returning })
    (fun q => { q.train s.bt with returning := true }) hp
  exact ⟨congrArg Port.link hport, congrArg Port.returning hport⟩

theorem State.freeClosure_congr {s t : State} (h : t.units = s.units) (fuel n : Nat) :
    t.freeClosure fuel n = s.freeClosure fuel n := by
  have htaken : ∀ n, t.closureTaken n = s.closureTaken n := fun n => by rw [State.closureTaken, h, State.closureTaken]
  induction fuel generalizing n with
  | zero => rfl
  | succ k ih => rw [State.freeClosure, State.freeClosure, htaken, ih]

theorem State.nextClosure_setWork (slot : Nat) (w : Work) (s : State) : (s.setWork slot w).nextClosure = s.nextClosure := by
  rw [State.nextClosure, State.freeClosure_congr (State.setWork_units slot w s), State.setWork_units, State.setWork_err,
    State.nextClosure]

theorem State.leavePackage_unitHas {p n : Nat} {st : SvcState} (h : s.UnitHas k p st n) :
    (if k = .dram then s.leavePackage p else s).UnitHas k p st n := by
  split
  · exact h.of_units (State.leavePackage_units p s)
  · exact h

theorem exec_drainComplete {kind p : Nat} (hk : kindOf kind = some k) (hu : s.unitIs k p .draining = true)
    (hw : s.holdsNoWork k p = true) : exec (.drainComplete kind p) s = .next (s.drained k p) := by
  refine congrArg Host.Outcome.next ?_
  simp only [hk, hu, hw, Bool.and_self, if_true]

theorem exec_returnSelfTestEnd_good {kind p : Nat} (hk : kindOf kind = some k) (hu : s.unit? k p = some u) (hst : u.state = .returning)
    (hup : k ≠ .port ∨ (s.port p).link = .up) :
    ∃ t, exec (.returnSelfTestEnd kind p true) s = .next t ∧ t.UnitHas k p .inService 0 := by
  have hin : s.unitIs k p .returning = true := by simp [State.unitIs, hu, hst]
  have hstart : (if k = .dram then s.repairRows p else s).unit? k p = some u := by
    split
    · rw [State.unit?, State.repairRows_units]
      exact hu
    · exact hu
  refine ⟨_, congrArg Host.Outcome.next (?_ : _ = (if k = .port then ((((if k = .dram then s.repairRows p else s).rejoin k p
    ).finishUnitCmds k p 0x01 .ok 0).updPort p fun q => { q with returning := false }).portReady p
    else ((if k = .dram then s.repairRows p else s).rejoin k p).finishUnitCmds k p 0x01 .ok 0)), ?_⟩
  · simp only [hk, hin, Bool.not_true, Bool.false_eq_true, if_false]
    refine (if_neg ?_).trans (if_pos trivial)
    rcases hup with h | h <;> simp [h]
  · have hback := (State.rejoin_unitHas hstart).of_units (State.finishUnitCmds_units k p 0x01 .ok 0 _)
    split
    · exact hback.of_units (by rw [State.portReady_units, State.updPort_units])
    · exact hback

theorem exec_returnSelfTestEnd_bad {kind p : Nat} (hk : kindOf kind = some k) (hu : s.unit? k p = some u) (hst : u.state = .returning) :
    ∃ t, exec (.returnSelfTestEnd kind p false) s = .next t ∧ t.UnitHas k p .closed u.closure := by
  have hin : s.unitIs k p .returning = true := by simp [State.unitIs, hu, hst]
  refine ⟨_, congrArg Host.Outcome.next (?_ : _ = (if k = .port then (s.returnFailed k p).updPort p fun q =>
    { q.drop with returning := false } else s.returnFailed k p)), ?_⟩
  · simp only [hk, hin, Bool.not_true, Bool.false_eq_true, if_false, Bool.and_false, Bool.false_and]
  · split
    · exact (State.returnFailed_unitHas hu).of_units (State.updPort_units _ _ _)
    · exact State.returnFailed_unitHas hu

end

/-- Settles O31: the command acts by the state of the unit that it names, and every function on the way keeps the table of units but for
the entries that close or return. -/
theorem unitsCloseAndReturn : Obligations.UnitsCloseAndReturn := by
  refine ⟨fun s slot c k u h hk hu => ?_, fun s slot c k u h hk hu => ?_, fun s kind p k u hk hu hst hp hw => ?_,
    fun s kind p k u hk hu hst => ⟨fun hup => ?_, ?_⟩⟩
  · have hexec := exec_unitClose h hk hu
    refine ⟨fun hst => ?_, fun hst => ?_, fun hst => ?_, fun hst hleft => ?_, fun hst hleft => ⟨?_, ?_⟩⟩
    · rw [hexec, hst]
      rfl
    · rw [hexec, hst]
      rfl
    · rw [hexec, hst]
      rfl
    · rw [hexec, hst]
      exact congrArg Host.Outcome.next (if_neg (Bool.eq_false_iff.mp hleft))
    · obtain ⟨v, hv⟩ := State.unit?_of_named hu
      have hset : (s.setWork slot (.unit k.code u.phys)).unit? k u.phys = some v := by
        rw [State.unit?, State.setWork_units]
        exact hv
      rw [← State.nextClosure_setWork slot (.unit k.code u.phys) s]
      exact State.leavePackage_unitHas (State.startDrain_unitHas hset)
    · rw [hexec, hst]
      exact congrArg Host.Outcome.next (if_pos hleft)
  · have hexec := exec_unitReturn h hk hu
    refine ⟨fun hst => ⟨_, ?_, rfl, ?_, fun hport hlen => ?_⟩, fun hst => ?_, fun hst => ?_⟩
    · rw [hexec, hst]
    · obtain ⟨v, hv⟩ := State.unit?_of_closure hu
      obtain ⟨n, v, hv, hvs, -⟩ := State.startReturn_unitHas (s := s.setWork slot (.unit k.code u.phys)) (k := k) (p := u.phys)
        ⟨v, by rw [State.unit?, State.setWork_units]; exact hv⟩
      exact ⟨v, hv, hvs⟩
    · subst hport
      exact State.startReturn_port (by rw [State.setWork_link]; exact hlen)
    · rw [hexec, hst]
      rfl
    · rw [hexec, hst]
      rfl
  · obtain ⟨v, hv, hvs, -⟩ := State.drained_unitHas hu hp
    exact ⟨_, v, exec_drainComplete hk (by simp [State.unitIs, hu, hst]) hw, rfl, hv, hvs⟩
  · obtain ⟨t, ht, v, hv, hrest⟩ := exec_returnSelfTestEnd_good hk hu hst hup
    exact ⟨t, v, ht, hv, hrest⟩
  · obtain ⟨t, ht, v, hv, hrest⟩ := exec_returnSelfTestEnd_bad hk hu hst
    exact ⟨t, v, ht, hv, hrest⟩

end Sys2Proof.Machine
end

section
/-! PROOF. Security commands (R514, R515): why the statement about them fails where an activation's restart follows in the same step. -/
namespace Sys2Proof.Machine

namespace ActivationRestarts

/-- An SLC unit of the first die of stripe group `g`, with one page left. -/
def unit (g : Nat) : EraseUnit :=
  { die := { channel := 16 * g, die := 0 }, unit := 70, slc := true, role := .checkpoint, state := .opened, n := 575 }

/-- The checkpoint stream's open set of a stripe group: its one unit has a page under assembly, which will take the page that is left. -/
def openSet (g : Nat) : OpenSet :=
  { gen := g + 1, group := g, stream := 5, slc := true, units := [(State.reset.grade.dieIndex (unit g).die, 70)]
    part := some { die := State.reset.grade.dieIndex (unit g).die, unit := 70 } }

/-- In service a container is being written, with RESTART, for a command that no slot holds any more; no ring stands, and flash
has no page for a checkpoint. -/
def state : State :=
  { State.reset with
    power := { State.reset.power with state := .active, phase := .service }
    atr := { State.reset.atr with cqs := [] }
    flash := { State.reset.flash with units := (List.range 4).map unit }
    ftl := { State.reset.ftl with opens := (List.range 4).map openSet }
    sec := { State.reset.sec with writing := some (1, [], 0, true) } }

/-- With the final checkpoint the drive restarts, and nothing is pending (R515). -/
theorem secState_exec : (match exec (.fwWriteEnd true) state with | .next t => some t.sec.state | _ => none) = some .normal := by
  decide

end ActivationRestarts

open ActivationRestarts in
/-- Refutes O33: where the drive has nothing else to do, the clean shutdown that an activation's RESTART asks for ends in the same step,
and the drive that starts afresh is NORMAL, not PENDING. -/
theorem not_securityCommandsTakeEffect : ¬ Obligations.SecurityCommandsTakeEffect := by
  unfold Obligations.SecurityCommandsTakeEffect
  rintro ⟨-, -, hend, -⟩
  obtain ⟨⟨t, hexec, hpending, -⟩, -⟩ := hend state 1 0 [] true rfl (by decide)
  have hnormal := secState_exec
  rw [hexec] at hnormal
  exact absurd (hpending.symm.trans (Option.some.inj hnormal)) (by decide)

end Sys2Proof.Machine
end

section
/-! PROOF. O36: program images are loaded and jobs run them (R150, R153, R154, R162, R163, R545). -/
namespace Sys2Proof.Machine

/-! ### A version under the ID that names an object -/

/-- The live object of an ID has a version of a number, and it is as `P` says. -/
def State.HasVersion (s : State) (id n : Nat) (P : Version → Prop) : Prop :=
  ∃ o v, s.obj? id = some o ∧ o.ver? n = some v ∧ P v

section
variable {s t : State} {id n : Nat} {P Q : Version → Prop}

theorem State.HasVersion.imp (h : s.HasVersion id n P) (hPQ : ∀ v, P v → Q v) : s.HasVersion id n Q := by
  obtain ⟨o, v, ho, hv, hp⟩ := h
  exact ⟨o, v, ho, hv, hPQ v hp⟩

theorem State.HasVersion.of_objects (h : s.HasVersion id n P) (ht : t.tiers.objects = s.tiers.objects) : t.HasVersion id n P := by
  obtain ⟨o, v, ho, hv, hp⟩ := h
  exact ⟨o, v, by rw [State.obj?, ht]; exact ho, hv, hp⟩

theorem State.HasVersion.updObj (h : s.HasVersion id n P) {f : Obj → Obj} (hid : ∀ o, (f o).id = o.id) (hgone : ∀ o, (f o).gone = o.gone)
    (hf : ∀ o v, o.ver? n = some v → P v → ∃ w, (f o).ver? n = some w ∧ Q w) : (s.updObj id f).HasVersion id n Q := by
  obtain ⟨o, v, ho, hv, hp⟩ := h
  obtain ⟨w, hw, hq⟩ := hf o v hv hp
  exact ⟨f o, w, State.obj?_updObj_same ho hid hgone, hw, hq⟩

theorem State.HasVersion.updVer (h : s.HasVersion id n P) {f : Version → Version} (hnum : ∀ v, (f v).num = v.num)
    (hf : ∀ v, P v → Q (f v)) : (s.updVer id n f).HasVersion id n Q := by
  refine State.HasVersion.updObj h (f := fun o => o.updVer n f) (fun _ => rfl) (fun _ => rfl) fun o v hv hp => ⟨f v, ?_, hf v hp⟩
  exact (find?_updWhere_key _ f (fun v => by rw [hnum]) o.versions).trans (congrArg (Option.map f) hv)

theorem Objects.obj?_keeps (h : Objects Obj.Keeps s t) {o : Obj} (ho : s.obj? id = some o) : ∃ p, t.obj? id = some p ∧ o.Keeps p := by
  have hrel := find?_congr_rel (q := fun o : Obj => decide (o.id = id ∧ (!o.gone) = true))
    (fun o p hk => by rw [hk.id_eq, hk.gone_eq]) h
  unfold State.obj? at ho
  rw [ho] at hrel
  exact rel_some hrel

theorem State.HasVersion.touched (h : s.HasVersion id n P) (ht : TouchWork s t) (hP : ∀ v w : Version, v.Keeps w → P v → P w) :
    t.HasVersion id n P := by
  obtain ⟨o, v, ho, hv, hp⟩ := h
  obtain ⟨p, hobj, hkeep⟩ := ht.objects.obj?_keeps ho
  have hrel := hkeep.ver? n
  rw [hv] at hrel
  obtain ⟨w, hw, hvw⟩ := rel_some hrel
  exact ⟨p, w, hobj, hw, hP v w hvw hp⟩

/-- A live object outlives its settling, with its versions that are not RETIRED. -/
theorem State.HasVersion.settleObj (h : s.HasVersion id n P) (hP : ∀ v, P v → v.retired = false) : (s.settleObj id).HasVersion id n P := by
  obtain ⟨o, v, ho, hv, hp⟩ := h
  have hobj : (s.updObj id Obj.settle).obj? id = some o.settle := State.obj?_updObj_same ho (fun _ => rfl) fun _ => rfl
  have hver : o.settle.ver? n = some v := find?_filter_of_pos (p := fun v : Version => !v.retired) hv (by simp [hP v hp])
  have hlive : o.gone = false := by
    have := List.find?_some ho
    simp only [decide_eq_true_eq, Bool.not_eq_true'] at this
    exact this.2
  refine ⟨o.settle, v, ?_, hver, hp⟩
  rw [State.obj?, State.settleObj_objects]
  exact find?_filter_of_pos hobj (by simp [Obj.settle, hlive])

theorem Obj.committed_gone (n : Nat) (o : Obj) : (o.committed n).gone = o.gone := by
  unfold Obj.committed
  split <;> rfl

/-- What a commit leaves of a version that is CURRENT or BUILDING is CURRENT (R196, R197). -/
theorem State.HasVersion.commit (h : s.HasVersion id n fun v => (v.state = .building ∨ v.state = .current) ∧ P v)
    (hP : ∀ v, P v → P { v with state := .current, written := [] }) :
    (s.commit id n).HasVersion id n fun v => v.state = .current ∧ P v := by
  refine State.HasVersion.settleObj (s := s.updObj id (Obj.committed n)) ?_ fun v hv => by simp [Version.retired, hv.1]
  refine h.updObj (Obj.committed_id n) (Obj.committed_gone n) fun o v hv hp => ?_
  obtain ⟨hst, hp⟩ := hp
  by_cases hany : (o.versions.any fun v => v.num = n && v.state = .building) = true
  · exact ⟨_, Obj.ver?_committed hv hany, rfl, hP v hp⟩
  · refine ⟨v, ?_, hst.resolve_left fun hb => hany ?_, hp⟩
    · rw [Obj.committed, if_neg hany]
      exact hv
    · have hnum := List.find?_some hv
      exact List.any_eq_true.mpr ⟨v, List.mem_of_find?_eq_some hv, by simpa [hb] using hnum⟩

/-- Making a page dirty changes the dirty pages of its version alone. -/
theorem State.dirtyPage_cases (id n p : Nat) (s : State) : s.dirtyPage id n p = s ∨
    ∃ at_, s.dirtyPage id n p = s.updVer id n fun v => { v with dirty := putDirty s.bt p at_ v.dirty } := by
  cases h : s.version? id n with
  | some v => exact .inr (State.dirtyPage_of_version h p)
  | none =>
    left
    unfold State.version? at h
    unfold State.dirtyPage
    split at h
    · next o ho =>
      rw [ho]
      dsimp only
      rw [h]
    · next ho => rw [ho]

theorem State.HasVersion.dirtyPage (h : s.HasVersion id n P) (hP : ∀ v ds, P v → P { v with dirty := ds }) (p : Nat) :
    (s.dirtyPage id n p).HasVersion id n P := by
  rcases State.dirtyPage_cases id n p s with he | ⟨at_, he⟩ <;> rw [he]
  · exact h
  · exact h.updVer (fun _ => rfl) fun v hp => hP v _ hp

theorem State.HasVersion.dirtyPages (h : s.HasVersion id n P) (hP : ∀ v ds, P v → P { v with dirty := ds }) (ps : List Nat) :
    (ps.foldl (fun t p => t.dirtyPage id n p) s).HasVersion id n P :=
  List.foldlRecOn (motive := fun t => State.HasVersion t id n P) ps _ h fun _ ht p _ => ht.dirtyPage hP p

/-- A write to the version of a live object leaves its bytes there. -/
theorem State.HasVersion.writeVersion (h : s.HasVersion id n P) {off : Nat} {bs : Bytes} (hw : ∀ v, P v → Q (v.written_ off bs))
    (hQ : ∀ v ds, Q v → Q { v with dirty := ds }) : (s.writeVersion id n off bs).HasVersion id n Q := by
  have hput := h.updVer (f := fun v => v.written_ off bs) (fun _ => rfl) hw
  have htouch := (hput.dirtyPages hQ (pagesOf off bs.length)).touched (State.touch_touchWork id n off bs.length _) fun v w hk hq => by
    rw [hk.rest]
    exact hQ v _ hq
  exact htouch.of_objects (t := s.writeVersion id n off bs) rfl

end

/-! ### What is kept of the other objects -/

/-- The versions of the other objects hold what they held. -/
def OthersKept (id : Nat) (s t : State) : Prop :=
  ∀ i m, i ≠ id → (t.version? i m).map (fun y => (y.data, y.state)) = (s.version? i m).map fun y => (y.data, y.state)

section
variable {s t u : State} {id n : Nat}

theorem OthersKept.trans (h : OthersKept id s t) (k : OthersKept id t u) : OthersKept id s u :=
  fun i m hi => (k i m hi).trans (h i m hi)

theorem OthersKept.of_objects (h : t.tiers.objects = s.tiers.objects) : OthersKept id s t := fun i m _ => by
  rw [State.version?_of_objects h]

theorem OthersKept.touched (h : TouchWork s t) : OthersKept id s t :=
  fun i m _ => h.version?_map (g := fun y => (y.data, y.state)) (fun a b hk => by rw [hk.rest]) i m

theorem State.find?_updObj_ne {i : Nat} (h : i ≠ id) {f : Obj → Obj} (hid : ∀ o, (f o).id = o.id) (s : State) :
    (s.updObj id f).tiers.objects.find? (·.id = i) = s.tiers.objects.find? (·.id = i) := by
  refine find?_updWhere_ne (fun o : Obj => decide (o.id = id)) (fun o => decide (o.id = i)) f (fun o ho => ?_) (fun o ho => ?_) _
  · simp only [decide_eq_true_eq] at ho
    simp only [ho, decide_eq_false_iff_not]
    exact fun h' => h h'.symm
  · simp only [decide_eq_true_eq] at ho
    simp only [hid, ho, decide_eq_false_iff_not]
    exact fun h' => h h'.symm

theorem OthersKept.updObj {f : Obj → Obj} (hid : ∀ o, (f o).id = o.id) (s : State) : OthersKept id s (s.updObj id f) := fun i m hi => by
  rw [State.version?, State.find?_updObj_ne hi hid, State.version?]

theorem OthersKept.updVer (f : Version → Version) (s : State) : OthersKept id s (s.updVer id n f) :=
  OthersKept.updObj (f := fun o => o.updVer n f) (fun _ => rfl) s

theorem OthersKept.dirtyPage (p : Nat) (s : State) : OthersKept id s (s.dirtyPage id n p) := by
  rcases State.dirtyPage_cases id n p s with he | ⟨at_, he⟩ <;> rw [he]
  · exact fun _ _ _ => rfl
  · exact .updVer _ s

theorem OthersKept.writeVersion (off : Nat) (bs : Bytes) (s : State) : OthersKept id s (s.writeVersion id n off bs) := by
  have hdirty : OthersKept id (s.updVer id n fun v => v.written_ off bs)
      ((pagesOf off bs.length).foldl (fun t p => t.dirtyPage id n p) (s.updVer id n fun v => v.written_ off bs)) :=
    List.foldlRecOn (motive := fun t => OthersKept id (s.updVer id n fun v => v.written_ off bs) t) _ _ (fun _ _ _ => rfl)
      fun _ ht p _ => ht.trans (.dirtyPage p _)
  refine ((OthersKept.updVer _ s).trans hdirty).trans ((OthersKept.touched (State.touch_touchWork id n off bs.length _)).trans ?_)
  exact OthersKept.of_objects (t := s.writeVersion id n off bs) rfl

theorem OthersKept.settleObj (s : State) : OthersKept id s (s.settleObj id) := by
  refine (OthersKept.updObj (f := Obj.settle) (fun _ => rfl) s).trans fun i m hi => ?_
  unfold State.version?
  rw [State.settleObj_objects]
  cases ho : (s.updObj id Obj.settle).tiers.objects.find? (·.id = i) with
  | some o =>
    have hoid : o.id = i := by simpa using List.find?_some ho
    rw [find?_filter_of_pos ho (by simp [hoid, hi])]
  | none =>
    rw [List.find?_eq_none.mpr fun o hm => List.find?_eq_none.mp ho o (List.mem_filter.mp hm).1]

theorem OthersKept.commit (s : State) : OthersKept id s (s.commit id n) :=
  (OthersKept.updObj (Obj.committed_id n) s).trans (.settleObj _)

end

/-! ### PROGRAM_LOAD (R150, R153, R545) -/

theorem State.HasVersion.newVersion {s : State} {id n : Nat} {o : Obj} (h : s.obj? id = some o) (hn : o.ver? n = none) :
    (s.newVersion id n).HasVersion id n fun v => v.state = .building := by
  rw [State.newVersion_of_obj h]
  have hobj : ((s.takeLuns (homeBytes o.kind o.size)).2.updObj id fun p =>
      { p with versions := p.versions ++ [o.nextVersion n (s.grade.units + s.tiers.nextLun)] }).obj? id =
      some { o with versions := o.versions ++ [o.nextVersion n (s.grade.units + s.tiers.nextLun)] } :=
    State.obj?_updObj_same (s := (s.takeLuns (homeBytes o.kind o.size)).2) h (fun _ => rfl) fun _ => rfl
  refine ⟨_, o.nextVersion n (s.grade.units + s.tiers.nextLun), hobj, ?_, ?_⟩
  · have hnone : o.versions.find? (fun v => decide (v.num = n)) = none := hn
    show (o.versions ++ [_]).find? _ = _
    rw [List.find?_append, hnone]
    simp [Obj.nextVersion_num]
  · unfold Obj.nextVersion
    split <;> rfl

theorem State.HasVersion.createObj {s : State} {id : Nat} (h : s.idHeld id = false) (kind tier size n : Nat) (durable : Bool) :
    (s.createObj id kind tier size n durable true).HasVersion id n fun v => v.state = .building := by
  refine ⟨_, s.createdVersion size n true, State.obj?_createObj_same h kind tier size n durable true, ?_, rfl⟩
  simp [State.createdObj, Obj.ver?, State.createdVersion]

theorem OthersKept.newVersion (id n : Nat) (s : State) : OthersKept id s (s.newVersion id n) := fun i m hi => by
  rw [State.version?_newVersion_ne id n s (.inl hi)]

theorem OthersKept.createObj (id kind tier size n : Nat) (durable building : Bool) (s : State) :
    OthersKept id s (s.createObj id kind tier size n durable building) := fun i m hi => by
  unfold State.version?
  rw [State.createObj_objects, List.find?_append]
  simp [State.createdObj, Ne.symm hi]

/-- A version of an image holds it: the size that R545 gives it, its bytes, and what they say. -/
def Version.holdsImage (b : Bytes) (v : Version) : Prop :=
  v.size = imageSize b.length ∧ v.data = memWrite [] 0 (fitBytes (imageSize b.length) b) ∧ v.image = some (parseImage b)

theorem State.HasVersion.putImage {s : State} {id n : Nat} (h : s.HasVersion id n fun v => v.state = .building) (b : Bytes) :
    (s.putImage id n b).HasVersion id n fun v => v.state = .current ∧ v.holdsImage b := by
  have hblank := h.updVer (Q := fun v => v.state = .building ∧ v.size = imageSize b.length ∧ v.data = [] ∧ v.image = some (parseImage b))
    (f := fun v => { v with size := imageSize b.length, data := [], lost := [], image := some (parseImage b) }) (fun _ => rfl)
    fun v hv => ⟨hv, rfl, rfl, rfl⟩
  have hwritten := hblank.writeVersion (Q := fun v => (v.state = .building ∨ v.state = .current) ∧ v.holdsImage b) (off := 0)
    (bs := fitBytes (imageSize b.length) b)
    (fun v ⟨hst, hsize, hdata, himg⟩ => ⟨.inl hst, hsize, congrArg (memWrite · 0 _) hdata, himg⟩) fun v _ hv => hv
  have hsized := hwritten.updObj (f := fun o => { o with size := imageSize b.length }) (fun _ => rfl) (fun _ => rfl)
    fun o v hv hp => ⟨v, hv, hp⟩
  exact (hsized.commit fun v hv => hv).of_objects rfl

theorem OthersKept.putImage (id n : Nat) (b : Bytes) (s : State) : OthersKept id s (s.putImage id n b) := by
  unfold State.putImage
  extract_lets size g blank written current
  have hwritten : OthersKept id s written := (OthersKept.updVer _ s).trans (.writeVersion 0 _ blank)
  have hsized : OthersKept id written (written.updObj id fun o => { o with size := size }) :=
    .updObj (f := fun o => { o with size := size }) (fun _ => rfl) written
  have hcurrent : OthersKept id s current := (hwritten.trans hsized).trans (.commit _)
  clear_value current
  exact hcurrent.trans (.of_objects rfl)

/-- The version of an image, as its object is made or gets it. -/
def State.imageVersion (id n size : Nat) (s : State) : State :=
  match s.obj? id with
  | some _ => s.newVersion id n
  | none => s.createObj id 2 (if s.tiers.flagsView then 3 else 0) size n true true

/-- Where the checks pass, the version is made, in a state that has the same objects. -/
theorem State.imageVersion_has {s t : State} {id n size : Nat} (h : s.programError id n size = none) (ht : t.tiers.objects = s.tiers.objects) :
    (t.imageVersion id n size).HasVersion id n (fun v => v.state = .building) ∧ OthersKept id t (t.imageVersion id n size) := by
  have hobj : t.obj? id = s.obj? id := congrArg (List.find? _) ht
  have hheld : t.idHeld id = s.idHeld id := congrArg (List.any · _) ht
  unfold State.programError at h
  unfold State.imageVersion
  rw [hobj]
  split at h
  · cases h
  · cases ho : s.obj? id with
    | some o =>
      rw [ho] at h hobj
      simp only [Option.map_eq_none_iff] at h
      have hnew := List.find?_eq_none.mp h _ (List.mem_cons_self ..)
      simp only [Bool.or_eq_true, decide_eq_true_eq, not_or, Bool.not_eq_true, Option.isSome_eq_false_iff, Option.isNone_iff_eq_none] at hnew
      exact ⟨.newVersion hobj hnew.2, .newVersion id n t⟩
    | none =>
      rw [ho] at h
      dsimp only at h
      split at h
      · cases h
      · next hfree =>
        rw [← hheld, Bool.not_eq_true] at hfree
        exact ⟨.createObj hfree _ _ _ _ _, .createObj _ _ _ _ _ _ _ t⟩

theorem State.HasVersion.holdVersion {s : State} {id n : Nat} (h : s.HasVersion id n fun v => v.state = .building) (slot : Nat) :
    (s.holdVersion slot id n).HasVersion id n fun v => v.state = .building :=
  (h.updVer (f := fun v => { v with pins := v.pins + 1 }) (fun _ => rfl) fun _ hv => hv).of_objects (t := s.holdVersion slot id n) rfl

theorem OthersKept.holdVersion (slot id n : Nat) (s : State) : OthersKept id s (s.holdVersion slot id n) :=
  (OthersKept.updVer (fun v => { v with pins := v.pins + 1 }) s).trans (.of_objects (t := s.holdVersion slot id n) rfl)

/-- The image's bytes are accounted for where its object is durable. -/
def State.chargeImage (id size : Nat) (s : State) : State :=
  if (match s.obj? id with | some o => o.durable | none => true) = true then s.takeCredit size else s

theorem State.chargeImage_objects (id size : Nat) (s : State) : (s.chargeImage id size).tiers.objects = s.tiers.objects := by
  unfold State.chargeImage
  by_cases h : (match s.obj? id with | some o => o.durable | none => true) = true
  · rw [if_pos h]
    rfl
  · rw [if_neg h]

/-- An image that passes its checks is stored, its version held by its command. -/
def State.imageStored (c : Slot) (b : Bytes) (s : State) : State :=
  (((s.chargeImage (c.arg 40 4) (imageSize b.length)).imageVersion (c.arg 40 4) (c.arg 44 2) (imageSize b.length)).holdVersion c.id
    (c.arg 40 4) (c.arg 44 2)).putImage (c.arg 40 4) (c.arg 44 2) b

/-- What storing an image makes: its version CURRENT and holding it, the other objects' versions as they were. -/
theorem State.imageStored_has {s : State} {c : Slot} {b : Bytes}
    (h : s.programError (c.arg 40 4) (c.arg 44 2) (imageSize b.length) = none) :
    (s.imageStored c b).HasVersion (c.arg 40 4) (c.arg 44 2) (fun v => v.state = .current ∧ v.holdsImage b) ∧
    OthersKept (c.arg 40 4) s (s.imageStored c b) := by
  have hcharge := s.chargeImage_objects (c.arg 40 4) (imageSize b.length)
  obtain ⟨hmade, hkept⟩ := State.imageVersion_has h hcharge
  exact ⟨(hmade.holdVersion c.id).putImage b,
    (((OthersKept.of_objects hcharge).trans hkept).trans (.holdVersion c.id _ _ _)).trans (.putImage _ _ b _)⟩

section
variable {s : State} {slot : Nat} {c : Slot} (k : Handed s slot 0x30 true c)
include k

theorem exec_programLoad_of_fault {check off : Nat} (h : imageFault (s.dataBytes c) = some (check, off)) : exec (.programLoad slot) s =
    .next ((s.writeResult c 0 (loadReport check off 0 [])).finish slot (if check = 2 then .invalidLength else .invalidField)
      (if check = 2 then 24 else 16) 0) := by
  refine congrArg Host.Outcome.next ((k.run _).trans ?_)
  simp only [State.doProgramLoad, h, k.id_eq]
  split <;> rfl

theorem exec_programLoad_of_checked (h : imageFault (s.dataBytes c) = none) :
    exec (.programLoad slot) s = .next (s.storeImage c (s.dataBytes c)) := by
  refine congrArg Host.Outcome.next ((k.run _).trans ?_)
  simp only [State.doProgramLoad, h]

theorem storeImage_of_error {st : Status} {r : Nat} (b : Bytes)
    (h : s.programError (c.arg 40 4) (c.arg 44 2) (imageSize b.length) = some (st, r)) :
    s.storeImage c b = s.finish slot st r 0 := by
  simp only [State.storeImage, h, k.id_eq]
  rfl

theorem storeImage_of_held (b : Bytes) (h : s.programError (c.arg 40 4) (c.arg 44 2) (imageSize b.length) = none)
    (hd : s.obj? (c.arg 40 4) = none ∨ ∃ o, s.obj? (c.arg 40 4) = some o ∧ o.durable = true)
    (ha : s.admitsDirty (imageSize b.length) = false) : s.storeImage c b = s.updSlot slot fun d =>
      { d with phase := .running, work := .held (imageSize b.length) } := by
  simp only [State.storeImage, h, k.id_eq]
  rcases hd with hd | ⟨o, hd, hdur⟩
  · simp only [hd]
    exact if_pos (by simp [ha])
  · simp only [hd]
    exact if_pos (by simp [ha, hdur])

/-- An image whose checks and room are met is stored and reported, and its pages are acknowledged as those of a write. -/
theorem storeImage_of_room (b : Bytes) {o : Obj} (h : s.programError (c.arg 40 4) (c.arg 44 2) (imageSize b.length) = none)
    (hroom : ∀ o, s.obj? (c.arg 40 4) = some o → o.durable = true → s.admitsDirty (imageSize b.length) = true)
    (hnew : s.obj? (c.arg 40 4) = none → s.admitsDirty (imageSize b.length) = true)
    (ho : (s.imageStored c b).obj? (c.arg 40 4) = some o) : s.storeImage c b =
      ((s.imageStored c b).writeResult c 0 (loadReport 0 0 (saveBytesOf b) (digest64 b))).ackWrite slot o false
        (pageList (c.arg 40 4) (c.arg 44 2) 0 (imageSize b.length)) 0 := by
  have hobj : ((s.imageStored c b).writeResult c 0 (loadReport 0 0 (saveBytesOf b) (digest64 b))).obj? (c.arg 40 4) = some o := by
    rw [State.obj?, State.writeResult_tiers]
    exact ho
  simp only [State.storeImage, h]
  cases hs : s.obj? (c.arg 40 4) with
  | none =>
    have hcharge : (s.takeCredit (imageSize b.length)).obj? (c.arg 40 4) = none := hs
    have hflags : (s.takeCredit (imageSize b.length)).tiers.flagsView = s.tiers.flagsView := rfl
    simp only [State.imageStored, State.chargeImage, State.imageVersion, hs, if_true, hcharge, hflags, k.id_eq] at hobj ⊢
    rw [if_neg (by simp [hnew hs])]
    simp only [hobj]
  | some p =>
    have hcharge : (s.chargeImage (c.arg 40 4) (imageSize b.length)).obj? (c.arg 40 4) = some p := by
      rw [State.obj?, State.chargeImage_objects]
      exact hs
    have hadmit : (p.durable && !s.admitsDirty (imageSize b.length)) = false := by
      cases hd : p.durable
      · rfl
      · simp [hroom p hs hd]
    simp only [State.imageStored, State.imageVersion, hcharge, k.id_eq] at hobj ⊢
    simp only [State.chargeImage, hs] at hobj ⊢
    rw [if_neg (by simp [hadmit])]
    simp only [hobj]

end

/-- The pages of an image are as many as its size has. -/
theorem length_pageList_imageSize (id n k : Nat) : 4096 * (pageList id n 0 (imageSize k)).length = imageSize k := by
  have hsize : imageSize k = 4096 * (imageSize k / 4096) := by
    unfold imageSize
    rw [Nat.mul_div_cancel _ (by decide), Nat.mul_comm]
  rw [pageList, List.length_map, pagesOf]
  split
  · next h => rw [h, List.length_nil]
  · rw [List.length_map, List.length_range]
    omega

/-! ### The load report (R153) -/

theorem length_loadReport (check off save : Nat) (m : Bytes) : (loadReport check off save m).length = 64 := by
  have hdigest : (fitBytes 32 m).length = 32 := by
    simp [fitBytes, zeroBytes]
    omega
  simp [loadReport, hdigest, zeroBytes]

theorem loadReport_fields (check off save : Nat) (m : Bytes) :
    field (loadReport check off save m) 0 4 = check % 2 ^ 32 ∧ field (loadReport check off save m) 4 4 = off % 2 ^ 32 ∧
    field (loadReport check off save m) 8 4 = save % 2 ^ 32 := by
  unfold loadReport
  simp only [List.append_assoc]
  refine ⟨field_leBytes_append _ _ _, ?_, ?_⟩
  · rw [field_append_of_le _ _ (Nat.le_of_eq (length_leBytes _ _)), length_leBytes]
    exact field_leBytes_append _ _ _
  · rw [field_append_of_le _ _ (by rw [length_leBytes]; decide), length_leBytes,
      field_append_of_le _ _ (Nat.le_of_eq (length_leBytes _ _)), length_leBytes]
    exact field_leBytes_append _ _ _

/-! ### The job of a JOB_RUN waits from its admission (R162, R163) -/

theorem State.foldl_sched {α : Type} {f : State → α → State} (hf : ∀ t a, (f t a).sched = t.sched) (l : List α) (s : State) :
    (l.foldl f s).sched = s.sched :=
  List.foldlRecOn (motive := fun t => t.sched = s.sched) l f rfl fun t ht a _ => (hf t a).trans ht

theorem State.issueRead_sched (id p : Nat) (g : Seg) (s : State) : (s.issueRead id p g).sched = s.sched := by
  unfold State.issueRead
  split
  · rfl
  · split
    · rfl
    · rw [State.send_sched, State.updSlot_sched]

theorem State.pumpSlot_sched (id fuel : Nat) (s : State) : (s.pumpSlot id fuel).sched = s.sched := by
  induction fuel generalizing s with
  | zero => rfl
  | succ k ih =>
    unfold State.pumpSlot
    split
    · rfl
    · split
      · split
        · rfl
        · rw [ih, State.issueRead_sched, State.updSlot_sched]
      · rfl

theorem State.takeLocks_sched (s : State) : s.takeLocks.sched = s.sched := by
  refine State.foldl_sched (fun t c => ?_) _ s
  split <;> rfl

theorem State.handOver_sched (id : Nat) (s : State) : (s.handOver id).sched = s.sched := by
  unfold State.handOver
  split
  · rfl
  · split
    · exact State.fail_sched _ _ _ s
    · split
      · exact State.fail_sched _ _ _ s
      · refine (State.foldl_sched (fun _ _ => State.pumpSlot_sched _ _ _) _ _).trans ?_
        rw [State.takeLocks_sched, State.updSlot_sched]

/-- The jobs and the clock are as they were. -/
def JobsKept (s t : State) : Prop := t.sched = s.sched ∧ t.bt = s.bt

theorem State.pinAll_jobsKept (ps : List (Nat × Nat)) (s : State) : JobsKept s (s.pinAll ps) :=
  List.foldlRecOn (motive := fun t => JobsKept s t) ps _ ⟨rfl, rfl⟩ fun _ ht _ _ => ht

theorem State.takeRound_jobsKept (e : Bytes) (s : State) : JobsKept s (s.takeRound e) := by
  unfold State.takeRound
  split <;> exact ⟨rfl, rfl⟩

theorem State.wake_jobsKept (op : Nat) (s : State) : JobsKept s (s.wake op) := by
  unfold State.wake
  split <;> exact ⟨rfl, rfl⟩

/-- A job that is admitted is among the jobs, but for the moment since when it has had too few clusters. -/
theorem State.newJob_mem (c : Slot) (kind : JobKind) (need : Nat) (f : Job → Job) (s : State) :
    (s.newJob c kind need f).1.noteShort s.bt (clustersLeft s.units) ∈ (s.newJob c kind need f).2.sched.jobs :=
  List.mem_map_of_mem (List.mem_append_right _ (List.mem_singleton.mpr rfl))

/-- The job of an admitted JOB_RUN. -/
theorem State.admitRun_has {s : State} {c : Slot} (h : c.opcode = 0x31) : ∃ j ∈ (s.admitRun c).sched.jobs,
    j.id = s.sched.nextJob ∧ j.slot = c.id ∧ j.kind = .run ∧ j.client = c.client ∧ j.order = c.order ∧ j.need = c.arg 46 2 ∧
    j.state = .waiting ∧ j.started = false ∧ j.ready = false ∧ j.waitSince = s.bt := by
  rw [State.admitRun, if_pos h]
  exact ⟨_, State.newJob_mem c .run (c.arg 46 2) (fun j => { j with ready := false }) s, rfl, rfl, rfl, rfl, rfl, rfl, rfl, rfl, rfl, rfl⟩

theorem JobsKept.trans {s t u : State} (h : JobsKept s t) (k : JobsKept t u) : JobsKept s u :=
  ⟨k.1.trans h.1, k.2.trans h.2⟩

theorem accept_jobRun {s : State} {n order : Nat} {e : Bytes} {sp : OpSpec} (h : field e 0 1 = 0x31) :
    ∃ j ∈ (s.accept n order e sp).sched.jobs,
      j.id = s.sched.nextJob ∧ j.slot = s.atr.nextSlot ∧ j.kind = .run ∧ j.client = field e 8 2 ∧ j.order = order ∧
      j.need = field e 46 2 ∧ j.state = .waiting ∧ j.started = false ∧ j.ready = false ∧ j.waitSince = s.bt := by
  unfold State.accept
  extract_lets c q t admitted
  have hkept : JobsKept s (((t.pinAll c.pins).takeRound e).wake (field e 0 1)) :=
    (State.pinAll_jobsKept c.pins t).trans ((State.takeRound_jobsKept e _).trans (State.wake_jobsKept _ _))
  obtain ⟨j, hj, hid, hjob⟩ := State.admitRun_has (c := c) (s := ((t.pinAll c.pins).takeRound e).wake (field e 0 1)) h
  obtain ⟨hsched, hbt⟩ := hkept
  rw [hsched] at hid
  rw [hbt] at hjob
  refine ⟨j, ?_, hid, hjob⟩
  split
  · exact hj
  · rw [State.handOver_sched]
    exact hj

/-! ### JOB_RUN (R154, R163) -/

/-- Measuring a program's first run changes the program's version and the measurements alone. -/
theorem State.measureRun_rest (j : Job) (s : State) :
    s.measureRun j = { s with tiers := (s.measureRun j).tiers, sec := (s.measureRun j).sec } := by
  unfold State.measureRun
  split
  · split
    · split <;> rfl
    · rfl
  · rfl

/-- The bindings that a JOB_RUN's data names, on the versions its command pins. -/
def Slot.runBindings (bound : List (Nat × Nat)) (b : Bytes) (g : Image) : List Binding :=
  (bound.zip (bindingsOf b g.slots)).map fun x : (Nat × Nat) × (Nat × Nat × Bool × Bool) =>
    ({ obj := x.1.1, ver := x.1.2, write := x.2.2.2.1 } : Binding)

theorem map_fst_zip_eq_take {α β : Type} (l : List α) (m : List β) : (l.zip m).map Prod.fst = l.take m.length := by
  induction l generalizing m with
  | nil => simp
  | cons a l ih => cases m with
    | nil => rfl
    | cons b m => exact congrArg (a :: ·) (ih m)

theorem runBindings_pins (bound : List (Nat × Nat)) (b : Bytes) (g : Image) :
    (Slot.runBindings bound b g).map (fun b => (b.obj, b.ver)) = bound.take g.slots := by
  unfold Slot.runBindings
  rw [List.map_map]
  have hslots : (bindingsOf b g.slots).length = g.slots := by simp [bindingsOf]
  exact (map_fst_zip_eq_take bound (bindingsOf b g.slots)).trans (by rw [hslots])

theorem jobRun_takesEffect {s : State} {slot : Nat} {c : Slot} {p : Nat × Nat} {bound : List (Nat × Nat)} {g : Image} {j : Job}
    (hc : Handed s slot 0x31 true c) (hpins : c.pins = p :: bound) (hg : s.image? p.1 p.2 = some g) (hj : s.jobOf? slot = some j) :
    ∃ (t : State) (k : Job), exec (.jobRun slot) s = .next t ∧
      k = { j with prog := p.1, progVer := p.2, image := some g, bindings := k.bindings
                   params := slice (s.dataBytes c) (8 * g.slots) g.paramLen, syncBlocks := g.syncBlocks, ready := true } ∧
      k.bindings.map (fun b => (b.obj, b.ver)) = bound.take g.slots ∧
      t.sched.jobs = s.sched.jobs.map (fun x => if x.id = j.id then k else x) ∧
      t.slot? slot = some { c with phase := .running, work := .job } ∧
      t = { s with atr := t.atr, sched := t.sched, tiers := t.tiers, sec := t.sec } := by
  let k : Job := { j.withProgram p.1 p.2 g (Slot.runBindings bound (s.dataBytes c) g) (slice (s.dataBytes c) (8 * g.slots) g.paramLen) with
    ready := true }
  have hrest := State.measureRun_rest k (s.updJob j.id fun _ => k)
  refine ⟨((s.updJob j.id fun _ => k).measureRun k).setWork slot .job, k, ?_, rfl, runBindings_pins _ _ _, ?_, ?_, ?_⟩
  · refine congrArg Host.Outcome.next ((hc.run _).trans ?_)
    simp only [hpins, hg, hj]
    rfl
  · rw [State.setWork_sched, hrest]
    simp [State.updJob, updWhere]
  · refine State.slot?_setWork _ ?_
    rw [hrest]
    exact hc.held
  · exact congrArg (fun u : State => { u with
      atr := (((s.updJob j.id fun _ => k).measureRun k).setWork slot .job).atr, sched := ((s.updJob j.id fun _ => k).measureRun k).sched }) hrest

/-! ### The statement -/

theorem programLoad_stores {s : State} {slot : Nat} {c : Slot} (k : Handed s slot 0x30 true c) (hf : imageFault (s.dataBytes c) = none)
    (h : s.programError (c.arg 40 4) (c.arg 44 2) (imageSize (s.dataBytes c).length) = none)
    (hroom : ∀ o, s.obj? (c.arg 40 4) = some o → o.durable = true → s.admitsDirty (imageSize (s.dataBytes c).length) = true)
    (hnew : s.obj? (c.arg 40 4) = none → s.admitsDirty (imageSize (s.dataBytes c).length) = true) :
    let b := s.dataBytes c
    let id := c.arg 40 4
    let n := c.arg 44 2
    ∃ (t : State) (o : Obj) (v : Version),
        exec (.programLoad slot) s = .next (t.ackWrite slot o false (pageList id n 0 (imageSize b.length)) 0) ∧
        t.obj? id = some o ∧ o.ver? n = some v ∧ v.state = .current ∧
        v.size = imageSize b.length ∧ v.data = memWrite [] 0 (fitBytes (imageSize b.length) b) ∧ v.image = some (parseImage b) ∧
        (∀ i m, i ≠ id → (t.version? i m).map (fun y => (y.data, y.state)) = (s.version? i m).map fun y => (y.data, y.state)) ∧
        (t.writesThrough o = false → (o.durable = true → imageSize b.length ≤ t.tiers.budget ∧
            ∀ p ∈ pageList id n 0 (imageSize b.length), t.unmirrored p = false) →
          exec (.programLoad slot) s = .next ((t.finish slot .ok 0 0).issueStores)) := by
  intro b id n
  obtain ⟨⟨o, v, ho, hv, hcur, hsize, hdata, himage⟩, hkept⟩ := State.imageStored_has h
  have hexec := (exec_programLoad_of_checked k hf).trans (congrArg Host.Outcome.next (storeImage_of_room k _ h hroom hnew ho))
  have hobjects : ((s.imageStored c b).writeResult c 0 (loadReport 0 0 (saveBytesOf b) (digest64 b))).tiers.objects =
    (s.imageStored c b).tiers.objects := by rw [State.writeResult_tiers]
  refine ⟨_, o, v, hexec, ?_, hv, hcur, hsize, hdata, himage, hkept.trans (.of_objects hobjects), fun hw hd => ?_⟩
  · rw [State.obj?, hobjects]
    exact ho
  · refine hexec.trans (congrArg Host.Outcome.next (State.ackWrite_of_dram hw ?_))
    rw [length_pageList_imageSize]
    exact hd

/-- Settles O36: PROGRAM_LOAD by the outcomes of its checks, the load report by its layout, a JOB_RUN's job by its admission, and its
execution by the model's equation. -/
theorem programsAreLoadedAndRun : Obligations.ProgramsAreLoadedAndRun := by
  unfold Obligations.ProgramsAreLoadedAndRun
  refine ⟨fun s slot c k => ⟨fun _ _ hf => exec_programLoad_of_fault k hf, fun _ _ hf h => ?_, fun hf h hd ha => ?_, fun hf h hroom hnew =>
    programLoad_stores k hf h hroom hnew⟩, fun check off save m => ⟨length_loadReport check off save m, loadReport_fields check off save m⟩,
    fun _ _ _ _ _ h => accept_jobRun h, fun _ _ _ _ _ _ _ hc hpins hg hj => jobRun_takesEffect hc hpins hg hj⟩
  · exact (exec_programLoad_of_checked k hf).trans (congrArg Host.Outcome.next (storeImage_of_error k _ h))
  · exact (exec_programLoad_of_checked k hf).trans (congrArg Host.Outcome.next (storeImage_of_held k _ h hd ha))

end Sys2Proof.Machine
end

section
/-! PROOF. Search commands (R228, R229): why the statement about them fails where a command's data buffer is shorter than its entry says. -/
namespace Sys2Proof.Machine

namespace ShortData

/-- An index version without content or entries. -/
def version : Version := { num := 1, state := .current, size := 65536 }

/-- A volatile index. -/
def index : Obj := { id := 1, kind := 3, durable := false, tier := 3, size := 65536, versions := [version] }

/-- The slot of an ACCESSION of one entry of 32 bytes, whose data buffer has no segment. -/
def slot : Slot :=
  { id := 1, sq := 0, order := 0, fetchBt := 0, phase := .handed
    entry := leBytes 1 0x41 ++ zeroBytes 23 ++ leBytes 4 32 ++ zeroBytes 12 ++ leBytes 4 1 ++ zeroBytes 2 ++ leBytes 2 1 ++ zeroBytes 16 }

/-- In service, the index stands alone, and no ring does. -/
def state : State :=
  { State.reset with
    power := { State.reset.power with state := .active, phase := .service }
    tiers := { State.reset.tiers with objects := [index] }
    atr := { State.reset.atr with cqs := [], slots := [slot] } }

theorem handed : Handed state 1 0x41 false slot where
  held := by decide
  phase := rfl
  opcode := by decide
  reads := rfl
  toRead := rfl
  awake := by decide
  going := by decide
  unordered := by decide
  carried := by simp

theorem entryStride : version.indexHdr.entryStride = 32 := by decide

theorem alone : state.accessionAhead slot = false := by decide

theorem found : state.obj? (slot.arg 40 4) = some index := by decide

theorem room : ceilDiv (version.listBytes + slot.arg 46 2 * 32) 65536 - ceilDiv version.listBytes 65536 ≤ state.freeUnits := by decide

/-- What stands of the index and of the command after an ACCESSION of no entry. -/
def committed (s : State) : Option Nat := ((s.obj? 1).bind Obj.current?).map (·.index.committed)

theorem committed_append : committed (state.appendEntries slot index version []) = some 0 := by decide

theorem phase_append : ((state.appendEntries slot index version []).slot? 1).map (·.phase) = some .done := by decide

theorem exec_accession : exec (.accession 1) state = .next (state.appendEntries slot index version []) := by
  refine congrArg Host.Outcome.next ((handed.run _).trans ?_)
  have hlen : slot.dataLen = slot.arg 46 2 * 32 := by decide
  have hparts : chunksOf 32 (slot.arg 46 2) (state.dataBytes slot) = [] := by decide
  have hcurrent : index.current? = some version := by decide
  have hentries : ¬ 16777216 < version.index.entries.length + slot.arg 46 2 := by decide
  simp only [alone, State.doAccession, found, hcurrent, entryStride, hlen, hparts, Nat.not_lt.mpr room, hentries]
  rfl

/-- Where an ACCESSION has completed, what the index has committed is the sequence number it completed with. -/
theorem committed_accessionDone {s : State} {last n : Nat} (h : committed (s.accessionDone slot last) = some n) : n = last := by
  obtain ⟨x, hx, hn⟩ := Option.map_eq_some_iff.mp h
  obtain ⟨p, hp, hcur⟩ := Option.bind_eq_some_iff.mp hx
  have hmem : p ∈ (s.accessionDone slot last).tiers.objects := List.mem_of_find?_eq_some hp
  have hid : p.id = 1 := State.obj?_id hp
  have hop : slot.opcode = 0x41 := by decide
  have harg : slot.arg 40 4 = 1 := by decide
  rw [State.accessionDone, if_pos hop, harg, State.updObj] at hmem
  obtain ⟨q, -, hq⟩ := List.mem_map.mp hmem
  by_cases hqid : q.id = 1
  · rw [if_pos (by simpa using hqid)] at hq
    have hver : x ∈ p.versions := List.mem_of_find?_eq_some hcur
    have hstate : x.state = .current := by simpa using List.find?_some hcur
    rw [← hq] at hver
    obtain ⟨y, -, hy⟩ := List.mem_map.mp hver
    by_cases hycur : y.state = .current
    · rw [if_pos (by simpa using hycur)] at hy
      rw [← hn, ← hy]
    · rw [if_neg (by simpa using hycur)] at hy
      exact absurd (hy ▸ hstate) hycur
  · rw [if_neg (by simpa using hqid)] at hq
    exact absurd (hq ▸ hid) hqid

end ShortData

open ShortData in
/-- Refutes O37: an ACCESSION whose entry counts one entry, in a slot whose data buffer has no segment, appends nothing and commits
sequence number 0; the statement has it complete with the count of its entry, number 1. -/
theorem not_searchCommandsTakeEffect : ¬ Obligations.SearchCommandsTakeEffect := by
  unfold Obligations.SearchCommandsTakeEffect
  rintro ⟨⟨-, haccession, hdone, -⟩, -⟩
  have hparts : chunksOf 32 (slot.arg 46 2) (state.dataBytes slot) = [] := by decide
  obtain ⟨-, -, happend⟩ := haccession state 1 slot index version handed alone found (by decide) rfl (by rw [entryStride]; decide)
    (by rw [entryStride, hparts]; simp) (by decide) (by rw [entryStride]; exact room) (.inl rfl)
  obtain ⟨t, u, p, x, -, -, -, -, -, -, -, hgoing, hended⟩ := happend (fun h => absurd h (by decide))
  have hnot : ¬ ∃ d, u.slot? 1 = some d ∧ d.phase = .done := by
    rintro ⟨d, hd, hphase⟩
    have hu := Host.Outcome.next.inj (exec_accession.symm.trans (hended d hd hphase))
    exact absurd (committed_accessionDone (hu ▸ committed_append)) (by decide)
  have hu := Host.Outcome.next.inj (exec_accession.symm.trans (hgoing fun d hd hphase => hnot ⟨d, hd, hphase⟩))
  obtain ⟨d, hd, hphase⟩ := Option.map_eq_some_iff.mp phase_append
  exact hnot ⟨d, hu ▸ hd, hphase⟩

end Sys2Proof.Machine
end

section
/-! PROOF. O39: reduction domains, rounds and packets (chapter 11). -/
namespace Sys2Proof.Machine

/-! ### What the delivery of a reduction packet keeps: the number of domains, and which slots there are -/

/-- There are as many domains, and the same slots. -/
structure TablesKept (s t : State) : Prop where
  domains : t.domains.length = s.domains.length
  slots : t.atr.slots.map (·.id) = s.atr.slots.map (·.id)

namespace TablesKept

theorem refl (s : State) : TablesKept s s := ⟨rfl, rfl⟩

theorem trans {s t u : State} (h : TablesKept s t) (k : TablesKept t u) : TablesKept s u :=
  ⟨k.domains.trans h.domains, k.slots.trans h.slots⟩

theorem foldl {α : Type} {f : State → α → State} {s t : State} (h : TablesKept s t) (hf : ∀ t a, TablesKept t (f t a)) (l : List α) :
    TablesKept s (l.foldl f t) :=
  List.foldlRecOn (motive := fun t => TablesKept s t) l f h fun t ht a _ => ht.trans (hf t a)

theorem of_eq {s t : State} (hd : t.domains = s.domains) (ha : t.atr = s.atr) : TablesKept s t := ⟨by rw [hd], by rw [ha]⟩

theorem onlyTiers {s t : State} (h : OnlyTiers s t) : TablesKept s t := .of_eq (by rw [h]) (by rw [h])

theorem touchWork {s t : State} (h : TouchWork s t) : TablesKept s t := .of_eq (by rw [h.rest]) (by rw [h.rest])

theorem flashWork {s t : State} (h : FlashWork s t) : TablesKept s t := .of_eq (by rw [h.rest]) (by rw [h.rest])

theorem updDom (d : Nat) (f : Domain → Domain) (s : State) : TablesKept s (s.updDom d f) := ⟨List.length_modify .., rfl⟩

theorem updRound (d : Nat) (f : Round → Round) (s : State) : TablesKept s (s.updRound d f) := updDom d _ s

theorem updChunk (d c : Nat) (f : Chunk → Chunk) (s : State) : TablesKept s (s.updChunk d c f) := updRound d _ s

theorem updPort (p : Nat) (f : Port → Port) (s : State) : TablesKept s (s.updPort p f) := .of_eq rfl rfl

theorem updSlot {id : Nat} {f : Slot → Slot} (hf : ∀ c, (f c).id = c.id) (s : State) : TablesKept s (s.updSlot id f) := by
  refine ⟨rfl, ?_⟩
  show (updWhere _ f s.atr.slots).map (·.id) = _
  rw [updWhere, List.map_map]
  refine List.map_congr_left fun c _ => ?_
  show (if _ then f c else c).id = c.id
  split
  · exact hf c
  · rfl

theorem setWork (id : Nat) (w : Work) (s : State) : TablesKept s (s.setWork id w) :=
  updSlot (f := fun c => { c with phase := .running, work := w }) (fun _ => rfl) s

theorem raise (r : FaultRec) (s : State) : TablesKept s (s.raise r) := .of_eq (State.raise_domains r s) (State.raise_atr r s)

theorem finish (id : Nat) (st : Status) (result info : Nat) (s : State) : TablesKept s (s.finish id st result info) := by
  unfold State.finish
  split
  · exact .refl s
  · split
    · exact .refl s
    · exact (updSlot (f := fun c => { c with phase := .done, work := .none, reads := [], toRead := [] }) (fun _ => rfl) s).trans ⟨rfl, rfl⟩

theorem hostWrite (ring addr : Nat) (bs : Bytes) (s : State) : TablesKept s (s.hostWrite ring addr bs) := by
  unfold State.hostWrite
  split
  · exact ⟨rfl, rfl⟩
  · exact .of_eq (State.sendAll_domains _ _ _) (State.sendAll_atr _ _ _)

theorem writeResult (c : Slot) (off : Nat) (bs : Bytes) (s : State) : TablesKept s (s.writeResult c off bs) := by
  unfold State.writeResult
  refine foldl (.refl s) (fun t p => ?_) _
  exact hostWrite _ _ _ t

theorem startWriteback (ps : List (Nat × Nat × Nat)) (s : State) : TablesKept s (s.startWriteback ps) :=
  touchWork (State.startWriteback_touchWork ps s)

theorem moveDown (id n u tier : Nat) (s : State) : TablesKept s (s.moveDown id n u tier) := by
  unfold State.moveDown
  extract_lets t
  exact (startWriteback (unitPages id n u) s).trans (of_eq (State.updObj_domains _ _ t) (State.updObj_atr _ _ t))

theorem dropRefs (p : Obj → Ref → Bool) (s : State) : TablesKept s (s.dropRefs p) := by
  have hstart : TablesKept s (s.lessRefs p) := ⟨rfl, rfl⟩
  refine hstart.trans (foldl (.refl _) (fun t o => foldl (.refl t) (fun u d => ?_) _) _)
  refine ((moveDown o.id d.ver d.unit d.tier u).trans (flashWork (State.bringHome_work o.id d.ver d.unit _))).trans ?_
  exact of_eq (State.updObj_domains _ _ _) (State.updObj_atr _ _ _)

theorem dirtyPage (id n p : Nat) (s : State) : TablesKept s (s.dirtyPage id n p) := by
  rcases State.dirtyPage_cases id n p s with he | ⟨at_, he⟩ <;> rw [he]
  · exact .refl s
  · exact of_eq rfl rfl

theorem writeVersion (id n off : Nat) (bs : Bytes) (s : State) : TablesKept s (s.writeVersion id n off bs) := by
  have hdirty : TablesKept s ((pagesOf off bs.length).foldl (fun t p => t.dirtyPage id n p) (s.updVer id n fun v => v.written_ off bs)) :=
    foldl (of_eq (s := s) (t := s.updVer id n fun v => v.written_ off bs) rfl rfl) (fun t p => dirtyPage id n p t) _
  exact (hdirty.trans (touchWork (State.touch_touchWork id n off bs.length _))).trans (of_eq (t := s.writeVersion id n off bs) rfl rfl)

theorem sendRedNow (k : TxPkt) (s : State) : TablesKept s (s.sendRedNow k) := by
  unfold State.sendRedNow
  extract_lets free p t
  split
  · exact ⟨List.length_modify .., rfl⟩
  · exact of_eq rfl rfl

theorem sendRed (d dst : Nat) (k : RedPacket) (s : State) : TablesKept s (s.sendRed d dst k) := by
  unfold State.sendRed State.pumpRed
  extract_lets x
  refine foldl ?_ (fun t k => ?_) _
  · exact of_eq rfl rfl
  · split
    · exact sendRedNow k t
    · exact of_eq rfl rfl

theorem sendPart (d dst : Nat) (ks : List RedPacket) (s : State) : TablesKept s (s.sendPart d dst ks) := by
  unfold State.sendPart
  split
  · exact .refl s
  · exact foldl (.refl s) (fun t k => sendRed d dst k t) ks

theorem storeRound (r : Round) (id n : Nat) (s : State) : TablesKept s (s.storeRound r id n) := by
  unfold State.storeRound
  split
  · exact .refl s
  · extract_lets ro
    refine foldl (.refl s) (fun t k => ?_) _
    exact (writeVersion id n _ _ t).trans (writeVersion id n _ _ _)

theorem leaveRound (d : Nat) (s : State) : TablesKept s (s.leaveRound d) := by
  unfold State.leaveRound
  exact (updDom d _ s).trans (dropRefs _ _)

theorem completeRound (d : Nat) (s : State) : TablesKept s (s.completeRound d) := by
  unfold State.completeRound
  split
  · exact .refl s
  · split
    · exact .refl s
    · extract_lets outs q rr t u
      have hleft : TablesKept s t := (writeResult _ 0 _ s).trans (leaveRound d _)
      clear_value t
      exact (hleft.trans (updDom d _ t)).trans (finish _ _ _ _ _)

theorem awaitRound (d phase : Nat) (c : Slot) (ps : List (Nat × Nat × Nat)) (s : State) : TablesKept s (s.awaitRound d phase c ps) := by
  unfold State.awaitRound
  exact ((updRound d _ s).trans (startWriteback ps _)).trans (setWork _ _ _)

theorem endRound (d : Nat) (s : State) : TablesKept s (s.endRound d) := by
  unfold State.endRound
  split
  · exact .refl s
  · split
    · exact .refl s
    · extract_lets p
      split
      · exact .refl s
      · extract_lets chunks ps need t
        have hcharged : TablesKept s t := by
          show TablesKept s (if _ then _ else _)
          split <;> exact of_eq rfl rfl
        clear_value t
        split
        · exact .refl s
        · split
          · exact hcharged.trans ((writeVersion _ _ _ _ t).trans (awaitRound d 1 _ _ _))
          · exact hcharged.trans ((storeRound _ _ _ t).trans ((writeVersion _ _ _ _ _).trans (completeRound d _)))

theorem finishChunk (d c : Nat) (es : List (Nat × Int)) (e : Int) (second : Bool) (s : State) :
    TablesKept s (s.finishChunk d c es e second) := by
  unfold State.finishChunk
  exact (updChunk d c _ s).trans (endRound d _)

theorem passDone (d c : Nat) (second : Bool) (s : State) : TablesKept s (s.passDone d c second) := by
  unfold State.passDone
  extract_lets m mark t l
  have hmarked : TablesKept s t := updChunk d c _ s
  clear_value t
  split
  · exact .refl s
  · split
    · exact .refl s
    · split
      · exact .refl s
      · split
        · exact .refl s
        · extract_lets out
          split
          · exact (hmarked.trans (sendPart d _ _ t)).trans (updRound d _ _)
          · split
            · exact (((hmarked.trans (sendPart d _ _ t)).trans (sendPart d _ _ _)).trans (updRound d _ _)).trans (updChunk d c _ _)
            · exact ((hmarked.trans (sendPart d _ _ t)).trans (sendPart d _ _ _)).trans (finishChunk d c _ _ _ _)

theorem advanceChunk (d c : Nat) (s : State) : TablesKept s (s.advanceChunk d c) :=
  ((passDone d c false s).trans (passDone d c true _)).trans (passDone d c true _)

theorem dupDrop (d : Nat) (s : State) : TablesKept s (s.dupDrop d) := (updDom d _ s).trans (updRound d _ _)

theorem mismatchDrop (d : Nat) (s : State) : TablesKept s (s.mismatchDrop d) := by
  unfold State.mismatchDrop
  extract_lets t
  have hcounted : TablesKept s t := updDom d _ s
  clear_value t
  split
  · split
    · exact hcounted
    · exact (hcounted.trans (updRound d _ t)).trans (raise _ _)
  · exact hcounted

theorem upPacket (d : Nat) (k : RedPacket) (ch : Chunk) (right : Bool) (s : State) : TablesKept s (s.upPacket d k ch right) := by
  unfold State.upPacket
  split
  · exact mismatchDrop d s
  · split
    · exact dupDrop d s
    · exact ((updChunk d _ _ s).trans (updRound d _ _)).trans (advanceChunk d _ _)

theorem repassPacket (d : Nat) (k : RedPacket) (ch : Chunk) (s : State) : TablesKept s (s.repassPacket d k ch) := by
  unfold State.repassPacket
  split
  · exact dupDrop d s
  · exact ((((updChunk d _ _ s).trans (updRound d _ _)).trans (sendPart d _ _ _)).trans (sendPart d _ _ _)).trans (advanceChunk d _ _)

theorem downPacket (d : Nat) (k : RedPacket) (ch : Chunk) (s : State) : TablesKept s (s.downPacket d k ch) := by
  unfold State.downPacket
  split
  · exact dupDrop d s
  · extract_lets m on es t u
    have hsent : TablesKept s u := ((updChunk d _ _ s).trans (sendPart d _ _ _)).trans (sendPart d _ _ _)
    clear_value u
    split
    · exact hsent.trans (finishChunk d _ _ _ _ u)
    · exact hsent

theorem takeRed (port vc : Nat) (k : RedPacket) (s : State) : TablesKept s (s.takeRed port vc k) := by
  unfold State.takeRed
  extract_lets d m t u
  have hnoted : TablesKept s u := (updDom d _ s).trans (updRound d _ _)
  clear_value u
  split
  · exact updPort port _ s
  · split
    · split
      · exact dupDrop d s
      · exact .refl s
    · split
      · split
        · exact dupDrop d s
        · exact .refl s
      · split
        · split
          · exact mismatchDrop d s
          · split
            · exact hnoted.trans (dupDrop d u)
            · split
              · exact hnoted.trans (upPacket d k _ _ u)
              · split
                · exact hnoted.trans (repassPacket d k _ u)
                · exact hnoted.trans (downPacket d k _ u)
        · exact mismatchDrop d s

theorem arriveRed (port vc : Nat) (k : RedPacket) (s : State) : TablesKept s (s.arriveRed port vc k) := by
  unfold State.arriveRed
  split
  · exact takeRed port vc k s
  · exact updPort port _ s

theorem deliverHeld (s : State) : TablesKept s s.deliverHeld := by
  unfold State.deliverHeld
  refine foldl (.refl s) (fun t p => ?_) _
  refine foldl ?_ (fun u k => ?_) _
  · exact updPort p _ t
  · exact arriveRed p k.1 k.2 u

/-- A command whose slot is still there ends. -/
theorem exists_done {s t : State} (h : TablesKept s t) {id : Nat} {c : Slot} (hc : s.slot? id = some c) (result : Nat) :
    ∃ d, (t.done id result).slot? id = some d ∧ d.phase = .done := by
  have hmem : id ∈ t.atr.slots.map (·.id) := by
    rw [h.slots]
    exact List.mem_map.mpr ⟨c, List.mem_of_find?_eq_some hc, by simpa using List.find?_some hc⟩
  obtain ⟨d, hd, hid⟩ := List.mem_map.mp hmem
  have hsome : (t.slot? id).isSome := List.find?_isSome.mpr ⟨d, hd, by simpa using hid⟩
  obtain ⟨e, he⟩ := Option.isSome_iff_exists.mp hsome
  rw [State.done, State.finish, he]
  dsimp only
  split
  · next hphase => exact ⟨e, he, hphase⟩
  · refine ⟨{ e with phase := .done, work := .none, reads := [], toRead := [] }, ?_, rfl⟩
    exact (State.slot?_updSlot_same t id (f := fun c => { c with phase := .done, work := .none, reads := [], toRead := [] })
      fun _ => rfl).trans (by rw [he]; rfl)

end TablesKept

/-! ### Packets held at the links -/

theorem updAt_eq_self {α : Type} {f : α → α} {l : List α} (h : ∀ a ∈ l, f a = a) (i : Nat) : updAt i f l = l := by
  refine List.ext_getElem? fun j => ?_
  rw [updAt, List.getElem?_modify]
  cases hj : l[j]? with
  | none => rfl
  | some a =>
    have ha := h a (List.mem_of_getElem? hj)
    split
    · exact congrArg some ha
    · rfl

/-- With no packet held at a link there is none to deliver. -/
theorem State.deliverHeld_of_none {s : State} (h : ∀ p ∈ s.link.ports, p.held = []) : s.deliverHeld = s := by
  have hport : ∀ p, (s.port p).held = [] := fun p => by
    rw [State.port, List.getD_eq_getElem?_getD]
    cases hp : s.link.ports[p]? with
    | none => rfl
    | some q => exact h q (List.mem_of_getElem? hp)
  have hclear : ∀ p, (s.updPort p fun q => { q with held := [] }) = s := fun p => by
    have hports : updAt p (fun q : Port => { q with held := [] }) s.link.ports = s.link.ports :=
      updAt_eq_self (fun q hq => by rw [← h q hq]) p
    rw [State.updPort, hports]
  simp only [State.deliverHeld, List.foldl_cons, List.foldl_nil, hport, hclear]

/-! ### Bytes that are accounted for -/

/-- Bytes of durable data are accounted for. -/
def State.chargeBytes (durable : Bool) (n : Nat) (s : State) : State := if durable then s.takeCredit n else s

theorem State.chargeBytes_objects (durable : Bool) (n : Nat) (s : State) : (s.chargeBytes durable n).tiers.objects = s.tiers.objects := by
  unfold State.chargeBytes
  split <;> rfl

/-! ### An object as it is made, with its version 1 -/

/-- The object as it is made: its one version is version 1. -/
def Obj.CreatedAs (kind size : Nat) (durable : Bool) (o : Obj) : Prop :=
  o.gone = false ∧ o.kind = kind ∧ o.size = size ∧ o.durable = durable ∧ ∃ v, o.versions = [v] ∧ v.num = 1

section
variable {s : State} {id kind size : Nat} {durable : Bool}

theorem Obj.CreatedAs.of_keeps {o p : Obj} (h : o.CreatedAs kind size durable) (k : o.Keeps p) : p.CreatedAs kind size durable := by
  obtain ⟨hgone, hkind, hsize, hdurable, v, hv, hnum⟩ := h
  obtain ⟨w, hw, hvw⟩ : ∃ w, p.versions = [w] ∧ v.Keeps w := by
    have hall := k.versions
    rw [hv] at hall
    obtain ⟨w, l, hvw, hl, hp⟩ := hall.cons_left
    rw [hl.nil_left] at hp
    exact ⟨w, hp, hvw⟩
  rw [k.rest]
  exact ⟨hgone, hkind, hsize, hdurable, w, hw, hvw.num_eq.trans hnum⟩

theorem Obj.CreatedAs.updVer {o : Obj} (h : o.CreatedAs kind size durable) (n : Nat) {f : Version → Version} (hf : ∀ v, (f v).num = v.num) :
    (o.updVer n f).CreatedAs kind size durable := by
  obtain ⟨hgone, hkind, hsize, hdurable, v, hv, hnum⟩ := h
  refine ⟨hgone, hkind, hsize, hdurable, if decide (v.num = n) then f v else v, ?_, ?_⟩
  · rw [Obj.updVer, hv]
    rfl
  · split
    · exact (hf v).trans hnum
    · exact hnum

theorem State.found.createdAs_updVer (h : s.found id (Obj.CreatedAs kind size durable)) (n : Nat) {f : Version → Version}
    (hf : ∀ v, (f v).num = v.num) : (s.updVer id n f).found id (Obj.CreatedAs kind size durable) :=
  State.found.updObj h (f := fun o => o.updVer n f) (fun _ => rfl) fun _ ho => ho.updVer n hf

theorem State.found.createdAs_writeVersion (h : s.found id (Obj.CreatedAs kind size durable)) (n off : Nat) (bs : Bytes) :
    (s.writeVersion id n off bs).found id (Obj.CreatedAs kind size durable) := by
  have hdirty : ((pagesOf off bs.length).foldl (fun t p => t.dirtyPage id n p) (s.updVer id n fun v => v.written_ off bs)).found id
      (Obj.CreatedAs kind size durable) := by
    refine List.foldlRecOn (motive := fun t => State.found id (Obj.CreatedAs kind size durable) t) _ _
      (h.createdAs_updVer n fun _ => rfl) fun t ht p _ => ?_
    rcases State.dirtyPage_cases id n p t with he | ⟨at_, he⟩ <;> rw [he]
    · exact ht
    · exact ht.createdAs_updVer n fun _ => rfl
  obtain ⟨o, ho, hcreated⟩ := hdirty
  obtain ⟨p, hp, hkeep⟩ := (State.touch_touchWork id n off bs.length _).objects.find?_some (fun _ _ hk => hk.id_eq) ho
  exact ⟨p, hp, hcreated.of_keeps hkeep⟩

theorem State.createObj_found (h : s.idHeld id = false) (tier : Nat) : (s.createObj id kind tier size 1 durable false).found id
    (Obj.CreatedAs kind size durable) := by
  refine ⟨s.createdObj id kind tier size 1 durable false, ?_, rfl, rfl, rfl, rfl, _, rfl, rfl⟩
  have hnone : s.tiers.objects.find? (·.id = id) = none := List.find?_eq_none.mpr (List.any_eq_false.mp h)
  rw [State.createObj_objects, List.find?_append, hnone]
  simp [State.createdObj]

theorem State.version?_createObj (h : s.idHeld id = false) (tier : Nat) :
    (s.createObj id kind tier size 1 durable false).version? id 1 = some (s.createdVersion size 1 false) := by
  have hnone : s.tiers.objects.find? (·.id = id) = none := List.find?_eq_none.mpr (List.any_eq_false.mp h)
  rw [State.version?, State.createObj_objects, List.find?_append, hnone]
  simp [State.createdObj, Obj.ver?, State.createdVersion]

/-- The object as it is made is there, and its one version is the one found under number 1. -/
theorem State.found.created (h : s.found id (Obj.CreatedAs kind size durable)) {w : Version} (hw : s.version? id 1 = some w) :
    ∃ o, s.obj? id = some o ∧ o.kind = kind ∧ o.size = size ∧ o.durable = durable ∧ o.versions = [w] ∧ w.num = 1 := by
  obtain ⟨o, ho, hgone, hkind, hsize, hdurable, v, hv, hnum⟩ := h
  have hver : o.ver? 1 = some v := by simp [Obj.ver?, hv, hnum]
  obtain rfl : v = w := by
    rw [State.version?, ho] at hw
    exact Option.some.inj (hver.symm.trans hw)
  refine ⟨o, ?_, hkind, hsize, hdurable, hv, hnum⟩
  obtain ⟨hid, l, m, hl, hbefore⟩ := List.find?_eq_some_iff_append.mp ho
  refine List.find?_eq_some_iff_append.mpr ⟨by simpa [hgone] using hid, l, m, hl, fun a ha => ?_⟩
  have := hbefore a ha
  simp only [Bool.not_eq_true', decide_eq_false_iff_not] at this ⊢
  exact fun h => this h.1

/-- An object made with its first bytes written. -/
def State.createWith (id kind tier size : Nat) (durable : Bool) (a : Bytes) (s : State) : State :=
  (s.createObj id kind tier size 1 durable false).writeVersion id 1 0 a

theorem State.createWith_has (h : s.idHeld id = false) (tier : Nat) (a : Bytes) :
    (s.createWith id kind tier size durable a).found id (Obj.CreatedAs kind size durable) ∧
    ∃ w, (s.createWith id kind tier size durable a).version? id 1 = some w ∧ w.state = .current ∧ w.data = memWrite [] 0 a ∧
      ∀ p ∈ pagesOf 0 a.length, ∃ d ∈ w.dirty, d.page = p := by
  refine ⟨(State.createObj_found h tier).createdAs_writeVersion 1 0 a, ?_⟩
  obtain ⟨w, hw, hrest, hdirty⟩ := (State.writeVersion_writesTo (State.version?_createObj (kind := kind) (size := size)
    (durable := durable) h tier) 0 a).version
  exact ⟨w, hw, by rw [hrest]; rfl, by rw [hrest]; rfl, hdirty⟩

/-- The same with bytes written in a second place. -/
theorem State.createWith_write_has (h : s.idHeld id = false) (tier : Nat) (a : Bytes) (off : Nat) (b : Bytes) :
    ∃ o v, ((s.createWith id kind tier size durable a).writeVersion id 1 off b).obj? id = some o ∧ o.kind = kind ∧ o.size = size ∧
      o.durable = durable ∧ o.versions = [v] ∧ v.num = 1 ∧ v.state = .current ∧ v.data = memWrite (memWrite [] 0 a) off b := by
  obtain ⟨hfound, w, hw, hstate, hdata, -⟩ := State.createWith_has (kind := kind) (size := size) (durable := durable) h tier a
  obtain ⟨x, hx, hrest, -⟩ := (State.writeVersion_writesTo hw off b).version
  obtain ⟨o, ho, hkind, hsize, hdurable, hv, hnum⟩ := (hfound.createdAs_writeVersion 1 off b).created hx
  refine ⟨o, x, ho, hkind, hsize, hdurable, hv, hnum, ?_, ?_⟩
  · rw [hrest]
    exact hstate
  · rw [hrest]
    exact congrArg (memWrite · off b) hdata

end

/-! ### DOMAIN_SET, DOMAIN_CLEAR, RESIDUAL_CREATE and REDUCE (R295 to R297, R299) -/

section
variable {s : State} {slot : Nat} {c : Slot}

theorem find?_eq_none_of_all {l : List (Bool × Status × Nat)} (h : ∀ x ∈ l, x.1 = false) : l.find? (·.1) = none :=
  List.find?_eq_none.mpr fun x hx => by simp [h x hx]

theorem exec_domainSet_of_closed (k : Handed s slot 0x60 false c) (h : ∀ x ∈ (s.specDomainSet c.entry).objects, x.1 = false)
    (hc : s.reductionClosed = true) : exec (.domainSet slot) s = .next (s.finish slot .unitClosed 0 0) := by
  refine congrArg Host.Outcome.next ((k.run _).trans ?_)
  simp only [find?_eq_none_of_all h]
  exact if_pos hc

/-- The domain that a DOMAIN_SET gives its slot. -/
def Slot.domainOf (c : Slot) : Domain :=
  { state := .ready, tag := c.arg 46 2, ranks := c.arg 42 2, rank := c.arg 44 2, parent := c.arg 48 4, left := c.arg 52 4
    right := c.arg 56 4, stallBt := c.arg 60 4, nextRound := 1 }

theorem exec_domainSet_of_open (k : Handed s slot 0x60 false c) (h : ∀ x ∈ (s.specDomainSet c.entry).objects, x.1 = false)
    (hc : s.reductionClosed = false) :
    exec (.domainSet slot) s = .next ((s.updDom (c.arg 40 1) fun _ => c.domainOf).deliverHeld.done slot 0) := by
  refine congrArg Host.Outcome.next ((k.run _).trans ?_)
  simp only [find?_eq_none_of_all h]
  exact if_neg (Bool.eq_false_iff.mp hc)

theorem exec_domainClear (k : Handed s slot 0x61 false c) (h : ∀ x ∈ (s.specDomainClear c.entry).objects, x.1 = false) :
    exec (.domainClear slot) s = .next ((s.updDom (c.arg 40 1) fun _ => {}).deliverHeld.done slot 0) := by
  refine congrArg Host.Outcome.next ((k.run _).trans ?_)
  simp only [find?_eq_none_of_all h]

theorem exec_reduce (k : Handed s slot 0x63 false c) : exec (.reduce slot) s = .next (s.setWork slot (.reduce (c.arg 40 1) false)) :=
  congrArg Host.Outcome.next (k.run _)

/-- The pages that RESIDUAL_CREATE writes. -/
def Slot.residualPages (c : Slot) : List (Nat × Nat × Nat) := pageList (c.arg 40 4) 1 0 32 ++ pageList (c.arg 40 4) 1 65536 (2 * c.arg 48 4)

section
variable (k : Handed s slot 0x62 true c) (hid : s.idHeld (c.arg 40 4) = false) (ho : s.reductionClosed = false)
include k hid ho

theorem exec_residualCreate_of_error {st : Status} (h : s.createError 6 (resSize (c.arg 48 4)) 3 (s.classOf 6 (c.arg 46 1) 3) = some st) :
    exec (.residualCreate slot) s = .next (s.finish slot st 0 0) := by
  refine congrArg Host.Outcome.next ((k.run _).trans ?_)
  simp only [State.doResidualCreate, hid, ho, h, k.id_eq, Bool.false_eq_true, if_false]
  rfl

theorem exec_residualCreate_of_held (h : s.createError 6 (resSize (c.arg 48 4)) 3 (s.classOf 6 (c.arg 46 1) 3) = none)
    (hd : s.classOf 6 (c.arg 46 1) 3 = true) (ha : s.admitsDirty (4096 * c.residualPages.length) = false) :
    exec (.residualCreate slot) s = .next (s.setWork slot (.held (4096 * c.residualPages.length))) := by
  refine congrArg Host.Outcome.next ((k.run _).trans ?_)
  simp only [State.doResidualCreate, hid, ho, h, k.id_eq, Bool.false_eq_true, if_false]
  refine if_pos (Bool.and_eq_true_iff.mpr ⟨hd, ?_⟩)
  rw [Bool.not_eq_true']
  exact ha

theorem residualCreate_stores (h : s.createError 6 (resSize (c.arg 48 4)) 3 (s.classOf 6 (c.arg 46 1) 3) = none)
    (ha : s.classOf 6 (c.arg 46 1) 3 = true → s.admitsDirty (4096 * c.residualPages.length) = true) :
    ∃ (t : State) (o : Obj) (v : Version), exec (.residualCreate slot) s =
      .next ((t.writeResult c 0 (leBytes 8 o.base ++ zeroBytes 8)).ackWrite slot o false c.residualPages 0) ∧
      t.obj? (c.arg 40 4) = some o ∧ o.kind = 6 ∧ o.size = resSize (c.arg 48 4) ∧ o.durable = s.classOf 6 (c.arg 46 1) 3 ∧
      o.versions = [v] ∧ v.num = 1 ∧ v.state = .current ∧
      v.data = memWrite (memWrite [] 0 (resHeader (c.arg 48 4) 0)) 65536 (List.replicate (c.arg 48 4) (leBytes 2 (c.arg 52 2))).flatten := by
  have hheld : (s.chargeBytes (s.classOf 6 (c.arg 46 1) 3) (4096 * c.residualPages.length)).idHeld (c.arg 40 4) = false := by
    rw [State.idHeld, State.chargeBytes_objects]
    exact hid
  obtain ⟨o, v, hobj, hkind, hsize, hdurable, hv, hnum, hstate, hdata⟩ := State.createWith_write_has (kind := 6)
    (size := resSize (c.arg 48 4)) (durable := s.classOf 6 (c.arg 46 1) 3) hheld 3 (resHeader (c.arg 48 4) 0) 65536
    (List.replicate (c.arg 48 4) (leBytes 2 (c.arg 52 2))).flatten
  refine ⟨_, o, v, ?_, hobj, hkind, hsize, hdurable, hv, hnum, hstate, hdata⟩
  refine congrArg Host.Outcome.next ((k.run _).trans ?_)
  simp only [State.doResidualCreate, hid, ho, h, k.id_eq, Bool.false_eq_true, if_false]
  refine (if_neg ?_).trans ?_
  · rw [Bool.and_eq_true_iff, Bool.not_eq_true']
    rintro ⟨hd, hn⟩
    exact absurd (ha hd) (Bool.eq_false_iff.mp hn)
  · simp only [State.createWith, State.chargeBytes, Slot.residualPages] at hobj ⊢
    simp only [hobj]

end

/-! ### Rounds (R299, R310) -/

/-- The references that a round takes, as the model's update of its store gives them. -/
theorem State.holdStore_eq (d id n : Nat) (s : State) : s.holdStore d id n = s.updObj id fun o =>
    { o with refs := if (o.ver? n).isSome then o.refs ++ (List.range (ceilDiv ((o.ver? n).elim 0 (·.size)) 65536)).map fun u =>
        { who := .round d, ver := n, unit := u, tier := o.tier } else o.refs } := by
  unfold State.holdStore
  congr 1
  funext o
  cases o.ver? n <;> rfl

theorem exec_roundStart {d : Nat} {v : Version} (hc : s.slot? slot = some c) (hw : c.work = .reduce d false)
    (hv : s.version? (c.pins.headD (0, 0)).1 (c.pins.headD (0, 0)).2 = some v) (hs : s.still = false) (hr : (s.dom d).round = none)
    (he : s.earlierReduce d c.order = false) (ho : s.reductionClosed = false) (hn : s.workChunks + c.arg 42 2 ≤ 4096) :
    exec (.roundStart slot) s = .next (if s.startDue (s.makeRound c (s.dom d) v).startTick then
      (((s.setWork slot (.reduce d true)).updDom d fun m => { m with state := .reducing, round := some (s.makeRound c (s.dom d) v) }).holdStore
        d (c.pins.headD (0, 0)).1 (c.pins.headD (0, 0)).2).sendRound d
      else ((s.setWork slot (.reduce d true)).updDom d fun m => { m with state := .reducing, round := some (s.makeRound c (s.dom d) v) }).holdStore
        d (c.pins.headD (0, 0)).1 (c.pins.headD (0, 0)).2).deliverHeld := by
  refine congrArg Host.Outcome.next ?_
  simp only [hc, hw, hv]
  exact if_neg (by simp [hs, hr, he, ho, Nat.not_lt.mpr hn])

theorem State.makeRound_num (c : Slot) (m : Domain) (v : Version) (s : State) : (s.makeRound c m v).num = c.arg 48 4 := rfl

theorem State.makeRound_chunks (c : Slot) (m : Domain) (v : Version) (s : State) :
    (s.makeRound c m v).chunks.map (·.index) = (List.range (c.arg 42 2)).map (c.arg 52 4 + ·) := by
  unfold State.makeRound
  simp only [List.map_map]
  rfl

theorem exec_startTick {d : Nat} {r : Round} (hr : (s.dom d).round = some r) (hs : r.sending = false) :
    exec (.startTick d) s = .next (if s.startDue r.startTick then s.sendRound d else s) := by
  refine congrArg Host.Outcome.next ?_
  simp only [hr, hs]
  cases s.startDue r.startTick <;> rfl

theorem exec_reductionStall {d : Nat} {r : Round} (hr : (s.dom d).round = some r) (hst : (s.dom d).state = .reducing) (hp : r.phase = 0)
    (hl : r.lastPacket + (s.dom d).stallBt ≤ s.bt) (hu : s.unitIs .reduction 0 .draining = false) :
    exec (.reductionStall d) s = .next ((s.updDom d fun m => { m with state := .stalled, stalls := sat32 (m.stalls + 1) }).raise
      { faultUnit 0x13 5 .reduction 0 0 with location := d, detail := r.num }) := by
  refine congrArg Host.Outcome.next ?_
  simp only [hr]
  refine (if_pos (by simp [hst, hp, State.elapsed, hl])).trans (if_neg ?_)
  rw [Bool.and_eq_true_iff]
  exact fun h => absurd h.1 (Bool.eq_false_iff.mp hu)

/-! ### Packets (R301, R302, R307 to R309) -/

theorem State.dom_updDom {d : Nat} (h : d < s.domains.length) (f : Domain → Domain) : (s.updDom d f).dom d = f (s.dom d) := by
  simp [State.dom, State.updDom, updAt, List.getD_eq_getElem?_getD, h]

theorem State.dupDrop_dom {d : Nat} (h : d < s.domains.length) : ((s.dupDrop d).dom d).dupDrops = sat32 ((s.dom d).dupDrops + 1) := by
  rw [State.dupDrop, State.updRound, State.dom_updDom (by simpa [State.updDom, updAt] using h), State.dom_updDom h]

/-- A packet that disagrees with the round is dropped and counted, and the first of a round is reported (R309). -/
theorem State.mismatchDrop_has {d : Nat} {r : Round} (h : d < s.domains.length) (hr : (s.dom d).round = some r) :
    ((s.mismatchDrop d).dom d).mismatchDrops = sat32 ((s.dom d).mismatchDrops + 1) ∧
    s.mismatchDrop d = { s with domains := (s.mismatchDrop d).domains, err := (s.mismatchDrop d).err } ∧
    (r.mismatched = true → (s.mismatchDrop d).err = s.err) := by
  have hcount : ((s.updDom d fun m => { m with mismatchDrops := sat32 (m.mismatchDrops + 1) }).dom d).mismatchDrops =
      sat32 ((s.dom d).mismatchDrops + 1) := by rw [State.dom_updDom h]
  unfold State.mismatchDrop
  simp only [hr]
  split
  · exact ⟨hcount, rfl, fun _ => rfl⟩
  · next hm =>
    refine ⟨?_, ?_, fun hm' => absurd hm' hm⟩
    · rw [State.dom, State.raise_domains]
      refine (congrArg Domain.mismatchDrops (State.dom_updDom (by simpa [State.updDom, updAt] using h) _)).trans hcount
    · conv => lhs; rw [State.raise_only]
      rw [State.raise_domains]
      rfl

section
variable {port vc : Nat} {k : RedPacket}

theorem State.arriveRed_of_unknown (h : (s.dom (vc - 3)).state = .empty ∨ (s.dom (vc - 3)).tag ≠ k.tag) :
    s.arriveRed port vc k = s.updPort port fun p => { p with errPackets := sat32 (p.errPackets + 1) } := by
  have hany : (decide ((s.dom (vc - 3)).state = .empty) || decide ((s.dom (vc - 3)).tag ≠ k.tag)) = true := by simpa using h
  exact (if_pos (by simp only [State.redAccepted, hany, Bool.true_or])).trans (if_pos (by simp only [hany, Bool.true_or]))

variable (he : (s.dom (vc - 3)).state ≠ .empty) (ht : (s.dom (vc - 3)).tag = k.tag)
include he ht

theorem State.arriveRed_of_future (hr : (s.dom (vc - 3)).round = none) (hp : (s.dom (vc - 3)).pastRound k.round = false) :
    s.arriveRed port vc k = s.updPort port fun p => { p with held := p.held ++ [(vc, k)] } :=
  if_neg (by simp [State.redAccepted, he, ht, hr, hp])

variable (hg : s.grade.hasReduction = true)
include hg

theorem State.arriveRed_of_past (hp : (s.dom (vc - 3)).pastRound k.round = true)
    (hr : ∀ r, (s.dom (vc - 3)).round = some r → r.num ≠ k.round) : s.arriveRed port vc k = s.dupDrop (vc - 3) := by
  refine (if_pos (by simp [State.redAccepted, hp])).trans ((if_neg (by simp [he, ht, hg])).trans ?_)
  cases hround : (s.dom (vc - 3)).round with
  | none => simp only [hp, if_true]
  | some r => simp only [hr r hround, hp, ne_eq, not_false_eq_true, if_true]

variable {r : Round} (hr : (s.dom (vc - 3)).round = some r) (hn : r.num = k.round)
include hr hn

theorem State.arriveRed_of_mismatch (h : senderPart (s.dom (vc - 3)) k = none ∨ r.chunks.find? (·.index = k.chunk) = none) :
    s.arriveRed port vc k = s.mismatchDrop (vc - 3) := by
  refine (if_pos (by simp [State.redAccepted, hr, hn])).trans ((if_neg (by simp [he, ht, hg])).trans ?_)
  simp only [hr, hn, ne_eq, not_true_eq_false, if_false]
  rcases h with h | h
  · simp only [h]
  · rw [h]
    cases senderPart (s.dom (vc - 3)) k <;> rfl

/-- A packet of the round under way is taken by its kind. -/
theorem State.arriveRed_of_round {right : Bool} {ch : Chunk} (hs : senderPart (s.dom (vc - 3)) k = some right)
    (hch : r.chunks.find? (·.index = k.chunk) = some ch) (hk : k.k = r.k) (hcc : k.chunkCount = r.chunkCount) (hkind : k.kind ≤ 2)
    (hcomplete : ch.complete = false) : s.arriveRed port vc k =
      (if k.kind = 0 then State.upPacket (vc - 3) k ch right
        ((s.updDom (vc - 3) fun m => { m with state := .reducing }).updRound (vc - 3) fun r => { r with lastPacket := s.bt })
      else if k.kind = 1 then State.repassPacket (vc - 3) k ch
        ((s.updDom (vc - 3) fun m => { m with state := .reducing }).updRound (vc - 3) fun r => { r with lastPacket := s.bt })
      else State.downPacket (vc - 3) k ch
        ((s.updDom (vc - 3) fun m => { m with state := .reducing }).updRound (vc - 3) fun r => { r with lastPacket := s.bt })) := by
  refine (if_pos (by simp [State.redAccepted, hr, hn])).trans ((if_neg (by simp [he, ht, hg])).trans ?_)
  simp only [hr, hn, ne_eq, not_true_eq_false, if_false, hs, hch]
  refine (if_neg (by simp [hk, hcc, Nat.not_lt.mpr hkind])).trans ?_
  simp only [hcomplete, Bool.false_eq_true, if_false]

end

section
variable {port vc : Nat} {k : RedPacket} (hlo : 3 ≤ vc) (hhi : vc ≤ 6)
  (hport : port = 0 ∧ s.portUsable 0 = true ∨ port = 1 ∧ s.portUsable 0 = false ∧ s.portUsable 1 = true)
include hlo hhi hport

theorem exec_reductionPacket : exec (.reductionPacket vc k) s = .next (s.arriveRed port vc k) := by
  refine congrArg Host.Outcome.next ((if_neg (by simp [Nat.not_lt.mpr hlo, Nat.not_lt.mpr hhi])).trans ?_)
  rcases hport with ⟨rfl, h0⟩ | ⟨rfl, h0, h1⟩
  · exact if_pos h0
  · exact (if_neg (Bool.eq_false_iff.mp h0)).trans (if_pos h1)

end

/-- A packet of a part that its pass has not seen is added to it (R301, R307). -/
theorem Pass.take_of_new {p : Pass} {right : Bool} {k : RedPacket} (h : k.pktIndex ∉ (if right then p.right else p.left).seen) :
    ∃ q, p.take right k = some q ∧ q.words = addEntries k.entries p.words ∧
      (if right then q.right else q.left) =
        { seen := k.pktIndex :: (if right then p.right else p.left).seen, count := some k.pktCount } := by
  have htake : (if right then p.right else p.left).take k.pktIndex k.pktCount =
      some { seen := k.pktIndex :: (if right then p.right else p.left).seen, count := some k.pktCount } :=
    if_neg (by simpa using h)
  unfold Pass.take
  rw [htake]
  refine ⟨_, rfl, rfl, ?_⟩
  cases right <;> rfl

theorem Pass.take_of_seen {p : Pass} {right : Bool} {k : RedPacket} (h : k.pktIndex ∈ (if right then p.right else p.left).seen) :
    p.take right k = none := by
  have htake : (if right then p.right else p.left).take k.pktIndex k.pktCount = none := if_pos (by simpa using h)
  unfold Pass.take
  rw [htake]

theorem State.upPacket_of_seen {d : Nat} {k : RedPacket} {ch : Chunk} {right : Bool} {p : Pass}
    (hp : (if k.pass2 then ch.second else some ch.first) = some p) (h : k.pktIndex ∈ (if right then p.right else p.left).seen) :
    s.upPacket d k ch right = s.dupDrop d := by
  unfold State.upPacket
  simp only [hp, Pass.take_of_seen h]

theorem State.upPacket_of_new {d : Nat} {k : RedPacket} {ch : Chunk} {right : Bool} {p q : Pass}
    (hp : (if k.pass2 then ch.second else some ch.first) = some p) (hq : p.take right k = some q) :
    s.upPacket d k ch right = State.advanceChunk d k.chunk
      ((s.updChunk d k.chunk fun ch => if k.pass2 then { ch with second := some q } else { ch with first := q }).updRound d
        fun r => { r with entriesSummed := r.entriesSummed + k.entries.length }) := by
  unfold State.upPacket
  simp only [hp, hq]

end

/-! ### The statement -/

theorem domainSet_takesEffect {s : State} {slot : Nat} {c : Slot} (k : Handed s slot 0x60 false c)
    (h : ∀ x ∈ (s.specDomainSet c.entry).objects, x.1 = false) :
    (s.reductionClosed = true → exec (.domainSet slot) s = .next (s.finish slot .unitClosed 0 0)) ∧
    (s.reductionClosed = false → (∀ p ∈ s.link.ports, p.held = []) → exec (.domainSet slot) s =
      .next ((s.updDom (c.arg 40 1) fun _ =>
        { state := .ready, tag := c.arg 46 2, ranks := c.arg 42 2, rank := c.arg 44 2, parent := c.arg 48 4, left := c.arg 52 4
          right := c.arg 56 4, stallBt := c.arg 60 4, nextRound := 1 }).finish slot .ok 0 0)) ∧
    (s.reductionClosed = false → ∃ t, exec (.domainSet slot) s = .next t ∧ t.domains.length = s.domains.length ∧
      ∃ d, t.slot? slot = some d ∧ d.phase = .done) := by
  refine ⟨exec_domainSet_of_closed k h, fun ho hp => ?_, fun ho => ⟨_, exec_domainSet_of_open k h ho, ?_, ?_⟩⟩
  · rw [exec_domainSet_of_open k h ho, State.deliverHeld_of_none (s := s.updDom (c.arg 40 1) fun _ => c.domainOf) hp]
    rfl
  · exact (((TablesKept.updDom _ _ s).trans (.deliverHeld _)).trans (.finish _ _ _ _ _)).domains
  · exact ((TablesKept.updDom _ _ s).trans (.deliverHeld _)).exists_done k.held 0

theorem reductionPacket_takesEffect {s : State} {port vc : Nat} {k : RedPacket} (hlo : 3 ≤ vc) (hhi : vc ≤ 6)
    (hg : s.grade.hasReduction = true)
    (hport : port = 0 ∧ s.portUsable 0 = true ∨ port = 1 ∧ s.portUsable 0 = false ∧ s.portUsable 1 = true)
    {r : Round} {ch : Chunk} (he : (s.dom (vc - 3)).state ≠ .empty) (ht : (s.dom (vc - 3)).tag = k.tag)
    (hr : (s.dom (vc - 3)).round = some r) (hn : r.num = k.round) (hd : vc - 3 < s.domains.length) {right : Bool}
    (hs : senderPart (s.dom (vc - 3)) k = some right) (hch : r.chunks.find? (·.index = k.chunk) = some ch) (hk : k.k = r.k)
    (hcc : k.chunkCount = r.chunkCount) (hcomplete : ch.complete = false) :
    let d := vc - 3
    let m := s.dom d
    let t := (s.updDom d fun m => { m with state := .reducing }).updRound d fun r => { r with lastPacket := s.bt }
    (∀ p0, k.kind = 0 → (if k.pass2 then ch.second else some ch.first) = some p0 →
      let part := if right then p0.right else p0.left
      (k.pktIndex ∈ part.seen → ∃ u, exec (.reductionPacket vc k) s = .next u ∧ u = { s with domains := u.domains } ∧
        (u.dom d).dupDrops = sat32 (m.dupDrops + 1)) ∧
      (k.pktIndex ∉ part.seen → ∃ p, p0.take right k = some p ∧ p.words = addEntries k.entries p0.words ∧
        (if right then p.right else p.left) = { seen := k.pktIndex :: part.seen, count := some k.pktCount } ∧
        exec (.reductionPacket vc k) s = .next (State.advanceChunk d k.chunk
          ((t.updChunk d k.chunk fun ch => if k.pass2 then { ch with second := some p } else { ch with first := p }).updRound d
            fun r => { r with entriesSummed := r.entriesSummed + k.entries.length })))) ∧
    (k.kind = 1 → exec (.reductionPacket vc k) s = .next (t.repassPacket d k ch)) ∧
    (k.kind = 2 → exec (.reductionPacket vc k) s = .next (t.downPacket d k ch)) := by
  intro d m t
  have hexec : k.kind ≤ 2 → exec (.reductionPacket vc k) s = .next (if k.kind = 0 then State.upPacket d k ch right t
      else if k.kind = 1 then State.repassPacket d k ch t else State.downPacket d k ch t) := fun hkind =>
    (exec_reductionPacket hlo hhi hport).trans (congrArg Host.Outcome.next
      (State.arriveRed_of_round he ht hg hr hn hs hch hk hcc hkind hcomplete))
  refine ⟨fun p0 hkind hp0 => ⟨fun hseen => ?_, fun hnew => ?_⟩, fun hkind => ?_, fun hkind => ?_⟩
  · refine ⟨t.dupDrop d, (hexec (by omega)).trans (congrArg Host.Outcome.next ((if_pos hkind).trans (State.upPacket_of_seen hp0 hseen))),
      rfl, ?_⟩
    have hlen : d < t.domains.length := by simpa [t, State.updRound, State.updDom, updAt] using hd
    have hdrops : (t.dom d).dupDrops = m.dupDrops := by
      show (State.dom (State.updDom d _ (s.updDom d _)) d).dupDrops = _
      rw [State.dom_updDom (by simpa [State.updDom, updAt] using hd), State.dom_updDom hd]
    rw [State.dupDrop_dom hlen, hdrops]
  · obtain ⟨q, hq, hwords, hpart⟩ := Pass.take_of_new hnew
    exact ⟨q, hq, hwords, hpart, (hexec (by omega)).trans (congrArg Host.Outcome.next
      ((if_pos hkind).trans (State.upPacket_of_new hp0 hq)))⟩
  · exact (hexec (by omega)).trans (congrArg Host.Outcome.next ((if_neg (by omega)).trans (if_pos hkind)))
  · exact (hexec (by omega)).trans (congrArg Host.Outcome.next ((if_neg (by omega)).trans (if_neg (by omega))))

/-- Settles O39: commands, rounds and packets by the model's equations, one lemma a case; that a DOMAIN_SET's delivery of held packets
keeps the tables, by what every step of a packet keeps. -/
theorem reductionRoundsRun : Obligations.ReductionRoundsRun := by
  unfold Obligations.ReductionRoundsRun
  refine ⟨⟨fun s slot c k _ h => domainSet_takesEffect k h, fun s slot c k h hp => ?_, fun s slot c k hid ho => ?_, fun s slot c k =>
    exec_reduce k, fun s slot d c v hc hw hv hs hr he ho hn => ?_, fun s d r hr hs => ?_, fun s d r _ hr hst hp hl hu =>
    exec_reductionStall hr hst hp hl hu⟩, fun s port vc k hlo hhi hg hport => ⟨fun h => ?_, fun he ht hr hp => ?_, fun he ht hp hr => ?_,
    fun r ch he ht hr hn hd => ⟨fun h => ?_, fun right hs hch hk hcc hcomplete =>
      reductionPacket_takesEffect hlo hhi hg hport he ht hr hn hd hs hch hk hcc hcomplete⟩⟩⟩
  · rw [exec_domainClear k h, State.deliverHeld_of_none (s := s.updDom (c.arg 40 1) fun _ => {}) hp]
    rfl
  · exact ⟨fun st h => exec_residualCreate_of_error k hid ho h, fun h hd ha => exec_residualCreate_of_held k hid ho h hd ha,
      fun h ha => residualCreate_stores k hid ho h ha⟩
  · refine ⟨?_, rfl, State.makeRound_chunks _ _ _ _⟩
    rw [exec_roundStart hc hw hv hs hr he ho hn, State.holdStore_eq]
  · refine ⟨fun h => (exec_startTick hr hs).trans ?_, fun h => (exec_startTick hr hs).trans ?_⟩ <;> rw [h] <;> rfl
  · rw [exec_reductionPacket hlo hhi hport, State.arriveRed_of_unknown h]
  · rw [exec_reductionPacket hlo hhi hport, State.arriveRed_of_future he ht hr hp]
  · exact ⟨_, (exec_reductionPacket hlo hhi hport).trans (congrArg Host.Outcome.next (State.arriveRed_of_past he ht hg hp hr)), rfl,
      State.dupDrop_dom⟩
  · obtain ⟨hcount, hrest, herr⟩ := State.mismatchDrop_has hd hr
    exact ⟨_, (exec_reductionPacket hlo hhi hport).trans (congrArg Host.Outcome.next (State.arriveRed_of_mismatch he ht hg hr hn h)), hcount,
      hrest, herr⟩

end Sys2Proof.Machine
end

section
/-! PROOF. O38: gathers, hot copies and folios take their steps (chapters 9 and 10). -/
namespace Sys2Proof.Machine

/-! ### Gathers begin (R282 to R284, R287) -/

theorem State.updSlot_updSlot {slot : Nat} {f g : Slot → Slot} (hf : ∀ c, (f c).id = c.id) (s : State) :
    (s.updSlot slot f).updSlot slot g = s.updSlot slot fun c => g (f c) := by
  have hslots : updWhere (fun c : Slot => c.id = slot) g (updWhere (fun c : Slot => c.id = slot) f s.atr.slots) =
      updWhere (fun c : Slot => c.id = slot) (fun c => g (f c)) s.atr.slots := by
    rw [updWhere, updWhere, updWhere, List.map_map]
    refine List.map_congr_left fun c _ => ?_
    by_cases h : c.id = slot <;> simp [h, hf]
  exact congrArg (fun slots => { s with atr := { s.atr with slots := slots } }) hslots

/-- A step of a gather begins with the reads of the rows that no copy serves. -/
theorem State.startStep_eq (slot id n : Nat) (h : TableHdr) (w : GatherWork) (s : State) : s.startStep slot id n h w =
    (s.updSlot slot fun d =>
      { d with phase := .running, work := .gather w
               fetch := some ((s.setWork slot (.gather w)).flashReads id n
                 (((h.stepRows w).filter fun p => !(s.gather.copies.any (·.isRow id n p.1 p.2))).map fun p =>
                   (h.rowAt p.1 p.2, h.stride (h.region p.1).2))) }).pumpFetch :=
  congrArg State.pumpFetch (State.updSlot_updSlot (f := fun c => { c with phase := .running, work := .gather w }) (fun _ => rfl) s)

section
variable {s : State} {slot op : Nat} {r : Bool} {c : Slot} {id n : Nat} {ps : List (Nat × Nat)} {v : Version}

theorem beginGather_of_version (k : Handed s slot op r c)
    (hbusy : (s.atr.slots.filter fun d => d.opcode = op && d.phase = .running).length < 8)
    (hahead : ∀ d ∈ s.atr.slots, d.opcode = op → d.phase = .handed → c.order ≤ d.order) (hpins : c.pins = (id, n) :: ps)
    (hv : s.version? id n = some v) (hi : v.impaired = false) : s.beginGather c =
      match badIndex v.tableHdr.logical ((chunksOf 8 (c.arg 48 4) (s.dataBytes c)).map leNat) with
      | some i => s.finish slot .outOfRange i 0
      | none => s.startStep slot id n v.tableHdr { indices := (chunksOf 8 (c.arg 48 4) (s.dataBytes c)).map leNat } := by
  have hnone : (s.atr.slots.any fun d => d.opcode = c.opcode && d.phase = .handed && d.order < c.order) = false := by
    refine List.any_eq_false.mpr fun d hd => ?_
    rw [k.opcode]
    simp only [Bool.and_eq_true, decide_eq_true_eq, not_and, Nat.not_lt, and_imp]
    exact hahead d hd
  unfold State.beginGather
  simp only [hpins, hv, hi, k.id_eq, hnone]
  rw [k.opcode]
  refine (if_neg (by simpa using hbusy)).trans ?_
  rfl

end

/-! ### A step of a gather ends (R284 to R286, R288, R289) -/

/-- Only the gather engine and the tiers change. -/
def GatherOnly (s t : State) : Prop := t = { s with gather := t.gather, tiers := t.tiers }

theorem GatherOnly.trans {s t u : State} (h : GatherOnly s t) (k : GatherOnly t u) : GatherOnly s u := Eq.trans k (by rw [h])

/-- What the reads of rows make of a gather's counts: its indices, position and step stay, and each row is counted once. -/
structure RowsRead (x y : GatherWork × State) (k : Nat) : Prop where
  rest : GatherOnly x.2 y.2
  indices : y.1.indices = x.1.indices
  pos : y.1.pos = x.1.pos
  steps : y.1.steps = x.1.steps
  fetched : y.1.fetched = x.1.fetched + k

theorem RowsRead.refl (x : GatherWork × State) : RowsRead x x 0 := ⟨rfl, rfl, rfl, rfl, rfl⟩

theorem RowsRead.trans {x y z : GatherWork × State} {k m : Nat} (h : RowsRead x y k) (g : RowsRead y z m) : RowsRead x z (k + m) :=
  ⟨h.rest.trans g.rest, g.indices.trans h.indices, g.pos.trans h.pos, g.steps.trans h.steps, by rw [g.fetched, h.fetched]; omega⟩

theorem State.readRow_reads (pre : Bool) (id n : Nat) (h : TableHdr) (x : GatherWork × State) (p : Nat × Nat) :
    RowsRead x (State.readRow pre id n h x p) 1 := by
  unfold State.readRow
  extract_lets w s stride off copy dram counted g served read put
  have hserved : GatherOnly s served := by
    show GatherOnly s (match copy with | some k => _ | none => _)
    cases copy with
    | some k => rfl
    | none => exact (State.touch_touchWork id n off stride s).rest.trans (by
        conv => rhs; rw [(State.touch_touchWork id n off stride s).rest])
  have hread : read.indices = w.indices ∧ read.pos = w.pos ∧ read.steps = w.steps ∧ read.fetched = w.fetched + 1 := by
    have hcounted : counted.indices = w.indices ∧ counted.pos = w.pos ∧ counted.steps = w.steps ∧ counted.fetched = w.fetched := by
      clear_value copy dram
      cases copy with
      | some k =>
        show (if _ then _ else _ : GatherWork).indices = _ ∧ (if _ then _ else _ : GatherWork).pos = _ ∧
          (if _ then _ else _ : GatherWork).steps = _ ∧ (if _ then _ else _ : GatherWork).fetched = _
        split <;> exact ⟨rfl, rfl, rfl, rfl⟩
      | none =>
        show (if _ then _ else _ : GatherWork).indices = _ ∧ (if _ then _ else _ : GatherWork).pos = _ ∧
          (if _ then _ else _ : GatherWork).steps = _ ∧ (if _ then _ else _ : GatherWork).fetched = _
        split <;> exact ⟨rfl, rfl, rfl, rfl⟩
    obtain ⟨hi, hp, hs, hf⟩ := hcounted
    exact ⟨hi, hp, hs, congrArg (· + 1) hf⟩
  clear_value served read
  obtain ⟨hi, hp, hs, hf⟩ := hread
  split
  · exact ⟨hserved.trans rfl, hi, hp, hs, hf⟩
  · split
    · exact ⟨hserved, hi, hp, hs, hf⟩
    · exact ⟨hserved.trans rfl, hi, hp, hs, hf⟩

theorem State.readRows_reads (pre : Bool) (id n : Nat) (h : TableHdr) (rows : List (Nat × Nat)) (x : GatherWork × State) :
    RowsRead x (rows.foldl (State.readRow pre id n h) x) rows.length := by
  induction rows generalizing x with
  | nil => exact .refl x
  | cons p rows ih =>
    have hrest := (State.readRow_reads pre id n h x p).trans (ih _)
    rwa [Nat.add_comm] at hrest

theorem stepLength_le (seen is : List Nat) : stepLength seen is ≤ is.length := by
  induction is generalizing seen with
  | nil => exact Nat.le_refl 0
  | cons i is ih =>
    unfold stepLength
    split
    · exact Nat.succ_le_succ (ih seen)
    · split
      · exact Nat.zero_le _
      · exact Nat.succ_le_succ (ih _)

theorem find?_map_pair {α : Type} (g : Nat → α) {l : List Nat} {i : Nat} (h : i ∈ l) :
    (l.map fun j => (j, g j)).find? (·.1 = i) = some (i, g i) := by
  induction l with
  | nil => cases h
  | cons j l ih =>
    rw [List.map_cons, List.find?_cons]
    by_cases hj : j = i
    · simp [hj]
    · simp only [hj, decide_false]
      exact ih ((List.mem_cons.mp h).resolve_left fun h' => hj h'.symm)

/-- The positions that a gather's next step writes. -/
def GatherWork.now (w : GatherWork) : List Nat := (w.indices.drop w.pos).take (stepLength [] (w.indices.drop w.pos))

theorem GatherWork.length_now (w : GatherWork) : w.now.length = stepLength [] (w.indices.drop w.pos) :=
  (List.length_take ..).trans (Nat.min_eq_left (stepLength_le _ _))

/-- What the rows of a step make of a gather and of the drive. -/
def State.stepRead (pre : Bool) (id n : Nat) (h : TableHdr) (w : GatherWork) (s : State) : GatherWork × State :=
  (h.stepRows w).foldl (State.readRow pre id n h) ({ w with pos := w.pos + stepLength [] (w.indices.drop w.pos), steps := w.steps + 1 }, s)

/-- The bytes that a step of a gather writes: a delivered row a position, whatever row of its distinct indices it is. -/
theorem flatMap_made (now : List Nat) (g : Nat → Bytes × Bool) :
    (now.flatMap fun i => match (now.eraseDups.map fun j => (j, g j)).find? (·.1 = i) with | some d => d.2.1 | none => []) =
      now.flatMap fun i => (g i).1 := by
  rw [List.flatMap_def, List.flatMap_def]
  refine congrArg List.flatten (List.map_congr_left fun i hi => ?_)
  rw [find?_map_pair g (List.mem_eraseDups.mpr hi)]

section
variable {s : State} {slot id n : Nat} {c : Slot} {ps : List (Nat × Nat)} {v : Version} {w : GatherWork}

/-- A row of the step can not be recovered. -/
def Version.stepLost (v : Version) (w : GatherWork) : Bool :=
  (v.tableHdr.stepRows w).any fun p => (v.firstLost (v.tableHdr.rowAt p.1 p.2) (v.tableHdr.stride (v.tableHdr.region p.1).2)).isSome

theorem exec_gatherStepEnd (hc : s.slot? slot = some c) (hp : c.phase = .running) (hw : c.work = .gather w) (hpins : c.pins = (id, n) :: ps)
    (hs : s.still = false) (hf : c.fetching = []) (hh : s.haltedBy (.slot slot) = false)
    (hr : c.opcode = 0x51 → s.reachable (s.ringOf c.sq) = true) (hv : s.version? id n = some v) (hi : v.impaired = false) :
    exec (.gatherStepEnd slot) s = .next (s.gatherStep c id n v w) := by
  have hring : (decide (c.opcode = 0x51) && !s.reachable (s.ringOf c.sq)) = false := by
    by_cases h : c.opcode = 0x51
    · simp [hr h]
    · simp [h]
  refine congrArg Host.Outcome.next ?_
  simp only [hc, hp, hw, hpins]
  refine (if_neg ?_).trans ?_
  · simp only [hs, hf, hh, hring]
    decide
  · simp only [hv, hi]
    rfl

theorem gatherStep_of_lost (h : v.stepLost w = true) (hop : c.opcode = 0x51) :
    s.gatherStep c id n v w = (s.impair id n).fail c.id .objectImpaired w.pos := by
  refine (if_pos h).trans ?_
  simp [hop]

theorem gatherStep_of_prefetch (h : v.stepLost w = false) (hop : c.opcode = 0x52) : s.gatherStep c id n v w =
    if w.indices.length ≤ (s.stepRead true id n v.tableHdr w).1.pos then
      (s.stepRead true id n v.tableHdr w).2.done c.id (s.stepRead true id n v.tableHdr w).1.staged
    else (s.stepRead true id n v.tableHdr w).2.startStep c.id id n v.tableHdr (s.stepRead true id n v.tableHdr w).1 := by
  refine (if_neg (Bool.eq_false_iff.mp h)).trans ?_
  simp only [hop, decide_true, if_true]
  rfl

/-- The gather after a step whose rows it delivered: it has met a NaN where one of them has. -/
def GatherWork.delivered (w : GatherWork) (v : Version) (form : Nat) (x : GatherWork) : GatherWork :=
  { x with nan := w.nan || (w.now.eraseDups.map fun i => (i, v.tableHdr.deliver v form i)).any fun d => d.2.2 }

theorem gatherStep_of_gather (h : v.stepLost w = false) (hop : c.opcode = 0x51) : s.gatherStep c id n v w =
    if w.indices.length ≤ (s.stepRead false id n v.tableHdr w).1.pos then
      (((s.stepRead false id n v.tableHdr w).2.writeResult c (w.pos * v.tableHdr.rowBytes (c.arg 46 1))
        (w.now.flatMap fun i => (v.tableHdr.deliver v (c.arg 46 1) i).1)).writeResult c
          ((s.stepRead false id n v.tableHdr w).1.pos * v.tableHdr.rowBytes (c.arg 46 1))
          (w.delivered v (c.arg 46 1) (s.stepRead false id n v.tableHdr w).1).record).done c.id (s.stepRead false id n v.tableHdr w).1.pos
    else ((s.stepRead false id n v.tableHdr w).2.writeResult c (w.pos * v.tableHdr.rowBytes (c.arg 46 1))
        (w.now.flatMap fun i => (v.tableHdr.deliver v (c.arg 46 1) i).1)).startStep c.id id n v.tableHdr
          (w.delivered v (c.arg 46 1) (s.stepRead false id n v.tableHdr w).1) := by
  rw [← flatMap_made w.now]
  refine (if_neg (Bool.eq_false_iff.mp h)).trans ?_
  simp only [hop]
  rfl

/-- A step of a gather ends as O38 states it. -/
theorem gatherStepEnd_takesEffect (hc : s.slot? slot = some c) (hp : c.phase = .running) (hw : c.work = .gather w)
    (hpins : c.pins = (id, n) :: ps) (hs : s.still = false) (hf : c.fetching = []) (hh : s.haltedBy (.slot slot) = false)
    (hr : c.opcode = 0x51 → s.reachable (s.ringOf c.sq) = true) (hv : s.version? id n = some v) (hi : v.impaired = false) :
    let h := v.tableHdr
    let now := (w.indices.drop w.pos).take (stepLength [] (w.indices.drop w.pos))
    let rows := (now.eraseDups.flatMap h.rowsOf).eraseDups
    let size := h.rowBytes (c.arg 46 1)
    (rows.all (fun p => (v.firstLost (h.rowAt p.1 p.2) (h.stride (h.region p.1).2)).isNone) = true → ∃ (u : State) (k : GatherWork),
      u = { s with gather := u.gather, tiers := u.tiers } ∧ k.indices = w.indices ∧ k.pos = w.pos + now.length ∧
      k.steps = w.steps + 1 ∧ k.fetched = w.fetched + rows.length ∧
      (c.opcode = 0x51 → k.pos < w.indices.length → exec (.gatherStepEnd slot) s =
        .next ((u.writeResult c (w.pos * size) (now.flatMap fun i => (h.deliver v (c.arg 46 1) i).1)).startStep slot id n h k)) ∧
      (c.opcode = 0x51 → w.indices.length ≤ k.pos → exec (.gatherStepEnd slot) s =
        .next (((u.writeResult c (w.pos * size) (now.flatMap fun i => (h.deliver v (c.arg 46 1) i).1)).writeResult c
          (k.pos * size) k.record).finish slot .ok k.pos 0)) ∧
      (c.opcode = 0x52 → w.indices.length ≤ k.pos → exec (.gatherStepEnd slot) s = .next (u.finish slot .ok k.staged 0)) ∧
      (c.opcode = 0x52 → k.pos < w.indices.length → exec (.gatherStepEnd slot) s = .next (u.startStep slot id n h k))) ∧
    (rows.any (fun p => (v.firstLost (h.rowAt p.1 p.2) (h.stride (h.region p.1).2)).isSome) = true → c.opcode = 0x51 →
      exec (.gatherStepEnd slot) s = .next ((s.impair id n).finish slot .objectImpaired w.pos 0)) := by
  have hexec := exec_gatherStepEnd hc hp hw hpins hs hf hh hr hv hi
  have hid : c.id = slot := by simpa using List.find?_some hc
  intro h now rows size
  refine ⟨fun hall => ?_, fun hlost hop => ?_⟩
  · have hwhole : v.stepLost w = false := by
      refine List.any_eq_false.mpr fun p hp => ?_
      rw [Option.isNone_iff_eq_none.mp (List.all_eq_true.mp hall p hp)]
      decide
    have hreads := fun pre => State.readRows_reads pre id n v.tableHdr (v.tableHdr.stepRows w)
      ({ w with pos := w.pos + stepLength [] (w.indices.drop w.pos), steps := w.steps + 1 }, s)
    have hpos : ∀ pre, (s.stepRead pre id n v.tableHdr w).1.pos = w.pos + now.length := fun pre =>
      (hreads pre).pos.trans (congrArg (w.pos + ·) w.length_now.symm)
    by_cases hop : c.opcode = 0x51
    · refine ⟨(s.stepRead false id n v.tableHdr w).2, w.delivered v (c.arg 46 1) (s.stepRead false id n v.tableHdr w).1,
        (hreads false).rest, (hreads false).indices, hpos false, (hreads false).steps, (hreads false).fetched, fun _ hlt => ?_,
        fun _ hle => ?_, fun hop' => absurd (hop.symm.trans hop') (by decide), fun hop' => absurd (hop.symm.trans hop') (by decide)⟩
      · rw [hexec, gatherStep_of_gather hwhole hop, hid]
        exact congrArg Host.Outcome.next (if_neg (Nat.not_le.mpr hlt))
      · rw [hexec, gatherStep_of_gather hwhole hop, hid]
        exact congrArg Host.Outcome.next (if_pos hle)
    · refine ⟨(s.stepRead true id n v.tableHdr w).2, (s.stepRead true id n v.tableHdr w).1, (hreads true).rest, (hreads true).indices,
        hpos true, (hreads true).steps, (hreads true).fetched, fun hop' => absurd hop' hop, fun hop' => absurd hop' hop,
        fun hop' hle => ?_, fun hop' hlt => ?_⟩
      · rw [hexec, gatherStep_of_prefetch hwhole hop', hid]
        exact congrArg Host.Outcome.next (if_pos hle)
      · rw [hexec, gatherStep_of_prefetch hwhole hop', hid]
        exact congrArg Host.Outcome.next (if_neg (Nat.not_le.mpr hlt))
  · rw [hexec, gatherStep_of_lost hlost hop, hid]
    rfl

end

/-! ### The hot region (R288, R289) -/

theorem exec_hotDecay {s : State} (h : s.gather.decayed + 1000000 ≤ s.bt) : exec .hotDecay s = .next { s with gather := { s.gather with
    decayed := s.gather.decayed + 1000000, tracker := s.gather.tracker.map fun t => { t with count := t.count / 2 } } } :=
  congrArg Host.Outcome.next (if_pos (by simpa [State.elapsed] using h))

/-- A copy whose protection is over has none. -/
def HotCopy.expired (now : Nat) (c : HotCopy) : HotCopy := if c.guarded now then c else { c with guardUntil := none }

theorem HotCopy.expired_row (now : Nat) (c : HotCopy) :
    ((c.expired now).table, (c.expired now).ver, (c.expired now).comp, (c.expired now).row, (c.expired now).bytes) =
      (c.table, c.ver, c.comp, c.row, c.bytes) := by
  unfold HotCopy.expired
  split <;> rfl

theorem HotCopy.lt_of_expired {now g : Nat} {c : HotCopy} (h : (c.expired now).guardUntil = some g) : now < g := by
  unfold HotCopy.expired at h
  split at h
  · next hg => simpa [HotCopy.guarded, h] using hg
  · cases h

theorem prefetchProtectExpiry_takesEffect (s : State) : ∃ t, exec .prefetchProtectExpiry s = .next t ∧
    t = { s with gather := { s.gather with copies := t.gather.copies } } ∧
    t.gather.copies.map (fun c => (c.table, c.ver, c.comp, c.row, c.bytes)) =
      s.gather.copies.map (fun c => (c.table, c.ver, c.comp, c.row, c.bytes)) ∧
    ∀ c ∈ t.gather.copies, ∀ g, c.guardUntil = some g → s.bt < g := by
  refine ⟨{ s with gather := { s.gather with copies := s.gather.copies.map (HotCopy.expired s.bt) } }, rfl, rfl, ?_, fun c hc g hg => ?_⟩
  · refine (List.map_map ..).trans (List.map_congr_left fun c _ => HotCopy.expired_row s.bt c)
  · obtain ⟨d, -, rfl⟩ := List.mem_map.mp hc
    exact HotCopy.lt_of_expired hg

theorem gather_begins {s : State} {slot op : Nat} {r : Bool} {c : Slot} {id n : Nat} {ps : List (Nat × Nat)} {v : Version}
    {i : Instr} (hi : exec i s = .next (s.beginGather c)) (k : Handed s slot op r c)
    (hbusy : (s.atr.slots.filter fun d => d.opcode = op && d.phase = .running).length < 8)
    (hahead : ∀ d ∈ s.atr.slots, d.opcode = op → d.phase = .handed → c.order ≤ d.order) (hpins : c.pins = (id, n) :: ps)
    (hv : s.version? id n = some v) (him : v.impaired = false) :
    let ws := (chunksOf 8 (c.arg 48 4) (s.dataBytes c)).map leNat
    (∀ p, badIndex v.tableHdr.logical ws = some p → exec i s = .next (s.finish slot .outOfRange p 0)) ∧
    (badIndex v.tableHdr.logical ws = none → exec i s = .next (s.startStep slot id n v.tableHdr { indices := ws })) := by
  intro ws
  have hexec := hi.trans (congrArg Host.Outcome.next (beginGather_of_version k hbusy hahead hpins hv him))
  exact ⟨fun p hp => by rw [hexec, hp], fun hp => by rw [hexec, hp]⟩

/-- The gathers, hot copies and protections of O38. -/
theorem gathers_takeEffect : (∀ r ∈ ([(Instr.gather, 0x51, true), (Instr.gatherPrefetch, 0x52, false)] : List ((Nat → Instr) × Nat × Bool)),
    ∀ (s : State) (slot : Nat) (c : Slot) (id n : Nat) (ps : List (Nat × Nat)) (v : Version), Handed s slot r.2.1 r.2.2 c →
    (s.atr.slots.filter fun d => d.opcode = r.2.1 && d.phase = .running).length < 8 →
    (∀ d ∈ s.atr.slots, d.opcode = r.2.1 → d.phase = .handed → c.order ≤ d.order) →
    c.pins = (id, n) :: ps → s.version? id n = some v → v.impaired = false →
    let ws := (chunksOf 8 (c.arg 48 4) (s.dataBytes c)).map leNat
    (∀ i, badIndex v.tableHdr.logical ws = some i → exec (r.1 slot) s = .next (s.finish slot .outOfRange i 0)) ∧
    (badIndex v.tableHdr.logical ws = none → exec (r.1 slot) s = .next (s.startStep slot id n v.tableHdr { indices := ws }))) := by
  intro r hr s slot c id n ps v k hbusy hahead hpins hv hi
  rcases List.mem_cons.mp hr with rfl | hr
  · exact gather_begins (i := .gather slot) (congrArg Host.Outcome.next (k.run _)) k hbusy hahead hpins hv hi
  · obtain rfl := List.mem_singleton.mp hr
    exact gather_begins (i := .gatherPrefetch slot) (congrArg Host.Outcome.next (k.run _)) k hbusy hahead hpins hv hi

end Sys2Proof.Machine
end

section
/-! PROOF. O38: folios are created, appended to, truncated, attended and reloaded (chapter 9). -/
namespace Sys2Proof.Machine

/-! ### The header (Table 9-2) -/

/-- The fields of a folio's header. -/
def FolioHdr.head (f : FolioHdr) : Bytes :=
  leBytes 4 0x494C4F46 ++ leBytes 2 1 ++ leBytes 2 f.layers ++ leBytes 1 f.heads
    ++ leBytes 1 (f.kf + 16 * f.vf) ++ leBytes 1 (f.group + 4 * f.enc + 8 * bit01 f.nan) ++ zeroBytes 1 ++ leBytes 2 f.dim
    ++ zeroBytes 2 ++ leBytes 4 f.blocks ++ leBytes 4 f.tokens ++ leBytes 4 f.blockBytes ++ zeroBytes 4 ++ leBytes 8 65536
    ++ leBytes 8 f.openOff ++ leBytes 8 f.size

theorem length_zeroBytes (n : Nat) : (zeroBytes n).length = n := List.length_replicate

theorem FolioHdr.length_head (f : FolioHdr) : f.head.length = 56 := by
  simp only [FolioHdr.head, List.length_append, length_leBytes, length_zeroBytes]

theorem FolioHdr.bytes_eq (f : FolioHdr) : f.bytes = f.head ++ zeroBytes 4040 := by
  show f.head.take 4096 ++ zeroBytes (4096 - f.head.length) = _
  rw [List.take_of_length_le (by rw [f.length_head]; decide), f.length_head]

theorem FolioHdr.length_bytes (f : FolioHdr) : f.bytes.length = 4096 := by
  rw [f.bytes_eq, List.length_append, f.length_head, length_zeroBytes]

theorem FolioHdr.fields (f : FolioHdr) : field f.bytes 0 4 = 0x494C4F46 ∧ field f.bytes 6 2 = f.layers % 65536 ∧
    field f.bytes 8 1 = f.heads % 256 ∧ field f.bytes 12 2 = f.dim % 65536 ∧ field f.bytes 16 4 = f.blocks % 2 ^ 32 ∧
    field f.bytes 20 4 = f.tokens % 2 ^ 32 := by
  simp only [f.bytes_eq, FolioHdr.head, List.append_assoc]
  refine ⟨field_leBytes_append _ _ _, ?_, ?_, ?_, ?_, ?_⟩ <;>
    simp [field_append_of_le, field_leBytes_append, length_zeroBytes]

/-! ### FOLIO_CREATE (R253, R254) -/

section
variable {s : State} {slot : Nat} {c : Slot} (k : Handed s slot 0x58 true c) (hid : s.idHeld (c.arg 40 4) = false)
  (hmany : (s.tiers.objects.filter fun o => o.kind = 5).length < 16777216)
include k hid hmany

theorem exec_folioCreate_of_error {st : Status} (h : s.createError 5 (folioOfArgs c.entry).size (c.arg 47 1 / 4 % 4)
    (s.classOf 5 (c.arg 47 1 % 4) (c.arg 47 1 / 4 % 4)) = some st) : exec (.folioCreate slot) s = .next (s.finish slot st 0 0) := by
  refine congrArg Host.Outcome.next ((k.run _).trans ?_)
  simp only [State.doFolioCreate, hid, Nat.not_le.mpr hmany, h, k.id_eq, Bool.false_eq_true, if_false]
  rfl

variable (h : s.createError 5 (folioOfArgs c.entry).size (c.arg 47 1 / 4 % 4)
  (s.classOf 5 (c.arg 47 1 % 4) (c.arg 47 1 / 4 % 4)) = none)
include h

theorem exec_folioCreate_of_held (hd : s.classOf 5 (c.arg 47 1 % 4) (c.arg 47 1 / 4 % 4) = true) (ha : s.admitsDirty 4096 = false) :
    exec (.folioCreate slot) s = .next (s.setWork slot (.held 4096)) := by
  refine congrArg Host.Outcome.next ((k.run _).trans ?_)
  simp only [State.doFolioCreate, hid, Nat.not_le.mpr hmany, h, k.id_eq, Bool.false_eq_true, if_false]
  refine if_pos (Bool.and_eq_true_iff.mpr ⟨hd, ?_⟩)
  rw [Bool.not_eq_true']
  exact ha

theorem folioCreate_stores (ha : s.classOf 5 (c.arg 47 1 % 4) (c.arg 47 1 / 4 % 4) = true → s.admitsDirty 4096 = true) :
    ∃ (t : State) (o : Obj) (v : Version), exec (.folioCreate slot) s =
      .next ((t.writeResult c 0 (leBytes 8 o.base ++ leBytes 8 (folioOfArgs c.entry).size)).ackWrite slot o false
        (pageList (c.arg 40 4) 1 0 4096) 0) ∧
      t.obj? (c.arg 40 4) = some o ∧ o.kind = 5 ∧ o.size = (folioOfArgs c.entry).size ∧
      o.durable = s.classOf 5 (c.arg 47 1 % 4) (c.arg 47 1 / 4 % 4) ∧ o.versions = [v] ∧ v.num = 1 ∧
      v.state = .current ∧ v.data = memWrite [] 0 (folioOfArgs c.entry).bytes ∧ (∃ d ∈ v.dirty, d.page = 0) := by
  have hheld : (s.chargeBytes (s.classOf 5 (c.arg 47 1 % 4) (c.arg 47 1 / 4 % 4)) 4096).idHeld (c.arg 40 4) = false := by
    rw [State.idHeld, State.chargeBytes_objects]
    exact hid
  obtain ⟨hfound, v, hv, hstate, hdata, hdirty⟩ := State.createWith_has (kind := 5) (size := (folioOfArgs c.entry).size)
    (durable := s.classOf 5 (c.arg 47 1 % 4) (c.arg 47 1 / 4 % 4)) hheld (c.arg 47 1 / 4 % 4) (folioOfArgs c.entry).bytes
  obtain ⟨o, hobj, hkind, hsize, hdurable, hversions, hnum⟩ := hfound.created hv
  have hpage : 0 ∈ pagesOf 0 (folioOfArgs c.entry).bytes.length := by
    rw [FolioHdr.length_bytes]
    decide
  refine ⟨_, o, v, ?_, hobj, hkind, hsize, hdurable, hversions, hnum, hstate, hdata, hdirty 0 hpage⟩
  refine congrArg Host.Outcome.next ((k.run _).trans ?_)
  simp only [State.doFolioCreate, hid, Nat.not_le.mpr hmany, h, k.id_eq, Bool.false_eq_true, if_false]
  refine (if_neg ?_).trans ?_
  · rw [Bool.and_eq_true_iff, Bool.not_eq_true']
    rintro ⟨hd, hn⟩
    exact absurd (ha hd) (Bool.eq_false_iff.mp hn)
  · simp only [State.createWith, State.chargeBytes] at hobj ⊢
    simp only [hobj]

end

/-! ### Jobs of the services -/

/-- A job without a program is admitted last, and nothing else changes but the scheduler. -/
theorem State.admitJob_last (c : Slot) (kind : JobKind) (need : Nat) (s : State) :
    ∃ j, (s.admitJob c kind need fun j => j).sched.jobs.getLast? = some j ∧ j.kind = kind ∧ j.need = need ∧ j.client = c.client ∧
      j.slot = c.id := by
  refine ⟨(s.newJob c kind need fun j => j).1.noteShort s.bt (clustersLeft s.units), ?_, rfl, rfl, rfl, rfl⟩
  show ((s.sched.jobs ++ [_]).map _).getLast? = _
  rw [List.map_append, List.map_singleton, List.getLast?_concat]
  rfl

theorem State.admitJob_atr (c : Slot) (kind : JobKind) (need : Nat) (s : State) : (s.admitJob c kind need fun j => j).atr = s.atr := rfl

/-! ### Commands on the version they hold -/

section
variable {s : State} {c : Slot} {id n : Nat} {ps : List (Nat × Nat)} {o : Obj} {v : Version}

theorem State.folioRun_of_version (hpins : c.pins = (id, n) :: ps) (hv : s.version? id n = some v) (hi : v.impaired = false)
    (f : Nat → Nat → Version → State) : s.folioRun c f = f id n v := by
  unfold State.folioRun
  simp only [hpins, hv, hi]
  rfl

theorem Version.written_data (v : Version) (off : Nat) (bs : Bytes) : (v.written_ off bs).data = memWrite v.data off bs := rfl

theorem State.writeRanges_version (hv : s.version? id n = some v) (rs : List (Nat × Nat)) (m : Mem) :
    ∃ x, (s.writeRanges id n rs m).version? id n = some x ∧
      x.data = rs.foldl (fun d r => memWrite d r.1 (memRead m r.1 r.2)) v.data := by
  induction rs generalizing s v with
  | nil => exact ⟨v, hv, rfl⟩
  | cons r rs ih =>
    obtain ⟨w, hw, hrest, -⟩ := (State.writeVersion_writesTo hv r.1 (memRead m r.1 r.2)).version
    obtain ⟨x, hx, hdata⟩ := ih hw
    refine ⟨x, hx, hdata.trans ?_⟩
    rw [hrest]
    rfl

theorem State.version?_of_ver? (ho : s.tiers.objects.find? (·.id = id) = some o) (hv : o.ver? n = some v) : s.version? id n = some v := by
  rw [State.version?, ho]
  exact hv

/-- A write that is not protected is of an object that is volatile, or of a drive that is not. -/
theorem not_protected (h : o.durable = false ∨ s.protected = false) : (o.durable && s.protected) = false := by
  rcases h with h | h <;> simp [h]

theorem not_held {b : Bool} {m : Nat} (h : b = true → s.admitsDirty m = true) : (b && !s.admitsDirty m) = false := by
  cases b
  · rfl
  · simp [h rfl]

variable {slot : Nat}

/-! ### FOLIO_APPEND (R258, R259) -/

section
variable (k : Handed s slot 0x59 false c) (hpins : c.pins = (id, n) :: ps) (ho : s.tiers.objects.find? (·.id = id) = some o)
  (hv : o.ver? n = some v) (hi : v.impaired = false)
include k hpins ho hv hi

theorem exec_folioAppend : exec (.folioAppend slot) s = .next (
    if 128 * v.folioHdr.blocks < v.folioHdr.tokens + c.arg 48 4 then s.finish slot .outOfRange 0 0
    else if o.durable && s.protected then s.finish slot .writeProtected 0 0
    else if (v.folioHdr.tokens + c.arg 48 4) / 128 = v.folioHdr.tokens / 128 then s.appendTokens c
    else (s.admitJob c .seal 1 fun j => j).setWork slot (.folio (v.folioHdr.tokens + c.arg 48 4))) := by
  refine congrArg Host.Outcome.next ((k.run _).trans ?_)
  rw [State.folioRun_of_version hpins (State.version?_of_ver? ho hv) hi]
  simp only [ho]
  rfl

theorem exec_folioAppend_of_range (h : 128 * v.folioHdr.blocks < v.folioHdr.tokens + c.arg 48 4) :
    exec (.folioAppend slot) s = .next (s.finish slot .outOfRange 0 0) := by
  rw [exec_folioAppend k hpins ho hv hi, if_pos h]

variable (hr : v.folioHdr.tokens + c.arg 48 4 ≤ 128 * v.folioHdr.blocks) (hp : o.durable = false ∨ s.protected = false)
include hr hp

theorem exec_folioAppend_of_open (hb : (v.folioHdr.tokens + c.arg 48 4) / 128 = v.folioHdr.tokens / 128) :
    exec (.folioAppend slot) s = .next (s.appendTokens c) := by
  rw [exec_folioAppend k hpins ho hv hi, if_neg (Nat.not_lt.mpr hr), if_neg (Bool.eq_false_iff.mp (not_protected hp)), if_pos hb]

theorem folioAppend_seals (hb : (v.folioHdr.tokens + c.arg 48 4) / 128 ≠ v.folioHdr.tokens / 128) :
    ∃ (t : State) (j : Job), exec (.folioAppend slot) s = .next t ∧
      t.slot? slot = some { c with phase := .running, work := .folio (v.folioHdr.tokens + c.arg 48 4) } ∧
      t.sched.jobs.getLast? = some j ∧ j.kind = .seal ∧ j.client = c.client ∧ j.slot = slot := by
  obtain ⟨j, hj, hkind, -, hclient, hslot⟩ := State.admitJob_last c .seal 1 s
  refine ⟨_, j, ?_, State.slot?_setWork (s := s.admitJob c .seal 1 fun j => j) _ k.held, hj, hkind, hclient, hslot.trans k.id_eq⟩
  rw [exec_folioAppend k hpins ho hv hi, if_neg (Nat.not_lt.mpr hr), if_neg (Bool.eq_false_iff.mp (not_protected hp)), if_neg hb]

end

theorem appendTokens_of_held (k : Handed s slot 0x59 false c) (hpins : c.pins = (id, n) :: ps)
    (ho : s.tiers.objects.find? (·.id = id) = some o) (hv : o.ver? n = some v) (hd : o.durable = true)
    (ha : s.admitsDirty (4096 * ((v.folioHdr.appendPages id n (c.arg 48 4)).length + 1)) = false) : s.appendTokens c =
      s.setWork slot (.held (4096 * ((v.folioHdr.appendPages id n (c.arg 48 4)).length + 1))) := by
  unfold State.appendTokens
  simp only [hpins, ho, State.version?_of_ver? ho hv, k.id_eq]
  exact if_pos (by simp [hd, ha])

/-- The header with the tokens of an append. -/
def FolioHdr.grown (f : FolioHdr) (count : Nat) (data : Bytes) : FolioHdr :=
  { f with tokens := f.tokens + count, nan := f.nan || anyNanBf16 data }

theorem State.chargeBytes_dataBytes (durable : Bool) (m : Nat) (c : Slot) (s : State) :
    (s.chargeBytes durable m).dataBytes c = s.dataBytes c := by
  unfold State.chargeBytes
  split <;> rfl

/-- The tokens of an append are in its folio. -/
def State.tokensWritten (c : Slot) (o : Obj) (id n : Nat) (v : Version) (s : State) : State :=
  (s.chargeBytes o.durable (4096 * ((v.folioHdr.appendPages id n (c.arg 48 4)).length + 1))).writeRanges id n
    (v.folioHdr.appendRanges (c.arg 48 4)) (v.folioHdr.appended (c.arg 48 4) (s.dataBytes c) v.data)

theorem appendTokens_of_room (k : Handed s slot 0x59 false c) (hpins : c.pins = (id, n) :: ps)
    (ho : s.tiers.objects.find? (·.id = id) = some o) (hv : o.ver? n = some v)
    (ha : o.durable = true → s.admitsDirty (4096 * ((v.folioHdr.appendPages id n (c.arg 48 4)).length + 1)) = true) : s.appendTokens c =
      if (s.tokensWritten c o id n v).writesThrough o then
        (s.tokensWritten c o id n v).awaitFlash slot (v.folioHdr.appendPages id n (c.arg 48 4)) [] []
          ((s.tokensWritten c o id n v).journalsFirst o) (v.folioHdr.tokens + c.arg 48 4)
      else ((s.tokensWritten c o id n v).writeVersion id n 0 ((v.folioHdr.grown (c.arg 48 4) (s.dataBytes c)).bytes.take 64)).ackWrite
        slot o false ((id, n, 0) :: v.folioHdr.appendPages id n (c.arg 48 4)) (v.folioHdr.tokens + c.arg 48 4) := by
  have hid : o.id = id := by simpa using List.find?_some ho
  unfold State.appendTokens State.tokensWritten
  simp only [hpins, ho, State.version?_of_ver? ho hv, k.id_eq]
  generalize 4096 * ((v.folioHdr.appendPages id n (c.arg 48 4)).length + 1) = m at ha ⊢
  refine (if_neg (Bool.eq_false_iff.mp (not_held ha))).trans ?_
  simp only [State.writeTokens, hid, k.id_eq]
  rw [← State.chargeBytes, State.chargeBytes_dataBytes]
  rfl

/-- The tokens and the new header that an append leaves in its folio. -/
theorem tokensWritten_has (ho : s.tiers.objects.find? (·.id = id) = some o) (hv : o.ver? n = some v) :
    ∃ x y, (s.tokensWritten c o id n v).version? id n = some x ∧
      ((s.tokensWritten c o id n v).writeVersion id n 0 ((v.folioHdr.grown (c.arg 48 4) (s.dataBytes c)).bytes.take 64)).version? id n = some y ∧
      x.data = (v.folioHdr.appendRanges (c.arg 48 4)).foldl (fun m r =>
        memWrite m r.1 (memRead (v.folioHdr.appended (c.arg 48 4) (s.dataBytes c) v.data) r.1 r.2)) v.data ∧
      y.data = memWrite x.data 0 ((v.folioHdr.grown (c.arg 48 4) (s.dataBytes c)).bytes.take 64) := by
  unfold State.tokensWritten
  generalize 4096 * ((v.folioHdr.appendPages id n (c.arg 48 4)).length + 1) = m
  generalize (v.folioHdr.grown (c.arg 48 4) (s.dataBytes c)).bytes.take 64 = head
  have hcharged : (s.chargeBytes o.durable m).version? id n = some v := by
    rw [State.version?_of_objects (State.chargeBytes_objects _ _ s)]
    exact State.version?_of_ver? ho hv
  obtain ⟨x, hx, hdata⟩ := State.writeRanges_version hcharged (v.folioHdr.appendRanges (c.arg 48 4))
    (v.folioHdr.appended (c.arg 48 4) (s.dataBytes c) v.data)
  obtain ⟨y, hy, hrest, -⟩ := (State.writeVersion_writesTo hx 0 head).version
  exact ⟨x, y, hx, hy, hdata, (congrArg Version.data hrest).trans (Version.written_data x 0 head)⟩

/-! ### FOLIO_TRUNCATE (R260) -/

section
variable (k : Handed s slot 0x5C false c) (hpins : c.pins = (id, n) :: ps) (ho : s.tiers.objects.find? (·.id = id) = some o)
  (hv : o.ver? n = some v) (hi : v.impaired = false)
include k hpins ho hv hi

theorem exec_folioTruncate : exec (.folioTruncate slot) s = .next (
    if c.arg 48 4 = 0 || v.folioHdr.tokens < c.arg 48 4 || (c.arg 48 4 % 128 ≠ 0 && c.arg 48 4 < v.folioHdr.tokens / 128 * 128) then
      s.finish slot .invalidField 48 0
    else if o.durable && s.protected then s.finish slot .writeProtected 0 0 else s.truncate c) := by
  refine congrArg Host.Outcome.next ((k.run _).trans ?_)
  rw [State.folioRun_of_version hpins (State.version?_of_ver? ho hv) hi]
  simp only [ho]
  rfl

theorem exec_folioTruncate_of_range (h : v.folioHdr.tokens < c.arg 48 4) :
    exec (.folioTruncate slot) s = .next (s.finish slot .invalidField 48 0) := by
  rw [exec_folioTruncate k hpins ho hv hi, if_pos (by simp [h])]

theorem folioTruncate_lowers (h0 : 0 < c.arg 48 4) (hle : c.arg 48 4 ≤ v.folioHdr.tokens)
    (hb : c.arg 48 4 % 128 = 0 ∨ v.folioHdr.tokens / 128 * 128 ≤ c.arg 48 4) (hp : o.durable = false ∨ s.protected = false)
    (ha : o.durable = true → s.admitsDirty 4096 = true) : ∃ (t : State) (x : Version),
      exec (.folioTruncate slot) s = .next (t.ackWrite slot o false [(id, n, 0)] (c.arg 48 4)) ∧ t.version? id n = some x ∧
      x.data = memWrite v.data 20 (leBytes 4 (c.arg 48 4)) := by
  have hcharged : (s.chargeBytes o.durable 4096).version? id n = some v := by
    rw [State.version?_of_objects (State.chargeBytes_objects _ _ s)]
    exact State.version?_of_ver? ho hv
  obtain ⟨x, hx, hrest, -⟩ := (State.writeVersion_writesTo hcharged 20 (leBytes 4 (c.arg 48 4))).version
  refine ⟨_, x, ?_, hx, by rw [hrest]; rfl⟩
  rw [exec_folioTruncate k hpins ho hv hi, if_neg ?_, if_neg (Bool.eq_false_iff.mp (not_protected hp))]
  · unfold State.truncate
    simp only [hpins, ho, k.id_eq]
    exact congrArg Host.Outcome.next (if_neg (Bool.eq_false_iff.mp (not_held ha)))
  · simp only [Bool.or_eq_true, Bool.and_eq_true, decide_eq_true_eq]
    omega

end

/-! ### FOLIO_ATTEND and FOLIO_RELOAD (R262, R268, R269) -/

theorem State.touchAll_touchWork (id n : Nat) (rs : List (Nat × Nat)) (s : State) : TouchWork s (s.touchAll id n rs) := by
  unfold State.touchAll
  exact TouchWork.foldl (fun t r => State.touch_touchWork id n r.1 r.2 t) rs s

section
variable (k : Handed s slot 0x5A true c) (hpins : c.pins = (id, n) :: ps) (hv : s.version? id n = some v) (hi : v.impaired = false)
include k hpins hv hi

theorem exec_folioAttend : exec (.folioAttend slot) s = .next (
    if v.folioHdr.tokens < c.arg 52 4 + c.arg 56 4 then s.finish slot .outOfRange 0 0
    else if 64 ≤ s.attendsRunning then s
    else if (s.flashReads id n (v.folioHdr.reads c)).isEmpty then s.attendJob c id n v
    else s.startReads slot (s.flashReads id n (v.folioHdr.reads c))) := by
  refine congrArg Host.Outcome.next ((k.run _).trans ?_)
  rw [State.folioRun_of_version hpins hv hi]
  rfl

theorem exec_folioAttend_of_range (h : v.folioHdr.tokens < c.arg 52 4 + c.arg 56 4) :
    exec (.folioAttend slot) s = .next (s.finish slot .outOfRange 0 0) := by
  rw [exec_folioAttend k hpins hv hi, if_pos h]

variable (hr : c.arg 52 4 + c.arg 56 4 ≤ v.folioHdr.tokens) (hn : s.attendsRunning < 64)
include hr hn

theorem exec_folioAttend_of_reads (h : s.flashReads id n (v.folioHdr.reads c) ≠ []) : exec (.folioAttend slot) s =
    .next (s.startReads slot (s.flashReads id n (v.folioHdr.reads c))) := by
  rw [exec_folioAttend k hpins hv hi, if_neg (Nat.not_lt.mpr hr), if_neg (Nat.not_le.mpr hn), if_neg (by simpa using h)]

theorem folioAttend_runs (h : s.flashReads id n (v.folioHdr.reads c) = []) : ∃ (t : State) (j : Job),
    exec (.folioAttend slot) s = .next t ∧ t.slot? slot = some { c with phase := .running, work := .folio 0 } ∧
      t.sched.jobs.getLast? = some j ∧ j.kind = .attend ∧ j.need = s.attention.clusters ∧ j.client = c.client ∧ j.slot = slot := by
  obtain ⟨j, hj, hkind, hneed, hclient, hslot⟩ := State.admitJob_last c .attend s.attention.clusters (s.touchAll id n (v.folioHdr.reads c))
  have hheld : ((s.touchAll id n (v.folioHdr.reads c)).admitJob c .attend s.attention.clusters fun j => j).slot? slot = some c := by
    rw [State.slot?, State.admitJob_atr, (State.touchAll_touchWork id n (v.folioHdr.reads c) s).rest]
    exact k.held
  refine ⟨s.attendJob c id n v, j, ?_, ?_, hj, hkind, hneed, hclient, hslot.trans k.id_eq⟩
  · rw [exec_folioAttend k hpins hv hi, if_neg (Nat.not_lt.mpr hr), if_neg (Nat.not_le.mpr hn), if_pos (by simpa using h)]
  · unfold State.attendJob
    have hset := State.slot?_setWork (.folio 0) hheld
    rwa [← k.id_eq] at hset ⊢

end

section
variable (k : Handed s slot 0x5B true c) (hpins : c.pins = (id, n) :: ps) (hv : s.version? id n = some v) (hi : v.impaired = false)
include k hpins hv hi

theorem exec_folioReload : exec (.folioReload slot) s = .next (
    if v.folioHdr.tokens < c.arg 52 4 + c.arg 56 4 then s.finish slot .outOfRange 0 0
    else if c.arg 50 1 = 1 && v.folioHdr.tokens / 128 * 128 < c.arg 52 4 + c.arg 56 4 then s.finish slot .invalidField 56 0
    else if 64 ≤ s.attendsRunning then s
    else if (s.flashReads id n (v.folioHdr.reads c)).isEmpty then s.reload c id n v
    else s.startReads slot (s.flashReads id n (v.folioHdr.reads c))) := by
  refine congrArg Host.Outcome.next ((k.run _).trans ?_)
  rw [State.folioRun_of_version hpins hv hi]
  rfl

variable (hr : c.arg 52 4 + c.arg 56 4 ≤ v.folioHdr.tokens)
  (hstored : c.arg 50 1 = 1 → c.arg 52 4 + c.arg 56 4 ≤ v.folioHdr.tokens / 128 * 128) (hn : s.attendsRunning < 64)
include hr hstored hn

theorem exec_folioReload_of_range : exec (.folioReload slot) s = .next (
    if (s.flashReads id n (v.folioHdr.reads c)).isEmpty then s.reload c id n v
    else s.startReads slot (s.flashReads id n (v.folioHdr.reads c))) := by
  rw [exec_folioReload k hpins hv hi, if_neg (Nat.not_lt.mpr hr), if_neg ?_, if_neg (Nat.not_le.mpr hn)]
  simp only [Bool.and_eq_true, decide_eq_true_eq, not_and, Nat.not_lt]
  exact hstored

theorem exec_folioReload_of_reads (h : s.flashReads id n (v.folioHdr.reads c) ≠ []) : exec (.folioReload slot) s =
    .next (s.startReads slot (s.flashReads id n (v.folioHdr.reads c))) := by
  rw [exec_folioReload_of_range k hpins hv hi hr hstored hn, if_neg (by simpa using h)]

theorem folioReload_answers (h : s.flashReads id n (v.folioHdr.reads c) = []) : ∃ t : State,
    exec (.folioReload slot) s = .next ((t.writeResult c 0
      (((List.range (c.arg 48 2)).flatMap fun l => (List.range v.folioHdr.heads).map fun h => (c.arg 46 2 + l, h)).flatMap fun p =>
        if c.arg 50 1 = 1 then
          memRead v.data (v.folioHdr.blockAt p.1 p.2 (c.arg 52 4 / 128)) (c.arg 56 4 / 128 * v.folioHdr.blockBytes)
        else v.folioHdr.reloadRows v.data p.1 p.2 (c.arg 52 4) (c.arg 56 4))).finish slot .ok (c.arg 56 4) 0) ∧
    t = { s with tiers := t.tiers } := by
  have hparts : v.folioHdr.parts c = (List.range (c.arg 48 2)).flatMap fun l => (List.range v.folioHdr.heads).map fun h => (c.arg 46 2 + l, h) :=
    if_neg (by rw [k.opcode]; decide)
  refine ⟨s.touchAll id n (v.folioHdr.reads c), ?_, OnlyTiers.of_objects (State.touchAll_touchWork id n (v.folioHdr.reads c) s).rest⟩
  rw [exec_folioReload_of_range k hpins hv hi hr hstored hn, if_pos (by simpa using h), ← hparts]
  refine congrArg Host.Outcome.next ?_
  unfold State.reload
  rw [k.id_eq]
  rfl

end

end

/-! ### The statement -/

theorem folioAppend_takesEffect {s : State} {slot id n : Nat} {c : Slot} {ps : List (Nat × Nat)} {o : Obj} {v : Version}
    (hpins : c.pins = (id, n) :: ps) (ho : s.tiers.objects.find? (·.id = id) = some o) (hv : o.ver? n = some v) (hi : v.impaired = false)
    (k : Handed s slot 0x59 false c) (hr : v.folioHdr.tokens + c.arg 48 4 ≤ 128 * v.folioHdr.blocks)
    (hp : o.durable = false ∨ s.protected = false) (hb : (v.folioHdr.tokens + c.arg 48 4) / 128 = v.folioHdr.tokens / 128) :
    let f := v.folioHdr
    let qs := f.appendPages id n (c.arg 48 4)
    let head := (f.grown (c.arg 48 4) (s.dataBytes c)).bytes.take 64
    (o.durable = true → s.admitsDirty (4096 * (qs.length + 1)) = false → exec (.folioAppend slot) s =
      .next (s.setWork slot (.held (4096 * (qs.length + 1))))) ∧
    ((o.durable = true → s.admitsDirty (4096 * (qs.length + 1)) = true) → ∃ (t : State) (x y : Version),
      t.version? id n = some x ∧ (t.writeVersion id n 0 head).version? id n = some y ∧
      x.data = (f.appendRanges (c.arg 48 4)).foldl (fun m r =>
        memWrite m r.1 (memRead (f.appended (c.arg 48 4) (s.dataBytes c) v.data) r.1 r.2)) v.data ∧
      y.data = memWrite x.data 0 head ∧
      (t.writesThrough o = true → exec (.folioAppend slot) s =
        .next (t.awaitFlash slot qs [] [] (t.journalsFirst o) (f.tokens + c.arg 48 4))) ∧
      (t.writesThrough o = false → exec (.folioAppend slot) s =
        .next ((t.writeVersion id n 0 head).ackWrite slot o false ((id, n, 0) :: qs) (f.tokens + c.arg 48 4)))) := by
  have hexec := exec_folioAppend_of_open k hpins ho hv hi hr hp hb
  intro f qs head
  refine ⟨fun hd ha => hexec.trans (congrArg Host.Outcome.next (appendTokens_of_held k hpins ho hv hd ha)), fun ha => ?_⟩
  obtain ⟨x, y, hx, hy, hxdata, hydata⟩ := tokensWritten_has (c := c) ho hv
  have hroom := appendTokens_of_room k hpins ho hv ha
  exact ⟨_, x, y, hx, hy, hxdata, hydata,
    fun hw => hexec.trans (congrArg Host.Outcome.next (hroom.trans (if_pos hw))),
    fun hw => hexec.trans (congrArg Host.Outcome.next (hroom.trans (if_neg (Bool.eq_false_iff.mp hw))))⟩

/-- Settles O38: gathers, hot copies and folios by the model's equations, one lemma a case; what a step's reads keep by induction on
its rows, what an append writes by induction on its ranges. -/
theorem gathersAndFoliosTakeEffect : Obligations.GathersAndFoliosTakeEffect := by
  unfold Obligations.GathersAndFoliosTakeEffect
  refine ⟨⟨gathers_takeEffect, fun s slot id n h w => State.startStep_eq slot id n h w s,
    fun s slot id n c ps v w hc hp hw hpins hs hf hh hr hv hi => gatherStepEnd_takesEffect hc hp hw hpins hs hf hh hr hv hi,
    fun s h => exec_hotDecay h, prefetchProtectExpiry_takesEffect⟩, fun s slot c k hid => ⟨fun st hm h => exec_folioCreate_of_error k hid hm h,
    fun hm h hd ha => exec_folioCreate_of_held k hid hm h hd ha, fun hm h ha => folioCreate_stores k hid hm h ha⟩, ?_,
    fun f => ⟨f.length_bytes, f.fields⟩⟩
  intro s slot id n c ps o v hpins ho hv hi
  have hver := State.version?_of_ver? ho hv
  exact ⟨fun k h => exec_folioAppend_of_range k hpins ho hv hi h, fun k hr hp hb => folioAppend_takesEffect hpins ho hv hi k hr hp hb,
    fun k hr hp hb => folioAppend_seals k hpins ho hv hi hr hp hb,
    fun k h0 hle hb hp ha => folioTruncate_lowers k hpins ho hv hi h0 hle hb hp ha,
    fun k h => exec_folioTruncate_of_range k hpins ho hv hi h, fun k h => exec_folioAttend_of_range k hpins hver hi h,
    fun k hr hn h => exec_folioAttend_of_reads k hpins hver hi hr hn h, fun k hr hn h => folioAttend_runs k hpins hver hi hr hn h,
    fun k hr hstored hn => ⟨fun h => exec_folioReload_of_reads k hpins hver hi hr hstored hn h,
      fun h => folioReload_answers k hpins hver hi hr hstored hn h⟩⟩

end Sys2Proof.Machine
end
